-- ==== Sys2Proof/Word.lean ====
section
/-! DEFINITION. The word types of the TXA1440: registers are 32 bits wide (spec 00, R13), bytes are 8. -/

namespace Sys2Proof

/-- A register word (R13). -/
abbrev Word := BitVec 32

/-- A byte of memory or of a frame. -/
abbrev Byte := BitVec 8

end Sys2Proof
end

