-- ==== Sys2Proof/Syntax.lean ====
section
/-! DEFINITION. The commands of the block: one constructor of `Instr` per row of the table of operations and events.
The operands are what the outside world, or a unit of the module whose inner working the manual does not describe, supplies. -/

namespace Sys2Proof

/-- The register access paths (spec 03, R61, R81 `LOCK_VIOL_ADDR.PATH`). -/
inductive Path where
  | haywain | spi | debug | boot
deriving DecidableEq, Repr

/-- The two host links (spec 04, R83). -/
inductive Link where
  | a | b
deriving DecidableEq, Repr

/-- The result of one LBIST run (spec 08, R208). -/
inductive Lbist where
  | pass | fail | notRun
deriving DecidableEq, Repr, Inhabited

/-- What the self-tests and trainings of one start sequence return (spec 02, R50; spec 15, R380).
`first` and `second` list a result per unit code (R367); a unit not listed passes. -/
structure StartReport where
  trainFail : BitVec 4
  first     : List (Nat × Lbist)
  second    : List (Nat × Lbist)
  coreFail  : Bool
deriving DecidableEq, Repr, Inhabited

/-- A start sequence in which every unit passes. -/
def StartReport.allPass : StartReport :=
  { trainFail := 0, first := [], second := [], coreFail := false }

/-- The encapsulation a frame arrived in (spec 04, R84, R85). `checksum` is the UDP checksum field:
`none` when it is 0, else whether it verifies. `plain` is false for IPv4 options, a fragment or an IPv6 extension header. -/
inductive Encap where
  | udp4 (src : BitVec 32) (port : BitVec 16) (plain : Bool) (checksum : Option Bool)
  | udp6 (src : BitVec 128) (port : BitVec 16) (plain : Bool) (checksum : Option Bool)
  | raw
deriving DecidableEq, Repr

/-- What the rules look at in a received ARP or neighbour solicitation frame: whether its FCS holds, where it was sent and its VLAN
(spec 04, R83, R85). `dstMac` is as in `RxFrame`. -/
structure NetFrame where
  fcsOk  : Bool
  dstMac : BitVec 48
  vlan   : Option (BitVec 12)
deriving DecidableEq, Repr

/-- A received Haywain frame without its body (spec 04, R84 to R87). `room` is the number of body bytes that the
Ethernet frame leaves after the header and before the tag; `length` is the LENGTH field; `kind` is the TYPE byte: that of the
command's row, or one that no row has. `dstMac` holds the address in its
order of transmission, first byte least significant. -/
structure RxFrame where
  link    : Link
  fcsOk   : Bool
  dstMac  : BitVec 48
  vlan    : Option (BitVec 12)
  encap   : Encap
  version : BitVec 8
  kind    : BitVec 8
  session : BitVec 16
  seq     : BitVec 32
  ack     : BitVec 32
  length  : BitVec 16
  room    : Nat
  retx    : Bool
  tag     : BitVec 64
deriving DecidableEq, Repr

/-- One DOORBELL entry (spec 04, R104). -/
structure DbEntry where
  kind   : BitVec 8
  target : BitVec 8
  zero   : BitVec 16
  index  : BitVec 32
deriving DecidableEq, Repr

/-- Bytes 1 to 3 of a ring descriptor (spec 04, R101). -/
structure DescHdr where
  nocpl : Bool
  last  : Bool
  tag   : BitVec 16
deriving DecidableEq, Repr

/-- Bytes 4 to 31 of a ring descriptor, least significant byte first (spec 04, R101). -/
abbrev DescBody := BitVec 224

/-- The failing beats of a DMA descriptor (spec 14, R351, R352): offsets of beats that failed before the count reached
zero, with whether the failure arose in the shared buffer; and the same of a last beat that failed late, if it did. -/
structure BeatReport where
  bad  : List (Nat × Bool)
  late : Option Bool
deriving DecidableEq, Repr

/-- A pixel that a faulty blend lane composes wrong before its test finds the fault (spec 00 R2, spec 08 R209): its line in the
furrow, its column, and what it sends to the tap and to the panel. -/
structure LanePixel where
  line : Fin 8
  x    : Nat
  tap  : BitVec 8 × BitVec 8 × BitVec 8
  out  : BitVec 10 × BitVec 10 × BitVec 10
deriving DecidableEq, Repr

/-- What the memory path and the array report at one step of a pipe's line-position bus (spec 06 R145, R170, R172;
spec 07 R183; spec 08 R227): slots a bale of which is missing, slots with an address fault, contexts with a loft ECC error, the
sheaves of the line that are late: first column and length, and the pixels of the furrow that a faulty lane composes wrong (R2). -/
structure StepReport where
  missing   : List (Fin 96)
  badAddr   : List (Fin 96)
  loftEcc   : List Nat
  late      : List (Nat × Nat)
  wrong     : List LanePixel
deriving DecidableEq, Repr

/-- How a scan pass ends as far as memory decides it (spec 14, R359). -/
inductive ScanEnd where
  | read | ecc (addr : Nat) | refused
deriving DecidableEq, Repr

/-- Who requested a bale that returned an uncorrectable ECC error (spec 15, R370). -/
inductive EccUser where
  | fetch (slot : Fin 96) | loft (pipe : Fin 8) | dma (chan : Fin 32) | scan (engine : Fin 8) | other
deriving DecidableEq, Repr

/-- The commands: one constructor per row of spec/opcode_table.json, in its order. -/
inductive Instr where
  -- power and start (spec 02)
  | powerGood (rep : StartReport)
  | podlClassified (cls : BitVec 6) (watts : Nat) (noclass : Bool)
  | resetN (rep : StartReport)
  | softReset (path : Path) (w : Word) (rep : StartReport)
  | lineLoss
  | tempSample (tj : BitVec 12)
  | vbusOvercurrent
  | vbusRetry (overcurrent : Bool)
  -- register accesses (spec 03)
  | regWrite (path : Path) (addr : Word) (w : Word)
  | counterClear (path : Path) (addr : Word)
  | aliasWrite (path : Path) (addr : Word) (w : Word)
  | writeLo (path : Path) (addr : Word) (w : Word)
  | writeHi (path : Path) (addr : Word) (w : Word)
  | indexWrite (path : Path) (addr : Word) (w : Word)
  | dataRead (path : Path) (addr : Word)
  | dataWrite (path : Path) (addr : Word) (w : Word)
  | spiReadInc (addr : BitVec 24) (count : Nat)
  | spiReadFixed (addr : BitVec 24) (count : Nat)
  | spiWriteInc (addr : BitVec 24) (bytes : List Byte)
  | spiWriteFixed (addr : BitVec 24) (bytes : List Byte)
  | strobe (path : Path) (w : Word)
  | strobeProofDone
  -- Haywain link (spec 04)
  | openSession (f : RxFrame) (hostNonce : BitVec 64)
  | openTimeout
  | close (f : RxFrame)
  | sessionCloseReg (path : Path)
  | ack (f : RxFrame)
  | keepalive (f : RxFrame)
  | ackDue
  | keepaliveTimer
  | retxTimeout
  | linkDown (l : Link)
  | linkUp (l : Link) (partner1000 : Bool)
  | linkSleepRequest (l : Link)
  | linkWakeup (l : Link)
  | linkWakeRequest (path : Path) (l : Link)
  | arpRequest (l : Link) (frame : NetFrame) (target : BitVec 32) (senderIp : BitVec 32) (senderMac : BitVec 48)
  | neighbourSolicitation (l : Link) (frame : NetFrame) (target : BitVec 128) (senderIp : BitVec 128) (senderMac : BitVec 48)
  | doorbellSubmit (f : RxFrame) (target : BitVec 8) (index : BitVec 32) (rest : List DbEntry)
  | doorbellCplCi (f : RxFrame) (target : BitVec 8) (index : BitVec 32) (rest : List DbEntry)
  | doorbellPrecCi (f : RxFrame) (target : BitVec 8) (index : BitVec 32) (rest : List DbEntry)
  | doorbellEqCi (f : RxFrame) (target : BitVec 8) (index : BitVec 32) (rest : List DbEntry)
  | ringPoll (ring : Fin 32)
  | readResp (f : RxFrame) (id : BitVec 16) (status : BitVec 8) (data : List Byte)
  | regRd (f : RxFrame) (addr : Word) (count : BitVec 8) (fixed : Bool) (extra : List Byte)
  | regWr (f : RxFrame) (addr : Word) (count : BitVec 8) (fixed : Bool) (words : List Word) (extra : List Byte)
  -- rings (spec 04)
  | ringRun (path : Path) (ring : Fin 32)
  | ringStop (path : Path) (ring : Fin 32)
  | ringReset (path : Path) (ring : Fin 32)
  | ringResume (path : Path) (ring : Fin 32)
  | precEnable (path : Path) (pipe : Fin 8) (w : Word)
  | nop (ring : Fin 32) (h : DescHdr) (body : DescBody)
  | jump (ring : Fin 32) (h : DescHdr) (body : DescBody)
  -- scenes (spec 05)
  | layerWords (ring : Fin 32) (h : DescHdr) (body : DescBody)
  | layerBlock (ring : Fin 32) (h : DescHdr) (body : DescBody)
  | objWords (ring : Fin 32) (h : DescHdr) (body : DescBody)
  | objBlock (ring : Fin 32) (h : DescHdr) (body : DescBody)
  | lutLoad (ring : Fin 32) (h : DescHdr) (body : DescBody)
  | matrix (ring : Fin 32) (h : DescHdr) (body : DescBody)
  | loftLoad (ring : Fin 32) (h : DescHdr) (body : DescBody)
  | fenceAcq (ring : Fin 32) (h : DescHdr) (body : DescBody)
  | commit (ring : Fin 32) (h : DescHdr) (body : DescBody)
  | winnowProofEnd
  -- DMA (spec 14)
  | copy (ring : Fin 32) (h : DescHdr) (body : DescBody)
  | fill (ring : Fin 32) (h : DescHdr) (body : DescBody)
  | write32 (ring : Fin 32) (h : DescHdr) (body : DescBody)
  | dmaDescDone (chan : Fin 32) (rep : BeatReport)
  | triggerTimer (chan : Fin 32)
  | engineHalt
  | engineRestart (path : Path)
  | scanGo (path : Path) (engine : Fin 8)
  | scanStop (path : Path) (engine : Fin 8)
  | scanDone (engine : Fin 8) (how : ScanEnd)
  -- raster (specs 05 to 10)
  | frameStart (pipe : Fin 8) (granEcc : List Nat)
  | commitDeadline (stook : Fin 8)
  | fencePoll
  | linePositionStep (pipe : Fin 8) (rep : StepReport)
  | lastBaleFetched (slot : Fin 96)
  | loftLoadDone (pipe : Fin 8)
  -- faults (spec 15)
  | eccUncorrectable (addr : Nat) (user : EccUser)
  | eccRereadDone (chan : Fin 4) (correct : Bool)
  | unitFailure (unit : BitVec 8) (cause : BitVec 8)
  | mcRecoveryDone
  | reproofDone
  | linkRecoveryDone (l : Link)
  | retirementRecord
  | rrecConsume (path : Path) (w : Word)
  | rrecEnable (path : Path) (w : Word)
  | retestGo (path : Path) (w : Word)
  | retestDone (result : Lbist)
  | rotationSwap
  | lbistResult (result : Lbist)
  | rotationLate (lane : Fin 17)
  -- pipes and lane field (specs 10, 11)
  | pllLocked (pll : Fin 4)
  | pllLockTimeout (pll : Fin 4)
  | teEdge (pipe : Fin 8)
  | teMissing (pipe : Fin 8)
  | camLockLost (pipe : Fin 8)
  | hpdHigh (group : Fin 8) (sinkOk : Bool)
  | hpdLowTimeout (group : Fin 8)
  | hpdPulse (group : Fin 8) (lanesLocked : Bool)
  | hpdWaitTimeout (group : Fin 8)
  | linkReady (group : Fin 8)
  | pktGo (path : Path) (group : Fin 8)
  | pktDone (group : Fin 8) (ok : Bool) (resp : List Byte)
  | pktDataPush (path : Path) (group : Fin 8) (w : Word)
  | pktDataPop (path : Path) (group : Fin 8)
  | camFrameStart (cam : Fin 6)
  | camLine (cam : Fin 6) (headerOk crcOk : Bool) (bytes : List Byte)
  | camLineWritten (cam : Fin 6)
  | camFrameEnd (cam : Fin 6)
  | ptpSync (domain : BitVec 7) (offset : Int) (ratePpb : Int)
  | ptpPdelayReq (domain : BitVec 7) (seqId : BitVec 16)
  | ptpPdelayTimer
  | timeHoldover
  -- light (spec 12)
  | zoneUpdate (pipe : Fin 8)
  | blinkPhase (genB : Bool)
  | bulbCheckEnd
  | ttOpenLoad (ch : Fin 24)
  | ttOffTest (ch : Fin 24) (isOpen : Bool)
  | ttShort (ch : Fin 24)
  | ttShortRetry (ch : Fin 24) (stillShort : Bool)
  | canFrameReceived (bus : Fin 2) (ide : Bool) (id : BitVec 29) (remote : Bool) (data : List Byte)
  | mapperTimeout (entry : Fin 64)
  | canStatusTx (bus : Fin 2)
  | busOff (bus : Fin 2)
  -- events (spec 13)
  | snsChange (pin : Fin 8) (level : Bool)
  | eventOccurrence (source : Fin 1024) (level : Bool)
  | resample (source : Fin 1024)
  | eventRecordIssue
  | sourceComplete (path : Path) (source : Fin 1024)
  | sourceMask (path : Path) (source : Fin 1024) (mask : Bool)
  | queueSleep (path : Path) (queue : Fin 8)
  | queueAwake (path : Path) (queue : Fin 8)
  | qmaskClear (path : Path) (queue : Fin 8)
  | spiFlagClear (path : Path) (source : Fin 1024)
  -- barn (spec 16)
  | rawFlush (path : Path)
  | rawErase (path : Path)
  | rawDone (ok : Bool)
  | journalWrite (path : Path)
  | jwDone
  | journalRead (path : Path)
  | jrDone
  | gleanerRun
  | sectorRetired (sector : Fin 128) (erase : Bool)
  | faultSummaryWrite
  -- performance counters (spec 17)
  | perfStart (path : Path)
  | perfStop (path : Path)
  | perfWindowEnd
  -- rows added at the end of the table
  | pwmPeriodBoundary
  | wakePulseEnd
  | busOffRecovery (bus : Fin 2)
  | canBusError (bus : Fin 2) (tec rec : BitVec 8)
  | ttCheckPass (ch : Fin 24)
  | sectorEraseDone (sector : Nat)
  | ptpPdelayResp (domain : BitVec 7) (seqId : BitVec 16) (delayNs : Nat)
deriving DecidableEq, Repr

end Sys2Proof
end

