-- ==== Sys2Proof/Decode.lean ====
section
/-! DEFINITION. Reading a command from a word. The table of operations and events gives its rows no bits: a command reaches
the module as a register access, a frame, a descriptor or an event of a unit, never as a word of its own. -/

namespace Sys2Proof

/-- The command that a word spells by the table's bits: none, since no row of the table gives bits. -/
def decodeTableWord (_nbits _w : Nat) : Option Instr := none

end Sys2Proof
end

