-- ==== Sys2Proof/Config.lean ====
section
/-! DEFINITION. What an implementation fixes and the manual leaves open: constants without a body, so that no proof can see
their value (the free values of the model), and the figures that the manual fixes for every module. -/

namespace Sys2Proof.Config

/-- The content of a boot image, as the module uses it (R41, R42, R46, R49, R184, R291, R317, R386). The manual gives no byte
format. `panels` holds a panel list for each lane group: the packet as PKT_CTL has it, its payload, and the delay after it in ms. -/
structure BootImage where
  version      : Word
  profileMax   : BitVec 2
  boardReserve : Nat
  fallbackKind : Bool
  loftFloor    : BitVec 23
  fbBase       : BitVec 16
  fbCount      : BitVec 16
  panels       : List (List (Word × List Byte × Nat))
  powerDelay   : List Nat
  regs         : List (Word × Word)
deriving DecidableEq, Repr, Inhabited

/-- Free value: the reserved bits of the register at a byte address (R66). -/
opaque trim : Nat → Word

/-- Free value: the fused unique identifier (R81). -/
opaque uid : BitVec 64

/-- Free value: the n-th number drawn from the on-die random source (R90). -/
opaque nonce : Nat → BitVec 64

/-- Free value: a byte that the manual calls undefined (R352, R374, R382); the arguments are the free counter and the address. -/
opaque undefByte : Nat → Nat → Byte

/-- Free value: whether the record in hand is finished within the hold-up of a line loss (R51: it depends on timing). -/
opaque recordFinished : Nat → Bool

/-- Free value: what the boot image bytes say (R386); no byte format is given. -/
opaque bootImage : List Byte → BootImage

/-- Free value: the self-test and training outcome of a start sequence that a register write begins (R50, R79). -/
opaque startReport : Nat → StartReport

/-- Free value: the background colour that the bytes of a boot scene or of fallback tables give a pipe (R317, R419; the manual does
not place its entry). -/
opaque background : List Byte → Nat → BitVec 24

/-- Free value: the CRC of a memory region written during a scan pass is of neither version (R359). -/
opaque scanCrc : Nat → Word

/-- Free value: which of the taps that share the largest coefficient takes the residue of rounding (R160), by step and phase. -/
opaque residueTap : Nat → Nat → Nat

/-- Free value: whether the lead on a port is whole again after a recovery (R372: it depends on bale timing). -/
opaque leadWhole : Nat → Bool

/-- Free value: how many class I layers a pipe sheds before its fetch units keep up (R372). -/
opaque rideSheds : Nat → Nat

/-- Free value: the frame period in ns of a camera that has sent one frame-start packet only (R279). -/
opaque camPeriod : Nat → Nat

/-- Free value: how many bales of a burst were still to be moved when S0 or S1 cut it (R235: it depends on burst timing). -/
opaque cutBales : Nat → Nat

/-- Free value: the least time in ns from the silo arrival of some bales to the output line that needs them (R407: it depends on
burst timing). -/
opaque baleLead : Nat → Nat

/-- Free value: how many bales of a layer fell inside a recovery and were read from the twin (R167). -/
opaque twinBales : Nat → Nat

/-- Free value: which bales of a layer those were, by the free counter and the bale's number in device memory (R167). -/
opaque fromTwin : Nat → Nat → Bool

/-- Free value: how many errors of a memory channel ECC has corrected in a period (R370). -/
opaque corrected : Nat → Nat

end Sys2Proof.Config
end

