-- ==== Sys2Proof/Machine/Bits.lean ====
section
/-! DEFINITION. Bit fields, byte order and the small integer operations of the manual (spec 00: R13, R14, `div255`; rounding). -/

namespace Sys2Proof.Machine

/-- The bits [hi:lo] of a word as a number (R13). -/
def bits (w : Word) (hi lo : Nat) : Nat := (w.toNat >>> lo) % 2 ^ (hi - lo + 1)

/-- The word with ones in [hi:lo]. -/
def mask (hi lo : Nat) : Word := BitVec.ofNat 32 ((2 ^ (hi - lo + 1) - 1) <<< lo)

/-- The word with the bits [hi:lo] replaced by the low bits of `v`. -/
def setBits (w : Word) (hi lo v : Nat) : Word :=
  (w &&& ~~~(mask hi lo)) ||| (BitVec.ofNat 32 (v <<< lo) &&& mask hi lo)

/-- Bit `i` of a number. -/
def bitOf (n i : Nat) : Bool := n.testBit i

/-- A number with bit `i` set or cleared. -/
def withBit (n i : Nat) (b : Bool) : Nat :=
  if b then n ||| (1 <<< i) else if n.testBit i then n - (1 <<< i) else n

/-- The `n` bytes of a number, least significant first (R13). -/
def leBytes : Nat → Nat → List Byte
  | 0, _ => []
  | n + 1, v => BitVec.ofNat 8 v :: leBytes n (v / 256)

/-- The number that bytes spell, least significant first. -/
def leNat : List Byte → Nat
  | [] => 0
  | b :: bs => b.toNat + 256 * leNat bs

/-- A word from its four bytes, least significant first. -/
def leWord (bs : List Byte) : Word := BitVec.ofNat 32 (leNat (bs.take 4))

/-- The words that bytes spell; a cut last word is dropped. -/
def leWords : Nat → List Byte → List Word
  | 0, _ => []
  | n + 1, bs => if bs.length < 4 then [] else leWord bs :: leWords n (bs.drop 4)

/-- The number at bytes `off` onward, `n` bytes, of a list. -/
def leAt (bs : List Byte) (off n : Nat) : Nat := leNat ((bs.drop off).take n)

/-- `n` bits from bit `lo` of a descriptor body, `off` counted from the start of the descriptor (its body starts at 4). -/
def bodyBits (b : BitVec 224) (off lo n : Nat) : Nat := (b.toNat >>> ((off - 4) * 8 + lo)) % 2 ^ n

/-- The signed value of the low `n` bits of a number. -/
def signed (n v : Nat) : Int :=
  let u := v % 2 ^ n
  if u < 2 ^ (n - 1) then (u : Int) else (u : Int) - (2 ^ n : Nat)

/-- An integer as an `n`-bit two's complement number. -/
def unsigned (n : Nat) (v : Int) : Nat := (v % (2 ^ n : Nat)).toNat

/-- Serial distance of 32-bit indices: (a − b) mod 2³² (R104). -/
def dist (a b : BitVec 32) : Nat := (a - b).toNat

/-- Saturating addition (counters that saturate at an all-ones value of `n` bits). -/
def satAdd (n v d : Nat) : Nat := min (v + d) (2 ^ n - 1)

/-- Division rounding up; 0 for a zero divisor. -/
def ceilDiv (a b : Nat) : Nat := if b = 0 then 0 else (a + b - 1) / b

/-- The class S rounding of the manual (spec 00, Pseudocode). -/
def div255 (x : Nat) : Nat := (x + 128 + ((x + 128) >>> 8)) >>> 8

/-- An integer clamped to a range, as a number. -/
def clampNat (lo hi : Int) (v : Int) : Nat := (max lo (min hi v)).toNat

/-- Bit replication from `n` to `m` bits (R155). -/
def widen (n m v : Nat) : Nat :=
  if n = 0 then 0
  else
    let reps := m / n + 1
    let all := (List.range reps).foldl (fun acc _ => acc * 2 ^ n + v % 2 ^ n) 0
    all >>> (reps * n - m)

/-- Element of a list or a default. -/
def nth {α : Type} (d : α) (l : List α) (i : Nat) : α := (l[i]?).getD d

/-- The numbers below `n` whose bit is set in `v`. -/
def setBitsBelow (n v : Nat) : List Nat := (List.range n).filter (fun i => v.testBit i)

end Sys2Proof.Machine
end

