-- ==== Sys2Proof/Machine/Crc.lean ====
section
/-! DEFINITION. The check values of spec 14, R358: CRC-32, CRC-32C, CRC-16/CCITT and CRC-8 (SAE J1850). -/

namespace Sys2Proof.Machine

/-- One bit of a reflected CRC of 32 bits with the reflected polynomial `poly`. -/
def crcStepR (poly crc : Nat) : Nat :=
  if crc.testBit 0 then (crc >>> 1) ^^^ poly else crc >>> 1

/-- One byte into a reflected CRC: least significant bit first. -/
def crcByteR (poly crc : Nat) (b : Byte) : Nat :=
  let c := crc ^^^ b.toNat
  crcStepR poly (crcStepR poly (crcStepR poly (crcStepR poly
    (crcStepR poly (crcStepR poly (crcStepR poly (crcStepR poly c)))))))

/-- One bit of an unreflected CRC of `n` bits. -/
def crcStepF (n poly crc : Nat) : Nat :=
  if crc.testBit (n - 1) then ((crc <<< 1) % 2 ^ n) ^^^ poly else (crc <<< 1) % 2 ^ n

/-- One byte into an unreflected CRC of `n` bits. -/
def crcByteF (n poly crc : Nat) (b : Byte) : Nat :=
  (List.range 8).foldl (fun c _ => crcStepF n poly c) (crc ^^^ (b.toNat <<< (n - 8)))

/-- The state of CRC-32 (IEEE 802.3) after more bytes; it starts at 0xFFFF_FFFF. -/
def crc32Feed (crc : Nat) (bs : List Byte) : Nat := bs.foldl (crcByteR 0xEDB88320) crc

/-- POLY 0x0: CRC-32 (IEEE 802.3). -/
def crc32 (bs : List Byte) : Nat := crc32Feed 0xFFFFFFFF bs ^^^ 0xFFFFFFFF

/-- POLY 0x1: CRC-32C. -/
def crc32c (bs : List Byte) : Nat := bs.foldl (crcByteR 0x82F63B78) 0xFFFFFFFF ^^^ 0xFFFFFFFF

/-- POLY 0x2: CRC-16/CCITT. -/
def crc16 (bs : List Byte) : Nat := bs.foldl (crcByteF 16 0x1021) 0xFFFF

/-- POLY 0x3: CRC-8 (SAE J1850). -/
def crc8 (bs : List Byte) : Nat := bs.foldl (crcByteF 8 0x1D) 0xFF ^^^ 0xFF

/-- The CRC of R358 that POLY names. -/
def crcOf (poly : Nat) (bs : List Byte) : Nat :=
  match poly with
  | 0 => crc32 bs
  | 1 => crc32c bs
  | 2 => crc16 bs
  | _ => crc8 bs

end Sys2Proof.Machine
end

