-- ==== Sys2Proof/Machine/RegMap.lean ====
section
/-! DEFINITION. The register address map (spec 03, R64), written from the register tables of the manual: every register with
its byte address, its instances, the bits of each access code (R16) and its reset word. Reserved bits are in no mask:
their value is `Config.trim` (R66). `A` holds the addresses, `F` the fields. -/

namespace Sys2Proof.Machine

/-- One register of the map. Instance `i` lies at `base + stride * (i / inner) + stride2 * (i % inner)`. -/
structure RegRow where
  name    : String
  base    : Nat
  count   : Nat
  stride  : Nat
  inner   : Nat
  stride2 : Nat
  rw      : Word
  ro      : Word
  w1c     : Word
  w1s     : Word
  wo1     : Word
  srw     : Word
  lkw     : Word
  reset   : Nat → Word

/-- A field of a register: the register's address and its bit range, R13. -/
structure Fld where
  addr : Nat
  hi   : Nat
  lo   : Nat
deriving DecidableEq, Repr

/-- The class of a scheduler subscriber by its number (R230); planar subscribers read S1 until a class S layer is in force. -/
def subClass (k : Nat) : Nat :=
  if k < 96 then 1 else if k < 102 then 2 else if k < 104 then 0 else if k < 136 then 3
  else if k < 202 then 4 else if k < 211 then 5 else 0

/-- The level sources of the event controller by their chapters (R324, R346, R384): TEMP_WARN, QUEUE_FULL, RREC_HELD. -/
def levelSource (k : Nat) : Bool := k == 0 || (8 ≤ k && k < 16) || k == 35 || (760 ≤ k && k < 768)

/-- Block SYS (R81). -/
def rowsSys : List RegRow := [
  { name := "SYS.ID", base := 0, count := 1, stride := 0, inner := 1, stride2 := 0,
    rw := 0, ro := 0xFFFFFFFF, w1c := 0, w1s := 0, wo1 := 0, srw := 0, lkw := 0, reset := fun _ => 0x1440A246 },
  { name := "SYS.BOOT_VER", base := 0x4, count := 1, stride := 0, inner := 1, stride2 := 0,
    rw := 0, ro := 0xFFFFFFFF, w1c := 0, w1s := 0, wo1 := 0, srw := 0, lkw := 0, reset := fun _ => 0 },
  { name := "SYS.UID_LO", base := 0x8, count := 1, stride := 0, inner := 1, stride2 := 0,
    rw := 0, ro := 0xFFFFFFFF, w1c := 0, w1s := 0, wo1 := 0, srw := 0, lkw := 0, reset := fun _ => 0 },
  { name := "SYS.UID_HI", base := 0xC, count := 1, stride := 0, inner := 1, stride2 := 0,
    rw := 0, ro := 0xFFFFFFFF, w1c := 0, w1s := 0, wo1 := 0, srw := 0, lkw := 0, reset := fun _ => 0 },
  { name := "SYS.STATE", base := 0x10, count := 1, stride := 0, inner := 1, stride2 := 0,
    rw := 0, ro := 0xFFFF, w1c := 0, w1s := 0, wo1 := 0, srw := 0, lkw := 0, reset := fun _ => 0 },
  { name := "SYS.RESET_CAUSE", base := 0x14, count := 1, stride := 0, inner := 1, stride2 := 0,
    rw := 0, ro := 0, w1c := 0xF, w1s := 0, wo1 := 0, srw := 0, lkw := 0, reset := fun _ => 0 },
  { name := "SYS.RESET_CTL", base := 0x18, count := 1, stride := 0, inner := 1, stride2 := 0,
    rw := 0xFFFF, ro := 0, w1c := 0, w1s := 0x10000, wo1 := 0, srw := 0, lkw := 0, reset := fun _ => 0 },
  { name := "SYS.VIEW", base := 0x1C, count := 1, stride := 0, inner := 1, stride2 := 0,
    rw := 0x1, ro := 0, w1c := 0, w1s := 0, wo1 := 0, srw := 0, lkw := 0, reset := fun _ => 0 },
  { name := "SYS.PROFILE", base := 0x20, count := 1, stride := 0, inner := 1, stride2 := 0,
    rw := 0, ro := 0x330, w1c := 0, w1s := 0x80000000, wo1 := 0, srw := 0, lkw := 0x3, reset := fun _ => 0 },
  { name := "SYS.PODL_STAT", base := 0x24, count := 1, stride := 0, inner := 1, stride2 := 0,
    rw := 0, ro := 0x3F3F40, w1c := 0, w1s := 0x80000000, wo1 := 0, srw := 0, lkw := 0x3F, reset := fun _ => 0 },
  { name := "SYS.STAGGER", base := 0x28, count := 1, stride := 0, inner := 1, stride2 := 0,
    rw := 0, ro := 0, w1c := 0, w1s := 0, wo1 := 0, srw := 0xFF, lkw := 0, reset := fun _ => 0x32 },
  { name := "SYS.TEMP", base := 0x2C, count := 1, stride := 0, inner := 1, stride2 := 0,
    rw := 0, ro := 0x30FFF, w1c := 0, w1s := 0, wo1 := 0, srw := 0, lkw := 0, reset := fun _ => 0 },
  { name := "SYS.STROBE", base := 0x30, count := 1, stride := 0, inner := 1, stride2 := 0,
    rw := 0, ro := 0, w1c := 0, w1s := 0xFFFF, wo1 := 0, srw := 0, lkw := 0, reset := fun _ => 0 },
  { name := "SYS.STROBE_PEND", base := 0x34, count := 1, stride := 0, inner := 1, stride2 := 0,
    rw := 0, ro := 0xFFFFFF, w1c := 0, w1s := 0, wo1 := 0, srw := 0, lkw := 0, reset := fun _ => 0 },
  { name := "SYS.STROBE_STAT", base := 0x38, count := 1, stride := 0, inner := 1, stride2 := 0,
    rw := 0, ro := 0xFF0000, w1c := 0xFFFF, w1s := 0, wo1 := 0, srw := 0, lkw := 0, reset := fun _ => 0 },
  { name := "SYS.LOCK_VIOL", base := 0x40, count := 1, stride := 0, inner := 1, stride2 := 0,
    rw := 0, ro := 0xFFFF, w1c := 0, w1s := 0x80000000, wo1 := 0, srw := 0, lkw := 0, reset := fun _ => 0 },
  { name := "SYS.LOCK_VIOL_ADDR", base := 0x44, count := 1, stride := 0, inner := 1, stride2 := 0,
    rw := 0, ro := 0x7FFFFF, w1c := 0, w1s := 0, wo1 := 0, srw := 0, lkw := 0, reset := fun _ => 0 },
  { name := "SYS.LOCKS", base := 0x48, count := 1, stride := 0, inner := 1, stride2 := 0,
    rw := 0, ro := 0xF, w1c := 0, w1s := 0, wo1 := 0, srw := 0, lkw := 0, reset := fun _ => 0 },
  { name := "SYS.UNMAPPED", base := 0x4C, count := 1, stride := 0, inner := 1, stride2 := 0,
    rw := 0, ro := 0xFFFF, w1c := 0, w1s := 0x80000000, wo1 := 0, srw := 0, lkw := 0, reset := fun _ => 0 } ]

/-- Block RING (R113,R114). -/
def rowsRing : List RegRow := [
  { name := "RING.HW_CTL", base := 0x10000, count := 1, stride := 0, inner := 1, stride2 := 0,
    rw := 0x3FFFFFFF, ro := 0, w1c := 0, w1s := 0, wo1 := 0, srw := 0, lkw := 0, reset := fun _ => 0x3 },
  { name := "RING.HW_PORT", base := 0x10004, count := 1, stride := 0, inner := 1, stride2 := 0,
    rw := 0xFFFF, ro := 0, w1c := 0, w1s := 0, wo1 := 0, srw := 0, lkw := 0, reset := fun _ => 0xC8F0 },
  { name := "RING.MAC_LO", base := 0x10008, count := 1, stride := 0, inner := 1, stride2 := 0,
    rw := 0xFFFFFFFF, ro := 0, w1c := 0, w1s := 0, wo1 := 0, srw := 0, lkw := 0, reset := fun _ => 0 },
  { name := "RING.MAC_HI", base := 0x1000C, count := 1, stride := 0, inner := 1, stride2 := 0,
    rw := 0xFFFF, ro := 0, w1c := 0, w1s := 0, wo1 := 0, srw := 0, lkw := 0, reset := fun _ => 0 },
  { name := "RING.HOST_MAC_LO", base := 0x10010, count := 1, stride := 0, inner := 1, stride2 := 0,
    rw := 0xFFFFFFFF, ro := 0, w1c := 0, w1s := 0, wo1 := 0, srw := 0, lkw := 0, reset := fun _ => 0 },
  { name := "RING.HOST_MAC_HI", base := 0x10014, count := 1, stride := 0, inner := 1, stride2 := 0,
    rw := 0xFFFF, ro := 0, w1c := 0, w1s := 0, wo1 := 0, srw := 0, lkw := 0, reset := fun _ => 0 },
  { name := "RING.IP4_LOCAL", base := 0x10018, count := 1, stride := 0, inner := 1, stride2 := 0,
    rw := 0xFFFFFFFF, ro := 0, w1c := 0, w1s := 0, wo1 := 0, srw := 0, lkw := 0, reset := fun _ => 0 },
  { name := "RING.IP4_HOST", base := 0x1001C, count := 1, stride := 0, inner := 1, stride2 := 0,
    rw := 0xFFFFFFFF, ro := 0, w1c := 0, w1s := 0, wo1 := 0, srw := 0, lkw := 0, reset := fun _ => 0 },
  { name := "RING.IP6_LOCAL", base := 0x10020, count := 4, stride := 4, inner := 1, stride2 := 0,
    rw := 0xFFFFFFFF, ro := 0, w1c := 0, w1s := 0, wo1 := 0, srw := 0, lkw := 0, reset := fun _ => 0 },
  { name := "RING.IP6_HOST", base := 0x10030, count := 4, stride := 4, inner := 1, stride2 := 0,
    rw := 0xFFFFFFFF, ro := 0, w1c := 0, w1s := 0, wo1 := 0, srw := 0, lkw := 0, reset := fun _ => 0 },
  { name := "RING.KEY", base := 0x10040, count := 4, stride := 4, inner := 1, stride2 := 0,
    rw := 0, ro := 0, w1c := 0, w1s := 0, wo1 := 0xFFFFFFFF, srw := 0, lkw := 0, reset := fun _ => 0 },
  { name := "RING.LINK_STAT", base := 0x10050, count := 1, stride := 0, inner := 1, stride2 := 0,
    rw := 0, ro := 0x3FF37, w1c := 0, w1s := 0, wo1 := 0, srw := 0, lkw := 0, reset := fun _ => 0 },
  { name := "RING.SESSION", base := 0x10054, count := 1, stride := 0, inner := 1, stride2 := 0,
    rw := 0, ro := 0x3FFFF, w1c := 0, w1s := 0x1000000, wo1 := 0, srw := 0, lkw := 0, reset := fun _ => 0 },
  { name := "RING.HOP_LIMIT", base := 0x10058, count := 1, stride := 0, inner := 1, stride2 := 0,
    rw := 0xFFFF, ro := 0, w1c := 0, w1s := 0, wo1 := 0, srw := 0, lkw := 0, reset := fun _ => 0x1000 },
  { name := "RING.KEEPALIVE", base := 0x1005C, count := 1, stride := 0, inner := 1, stride2 := 0,
    rw := 0xFFFF, ro := 0, w1c := 0, w1s := 0, wo1 := 0, srw := 0, lkw := 0, reset := fun _ => 0x64 },
  { name := "RING.RX_REJECT", base := 0x10060, count := 1, stride := 0, inner := 1, stride2 := 0,
    rw := 0, ro := 0xFFFF, w1c := 0, w1s := 0x80000000, wo1 := 0, srw := 0, lkw := 0, reset := fun _ => 0 },
  { name := "RING.RETX", base := 0x10064, count := 1, stride := 0, inner := 1, stride2 := 0,
    rw := 0, ro := 0xFFFF, w1c := 0, w1s := 0x80000000, wo1 := 0, srw := 0, lkw := 0, reset := fun _ => 0 },
  { name := "RING.FAILOVER", base := 0x10068, count := 1, stride := 0, inner := 1, stride2 := 0,
    rw := 0, ro := 0xFFFF, w1c := 0, w1s := 0x80000000, wo1 := 0, srw := 0, lkw := 0, reset := fun _ => 0 },
  { name := "RING.BAD_DB", base := 0x1006C, count := 1, stride := 0, inner := 1, stride2 := 0,
    rw := 0, ro := 0xFFFF, w1c := 0, w1s := 0x80000000, wo1 := 0, srw := 0, lkw := 0, reset := fun _ => 0 },
  { name := "RING.SQ_LO", base := 0x11000, count := 32, stride := 64, inner := 1, stride2 := 0,
    rw := 0xFFFFFFFF, ro := 0, w1c := 0, w1s := 0, wo1 := 0, srw := 0, lkw := 0, reset := fun _ => 0 },
  { name := "RING.SQ_HI", base := 0x11004, count := 32, stride := 64, inner := 1, stride2 := 0,
    rw := 0xFFFFFFFF, ro := 0, w1c := 0, w1s := 0, wo1 := 0, srw := 0, lkw := 0, reset := fun _ => 0 },
  { name := "RING.CQ_LO", base := 0x11008, count := 32, stride := 64, inner := 1, stride2 := 0,
    rw := 0xFFFFFFFF, ro := 0, w1c := 0, w1s := 0, wo1 := 0, srw := 0, lkw := 0, reset := fun _ => 0 },
  { name := "RING.CQ_HI", base := 0x1100C, count := 32, stride := 64, inner := 1, stride2 := 0,
    rw := 0xFFFFFFFF, ro := 0, w1c := 0, w1s := 0, wo1 := 0, srw := 0, lkw := 0, reset := fun _ => 0 },
  { name := "RING.POLL_LO", base := 0x11010, count := 32, stride := 64, inner := 1, stride2 := 0,
    rw := 0xFFFFFFFF, ro := 0, w1c := 0, w1s := 0, wo1 := 0, srw := 0, lkw := 0, reset := fun _ => 0 },
  { name := "RING.POLL_HI", base := 0x11014, count := 32, stride := 64, inner := 1, stride2 := 0,
    rw := 0xFFFFFFFF, ro := 0, w1c := 0, w1s := 0, wo1 := 0, srw := 0, lkw := 0, reset := fun _ => 0 },
  { name := "RING.CFG", base := 0x11018, count := 32, stride := 64, inner := 1, stride2 := 0,
    rw := 0x7F1F03, ro := 0, w1c := 0, w1s := 0, wo1 := 0, srw := 0, lkw := 0, reset := fun _ => 0x400 },
  { name := "RING.CTL", base := 0x1101C, count := 32, stride := 64, inner := 1, stride2 := 0,
    rw := 0x1, ro := 0, w1c := 0, w1s := 0x6, wo1 := 0, srw := 0, lkw := 0, reset := fun _ => 0 },
  { name := "RING.STAT", base := 0x11020, count := 32, stride := 64, inner := 1, stride2 := 0,
    rw := 0, ro := 0xF07, w1c := 0, w1s := 0, wo1 := 0, srw := 0, lkw := 0, reset := fun _ => 0 },
  { name := "RING.PI", base := 0x11024, count := 32, stride := 64, inner := 1, stride2 := 0,
    rw := 0, ro := 0xFFFFFFFF, w1c := 0, w1s := 0, wo1 := 0, srw := 0, lkw := 0, reset := fun _ => 0 },
  { name := "RING.CI", base := 0x11028, count := 32, stride := 64, inner := 1, stride2 := 0,
    rw := 0, ro := 0xFFFFFFFF, w1c := 0, w1s := 0, wo1 := 0, srw := 0, lkw := 0, reset := fun _ => 0 },
  { name := "RING.CPL_PI", base := 0x1102C, count := 32, stride := 64, inner := 1, stride2 := 0,
    rw := 0, ro := 0xFFFFFFFF, w1c := 0, w1s := 0, wo1 := 0, srw := 0, lkw := 0, reset := fun _ => 0 },
  { name := "RING.HOST_CI", base := 0x11030, count := 32, stride := 64, inner := 1, stride2 := 0,
    rw := 0, ro := 0xFFFFFFFF, w1c := 0, w1s := 0, wo1 := 0, srw := 0, lkw := 0, reset := fun _ => 0 },
  { name := "RING.STOP_INDEX", base := 0x11034, count := 32, stride := 64, inner := 1, stride2 := 0,
    rw := 0, ro := 0xFFFFFFFF, w1c := 0, w1s := 0, wo1 := 0, srw := 0, lkw := 0, reset := fun _ => 0 },
  { name := "RING.POLL_IV", base := 0x11038, count := 32, stride := 64, inner := 1, stride2 := 0,
    rw := 0xFFFF, ro := 0, w1c := 0, w1s := 0, wo1 := 0, srw := 0, lkw := 0, reset := fun _ => 0x3E8 },
  { name := "RING.PREC_LO", base := 0x12000, count := 8, stride := 32, inner := 1, stride2 := 0,
    rw := 0xFFFFFFFF, ro := 0, w1c := 0, w1s := 0, wo1 := 0, srw := 0, lkw := 0, reset := fun _ => 0 },
  { name := "RING.PREC_HI", base := 0x12004, count := 8, stride := 32, inner := 1, stride2 := 0,
    rw := 0xFFFFFFFF, ro := 0, w1c := 0, w1s := 0, wo1 := 0, srw := 0, lkw := 0, reset := fun _ => 0 },
  { name := "RING.PREC_CFG", base := 0x12008, count := 8, stride := 32, inner := 1, stride2 := 0,
    rw := 0x1F01, ro := 0, w1c := 0, w1s := 0, wo1 := 0, srw := 0, lkw := 0, reset := fun _ => 0x400 },
  { name := "RING.PREC_WR", base := 0x1200C, count := 8, stride := 32, inner := 1, stride2 := 0,
    rw := 0, ro := 0xFFFFFFFF, w1c := 0, w1s := 0, wo1 := 0, srw := 0, lkw := 0, reset := fun _ => 0 },
  { name := "RING.PREC_HOST_CI", base := 0x12010, count := 8, stride := 32, inner := 1, stride2 := 0,
    rw := 0, ro := 0xFFFFFFFF, w1c := 0, w1s := 0, wo1 := 0, srw := 0, lkw := 0, reset := fun _ => 0 },
  { name := "RING.PREC_HELD", base := 0x12014, count := 8, stride := 32, inner := 1, stride2 := 0,
    rw := 0, ro := 0x7F, w1c := 0, w1s := 0, wo1 := 0, srw := 0, lkw := 0, reset := fun _ => 0 } ]

/-- Block SCENE (R147). -/
def rowsScene : List RegRow := [
  { name := "SCENE.OWNER_LO", base := 0x20000, count := 1, stride := 0, inner := 1, stride2 := 0,
    rw := 0, ro := 0, w1c := 0, w1s := 0, wo1 := 0, srw := 0x9F9F9F9F, lkw := 0, reset := fun _ => 0 },
  { name := "SCENE.OWNER_HI", base := 0x20004, count := 1, stride := 0, inner := 1, stride2 := 0,
    rw := 0, ro := 0, w1c := 0, w1s := 0, wo1 := 0, srw := 0x9F9F9F9F, lkw := 0, reset := fun _ => 0 },
  { name := "SCENE.FENCE_CFG", base := 0x20008, count := 1, stride := 0, inner := 1, stride2 := 0,
    rw := 0xFFFF000F, ro := 0, w1c := 0, w1s := 0, wo1 := 0, srw := 0, lkw := 0, reset := fun _ => 0x640004 },
  { name := "SCENE.WINNOW_STAT", base := 0x2000C, count := 1, stride := 0, inner := 1, stride2 := 0,
    rw := 0, ro := 0x9FFF000F, w1c := 0, w1s := 0, wo1 := 0, srw := 0, lkw := 0, reset := fun _ => 0 },
  { name := "SCENE.ARMED", base := 0x20010, count := 1, stride := 0, inner := 1, stride2 := 0,
    rw := 0, ro := 0xFF00FF, w1c := 0, w1s := 0, wo1 := 0, srw := 0, lkw := 0, reset := fun _ => 0 },
  { name := "SCENE.DETAIL_LO", base := 0x20014, count := 1, stride := 0, inner := 1, stride2 := 0,
    rw := 0, ro := 0xFFFFFFFF, w1c := 0, w1s := 0, wo1 := 0, srw := 0, lkw := 0, reset := fun _ => 0 },
  { name := "SCENE.DETAIL_HI", base := 0x20018, count := 1, stride := 0, inner := 1, stride2 := 0,
    rw := 0, ro := 0xFFFFFFFF, w1c := 0, w1s := 0, wo1 := 0, srw := 0, lkw := 0, reset := fun _ => 0 },
  { name := "SCENE.ADMIT_CNT", base := 0x20020, count := 1, stride := 0, inner := 1, stride2 := 0,
    rw := 0, ro := 0xFFFF, w1c := 0, w1s := 0x80000000, wo1 := 0, srw := 0, lkw := 0, reset := fun _ => 0 },
  { name := "SCENE.REJECT_CNT", base := 0x20024, count := 1, stride := 0, inner := 1, stride2 := 0,
    rw := 0, ro := 0xFFFF, w1c := 0, w1s := 0x80000000, wo1 := 0, srw := 0, lkw := 0, reset := fun _ => 0 },
  { name := "SCENE.SLIP_CNT", base := 0x20028, count := 1, stride := 0, inner := 1, stride2 := 0,
    rw := 0, ro := 0xFFFF, w1c := 0, w1s := 0x80000000, wo1 := 0, srw := 0, lkw := 0, reset := fun _ => 0 },
  { name := "SCENE.DROP_CNT", base := 0x2002C, count := 1, stride := 0, inner := 1, stride2 := 0,
    rw := 0, ro := 0xFFFF, w1c := 0, w1s := 0x80000000, wo1 := 0, srw := 0, lkw := 0, reset := fun _ => 0 } ]

/-- Block LAYER (R174,R76). -/
def rowsLayer : List RegRow := [
  { name := "LAYER.LUT_INDEX", base := 0x30000, count := 1, stride := 0, inner := 1, stride2 := 0,
    rw := 0x1FFFFFFF, ro := 0x80000000, w1c := 0x20000000, w1s := 0, wo1 := 0, srw := 0, lkw := 0, reset := fun _ => 0x10000000 },
  { name := "LAYER.LUT_DATA", base := 0x30004, count := 1, stride := 0, inner := 1, stride2 := 0,
    rw := 0xFFFFFFFF, ro := 0, w1c := 0, w1s := 0, wo1 := 0, srw := 0, lkw := 0, reset := fun _ => 0 },
  { name := "LAYER.SILO_USED", base := 0x30008, count := 1, stride := 0, inner := 1, stride2 := 0,
    rw := 0, ro := 0x1FF, w1c := 0, w1s := 0, wo1 := 0, srw := 0, lkw := 0, reset := fun _ => 0 },
  { name := "LAYER.UNDERRUNS", base := 0x30010, count := 1, stride := 0, inner := 1, stride2 := 0,
    rw := 0, ro := 0xFFFFFF, w1c := 0, w1s := 0x80000000, wo1 := 0, srw := 0, lkw := 0, reset := fun _ => 0 },
  { name := "LAYER.CRC_FAILS", base := 0x30014, count := 1, stride := 0, inner := 1, stride2 := 0,
    rw := 0, ro := 0xFFFFFF, w1c := 0, w1s := 0x80000000, wo1 := 0, srw := 0, lkw := 0, reset := fun _ => 0 },
  { name := "LAYER.TWIN_READS", base := 0x30018, count := 1, stride := 0, inner := 1, stride2 := 0,
    rw := 0, ro := 0xFFFFFF, w1c := 0, w1s := 0x80000000, wo1 := 0, srw := 0, lkw := 0, reset := fun _ => 0 },
  { name := "LAYER.SILO_PIPE", base := 0x30020, count := 8, stride := 4, inner := 1, stride2 := 0,
    rw := 0, ro := 0x1FF, w1c := 0, w1s := 0, wo1 := 0, srw := 0, lkw := 0, reset := fun _ => 0 },
  { name := "LAYER.SLOT_STAT", base := 0x31000, count := 96, stride := 16, inner := 1, stride2 := 0,
    rw := 0, ro := 0xF0F, w1c := 0, w1s := 0x1000, wo1 := 0, srw := 0, lkw := 0, reset := fun _ => 0 },
  { name := "LAYER.SLOT_CRC", base := 0x31004, count := 96, stride := 16, inner := 1, stride2 := 0,
    rw := 0, ro := 0xFFFFFFFF, w1c := 0, w1s := 0, wo1 := 0, srw := 0, lkw := 0, reset := fun _ => 0 },
  { name := "LAYER.CAM_STAT", base := 0x31008, count := 96, stride := 16, inner := 1, stride2 := 0,
    rw := 0, ro := 0xFFFF00FF, w1c := 0, w1s := 0, wo1 := 0, srw := 0, lkw := 0, reset := fun _ => 0 } ]

/-- Block OBJ (R201,R76). -/
def rowsObj : List RegRow := [
  { name := "OBJ.GRAN_INDEX", base := 0x40000, count := 1, stride := 0, inner := 1, stride2 := 0,
    rw := 0x1FFFFFFF, ro := 0x80000000, w1c := 0x20000000, w1s := 0, wo1 := 0, srw := 0, lkw := 0, reset := fun _ => 0x10000000 },
  { name := "OBJ.GRAN_DATA", base := 0x40004, count := 1, stride := 0, inner := 1, stride2 := 0,
    rw := 0xFFFFFFFF, ro := 0, w1c := 0, w1s := 0, wo1 := 0, srw := 0, lkw := 0, reset := fun _ => 0 },
  { name := "OBJ.LOFT_INDEX", base := 0x40008, count := 1, stride := 0, inner := 1, stride2 := 0,
    rw := 0x1FFFFFFF, ro := 0x80000000, w1c := 0x20000000, w1s := 0, wo1 := 0, srw := 0, lkw := 0, reset := fun _ => 0x10000000 },
  { name := "OBJ.LOFT_DATA", base := 0x4000C, count := 1, stride := 0, inner := 1, stride2 := 0,
    rw := 0xFFFFFFFF, ro := 0, w1c := 0, w1s := 0, wo1 := 0, srw := 0, lkw := 0, reset := fun _ => 0 },
  { name := "OBJ.LOFT_FLOOR", base := 0x40010, count := 1, stride := 0, inner := 1, stride2 := 0,
    rw := 0, ro := 0x7FFFFF, w1c := 0, w1s := 0, wo1 := 0, srw := 0, lkw := 0, reset := fun _ => 0x10000 },
  { name := "OBJ.FAULTS", base := 0x40014, count := 1, stride := 0, inner := 1, stride2 := 0,
    rw := 0, ro := 0xFFFFFF, w1c := 0, w1s := 0x80000000, wo1 := 0, srw := 0, lkw := 0, reset := fun _ => 0 },
  { name := "OBJ.LOADS", base := 0x40018, count := 1, stride := 0, inner := 1, stride2 := 0,
    rw := 0, ro := 0xFFFFFF, w1c := 0, w1s := 0x80000000, wo1 := 0, srw := 0, lkw := 0, reset := fun _ => 0 },
  { name := "OBJ.PIPE_STAT", base := 0x40020, count := 8, stride := 4, inner := 1, stride2 := 0,
    rw := 0, ro := 0xF1FFFFF, w1c := 0, w1s := 0x10000000, wo1 := 0, srw := 0, lkw := 0, reset := fun _ => 0 } ]

/-- Block BLEND (R228). -/
def rowsBlend : List RegRow := [
  { name := "BLEND.LANES", base := 0x50000, count := 1, stride := 0, inner := 1, stride2 := 0,
    rw := 0, ro := 0x1F01FFFF, w1c := 0, w1s := 0, wo1 := 0, srw := 0, lkw := 0, reset := fun _ => 0 },
  { name := "BLEND.ROT_CFG", base := 0x50004, count := 1, stride := 0, inner := 1, stride2 := 0,
    rw := 0xFFFF, ro := 0, w1c := 0, w1s := 0, wo1 := 0, srw := 0, lkw := 0, reset := fun _ => 0xDAC },
  { name := "BLEND.ROT_STAT", base := 0x50008, count := 1, stride := 0, inner := 1, stride2 := 0,
    rw := 0, ro := 0x3FFFFF, w1c := 0, w1s := 0, wo1 := 0, srw := 0, lkw := 0, reset := fun _ => 0x1F0000 },
  { name := "BLEND.SWAPS", base := 0x5000C, count := 1, stride := 0, inner := 1, stride2 := 0,
    rw := 0, ro := 0xFFFFFF, w1c := 0, w1s := 0x80000000, wo1 := 0, srw := 0, lkw := 0, reset := fun _ => 0 },
  { name := "BLEND.TEST_FAILS", base := 0x50010, count := 1, stride := 0, inner := 1, stride2 := 0,
    rw := 0, ro := 0xFFFFFF, w1c := 0, w1s := 0x80000000, wo1 := 0, srw := 0, lkw := 0, reset := fun _ => 0 },
  { name := "BLEND.TEST_NOT_RUN", base := 0x50014, count := 1, stride := 0, inner := 1, stride2 := 0,
    rw := 0, ro := 0xFFFFFF, w1c := 0, w1s := 0x80000000, wo1 := 0, srw := 0, lkw := 0, reset := fun _ => 0 },
  { name := "BLEND.SHED", base := 0x50018, count := 1, stride := 0, inner := 1, stride2 := 0,
    rw := 0, ro := 0xFF, w1c := 0, w1s := 0, wo1 := 0, srw := 0, lkw := 0, reset := fun _ => 0 },
  { name := "BLEND.LANE_STAT", base := 0x51000, count := 17, stride := 4, inner := 1, stride2 := 0,
    rw := 0, ro := 0xFFFF37, w1c := 0, w1s := 0, wo1 := 0, srw := 0, lkw := 0, reset := fun _ => 0x4 } ]

/-- Block SCHED (R251,R76). -/
def rowsSched : List RegRow := [
  { name := "SCHED.GCL_INDEX", base := 0x60000, count := 1, stride := 0, inner := 1, stride2 := 0,
    rw := 0x1FFFFFFF, ro := 0x80000000, w1c := 0x20000000, w1s := 0, wo1 := 0, srw := 0, lkw := 0, reset := fun _ => 0x10000000 },
  { name := "SCHED.GCL_DATA", base := 0x60004, count := 1, stride := 0, inner := 1, stride2 := 0,
    rw := 0xFFFFFFFF, ro := 0, w1c := 0, w1s := 0, wo1 := 0, srw := 0, lkw := 0, reset := fun _ => 0 },
  { name := "SCHED.GCL_LATE", base := 0x60008, count := 1, stride := 0, inner := 1, stride2 := 0,
    rw := 0, ro := 0xFFFFFF, w1c := 0, w1s := 0x80000000, wo1 := 0, srw := 0, lkw := 0, reset := fun _ => 0 },
  { name := "SCHED.DEBT_DROPPED", base := 0x6000C, count := 1, stride := 0, inner := 1, stride2 := 0,
    rw := 0, ro := 0xFFFFFF, w1c := 0, w1s := 0x80000000, wo1 := 0, srw := 0, lkw := 0, reset := fun _ => 0 },
  { name := "SCHED.THROTTLE", base := 0x60010, count := 1, stride := 0, inner := 1, stride2 := 0,
    rw := 0, ro := 0x10F, w1c := 0, w1s := 0, wo1 := 0, srw := 0, lkw := 0, reset := fun _ => 0 },
  { name := "SCHED.PORT_CFG", base := 0x60020, count := 4, stride := 4, inner := 1, stride2 := 0,
    rw := 0, ro := 0, w1c := 0, w1s := 0, wo1 := 0, srw := 0x77F, lkw := 0, reset := fun _ => 0 },
  { name := "SCHED.BASE_FRAME", base := 0x60030, count := 4, stride := 8, inner := 1, stride2 := 0,
    rw := 0, ro := 0, w1c := 0, w1s := 0, wo1 := 0, srw := 0xFFFFFFFF, lkw := 0, reset := fun _ => 0 },
  { name := "SCHED.BASE_LINE", base := 0x60034, count := 4, stride := 8, inner := 1, stride2 := 0,
    rw := 0, ro := 0, w1c := 0, w1s := 0, wo1 := 0, srw := 0xFFFF, lkw := 0, reset := fun _ => 0 },
  { name := "SCHED.PORT_STAT", base := 0x60050, count := 4, stride := 4, inner := 1, stride2 := 0,
    rw := 0, ro := 0x7F17, w1c := 0, w1s := 0, wo1 := 0, srw := 0, lkw := 0, reset := fun _ => 0 },
  { name := "SCHED.SUB_CFG", base := 0x61000, count := 256, stride := 16, inner := 1, stride2 := 0,
    rw := 0, ro := 0x70, w1c := 0, w1s := 0, wo1 := 0, srw := 0xF01, lkw := 0, reset := fun i => BitVec.ofNat 32 (0xF01 + subClass i * 16) },
  { name := "SCHED.SUB_RATE", base := 0x61004, count := 256, stride := 16, inner := 1, stride2 := 0,
    rw := 0, ro := 0, w1c := 0, w1s := 0, wo1 := 0, srw := 0x80001FFF, lkw := 0, reset := fun _ => 0 },
  { name := "SCHED.SUB_DEPTH", base := 0x61008, count := 256, stride := 16, inner := 1, stride2 := 0,
    rw := 0, ro := 0, w1c := 0, w1s := 0, wo1 := 0, srw := 0x7FF, lkw := 0, reset := fun _ => 0x10 },
  { name := "SCHED.SUB_LEVEL", base := 0x6100C, count := 256, stride := 16, inner := 1, stride2 := 0,
    rw := 0, ro := 0xFFFFFFFF, w1c := 0, w1s := 0, wo1 := 0, srw := 0, lkw := 0, reset := fun _ => 0x4000 },
  { name := "SCHED.POL_CFG", base := 0x62000, count := 6, stride := 16, inner := 1, stride2 := 0,
    rw := 0, ro := 0, w1c := 0, w1s := 0, wo1 := 0, srw := 0x80001FFF, lkw := 0, reset := fun _ => 0 },
  { name := "SCHED.POL_DEPTH", base := 0x62004, count := 6, stride := 16, inner := 1, stride2 := 0,
    rw := 0, ro := 0, w1c := 0, w1s := 0, wo1 := 0, srw := 0x7FF, lkw := 0, reset := fun _ => 0x8 },
  { name := "SCHED.POL_DROPS", base := 0x62008, count := 6, stride := 16, inner := 1, stride2 := 0,
    rw := 0, ro := 0xFFFFFF, w1c := 0, w1s := 0x80000000, wo1 := 0, srw := 0, lkw := 0, reset := fun _ => 0 },
  { name := "SCHED.POL_OVERRUNS", base := 0x6200C, count := 6, stride := 16, inner := 1, stride2 := 0,
    rw := 0, ro := 0xFFFFFF, w1c := 0, w1s := 0x80000000, wo1 := 0, srw := 0, lkw := 0, reset := fun _ => 0 } ]

/-- Block PIPE (R274,R76). -/
def rowsPipe : List RegRow := [
  { name := "PIPE.LUT_INDEX", base := 0x70000, count := 1, stride := 0, inner := 1, stride2 := 0,
    rw := 0x1FFFFFFF, ro := 0x80000000, w1c := 0x20000000, w1s := 0, wo1 := 0, srw := 0, lkw := 0, reset := fun _ => 0x10000000 },
  { name := "PIPE.LUT_DATA", base := 0x70004, count := 1, stride := 0, inner := 1, stride2 := 0,
    rw := 0xFFFFFFFF, ro := 0, w1c := 0, w1s := 0, wo1 := 0, srw := 0, lkw := 0, reset := fun _ => 0 },
  { name := "PIPE.TIME_LO", base := 0x70008, count := 1, stride := 0, inner := 1, stride2 := 0,
    rw := 0, ro := 0xFFFFFFFF, w1c := 0, w1s := 0, wo1 := 0, srw := 0, lkw := 0, reset := fun _ => 0 },
  { name := "PIPE.TIME_HI", base := 0x7000C, count := 1, stride := 0, inner := 1, stride2 := 0,
    rw := 0, ro := 0xFFFFFFFF, w1c := 0, w1s := 0, wo1 := 0, srw := 0, lkw := 0, reset := fun _ => 0 },
  { name := "PIPE.TIME_STAT", base := 0x70010, count := 1, stride := 0, inner := 1, stride2 := 0,
    rw := 0, ro := 0x300FF, w1c := 0, w1s := 0, wo1 := 0, srw := 0, lkw := 0, reset := fun _ => 0 },
  { name := "PIPE.PTP_CFG", base := 0x70014, count := 1, stride := 0, inner := 1, stride2 := 0,
    rw := 0x10F7F, ro := 0, w1c := 0, w1s := 0, wo1 := 0, srw := 0, lkw := 0, reset := fun _ => 0 },
  { name := "PIPE.PTP_OFFSET", base := 0x70018, count := 1, stride := 0, inner := 1, stride2 := 0,
    rw := 0, ro := 0xFFFFFFFF, w1c := 0, w1s := 0, wo1 := 0, srw := 0, lkw := 0, reset := fun _ => 0 },
  { name := "PIPE.PLL_CTL", base := 0x70040, count := 4, stride := 16, inner := 1, stride2 := 0,
    rw := 0, ro := 0, w1c := 0, w1s := 0, wo1 := 0, srw := 0x17F, lkw := 0, reset := fun _ => 0x40 },
  { name := "PIPE.PLL_NUM", base := 0x70044, count := 4, stride := 16, inner := 1, stride2 := 0,
    rw := 0, ro := 0, w1c := 0, w1s := 0, wo1 := 0, srw := 0xFFFFFF, lkw := 0, reset := fun _ => 0 },
  { name := "PIPE.PLL_DEN", base := 0x70048, count := 4, stride := 16, inner := 1, stride2 := 0,
    rw := 0, ro := 0, w1c := 0, w1s := 0, wo1 := 0, srw := 0xFFFFFF, lkw := 0, reset := fun _ => 0x1 },
  { name := "PIPE.PLL_STAT", base := 0x7004C, count := 4, stride := 16, inner := 1, stride2 := 0,
    rw := 0, ro := 0xFFFF0001, w1c := 0x2, w1s := 0, wo1 := 0, srw := 0, lkw := 0, reset := fun _ => 0 },
  { name := "PIPE.CTL", base := 0x71000, count := 8, stride := 64, inner := 1, stride2 := 0,
    rw := 0, ro := 0, w1c := 0, w1s := 0, wo1 := 0, srw := 0x701, lkw := 0, reset := fun i => BitVec.ofNat 32 (i * 256) },
  { name := "PIPE.CLK", base := 0x71004, count := 8, stride := 64, inner := 1, stride2 := 0,
    rw := 0, ro := 0, w1c := 0, w1s := 0, wo1 := 0, srw := 0x3FF, lkw := 0, reset := fun _ => 0x10 },
  { name := "PIPE.HTIME0", base := 0x71008, count := 8, stride := 64, inner := 1, stride2 := 0,
    rw := 0, ro := 0, w1c := 0, w1s := 0, wo1 := 0, srw := 0xFFFFFFFF, lkw := 0, reset := fun _ => 0 },
  { name := "PIPE.HTIME1", base := 0x7100C, count := 8, stride := 64, inner := 1, stride2 := 0,
    rw := 0, ro := 0, w1c := 0, w1s := 0, wo1 := 0, srw := 0x8FFF0FFF, lkw := 0, reset := fun _ => 0 },
  { name := "PIPE.VTIME0", base := 0x71010, count := 8, stride := 64, inner := 1, stride2 := 0,
    rw := 0, ro := 0, w1c := 0, w1s := 0, wo1 := 0, srw := 0xFFFFFFFF, lkw := 0, reset := fun _ => 0 },
  { name := "PIPE.VTIME1", base := 0x71014, count := 8, stride := 64, inner := 1, stride2 := 0,
    rw := 0, ro := 0, w1c := 0, w1s := 0, wo1 := 0, srw := 0x8FFF0FFF, lkw := 0, reset := fun _ => 0 },
  { name := "PIPE.COMMIT", base := 0x71018, count := 8, stride := 64, inner := 1, stride2 := 0,
    rw := 0, ro := 0, w1c := 0, w1s := 0, wo1 := 0, srw := 0xFF, lkw := 0, reset := fun _ => 0x18 },
  { name := "PIPE.CAM_LOCK", base := 0x7101C, count := 8, stride := 64, inner := 1, stride2 := 0,
    rw := 0, ro := 0, w1c := 0, w1s := 0, wo1 := 0, srw := 0x87FF1FFF, lkw := 0, reset := fun _ => 0x503E8 },
  { name := "PIPE.TE", base := 0x71020, count := 8, stride := 64, inner := 1, stride2 := 0,
    rw := 0, ro := 0, w1c := 0, w1s := 0, wo1 := 0, srw := 0xE0FFFFFF, lkw := 0, reset := fun _ => 0 },
  { name := "PIPE.LPE", base := 0x71024, count := 32, stride := 64, inner := 4, stride2 := 4,
    rw := 0, ro := 0, w1c := 0, w1s := 0, wo1 := 0, srw := 0x803F3FFF, lkw := 0, reset := fun _ => 0 },
  { name := "PIPE.POS", base := 0x71034, count := 8, stride := 64, inner := 1, stride2 := 0,
    rw := 0, ro := 0xBFFF003F, w1c := 0, w1s := 0, wo1 := 0, srw := 0, lkw := 0, reset := fun _ => 0 },
  { name := "PIPE.FRAME", base := 0x71038, count := 8, stride := 64, inner := 1, stride2 := 0,
    rw := 0, ro := 0xFFFFFFFF, w1c := 0, w1s := 0, wo1 := 0, srw := 0, lkw := 0, reset := fun _ => 0xFFFFFFFF },
  { name := "PIPE.STAT", base := 0x7103C, count := 8, stride := 64, inner := 1, stride2 := 0,
    rw := 0, ro := 0xF0F07, w1c := 0, w1s := 0x1000, wo1 := 0, srw := 0, lkw := 0, reset := fun _ => 0 } ]

/-- Block LANE (R297). -/
def rowsLane : List RegRow := [
  { name := "LANE.GROUPS", base := 0x80000, count := 1, stride := 0, inner := 1, stride2 := 0,
    rw := 0, ro := 0xFFFFFF, w1c := 0, w1s := 0, wo1 := 0, srw := 0, lkw := 0, reset := fun _ => 0 },
  { name := "LANE.LINK_FAILS", base := 0x80004, count := 1, stride := 0, inner := 1, stride2 := 0,
    rw := 0, ro := 0xFFFF, w1c := 0, w1s := 0x80000000, wo1 := 0, srw := 0, lkw := 0, reset := fun _ => 0 },
  { name := "LANE.CFG", base := 0x81000, count := 8, stride := 64, inner := 1, stride2 := 0,
    rw := 0, ro := 0, w1c := 0, w1s := 0, wo1 := 0, srw := 0xFFFFFF80, lkw := 0, reset := fun _ => 0x80000 },
  { name := "LANE.RATE", base := 0x81004, count := 8, stride := 64, inner := 1, stride2 := 0,
    rw := 0, ro := 0, w1c := 0, w1s := 0, wo1 := 0, srw := 0x1FFF, lkw := 0, reset := fun _ => 0 },
  { name := "LANE.PKT_CTL", base := 0x81008, count := 8, stride := 64, inner := 1, stride2 := 0,
    rw := 0x18FFC0FF, ro := 0x40000000, w1c := 0x20000000, w1s := 0x80000000, wo1 := 0, srw := 0, lkw := 0, reset := fun _ => 0 },
  { name := "LANE.PKT_ADDR", base := 0x8100C, count := 8, stride := 64, inner := 1, stride2 := 0,
    rw := 0xFFFFF, ro := 0, w1c := 0, w1s := 0, wo1 := 0, srw := 0, lkw := 0, reset := fun _ => 0 },
  { name := "LANE.PKT_DATA", base := 0x81010, count := 8, stride := 64, inner := 1, stride2 := 0,
    rw := 0xFFFFFFFF, ro := 0, w1c := 0, w1s := 0, wo1 := 0, srw := 0, lkw := 0, reset := fun _ => 0 },
  { name := "LANE.STAT", base := 0x81014, count := 8, stride := 64, inner := 1, stride2 := 0,
    rw := 0, ro := 0xF37, w1c := 0, w1s := 0x1000, wo1 := 0, srw := 0, lkw := 0, reset := fun _ => 0 },
  { name := "LANE.CAM_CFG", base := 0x82000, count := 6, stride := 32, inner := 1, stride2 := 0,
    rw := 0, ro := 0xF0, w1c := 0, w1s := 0, wo1 := 0, srw := 0x80FF0C00, lkw := 0, reset := fun _ => 0x1E0080 },
  { name := "LANE.CAM_SIZE", base := 0x82004, count := 6, stride := 32, inner := 1, stride2 := 0,
    rw := 0, ro := 0, w1c := 0, w1s := 0, wo1 := 0, srw := 0xFFFFFFFF, lkw := 0, reset := fun _ => 0 },
  { name := "LANE.CAM_BUF_LO", base := 0x82008, count := 6, stride := 32, inner := 1, stride2 := 0,
    rw := 0, ro := 0, w1c := 0, w1s := 0, wo1 := 0, srw := 0xFFFFFFFF, lkw := 0, reset := fun _ => 0 },
  { name := "LANE.CAM_BUF_HI", base := 0x8200C, count := 6, stride := 32, inner := 1, stride2 := 0,
    rw := 0, ro := 0, w1c := 0, w1s := 0, wo1 := 0, srw := 0xFFFFFFFF, lkw := 0, reset := fun _ => 0 },
  { name := "LANE.CAM_STRIDE", base := 0x82010, count := 6, stride := 32, inner := 1, stride2 := 0,
    rw := 0, ro := 0, w1c := 0, w1s := 0, wo1 := 0, srw := 0xFFFFF, lkw := 0, reset := fun _ => 0 },
  { name := "LANE.CAM_STAT", base := 0x82014, count := 6, stride := 32, inner := 1, stride2 := 0,
    rw := 0, ro := 0xFFFF0003, w1c := 0, w1s := 0, wo1 := 0, srw := 0, lkw := 0, reset := fun _ => 0 },
  { name := "LANE.CAM_ERRS", base := 0x82018, count := 6, stride := 32, inner := 1, stride2 := 0,
    rw := 0, ro := 0xFFFFFF, w1c := 0, w1s := 0x80000000, wo1 := 0, srw := 0, lkw := 0, reset := fun _ => 0 } ]

/-- Block LIGHT (R321). -/
def rowsLight : List RegRow := [
  { name := "LIGHT.TT_CFG", base := 0x90000, count := 1, stride := 0, inner := 1, stride2 := 0,
    rw := 0, ro := 0, w1c := 0, w1s := 0x80000000, wo1 := 0, srw := 0, lkw := 0xFFF, reset := fun _ => 0 },
  { name := "LIGHT.TT_BLINK", base := 0x90004, count := 1, stride := 0, inner := 1, stride2 := 0,
    rw := 0, ro := 0, w1c := 0, w1s := 0, wo1 := 0, srw := 0, lkw := 0xFFFFFFFF, reset := fun _ => 0x43223219 },
  { name := "LIGHT.TT_STATE_LO", base := 0x90008, count := 1, stride := 0, inner := 1, stride2 := 0,
    rw := 0xFFFFFFFF, ro := 0, w1c := 0, w1s := 0, wo1 := 0, srw := 0, lkw := 0, reset := fun _ => 0 },
  { name := "LIGHT.TT_STATE_HI", base := 0x9000C, count := 1, stride := 0, inner := 1, stride2 := 0,
    rw := 0xFFFF, ro := 0, w1c := 0, w1s := 0, wo1 := 0, srw := 0, lkw := 0, reset := fun _ => 0 },
  { name := "LIGHT.TT_NIGHT", base := 0x90010, count := 1, stride := 0, inner := 1, stride2 := 0,
    rw := 0x1, ro := 0, w1c := 0, w1s := 0, wo1 := 0, srw := 0, lkw := 0, reset := fun _ => 0 },
  { name := "LIGHT.FORCE", base := 0x90014, count := 1, stride := 0, inner := 1, stride2 := 0,
    rw := 0x8000, ro := 0xFF001F, w1c := 0, w1s := 0, wo1 := 0, srw := 0, lkw := 0, reset := fun _ => 0 },
  { name := "LIGHT.DIM_CFG", base := 0x90020, count := 1, stride := 0, inner := 1, stride2 := 0,
    rw := 0, ro := 0, w1c := 0, w1s := 0, wo1 := 0, srw := 0xFFFFFFFF, lkw := 0, reset := fun _ => 0x1003D090 },
  { name := "LIGHT.DIM_START", base := 0x90024, count := 1, stride := 0, inner := 1, stride2 := 0,
    rw := 0, ro := 0, w1c := 0, w1s := 0, wo1 := 0, srw := 0xFFFF0FFF, lkw := 0, reset := fun _ => 0xFFFF0FFF },
  { name := "LIGHT.FB_CTX", base := 0x90028, count := 1, stride := 0, inner := 1, stride2 := 0,
    rw := 0, ro := 0xFFFFFFFF, w1c := 0, w1s := 0, wo1 := 0, srw := 0, lkw := 0, reset := fun _ => 0 },
  { name := "LIGHT.DIM_CURVE", base := 0x90040, count := 17, stride := 4, inner := 1, stride2 := 0,
    rw := 0, ro := 0, w1c := 0, w1s := 0, wo1 := 0, srw := 0xFFF, lkw := 0, reset := fun i => if i = 16 then 0xFFF else BitVec.ofNat 32 (256 * i) },
  { name := "LIGHT.ZONE_A", base := 0x90100, count := 40, stride := 16, inner := 1, stride2 := 0,
    rw := 0, ro := 0, w1c := 0, w1s := 0, wo1 := 0, srw := 0xF0000FFF, lkw := 0, reset := fun _ => 0 },
  { name := "LIGHT.ZONE_X", base := 0x90104, count := 40, stride := 16, inner := 1, stride2 := 0,
    rw := 0, ro := 0, w1c := 0, w1s := 0, wo1 := 0, srw := 0x1FFF1FFF, lkw := 0, reset := fun _ => 0 },
  { name := "LIGHT.ZONE_Y", base := 0x90108, count := 40, stride := 16, inner := 1, stride2 := 0,
    rw := 0, ro := 0, w1c := 0, w1s := 0, wo1 := 0, srw := 0x1FFF1FFF, lkw := 0, reset := fun _ => 0 },
  { name := "LIGHT.ZONE_STAT", base := 0x9010C, count := 40, stride := 16, inner := 1, stride2 := 0,
    rw := 0, ro := 0xFFFF0FFF, w1c := 0, w1s := 0, wo1 := 0, srw := 0, lkw := 0, reset := fun _ => 0 },
  { name := "LIGHT.TT_CH", base := 0x91000, count := 24, stride := 4, inner := 1, stride2 := 0,
    rw := 0, ro := 0, w1c := 0, w1s := 0, wo1 := 0, srw := 0, lkw := 0xF800FFFF, reset := fun _ => 0x8000000 },
  { name := "LIGHT.TT_STAT", base := 0x91080, count := 24, stride := 4, inner := 1, stride2 := 0,
    rw := 0, ro := 0x137, w1c := 0, w1s := 0, wo1 := 0, srw := 0, lkw := 0, reset := fun _ => 0 },
  { name := "LIGHT.MAP_ID", base := 0x92000, count := 64, stride := 16, inner := 1, stride2 := 0,
    rw := 0, ro := 0, w1c := 0, w1s := 0, wo1 := 0, srw := 0, lkw := 0xFFFFFFFF, reset := fun _ => 0 },
  { name := "LIGHT.MAP_FIELD", base := 0x92004, count := 64, stride := 16, inner := 1, stride2 := 0,
    rw := 0, ro := 0, w1c := 0, w1s := 0, wo1 := 0, srw := 0, lkw := 0xFFFFFF00, reset := fun _ => 0 },
  { name := "LIGHT.MAP_ACT", base := 0x92008, count := 64, stride := 16, inner := 1, stride2 := 0,
    rw := 0, ro := 0, w1c := 0, w1s := 0, wo1 := 0, srw := 0, lkw := 0xFFFFFF00, reset := fun _ => 0 },
  { name := "LIGHT.MAP_VAL", base := 0x9200C, count := 64, stride := 16, inner := 1, stride2 := 0,
    rw := 0, ro := 0, w1c := 0, w1s := 0, wo1 := 0, srw := 0, lkw := 0xFFFFFFFF, reset := fun _ => 0 },
  { name := "LIGHT.CAN_CTL", base := 0x93000, count := 2, stride := 64, inner := 1, stride2 := 0,
    rw := 0xE000FFFF, ro := 0, w1c := 0, w1s := 0, wo1 := 0, srw := 0, lkw := 0, reset := fun _ => 0x64 },
  { name := "LIGHT.CAN_NBT", base := 0x93004, count := 2, stride := 64, inner := 1, stride2 := 0,
    rw := 0xFFFFFFFF, ro := 0, w1c := 0, w1s := 0, wo1 := 0, srw := 0, lkw := 0, reset := fun _ => 0x513CA0A },
  { name := "LIGHT.CAN_DBT", base := 0x93008, count := 2, stride := 64, inner := 1, stride2 := 0,
    rw := 0xFFFFFFFC, ro := 0, w1c := 0, w1s := 0, wo1 := 0, srw := 0, lkw := 0, reset := fun _ => 0x33A8A00 },
  { name := "LIGHT.CAN_TXID", base := 0x9300C, count := 2, stride := 64, inner := 1, stride2 := 0,
    rw := 0xDFFFFFFF, ro := 0, w1c := 0, w1s := 0, wo1 := 0, srw := 0, lkw := 0, reset := fun _ => 0 },
  { name := "LIGHT.CAN_STAT", base := 0x93010, count := 2, stride := 64, inner := 1, stride2 := 0,
    rw := 0, ro := 0xFFFF03, w1c := 0, w1s := 0, wo1 := 0, srw := 0, lkw := 0, reset := fun _ => 0 } ]

/-- Block EVT (R346). -/
def rowsEvt : List RegRow := [
  { name := "EVT.QUEUES", base := 0xA0000, count := 1, stride := 0, inner := 1, stride2 := 0,
    rw := 0, ro := 0xFFFFFF, w1c := 0, w1s := 0, wo1 := 0, srw := 0, lkw := 0, reset := fun _ => 0 },
  { name := "EVT.STRAY_CPL", base := 0xA0004, count := 1, stride := 0, inner := 1, stride2 := 0,
    rw := 0, ro := 0xFFFFFF, w1c := 0, w1s := 0x80000000, wo1 := 0, srw := 0, lkw := 0, reset := fun _ => 0 },
  { name := "EVT.SATURATIONS", base := 0xA0008, count := 1, stride := 0, inner := 1, stride2 := 0,
    rw := 0, ro := 0xFFFFFF, w1c := 0, w1s := 0x80000000, wo1 := 0, srw := 0, lkw := 0, reset := fun _ => 0 },
  { name := "EVT.SPI_FIRST", base := 0xA000C, count := 1, stride := 0, inner := 1, stride2 := 0,
    rw := 0, ro := 0xFFFF, w1c := 0, w1s := 0, wo1 := 0, srw := 0, lkw := 0, reset := fun _ => 0xFFFF },
  { name := "EVT.LINK_SLEEP", base := 0xA0010, count := 1, stride := 0, inner := 1, stride2 := 0,
    rw := 0x3, ro := 0x30000, w1c := 0, w1s := 0x300, wo1 := 0, srw := 0, lkw := 0, reset := fun _ => 0 },
  { name := "EVT.SNS_CFG", base := 0xA0020, count := 8, stride := 4, inner := 1, stride2 := 0,
    rw := 0x173FF, ro := 0x80000000, w1c := 0, w1s := 0, wo1 := 0, srw := 0, lkw := 0, reset := fun _ => 0x3FF },
  { name := "EVT.QBASE_LO", base := 0xA0400, count := 8, stride := 32, inner := 1, stride2 := 0,
    rw := 0xFFFFFFFF, ro := 0, w1c := 0, w1s := 0, wo1 := 0, srw := 0, lkw := 0, reset := fun _ => 0 },
  { name := "EVT.QBASE_HI", base := 0xA0404, count := 8, stride := 32, inner := 1, stride2 := 0,
    rw := 0xFFFFFFFF, ro := 0, w1c := 0, w1s := 0, wo1 := 0, srw := 0, lkw := 0, reset := fun _ => 0 },
  { name := "EVT.QNOTIFY_LO", base := 0xA0408, count := 8, stride := 32, inner := 1, stride2 := 0,
    rw := 0xFFFFFFFF, ro := 0, w1c := 0, w1s := 0, wo1 := 0, srw := 0, lkw := 0, reset := fun _ => 0 },
  { name := "EVT.QNOTIFY_HI", base := 0xA040C, count := 8, stride := 32, inner := 1, stride2 := 0,
    rw := 0xFFFFFFFF, ro := 0, w1c := 0, w1s := 0, wo1 := 0, srw := 0, lkw := 0, reset := fun _ => 0 },
  { name := "EVT.QCFG", base := 0xA0410, count := 8, stride := 32, inner := 1, stride2 := 0,
    rw := 0, ro := 0, w1c := 0, w1s := 0, wo1 := 0, srw := 0x801F0F00, lkw := 0, reset := fun _ => 0x60000 },
  { name := "EVT.QCTL", base := 0xA0414, count := 8, stride := 32, inner := 1, stride2 := 0,
    rw := 0x3, ro := 0xFF800300, w1c := 0, w1s := 0, wo1 := 0, srw := 0, lkw := 0, reset := fun _ => 0 },
  { name := "EVT.QPI", base := 0xA0418, count := 8, stride := 32, inner := 1, stride2 := 0,
    rw := 0, ro := 0xFFFFFFFF, w1c := 0, w1s := 0, wo1 := 0, srw := 0, lkw := 0, reset := fun _ => 0 },
  { name := "EVT.HOST_CI", base := 0xA041C, count := 8, stride := 32, inner := 1, stride2 := 0,
    rw := 0, ro := 0xFFFFFFFF, w1c := 0, w1s := 0, wo1 := 0, srw := 0, lkw := 0, reset := fun _ => 0 },
  { name := "EVT.SRC_CFG", base := 0xA1000, count := 1024, stride := 8, inner := 1, stride2 := 0,
    rw := 0x40000000, ro := 0x8000000, w1c := 0, w1s := 0, wo1 := 0, srw := 0xB7FF03FF, lkw := 0, reset := fun i => if levelSource i then 0x08000000 else 0 },
  { name := "EVT.SRC_STAT", base := 0xA1004, count := 1024, stride := 8, inner := 1, stride2 := 0,
    rw := 0, ro := 0x470000FF, w1c := 0xA0000000, w1s := 0, wo1 := 0, srw := 0, lkw := 0, reset := fun _ => 0 } ]

/-- Block DMA (R364). -/
def rowsDma : List RegRow := [
  { name := "DMA.ENGINE", base := 0xB0000, count := 1, stride := 0, inner := 1, stride2 := 0,
    rw := 0, ro := 0x1, w1c := 0, w1s := 0x2, wo1 := 0, srw := 0, lkw := 0, reset := fun _ => 0 },
  { name := "DMA.HALTS", base := 0xB0004, count := 1, stride := 0, inner := 1, stride2 := 0,
    rw := 0, ro := 0xFFFFFF, w1c := 0, w1s := 0x80000000, wo1 := 0, srw := 0, lkw := 0, reset := fun _ => 0 },
  { name := "DMA.BAD_DESC", base := 0xB0008, count := 1, stride := 0, inner := 1, stride2 := 0,
    rw := 0, ro := 0xFFFFFF, w1c := 0, w1s := 0x80000000, wo1 := 0, srw := 0, lkw := 0, reset := fun _ => 0 },
  { name := "DMA.TRIG_MISSED", base := 0xB000C, count := 1, stride := 0, inner := 1, stride2 := 0,
    rw := 0, ro := 0xFFFFFF, w1c := 0, w1s := 0x80000000, wo1 := 0, srw := 0, lkw := 0, reset := fun _ => 0 },
  { name := "DMA.BUF_USED", base := 0xB0010, count := 1, stride := 0, inner := 1, stride2 := 0,
    rw := 0, ro := 0x1FF, w1c := 0, w1s := 0, wo1 := 0, srw := 0, lkw := 0, reset := fun _ => 0 },
  { name := "DMA.CH_CFG", base := 0xB1000, count := 32, stride := 16, inner := 1, stride2 := 0,
    rw := 0, ro := 0, w1c := 0, w1s := 0, wo1 := 0, srw := 0x7F, lkw := 0, reset := fun _ => 0x10 },
  { name := "DMA.CH_STAT", base := 0xB1004, count := 32, stride := 16, inner := 1, stride2 := 0,
    rw := 0, ro := 0xFF07, w1c := 0, w1s := 0, wo1 := 0, srw := 0, lkw := 0, reset := fun _ => 0 },
  { name := "DMA.TCH_CFG", base := 0xB2000, count := 4, stride := 32, inner := 1, stride2 := 0,
    rw := 0, ro := 0, w1c := 0, w1s := 0, wo1 := 0, srw := 0xC0FF0000, lkw := 0, reset := fun _ => 0 },
  { name := "DMA.TCH_POS", base := 0xB2004, count := 4, stride := 32, inner := 1, stride2 := 0,
    rw := 0, ro := 0, w1c := 0, w1s := 0, wo1 := 0, srw := 0x3F3FFF, lkw := 0, reset := fun _ => 0 },
  { name := "DMA.TCH_PERIOD", base := 0xB2008, count := 4, stride := 32, inner := 1, stride2 := 0,
    rw := 0, ro := 0, w1c := 0, w1s := 0, wo1 := 0, srw := 0xFFFFF, lkw := 0, reset := fun _ => 0x3E8 },
  { name := "DMA.TCH_BASE_LO", base := 0xB200C, count := 4, stride := 32, inner := 1, stride2 := 0,
    rw := 0, ro := 0, w1c := 0, w1s := 0, wo1 := 0, srw := 0xFFFFFFFF, lkw := 0, reset := fun _ => 0 },
  { name := "DMA.TCH_BASE_HI", base := 0xB2010, count := 4, stride := 32, inner := 1, stride2 := 0,
    rw := 0, ro := 0, w1c := 0, w1s := 0, wo1 := 0, srw := 0xFFFFFFFF, lkw := 0, reset := fun _ => 0 },
  { name := "DMA.TCH_STAT", base := 0xB2014, count := 4, stride := 32, inner := 1, stride2 := 0,
    rw := 0, ro := 0xFF01, w1c := 0, w1s := 0, wo1 := 0, srw := 0, lkw := 0, reset := fun _ => 0 },
  { name := "DMA.TCH_RUNS", base := 0xB2018, count := 4, stride := 32, inner := 1, stride2 := 0,
    rw := 0, ro := 0xFFFFFFFF, w1c := 0, w1s := 0, wo1 := 0, srw := 0, lkw := 0, reset := fun _ => 0 } ]

/-- Block CHK (R365). -/
def rowsChk : List RegRow := [
  { name := "CHK.WIN_MISMATCH", base := 0xC0000, count := 8, stride := 4, inner := 1, stride2 := 0,
    rw := 0, ro := 0, w1c := 0xFFFFFFFF, w1s := 0, wo1 := 0, srw := 0, lkw := 0, reset := fun _ => 0 },
  { name := "CHK.MISMATCHES", base := 0xC0020, count := 1, stride := 0, inner := 1, stride2 := 0,
    rw := 0, ro := 0xFFFFFF, w1c := 0, w1s := 0x80000000, wo1 := 0, srw := 0, lkw := 0, reset := fun _ => 0 },
  { name := "CHK.SCAN_CFG", base := 0xC0800, count := 8, stride := 32, inner := 1, stride2 := 0,
    rw := 0x20000003, ro := 0, w1c := 0, w1s := 0xC0000000, wo1 := 0, srw := 0, lkw := 0, reset := fun _ => 0 },
  { name := "CHK.START_LO", base := 0xC0804, count := 8, stride := 32, inner := 1, stride2 := 0,
    rw := 0xFFFFFFFF, ro := 0, w1c := 0, w1s := 0, wo1 := 0, srw := 0, lkw := 0, reset := fun _ => 0 },
  { name := "CHK.START_HI", base := 0xC0808, count := 8, stride := 32, inner := 1, stride2 := 0,
    rw := 0xFFFFFFFF, ro := 0, w1c := 0, w1s := 0, wo1 := 0, srw := 0, lkw := 0, reset := fun _ => 0 },
  { name := "CHK.LEN", base := 0xC080C, count := 8, stride := 32, inner := 1, stride2 := 0,
    rw := 0xFFFFFFFF, ro := 0, w1c := 0, w1s := 0, wo1 := 0, srw := 0, lkw := 0, reset := fun _ => 0 },
  { name := "CHK.RESULT", base := 0xC0810, count := 8, stride := 32, inner := 1, stride2 := 0,
    rw := 0, ro := 0xFFFFFFFF, w1c := 0, w1s := 0, wo1 := 0, srw := 0, lkw := 0, reset := fun _ => 0 },
  { name := "CHK.SCAN_STAT", base := 0xC0814, count := 8, stride := 32, inner := 1, stride2 := 0,
    rw := 0, ro := 0xFFFF0007, w1c := 0, w1s := 0, wo1 := 0, srw := 0, lkw := 0, reset := fun _ => 0 },
  { name := "CHK.ERR_LO", base := 0xC0818, count := 8, stride := 32, inner := 1, stride2 := 0,
    rw := 0, ro := 0xFFFFFFFF, w1c := 0, w1s := 0, wo1 := 0, srw := 0, lkw := 0, reset := fun _ => 0 },
  { name := "CHK.ERR_HI", base := 0xC081C, count := 8, stride := 32, inner := 1, stride2 := 0,
    rw := 0, ro := 0xFFFFFFFF, w1c := 0, w1s := 0, wo1 := 0, srw := 0, lkw := 0, reset := fun _ => 0 },
  { name := "CHK.WIN_CFG", base := 0xC2000, count := 256, stride := 32, inner := 1, stride2 := 0,
    rw := 0xFFE000FF, ro := 0, w1c := 0, w1s := 0, wo1 := 0, srw := 0, lkw := 0, reset := fun _ => 0x200000 },
  { name := "CHK.WIN_X", base := 0xC2004, count := 256, stride := 32, inner := 1, stride2 := 0,
    rw := 0x1FFF1FFF, ro := 0, w1c := 0, w1s := 0, wo1 := 0, srw := 0, lkw := 0, reset := fun _ => 0 },
  { name := "CHK.WIN_Y", base := 0xC2008, count := 256, stride := 32, inner := 1, stride2 := 0,
    rw := 0x1FFF1FFF, ro := 0, w1c := 0, w1s := 0, wo1 := 0, srw := 0, lkw := 0, reset := fun _ => 0 },
  { name := "CHK.WIN_KEY", base := 0xC200C, count := 256, stride := 32, inner := 1, stride2 := 0,
    rw := 0xFFFF, ro := 0, w1c := 0, w1s := 0, wo1 := 0, srw := 0, lkw := 0, reset := fun _ => 0 },
  { name := "CHK.WIN_RESULT", base := 0xC2010, count := 256, stride := 32, inner := 1, stride2 := 0,
    rw := 0, ro := 0xFFFFFFFF, w1c := 0, w1s := 0, wo1 := 0, srw := 0, lkw := 0, reset := fun _ => 0 },
  { name := "CHK.WIN_FRAME", base := 0xC2014, count := 256, stride := 32, inner := 1, stride2 := 0,
    rw := 0, ro := 0xFFFFFFFF, w1c := 0, w1s := 0, wo1 := 0, srw := 0, lkw := 0, reset := fun _ => 0 },
  { name := "CHK.WIN_STAT", base := 0xC2018, count := 256, stride := 32, inner := 1, stride2 := 0,
    rw := 0, ro := 0xF77, w1c := 0, w1s := 0, wo1 := 0, srw := 0, lkw := 0, reset := fun _ => 0x70 },
  { name := "CHK.EXP_KEY", base := 0xC4000, count := 1024, stride := 32, inner := 4, stride2 := 8,
    rw := 0x87FFFFFF, ro := 0, w1c := 0, w1s := 0, wo1 := 0, srw := 0, lkw := 0, reset := fun _ => 0 },
  { name := "CHK.EXP_VAL", base := 0xC4004, count := 1024, stride := 32, inner := 4, stride2 := 8,
    rw := 0xFFFFFFFF, ro := 0, w1c := 0, w1s := 0, wo1 := 0, srw := 0, lkw := 0, reset := fun _ => 0 } ]

/-- Block FAULT (R383). -/
def rowsFault : List RegRow := [
  { name := "FAULT.STATE", base := 0xD0000, count := 1, stride := 0, inner := 1, stride2 := 0,
    rw := 0, ro := 0x801FFF7F, w1c := 0, w1s := 0, wo1 := 0, srw := 0, lkw := 0, reset := fun _ => 0 },
  { name := "FAULT.MC", base := 0xD0004, count := 1, stride := 0, inner := 1, stride2 := 0,
    rw := 0, ro := 0xFF0FFF, w1c := 0, w1s := 0, wo1 := 0, srw := 0, lkw := 0, reset := fun _ => 0 },
  { name := "FAULT.LANES", base := 0xD0008, count := 1, stride := 0, inner := 1, stride2 := 0,
    rw := 0, ro := 0x1FFFF, w1c := 0, w1s := 0, wo1 := 0, srw := 0, lkw := 0, reset := fun _ => 0 },
  { name := "FAULT.LG", base := 0xD0010, count := 1, stride := 0, inner := 1, stride2 := 0,
    rw := 0, ro := 0xFF, w1c := 0, w1s := 0, wo1 := 0, srw := 0, lkw := 0, reset := fun _ => 0 },
  { name := "FAULT.DMA_RETIRED", base := 0xD0014, count := 1, stride := 0, inner := 1, stride2 := 0,
    rw := 0, ro := 0xFFFFFFFF, w1c := 0, w1s := 0, wo1 := 0, srw := 0, lkw := 0, reset := fun _ => 0 },
  { name := "FAULT.DMA_READY", base := 0xD0018, count := 1, stride := 0, inner := 1, stride2 := 0,
    rw := 0, ro := 0xFFFFFFFF, w1c := 0, w1s := 0, wo1 := 0, srw := 0, lkw := 0, reset := fun _ => 0 },
  { name := "FAULT.LINKS", base := 0xD001C, count := 1, stride := 0, inner := 1, stride2 := 0,
    rw := 0, ro := 0xF, w1c := 0, w1s := 0, wo1 := 0, srw := 0, lkw := 0, reset := fun _ => 0 },
  { name := "FAULT.RETEST", base := 0xD0020, count := 1, stride := 0, inner := 1, stride2 := 0,
    rw := 0xFF, ro := 0, w1c := 0, w1s := 0x80000000, wo1 := 0, srw := 0, lkw := 0, reset := fun _ => 0 },
  { name := "FAULT.RETEST_STAT", base := 0xD0024, count := 1, stride := 0, inner := 1, stride2 := 0,
    rw := 0, ro := 0x800007FF, w1c := 0, w1s := 0, wo1 := 0, srw := 0, lkw := 0, reset := fun _ => 0 },
  { name := "FAULT.LAST", base := 0xD0028, count := 1, stride := 0, inner := 1, stride2 := 0,
    rw := 0, ro := 0xC00FFFFF, w1c := 0, w1s := 0, wo1 := 0, srw := 0, lkw := 0, reset := fun _ => 0 },
  { name := "FAULT.RREC_LO", base := 0xD0030, count := 1, stride := 0, inner := 1, stride2 := 0,
    rw := 0xFFFFFFFF, ro := 0, w1c := 0, w1s := 0, wo1 := 0, srw := 0, lkw := 0, reset := fun _ => 0 },
  { name := "FAULT.RREC_HI", base := 0xD0034, count := 1, stride := 0, inner := 1, stride2 := 0,
    rw := 0xFFFFFFFF, ro := 0, w1c := 0, w1s := 0, wo1 := 0, srw := 0, lkw := 0, reset := fun _ => 0 },
  { name := "FAULT.RREC_CFG", base := 0xD0038, count := 1, stride := 0, inner := 1, stride2 := 0,
    rw := 0x1F01, ro := 0, w1c := 0, w1s := 0, wo1 := 0, srw := 0, lkw := 0, reset := fun _ => 0x600 },
  { name := "FAULT.RREC_WR", base := 0xD003C, count := 1, stride := 0, inner := 1, stride2 := 0,
    rw := 0, ro := 0xFFFFFFFF, w1c := 0, w1s := 0, wo1 := 0, srw := 0, lkw := 0, reset := fun _ => 0 },
  { name := "FAULT.RREC_HOST_CI", base := 0xD0040, count := 1, stride := 0, inner := 1, stride2 := 0,
    rw := 0xFFFFFFFF, ro := 0, w1c := 0, w1s := 0, wo1 := 0, srw := 0, lkw := 0, reset := fun _ => 0 },
  { name := "FAULT.RREC_HELD", base := 0xD0044, count := 1, stride := 0, inner := 1, stride2 := 0,
    rw := 0, ro := 0x7F, w1c := 0, w1s := 0, wo1 := 0, srw := 0, lkw := 0, reset := fun _ => 0 },
  { name := "FAULT.FAILURES", base := 0xD0048, count := 1, stride := 0, inner := 1, stride2 := 0,
    rw := 0, ro := 0xFFFFFF, w1c := 0, w1s := 0x80000000, wo1 := 0, srw := 0, lkw := 0, reset := fun _ => 0 },
  { name := "FAULT.RETIREMENTS", base := 0xD004C, count := 1, stride := 0, inner := 1, stride2 := 0,
    rw := 0, ro := 0xFFFFFF, w1c := 0, w1s := 0x80000000, wo1 := 0, srw := 0, lkw := 0, reset := fun _ => 0 },
  { name := "FAULT.MC_SOFT", base := 0xD0050, count := 1, stride := 0, inner := 1, stride2 := 0,
    rw := 0, ro := 0xFFFFFF, w1c := 0, w1s := 0x80000000, wo1 := 0, srw := 0, lkw := 0, reset := fun _ => 0 },
  { name := "FAULT.SHEDS", base := 0xD0054, count := 1, stride := 0, inner := 1, stride2 := 0,
    rw := 0, ro := 0xFFFFFF, w1c := 0, w1s := 0x80000000, wo1 := 0, srw := 0, lkw := 0, reset := fun _ => 0 },
  { name := "FAULT.MC_CE", base := 0xD0060, count := 4, stride := 4, inner := 1, stride2 := 0,
    rw := 0, ro := 0xFFFFFF, w1c := 0, w1s := 0x80000000, wo1 := 0, srw := 0, lkw := 0, reset := fun _ => 0 } ]

/-- Block BARN (R404,R76). -/
def rowsBarn : List RegRow := [
  { name := "BARN.INDEX", base := 0xE0000, count := 1, stride := 0, inner := 1, stride2 := 0,
    rw := 0x1FFFFFFF, ro := 0x80000000, w1c := 0x20000000, w1s := 0, wo1 := 0, srw := 0, lkw := 0, reset := fun _ => 0x10000000 },
  { name := "BARN.DATA", base := 0xE0004, count := 1, stride := 0, inner := 1, stride2 := 0,
    rw := 0xFFFFFFFF, ro := 0, w1c := 0, w1s := 0, wo1 := 0, srw := 0, lkw := 0, reset := fun _ => 0 },
  { name := "BARN.RAW_CTL", base := 0xE0008, count := 1, stride := 0, inner := 1, stride2 := 0,
    rw := 0x3, ro := 0x40000000, w1c := 0x20000000, w1s := 0x80000000, wo1 := 0, srw := 0, lkw := 0, reset := fun _ => 0 },
  { name := "BARN.BANK", base := 0xE000C, count := 1, stride := 0, inner := 1, stride2 := 0,
    rw := 0, ro := 0xF3, w1c := 0, w1s := 0, wo1 := 0, srw := 0, lkw := 0, reset := fun _ => 0 },
  { name := "BARN.JW_CTL", base := 0xE0010, count := 1, stride := 0, inner := 1, stride2 := 0,
    rw := 0xFFFFFF, ro := 0x4F000000, w1c := 0, w1s := 0x80000000, wo1 := 0, srw := 0, lkw := 0, reset := fun _ => 0 },
  { name := "BARN.JW_SEQ", base := 0xE0014, count := 1, stride := 0, inner := 1, stride2 := 0,
    rw := 0, ro := 0xFFFFFFFF, w1c := 0, w1s := 0, wo1 := 0, srw := 0, lkw := 0, reset := fun _ => 0 },
  { name := "BARN.JR_CTL", base := 0xE0018, count := 1, stride := 0, inner := 1, stride2 := 0,
    rw := 0xFFFF, ro := 0x4FFF0000, w1c := 0, w1s := 0x80000000, wo1 := 0, srw := 0, lkw := 0, reset := fun _ => 0 },
  { name := "BARN.JR_SEQ", base := 0xE001C, count := 1, stride := 0, inner := 1, stride2 := 0,
    rw := 0, ro := 0xFFFFFFFF, w1c := 0, w1s := 0, wo1 := 0, srw := 0, lkw := 0, reset := fun _ => 0 },
  { name := "BARN.JOURNAL", base := 0xE0020, count := 1, stride := 0, inner := 1, stride2 := 0,
    rw := 0, ro := 0x3FFFF, w1c := 0, w1s := 0, wo1 := 0, srw := 0, lkw := 0, reset := fun _ => 0 },
  { name := "BARN.LIVE", base := 0xE0024, count := 1, stride := 0, inner := 1, stride2 := 0,
    rw := 0, ro := 0xFFFFF, w1c := 0, w1s := 0, wo1 := 0, srw := 0, lkw := 0, reset := fun _ => 0 },
  { name := "BARN.ERASES_MAX", base := 0xE0028, count := 1, stride := 0, inner := 1, stride2 := 0,
    rw := 0, ro := 0xFFFFFFFF, w1c := 0, w1s := 0, wo1 := 0, srw := 0, lkw := 0, reset := fun _ => 0 },
  { name := "BARN.FLOG_SEQ", base := 0xE002C, count := 1, stride := 0, inner := 1, stride2 := 0,
    rw := 0, ro := 0xFFFFFFFF, w1c := 0, w1s := 0, wo1 := 0, srw := 0, lkw := 0, reset := fun _ => 0 },
  { name := "BARN.COMPACTIONS", base := 0xE0030, count := 1, stride := 0, inner := 1, stride2 := 0,
    rw := 0, ro := 0xFFFFFF, w1c := 0, w1s := 0x80000000, wo1 := 0, srw := 0, lkw := 0, reset := fun _ => 0 } ]

/-- Block PERF (R414,R76). -/
def rowsPerf : List RegRow := [
  { name := "PERF.SNAP_INDEX", base := 0xF0000, count := 1, stride := 0, inner := 1, stride2 := 0,
    rw := 0x1FFFFFFF, ro := 0x80000000, w1c := 0x20000000, w1s := 0, wo1 := 0, srw := 0, lkw := 0, reset := fun _ => 0x10000000 },
  { name := "PERF.SNAP_DATA", base := 0xF0004, count := 1, stride := 0, inner := 1, stride2 := 0,
    rw := 0, ro := 0xFFFFFFFF, w1c := 0, w1s := 0, wo1 := 0, srw := 0, lkw := 0, reset := fun _ => 0 },
  { name := "PERF.CTL", base := 0xF0008, count := 1, stride := 0, inner := 1, stride2 := 0,
    rw := 0, ro := 0x80000000, w1c := 0, w1s := 0x3, wo1 := 0, srw := 0, lkw := 0, reset := fun _ => 0 },
  { name := "PERF.WIN_CFG", base := 0xF000C, count := 1, stride := 0, inner := 1, stride2 := 0,
    rw := 0xC7FFFFFF, ro := 0, w1c := 0, w1s := 0, wo1 := 0, srw := 0, lkw := 0, reset := fun _ => 0x3C },
  { name := "PERF.SNAP_STAT", base := 0xF0010, count := 1, stride := 0, inner := 1, stride2 := 0,
    rw := 0, ro := 0x4000FFFF, w1c := 0xA0000000, w1s := 0, wo1 := 0, srw := 0, lkw := 0, reset := fun _ => 0 },
  { name := "PERF.WIN_NS_LO", base := 0xF0018, count := 1, stride := 0, inner := 1, stride2 := 0,
    rw := 0, ro := 0xFFFFFFFF, w1c := 0, w1s := 0, wo1 := 0, srw := 0, lkw := 0, reset := fun _ => 0 },
  { name := "PERF.WIN_NS_HI", base := 0xF001C, count := 1, stride := 0, inner := 1, stride2 := 0,
    rw := 0, ro := 0xFFFFFFFF, w1c := 0, w1s := 0, wo1 := 0, srw := 0, lkw := 0, reset := fun _ => 0 },
  { name := "PERF.SNAP_TIME_LO", base := 0xF0020, count := 1, stride := 0, inner := 1, stride2 := 0,
    rw := 0, ro := 0xFFFFFFFF, w1c := 0, w1s := 0, wo1 := 0, srw := 0, lkw := 0, reset := fun _ => 0 },
  { name := "PERF.SNAP_TIME_HI", base := 0xF0024, count := 1, stride := 0, inner := 1, stride2 := 0,
    rw := 0, ro := 0xFFFFFFFF, w1c := 0, w1s := 0, wo1 := 0, srw := 0, lkw := 0, reset := fun _ => 0 },
  { name := "PERF.SNAP_FRAME", base := 0xF0028, count := 1, stride := 0, inner := 1, stride2 := 0,
    rw := 0, ro := 0xFFFFFFFF, w1c := 0, w1s := 0, wo1 := 0, srw := 0, lkw := 0, reset := fun _ => 0 },
  { name := "PERF.MERGED", base := 0xF002C, count := 1, stride := 0, inner := 1, stride2 := 0,
    rw := 0, ro := 0xFFFFFF, w1c := 0, w1s := 0x80000000, wo1 := 0, srw := 0, lkw := 0, reset := fun _ => 0 } ]

/-- The registers of a block by its index (R64). -/
def blockRows (b : Nat) : List RegRow :=
  match b with
  | 0 => rowsSys
  | 1 => rowsRing
  | 2 => rowsScene
  | 3 => rowsLayer
  | 4 => rowsObj
  | 5 => rowsBlend
  | 6 => rowsSched
  | 7 => rowsPipe
  | 8 => rowsLane
  | 9 => rowsLight
  | 10 => rowsEvt
  | 11 => rowsDma
  | 12 => rowsChk
  | 13 => rowsFault
  | 14 => rowsBarn
  | 15 => rowsPerf
  | _ => []

/-! The addresses of the registers. -/
namespace A

def sysId : Nat := 0
def sysBootVer : Nat := 0x4
def sysUidLo : Nat := 0x8
def sysUidHi : Nat := 0xC
def sysState : Nat := 0x10
def sysResetCause : Nat := 0x14
def sysResetCtl : Nat := 0x18
def sysView : Nat := 0x1C
def sysProfile : Nat := 0x20
def sysPodlStat : Nat := 0x24
def sysStagger : Nat := 0x28
def sysTemp : Nat := 0x2C
def sysStrobe : Nat := 0x30
def sysStrobePend : Nat := 0x34
def sysStrobeStat : Nat := 0x38
def sysLockViol : Nat := 0x40
def sysLockViolAddr : Nat := 0x44
def sysLocks : Nat := 0x48
def sysUnmapped : Nat := 0x4C
def ringHwCtl : Nat := 0x10000
def ringHwPort : Nat := 0x10004
def ringMacLo : Nat := 0x10008
def ringMacHi : Nat := 0x1000C
def ringHostMacLo : Nat := 0x10010
def ringHostMacHi : Nat := 0x10014
def ringIp4Local : Nat := 0x10018
def ringIp4Host : Nat := 0x1001C
def ringIp6Local (i : Nat) : Nat := 0x10020 + 4 * i
def ringIp6Host (i : Nat) : Nat := 0x10030 + 4 * i
def ringKey (i : Nat) : Nat := 0x10040 + 4 * i
def ringLinkStat : Nat := 0x10050
def ringSession : Nat := 0x10054
def ringHopLimit : Nat := 0x10058
def ringKeepalive : Nat := 0x1005C
def ringRxReject : Nat := 0x10060
def ringRetx : Nat := 0x10064
def ringFailover : Nat := 0x10068
def ringBadDb : Nat := 0x1006C
def ringSqLo (i : Nat) : Nat := 0x11000 + 64 * i
def ringSqHi (i : Nat) : Nat := 0x11004 + 64 * i
def ringCqLo (i : Nat) : Nat := 0x11008 + 64 * i
def ringCqHi (i : Nat) : Nat := 0x1100C + 64 * i
def ringPollLo (i : Nat) : Nat := 0x11010 + 64 * i
def ringPollHi (i : Nat) : Nat := 0x11014 + 64 * i
def ringCfg (i : Nat) : Nat := 0x11018 + 64 * i
def ringCtl (i : Nat) : Nat := 0x1101C + 64 * i
def ringStat (i : Nat) : Nat := 0x11020 + 64 * i
def ringPi (i : Nat) : Nat := 0x11024 + 64 * i
def ringCi (i : Nat) : Nat := 0x11028 + 64 * i
def ringCplPi (i : Nat) : Nat := 0x1102C + 64 * i
def ringHostCi (i : Nat) : Nat := 0x11030 + 64 * i
def ringStopIndex (i : Nat) : Nat := 0x11034 + 64 * i
def ringPollIv (i : Nat) : Nat := 0x11038 + 64 * i
def ringPrecLo (i : Nat) : Nat := 0x12000 + 32 * i
def ringPrecHi (i : Nat) : Nat := 0x12004 + 32 * i
def ringPrecCfg (i : Nat) : Nat := 0x12008 + 32 * i
def ringPrecWr (i : Nat) : Nat := 0x1200C + 32 * i
def ringPrecHostCi (i : Nat) : Nat := 0x12010 + 32 * i
def ringPrecHeld (i : Nat) : Nat := 0x12014 + 32 * i
def sceneOwnerLo : Nat := 0x20000
def sceneOwnerHi : Nat := 0x20004
def sceneFenceCfg : Nat := 0x20008
def sceneWinnowStat : Nat := 0x2000C
def sceneArmed : Nat := 0x20010
def sceneDetailLo : Nat := 0x20014
def sceneDetailHi : Nat := 0x20018
def sceneAdmitCnt : Nat := 0x20020
def sceneRejectCnt : Nat := 0x20024
def sceneSlipCnt : Nat := 0x20028
def sceneDropCnt : Nat := 0x2002C
def layerLutIndex : Nat := 0x30000
def layerLutData : Nat := 0x30004
def layerSiloUsed : Nat := 0x30008
def layerUnderruns : Nat := 0x30010
def layerCrcFails : Nat := 0x30014
def layerTwinReads : Nat := 0x30018
def layerSiloPipe (i : Nat) : Nat := 0x30020 + 4 * i
def layerSlotStat (i : Nat) : Nat := 0x31000 + 16 * i
def layerSlotCrc (i : Nat) : Nat := 0x31004 + 16 * i
def layerCamStat (i : Nat) : Nat := 0x31008 + 16 * i
def objGranIndex : Nat := 0x40000
def objGranData : Nat := 0x40004
def objLoftIndex : Nat := 0x40008
def objLoftData : Nat := 0x4000C
def objLoftFloor : Nat := 0x40010
def objFaults : Nat := 0x40014
def objLoads : Nat := 0x40018
def objPipeStat (i : Nat) : Nat := 0x40020 + 4 * i
def blendLanes : Nat := 0x50000
def blendRotCfg : Nat := 0x50004
def blendRotStat : Nat := 0x50008
def blendSwaps : Nat := 0x5000C
def blendTestFails : Nat := 0x50010
def blendTestNotRun : Nat := 0x50014
def blendShed : Nat := 0x50018
def blendLaneStat (i : Nat) : Nat := 0x51000 + 4 * i
def schedGclIndex : Nat := 0x60000
def schedGclData : Nat := 0x60004
def schedGclLate : Nat := 0x60008
def schedDebtDropped : Nat := 0x6000C
def schedThrottle : Nat := 0x60010
def schedPortCfg (i : Nat) : Nat := 0x60020 + 4 * i
def schedBaseFrame (i : Nat) : Nat := 0x60030 + 8 * i
def schedBaseLine (i : Nat) : Nat := 0x60034 + 8 * i
def schedPortStat (i : Nat) : Nat := 0x60050 + 4 * i
def schedSubCfg (i : Nat) : Nat := 0x61000 + 16 * i
def schedSubRate (i : Nat) : Nat := 0x61004 + 16 * i
def schedSubDepth (i : Nat) : Nat := 0x61008 + 16 * i
def schedSubLevel (i : Nat) : Nat := 0x6100C + 16 * i
def schedPolCfg (i : Nat) : Nat := 0x62000 + 16 * i
def schedPolDepth (i : Nat) : Nat := 0x62004 + 16 * i
def schedPolDrops (i : Nat) : Nat := 0x62008 + 16 * i
def schedPolOverruns (i : Nat) : Nat := 0x6200C + 16 * i
def pipeLutIndex : Nat := 0x70000
def pipeLutData : Nat := 0x70004
def pipeTimeLo : Nat := 0x70008
def pipeTimeHi : Nat := 0x7000C
def pipeTimeStat : Nat := 0x70010
def pipePtpCfg : Nat := 0x70014
def pipePtpOffset : Nat := 0x70018
def pipePllCtl (i : Nat) : Nat := 0x70040 + 16 * i
def pipePllNum (i : Nat) : Nat := 0x70044 + 16 * i
def pipePllDen (i : Nat) : Nat := 0x70048 + 16 * i
def pipePllStat (i : Nat) : Nat := 0x7004C + 16 * i
def pipeCtl (i : Nat) : Nat := 0x71000 + 64 * i
def pipeClk (i : Nat) : Nat := 0x71004 + 64 * i
def pipeHtime0 (i : Nat) : Nat := 0x71008 + 64 * i
def pipeHtime1 (i : Nat) : Nat := 0x7100C + 64 * i
def pipeVtime0 (i : Nat) : Nat := 0x71010 + 64 * i
def pipeVtime1 (i : Nat) : Nat := 0x71014 + 64 * i
def pipeCommit (i : Nat) : Nat := 0x71018 + 64 * i
def pipeCamLock (i : Nat) : Nat := 0x7101C + 64 * i
def pipeTe (i : Nat) : Nat := 0x71020 + 64 * i
def pipeLpe (i j : Nat) : Nat := 0x71024 + 64 * i + 4 * j
def pipePos (i : Nat) : Nat := 0x71034 + 64 * i
def pipeFrame (i : Nat) : Nat := 0x71038 + 64 * i
def pipeStat (i : Nat) : Nat := 0x7103C + 64 * i
def laneGroups : Nat := 0x80000
def laneLinkFails : Nat := 0x80004
def laneCfg (i : Nat) : Nat := 0x81000 + 64 * i
def laneRate (i : Nat) : Nat := 0x81004 + 64 * i
def lanePktCtl (i : Nat) : Nat := 0x81008 + 64 * i
def lanePktAddr (i : Nat) : Nat := 0x8100C + 64 * i
def lanePktData (i : Nat) : Nat := 0x81010 + 64 * i
def laneStat (i : Nat) : Nat := 0x81014 + 64 * i
def laneCamCfg (i : Nat) : Nat := 0x82000 + 32 * i
def laneCamSize (i : Nat) : Nat := 0x82004 + 32 * i
def laneCamBufLo (i : Nat) : Nat := 0x82008 + 32 * i
def laneCamBufHi (i : Nat) : Nat := 0x8200C + 32 * i
def laneCamStride (i : Nat) : Nat := 0x82010 + 32 * i
def laneCamStat (i : Nat) : Nat := 0x82014 + 32 * i
def laneCamErrs (i : Nat) : Nat := 0x82018 + 32 * i
def lightTtCfg : Nat := 0x90000
def lightTtBlink : Nat := 0x90004
def lightTtStateLo : Nat := 0x90008
def lightTtStateHi : Nat := 0x9000C
def lightTtNight : Nat := 0x90010
def lightForce : Nat := 0x90014
def lightDimCfg : Nat := 0x90020
def lightDimStart : Nat := 0x90024
def lightFbCtx : Nat := 0x90028
def lightDimCurve (i : Nat) : Nat := 0x90040 + 4 * i
def lightZoneA (i : Nat) : Nat := 0x90100 + 16 * i
def lightZoneX (i : Nat) : Nat := 0x90104 + 16 * i
def lightZoneY (i : Nat) : Nat := 0x90108 + 16 * i
def lightZoneStat (i : Nat) : Nat := 0x9010C + 16 * i
def lightTtCh (i : Nat) : Nat := 0x91000 + 4 * i
def lightTtStat (i : Nat) : Nat := 0x91080 + 4 * i
def lightMapId (i : Nat) : Nat := 0x92000 + 16 * i
def lightMapField (i : Nat) : Nat := 0x92004 + 16 * i
def lightMapAct (i : Nat) : Nat := 0x92008 + 16 * i
def lightMapVal (i : Nat) : Nat := 0x9200C + 16 * i
def lightCanCtl (i : Nat) : Nat := 0x93000 + 64 * i
def lightCanNbt (i : Nat) : Nat := 0x93004 + 64 * i
def lightCanDbt (i : Nat) : Nat := 0x93008 + 64 * i
def lightCanTxid (i : Nat) : Nat := 0x9300C + 64 * i
def lightCanStat (i : Nat) : Nat := 0x93010 + 64 * i
def evtQueues : Nat := 0xA0000
def evtStrayCpl : Nat := 0xA0004
def evtSaturations : Nat := 0xA0008
def evtSpiFirst : Nat := 0xA000C
def evtLinkSleep : Nat := 0xA0010
def evtSnsCfg (i : Nat) : Nat := 0xA0020 + 4 * i
def evtQbaseLo (i : Nat) : Nat := 0xA0400 + 32 * i
def evtQbaseHi (i : Nat) : Nat := 0xA0404 + 32 * i
def evtQnotifyLo (i : Nat) : Nat := 0xA0408 + 32 * i
def evtQnotifyHi (i : Nat) : Nat := 0xA040C + 32 * i
def evtQcfg (i : Nat) : Nat := 0xA0410 + 32 * i
def evtQctl (i : Nat) : Nat := 0xA0414 + 32 * i
def evtQpi (i : Nat) : Nat := 0xA0418 + 32 * i
def evtHostCi (i : Nat) : Nat := 0xA041C + 32 * i
def evtSrcCfg (i : Nat) : Nat := 0xA1000 + 8 * i
def evtSrcStat (i : Nat) : Nat := 0xA1004 + 8 * i
def dmaEngine : Nat := 0xB0000
def dmaHalts : Nat := 0xB0004
def dmaBadDesc : Nat := 0xB0008
def dmaTrigMissed : Nat := 0xB000C
def dmaBufUsed : Nat := 0xB0010
def dmaChCfg (i : Nat) : Nat := 0xB1000 + 16 * i
def dmaChStat (i : Nat) : Nat := 0xB1004 + 16 * i
def dmaTchCfg (i : Nat) : Nat := 0xB2000 + 32 * i
def dmaTchPos (i : Nat) : Nat := 0xB2004 + 32 * i
def dmaTchPeriod (i : Nat) : Nat := 0xB2008 + 32 * i
def dmaTchBaseLo (i : Nat) : Nat := 0xB200C + 32 * i
def dmaTchBaseHi (i : Nat) : Nat := 0xB2010 + 32 * i
def dmaTchStat (i : Nat) : Nat := 0xB2014 + 32 * i
def dmaTchRuns (i : Nat) : Nat := 0xB2018 + 32 * i
def chkWinMismatch (i : Nat) : Nat := 0xC0000 + 4 * i
def chkMismatches : Nat := 0xC0020
def chkScanCfg (i : Nat) : Nat := 0xC0800 + 32 * i
def chkStartLo (i : Nat) : Nat := 0xC0804 + 32 * i
def chkStartHi (i : Nat) : Nat := 0xC0808 + 32 * i
def chkLen (i : Nat) : Nat := 0xC080C + 32 * i
def chkResult (i : Nat) : Nat := 0xC0810 + 32 * i
def chkScanStat (i : Nat) : Nat := 0xC0814 + 32 * i
def chkErrLo (i : Nat) : Nat := 0xC0818 + 32 * i
def chkErrHi (i : Nat) : Nat := 0xC081C + 32 * i
def chkWinCfg (i : Nat) : Nat := 0xC2000 + 32 * i
def chkWinX (i : Nat) : Nat := 0xC2004 + 32 * i
def chkWinY (i : Nat) : Nat := 0xC2008 + 32 * i
def chkWinKey (i : Nat) : Nat := 0xC200C + 32 * i
def chkWinResult (i : Nat) : Nat := 0xC2010 + 32 * i
def chkWinFrame (i : Nat) : Nat := 0xC2014 + 32 * i
def chkWinStat (i : Nat) : Nat := 0xC2018 + 32 * i
def chkExpKey (i j : Nat) : Nat := 0xC4000 + 32 * i + 8 * j
def chkExpVal (i j : Nat) : Nat := 0xC4004 + 32 * i + 8 * j
def faultState : Nat := 0xD0000
def faultMc : Nat := 0xD0004
def faultLanes : Nat := 0xD0008
def faultLg : Nat := 0xD0010
def faultDmaRetired : Nat := 0xD0014
def faultDmaReady : Nat := 0xD0018
def faultLinks : Nat := 0xD001C
def faultRetest : Nat := 0xD0020
def faultRetestStat : Nat := 0xD0024
def faultLast : Nat := 0xD0028
def faultRrecLo : Nat := 0xD0030
def faultRrecHi : Nat := 0xD0034
def faultRrecCfg : Nat := 0xD0038
def faultRrecWr : Nat := 0xD003C
def faultRrecHostCi : Nat := 0xD0040
def faultRrecHeld : Nat := 0xD0044
def faultFailures : Nat := 0xD0048
def faultRetirements : Nat := 0xD004C
def faultMcSoft : Nat := 0xD0050
def faultSheds : Nat := 0xD0054
def faultMcCe (i : Nat) : Nat := 0xD0060 + 4 * i
def barnIndex : Nat := 0xE0000
def barnData : Nat := 0xE0004
def barnRawCtl : Nat := 0xE0008
def barnBank : Nat := 0xE000C
def barnJwCtl : Nat := 0xE0010
def barnJwSeq : Nat := 0xE0014
def barnJrCtl : Nat := 0xE0018
def barnJrSeq : Nat := 0xE001C
def barnJournal : Nat := 0xE0020
def barnLive : Nat := 0xE0024
def barnErasesMax : Nat := 0xE0028
def barnFlogSeq : Nat := 0xE002C
def barnCompactions : Nat := 0xE0030
def perfSnapIndex : Nat := 0xF0000
def perfSnapData : Nat := 0xF0004
def perfCtl : Nat := 0xF0008
def perfWinCfg : Nat := 0xF000C
def perfSnapStat : Nat := 0xF0010
def perfWinNsLo : Nat := 0xF0018
def perfWinNsHi : Nat := 0xF001C
def perfSnapTimeLo : Nat := 0xF0020
def perfSnapTimeHi : Nat := 0xF0024
def perfSnapFrame : Nat := 0xF0028
def perfMerged : Nat := 0xF002C

end A

/-! The fields of the registers. -/
namespace F

def sysIdDevice : Fld := ⟨A.sysId, 31, 16⟩
def sysIdStepping : Fld := ⟨A.sysId, 15, 8⟩
def sysIdFamily : Fld := ⟨A.sysId, 7, 0⟩
def sysBootVerMajor : Fld := ⟨A.sysBootVer, 31, 16⟩
def sysBootVerMinor : Fld := ⟨A.sysBootVer, 15, 0⟩
def sysUidLoUid : Fld := ⟨A.sysUidLo, 31, 0⟩
def sysUidHiUid : Fld := ⟨A.sysUidHi, 31, 0⟩
def sysStateMcInService : Fld := ⟨A.sysState, 15, 12⟩
def sysStatePipeRun : Fld := ⟨A.sysState, 11, 4⟩
def sysStateState : Fld := ⟨A.sysState, 3, 0⟩
def sysResetCauseLineLoss : Fld := ⟨A.sysResetCause, 3, 3⟩
def sysResetCauseSoft : Fld := ⟨A.sysResetCause, 2, 2⟩
def sysResetCausePin : Fld := ⟨A.sysResetCause, 1, 1⟩
def sysResetCausePowerGood : Fld := ⟨A.sysResetCause, 0, 0⟩
def sysResetCtlSoft : Fld := ⟨A.sysResetCtl, 16, 16⟩
def sysResetCtlKey : Fld := ⟨A.sysResetCtl, 15, 0⟩
def sysViewActive : Fld := ⟨A.sysView, 0, 0⟩
def sysProfileLock : Fld := ⟨A.sysProfile, 31, 31⟩
def sysProfileActive : Fld := ⟨A.sysProfile, 9, 8⟩
def sysProfileClassProfile : Fld := ⟨A.sysProfile, 5, 4⟩
def sysProfileSel : Fld := ⟨A.sysProfile, 1, 0⟩
def sysPodlStatLock : Fld := ⟨A.sysPodlStat, 31, 31⟩
def sysPodlStatPAv : Fld := ⟨A.sysPodlStat, 21, 16⟩
def sysPodlStatBoardReserve : Fld := ⟨A.sysPodlStat, 13, 8⟩
def sysPodlStatNoclass : Fld := ⟨A.sysPodlStat, 6, 6⟩
def sysPodlStatClass : Fld := ⟨A.sysPodlStat, 5, 0⟩
def sysStaggerStep : Fld := ⟨A.sysStagger, 7, 0⟩
def sysTempTrip : Fld := ⟨A.sysTemp, 17, 17⟩
def sysTempWarn : Fld := ⟨A.sysTemp, 16, 16⟩
def sysTempTj : Fld := ⟨A.sysTemp, 11, 0⟩
def sysStrobeBlock : Fld := ⟨A.sysStrobe, 15, 0⟩
def sysStrobePendPipe : Fld := ⟨A.sysStrobePend, 23, 16⟩
def sysStrobePendBlock : Fld := ⟨A.sysStrobePend, 15, 0⟩
def sysStrobeStatReason : Fld := ⟨A.sysStrobeStat, 23, 16⟩
def sysStrobeStatRefused : Fld := ⟨A.sysStrobeStat, 15, 0⟩
def sysLockViolClr : Fld := ⟨A.sysLockViol, 31, 31⟩
def sysLockViolCount : Fld := ⟨A.sysLockViol, 15, 0⟩
def sysLockViolAddrPath : Fld := ⟨A.sysLockViolAddr, 22, 21⟩
def sysLockViolAddrAddr : Fld := ⟨A.sysLockViolAddr, 20, 0⟩
def sysLocksHwKey : Fld := ⟨A.sysLocks, 3, 3⟩
def sysLocksTtSafety : Fld := ⟨A.sysLocks, 2, 2⟩
def sysLocksPodl : Fld := ⟨A.sysLocks, 1, 1⟩
def sysLocksProfile : Fld := ⟨A.sysLocks, 0, 0⟩
def sysUnmappedClr : Fld := ⟨A.sysUnmapped, 31, 31⟩
def sysUnmappedCount : Fld := ⟨A.sysUnmapped, 15, 0⟩
def ringHwCtlDscp : Fld := ⟨A.ringHwCtl, 29, 24⟩
def ringHwCtlVid : Fld := ⟨A.ringHwCtl, 23, 12⟩
def ringHwCtlPcp : Fld := ⟨A.ringHwCtl, 11, 9⟩
def ringHwCtlVlanEn : Fld := ⟨A.ringHwCtl, 8, 8⟩
def ringHwCtlTransport : Fld := ⟨A.ringHwCtl, 7, 6⟩
def ringHwCtlLinkbRole : Fld := ⟨A.ringHwCtl, 5, 5⟩
def ringHwCtlLinkaRole : Fld := ⟨A.ringHwCtl, 4, 4⟩
def ringHwCtlLinkaSpeed : Fld := ⟨A.ringHwCtl, 3, 2⟩
def ringHwCtlLinkbEn : Fld := ⟨A.ringHwCtl, 1, 1⟩
def ringHwCtlLinkaEn : Fld := ⟨A.ringHwCtl, 0, 0⟩
def ringHwPortUdpPort : Fld := ⟨A.ringHwPort, 15, 0⟩
def ringMacLoAddr : Fld := ⟨A.ringMacLo, 31, 0⟩
def ringMacHiAddr : Fld := ⟨A.ringMacHi, 15, 0⟩
def ringHostMacLoAddr : Fld := ⟨A.ringHostMacLo, 31, 0⟩
def ringHostMacHiAddr : Fld := ⟨A.ringHostMacHi, 15, 0⟩
def ringIp4LocalAddr : Fld := ⟨A.ringIp4Local, 31, 0⟩
def ringIp4HostAddr : Fld := ⟨A.ringIp4Host, 31, 0⟩
def ringIp6LocalAddr (i : Nat) : Fld := ⟨A.ringIp6Local i, 31, 0⟩
def ringIp6HostAddr (i : Nat) : Fld := ⟨A.ringIp6Host i, 31, 0⟩
def ringKeyKey (i : Nat) : Fld := ⟨A.ringKey i, 31, 0⟩
def ringLinkStatBRetired : Fld := ⟨A.ringLinkStat, 17, 17⟩
def ringLinkStatARetired : Fld := ⟨A.ringLinkStat, 16, 16⟩
def ringLinkStatBFails : Fld := ⟨A.ringLinkStat, 15, 12⟩
def ringLinkStatAFails : Fld := ⟨A.ringLinkStat, 11, 8⟩
def ringLinkStatHostLost : Fld := ⟨A.ringLinkStat, 5, 5⟩
def ringLinkStatActive : Fld := ⟨A.ringLinkStat, 4, 4⟩
def ringLinkStatA1000 : Fld := ⟨A.ringLinkStat, 2, 2⟩
def ringLinkStatBUp : Fld := ⟨A.ringLinkStat, 1, 1⟩
def ringLinkStatAUp : Fld := ⟨A.ringLinkStat, 0, 0⟩
def ringSessionClose : Fld := ⟨A.ringSession, 24, 24⟩
def ringSessionState : Fld := ⟨A.ringSession, 17, 16⟩
def ringSessionId : Fld := ⟨A.ringSession, 15, 0⟩
def ringHopLimitLimit : Fld := ⟨A.ringHopLimit, 15, 0⟩
def ringKeepaliveInterval : Fld := ⟨A.ringKeepalive, 15, 0⟩
def ringRxRejectClr : Fld := ⟨A.ringRxReject, 31, 31⟩
def ringRxRejectCount : Fld := ⟨A.ringRxReject, 15, 0⟩
def ringRetxClr : Fld := ⟨A.ringRetx, 31, 31⟩
def ringRetxCount : Fld := ⟨A.ringRetx, 15, 0⟩
def ringFailoverClr : Fld := ⟨A.ringFailover, 31, 31⟩
def ringFailoverCount : Fld := ⟨A.ringFailover, 15, 0⟩
def ringBadDbClr : Fld := ⟨A.ringBadDb, 31, 31⟩
def ringBadDbCount : Fld := ⟨A.ringBadDb, 15, 0⟩
def ringSqLoAddr (i : Nat) : Fld := ⟨A.ringSqLo i, 31, 0⟩
def ringSqHiAddr (i : Nat) : Fld := ⟨A.ringSqHi i, 31, 0⟩
def ringCqLoAddr (i : Nat) : Fld := ⟨A.ringCqLo i, 31, 0⟩
def ringCqHiAddr (i : Nat) : Fld := ⟨A.ringCqHi i, 31, 0⟩
def ringPollLoAddr (i : Nat) : Fld := ⟨A.ringPollLo i, 31, 0⟩
def ringPollHiAddr (i : Nat) : Fld := ⟨A.ringPollHi i, 31, 0⟩
def ringCfgCplEvt (i : Nat) : Fld := ⟨A.ringCfg i, 22, 22⟩
def ringCfgPollEn (i : Nat) : Fld := ⟨A.ringCfg i, 21, 21⟩
def ringCfgChannel (i : Nat) : Fld := ⟨A.ringCfg i, 20, 16⟩
def ringCfgSize (i : Nat) : Fld := ⟨A.ringCfg i, 12, 8⟩
def ringCfgType (i : Nat) : Fld := ⟨A.ringCfg i, 1, 0⟩
def ringCtlResume (i : Nat) : Fld := ⟨A.ringCtl i, 2, 2⟩
def ringCtlReset (i : Nat) : Fld := ⟨A.ringCtl i, 1, 1⟩
def ringCtlRun (i : Nat) : Fld := ⟨A.ringCtl i, 0, 0⟩
def ringStatCause (i : Nat) : Fld := ⟨A.ringStat i, 11, 8⟩
def ringStatState (i : Nat) : Fld := ⟨A.ringStat i, 2, 0⟩
def ringPiIndex (i : Nat) : Fld := ⟨A.ringPi i, 31, 0⟩
def ringCiIndex (i : Nat) : Fld := ⟨A.ringCi i, 31, 0⟩
def ringCplPiIndex (i : Nat) : Fld := ⟨A.ringCplPi i, 31, 0⟩
def ringHostCiIndex (i : Nat) : Fld := ⟨A.ringHostCi i, 31, 0⟩
def ringStopIndexIndex (i : Nat) : Fld := ⟨A.ringStopIndex i, 31, 0⟩
def ringPollIvUs (i : Nat) : Fld := ⟨A.ringPollIv i, 15, 0⟩
def ringPrecLoAddr (i : Nat) : Fld := ⟨A.ringPrecLo i, 31, 0⟩
def ringPrecHiAddr (i : Nat) : Fld := ⟨A.ringPrecHi i, 31, 0⟩
def ringPrecCfgSize (i : Nat) : Fld := ⟨A.ringPrecCfg i, 12, 8⟩
def ringPrecCfgEn (i : Nat) : Fld := ⟨A.ringPrecCfg i, 0, 0⟩
def ringPrecWrIndex (i : Nat) : Fld := ⟨A.ringPrecWr i, 31, 0⟩
def ringPrecHostCiIndex (i : Nat) : Fld := ⟨A.ringPrecHostCi i, 31, 0⟩
def ringPrecHeldCount (i : Nat) : Fld := ⟨A.ringPrecHeld i, 6, 0⟩
def sceneOwnerLoEn3 : Fld := ⟨A.sceneOwnerLo, 31, 31⟩
def sceneOwnerLoRing3 : Fld := ⟨A.sceneOwnerLo, 28, 24⟩
def sceneOwnerLoEn2 : Fld := ⟨A.sceneOwnerLo, 23, 23⟩
def sceneOwnerLoRing2 : Fld := ⟨A.sceneOwnerLo, 20, 16⟩
def sceneOwnerLoEn1 : Fld := ⟨A.sceneOwnerLo, 15, 15⟩
def sceneOwnerLoRing1 : Fld := ⟨A.sceneOwnerLo, 12, 8⟩
def sceneOwnerLoEn0 : Fld := ⟨A.sceneOwnerLo, 7, 7⟩
def sceneOwnerLoRing0 : Fld := ⟨A.sceneOwnerLo, 4, 0⟩
def sceneOwnerHiEn3 : Fld := ⟨A.sceneOwnerHi, 31, 31⟩
def sceneOwnerHiRing3 : Fld := ⟨A.sceneOwnerHi, 28, 24⟩
def sceneOwnerHiEn2 : Fld := ⟨A.sceneOwnerHi, 23, 23⟩
def sceneOwnerHiRing2 : Fld := ⟨A.sceneOwnerHi, 20, 16⟩
def sceneOwnerHiEn1 : Fld := ⟨A.sceneOwnerHi, 15, 15⟩
def sceneOwnerHiRing1 : Fld := ⟨A.sceneOwnerHi, 12, 8⟩
def sceneOwnerHiEn0 : Fld := ⟨A.sceneOwnerHi, 7, 7⟩
def sceneOwnerHiRing0 : Fld := ⟨A.sceneOwnerHi, 4, 0⟩
def sceneFenceCfgHostPollUs : Fld := ⟨A.sceneFenceCfg, 31, 16⟩
def sceneFenceCfgFenceWait : Fld := ⟨A.sceneFenceCfg, 3, 0⟩
def sceneWinnowStatBusy : Fld := ⟨A.sceneWinnowStat, 31, 31⟩
def sceneWinnowStatRing : Fld := ⟨A.sceneWinnowStat, 28, 24⟩
def sceneWinnowStatReason : Fld := ⟨A.sceneWinnowStat, 23, 16⟩
def sceneWinnowStatQueued : Fld := ⟨A.sceneWinnowStat, 3, 0⟩
def sceneArmedSlipping : Fld := ⟨A.sceneArmed, 23, 16⟩
def sceneArmedPipe : Fld := ⟨A.sceneArmed, 7, 0⟩
def sceneDetailLoDetail : Fld := ⟨A.sceneDetailLo, 31, 0⟩
def sceneDetailHiDetail : Fld := ⟨A.sceneDetailHi, 31, 0⟩
def sceneAdmitCntClr : Fld := ⟨A.sceneAdmitCnt, 31, 31⟩
def sceneAdmitCntCount : Fld := ⟨A.sceneAdmitCnt, 15, 0⟩
def sceneRejectCntClr : Fld := ⟨A.sceneRejectCnt, 31, 31⟩
def sceneRejectCntCount : Fld := ⟨A.sceneRejectCnt, 15, 0⟩
def sceneSlipCntClr : Fld := ⟨A.sceneSlipCnt, 31, 31⟩
def sceneSlipCntCount : Fld := ⟨A.sceneSlipCnt, 15, 0⟩
def sceneDropCntClr : Fld := ⟨A.sceneDropCnt, 31, 31⟩
def sceneDropCntCount : Fld := ⟨A.sceneDropCnt, 15, 0⟩
def layerLutIndexBusy : Fld := ⟨A.layerLutIndex, 31, 31⟩
def layerLutIndexErr : Fld := ⟨A.layerLutIndex, 29, 29⟩
def layerLutIndexAutoInc : Fld := ⟨A.layerLutIndex, 28, 28⟩
def layerLutIndexTable : Fld := ⟨A.layerLutIndex, 27, 24⟩
def layerLutIndexWord : Fld := ⟨A.layerLutIndex, 23, 0⟩
def layerLutDataData : Fld := ⟨A.layerLutData, 31, 0⟩
def layerSiloUsedUnits : Fld := ⟨A.layerSiloUsed, 8, 0⟩
def layerUnderrunsClr : Fld := ⟨A.layerUnderruns, 31, 31⟩
def layerUnderrunsCount : Fld := ⟨A.layerUnderruns, 23, 0⟩
def layerCrcFailsClr : Fld := ⟨A.layerCrcFails, 31, 31⟩
def layerCrcFailsCount : Fld := ⟨A.layerCrcFails, 23, 0⟩
def layerTwinReadsClr : Fld := ⟨A.layerTwinReads, 31, 31⟩
def layerTwinReadsCount : Fld := ⟨A.layerTwinReads, 23, 0⟩
def layerSiloPipeUnits (i : Nat) : Fld := ⟨A.layerSiloPipe i, 8, 0⟩
def layerSlotStatCauseClr (i : Nat) : Fld := ⟨A.layerSlotStat i, 12, 12⟩
def layerSlotStatCause (i : Nat) : Fld := ⟨A.layerSlotStat i, 11, 8⟩
def layerSlotStatOnTwin (i : Nat) : Fld := ⟨A.layerSlotStat i, 3, 3⟩
def layerSlotStatHeldOff (i : Nat) : Fld := ⟨A.layerSlotStat i, 2, 2⟩
def layerSlotStatOffFrame (i : Nat) : Fld := ⟨A.layerSlotStat i, 1, 1⟩
def layerSlotStatActive (i : Nat) : Fld := ⟨A.layerSlotStat i, 0, 0⟩
def layerSlotCrcCrc (i : Nat) : Fld := ⟨A.layerSlotCrc i, 31, 0⟩
def layerCamStatStaleLines (i : Nat) : Fld := ⟨A.layerCamStat i, 31, 16⟩
def layerCamStatLagMax (i : Nat) : Fld := ⟨A.layerCamStat i, 7, 0⟩
def objGranIndexBusy : Fld := ⟨A.objGranIndex, 31, 31⟩
def objGranIndexErr : Fld := ⟨A.objGranIndex, 29, 29⟩
def objGranIndexAutoInc : Fld := ⟨A.objGranIndex, 28, 28⟩
def objGranIndexTable : Fld := ⟨A.objGranIndex, 27, 24⟩
def objGranIndexWord : Fld := ⟨A.objGranIndex, 23, 0⟩
def objGranDataData : Fld := ⟨A.objGranData, 31, 0⟩
def objLoftIndexBusy : Fld := ⟨A.objLoftIndex, 31, 31⟩
def objLoftIndexErr : Fld := ⟨A.objLoftIndex, 29, 29⟩
def objLoftIndexAutoInc : Fld := ⟨A.objLoftIndex, 28, 28⟩
def objLoftIndexTable : Fld := ⟨A.objLoftIndex, 27, 24⟩
def objLoftIndexWord : Fld := ⟨A.objLoftIndex, 23, 0⟩
def objLoftDataData : Fld := ⟨A.objLoftData, 31, 0⟩
def objLoftFloorFloor : Fld := ⟨A.objLoftFloor, 22, 0⟩
def objFaultsClr : Fld := ⟨A.objFaults, 31, 31⟩
def objFaultsCount : Fld := ⟨A.objFaults, 23, 0⟩
def objLoadsClr : Fld := ⟨A.objLoads, 31, 31⟩
def objLoadsCount : Fld := ⟨A.objLoads, 23, 0⟩
def objPipeStatCauseClr (i : Nat) : Fld := ⟨A.objPipeStat i, 28, 28⟩
def objPipeStatCause (i : Nat) : Fld := ⟨A.objPipeStat i, 27, 24⟩
def objPipeStatPeakFurrow (i : Nat) : Fld := ⟨A.objPipeStat i, 20, 10⟩
def objPipeStatPeakSpans (i : Nat) : Fld := ⟨A.objPipeStat i, 9, 0⟩
def blendLanesNL : Fld := ⟨A.blendLanes, 28, 24⟩
def blendLanesInService : Fld := ⟨A.blendLanes, 16, 0⟩
def blendRotCfgSlotUs : Fld := ⟨A.blendRotCfg, 15, 0⟩
def blendRotStatHold : Fld := ⟨A.blendRotStat, 21, 21⟩
def blendRotStatTestLane : Fld := ⟨A.blendRotStat, 20, 16⟩
def blendRotStatSlotLeft : Fld := ⟨A.blendRotStat, 15, 0⟩
def blendSwapsClr : Fld := ⟨A.blendSwaps, 31, 31⟩
def blendSwapsCount : Fld := ⟨A.blendSwaps, 23, 0⟩
def blendTestFailsClr : Fld := ⟨A.blendTestFails, 31, 31⟩
def blendTestFailsCount : Fld := ⟨A.blendTestFails, 23, 0⟩
def blendTestNotRunClr : Fld := ⟨A.blendTestNotRun, 31, 31⟩
def blendTestNotRunCount : Fld := ⟨A.blendTestNotRun, 23, 0⟩
def blendShedPipe : Fld := ⟨A.blendShed, 7, 0⟩
def blendLaneStatPasses (i : Nat) : Fld := ⟨A.blendLaneStat i, 23, 8⟩
def blendLaneStatResult (i : Nat) : Fld := ⟨A.blendLaneStat i, 5, 4⟩
def blendLaneStatState (i : Nat) : Fld := ⟨A.blendLaneStat i, 2, 0⟩
def schedGclIndexBusy : Fld := ⟨A.schedGclIndex, 31, 31⟩
def schedGclIndexErr : Fld := ⟨A.schedGclIndex, 29, 29⟩
def schedGclIndexAutoInc : Fld := ⟨A.schedGclIndex, 28, 28⟩
def schedGclIndexTable : Fld := ⟨A.schedGclIndex, 27, 24⟩
def schedGclIndexWord : Fld := ⟨A.schedGclIndex, 23, 0⟩
def schedGclDataData : Fld := ⟨A.schedGclData, 31, 0⟩
def schedGclLateClr : Fld := ⟨A.schedGclLate, 31, 31⟩
def schedGclLateCount : Fld := ⟨A.schedGclLate, 23, 0⟩
def schedDebtDroppedClr : Fld := ⟨A.schedDebtDropped, 31, 31⟩
def schedDebtDroppedCount : Fld := ⟨A.schedDebtDropped, 23, 0⟩
def schedThrottleReproof : Fld := ⟨A.schedThrottle, 8, 8⟩
def schedThrottleHeld : Fld := ⟨A.schedThrottle, 3, 0⟩
def schedPortCfgRefPipe (i : Nat) : Fld := ⟨A.schedPortCfg i, 10, 8⟩
def schedPortCfgLen (i : Nat) : Fld := ⟨A.schedPortCfg i, 6, 0⟩
def schedBaseFrameFrame (i : Nat) : Fld := ⟨A.schedBaseFrame i, 31, 0⟩
def schedBaseLineLine (i : Nat) : Fld := ⟨A.schedBaseLine i, 15, 0⟩
def schedPortStatEntry (i : Nat) : Fld := ⟨A.schedPortStat i, 14, 8⟩
def schedPortStatWaiting (i : Nat) : Fld := ⟨A.schedPortStat i, 4, 4⟩
def schedPortStatState (i : Nat) : Fld := ⟨A.schedPortStat i, 2, 0⟩
def schedSubCfgPortMask (i : Nat) : Fld := ⟨A.schedSubCfg i, 11, 8⟩
def schedSubCfgClass (i : Nat) : Fld := ⟨A.schedSubCfg i, 6, 4⟩
def schedSubCfgEn (i : Nat) : Fld := ⟨A.schedSubCfg i, 0, 0⟩
def schedSubRateFillOnChange (i : Nat) : Fld := ⟨A.schedSubRate i, 31, 31⟩
def schedSubRateRate (i : Nat) : Fld := ⟨A.schedSubRate i, 12, 0⟩
def schedSubDepthDepth (i : Nat) : Fld := ⟨A.schedSubDepth i, 10, 0⟩
def schedSubLevelLevel (i : Nat) : Fld := ⟨A.schedSubLevel i, 31, 0⟩
def schedPolCfgEn (i : Nat) : Fld := ⟨A.schedPolCfg i, 31, 31⟩
def schedPolCfgRate (i : Nat) : Fld := ⟨A.schedPolCfg i, 12, 0⟩
def schedPolDepthDepth (i : Nat) : Fld := ⟨A.schedPolDepth i, 10, 0⟩
def schedPolDropsClr (i : Nat) : Fld := ⟨A.schedPolDrops i, 31, 31⟩
def schedPolDropsCount (i : Nat) : Fld := ⟨A.schedPolDrops i, 23, 0⟩
def schedPolOverrunsClr (i : Nat) : Fld := ⟨A.schedPolOverruns i, 31, 31⟩
def schedPolOverrunsCount (i : Nat) : Fld := ⟨A.schedPolOverruns i, 23, 0⟩
def pipeLutIndexBusy : Fld := ⟨A.pipeLutIndex, 31, 31⟩
def pipeLutIndexErr : Fld := ⟨A.pipeLutIndex, 29, 29⟩
def pipeLutIndexAutoInc : Fld := ⟨A.pipeLutIndex, 28, 28⟩
def pipeLutIndexTable : Fld := ⟨A.pipeLutIndex, 27, 24⟩
def pipeLutIndexWord : Fld := ⟨A.pipeLutIndex, 23, 0⟩
def pipeLutDataData : Fld := ⟨A.pipeLutData, 31, 0⟩
def pipeTimeLoTime : Fld := ⟨A.pipeTimeLo, 31, 0⟩
def pipeTimeHiTime : Fld := ⟨A.pipeTimeHi, 31, 0⟩
def pipeTimeStatHoldover : Fld := ⟨A.pipeTimeStat, 17, 17⟩
def pipeTimeStatSynced : Fld := ⟨A.pipeTimeStat, 16, 16⟩
def pipeTimeStatSteps : Fld := ⟨A.pipeTimeStat, 7, 0⟩
def pipePtpCfgEn : Fld := ⟨A.pipePtpCfg, 16, 16⟩
def pipePtpCfgLogPdelayIv : Fld := ⟨A.pipePtpCfg, 11, 8⟩
def pipePtpCfgDomain : Fld := ⟨A.pipePtpCfg, 6, 0⟩
def pipePtpOffsetOffset : Fld := ⟨A.pipePtpOffset, 31, 0⟩
def pipePllCtlEn (i : Nat) : Fld := ⟨A.pipePllCtl i, 8, 8⟩
def pipePllCtlNdiv (i : Nat) : Fld := ⟨A.pipePllCtl i, 6, 0⟩
def pipePllNumNum (i : Nat) : Fld := ⟨A.pipePllNum i, 23, 0⟩
def pipePllDenDen (i : Nat) : Fld := ⟨A.pipePllDen i, 23, 0⟩
def pipePllStatSteer (i : Nat) : Fld := ⟨A.pipePllStat i, 31, 16⟩
def pipePllStatLockFail (i : Nat) : Fld := ⟨A.pipePllStat i, 1, 1⟩
def pipePllStatLocked (i : Nat) : Fld := ⟨A.pipePllStat i, 0, 0⟩
def pipeCtlStook (i : Nat) : Fld := ⟨A.pipeCtl i, 10, 8⟩
def pipeCtlRun (i : Nat) : Fld := ⟨A.pipeCtl i, 0, 0⟩
def pipeClkPll (i : Nat) : Fld := ⟨A.pipeClk i, 9, 8⟩
def pipeClkDiv (i : Nat) : Fld := ⟨A.pipeClk i, 7, 0⟩
def pipeHtime0Hfp (i : Nat) : Fld := ⟨A.pipeHtime0 i, 31, 16⟩
def pipeHtime0Hactive (i : Nat) : Fld := ⟨A.pipeHtime0 i, 15, 0⟩
def pipeHtime1Hpol (i : Nat) : Fld := ⟨A.pipeHtime1 i, 31, 31⟩
def pipeHtime1Hbp (i : Nat) : Fld := ⟨A.pipeHtime1 i, 27, 16⟩
def pipeHtime1Hsync (i : Nat) : Fld := ⟨A.pipeHtime1 i, 11, 0⟩
def pipeVtime0Vfp (i : Nat) : Fld := ⟨A.pipeVtime0 i, 31, 16⟩
def pipeVtime0Vactive (i : Nat) : Fld := ⟨A.pipeVtime0 i, 15, 0⟩
def pipeVtime1Vpol (i : Nat) : Fld := ⟨A.pipeVtime1 i, 31, 31⟩
def pipeVtime1Vbp (i : Nat) : Fld := ⟨A.pipeVtime1 i, 27, 16⟩
def pipeVtime1Vsync (i : Nat) : Fld := ⟨A.pipeVtime1 i, 11, 0⟩
def pipeCommitMargin (i : Nat) : Fld := ⟨A.pipeCommit i, 7, 0⟩
def pipeCamLockEn (i : Nat) : Fld := ⟨A.pipeCamLock i, 31, 31⟩
def pipeCamLockCam (i : Nat) : Fld := ⟨A.pipeCamLock i, 26, 24⟩
def pipeCamLockLines (i : Nat) : Fld := ⟨A.pipeCamLock i, 23, 16⟩
def pipeCamLockSteerMax (i : Nat) : Fld := ⟨A.pipeCamLock i, 12, 0⟩
def pipeTeEn (i : Nat) : Fld := ⟨A.pipeTe i, 31, 31⟩
def pipeTeSrc (i : Nat) : Fld := ⟨A.pipeTe i, 30, 30⟩
def pipeTeEdge (i : Nat) : Fld := ⟨A.pipeTe i, 29, 29⟩
def pipeTeTimeout (i : Nat) : Fld := ⟨A.pipeTe i, 23, 12⟩
def pipeTeOffset (i : Nat) : Fld := ⟨A.pipeTe i, 11, 0⟩
def pipeLpeEn (i j : Nat) : Fld := ⟨A.pipeLpe i j, 31, 31⟩
def pipeLpeUnit (i j : Nat) : Fld := ⟨A.pipeLpe i j, 21, 16⟩
def pipeLpeLine (i j : Nat) : Fld := ⟨A.pipeLpe i j, 13, 0⟩
def pipePosShow (i : Nat) : Fld := ⟨A.pipePos i, 31, 31⟩
def pipePosLine (i : Nat) : Fld := ⟨A.pipePos i, 29, 16⟩
def pipePosUnit (i : Nat) : Fld := ⟨A.pipePos i, 5, 0⟩
def pipeFrameCount (i : Nat) : Fld := ⟨A.pipeFrame i, 31, 0⟩
def pipeStatLock (i : Nat) : Fld := ⟨A.pipeStat i, 19, 16⟩
def pipeStatCauseClr (i : Nat) : Fld := ⟨A.pipeStat i, 12, 12⟩
def pipeStatCause (i : Nat) : Fld := ⟨A.pipeStat i, 11, 8⟩
def pipeStatState (i : Nat) : Fld := ⟨A.pipeStat i, 2, 0⟩
def laneGroupsRetired : Fld := ⟨A.laneGroups, 23, 16⟩
def laneGroupsRecovery : Fld := ⟨A.laneGroups, 15, 8⟩
def laneGroupsReady : Fld := ⟨A.laneGroups, 7, 0⟩
def laneLinkFailsClr : Fld := ⟨A.laneLinkFails, 31, 31⟩
def laneLinkFailsCount : Fld := ⟨A.laneLinkFails, 15, 0⟩
def laneCfgEn (i : Nat) : Fld := ⟨A.laneCfg i, 31, 31⟩
def laneCfgIf (i : Nat) : Fld := ⟨A.laneCfg i, 30, 28⟩
def laneCfgPhy (i : Nat) : Fld := ⟨A.laneCfg i, 27, 27⟩
def laneCfgTarget (i : Nat) : Fld := ⟨A.laneCfg i, 26, 24⟩
def laneCfgLanes (i : Nat) : Fld := ⟨A.laneCfg i, 23, 21⟩
def laneCfgDepth (i : Nat) : Fld := ⟨A.laneCfg i, 20, 19⟩
def laneCfgPair (i : Nat) : Fld := ⟨A.laneCfg i, 18, 18⟩
def laneCfgMode (i : Nat) : Fld := ⟨A.laneCfg i, 17, 16⟩
def laneCfgPnswap (i : Nat) : Fld := ⟨A.laneCfg i, 15, 8⟩
def laneCfgPack18 (i : Nat) : Fld := ⟨A.laneCfg i, 7, 7⟩
def laneRateRate (i : Nat) : Fld := ⟨A.laneRate i, 12, 0⟩
def lanePktCtlGo (i : Nat) : Fld := ⟨A.lanePktCtl i, 31, 31⟩
def lanePktCtlBusy (i : Nat) : Fld := ⟨A.lanePktCtl i, 30, 30⟩
def lanePktCtlErr (i : Nat) : Fld := ⟨A.lanePktCtl i, 29, 29⟩
def lanePktCtlRead (i : Nat) : Fld := ⟨A.lanePktCtl i, 28, 28⟩
def lanePktCtlHs (i : Nat) : Fld := ⟨A.lanePktCtl i, 27, 27⟩
def lanePktCtlDt (i : Nat) : Fld := ⟨A.lanePktCtl i, 23, 16⟩
def lanePktCtlVc (i : Nat) : Fld := ⟨A.lanePktCtl i, 15, 14⟩
def lanePktCtlLen (i : Nat) : Fld := ⟨A.lanePktCtl i, 7, 0⟩
def lanePktAddrAddr (i : Nat) : Fld := ⟨A.lanePktAddr i, 19, 0⟩
def lanePktDataData (i : Nat) : Fld := ⟨A.lanePktData i, 31, 0⟩
def laneStatCauseClr (i : Nat) : Fld := ⟨A.laneStat i, 12, 12⟩
def laneStatCause (i : Nat) : Fld := ⟨A.laneStat i, 11, 8⟩
def laneStatFails (i : Nat) : Fld := ⟨A.laneStat i, 5, 4⟩
def laneStatState (i : Nat) : Fld := ⟨A.laneStat i, 2, 0⟩
def laneCamCfgEn (i : Nat) : Fld := ⟨A.laneCamCfg i, 31, 31⟩
def laneCamCfgDt (i : Nat) : Fld := ⟨A.laneCamCfg i, 23, 16⟩
def laneCamCfgVc (i : Nat) : Fld := ⟨A.laneCamCfg i, 11, 10⟩
def laneCamCfgStore (i : Nat) : Fld := ⟨A.laneCamCfg i, 7, 4⟩
def laneCamSizeHeight (i : Nat) : Fld := ⟨A.laneCamSize i, 31, 16⟩
def laneCamSizeWidth (i : Nat) : Fld := ⟨A.laneCamSize i, 15, 0⟩
def laneCamBufLoAddr (i : Nat) : Fld := ⟨A.laneCamBufLo i, 31, 0⟩
def laneCamBufHiAddr (i : Nat) : Fld := ⟨A.laneCamBufHi i, 31, 0⟩
def laneCamStrideStride (i : Nat) : Fld := ⟨A.laneCamStride i, 19, 0⟩
def laneCamStatFrames (i : Nat) : Fld := ⟨A.laneCamStat i, 31, 16⟩
def laneCamStatSlot (i : Nat) : Fld := ⟨A.laneCamStat i, 1, 1⟩
def laneCamStatActive (i : Nat) : Fld := ⟨A.laneCamStat i, 0, 0⟩
def laneCamErrsClr (i : Nat) : Fld := ⟨A.laneCamErrs i, 31, 31⟩
def laneCamErrsCount (i : Nat) : Fld := ⟨A.laneCamErrs i, 23, 0⟩
def lightTtCfgLock : Fld := ⟨A.lightTtCfg, 31, 31⟩
def lightTtCfgBulbMs : Fld := ⟨A.lightTtCfg, 11, 0⟩
def lightTtBlinkAPeriod : Fld := ⟨A.lightTtBlink, 31, 24⟩
def lightTtBlinkAOn : Fld := ⟨A.lightTtBlink, 23, 16⟩
def lightTtBlinkBPeriod : Fld := ⟨A.lightTtBlink, 15, 8⟩
def lightTtBlinkBOn : Fld := ⟨A.lightTtBlink, 7, 0⟩
def lightTtStateLoCh0 : Fld := ⟨A.lightTtStateLo, 1, 0⟩
def lightTtStateLoCh1 : Fld := ⟨A.lightTtStateLo, 3, 2⟩
def lightTtStateLoCh2 : Fld := ⟨A.lightTtStateLo, 5, 4⟩
def lightTtStateLoCh3 : Fld := ⟨A.lightTtStateLo, 7, 6⟩
def lightTtStateLoCh4 : Fld := ⟨A.lightTtStateLo, 9, 8⟩
def lightTtStateLoCh5 : Fld := ⟨A.lightTtStateLo, 11, 10⟩
def lightTtStateLoCh6 : Fld := ⟨A.lightTtStateLo, 13, 12⟩
def lightTtStateLoCh7 : Fld := ⟨A.lightTtStateLo, 15, 14⟩
def lightTtStateLoCh8 : Fld := ⟨A.lightTtStateLo, 17, 16⟩
def lightTtStateLoCh9 : Fld := ⟨A.lightTtStateLo, 19, 18⟩
def lightTtStateLoCh10 : Fld := ⟨A.lightTtStateLo, 21, 20⟩
def lightTtStateLoCh11 : Fld := ⟨A.lightTtStateLo, 23, 22⟩
def lightTtStateLoCh12 : Fld := ⟨A.lightTtStateLo, 25, 24⟩
def lightTtStateLoCh13 : Fld := ⟨A.lightTtStateLo, 27, 26⟩
def lightTtStateLoCh14 : Fld := ⟨A.lightTtStateLo, 29, 28⟩
def lightTtStateLoCh15 : Fld := ⟨A.lightTtStateLo, 31, 30⟩
def lightTtStateHiCh0 : Fld := ⟨A.lightTtStateHi, 1, 0⟩
def lightTtStateHiCh1 : Fld := ⟨A.lightTtStateHi, 3, 2⟩
def lightTtStateHiCh2 : Fld := ⟨A.lightTtStateHi, 5, 4⟩
def lightTtStateHiCh3 : Fld := ⟨A.lightTtStateHi, 7, 6⟩
def lightTtStateHiCh4 : Fld := ⟨A.lightTtStateHi, 9, 8⟩
def lightTtStateHiCh5 : Fld := ⟨A.lightTtStateHi, 11, 10⟩
def lightTtStateHiCh6 : Fld := ⟨A.lightTtStateHi, 13, 12⟩
def lightTtStateHiCh7 : Fld := ⟨A.lightTtStateHi, 15, 14⟩
def lightTtNightNight : Fld := ⟨A.lightTtNight, 0, 0⟩
def lightForcePipe : Fld := ⟨A.lightForce, 23, 16⟩
def lightForceSw : Fld := ⟨A.lightForce, 15, 15⟩
def lightForceCause : Fld := ⟨A.lightForce, 4, 0⟩
def lightDimCfgEn : Fld := ⟨A.lightDimCfg, 31, 31⟩
def lightDimCfgW : Fld := ⟨A.lightDimCfg, 30, 26⟩
def lightDimCfgSlew : Fld := ⟨A.lightDimCfg, 25, 18⟩
def lightDimCfgPeriod : Fld := ⟨A.lightDimCfg, 17, 0⟩
def lightDimStartGainMax : Fld := ⟨A.lightDimStart, 31, 16⟩
def lightDimStartDutyStart : Fld := ⟨A.lightDimStart, 11, 0⟩
def lightFbCtxCount : Fld := ⟨A.lightFbCtx, 31, 16⟩
def lightFbCtxBase : Fld := ⟨A.lightFbCtx, 15, 0⟩
def lightDimCurveKnot (i : Nat) : Fld := ⟨A.lightDimCurve i, 11, 0⟩
def lightZoneAEn (i : Nat) : Fld := ⟨A.lightZoneA i, 31, 31⟩
def lightZoneAPipe (i : Nat) : Fld := ⟨A.lightZoneA i, 30, 28⟩
def lightZoneAFloor (i : Nat) : Fld := ⟨A.lightZoneA i, 11, 0⟩
def lightZoneXXLast (i : Nat) : Fld := ⟨A.lightZoneX i, 28, 16⟩
def lightZoneXXFirst (i : Nat) : Fld := ⟨A.lightZoneX i, 12, 0⟩
def lightZoneYYLast (i : Nat) : Fld := ⟨A.lightZoneY i, 28, 16⟩
def lightZoneYYFirst (i : Nat) : Fld := ⟨A.lightZoneY i, 12, 0⟩
def lightZoneStatPeak (i : Nat) : Fld := ⟨A.lightZoneStat i, 31, 24⟩
def lightZoneStatMean (i : Nat) : Fld := ⟨A.lightZoneStat i, 23, 16⟩
def lightZoneStatDuty (i : Nat) : Fld := ⟨A.lightZoneStat i, 11, 0⟩
def lightTtChFallback (i : Nat) : Fld := ⟨A.lightTtCh i, 31, 31⟩
def lightTtChBulb (i : Nat) : Fld := ⟨A.lightTtCh i, 30, 30⟩
def lightTtChForceBlink (i : Nat) : Fld := ⟨A.lightTtCh i, 29, 29⟩
def lightTtChSource (i : Nat) : Fld := ⟨A.lightTtCh i, 28, 27⟩
def lightTtChNightCode (i : Nat) : Fld := ⟨A.lightTtCh i, 15, 8⟩
def lightTtChDayCode (i : Nat) : Fld := ⟨A.lightTtCh i, 7, 0⟩
def lightTtStatLit (i : Nat) : Fld := ⟨A.lightTtStat i, 8, 8⟩
def lightTtStatFault (i : Nat) : Fld := ⟨A.lightTtStat i, 5, 4⟩
def lightTtStatState (i : Nat) : Fld := ⟨A.lightTtStat i, 2, 0⟩
def lightMapIdEn (i : Nat) : Fld := ⟨A.lightMapId i, 31, 31⟩
def lightMapIdBus (i : Nat) : Fld := ⟨A.lightMapId i, 30, 30⟩
def lightMapIdIde (i : Nat) : Fld := ⟨A.lightMapId i, 29, 29⟩
def lightMapIdId (i : Nat) : Fld := ⟨A.lightMapId i, 28, 0⟩
def lightMapFieldKind (i : Nat) : Fld := ⟨A.lightMapField i, 31, 31⟩
def lightMapFieldOrder (i : Nat) : Fld := ⟨A.lightMapField i, 30, 30⟩
def lightMapFieldSigned (i : Nat) : Fld := ⟨A.lightMapField i, 29, 29⟩
def lightMapFieldLenM1 (i : Nat) : Fld := ⟨A.lightMapField i, 28, 24⟩
def lightMapFieldStart (i : Nat) : Fld := ⟨A.lightMapField i, 23, 15⟩
def lightMapFieldTimeout (i : Nat) : Fld := ⟨A.lightMapField i, 14, 8⟩
def lightMapActCmp (i : Nat) : Fld := ⟨A.lightMapAct i, 31, 31⟩
def lightMapActStateTrue (i : Nat) : Fld := ⟨A.lightMapAct i, 30, 29⟩
def lightMapActStateTimeout (i : Nat) : Fld := ⟨A.lightMapAct i, 28, 27⟩
def lightMapActCtxMid (i : Nat) : Fld := ⟨A.lightMapAct i, 26, 21⟩
def lightMapActCh (i : Nat) : Fld := ⟨A.lightMapAct i, 20, 16⟩
def lightMapActNdig (i : Nat) : Fld := ⟨A.lightMapAct i, 15, 13⟩
def lightMapActShift (i : Nat) : Fld := ⟨A.lightMapAct i, 12, 8⟩
def lightMapValValue (i : Nat) : Fld := ⟨A.lightMapVal i, 31, 0⟩
def lightCanCtlEn (i : Nat) : Fld := ⟨A.lightCanCtl i, 31, 31⟩
def lightCanCtlFd (i : Nat) : Fld := ⟨A.lightCanCtl i, 30, 30⟩
def lightCanCtlListen (i : Nat) : Fld := ⟨A.lightCanCtl i, 29, 29⟩
def lightCanCtlTxPeriod (i : Nat) : Fld := ⟨A.lightCanCtl i, 15, 0⟩
def lightCanNbtBrp (i : Nat) : Fld := ⟨A.lightCanNbt i, 31, 23⟩
def lightCanNbtTseg1 (i : Nat) : Fld := ⟨A.lightCanNbt i, 22, 14⟩
def lightCanNbtTseg2 (i : Nat) : Fld := ⟨A.lightCanNbt i, 13, 7⟩
def lightCanNbtSjw (i : Nat) : Fld := ⟨A.lightCanNbt i, 6, 0⟩
def lightCanDbtTdcEn (i : Nat) : Fld := ⟨A.lightCanDbt i, 31, 31⟩
def lightCanDbtBrp (i : Nat) : Fld := ⟨A.lightCanDbt i, 30, 25⟩
def lightCanDbtTseg1 (i : Nat) : Fld := ⟨A.lightCanDbt i, 24, 19⟩
def lightCanDbtTseg2 (i : Nat) : Fld := ⟨A.lightCanDbt i, 18, 14⟩
def lightCanDbtSjw (i : Nat) : Fld := ⟨A.lightCanDbt i, 13, 9⟩
def lightCanDbtTdco (i : Nat) : Fld := ⟨A.lightCanDbt i, 8, 2⟩
def lightCanTxidTxEn (i : Nat) : Fld := ⟨A.lightCanTxid i, 31, 31⟩
def lightCanTxidIde (i : Nat) : Fld := ⟨A.lightCanTxid i, 30, 30⟩
def lightCanTxidId (i : Nat) : Fld := ⟨A.lightCanTxid i, 28, 0⟩
def lightCanStatTec (i : Nat) : Fld := ⟨A.lightCanStat i, 23, 16⟩
def lightCanStatRec (i : Nat) : Fld := ⟨A.lightCanStat i, 15, 8⟩
def lightCanStatState (i : Nat) : Fld := ⟨A.lightCanStat i, 1, 0⟩
def evtQueuesFull : Fld := ⟨A.evtQueues, 23, 16⟩
def evtQueuesAsleep : Fld := ⟨A.evtQueues, 15, 8⟩
def evtQueuesNonempty : Fld := ⟨A.evtQueues, 7, 0⟩
def evtStrayCplClr : Fld := ⟨A.evtStrayCpl, 31, 31⟩
def evtStrayCplCount : Fld := ⟨A.evtStrayCpl, 23, 0⟩
def evtSaturationsClr : Fld := ⟨A.evtSaturations, 31, 31⟩
def evtSaturationsCount : Fld := ⟨A.evtSaturations, 23, 0⟩
def evtSpiFirstSource : Fld := ⟨A.evtSpiFirst, 15, 0⟩
def evtLinkSleepBAsleep : Fld := ⟨A.evtLinkSleep, 17, 17⟩
def evtLinkSleepAAsleep : Fld := ⟨A.evtLinkSleep, 16, 16⟩
def evtLinkSleepBWake : Fld := ⟨A.evtLinkSleep, 9, 9⟩
def evtLinkSleepAWake : Fld := ⟨A.evtLinkSleep, 8, 8⟩
def evtLinkSleepBAccept : Fld := ⟨A.evtLinkSleep, 1, 1⟩
def evtLinkSleepAAccept : Fld := ⟨A.evtLinkSleep, 0, 0⟩
def evtSnsCfgLevelNow (i : Nat) : Fld := ⟨A.evtSnsCfg i, 31, 31⟩
def evtSnsCfgPullup (i : Nat) : Fld := ⟨A.evtSnsCfg i, 16, 16⟩
def evtSnsCfgMode (i : Nat) : Fld := ⟨A.evtSnsCfg i, 14, 12⟩
def evtSnsCfgFilter (i : Nat) : Fld := ⟨A.evtSnsCfg i, 9, 0⟩
def evtQbaseLoAddr (i : Nat) : Fld := ⟨A.evtQbaseLo i, 31, 0⟩
def evtQbaseHiAddr (i : Nat) : Fld := ⟨A.evtQbaseHi i, 31, 0⟩
def evtQnotifyLoAddr (i : Nat) : Fld := ⟨A.evtQnotifyLo i, 31, 0⟩
def evtQnotifyHiAddr (i : Nat) : Fld := ⟨A.evtQnotifyHi i, 31, 0⟩
def evtQcfgEn (i : Nat) : Fld := ⟨A.evtQcfg i, 31, 31⟩
def evtQcfgSize (i : Nat) : Fld := ⟨A.evtQcfg i, 20, 16⟩
def evtQcfgPrigroup (i : Nat) : Fld := ⟨A.evtQcfg i, 11, 8⟩
def evtQctlAgroup (i : Nat) : Fld := ⟨A.evtQctl i, 31, 24⟩
def evtQctlAgValid (i : Nat) : Fld := ⟨A.evtQctl i, 23, 23⟩
def evtQctlState (i : Nat) : Fld := ⟨A.evtQctl i, 9, 8⟩
def evtQctlQmask (i : Nat) : Fld := ⟨A.evtQctl i, 1, 1⟩
def evtQctlSleep (i : Nat) : Fld := ⟨A.evtQctl i, 0, 0⟩
def evtQpiIndex (i : Nat) : Fld := ⟨A.evtQpi i, 31, 0⟩
def evtHostCiIndex (i : Nat) : Fld := ⟨A.evtHostCi i, 31, 0⟩
def evtSrcCfgEn (i : Nat) : Fld := ⟨A.evtSrcCfg i, 31, 31⟩
def evtSrcCfgMask (i : Nat) : Fld := ⟨A.evtSrcCfg i, 30, 30⟩
def evtSrcCfgExplicit (i : Nat) : Fld := ⟨A.evtSrcCfg i, 29, 29⟩
def evtSrcCfgSpi (i : Nat) : Fld := ⟨A.evtSrcCfg i, 28, 28⟩
def evtSrcCfgLevel (i : Nat) : Fld := ⟨A.evtSrcCfg i, 27, 27⟩
def evtSrcCfgQueue (i : Nat) : Fld := ⟨A.evtSrcCfg i, 26, 24⟩
def evtSrcCfgPriority (i : Nat) : Fld := ⟨A.evtSrcCfg i, 23, 16⟩
def evtSrcCfgFilter (i : Nat) : Fld := ⟨A.evtSrcCfg i, 9, 0⟩
def evtSrcStatActive (i : Nat) : Fld := ⟨A.evtSrcStat i, 31, 31⟩
def evtSrcStatAsserted (i : Nat) : Fld := ⟨A.evtSrcStat i, 30, 30⟩
def evtSrcStatSpiFlag (i : Nat) : Fld := ⟨A.evtSrcStat i, 29, 29⟩
def evtSrcStatAqueue (i : Nat) : Fld := ⟨A.evtSrcStat i, 26, 24⟩
def evtSrcStatCount (i : Nat) : Fld := ⟨A.evtSrcStat i, 7, 0⟩
def dmaEngineRestart : Fld := ⟨A.dmaEngine, 1, 1⟩
def dmaEngineHalted : Fld := ⟨A.dmaEngine, 0, 0⟩
def dmaHaltsClr : Fld := ⟨A.dmaHalts, 31, 31⟩
def dmaHaltsCount : Fld := ⟨A.dmaHalts, 23, 0⟩
def dmaBadDescClr : Fld := ⟨A.dmaBadDesc, 31, 31⟩
def dmaBadDescCount : Fld := ⟨A.dmaBadDesc, 23, 0⟩
def dmaTrigMissedClr : Fld := ⟨A.dmaTrigMissed, 31, 31⟩
def dmaTrigMissedCount : Fld := ⟨A.dmaTrigMissed, 23, 0⟩
def dmaBufUsedBlocks : Fld := ⟨A.dmaBufUsed, 8, 0⟩
def dmaChCfgBufMax (i : Nat) : Fld := ⟨A.dmaChCfg i, 6, 0⟩
def dmaChStatLastStatus (i : Nat) : Fld := ⟨A.dmaChStat i, 15, 8⟩
def dmaChStatState (i : Nat) : Fld := ⟨A.dmaChStat i, 2, 0⟩
def dmaTchCfgKind (i : Nat) : Fld := ⟨A.dmaTchCfg i, 31, 30⟩
def dmaTchCfgFrom (i : Nat) : Fld := ⟨A.dmaTchCfg i, 23, 19⟩
def dmaTchCfgPipe (i : Nat) : Fld := ⟨A.dmaTchCfg i, 18, 16⟩
def dmaTchPosUnit (i : Nat) : Fld := ⟨A.dmaTchPos i, 21, 16⟩
def dmaTchPosLine (i : Nat) : Fld := ⟨A.dmaTchPos i, 13, 0⟩
def dmaTchPeriodPeriod (i : Nat) : Fld := ⟨A.dmaTchPeriod i, 19, 0⟩
def dmaTchBaseLoAddr (i : Nat) : Fld := ⟨A.dmaTchBaseLo i, 31, 0⟩
def dmaTchBaseHiAddr (i : Nat) : Fld := ⟨A.dmaTchBaseHi i, 31, 0⟩
def dmaTchStatStatus (i : Nat) : Fld := ⟨A.dmaTchStat i, 15, 8⟩
def dmaTchStatBusy (i : Nat) : Fld := ⟨A.dmaTchStat i, 0, 0⟩
def dmaTchRunsCount (i : Nat) : Fld := ⟨A.dmaTchRuns i, 31, 0⟩
def chkWinMismatchFlag (i : Nat) : Fld := ⟨A.chkWinMismatch i, 31, 0⟩
def chkMismatchesClr : Fld := ⟨A.chkMismatches, 31, 31⟩
def chkMismatchesCount : Fld := ⟨A.chkMismatches, 23, 0⟩
def chkScanCfgGo (i : Nat) : Fld := ⟨A.chkScanCfg i, 31, 31⟩
def chkScanCfgStop (i : Nat) : Fld := ⟨A.chkScanCfg i, 30, 30⟩
def chkScanCfgRepeat (i : Nat) : Fld := ⟨A.chkScanCfg i, 29, 29⟩
def chkScanCfgPoly (i : Nat) : Fld := ⟨A.chkScanCfg i, 1, 0⟩
def chkStartLoAddr (i : Nat) : Fld := ⟨A.chkStartLo i, 31, 0⟩
def chkStartHiAddr (i : Nat) : Fld := ⟨A.chkStartHi i, 31, 0⟩
def chkLenLen (i : Nat) : Fld := ⟨A.chkLen i, 31, 0⟩
def chkResultCrc (i : Nat) : Fld := ⟨A.chkResult i, 31, 0⟩
def chkScanStatPasses (i : Nat) : Fld := ⟨A.chkScanStat i, 31, 16⟩
def chkScanStatStatus (i : Nat) : Fld := ⟨A.chkScanStat i, 2, 0⟩
def chkErrLoAddr (i : Nat) : Fld := ⟨A.chkErrLo i, 31, 0⟩
def chkErrHiAddr (i : Nat) : Fld := ⟨A.chkErrHi i, 31, 0⟩
def chkWinCfgEn (i : Nat) : Fld := ⟨A.chkWinCfg i, 31, 31⟩
def chkWinCfgPipe (i : Nat) : Fld := ⟨A.chkWinCfg i, 30, 28⟩
def chkWinCfgKeyKind (i : Nat) : Fld := ⟨A.chkWinCfg i, 27, 26⟩
def chkWinCfgAction (i : Nat) : Fld := ⟨A.chkWinCfg i, 25, 25⟩
def chkWinCfgMissLimit (i : Nat) : Fld := ⟨A.chkWinCfg i, 24, 21⟩
def chkWinCfgTarget (i : Nat) : Fld := ⟨A.chkWinCfg i, 7, 0⟩
def chkWinXXLast (i : Nat) : Fld := ⟨A.chkWinX i, 28, 16⟩
def chkWinXXFirst (i : Nat) : Fld := ⟨A.chkWinX i, 12, 0⟩
def chkWinYYLast (i : Nat) : Fld := ⟨A.chkWinY i, 28, 16⟩
def chkWinYYFirst (i : Nat) : Fld := ⟨A.chkWinY i, 12, 0⟩
def chkWinKeyKeySrc (i : Nat) : Fld := ⟨A.chkWinKey i, 15, 0⟩
def chkWinResultCrc (i : Nat) : Fld := ⟨A.chkWinResult i, 31, 0⟩
def chkWinFrameFrame (i : Nat) : Fld := ⟨A.chkWinFrame i, 31, 0⟩
def chkWinStatMisses (i : Nat) : Fld := ⟨A.chkWinStat i, 11, 8⟩
def chkWinStatMatchIdx (i : Nat) : Fld := ⟨A.chkWinStat i, 6, 4⟩
def chkWinStatStatus (i : Nat) : Fld := ⟨A.chkWinStat i, 2, 0⟩
def chkExpKeyValid (i j : Nat) : Fld := ⟨A.chkExpKey i j, 31, 31⟩
def chkExpKeyKey (i j : Nat) : Fld := ⟨A.chkExpKey i j, 26, 0⟩
def chkExpValValue (i j : Nat) : Fld := ⟨A.chkExpVal i j, 31, 0⟩
def faultStateCoreFail : Fld := ⟨A.faultState, 31, 31⟩
def faultStateLeadShort : Fld := ⟨A.faultState, 20, 17⟩
def faultStateMcBusy : Fld := ⟨A.faultState, 16, 16⟩
def faultStateMcUnit : Fld := ⟨A.faultState, 15, 8⟩
def faultStateQueued : Fld := ⟨A.faultState, 6, 0⟩
def faultMcFails : Fld := ⟨A.faultMc, 23, 16⟩
def faultMcReady : Fld := ⟨A.faultMc, 11, 8⟩
def faultMcRecovery : Fld := ⟨A.faultMc, 7, 4⟩
def faultMcRetired : Fld := ⟨A.faultMc, 3, 0⟩
def faultLanesRetired : Fld := ⟨A.faultLanes, 16, 0⟩
def faultLgReady : Fld := ⟨A.faultLg, 7, 0⟩
def faultDmaRetiredCh : Fld := ⟨A.faultDmaRetired, 31, 0⟩
def faultDmaReadyCh : Fld := ⟨A.faultDmaReady, 31, 0⟩
def faultLinksReady : Fld := ⟨A.faultLinks, 3, 2⟩
def faultLinksRecovery : Fld := ⟨A.faultLinks, 1, 0⟩
def faultRetestGo : Fld := ⟨A.faultRetest, 31, 31⟩
def faultRetestUnit : Fld := ⟨A.faultRetest, 7, 0⟩
def faultRetestStatBusy : Fld := ⟨A.faultRetestStat, 31, 31⟩
def faultRetestStatResult : Fld := ⟨A.faultRetestStat, 10, 8⟩
def faultRetestStatUnit : Fld := ⟨A.faultRetestStat, 7, 0⟩
def faultLastKind : Fld := ⟨A.faultLast, 31, 30⟩
def faultLastFails : Fld := ⟨A.faultLast, 19, 16⟩
def faultLastCause : Fld := ⟨A.faultLast, 15, 8⟩
def faultLastUnit : Fld := ⟨A.faultLast, 7, 0⟩
def faultRrecLoAddr : Fld := ⟨A.faultRrecLo, 31, 0⟩
def faultRrecHiAddr : Fld := ⟨A.faultRrecHi, 31, 0⟩
def faultRrecCfgSize : Fld := ⟨A.faultRrecCfg, 12, 8⟩
def faultRrecCfgEn : Fld := ⟨A.faultRrecCfg, 0, 0⟩
def faultRrecWrIndex : Fld := ⟨A.faultRrecWr, 31, 0⟩
def faultRrecHostCiIndex : Fld := ⟨A.faultRrecHostCi, 31, 0⟩
def faultRrecHeldCount : Fld := ⟨A.faultRrecHeld, 6, 0⟩
def faultFailuresClr : Fld := ⟨A.faultFailures, 31, 31⟩
def faultFailuresCount : Fld := ⟨A.faultFailures, 23, 0⟩
def faultRetirementsClr : Fld := ⟨A.faultRetirements, 31, 31⟩
def faultRetirementsCount : Fld := ⟨A.faultRetirements, 23, 0⟩
def faultMcSoftClr : Fld := ⟨A.faultMcSoft, 31, 31⟩
def faultMcSoftCount : Fld := ⟨A.faultMcSoft, 23, 0⟩
def faultShedsClr : Fld := ⟨A.faultSheds, 31, 31⟩
def faultShedsCount : Fld := ⟨A.faultSheds, 23, 0⟩
def faultMcCeClr (i : Nat) : Fld := ⟨A.faultMcCe i, 31, 31⟩
def faultMcCeCount (i : Nat) : Fld := ⟨A.faultMcCe i, 23, 0⟩
def barnIndexBusy : Fld := ⟨A.barnIndex, 31, 31⟩
def barnIndexErr : Fld := ⟨A.barnIndex, 29, 29⟩
def barnIndexAutoInc : Fld := ⟨A.barnIndex, 28, 28⟩
def barnIndexTable : Fld := ⟨A.barnIndex, 27, 24⟩
def barnIndexWord : Fld := ⟨A.barnIndex, 23, 0⟩
def barnDataData : Fld := ⟨A.barnData, 31, 0⟩
def barnRawCtlGo : Fld := ⟨A.barnRawCtl, 31, 31⟩
def barnRawCtlBusy : Fld := ⟨A.barnRawCtl, 30, 30⟩
def barnRawCtlErr : Fld := ⟨A.barnRawCtl, 29, 29⟩
def barnRawCtlOp : Fld := ⟨A.barnRawCtl, 1, 0⟩
def barnBankNone : Fld := ⟨A.barnBank, 7, 7⟩
def barnBankOther : Fld := ⟨A.barnBank, 6, 4⟩
def barnBankOtherValid : Fld := ⟨A.barnBank, 1, 1⟩
def barnBankSel : Fld := ⟨A.barnBank, 0, 0⟩
def barnJwCtlGo : Fld := ⟨A.barnJwCtl, 31, 31⟩
def barnJwCtlBusy : Fld := ⟨A.barnJwCtl, 30, 30⟩
def barnJwCtlStatus : Fld := ⟨A.barnJwCtl, 27, 24⟩
def barnJwCtlLen : Fld := ⟨A.barnJwCtl, 23, 16⟩
def barnJwCtlKey : Fld := ⟨A.barnJwCtl, 15, 0⟩
def barnJwSeqSeq : Fld := ⟨A.barnJwSeq, 31, 0⟩
def barnJrCtlGo : Fld := ⟨A.barnJrCtl, 31, 31⟩
def barnJrCtlBusy : Fld := ⟨A.barnJrCtl, 30, 30⟩
def barnJrCtlStatus : Fld := ⟨A.barnJrCtl, 27, 24⟩
def barnJrCtlLen : Fld := ⟨A.barnJrCtl, 23, 16⟩
def barnJrCtlKey : Fld := ⟨A.barnJrCtl, 15, 0⟩
def barnJrSeqSeq : Fld := ⟨A.barnJrSeq, 31, 0⟩
def barnJournalWorn : Fld := ⟨A.barnJournal, 17, 17⟩
def barnJournalGleaning : Fld := ⟨A.barnJournal, 16, 16⟩
def barnJournalRetired : Fld := ⟨A.barnJournal, 15, 8⟩
def barnJournalErased : Fld := ⟨A.barnJournal, 7, 0⟩
def barnLiveBytes : Fld := ⟨A.barnLive, 19, 0⟩
def barnErasesMaxCount : Fld := ⟨A.barnErasesMax, 31, 0⟩
def barnFlogSeqLseq : Fld := ⟨A.barnFlogSeq, 31, 0⟩
def barnCompactionsClr : Fld := ⟨A.barnCompactions, 31, 31⟩
def barnCompactionsCount : Fld := ⟨A.barnCompactions, 23, 0⟩
def perfSnapIndexBusy : Fld := ⟨A.perfSnapIndex, 31, 31⟩
def perfSnapIndexErr : Fld := ⟨A.perfSnapIndex, 29, 29⟩
def perfSnapIndexAutoInc : Fld := ⟨A.perfSnapIndex, 28, 28⟩
def perfSnapIndexTable : Fld := ⟨A.perfSnapIndex, 27, 24⟩
def perfSnapIndexWord : Fld := ⟨A.perfSnapIndex, 23, 0⟩
def perfSnapDataData : Fld := ⟨A.perfSnapData, 31, 0⟩
def perfCtlRun : Fld := ⟨A.perfCtl, 31, 31⟩
def perfCtlStop : Fld := ⟨A.perfCtl, 1, 1⟩
def perfCtlStart : Fld := ⟨A.perfCtl, 0, 0⟩
def perfWinCfgMode : Fld := ⟨A.perfWinCfg, 31, 31⟩
def perfWinCfgHold : Fld := ⟨A.perfWinCfg, 30, 30⟩
def perfWinCfgRefPipe : Fld := ⟨A.perfWinCfg, 26, 24⟩
def perfWinCfgN : Fld := ⟨A.perfWinCfg, 23, 0⟩
def perfSnapStatReady : Fld := ⟨A.perfSnapStat, 31, 31⟩
def perfSnapStatPartial : Fld := ⟨A.perfSnapStat, 30, 30⟩
def perfSnapStatErr : Fld := ⟨A.perfSnapStat, 29, 29⟩
def perfSnapStatSeq : Fld := ⟨A.perfSnapStat, 15, 0⟩
def perfWinNsLoNs : Fld := ⟨A.perfWinNsLo, 31, 0⟩
def perfWinNsHiNs : Fld := ⟨A.perfWinNsHi, 31, 0⟩
def perfSnapTimeLoTime : Fld := ⟨A.perfSnapTimeLo, 31, 0⟩
def perfSnapTimeHiTime : Fld := ⟨A.perfSnapTimeHi, 31, 0⟩
def perfSnapFrameFrame : Fld := ⟨A.perfSnapFrame, 31, 0⟩
def perfMergedClr : Fld := ⟨A.perfMerged, 31, 31⟩
def perfMergedCount : Fld := ⟨A.perfMerged, 23, 0⟩

end F

end Sys2Proof.Machine
end

