-- ==== Sys2Proof/Machine/State.lean ====
section
/-! DEFINITION. The state of the module as plain data, the reasons a step can stop, and the state right after reset.
Every register of the address map lives in `RegFile` under its byte address (its reset word is in Machine/RegMap.lean);
the other structures hold the state that the manual gives the module beside its registers. -/

namespace Sys2Proof.Machine

/-- A sparse table: keys strictly rising, no entry equal to the table's default value. -/
abbrev SMap (α : Type) := List (Nat × α)

/-- Power of the module: `off` before power-good, `up` with the rails up, `down` once R51 has begun. -/
inductive Power where
  | off | up | down
deriving DecidableEq, Repr

/-- One part of a pending strobe set (R68 to R70): a block, the pipe or camera port it waits for, the shadow words and
gate-list words it carries, and whether its commit deadline has passed. -/
structure PendPart where
  block : Nat
  pipe  : Option (Fin 8)
  cam   : Option (Fin 6)
  words : SMap Word
  gcl   : SMap Word
  fixed : Bool
deriving DecidableEq, Repr

/-- One path's bank of an INDEX/DATA pair (R76, R77): the INDEX word, the latched entry (first word and its words),
the buffered words of an entry (first word and the words written so far, by offset). -/
structure IndexBank where
  index : Word
  latch : Option (Nat × Nat × List Word)
  buf   : Option (Nat × Nat × SMap Word)
deriving DecidableEq, Repr

/-- The register space. `gcl` of `State` is the active gate list table, `gclShadow` the copy that the INDEX pair writes (R75). -/
structure RegFile where
  live    : SMap Word
  shadow  : SMap Word
  pend    : List PendPart
  banks   : SMap IndexBank
  view    : BitVec 4
  loHeld  : SMap Word
  keys    : SMap Word
  gclShadow : SMap Word
deriving DecidableEq, Repr

/-- Power, PoDL front end, VBUS_OUT, VLED (R45) and the start sequence (spec 02); the panel lists and power delays of the lane
groups, as the boot image gave them (R291). -/
structure PowerState where
  power      : Power
  started    : Bool
  classified : Bool
  podlClass  : BitVec 6
  podlWatts  : Nat
  noclass    : Bool
  vbusClosed : Bool
  vbusLatched : Bool
  vbusRetries : Nat
  wakeOut    : Bool
  vled       : Bool
  bootFallback : Bool
  panels : List (List (Word × List Byte × Nat))
  powerDelay : List Nat
  mcTrained  : BitVec 4
  selfRefresh : BitVec 4
  bulb       : Bool
deriving DecidableEq, Repr

/-- Clocks that the module counts: REFCLK time since power-good, and the disciplined time base (R263, R264). -/
structure TimeState where
  uptime   : Nat
  base     : BitVec 64
  ratePpb  : Int
  slew     : Int
  fracNs   : Nat
  lastSync : Option Nat
  pdelaySeq : BitVec 16
  pdelayOut : Option (BitVec 16)
  linkDelay : Nat
deriving DecidableEq, Repr

/-- A session (R90): its identifier, nonces, the link of its OPEN and the control-page values read at OPEN (R84, R113). -/
structure Sess where
  id        : BitVec 16
  devNonce  : BitVec 64
  hostNonce : BitVec 64
  link      : Link
  hwCtl     : Word
  port      : BitVec 16
  keepalive : BitVec 16
  mac       : BitVec 48
  hostMac   : BitVec 48
  ip4Local  : Word
  ip4Host   : Word
  ip6Local  : BitVec 128
  ip6Host   : BitVec 128
  hopLimit  : Nat
deriving DecidableEq, Repr

/-- A sequenced frame of the module (R88): type, body, its SEQ once taken into send order, how often it was retransmitted on the
sending link (R95), and the READ_REQ it carries. -/
structure TxFrame where
  kind   : BitVec 8
  seq    : BitVec 32
  body   : List Byte
  retx   : Bool
  sends  : Nat
  readId : Option (BitVec 16)
deriving DecidableEq, Repr

/-- What an outstanding READ_REQ is for (R112). -/
inductive ReadFor where
  | slots (ring : Fin 32) (first : BitVec 32) (count : Nat)
  | chain (ring : Fin 32) (slot : BitVec 32) (addr : Nat)
  | poll (ring : Fin 32)
  | content (ring : Fin 32) (key : Nat) (offset : Nat)
  | fence (scene : Nat) (addr : Nat)
  | dma (chan : Fin 32) (key : Nat) (offset : Nat)
deriving DecidableEq, Repr

/-- An outstanding READ_REQ. -/
structure ReadReq where
  id   : BitVec 16
  addr : Nat
  len  : Nat
  for_ : ReadFor
  sent : Bool
deriving DecidableEq, Repr

/-- The 802.1Q tag of a frame: VID and PCP (R84). -/
structure Tag where
  vid : BitVec 12
  pcp : BitVec 3
deriving DecidableEq, Repr

/-- The encapsulation of a frame that the module sends (R84, R113): addresses in register order, the port that is source and
destination alike, DSCP and the UDP checksum; or EtherType 0x88B5. -/
inductive NetWrap where
  | udp4 (src dst : BitVec 32) (port : BitVec 16) (dscp : BitVec 6) (checksum : BitVec 16)
  | udp6 (src dst : BitVec 128) (port : BitVec 16) (dscp : BitVec 6) (checksum : BitVec 16)
  | etherType (code : BitVec 16)
deriving DecidableEq, Repr

/-- What stands around the Haywain bytes of a sent frame: MAC addresses, the tag, the encapsulation. -/
structure Wrap where
  srcMac : BitVec 48
  dstMac : BitVec 48
  tag    : Option Tag
  net    : NetWrap
deriving DecidableEq, Repr

/-- What leaves the module: frames on a link, pin levels, CAN status frames, panel packets, lines of pixels, gPTP messages (the
model's own log). -/
inductive Out where
  | frame (l : Link) (wrap : Wrap) (kind : BitVec 8) (bytes : List Byte)
  | openAck (l : Link) (wrap : Wrap) (bytes : List Byte)
  | phyMode (l : Link) (master : Bool) (negotiate : Bool) (at1000 : Bool)
  | arpReply (l : Link) (tag : Option Tag) (mac : BitVec 48) (ip : BitVec 32) (toMac : BitVec 48) (toIp : BitVec 32)
  | neighbourAdvert (l : Link) (tag : Option Tag) (mac : BitVec 48) (ip : BitVec 128) (toMac : BitVec 48) (toIp : BitVec 128)
  | tc10Wakeup (l : Link)
  | tc10SleepAccept (l : Link)
  | tc10SleepReject (l : Link)
  | wakePin (high : Bool)
  | read (path : Path) (addr : Word) (w : Word)
  | spiData (bytes : List Byte)
  | canStatus (bus : Fin 2) (id : BitVec 29) (ide fd : Bool) (data : List Byte)
  | panelPacket (group : Fin 8) (ctl : Word) (addr : Word) (data : List Byte)
  | pixels (pipe : Fin 8) (line : Nat) (codes : List Word)
  | pdelayReq (seqId : BitVec 16)
  | pdelayResp (domain : BitVec 7) (seqId : BitVec 16) (rx : BitVec 64)
deriving DecidableEq, Repr

/-- Transport state (spec 04). -/
structure HwState where
  cur       : Option Sess
  opening   : Option Sess
  nextId    : BitVec 16
  txNext    : BitVec 32
  rxLast    : BitVec 32
  unacked   : List TxFrame
  waiting   : List TxFrame
  ackOwed   : Bool
  reads     : List ReadReq
  nextRead  : BitVec 16
  tagFailAt : Option Nat
  wakeDue   : BitVec 8
  waking    : BitVec 2
  serial    : Nat
deriving DecidableEq, Repr

/-- A completion record before its PHASE is known (R107); `key` numbers the descriptor it belongs to, `ready` says that
the descriptor has finished, `dep` names the unit whose retirement record it waits for (R376). -/
structure Cpl where
  key    : Nat
  ready  : Bool
  index  : BitVec 32
  tag    : BitVec 16
  status : BitVec 8
  chain  : Bool
  detail : BitVec 64
  dep    : Option (BitVec 8)
deriving DecidableEq, Repr

/-- A descriptor in hand whose host content is being read (R108, R124): type, slot, whether it came from a chain, its
number, the pieces that have arrived by offset and the pieces still to come. -/
structure Content where
  kind  : BitVec 8
  h     : DescHdr
  body  : DescBody
  index : BitVec 32
  chain : Bool
  key   : Nat
  got   : SMap (List Byte)
  left  : Nat
deriving DecidableEq, Repr

/-- A descriptor as a ring holds it: type, header, body, slot, whether a chain brought it. -/
structure Desc where
  kind  : BitVec 8
  h     : DescHdr
  body  : DescBody
  index : BitVec 32
  chain : Bool
deriving DecidableEq, Repr

/-- What a submission ring does beside its registers (R101 to R110): its configuration as the last RESET took it (R114),
the descriptors counted in the batch and where later batches begin (R102), the chain (next address, slot that started it),
whether a descriptor read is outstanding, the slots that it brought and that are not yet acted on, the descriptor whose
content is being read, a COMMIT that waits (R111, R119), whether the ring is to stop, a stop whose cause and STOP_INDEX are settled
and that waits for earlier work of the ring (R92, R121), the completions not yet written. -/
structure Ring where
  cfg     : Word
  sq      : Nat
  cq      : Nat
  poll    : Nat
  pollIv  : Nat
  batch   : Nat
  marks   : List (BitVec 32)
  chain   : Option (Nat × BitVec 32)
  reading : Option (BitVec 16)
  buf     : List Desc
  inHand  : Option Content
  waitCommit : Option Desc
  stopping : Bool
  halt    : Option (Nat × BitVec 32)
  held    : List Cpl
deriving DecidableEq, Repr

/-- An acquire fence (R122, R138); `reading` says that a read of its device-memory word waits for the port. -/
structure Fence where
  slot     : BitVec 8
  host     : Bool
  addr     : Nat
  value    : Word
  signalled : Bool
  reading  : Bool
deriving DecidableEq, Repr

/-- A staged loft load (R188), with the slot index of its descriptor, its place among the loads of its scene, the number of that
scene's COMMIT, whether a bale of its source was lost (R370), whether it was reported late (R192), and the bytes that a later load
of the scene has written: first byte and length; `got` counts the bytes that bursts have taken, and those of them that a cut gave
back and that are charged already (R235). -/
structure LoftLoad where
  dest  : Nat
  len   : Nat
  src   : Nat
  pipe  : Fin 8
  tag   : BitVec 16
  index : BitVec 32
  order : Nat
  scene : Nat
  abandoned : Bool
  late  : Bool
  skip  : List (Nat × Nat)
  got   : Nat × Nat
deriving DecidableEq, Repr

/-- Staged words (R117, R122): layer words by slot code × 32 + word, context words by 8c + w, LUT entries by
target × 1,024 + entry, matrix coefficients by slot × 12 + i; the planar slots marked INDEP; the TAG of the descriptor
that last wrote a slot's buffer address. -/
structure Writes where
  layer : SMap Word
  ctx   : SMap Word
  lut   : SMap Word
  mat   : SMap (BitVec 16)
  indep : List Nat
  tags  : SMap (BitVec 16)
deriving DecidableEq, Repr

/-- A staging set (R117, R120, R123), open or closed by its COMMIT. -/
structure Scene where
  ring   : Fin 32
  writes : Writes
  fences : List Fence
  loads  : List LoftLoad
  poison : Option (BitVec 32)
  index  : BitVec 32
  tag    : BitVec 16
  nocpl  : Bool
  chain  : Bool
  key    : Nat
  readmitMc : BitVec 4
  readmitLg : BitVec 8
deriving DecidableEq, Repr

/-- What the winnow concluded (R126 to R128); `lift` are the held ports on which the second proof of R426 holds. -/
structure Verdict where
  reason : BitVec 8
  pipe   : BitVec 4
  port   : BitVec 4
  item   : BitVec 15
  next   : Bool
  value  : Word
  lift   : BitVec 4
deriving DecidableEq, Repr

/-- An item before the winnow (R124): a COMMIT's scene, or a strobe with the blocks that it named, those of them whose sets no later
strobe has replaced (R70), and their shadow state. -/
inductive WItem where
  | scene (s : Scene)
  | strobe (named blocks : BitVec 16) (words : SMap Word) (gcl : SMap Word)
deriving DecidableEq, Repr

/-- Which part of a scene an armed part is (R135, R140): a stook's part, or the sub-commit of an INDEPENDENT slot. -/
inductive PartKind where
  | stook (id : Fin 8)
  | indep (slot : Nat)
deriving DecidableEq, Repr

/-- An armed part (R135 to R141) with the pipes at which it has not applied yet. Fence reads name it by `serial`. `shed` is
its degraded form by pipe, slot code and furrow; `noCap` lists the pipes that fall back where it applies (R422). `key` numbers the
COMMIT, so that parts of one scene are known (R138); `preTrip` says that it was armed when a thermal trip came (R60); `written`
that the COMMIT's completion is written, with which the part is armed (R135); `due` that a deadline decides it once its fence words
are read (R138). -/
structure Armed where
  serial : Nat
  ring   : Fin 32
  key    : Nat
  preTrip : Bool
  written : Bool
  due    : Bool
  kind   : PartKind
  pipes  : List (Fin 8)
  writes : Writes
  loads  : List LoftLoad
  fences : List Fence
  tag    : BitVec 16
  slips  : Nat
  committed : Bool
  shed   : List (Nat × Nat × Nat)
  noCap  : List Nat
deriving DecidableEq, Repr

/-- A release record that waits (R143, R191): for the last bale of its buffer, or of a loft load for the flip-done record. `port` is
the channel that the buffer is read from; `past` says that the last frame that read it is over. -/
structure Release where
  pipe  : Fin 8
  slot  : Nat
  addr  : Nat
  tag   : BitVec 16
  twin  : Bool
  frame : BitVec 32
  port  : Option Nat
  past  : Bool
deriving DecidableEq, Repr

/-- A flip-done record to be written at line 1 (R142); `due` says that line 1 has come. -/
structure FlipDue where
  pipe  : Fin 8
  frame : BitVec 32
  tag   : BitVec 16
  slipped : Bool
  degraded : Bool
  stamp : BitVec 48
  sub   : BitVec 8
  due   : Bool
deriving DecidableEq, Repr

/-- Object state that one pipe sees otherwise than the shared copy holds it (R136): words of object layers, words of contexts, glyph
values, by the keys of the shared copy. -/
structure ObjView where
  obj   : SMap Word
  ctx   : SMap Word
  glyph : SMap Nat
deriving DecidableEq, Repr

/-- Scene state (specs 05 to 08). `planar` also holds, under codes of their own, the slots that a pipe still shows although another
pipe has taken them (R136, R164; `leaverCode`), `leaverTwins` those of them that read wholly from their twin, and `givenUp` the
slots whose units the old pipe has given up and the new one not yet taken. `twinBales` lists the bales that were read from a twin:
slot code and bale of the primary; `twinAsks` those that still wait for their port (R234); `twinRuns` the recoveries that reads of a
slot fell into: slot code and free value (R167); `lostBales` the bales that count as not arrived, as `twinBales` has them (R172,
R370); all with whether they were read for the next frame. `binHeld` and `drawHeld` hold by pipe what it still sees in the binning
and the drawing copy although the part of another stook has changed the shared copy (R136). `before` holds each ring's staging set
as it was when the slot in hand began (R92); `proofDep` is the unit whose retirement restarted the proof in hand (R376); `readmit`
holds the units of admitted COMMITs that wait for the first deadline of one of the stooks listed, or of any running pipe where none
is listed (R134); `admitted` holds the scenes whose completion is not yet written (R135), with the S4 and S5 holds that end with
their arming (R426). `bootCtx` and `bootLoft` are the contexts and the loft as the boot scene's part left them, for its FLp (R419).
-/
structure SceneState where
  planar  : SMap Word
  objBin  : SMap Word
  objDraw : SMap Word
  ctxBin  : SMap Word
  ctxDraw : SMap Word
  degamma : SMap Word
  regamma : SMap Word
  matrix  : SMap (BitVec 16)
  bufTag  : SMap (BitVec 16)
  glyphBin : SMap Nat
  glyphDraw : SMap Nat
  binHeld  : SMap ObjView
  drawHeld : SMap ObjView
  staging : List Scene
  before  : List Scene
  queue   : List WItem
  inHand  : Option (WItem × Verdict)
  proofDep : Option (BitVec 8)
  armed   : List Armed
  serial  : Nat
  running : List (LoftLoad × BitVec 32)
  unfinished : List LoftLoad
  releases : List Release
  flips   : List FlipDue
  readmit : List (List Nat × BitVec 4 × BitVec 8)
  admitted : List (Scene × BitVec 4)
  givenUp : List Nat
  leaverTwins : List Nat
  twinBales : List (Nat × Nat × Bool)
  twinAsks : List (Nat × Nat × Bool)
  twinRuns : List (Nat × Nat × Bool)
  lostBales : List (Nat × Nat × Bool)
  bootCtx  : SMap Word
  bootLoft : List Host.Cell
deriving DecidableEq, Repr

/-- The generator of a pipe (R258, R259, R261). -/
inductive Gen where
  | stopped | leadIn | running
deriving DecidableEq, Repr

/-- Why a frame in hand shows no pixels, if it does not (R258, R261, R291). -/
inductive Black where
  | none | relock | resync | waitLink | noLanes
deriving DecidableEq, Repr

/-- A bin entry: one span (R197). -/
structure Span where
  ctx   : Nat
  x     : Nat
  w     : Nat
  y     : Nat
  h     : Nat
deriving DecidableEq, Repr

/-- The raster of a pipe and what it draws (spec 10, 06, 08). `shedNow`/`shedNext` hold (slot code, furrow) pairs of the degraded
form in force and of the one that waits for the next frame start. `hist` says how many units frames had: from frame number (first)
on, which began at unit count (second), each frame had (third) units; newest first. `offFrame` lists what is out for the rest of the
frame: slot codes, and 0x1000 + context; `relockDue` says that another pipe of the stook brought new PLL settings; `furrowOut` the
layers that are out in the furrow in hand; `fresh` says that the bus has still to enter the first unit of the frame, `again` that
the last line is being repeated and `repeats` how often it has been (R272), `teDue` the line boundaries before the one at which the
frame starts (R272), `lostAt` the camera frame at which camera lock was lost (R270), `aligned` that the pipe begins its frames with
its stook (R258); `rideOut` lists the layers shed for the frame under R372; `unitAt` is the uptime at which the unit in hand began;
`flOut` is the last outcome of the fallback proof and `flGone` the one that the pipe shows (R318), `flProved` the spans and blends
of FLp in each furrow as the proof took them, with the active area that it took (R420); `bg` is the background in force, `ground`
that of its fallback scene (R317), and `bootArt` says that its FLp draws from the contexts and the loft of the boot scene (R419). -/
structure PipeRt where
  gen     : Gen
  black   : Black
  line    : Nat
  unit    : Nat
  relockDue : Bool
  locked  : Bool
  lockedByDeadline : Bool
  aligned : Bool
  stookChange : Bool
  fallback : Bool
  boot     : Bool
  flUntilNext : Bool
  wantFallback : Bool
  noCapacity : Bool
  offFrame : List Nat
  fetched  : List Nat
  heldOff  : List Nat
  heldObj  : List Nat
  leftOut  : List Nat
  shedNow  : List (Nat × Nat)
  shedNext : List (Nat × Nat)
  camGood  : Nat
  showFirst : Bool
  steps    : Nat
  hist     : List (Nat × Nat × Nat)
  hostShown : Bool
  teDue    : Option Nat
  repeats  : Nat
  lostAt   : Nat
  extra    : Nat
  flOut    : Bool
  flGone   : Bool
  flProved : Option ((Nat × Nat) × List (Nat × Nat))
  bg       : BitVec 24
  ground   : BitVec 24
  bootArt  : Bool
  furrowOut : List Nat
  fresh   : Bool
  again   : Bool
  rideOut : List Nat
  unitAt  : Nat
deriving DecidableEq, Repr

/-- A gate list in force, waiting or pending (R242 to R247): entries (duration, gates), reference pipe, base, and its phase. -/
structure GateList where
  entries : List (Nat × BitVec 6)
  ref     : Fin 8
  baseFrame : BitVec 32
  baseLine  : Nat
  baseSteps : Option Int
deriving DecidableEq, Repr

/-- One port's gates (R245 to R247) and its service (R234, R235): `last` the burst of S2 to S5 that started last (subscriber, bytes,
the address behind it, the instant), `turns` the subscriber that each class served last. -/
structure Gate where
  run     : Option GateList
  waiting : Option GateList
  entry   : Nat
  left    : Nat
  openRef : Bool
  resumed : Bool
  last    : Option (Nat × Nat × Nat × Nat)
  turns   : SMap Nat
deriving DecidableEq, Repr

/-- An event source (R325 to R331). -/
structure Source where
  stamp   : BitVec 64
  detail  : Word
  saturated : Bool
  resampled : Bool
  moved   : Bool
  lastAt  : Option Nat
deriving DecidableEq, Repr

/-- An output check window (R360 to R363): open in this frame, its CRC so far, the configuration held for the frame. -/
structure Window where
  opened : Bool
  crc    : Word
  cfg    : Word
  xs     : Word
  ys     : Word
  expect : List (Word × Word)
  key    : Option (BitVec 27)
  inRange : Bool
deriving DecidableEq, Repr

/-- A DMA descriptor in hand or queued (R348, R349), with the place in its chain, the batch count and the batch boundaries
that its ring falls back to if it is discarded before it starts (R353). -/
structure DmaDesc where
  d       : Desc
  key     : Nat
  chainAt : Nat
  batchAt : Nat
  marksAt : List (BitVec 32)
deriving DecidableEq, Repr

/-- A DMA channel (R347, R348, R355, R356): descriptors handed to it, the one in hand, the pieces of host content that have arrived
(by offset) and how much has been asked for, whether a host read failed, the bytes that bursts of its read engine and of its write
engine have taken, each with those that a cut gave back (R235), the unit whose retirement record its completion waits for (R376); of
a triggered channel the next list address of the run in hand, whether the entry there has been read, its descriptors so far, its
status, whether the entry in hand is the last, and whether a halt ends the run (R354). -/
structure DmaChan where
  queue   : List DmaDesc
  inHand  : Option DmaDesc
  got     : SMap (List Byte)
  asked   : Nat
  failed  : Bool
  rd      : Nat × Nat
  wr      : Nat × Nat
  dep     : Option (BitVec 8)
  runAt   : Option Nat
  runCount : Nat
  runStatus : BitVec 8
  runLast : Bool
  runRead : Bool
  runHalted : Bool
deriving DecidableEq, Repr

/-- A scan pass in hand (R359): region, polynomial, whether memory in it was written during the pass, and the bytes that bursts have
taken, with those that a cut gave back (R235). -/
structure Scan where
  start : Nat
  len   : Nat
  poly  : Nat
  dirty : Bool
  got   : Nat × Nat
deriving DecidableEq, Repr

/-- A source line, a chroma line or a palette that a fetch unit is to read (R161, R162): the line of the source rectangle that it
goes with, the furrow that needs it, and the address and the number of the bytes that no burst has taken yet. -/
structure FetchLine where
  row    : Nat
  furrow : Nat
  addr   : Nat
  left   : Nat
deriving DecidableEq, Repr

/-- The fetch unit of a planar slot in one frame (R165): class, the furrow whose lines come next, the last source line and chroma
line that furrows before it named, the lines that have no place in the allocation yet, and those that ask for their port. -/
structure Fetch where
  cls    : Nat
  furrow : Nat
  seen   : Option (Nat × Nat)
  todo   : List FetchLine
  lines  : List FetchLine
deriving DecidableEq, Repr

/-- A camera port (R288, R170, R240, R241). `waiting` holds the received lines that are still to be written: slot, line, frame,
stored bytes; `sent` counts the bytes of the oldest that bursts have taken, with those that a cut gave back (R235); `period` is the
time between its last two frame-start packets. `copies` maps 2 × line + slot to the frame and the time of the complete copy there.
`dropFired` lists the camera frames, of those with a line in hand, for which CAM_DROP has fired. -/
structure Cam where
  inFrame : Bool
  line    : Nat
  waiting : List (Nat × Nat × Nat × List Byte)
  sent    : Nat × Nat
  copies  : SMap (Nat × Nat)
  frame   : Nat
  errFired : Bool
  dropFired : List Nat
  lastStart : Option Nat
  period  : Option Nat
deriving DecidableEq, Repr

/-- A lane group beside its registers (R291, R294, R296): bytes for the next packet and of the last response, whether bring-up waits
for HPD, the instant before which its POWER_DELAY has not passed, the frames left before a re-admitted link is late, whether it is
the link's first bring-up since the start (R49). -/
structure Group where
  fifo    : List Byte
  resp    : List Byte
  waitHpd : Bool
  readyAt : Nat
  lateIn  : Nat
  atBoot  : Bool
deriving DecidableEq, Repr

/-- A dimming zone (R299, R301): duty and gain in force, the duties computed for the next frame and, late, for the one after it
(R302), statistics of the frame in hand, and the geometry, floor and curve held for the frame. -/
structure Zone where
  duty   : Nat
  gain   : Nat
  due    : Option Nat
  later  : Option Nat
  peak   : Nat
  sum    : Nat
  count  : Nat
  covered : Bool
  cfg    : Word
  xs     : Word
  ys     : Word
  curve  : List Nat
deriving DecidableEq, Repr

/-- A telltale channel beside its registers (R307, R309): failed retries, whether its lit state was not OFF, whether a short
keeps its sink off. -/
structure Tt where
  retries : Nat
  wasLit  : Bool
  off     : Bool
deriving DecidableEq, Repr

/-- A mapper entry (R313 to R316). -/
structure MapEntry where
  seen    : Bool
  timedOut : Bool
  raw     : Int
deriving DecidableEq, Repr

/-- Light block (spec 12). `swHeld` keeps the software force cause until reset (R380, R388). `cause` holds the force causes of R310:
key 8 × cause + pipe; bit 0 holds for the rest of a frame. -/
structure LightState where
  zones  : SMap Zone
  period : Nat
  blinkA : Bool
  blinkB : Bool
  busyA  : Bool
  busyB  : Bool
  tts    : SMap Tt
  entries : SMap MapEntry
  cause  : SMap (BitVec 8)
  swHeld : Bool
deriving DecidableEq, Repr

/-- A unit that can be retired (R367, R368): failure instants, the cause of its retirement, recovery, retirement, passed retest,
passed tests of a retired lane in a row, whether it waits to come back. -/
structure FUnit where
  fails    : List Nat
  cause    : Nat
  recovery : Bool
  retired  : Bool
  ready    : Bool
  passes   : Nat
  pendingIn : Bool
deriving DecidableEq, Repr

/-- A retirement or re-admission record (R375). -/
structure FRec where
  unit  : BitVec 8
  kind  : BitVec 8
  cause : BitVec 8
  fails : BitVec 8
  seq   : BitVec 16
  stamp : BitVec 48
deriving DecidableEq, Repr

/-- Fault manager and lane rotation (specs 15, 08). `slotAt` and `slotUs` are the start and the length of the slot in hand.
`leadOpen` marks the ports whose lead has not been whole since a recovery, `leadRuns` counts the recoveries begun since every
lead was whole (R372). `reread` lists the bales that are read a second time: channel, user and address (R370). -/
structure FaultState where
  units   : SMap FUnit
  mcQueue : List Nat
  mcHand  : Option Nat
  held    : List FRec
  nextSeq : BitVec 16
  retest  : Option Nat
  reproof : Bool
  lane    : Option Nat
  testing : Bool
  notRun  : Nat
  hold    : Bool
  holdFail : Bool
  holdFrames : List Nat
  holdDone : Option Bool
  waitLane : Option Nat
  slotAt : Nat
  slotUs : Nat
  lateFired : List Nat
  reread  : List (Nat × EccUser × Nat)
  rrecSize : Nat
  leadOpen : BitVec 4
  leadRuns : Nat
deriving DecidableEq, Repr

/-- A record that the journal writer is to write (R396): a host record or a device record. -/
structure JJob where
  key     : Nat
  payload : List Byte
  host    : Bool
deriving DecidableEq, Repr

/-- Barn (spec 16): NOR bytes (unlisted: 0xFF), raw page buffer and operation in hand (erase, address, words), writer, key index
(SEQ, payload, sector), all records that stand (key, SEQ, sector), fill and erase count of each sector, sectors in which a program
failed (R400), erases in hand (journal 0 to 127, fault log 128 to 191), fault log position, fault summary, and whether step 2 has
read the journal (R401). -/
structure BarnState where
  nor     : SMap Byte
  table1  : SMap Word
  table2  : SMap Word
  page    : Option (Nat × SMap Word)
  rawBusy : Option (Bool × Nat × SMap Word)
  jobs    : List JJob
  jobHand : Option JJob
  readKey : Option Nat
  cur     : SMap (Nat × List Byte × Nat)
  copies  : List (Nat × Nat × Nat)
  fill    : SMap Nat
  erases  : SMap Nat
  failed  : List Nat
  erasing : List Nat
  logFill : Nat
  summary : List Nat
  sumDirty : Bool
  worn    : Bool
  indexed : Bool
deriving DecidableEq, Repr

/-- A composed pixel: what the tap presents, what the panel takes, whether class S covers it, its demand level for the light block
(R300), and the blends it took. -/
structure Composed where
  tap     : Nat × Nat × Nat
  out     : Nat × Nat × Nat
  covered : Bool
  demand  : Nat
  blends  : Nat
deriving DecidableEq, Repr

/-- Performance counters (spec 17): counters by number (unlisted: neutral), snapshot; of the window in hand its start, the
time its N periods count from (later where windows were merged, R411), its frame starts and WIN_CFG as read last; whether a window
waits for a frame start to begin. -/
structure PerfState where
  counters : SMap Nat
  snap     : SMap Nat
  startAt  : Option Nat
  turnAt   : Nat
  frames   : Nat
  cfg      : Word
  armed    : Bool
deriving DecidableEq, Repr

/-- The whole machine. `lost` lists the channels whose content became undefined at a retirement, with the free value that stands for
it (R374). `camLines` maps 65,536 × planar slot + source line to the camera slot that the layer reads the line from in this frame,
the time it was written, and whether a complete copy existed (R170); `camLags` holds by planar slot how many of the frame's lines
were stale so far, the largest lag, and whether CAM_LAG has fired; `camEarly` maps 131,072 × planar slot + 2 × source line, plus 1
for the next frame, to the slot, the frame and the time of the copy that the fetch unit took before the line's read deadline.
`furrowStore` is the furrow store of each pipe, by 2 × pipe + parity of the furrow: the lines of the composed furrows (R204).
`sampleDue` lists the level sources whose re-sample phase has ended and that are still to be sampled (R328). `levels` holds bucket
levels in thousandths of a byte with the time they stood so: subscribers by number, camera policers from 256 (R236, R240). `fetches`
holds the fetch units by 2 × slot code, plus 1 for the next frame. -/
structure State where
  pending : List Instr
  free    : Nat
  regs    : RegFile
  pow     : PowerState
  time    : TimeState
  hw      : HwState
  out     : List Out
  rings   : SMap Ring
  precHeld : SMap (List (List Byte))
  precSize : SMap Nat
  queueSizes : SMap Nat
  scene   : SceneState
  mem     : List Host.Cell
  lost    : SMap Nat
  loft    : List Host.Cell
  pipes   : SMap PipeRt
  bins    : SMap (List Span)
  camLines : SMap (Nat × Nat × Bool)
  camLags : SMap (Nat × Nat × Bool)
  camEarly : SMap (Nat × Nat × Nat)
  furrowStore : SMap (List (List Composed))
  gates   : SMap Gate
  gcl     : SMap Word
  levels  : SMap (Int × Nat)
  fetches : SMap Fetch
  src     : SMap Source
  sampleDue : List Nat
  wins    : SMap Window
  dma     : SMap DmaChan
  dmaHalted : Bool
  scans   : SMap Scan
  cams    : SMap Cam
  groups  : SMap Group
  light   : LightState
  fault   : FaultState
  barn    : BarnState
  perf    : PerfState
deriving DecidableEq, Repr

/-! The values that the parts of the state have right after reset. -/

/-- The register space at reset: every live, shadow and banked value at its reset word (R67, R77). -/
def regFileReset : RegFile :=
  { live := [], shadow := [], pend := [], banks := [], view := 0, loHeld := [], keys := [],
    gclShadow := [] }

/-- Power at the instant that the model starts from: rails up, start sequence not run (log 1). -/
def powerReset : PowerState :=
  { power := .up, started := false, classified := false, podlClass := 0, podlWatts := 0, noclass := false,
    vbusClosed := true, vbusLatched := false, vbusRetries := 0, wakeOut := false, vled := false, bootFallback := false, panels := [], powerDelay := [],
    mcTrained := 0, selfRefresh := 0, bulb := false }

/-- The clocks at reset (R263). -/
def timeReset : TimeState :=
  { uptime := 0, base := 0, ratePpb := 0, slew := 0, fracNs := 0, lastSync := none, pdelaySeq := 0,
    pdelayOut := none, linkDelay := 0 }

/-- No session; the first identifier and the first SEQ are 1 (R90). -/
def hwReset : HwState :=
  { cur := none, opening := none, nextId := 1, txNext := 1, rxLast := 0, unacked := [], waiting := [],
    ackOwed := false, reads := [], nextRead := 1, tagFailAt := none,
    wakeDue := 0, waking := 0, serial := 0 }

/-- A submission ring after its RESET. -/
def ringInit : Ring :=
  { cfg := 0, sq := 0, cq := 0, poll := 0, pollIv := 1000, batch := 0, marks := [], chain := none, reading := none,
    buf := [], inHand := none, waitCommit := none, stopping := false, halt := none, held := [] }

/-- Nothing staged. -/
def writesInit : Writes := { layer := [], ctx := [], lut := [], mat := [], indep := [], tags := [] }

/-- The scene state at reset: every parameter word 0 (R151, R176), every table 0, nothing staged or armed. -/
def sceneReset : SceneState :=
  { planar := [], objBin := [], objDraw := [], ctxBin := [], ctxDraw := [],
    degamma := [], regamma := [], matrix := [], bufTag := [], glyphBin := [], glyphDraw := [], binHeld := [], drawHeld := [],
    staging := [], before := [], queue := [], inHand := none, proofDep := none, armed := [], serial := 0, running := [], unfinished := [],
    releases := [], flips := [], readmit := [], admitted := [], givenUp := [], leaverTwins := [], twinBales := [], twinAsks := [],
    twinRuns := [], lostBales := [], bootCtx := [], bootLoft := [] }

/-- A pipe whose timing generator is stopped. -/
def pipeInit : PipeRt :=
  { gen := .stopped, black := .none, line := 0, unit := 0, relockDue := false, locked := false,
    lockedByDeadline := false, aligned := true, stookChange := false, fallback := false, boot := true, flUntilNext := false,
    wantFallback := false, noCapacity := false, offFrame := [], fetched := [], heldOff := [], heldObj := [], leftOut := [],
    shedNow := [], shedNext := [], camGood := 0, showFirst := false, steps := 0, hist := [],
    hostShown := false, teDue := none, repeats := 0, lostAt := 0, extra := 0, flOut := false, flGone := false, flProved := none, bg := 0,
    ground := 0, bootArt := true, furrowOut := [],
    fresh := false, again := false, rideOut := [], unitAt := 0 }

/-- A port without a gate list. -/
def gateInit : Gate := { run := none, waiting := none, entry := 0, left := 0, openRef := false, resumed := false, last := none, turns := [] }

/-- A source that has not occurred. -/
def sourceInit : Source :=
  { stamp := 0, detail := 0, saturated := false, resampled := false, moved := false, lastAt := none }

/-- A closed window. -/
def windowInit : Window :=
  { opened := false, crc := 0, cfg := 0, xs := 0, ys := 0, expect := [], key := none, inRange := false }

/-- An idle DMA channel. -/
def dmaInit : DmaChan :=
  { queue := [], inHand := none, got := [], asked := 0, failed := false, rd := (0, 0), wr := (0, 0), dep := none, runAt := none, runCount := 0,
    runStatus := 0, runLast := false, runRead := false, runHalted := false }

/-- A camera port outside a frame. -/
def camInit : Cam :=
  { inFrame := false, line := 0, waiting := [], sent := (0, 0), copies := [], frame := 0, errFired := false,
    dropFired := [], lastStart := none, period := none }

/-- A lane group that has not been started. -/
def groupInit : Group := { fifo := [], resp := [], waitHpd := false, readyAt := 0, lateIn := 0, atBoot := false }

/-- A disabled zone: duty 0, gain 0x1000 (R303). -/
def zoneInit : Zone :=
  { duty := 0, gain := 0x1000, due := none, later := none, peak := 0, sum := 0, count := 0, covered := false, cfg := 0, xs := 0, ys := 0,
    curve := [] }

/-- A telltale channel without a fault. -/
def ttInit : Tt := { retries := 0, wasLit := false, off := false }

/-- A mapper entry that has received nothing (R316). -/
def mapInit : MapEntry := { seen := false, timedOut := false, raw := 0 }

/-- The light block at reset: DIM_CFG.PERIOD in force at its reset value (R304). -/
def lightReset : LightState :=
  { zones := [], period := 0x3D090, blinkA := false, blinkB := false, busyA := false, busyB := false,
    tts := [], entries := [], cause := [], swHeld := false }

/-- A unit that has not failed. -/
def unitInit : FUnit :=
  { fails := [], cause := 0, recovery := false, retired := false, ready := false, passes := 0, pendingIn := false }

/-- The fault manager at reset; the first record carries SEQ 1 (R375). -/
def faultReset : FaultState :=
  { units := [], mcQueue := [], mcHand := none, held := [], nextSeq := 1, retest := none, reproof := false,
    lane := none, testing := false, notRun := 0, hold := false, holdFail := false, holdFrames := [],
    holdDone := none, waitLane := none, slotAt := 0, slotUs := 3500, lateFired := [], reread := [], rrecSize := 4,
    leadOpen := 0, leadRuns := 0 }

/-- The barn at reset: the NOR is erased (log 9). -/
def barnReset : BarnState :=
  { nor := [], table1 := [], table2 := [], page := none, rawBusy := none, jobs := [], jobHand := none,
    readKey := none, cur := [], copies := [], fill := [], erases := [], failed := [], erasing := [],
    logFill := 0, summary := [0, 0, 0, 0, 0], sumDirty := false, worn := false, indexed := false }

/-- No counter window runs. -/
def perfReset : PerfState := { counters := [], snap := [], startAt := none, turnAt := 0, frames := 0, cfg := 0, armed := false }

/-- The machine right after reset. -/
def State.reset : State :=
  { pending := [], free := 0, regs := regFileReset, pow := powerReset, time := timeReset, hw := hwReset,
    out := [], rings := [], precHeld := [], precSize := [], queueSizes := [], scene := sceneReset, mem := [], lost := [], loft := [], pipes := [],
    bins := [], camLines := [], camLags := [], camEarly := [], furrowStore := [], gates := [], gcl := [],
    levels := [], fetches := [], src := [], sampleDue := [], wins := [], dma := [], dmaHalted := false,
    scans := [], cams := [], groups := [], light := lightReset, fault := faultReset, barn := barnReset,
    perf := perfReset }

/-- Why a step can fault. No command of the table faults in this model; the constructor is kept for an access that the
manual says cannot exist, and no meaning raises it (safe). -/
inductive Fault where
  | /-- Raised by no meaning. Safe. -/ impossible
deriving DecidableEq, Repr

/-- Why a step can be refused. -/
inductive Refusal where
  | /-- Raised by an arm of `exec` whose command has no meaning yet. Safe: nothing can be proved of it. -/
    notModelled (mnemonic : String)
deriving DecidableEq, Repr

end Sys2Proof.Machine
end

