-- ==== Sys2Proof/Machine/Ops.lean ====
section
/-! DEFINITION. The named operations over the state that every meaning uses: sparse tables, registers and their fields
(spec 03), saturating counters, memory bytes, and the accessors of the tables of `State`. -/

namespace Sys2Proof.Machine

/-! Sparse tables: keys strictly rising, no entry equal to the default. -/

/-- The entry of a key, if one is listed. -/
def smFind {α : Type} : SMap α → Nat → Option α
  | [], _ => none
  | (k, v) :: r, a => if k = a then some v else smFind r a

/-- The value at a key. -/
def smGet {α : Type} (d : α) (m : SMap α) (k : Nat) : α := (smFind m k).getD d

/-- The table without an entry at a key. -/
def smDel {α : Type} : SMap α → Nat → SMap α
  | [], _ => []
  | (k, v) :: r, a => if k = a then smDel r a else (k, v) :: smDel r a

/-- The table with an entry at a key. -/
def smPut {α : Type} : SMap α → Nat → α → SMap α
  | [], a, w => [(a, w)]
  | (k, v) :: r, a, w =>
    if k = a then (a, w) :: r else if a < k then (a, w) :: (k, v) :: r else (k, v) :: smPut r a w

/-- The table with the value at a key set; writing the default removes the entry. -/
def smSet {α : Type} [DecidableEq α] (d : α) (m : SMap α) (k : Nat) (v : α) : SMap α :=
  if v = d then smDel m k else smPut m k v

/-- A table is in canonical form: keys strictly rising and no entry equal to its default. -/
def smWf {α : Type} [DecidableEq α] (d : Nat → α) : SMap α → Bool
  | [] => true
  | [(k, v)] => decide (v ≠ d k)
  | (k, v) :: (k', v') :: r => decide (v ≠ d k) && decide (k < k') && smWf d ((k', v') :: r)

/-! Memory: device memory, the loft and the NOR are lists of cells. -/

/-- What an unlisted byte of device memory and of the loft reads as (log 7). -/
def memDefault : Byte := 0

/-- One byte of memory. -/
def memGet (m : List Host.Cell) (a : Nat) : Byte := smGet memDefault m a

/-- Memory with one byte written. -/
def memSet (m : List Host.Cell) (a : Nat) (b : Byte) : List Host.Cell := smSet memDefault m a b

/-- The canonical form of memory; `d` is what an unlisted address reads as. -/
def Memory.wf (d : Nat → Byte) (m : List Host.Cell) : Bool := smWf d m

/-- `n` bytes from an address. -/
def memBytes (m : List Host.Cell) : Nat → Nat → List Byte
  | _, 0 => []
  | a, n + 1 => memGet m a :: memBytes m (a + 1) n

/-- Memory with bytes written from an address on. -/
def memWrite (m : List Host.Cell) : Nat → List Byte → List Host.Cell
  | _, [] => m
  | a, b :: bs => memWrite (memSet m a b) (a + 1) bs

/-! The register map. -/

/-- Which instance of a row a byte address is, if any. -/
def RegRow.instanceAt (r : RegRow) (a : Nat) : Option Nat :=
  if a < r.base then none
  else
    let o := a - r.base
    if r.stride = 0 then (if o = 0 then some 0 else none)
    else if r.inner ≤ 1 then
      if o % r.stride = 0 ∧ o / r.stride < r.count then some (o / r.stride) else none
    else
      let q := o / r.stride
      let m := o % r.stride
      if m % r.stride2 = 0 ∧ m / r.stride2 < r.inner ∧ q * r.inner + m / r.stride2 < r.count then
        some (q * r.inner + m / r.stride2)
      else none

/-- The row and instance of a byte address among rows. -/
def findIn : List RegRow → Nat → Option (RegRow × Nat)
  | [], _ => none
  | r :: rs, a =>
    match r.instanceAt a with
    | some i => some (r, i)
    | none => findIn rs a

/-- The register at a byte address of the 16 blocks (R62, R64). -/
def findReg (a : Nat) : Option (RegRow × Nat) :=
  if a % 4 = 0 then findIn (blockRows (a / 0x10000)) a else none

/-- The bits of a register that are not reserved. -/
def RegRow.defined (r : RegRow) : Word := r.rw ||| r.ro ||| r.w1c ||| r.w1s ||| r.wo1 ||| r.srw ||| r.lkw

/-- The reset word of the register at an address, reserved bits 0. -/
def resetWord (a : Nat) : Word :=
  match findReg a with
  | some (r, i) => r.reset i &&& r.defined
  | none => 0

/-! Registers in the state. The live copy is what the module runs on. -/

/-- The live word of a register. -/
def State.reg (s : State) (a : Nat) : Word := smGet (resetWord a) s.regs.live a

/-- The state with the live word of a register set. -/
def State.setReg (s : State) (a : Nat) (w : Word) : State :=
  { s with regs := { s.regs with live := smSet (resetWord a) s.regs.live a w } }

/-- The shadow word of a register (its SRW bits; R67). -/
def State.shadowReg (s : State) (a : Nat) : Word := smGet (resetWord a) s.regs.shadow a

/-- The state with the shadow word of a register set. -/
def State.setShadow (s : State) (a : Nat) (w : Word) : State :=
  { s with regs := { s.regs with shadow := smSet (resetWord a) s.regs.shadow a w } }

/-- The value of a field. -/
def State.fld (s : State) (f : Fld) : Nat := bits (s.reg f.addr) f.hi f.lo

/-- The state with a field set. -/
def State.setFld (s : State) (f : Fld) (v : Nat) : State :=
  s.setReg f.addr (setBits (s.reg f.addr) f.hi f.lo v)

/-- Whether a field is not zero. -/
def State.flag (s : State) (f : Fld) : Bool := s.fld f != 0

/-- The state with a field raised by `d`, saturating at all ones. -/
def State.addFld (s : State) (f : Fld) (d : Nat) : State :=
  s.setFld f (satAdd (f.hi - f.lo + 1) (s.fld f) d)

/-- Bit `i` of a field. -/
def State.fbit (s : State) (f : Fld) (i : Nat) : Bool := (s.fld f).testBit i

/-- The state with bit `i` of a field set or cleared. -/
def State.setFbit (s : State) (f : Fld) (i : Nat) (b : Bool) : State :=
  s.setFld f (withBit (s.fld f) i b)

/-- A 64-bit value in LO at `a` and HI at `a + 4` (R14). -/
def State.reg64 (s : State) (a : Nat) : Nat := (s.reg a).toNat + 2 ^ 32 * (s.reg (a + 4)).toNat

/-- The state with a 64-bit value set in its LO and HI registers. -/
def State.setReg64 (s : State) (a v : Nat) : State :=
  (s.setReg a (BitVec.ofNat 32 v)).setReg (a + 4) (BitVec.ofNat 32 (v / 2 ^ 32))

/-- The value of a field of a given word. -/
def Fld.of (f : Fld) (w : Word) : Nat := bits w f.hi f.lo

/-! Folding a change over a list. -/

/-- The state after a change for each element of a list, in order. -/
def State.each {α : Type} (s : State) (l : List α) (f : State → α → State) : State := l.foldl f s

/-! The tables of the state. -/

def State.ring (s : State) (n : Nat) : Ring := smGet ringInit s.rings n
def State.setRing (s : State) (n : Nat) (r : Ring) : State := { s with rings := smSet ringInit s.rings n r }
def State.pipe (s : State) (p : Nat) : PipeRt := smGet pipeInit s.pipes p
def State.setPipe (s : State) (p : Nat) (r : PipeRt) : State := { s with pipes := smSet pipeInit s.pipes p r }
def State.gate (s : State) (m : Nat) : Gate := smGet gateInit s.gates m
def State.setGate (s : State) (m : Nat) (g : Gate) : State := { s with gates := smSet gateInit s.gates m g }
def State.source (s : State) (k : Nat) : Source := smGet sourceInit s.src k
def State.setSource (s : State) (k : Nat) (v : Source) : State := { s with src := smSet sourceInit s.src k v }
def State.window (s : State) (n : Nat) : Window := smGet windowInit s.wins n
def State.setWindow (s : State) (n : Nat) (w : Window) : State := { s with wins := smSet windowInit s.wins n w }
def State.chan (s : State) (c : Nat) : DmaChan := smGet dmaInit s.dma c
def State.setChan (s : State) (c : Nat) (d : DmaChan) : State := { s with dma := smSet dmaInit s.dma c d }
def State.cam (s : State) (c : Nat) : Cam := smGet camInit s.cams c
def State.setCam (s : State) (c : Nat) (v : Cam) : State := { s with cams := smSet camInit s.cams c v }
def State.group (s : State) (g : Nat) : Group := smGet groupInit s.groups g
def State.setGroup (s : State) (g : Nat) (v : Group) : State := { s with groups := smSet groupInit s.groups g v }
def State.unit (s : State) (u : Nat) : FUnit := smGet unitInit s.fault.units u
def State.setUnit (s : State) (u : Nat) (v : FUnit) : State :=
  { s with fault := { s.fault with units := smSet unitInit s.fault.units u v } }
def State.zone (s : State) (z : Nat) : Zone := smGet zoneInit s.light.zones z
def State.setZone (s : State) (z : Nat) (v : Zone) : State :=
  { s with light := { s.light with zones := smSet zoneInit s.light.zones z v } }
def State.tt (s : State) (c : Nat) : Tt := smGet ttInit s.light.tts c
def State.setTt (s : State) (c : Nat) (v : Tt) : State :=
  { s with light := { s.light with tts := smSet ttInit s.light.tts c v } }
def State.mapEntry (s : State) (i : Nat) : MapEntry := smGet mapInit s.light.entries i
def State.setMapEntry (s : State) (i : Nat) (v : MapEntry) : State :=
  { s with light := { s.light with entries := smSet mapInit s.light.entries i v } }

/-- What leaves the module, in order. -/
def State.emit (s : State) (o : Out) : State := { s with out := s.out ++ [o] }

/-- The next free value's index (log 5). -/
def State.freshen (s : State) : State := { s with free := s.free + 1 }

/-- What an unlisted byte of device memory reads as: an undefined byte on a channel that lost its content (R374), else the byte
of log 7. -/
def State.memUnlisted (s : State) (a : Nat) : Byte :=
  match smFind s.lost (a / 0x70000000) with
  | some k => Config.undefByte k a
  | none => memDefault

/-- One byte of device memory. -/
def State.memByte (s : State) (a : Nat) : Byte := smGet (s.memUnlisted a) s.mem a

/-- Device memory is in its canonical form. -/
def State.memOk (s : State) : Bool := Memory.wf s.memUnlisted s.mem

/-- Device memory with bytes written from an address on. -/
def State.memPut (s : State) : Nat → List Byte → State
  | _, [] => s
  | a, b :: bs => State.memPut { s with mem := smSet (s.memUnlisted a) s.mem a b } (a + 1) bs

/-- Scan passes over bytes that are written see neither version (R359). -/
def markScans (l : SMap Scan) (a n : Nat) : SMap Scan :=
  l.map (fun e => (e.1, if e.2.start < a + n && a < e.2.start + e.2.len then { e.2 with dirty := true } else e.2))

/-- Device memory with bytes written. -/
def State.store (s : State) (a : Nat) (bs : List Byte) : State :=
  { s.memPut a bs with scans := markScans s.scans a bs.length }

/-- Bytes of device memory. -/
def State.load (s : State) (a n : Nat) : List Byte := (List.range n).map (fun i => s.memByte (a + i))

/-- The content of a channel becomes undefined (R374). -/
def State.loseMemory (s : State) (m : Nat) : State :=
  { s with mem := s.mem.filter (fun c => c.1 / 0x70000000 != m), lost := smPut s.lost m s.free }.freshen

/-! Performance counters (spec 17, R406, R407). -/

/-- A MIN counter: least lead of a port or of a planar slot. -/
def perfIsMin (k : Nat) : Bool := (28 ≤ k && k < 32) || (128 ≤ k && k < 224)

/-- The value with which a counter starts a window. -/
def perfNeutral (k : Nat) : Nat := if perfIsMin k then 2 ^ 48 - 1 else 0

/-- A counter's value. -/
def State.perfCount (s : State) (k : Nat) : Nat := smGet (perfNeutral k) s.perf.counters k

/-- A counter set. -/
def State.setPerf (s : State) (k v : Nat) : State :=
  { s with perf := { s.perf with counters := smSet (perfNeutral k) s.perf.counters k v } }

/-- A sum counter rises, saturating at 48 bits. -/
def State.perfAdd (s : State) (k d : Nat) : State :=
  if d = 0 then s else s.setPerf k (satAdd 48 (s.perfCount k) d)

/-- A MAX counter sees a value. -/
def State.perfMax (s : State) (k v : Nat) : State := s.setPerf k (max (s.perfCount k) (min v (2 ^ 48 - 1)))

/-- A MIN counter sees a value. -/
def State.perfMin (s : State) (k v : Nat) : State := s.setPerf k (min (s.perfCount k) v)

/-! Facts that many blocks ask of the state. -/

/-- The pipes of the module. -/
def pipes8 : List Nat := List.range 8

/-- A profile's number of memory channels, pipes and blend lanes in service beside the one under test (R3). -/
def profileOf (s : State) : Nat := s.fld F.sysProfileActive

/-- Memory channels of the profile (R3). -/
def profileChannels (s : State) : Nat := match profileOf s with | 0 => 4 | 1 => 2 | _ => 1

/-- Pipes of the profile (R3). -/
def profilePipes (s : State) : Nat := match profileOf s with | 0 => 8 | 1 => 4 | _ => 2

/-- Active blend lanes of the profile (R3); one more is under test. -/
def profileLanes (s : State) : Nat := match profileOf s with | 0 => 16 | 1 => 8 | _ => 4

/-- The state of a command's outcome. -/
abbrev Answer := Host.Outcome State Fault Refusal

/-- A command's answer: the queue is the step's own. -/
def answer (s t : State) : Answer := .next { t with pending := s.pending }

/-- A command of a powered module: `f` while the rails are up, nothing otherwise (R51, R52). -/
def whenUp (s : State) (f : State → State) : Answer := answer s (if s.pow.power = .up then f s else s)

/-- A module held in step 2 answers JTAG and the SPI target only (R388). -/
def State.serves (s : State) (path : Path) : Bool := s.pow.started || path != .haywain

/-- A register access on a path that the module answers. -/
def whenServed (s : State) (path : Path) (f : State → State) : Answer := whenUp s (fun s => if s.serves path then f s else s)

/-- A command that only a started module takes: until the start sequence ends the balls that it would drive stay as R59 says, and a
module held in step 2 answers JTAG and the SPI target only (R388). -/
def whenStarted (s : State) (f : State → State) : Answer := whenUp s (fun s => if s.pow.started then f s else s)

end Sys2Proof.Machine
end

