-- ==== Sys2Proof/Machine/Flags.lean ====
section
/-! DEFINITION. The flags and counters that blocks raise: event occurrences and level conditions (spec 13, R325 to R328,
R345), wake requests (R342, R344), locked and unmapped accesses (spec 00 R17, spec 03 R62, R82). -/

namespace Sys2Proof.Machine

/-- Bit of a link in two-bit fields: LINK_A 0, LINK_B 1. -/
def linkIdx : Link → Nat
  | .a => 0
  | .b => 1

/-- The other link. -/
def linkOther : Link → Link
  | .a => .b
  | .b => .a

/-- HW_CTL as the transport uses it: the word read when the session opened, or the register (R113). -/
def hwCtlNow (s : State) : Word :=
  match s.hw.cur.or s.hw.opening with
  | some c => c.hwCtl
  | none => s.reg A.ringHwCtl

/-- A link is enabled in HW_CTL. -/
def linkEnabled (s : State) : Link → Bool
  | .a => F.ringHwCtlLinkaEn.of (hwCtlNow s) != 0
  | .b => F.ringHwCtlLinkbEn.of (hwCtlNow s) != 0

/-- A link is retired. -/
def linkRetired (s : State) : Link → Bool
  | .a => s.flag F.ringLinkStatARetired
  | .b => s.flag F.ringLinkStatBRetired

/-- A link's PHY is up. -/
def linkIsUp (s : State) : Link → Bool
  | .a => s.flag F.ringLinkStatAUp
  | .b => s.flag F.ringLinkStatBUp

/-- A link sleeps (R343). -/
def linkAsleep (s : State) : Link → Bool
  | .a => s.flag F.evtLinkSleepAAsleep
  | .b => s.flag F.evtLinkSleepBAsleep

/-- The state with a link asleep or not. -/
def setAsleep (s : State) (l : Link) (b : Bool) : State :=
  match l with
  | .a => s.setFld F.evtLinkSleepAAsleep b.toNat
  | .b => s.setFld F.evtLinkSleepBAsleep b.toNat

/-- A link that may carry the session is awake: enabled, not retired, up or on its way up after a wake-up. -/
def linkAwake (s : State) (l : Link) : Bool :=
  linkEnabled s l && !linkRetired s l && !linkAsleep s l && (linkIsUp s l || s.hw.waking.getLsbD (linkIdx l))

/-- Send a TC10 wake-up on a link; an asleep link is then on its way up (R344). -/
def wakeLink (s : State) (l : Link) : State :=
  let s := s.emit (.tc10Wakeup l)
  let s := setAsleep s l false
  if linkIsUp s l then s
  else { s with hw := { s.hw with waking := s.hw.waking ||| BitVec.ofNat 2 (1 <<< linkIdx l) } }

/-- Wake a link when none that may carry the session is awake: LINK_A, unless retired or disabled; else LINK_B (R344). -/
def wakeSome (s : State) : State :=
  if linkAwake s .a || linkAwake s .b then s
  else if linkEnabled s .a && !linkRetired s .a then wakeLink s .a
  else wakeLink s .b

/-- Steps 1 and 2 of a wake request: the WAKE_OUT pulse and the link (R342). -/
def wakeRequest (s : State) : State :=
  let s := { s with pow := { s.pow with wakeOut := true } }
  wakeSome (s.emit (.wakePin true))

/-! Event sources. -/

/-- A session is OPEN. -/
def sessionOpen (s : State) : Bool := s.hw.cur.isSome

/-- The sense inputs' sources. -/
def snsSource (k : Nat) : Bool := 760 ≤ k && k < 768

/-- The mode of a sense input (R329): 5 to 7 are taken as 4. -/
def snsMode (s : State) (i : Nat) : Nat := min 4 (s.fld (F.evtSnsCfgMode i))

/-- The filtered level of a sense input. -/
def snsLevel (s : State) (i : Nat) : Bool := s.flag (F.evtSnsCfgLevelNow i)

/-- The filtered levels of SNS7 to SNS0 (R335). -/
def snsLevels (s : State) : Nat :=
  pipes8.foldl (fun n i => n + (snsLevel s i).toNat * 2 ^ i) 0

/-- A source is of the level kind (R325): by its chapter, a sense input by its MODE. -/
def isLevel (s : State) (k : Nat) : Bool :=
  if snsSource k then decide (snsMode s (k - 760) ≤ 1) else levelSource k

/-- The condition that a level sense input's mode makes of its pin (R329). -/
def snsCond (s : State) (i : Nat) : Bool :=
  if snsMode s i = 0 then snsLevel s i else if snsMode s i = 1 then !snsLevel s i else false

/-- The group split of a queue: values above 8 are taken as 8 (R346). -/
def priGroup (s : State) (q : Nat) : Nat := min 8 (s.fld (F.evtQcfgPrigroup q))

/-- The group of a source in a queue (R330). -/
def groupOf (s : State) (q k : Nat) : Nat := s.fld (F.evtSrcCfgPriority k) >>> priGroup s q

/-- The sources that the state lists. A source that never left its reset state is neither pending nor active. -/
def knownSources (s : State) : List Nat :=
  s.regs.live.filterMap (fun e =>
    if A.evtSrcStat 0 ≤ e.1 && e.1 ≤ A.evtSrcStat 1023 && (e.1 - A.evtSrcStat 0) % 8 == 0 then
      some ((e.1 - A.evtSrcStat 0) / 8) else none)

/-- A source is active in a queue (R331). -/
def activeIn (s : State) (q k : Nat) : Bool :=
  s.flag (F.evtSrcStatActive k) && s.fld (F.evtSrcStatAqueue k) == q

/-- The active group of a queue: the highest group among the sources active in it (R331). -/
def activeGroup (s : State) (q : Nat) : Option Nat :=
  (knownSources s).foldl (fun g k =>
    if activeIn s q k then some (max (g.getD 0) (groupOf s q k)) else g) none

/-- The record count of a queue, with SIZE as its last enable took it, 6 to 16 (R334, R346). -/
def queueSize (s : State) (q : Nat) : Nat := 2 ^ smGet 6 s.queueSizes q

/-- A queue is full: QPI − HOST_CI = 2^SIZE (R336). -/
def queueFull (s : State) (q : Nat) : Bool :=
  dist (s.reg (A.evtQpi q)) (s.reg (A.evtHostCi q)) == queueSize s q

/-- A source is eligible in its target queue (R332). -/
def eligible (s : State) (k : Nat) : Bool :=
  s.flag (F.evtSrcCfgEn k) && !s.flag (F.evtSrcCfgMask k) && !s.flag (F.evtSrcStatActive k) &&
  s.flag (F.evtSrcStatCount k) &&
  (match activeGroup s (s.fld (F.evtSrcCfgQueue k)) with
   | none => true
   | some g => decide (g < groupOf s (s.fld (F.evtSrcCfgQueue k)) k))

/-- With no session OPEN, an eligible source that targets an ASLEEP queue makes the wake request at once (R342). Until the
start sequence ends WAKE_OUT stays low and LINK_B undriven (R59): the request is made at its end. -/
def wakeFor (s : State) (k : Nat) : State :=
  let q := s.fld (F.evtSrcCfgQueue k)
  if s.pow.started && !sessionOpen s && s.fld (F.evtQctlState q) == 1 && eligible s k then
    let s := s.setFld (F.evtQctlState q) 2
    wakeRequest { s with hw := { s.hw with wakeDue := s.hw.wakeDue ||| BitVec.ofNat 8 (1 <<< q) } }
  else s

/-- The wake requests that eligible sources make after a queue or source changed (R342). -/
def wakeAll (s : State) : State := s.each (knownSources s) wakeFor

/-- DETAIL of an occurrence (R335). -/
def detailOf (s : State) (k : Nat) : Word :=
  if 64 ≤ k && k < 192 then s.reg (A.pipeFrame ((k - 64) / 16))
  else if snsSource k then BitVec.ofNat 32 (snsLevels s) else 0

/-- An occurrence is counted (R327): one more up to 255, the time and DETAIL of the oldest held; at 255 it is lost. -/
def countOccurrence (s : State) (k : Nat) (resampled : Bool) : State :=
  let v := s.source k
  if s.fld (F.evtSrcStatCount k) = 0 then
    let s := s.setSource k { v with stamp := s.time.base, detail := detailOf s k,
                                    resampled := resampled, lastAt := some s.time.uptime }
    wakeFor (s.setFld (F.evtSrcStatCount k) 1) k
  else if s.fld (F.evtSrcStatCount k) = 255 then
    (s.setSource k { v with saturated := true, lastAt := some s.time.uptime }).addFld F.evtSaturationsCount 1
  else
    (s.setSource k { v with lastAt := some s.time.uptime }).addFld (F.evtSrcStatCount k) 1

/-- SPI_FLAG is set at each occurrence of a source with SPI at 1, counted or not (R345; log 67). -/
def markSpi (s : State) (k : Nat) : State :=
  if s.flag (F.evtSrcCfgSpi k) then s.setFld (F.evtSrcStatSpiFlag k) 1 else s

/-- An edge source's occurrence is too close to the last one counted (R326). -/
def edgeFiltered (s : State) (k : Nat) : Bool :=
  match (s.source k).lastAt with
  | none => false
  | some t => !snsSource k && decide (s.time.uptime - t < 40 * s.fld (F.evtSrcCfgFilter k))

/-- An edge source occurs (R325 to R327). -/
def raise (s : State) (k : Nat) : State :=
  let s := markSpi s k
  if s.flag (F.evtSrcCfgEn k) && !edgeFiltered s k then countOccurrence s k false else s

/-- The re-sample phase of every source: until step 8 of the start sequence ends (R328). -/
def resamplePhase (s : State) : Bool := !s.pow.started

/-- The filtered condition of a level source becomes `c` (R325, R328). -/
def setCond (s : State) (k : Nat) (c : Bool) : State :=
  let was := s.flag (F.evtSrcStatAsserted k)
  let s := s.setFld (F.evtSrcStatAsserted k) c.toNat
  if c && !was then
    let s := markSpi s k
    if s.flag (F.evtSrcCfgEn k) && !resamplePhase s then countOccurrence s k false else s
  else s

/-- A block reports the condition of a level source. With FILTER at 0 it takes effect at once; with another value its
filtered change arrives as EVENT_OCCURRENCE (R326; log 14). -/
def reportCond (s : State) (k : Nat) (c : Bool) : State :=
  if s.fld (F.evtSrcCfgFilter k) = 0 then setCond s k c else s

/-- A level source is sampled: if its condition holds and its count is 0, the count becomes 1 with RESAMPLED (R328). -/
def sampleSource (s : State) (k : Nat) : State :=
  if isLevel s k && s.flag (F.evtSrcCfgEn k) && s.flag (F.evtSrcStatAsserted k) &&
     s.fld (F.evtSrcStatCount k) == 0 then countOccurrence (markSpi s k) k true else s

/-- The condition of QUEUE_FULL of a queue (R324, R336). -/
def reportFull (s : State) (q : Nat) : State := reportCond s (8 + q) (queueFull s q)

/-- SPI_INT_N is low while a source with SPI at 1 has its SPI_FLAG set (R345). -/
def spiIntN (s : State) : Bool :=
  !(knownSources s).any (fun k => s.flag (F.evtSrcCfgSpi k) && s.flag (F.evtSrcStatSpiFlag k))

/-! Counted accesses. -/

/-- The code of a path in LOCK_VIOL_ADDR (R81). -/
def pathCode : Path → Nat
  | .haywain => 0
  | .spi => 1
  | .debug => 2
  | .boot => 3

/-- A locked write: ignored, counted, its address kept, LOCK_VIOLATION raised (R17, R82). -/
def lockedWrite (s : State) (p : Path) (a : Nat) : State :=
  let s := s.addFld F.sysLockViolCount 1
  let s := s.setFld F.sysLockViolAddrPath (pathCode p)
  let s := s.setFld F.sysLockViolAddrAddr a
  raise s 4

/-- An unmapped access is counted (R62). -/
def unmapped (s : State) : State := s.addFld F.sysUnmappedCount 1

end Sys2Proof.Machine
end

