-- ==== Sys2Proof/Machine/Barn.lean ====
section
/-! DEFINITION. The barn (spec 16): the NOR, raw access, the journal and its writer, the gleaner, the fault log. -/

namespace Sys2Proof.Machine

/-! The NOR: programming clears bits, an erase sets them (R391). -/

/-- What an unlisted byte of the NOR reads as: erased. -/
def norErased : Byte := 0xFF

def norGet (b : BarnState) (a : Nat) : Byte := smGet norErased b.nor a

/-- A byte programmed: the AND of old and new. -/
def norProgram1 (b : BarnState) (a : Nat) (v : Byte) : BarnState :=
  { b with nor := smSet norErased b.nor a (norGet b a &&& v) }

/-- Bytes programmed from an address. -/
def norProgram (b : BarnState) : Nat → List Byte → BarnState
  | _, [] => b
  | a, v :: vs => norProgram (norProgram1 b a v) (a + 1) vs

/-- A range erased. -/
def norErase (b : BarnState) (a n : Nat) : BarnState :=
  { b with nor := b.nor.filter (fun e => e.1 < a || a + n ≤ e.1) }

/-- A range whose content the manual leaves undefined: an erase abandoned or a program that failed. -/
def norUndefined (b : BarnState) (seed a : Nat) : Nat → BarnState
  | 0 => b
  | n + 1 =>
    let b := { b with nor := smSet norErased b.nor (a + n) (Config.undefByte seed (a + n)) }
    norUndefined b seed a n

def norBytes (b : BarnState) : Nat → Nat → List Byte
  | _, 0 => []
  | a, n + 1 => norGet b a :: norBytes b (a + 1) n

/-- A little-endian number of the NOR. -/
def norNat (b : BarnState) (a n : Nat) : Nat := leNat (norBytes b a n)

/-- The state with its barn changed. -/
def State.mapBarn (s : State) (f : BarnState → BarnState) : State := { s with barn := f s.barn }

/-- Any byte of a range is not erased. -/
def anyProgrammed (b : BarnState) (a e : Nat) : Bool := b.nor.any (fun c => a ≤ c.1 && c.1 < e)

/-! Journal sectors (R392, R393). -/

def journalBase : Nat := 0x2000000
def flogBase : Nat := 0x2080000
def sectorAddr (j : Nat) : Nat := journalBase + 4096 * j

/-- The number of cleared bits of a STATE byte from bit 0 without a gap. -/
def clearedBits : Nat → Nat → Nat
  | 0, _ => 0
  | n + 1, v => if v % 2 = 0 then 1 + clearedBits n (v / 2) else 0

/-- The state of a sector: 0 ERASED, 1 OPEN, 2 FULL, 3 to 7 COMPACTING, 8 RETIRED. -/
def sectorState (b : BarnState) (j : Nat) : Nat := clearedBits 8 (norGet b (sectorAddr j + 12)).toNat

def sectors : List Nat := List.range 128

/-- A sector's header is a valid one. -/
def headerValid (b : BarnState) (j : Nat) : Bool := norNat b (sectorAddr j) 4 == 0x4A524E42

/-- A sector is ERASED and free: no byte of it stands programmed and it is not being erased (R393). -/
def isErased (b : BarnState) (j : Nat) : Bool :=
  !b.erasing.contains j && !anyProgrammed b (sectorAddr j) (sectorAddr j + 4096)

def erasedSectors (b : BarnState) : List Nat := sectors.filter (isErased b)

/-- A sector with a valid header stands in a state and is not being erased. -/
def inState (b : BarnState) (lo hi j : Nat) : Bool :=
  headerValid b j && decide (lo ≤ sectorState b j) && decide (sectorState b j ≤ hi) && !b.erasing.contains j

/-- Sectors not RETIRED: the S of R397. -/
def sectorsInUse (b : BarnState) : Nat := (sectors.filter (fun j => sectorState b j != 8)).length

/-- The sector that records are appended to. -/
def openSector (b : BarnState) : Option Nat := sectors.find? (inState b 1 1)

/-- The highest SSEQ of the journal's headers. -/
def topSseq (b : BarnState) : Nat :=
  sectors.foldl (fun m j => if headerValid b j then max m (norNat b (sectorAddr j + 8) 4) else m) 0

/-- The highest ERASES of any journal sector. -/
def topErases (b : BarnState) : Nat := sectors.foldl (fun m j => max m (smGet 0 b.erases j)) 0

/-- The STATE byte of a sector advanced by clearing bits. -/
def programState (b : BarnState) (j : Nat) (v : Byte) : BarnState := norProgram1 b (sectorAddr j + 12) v

/-- The ERASED sector that is opened next: the next one in circular order (log 15). -/
def nextErased (b : BarnState) : Option Nat :=
  let start := match openSector b with | some j => j + 1 | none => 0
  ((List.range 128).map (fun i => (start + i) % 128)).find? (isErased b)

/-- Close the OPEN sector and open the next ERASED one (R393). -/
def openNext (b : BarnState) : BarnState :=
  match nextErased b with
  | none => b
  | some j =>
    let top := topSseq b
    let b := match openSector b with
      | some o => programState b o 0xFC
      | none => b
    let b := norProgram b (sectorAddr j)
      (leBytes 4 0x4A524E42 ++ leBytes 4 (smGet 0 b.erases j) ++ leBytes 4 (top + 1) ++ [0xFE])
    { b with fill := smSet 0 b.fill j 16 }

/-! Records (R394). -/

/-- The bytes of a record, padded with 0xFF to a multiple of 16. -/
def recordBytes (key seq : Nat) (payload : List Byte) : List Byte :=
  let r := leBytes 2 0x5A4A ++ leBytes 4 seq ++ leBytes 2 key ++ leBytes 2 payload.length ++ payload
  let r := r ++ leBytes 4 (crc32c r)
  r ++ List.replicate ((16 - r.length % 16) % 16) 0xFF

/-- The padded size of a record. -/
def recordSize (len : Nat) : Nat := (14 + len + 15) / 16 * 16

/-- The SEQ of the current record of a key; 0 when it has none. -/
def keySeq (b : BarnState) (key : Nat) : Nat := (smGet (0, [], 0) b.cur key).1

/-- A deletion is live while another sector still holds a record of its key (R399). -/
def deletionLive (b : BarnState) (key j : Nat) : Bool := b.copies.any (fun d => d.1 == key && d.2.2 != j)

/-- Live bytes of a key: the padded size of its current record or of its live deletion (R397). -/
def keyLive (b : BarnState) (key : Nat) : Nat :=
  let cur := smGet (0, [], 0) b.cur key
  if cur.1 = 0 || (cur.2.1.isEmpty && !deletionLive b key cur.2.2) then 0 else recordSize cur.2.1.length

/-- Live bytes: the padded sizes of every current record and live deletion (R397). -/
def liveBytes (b : BarnState) : Nat := b.cur.foldl (fun n e => n + keyLive b e.1) 0

/-- The OPEN sector, or a newly opened one where `n` bytes do not fit in it (R396). -/
def makeRoom (b : BarnState) (n : Nat) : BarnState :=
  match openSector b with
  | some j => if smGet 0 b.fill j + n ≤ 4096 then b else openNext b
  | none => openNext b

/-- The OPEN sector has room for `n` bytes. -/
def fitsOpen (b : BarnState) (n : Nat) : Bool :=
  match openSector b with
  | some j => decide (smGet 0 b.fill j + n ≤ 4096)
  | none => false

/-- `n` bytes can be written: in the OPEN sector or in an ERASED one. Without either they wait for one (log 83). -/
def hasRoom (b : BarnState) (n : Nat) : Bool := fitsOpen b n || (nextErased b).isSome

/-- The programming of the record in hand has begun; one that waits for room has not begun (R402, log 83). -/
def handBegun (b : BarnState) : Bool := b.jobHand.any (fun j => hasRoom b (recordSize j.payload.length))

/-- A record appended to the OPEN sector, or to a newly opened one when it does not fit (R396). -/
def appendRecord (b : BarnState) (key seq : Nat) (payload : List Byte) : BarnState :=
  let bs := recordBytes key seq payload
  if hasRoom b bs.length then
    let b := makeRoom b bs.length
    match openSector b with
    | none => b
    | some j =>
      let off := smGet 0 b.fill j
      let b := norProgram b (sectorAddr j + off) bs
      { b with fill := smSet 0 b.fill j (off + bs.length), copies := b.copies ++ [(key, seq, j)],
               cur := smSet (0, [], 0) b.cur key (seq, payload, j) }
  else b

/-- A new record of a key, with SEQ one above its last (R394). -/
def writeRecord (b : BarnState) (key : Nat) (payload : List Byte) : BarnState :=
  appendRecord b key (keySeq b key + 1) payload

/-! The writer (R396): device records, then the host record. -/

/-- The next job begins when the writer is free: device records first, in the order they arose. -/
def startJob (b : BarnState) : BarnState :=
  match b.jobHand with
  | some _ => b
  | none =>
    match b.jobs.find? (fun j => !j.host) with
    | some j => { b with jobHand := some j, jobs := b.jobs.erase j }
    | none =>
      match b.jobs with
      | [] => b
      | j :: r => { b with jobHand := some j, jobs := r }

/-- A device record arises. -/
def deviceRecord (b : BarnState) (key : Nat) (payload : List Byte) : BarnState :=
  startJob { b with jobs := b.jobs ++ [{ key := key, payload := payload, host := false }] }

/-- The fault summary record: five counts and zeros (R395). -/
def summaryRecord (b : BarnState) : BarnState :=
  let b := deviceRecord b 4097 (b.summary.flatMap (leBytes 4) ++ List.replicate 12 0)
  { b with sumDirty := false }

/-- A count of the fault summary rises: 0 failures, 1 retirements, 2 line losses, 3 thermal trips, 4 soft ECC errors. -/
def countSummary (b : BarnState) (i : Nat) : BarnState :=
  { b with summary := b.summary.set i (satAdd 32 (nth 0 b.summary i) 1), sumDirty := true }

/-! The fault log (R403). -/

/-- One entry is programmed; opening a sector erases the one after it if it holds entries. -/
def flogEntry (s : State) (kind unit cause fails : Nat) : State :=
  let seq := s.fld F.barnFlogSeqLseq + 1
  let e := leBytes 2 0x4C46 ++ leBytes 1 kind ++ leBytes 1 unit ++ leBytes 4 seq ++
    leBytes 8 s.time.base.toNat ++ leBytes 1 cause ++ leBytes 1 fails ++ List.replicate 10 0xFF
  let pos := s.barn.logFill
  let b := norProgram s.barn (flogBase + 32 * pos) (e ++ leBytes 4 (crc32c e))
  let nextSec := (pos / 128 + 1) % 64
  let held := anyProgrammed b (flogBase + 4096 * nextSec) (flogBase + 4096 * (nextSec + 1))
  let b := if pos % 128 = 0 && held && !b.erasing.contains (128 + nextSec) then
      { b with erasing := b.erasing ++ [128 + nextSec] } else b
  ({ s with barn := { b with logFill := (pos + 1) % 8192 } }).setFld F.barnFlogSeqLseq seq

/-! Sector retirement and compaction. -/

/-- Fewer than 32 sectors remain: JOURNAL_WORN fires once (R400). -/
def checkWorn (s : State) : State :=
  if sectorsInUse s.barn < 32 && !s.barn.worn then
    raise (s.mapBarn (fun b => { b with worn := true })) 932 else s

/-- A sector is programmed RETIRED (R400). -/
def retireSector (s : State) (j : Nat) : State :=
  let s := s.mapBarn (fun b => { programState b j 0 with
    erasing := b.erasing.filter (· != j), failed := b.failed.filter (· != j), copies := b.copies.filter (fun c => c.2.2 != j) })
  let s := raise s 931
  checkWorn (flogEntry s 7 j 0 0)

/-- A record of a sector is still current: its SEQ is the key's and no other sector holds it; a deletion only while
another sector still holds a record of its key (R399). -/
def copyNeeded (b : BarnState) (j : Nat) (c : Nat × Nat × Nat) : Bool :=
  let cur := smGet (0, [], 0) b.cur c.1
  c.2.2 == j && cur.1 == c.2.1 &&
  !b.copies.any (fun d => d.1 == c.1 && d.2.1 == c.2.1 && d.2.2 != j) &&
  (!cur.2.1.isEmpty || deletionLive b c.1 j)

/-- Live bytes of a sector. -/
def sectorLive (b : BarnState) (j : Nat) : Nat :=
  (b.copies.filter (copyNeeded b j)).foldl (fun n c => n + recordSize (smGet (0, [], 0) b.cur c.1).2.1.length) 0

/-- The better victim: fewest live bytes, then lowest ERASES, then lowest SSEQ (R399). -/
def betterVictim (b : BarnState) (best : Option Nat) (j : Nat) : Option Nat :=
  match best with
  | none => some j
  | some v =>
    let kj := (sectorLive b j, smGet 0 b.erases j, norNat b (sectorAddr j + 8) 4)
    let kv := (sectorLive b v, smGet 0 b.erases v, norNat b (sectorAddr v + 8) 4)
    if kj.1 < kv.1 || (kj.1 == kv.1 && (kj.2.1 < kv.2.1 || (kj.2.1 == kv.2.1 && kj.2.2 < kv.2.2))) then some j
    else some v

/-- The FULL sector that the gleaner compacts. -/
def victim (b : BarnState) : Option Nat :=
  (sectors.filter (inState b 2 2)).foldl (betterVictim b) none

/-- The writer has no record to write before the gleaner's copies: none is in hand, or the one in hand waits for room (R396). -/
def writerFree (b : BarnState) : Bool :=
  match b.jobHand with
  | some x => !hasRoom b (recordSize x.payload.length)
  | none => true

/-- A sector waits to be compacted: COMPACTING and not being erased yet, or one in which a program failed (R400, R401). -/
def mustCompact (b : BarnState) (j : Nat) : Bool := inState b 3 7 j || b.failed.contains j

/-- Steps 2 to 4 of R399 up to the start of the erase: the records that are still current move out with their SEQ. Once all have
moved the erase starts, and a sector in which a program failed is programmed RETIRED instead (R400); until then the sector stays
COMPACTING. -/
def compactSector (s : State) (j : Nat) : State :=
  let s := s.mapBarn (fun b =>
    (b.copies.filter (copyNeeded b j)).foldl (fun b c => appendRecord b c.1 c.2.1 (smGet (0, [], 0) b.cur c.1).2.1)
      (programState b j 0xF8))
  if s.barn.copies.any (copyNeeded s.barn j) then s
  else
    let s := s.addFld F.barnCompactionsCount 1
    if s.barn.failed.contains j then retireSector s j
    else s.mapBarn (fun b => { b with copies := b.copies.filter (fun c => c.2.2 != j), erasing := b.erasing ++ [j] })

/-- The compactions that wait go on while the writer is free, once step 8 has ended (R401). -/
def goOn (s : State) : State :=
  if s.pow.started then
    s.each (sectors.filter (mustCompact s.barn)) (fun s j =>
      if writerFree s.barn && mustCompact s.barn j then compactSector s j else s)
  else s

/-- The gleaner is at work: a sector is COMPACTING, up to the end of its erase. -/
def gleaningNow (b : BarnState) : Bool :=
  sectors.any (fun j => headerValid b j && decide (3 ≤ sectorState b j) && decide (sectorState b j ≤ 7))

/-- GLEANER_RUN: a compaction that waits goes on; else, with fewer than 8 sectors ERASED and the writer free, one sector is
compacted and its erase starts. -/
def gleanerRun (s : State) : State :=
  let s := goOn s
  match victim s.barn with
  | none => s
  | some j =>
    if (erasedSectors s.barn).length < 8 && !gleaningNow s.barn && s.barn.failed.isEmpty && writerFree s.barn then compactSector s j
    else s

def execGleanerRun (s : State) : Answer := whenUp s gleanerRun

/-- The erase count of a journal sector that has been erased: one above the old, or the highest of the journal where its old header
was unreadable (R399). -/
def newErases (b : BarnState) (j : Nat) : Nat := if headerValid b j then smGet 0 b.erases j + 1 else topErases b

/-- SECTOR_ERASE_DONE: the sector is ERASED (R399, R403), and copies that waited for one go on. -/
def sectorErased (s : State) (j : Nat) : State :=
  if s.barn.erasing.contains j then
    goOn (s.mapBarn (fun b =>
      let count := newErases b j
      let b := { norErase b (if j < 128 then sectorAddr j else flogBase + 4096 * (j - 128)) 4096 with
        erasing := b.erasing.filter (· != j) }
      if j < 128 then { b with erases := smSet 0 b.erases j count, fill := smSet 0 b.fill j 0 }
      else b))
  else s

def execSectorEraseDone (j : Nat) (s : State) : Answer := whenUp s (fun s => sectorErased s j)

/-- A program fails inside a sector: the bytes of the record in hand that it was to take are undefined, and an OPEN sector is
closed, so that the record is written again in a new sector (R400). -/
def programFailed (b : BarnState) (seed j : Nat) : BarnState :=
  let b := { b with failed := b.failed ++ [j] }
  if openSector b = some j then
    let b := match b.jobHand with
      | some x =>
        let n := recordSize x.payload.length
        if fitsOpen b n then norUndefined b seed (sectorAddr j + smGet 0 b.fill j) n else b
      | none => b
    programState b j 0xFC
  else b

/-- SECTOR_RETIRED: a failed erase programs the sector RETIRED. A sector in which a program failed is compacted once the writer is
free, its record in hand written again before that, and then programmed RETIRED; one without a valid header holds no record (R400;
log 84). In a sector that is being erased, that is RETIRED or that waits to be retired no program runs. -/
def sectorFailed (s : State) (j : Nat) (erase : Bool) : State :=
  if erase then (if s.barn.erasing.contains j then goOn (retireSector s j) else s)
  else if s.barn.erasing.contains j || s.barn.failed.contains j || sectorState s.barn j == 8 then s
  else if headerValid s.barn j then goOn (s.mapBarn (fun b => programFailed b s.free j)).freshen
  else goOn (retireSector s j)

def execSectorRetired (j : Fin 128) (erase : Bool) (s : State) : Answer := whenUp s (fun s => sectorFailed s j erase)

/-! Host access to the journal. -/

/-- The refusal of a host write, 0 when it is accepted (R397). A deletion that the OPEN sector has no room for stands in a new one.
-/
def writeRefusal (b : BarnState) (key len : Nat) : Nat :=
  let sector := if fitsOpen b (recordSize 0) then (openSector b).getD 128 else 128
  let stays := len != 0 || deletionLive b key sector
  let live := liveBytes b - keyLive b key + (if stays then recordSize len else 0)
  if 4096 ≤ key then 2
  else if 240 < len then 3
  else if ((sectorsInUse b : Int) - 12) * 4080 - 16320 < (live : Int) then 4
  else if sectorsInUse b < 32 then 5
  else 0

/-- Words of a table as bytes. -/
def tableBytes (t : SMap Word) (n : Nat) : List Byte :=
  ((List.range 60).flatMap (fun i => leBytes 4 (smGet (0 : Word) t i).toNat)).take n

/-- JOURNAL_WRITE: GO of JW_CTL. While BUSY it is ignored; a refused write ends at once (R397). -/
def journalGo (s : State) : State :=
  if s.flag F.barnJwCtlBusy then s
  else
    let key := s.fld F.barnJwCtlKey
    let len := s.fld F.barnJwCtlLen
    let r := writeRefusal s.barn key len
    if r ≠ 0 then raise (s.setFld F.barnJwCtlStatus r) 928
    else
      let job : JJob := { key := key, payload := tableBytes s.barn.table1 len, host := true }
      let s := s.mapBarn (fun b => startJob { b with jobs := b.jobs ++ [job] })
      s.setFld F.barnJwCtlBusy 1

def execJournalWrite (path : Path) (s : State) : Answer := whenServed s path journalGo

/-- The record in hand is written; a host record's write ends with DONE (R397). -/
def writeHand (s : State) (j : JJob) : State :=
  let s := s.mapBarn (fun b => { writeRecord b j.key j.payload with jobHand := none })
  if j.host then
    let s := (s.setFld F.barnJwCtlBusy 0).setFld F.barnJwCtlStatus 1
    raise (s.setFld F.barnJwSeqSeq (keySeq s.barn j.key)) 928
  else s

/-- JW_DONE: the record in hand is written, and the next job begins, or the compactions that wait go on. Without room the record is
not written yet (log 83). -/
def finishJob (s : State) : State :=
  match s.barn.jobHand with
  | none => s
  | some j =>
    if hasRoom s.barn (recordSize j.payload.length) then goOn ((writeHand s j).mapBarn startJob) else s

def execJwDone (s : State) : Answer := whenUp s finishJob

/-- JOURNAL_READ: GO of JR_CTL (R398). -/
def journalRead (s : State) : State :=
  if s.flag F.barnJrCtlBusy then s
  else (s.mapBarn (fun b => { b with readKey := some (s.fld F.barnJrCtlKey) })).setFld F.barnJrCtlBusy 1

def execJournalRead (path : Path) (s : State) : Answer := whenServed s path journalRead

/-- Bytes placed in a table of 60 words. -/
def bytesTable (bs : List Byte) : SMap Word :=
  (List.range 60).foldl (fun t i => smSet 0 t i (leWord (bs.drop (4 * i) ++ List.replicate 4 0))) []

/-- JR_DONE: the payload stands in TABLE 2, with LEN, JR_SEQ and STATUS (R398). -/
def finishRead (s : State) : State :=
  match s.barn.readKey with
  | none => s
  | some k =>
    let cur := smGet (0, [], 0) s.barn.cur k
    let status := if cur.1 = 0 then 2 else if cur.2.1.isEmpty then 3 else 1
    let s := s.mapBarn (fun b => { b with readKey := none, table2 := bytesTable (cur.2.1.take 240) })
    let s := ((s.setFld F.barnJrCtlBusy 0).setFld F.barnJrCtlStatus status).setFld F.barnJrCtlLen cur.2.1.length
    raise (s.setFld F.barnJrSeqSeq cur.1) 929

def execJrDone (s : State) : Answer := whenUp s finishRead

/-- FAULT_SUMMARY_WRITE: 60 s after a count changed the summary is written (R395). -/
def execFaultSummaryWrite (s : State) : Answer :=
  whenUp s (fun s => if s.barn.sumDirty then s.mapBarn summaryRecord else s)

/-! Raw access (R391). -/

/-- The bank that the module runs from. -/
def selectedBank (s : State) : Nat := s.fld F.barnBankSel

/-- An address that the host may write or erase: the bank not selected, and the spare. -/
def rawWritable (s : State) (a : Nat) : Bool :=
  (a < 0x2000000 && a / 0x1000000 != selectedBank s) || (0x20C0000 ≤ a && a < 0x4000000)

/-- The plane of an address. -/
def norPlane (a : Nat) : Nat := if a < 0x2000000 then 0 else 1

/-- The address of a raw operation: of the block of an erase, of the page of a program. -/
def rawAddr (erase : Bool) (a : Nat) : Nat := if erase then a else 256 * a

/-- A plane is programming or erasing. -/
def planeBusy (s : State) (pl : Nat) : Bool :=
  (match s.barn.rawBusy with | some (e, a, _) => norPlane (rawAddr e a) == pl | none => false) ||
  (pl == 1 && (s.barn.jobHand.isSome || !s.barn.erasing.isEmpty))

/-- The program of the page buffer begins. -/
def startProgram (s : State) (page : Nat) (words : SMap Word) : State :=
  (s.mapBarn (fun b => { b with rawBusy := some (false, page, words), page := none })).setFld F.barnRawCtlBusy 1

/-- RAW_FLUSH: the page buffer is programmed; while an operation is in hand GO is ignored (log 16). -/
def rawFlush (s : State) : State :=
  if s.barn.rawBusy.isSome then s
  else match s.barn.page with
    | some (p, w) => startProgram s p w
    | none => startProgram s 0x3FFFF []

def execRawFlush (path : Path) (s : State) : Answer := whenServed s path rawFlush

/-- The INDEX word of BARN on a path. -/
def barnIndexWord (s : State) (path : Path) : Nat :=
  let d : IndexBank := { index := 0x10000000, latch := none, buf := none }
  (smGet d s.regs.banks (pathCode path * 16 + 5)).index.toNat % 2 ^ 24

/-- RAW_ERASE: the 64 KiB block of INDEX.WORD is erased, or the erase is refused with ERR. -/
def rawErase (s : State) (path : Path) : State :=
  if s.barn.rawBusy.isSome then s
  else
    let a := 4 * barnIndexWord s path / 0x10000 * 0x10000
    if rawWritable s a then
      (s.mapBarn (fun b => { b with rawBusy := some (true, a, []) })).setFld F.barnRawCtlBusy 1
    else s.setFld F.barnRawCtlErr 1

def execRawErase (path : Path) (s : State) : Answer := whenServed s path (fun s => rawErase s path)

/-- The page's words programmed into the NOR. -/
def programPage (b : BarnState) (page : Nat) (words : SMap Word) : BarnState :=
  words.foldl (fun b e => norProgram b (256 * page + 4 * e.1) (leBytes 4 e.2.toNat)) b

/-- A page buffer that is full, its last word written while an operation was in hand, is programmed next (R391). -/
def nextPage (s : State) : State :=
  match s.barn.page with
  | some (p, words) => if (smFind words 63).isSome then startProgram s p words else s
  | none => s

/-- RAW_DONE: the operation in hand ends; a failure sets ERR and leaves its bytes undefined (log 16). -/
def finishRaw (s : State) (ok : Bool) : State :=
  match s.barn.rawBusy with
  | none => s
  | some (erase, a, words) =>
    let seed := s.free
    let s := s.mapBarn (fun b =>
      let b := { b with rawBusy := none }
      if ok then (if erase then norErase b a 0x10000 else programPage b a words)
      else if erase then norUndefined b seed a 0x10000
      else words.foldl (fun b e => norUndefined b seed (256 * a + 4 * e.1) 4) b)
    let s := s.setFld F.barnRawCtlBusy 0
    let s := if ok then s else (s.setFld F.barnRawCtlErr 1).freshen
    nextPage (raise s 930)

def execRawDone (ok : Bool) (s : State) : Answer := whenUp s (fun s => finishRaw s ok)

/-! The tables behind BARN.INDEX and BARN.DATA (R390). -/

/-- A word of a BARN table, and whether the read is refused. -/
def barnRead (s : State) (table k : Nat) : Word × Bool :=
  if table = 0 then
    if planeBusy s (norPlane (4 * k)) then (0, true) else (leWord (norBytes s.barn (4 * k) 4), false)
  else if table = 1 then (smGet (0 : Word) s.barn.table1 k, false)
  else (smGet (0 : Word) s.barn.table2 k, false)

/-- Words of a BARN table; 0 for a TABLE that does not exist. -/
def barnTableWords (table : Nat) : Nat := if table = 0 then 16777216 else if table ≤ 2 then 60 else 0

/-- A write into the page buffer; a word of another page starts the buffer anew (log 16). -/
def pageWrite (s : State) (k : Nat) (w : Word) : State :=
  let p := k / 64
  let words := match s.barn.page with
    | some (p', m) => if p' = p then m else []
    | none => []
  let words := smPut words (k % 64) w
  if k % 64 = 63 && s.barn.rawBusy.isNone then startProgram s p words
  else s.mapBarn (fun b => { b with page := some (p, words) })

/-- A write to a BARN table is accepted; while a program is in hand, or a full page waits for its program behind an erase, only for
words of that page (R391). -/
def barnWritable (s : State) (table k : Nat) : Bool :=
  if table = 0 then
    rawWritable s (4 * k) &&
    (match s.barn.rawBusy with | some (e, a, _) => e || a == k / 64 | none => true) &&
    (match s.barn.page with | some (p, words) => (smFind words 63).isNone || p == k / 64 | none => true)
  else table == 1

/-- An accepted write to a BARN table. -/
def barnWrite (s : State) (table k : Nat) (w : Word) : State :=
  if table = 0 then pageWrite s k w
  else s.mapBarn (fun b => { b with table1 := smSet 0 b.table1 k w })

/-! Start of the barn (R388, R401). -/

/-- A bank header is right (R387): MAGIC, HCRC, GEN and the lengths, and the boot image's CRC. -/
def bankBase (k : Nat) : Nat := 0x1000000 * k
def headerAt (k : Nat) : Nat := bankBase k + 0xFFF000
def partOffset (i : Nat) : Nat := nth 0 [0, 0x400000, 0xC00000, 0xD00000] i
def partMax (i : Nat) : Nat := nth 0 [0x400000, 0x800000, 0x100000, 0x100000] i
def partLen (b : BarnState) (k i : Nat) : Nat := norNat b (headerAt k + 8 + 8 * i) 4
def partCrc (b : BarnState) (k i : Nat) : Nat := norNat b (headerAt k + 12 + 8 * i) 4
def partBytes (b : BarnState) (k i : Nat) : List Byte := norBytes b (bankBase k + partOffset i) (partLen b k i)
def partGood (b : BarnState) (k i : Nat) : Bool := crc32c (partBytes b k i) == partCrc b k i
def bankGen (b : BarnState) (k : Nat) : Nat := norNat b (headerAt k + 4) 4

def bankValid (b : BarnState) (k : Nat) : Bool :=
  norNat b (headerAt k) 4 == 0x4B4E4142 && bankGen b k != 0xFFFFFFFF &&
  crc32c (norBytes b (headerAt k) 40) == norNat b (headerAt k + 40) 4 &&
  [0, 1, 2, 3].all (fun i => partLen b k i ≤ partMax i) && partGood b k 0

/-- The bank that the start sequence selects: the valid one with the higher GEN, bank A on a tie. -/
def selectBank (b : BarnState) : Option Nat :=
  match bankValid b 0, bankValid b 1 with
  | false, false => none
  | true, false => some 0
  | false, true => some 1
  | true, true => some (if bankGen b 0 < bankGen b 1 then 1 else 0)

/-- The records of a sector from an offset on, and where the first byte after them stands. -/
def sectorRecords (b : BarnState) (j : Nat) : Nat → Nat → List (Nat × Nat × List Byte) × Nat
  | 0, off => ([], off)
  | n + 1, off =>
    let a := sectorAddr j + off
    let len := norNat b (a + 8) 2
    if off + 16 ≤ 4096 && norNat b a 2 == 0x5A4A && len ≤ 240 && off + recordSize len ≤ 4096 &&
       crc32c (norBytes b a (10 + len)) == norNat b (a + 10 + len) 4 then
      let r := sectorRecords b j n (off + recordSize len)
      ((norNat b (a + 6) 2, norNat b (a + 2) 4, norBytes b (a + 10) len) :: r.1, r.2)
    else ([], off)

/-- The header bytes of a sector are erased. -/
def headerErased (b : BarnState) (j : Nat) : Bool := !anyProgrammed b (sectorAddr j) (sectorAddr j + 16)

/-- A record enters the key index: the highest SEQ of a key is current. -/
def indexRecord (j : Nat) (b : BarnState) (r : Nat × Nat × List Byte) : BarnState :=
  let b := { b with copies := b.copies ++ [(r.1, r.2.1, j)] }
  if keySeq b r.1 ≤ r.2.1 then { b with cur := smSet (0, [], 0) b.cur r.1 (r.2.1, r.2.2, j) } else b

/-- A sector that is OPEN, FULL or COMPACTING enters the index. -/
def indexSector (b : BarnState) (j : Nat) : BarnState :=
  if headerValid b j && 1 ≤ sectorState b j && sectorState b j < 8 then
    let r := sectorRecords b j 255 16
    let b := r.1.foldl (indexRecord j) b
    { b with fill := smSet 0 b.fill j r.2 }
  else b

/-- The erase count of a sector as its header gives it; ERASED and unreadable headers give none (R392). -/
def readErases (b : BarnState) (j : Nat) : BarnState :=
  if headerValid b j && sectorState b j != 0 then { b with erases := smSet 0 b.erases j (norNat b (sectorAddr j + 4) 4) } else b

/-- The journal is read at step 2: the key index, erase counts, and the position of the fault log. -/
def readJournal (b : BarnState) : BarnState :=
  let b := { b with cur := [], copies := [], fill := [], erases := [], jobs := [], jobHand := none, readKey := none,
                    failed := [], erasing := [], page := none, rawBusy := none, indexed := true }
  let b := sectors.foldl readErases (sectors.foldl indexSector b)
  let top := topErases b
  let unknown := sectors.filter (fun j => !(headerValid b j && sectorState b j != 0))
  unknown.foldl (fun b j => { b with erases := smSet 0 b.erases j top }) b

/-- The OPEN sector with the highest SSEQ, of those that the journal is read with. -/
def topOpen (b : BarnState) : Option Nat :=
  (sectors.filter (inState b 1 1)).foldl (fun best j =>
    match best with
    | none => some j
    | some i => if norNat b (sectorAddr i + 8) 4 < norNat b (sectorAddr j + 8) 4 then some j else some i) none

/-- An OPEN sector with bytes after its last valid record, or one other than `top`, is programmed FULL (R401). -/
def closeOpen (top : Option Nat) (s : State) (j : Nat) : State :=
  if inState s.barn 1 1 j then
    let torn := anyProgrammed s.barn (sectorAddr j + smGet 0 s.barn.fill j) (sectorAddr j + 4096)
    let s := if torn then raise s 934 else s
    if torn || top != some j then s.mapBarn (fun b => programState b j 0xFC) else s
  else s

/-- The entries of the fault log that stand: index and LSEQ. -/
def flogEntries (b : BarnState) : List (Nat × Nat) :=
  b.nor.filterMap (fun c =>
    if flogBase ≤ c.1 && c.1 < flogBase + 0x40000 && (c.1 - flogBase) % 32 == 0 &&
       norNat b c.1 2 == 0x4C46 && crc32c (norBytes b c.1 28) == norNat b (c.1 + 28) 4 then
      some ((c.1 - flogBase) / 32, norNat b (c.1 + 4) 4) else none)

/-- The fault log's position: after the entry with the highest LSEQ. -/
def readFlog (s : State) : State :=
  let top := (flogEntries s.barn).foldl (fun (m : Nat × Nat) e => if m.2 < e.2 then (e.1 + 1, e.2) else m) (0, 0)
  (s.mapBarn (fun b => { b with logFill := top.1 % 8192 })).setFld F.barnFlogSeqLseq top.2

/-- The fault summary's counts as the journal holds them. -/
def readSummary (b : BarnState) : BarnState :=
  let p := (smGet (0, [], 0) b.cur 4097).2.1
  { b with summary := (List.range 5).map (fun i => leAt p (4 * i) 4), sumDirty := false,
           worn := decide (sectorsInUse b < 32) }

/-- Step 2 of the start sequence for the journal and the fault log. -/
def startBarn (s : State) : State :=
  let s := s.mapBarn readJournal
  readFlog ((s.each sectors (closeOpen (topOpen s.barn))).mapBarn readSummary)

/-- After step 8 a sector whose header is not a valid one, or whose header is erased while another byte is not, is erased again
(R401). -/
def resumeSector (b : BarnState) (j : Nat) : BarnState :=
  let st := sectorState b j
  if (headerErased b j && anyProgrammed b (sectorAddr j) (sectorAddr j + 4096)) ||
     (!headerErased b j && (!headerValid b j || st == 0) && st != 8) then
    { b with erasing := b.erasing ++ [j] }
  else b

/-- The writer keeps the fault-log sector after the one it fills erased (R403): one whose erase was abandoned is erased again. -/
def resumeFlog (b : BarnState) : BarnState :=
  let j := (b.logFill + 127) / 128 % 64
  if anyProgrammed b (flogBase + 4096 * j) (flogBase + 4096 * (j + 1)) then { b with erasing := b.erasing ++ [128 + j] } else b

/-- The barn after step 8 of the start sequence (R401): the compactions of COMPACTING sectors go on as the writer comes free. -/
def resumeBarn (s : State) : State := goOn (s.mapBarn (fun b => resumeFlog (sectors.foldl resumeSector b)))

/-- The record in hand fails to finish: the bytes that it was to fill are undefined (R51, R402). -/
def tearRecord (s : State) : State :=
  match s.barn.jobHand with
  | some x =>
    s.mapBarn (fun b =>
      let n := recordSize x.payload.length
      let b := makeRoom { b with jobHand := none } n
      match openSector b with
      | some j => if fitsOpen b n then norUndefined b s.free (sectorAddr j + smGet 0 b.fill j) n else b
      | none => b)
  | none => s

/-- A confirmed line loss, or another reset (log 17): the record in hand is finished where `finished` says so, erases in hand are
abandoned and leave their sectors undefined, a raw operation in hand likewise (R402). -/
def stopBarn (s : State) (finished : Bool) : State :=
  let s := s.mapBarn (fun b => { b with jobs := [] })
  let s := match s.barn.jobHand with
    | some j => if finished && hasRoom s.barn (recordSize j.payload.length) then writeHand s j else tearRecord s
    | none => s
  let seed := s.free
  let s := s.mapBarn (fun b =>
    let b := b.erasing.foldl (fun b j =>
      norUndefined b seed (if j < 128 then sectorAddr j else flogBase + 4096 * (j - 128)) 4096) b
    let b := match b.rawBusy with
      | some (true, a, _) => norUndefined b seed a 0x10000
      | some (false, p, words) => words.foldl (fun b (e : Nat × Word) => norUndefined b seed (256 * p + 4 * e.1) 4) b
      | none => b
    { b with erasing := [], rawBusy := none, page := none, jobHand := none, failed := [] })
  s.freshen

end Sys2Proof.Machine
end

