-- ==== Sys2Proof/Machine/Aes.lean ====
section
/-! DEFINITION. AES-128 (FIPS 197) and its CMAC (NIST SP 800-38B), which spec 04, R87 names for the integrity tag.
The two standards are cited, not given, by the manual: PRESUMED (log 6). -/

namespace Sys2Proof.Machine

/-! The S-box of FIPS 197, in four parts. -/
def sbox0 : List Nat := [
  99, 124, 119, 123, 242, 107, 111, 197, 48, 1, 103, 43, 254, 215, 171, 118,
  202, 130, 201, 125, 250, 89, 71, 240, 173, 212, 162, 175, 156, 164, 114, 192,
  183, 253, 147, 38, 54, 63, 247, 204, 52, 165, 229, 241, 113, 216, 49, 21,
  4, 199, 35, 195, 24, 150, 5, 154, 7, 18, 128, 226, 235, 39, 178, 117 ]

def sbox1 : List Nat := [
  9, 131, 44, 26, 27, 110, 90, 160, 82, 59, 214, 179, 41, 227, 47, 132,
  83, 209, 0, 237, 32, 252, 177, 91, 106, 203, 190, 57, 74, 76, 88, 207,
  208, 239, 170, 251, 67, 77, 51, 133, 69, 249, 2, 127, 80, 60, 159, 168,
  81, 163, 64, 143, 146, 157, 56, 245, 188, 182, 218, 33, 16, 255, 243, 210 ]

def sbox2 : List Nat := [
  205, 12, 19, 236, 95, 151, 68, 23, 196, 167, 126, 61, 100, 93, 25, 115,
  96, 129, 79, 220, 34, 42, 144, 136, 70, 238, 184, 20, 222, 94, 11, 219,
  224, 50, 58, 10, 73, 6, 36, 92, 194, 211, 172, 98, 145, 149, 228, 121,
  231, 200, 55, 109, 141, 213, 78, 169, 108, 86, 244, 234, 101, 122, 174, 8 ]

def sbox3 : List Nat := [
  186, 120, 37, 46, 28, 166, 180, 198, 232, 221, 116, 31, 75, 189, 139, 138,
  112, 62, 181, 102, 72, 3, 246, 14, 97, 53, 87, 185, 134, 193, 29, 158,
  225, 248, 152, 17, 105, 217, 142, 148, 155, 30, 135, 233, 206, 85, 40, 223,
  140, 161, 137, 13, 191, 230, 66, 104, 65, 153, 45, 15, 176, 84, 187, 22 ]

/-- The S-box. -/
def sbox (b : Nat) : Nat :=
  if b < 64 then nth 0 sbox0 b else if b < 128 then nth 0 sbox1 (b - 64)
  else if b < 192 then nth 0 sbox2 (b - 128) else nth 0 sbox3 (b - 192)

/-- Multiplication by x in the field of AES. -/
def xtime (b : Nat) : Nat := if b < 128 then 2 * b else (2 * b) % 256 ^^^ 0x1B

/-- Two blocks of 16 bytes XORed. -/
def xorBlock (a b : List Nat) : List Nat := List.zipWith (· ^^^ ·) a b

/-- The next round key of AES-128. -/
def nextKey (k : List Nat) (rcon : Nat) : List Nat :=
  let t := [sbox (nth 0 k 13) ^^^ rcon, sbox (nth 0 k 14), sbox (nth 0 k 15), sbox (nth 0 k 12)]
  let w0 := xorBlock (k.take 4) t
  let w1 := xorBlock ((k.drop 4).take 4) w0
  let w2 := xorBlock ((k.drop 8).take 4) w1
  let w3 := xorBlock ((k.drop 12).take 4) w2
  w0 ++ w1 ++ w2 ++ w3

/-- ShiftRows on a block held column by column. -/
def shiftRows (s : List Nat) : List Nat :=
  [0, 5, 10, 15, 4, 9, 14, 3, 8, 13, 2, 7, 12, 1, 6, 11].map (nth 0 s)

/-- MixColumns of one column. -/
def mixColumn (c : List Nat) : List Nat :=
  let a := nth 0 c 0; let b := nth 0 c 1; let d := nth 0 c 2; let e := nth 0 c 3
  [ xtime a ^^^ (xtime b ^^^ b) ^^^ d ^^^ e, a ^^^ xtime b ^^^ (xtime d ^^^ d) ^^^ e,
    a ^^^ b ^^^ xtime d ^^^ (xtime e ^^^ e), (xtime a ^^^ a) ^^^ b ^^^ d ^^^ xtime e ]

/-- MixColumns. -/
def mixColumns (s : List Nat) : List Nat :=
  mixColumn (s.take 4) ++ mixColumn ((s.drop 4).take 4) ++ mixColumn ((s.drop 8).take 4) ++ mixColumn (s.drop 12)

/-- The rounds of AES-128 after the first key addition; the last round has no MixColumns. -/
def aesRounds : List Nat → List Nat → List Nat → List Nat
  | [], _, s => s
  | [r], k, s => xorBlock (shiftRows (s.map sbox)) (nextKey k r)
  | r :: rs, k, s => aesRounds rs (nextKey k r) (xorBlock (mixColumns (shiftRows (s.map sbox))) (nextKey k r))

/-- AES-128 of one block. -/
def aes128 (key block : List Nat) : List Nat :=
  aesRounds [1, 2, 4, 8, 16, 32, 64, 128, 27, 54] key (xorBlock block key)

/-- Doubling of a block in the field of CMAC. -/
def cmacDouble (b : List Nat) : List Nat :=
  let v := b.foldl (fun a x => a * 256 + x) 0
  let d := (2 * v) % 2 ^ 128
  let d := if v.testBit 127 then d ^^^ 0x87 else d
  (leBytes 16 d).reverse.map BitVec.toNat

/-- The chain of CMAC over the blocks of a message; `k1`, `k2` mask a whole or a padded last block. -/
def cmacChain (key k1 k2 : List Nat) : Nat → List Nat → List Nat → List Nat
  | 0, _, x => x
  | n + 1, m, x =>
    if m.length ≤ 16 then
      let last :=
        if m.length = 16 then xorBlock m k1
        else xorBlock (m ++ 0x80 :: List.replicate (15 - m.length) 0) k2
      aes128 key (xorBlock x last)
    else cmacChain key k1 k2 n (m.drop 16) (aes128 key (xorBlock x (m.take 16)))

/-- AES-128 CMAC, 16 bytes in output order. -/
def cmac (key msg : List Nat) : List Nat :=
  let k1 := cmacDouble (aes128 key (List.replicate 16 0))
  cmacChain key k1 (cmacDouble k1) (msg.length / 16 + 1) msg (List.replicate 16 0)

/-- The integrity tag of R87: the 8 most significant bytes of the CMAC, sent in output order, as a little-endian number. -/
def cmacTag (key : List Byte) (msg : List Byte) : BitVec 64 :=
  BitVec.ofNat 64 (leNat (((cmac (key.map BitVec.toNat) (msg.map BitVec.toNat)).take 8).map (BitVec.ofNat 8)))

end Sys2Proof.Machine
end

