-- ==== Sys2Proof/Machine/Send.lean ====
section
/-! DEFINITION. What the Haywain agent sends (spec 04): frames and their tag, the send window, READ_REQs, WRITEs, and the
records that are written into host rings: completions, pipe records and fault records. -/

namespace Sys2Proof.Machine

/-! Frame types (R88). -/
def tyOpen : Nat := 0x01
def tyOpenAck : Nat := 0x02
def tyClose : Nat := 0x03
def tyAck : Nat := 0x04
def tyKeepalive : Nat := 0x05
def tyDoorbell : Nat := 0x10
def tyReadReq : Nat := 0x11
def tyReadResp : Nat := 0x12
def tyWrite : Nat := 0x13
def tyRegRd : Nat := 0x20
def tyRegRdResp : Nat := 0x21
def tyRegWr : Nat := 0x22
def tyRegWrResp : Nat := 0x23
def tyWake : Nat := 0x30

/-- The session key: byte k is in KEY[k/4] (R87). -/
def keyBytes (s : State) : List Byte :=
  [0, 1, 2, 3].flatMap (fun i => leBytes 4 (smGet (0 : Word) s.regs.keys (A.ringKey i)).toNat)

/-- All four key words have been written (R89). -/
def keyComplete (s : State) : Bool := [0, 1, 2, 3].all (fun i => (smFind s.regs.keys (A.ringKey i)).isSome)

/-- The 16 header bytes (R86). -/
def headerBytes (version kind session seq ack length : Nat) (retx : Bool) : List Byte :=
  leBytes 1 version ++ leBytes 1 kind ++ leBytes 2 session ++ leBytes 4 seq ++ leBytes 4 ack ++
  leBytes 2 length ++ leBytes 1 retx.toNat ++ leBytes 1 0

/-- The integrity tag over what R87 covers: the device nonce where one is given, the header, the body. -/
def tagOf (s : State) (nonce : Option (BitVec 64)) (header body : List Byte) : BitVec 64 :=
  let pre := match nonce with
    | none => []
    | some n => leBytes 8 n.toNat
  cmacTag (keyBytes s) (pre ++ header ++ body)

/-- The link that the module sends on (R113). -/
def activeLink (s : State) : Link := if s.flag F.ringLinkStatActive then .b else .a

/-- The state that sends on a link. -/
def setActive (s : State) (l : Link) : State := s.setFld F.ringLinkStatActive (linkIdx l)

/-- A link that frames can go out on: enabled, not retired, up and awake. -/
def linkUsable (s : State) (l : Link) : Bool :=
  linkEnabled s l && !linkRetired s l && !linkAsleep s l && linkIsUp s l

/-! Encapsulation of sent frames (R84, R113). -/

/-- A session as an OPEN reads the control page (R113). -/
def sessAtOpen (s : State) (id : BitVec 16) (dev host : BitVec 64) (l : Link) : Sess :=
  let ip6 := fun (at_ : Nat → Nat) => [0, 1, 2, 3].foldl (fun n i => n + (s.reg (at_ i)).toNat * 2 ^ (32 * i)) 0
  { id := id, devNonce := dev, hostNonce := host, link := l, hwCtl := s.reg A.ringHwCtl,
    port := BitVec.ofNat 16 (s.fld F.ringHwPortUdpPort), keepalive := BitVec.ofNat 16 (s.fld F.ringKeepaliveInterval),
    mac := BitVec.ofNat 48 (s.reg64 A.ringMacLo), hostMac := BitVec.ofNat 48 (s.reg64 A.ringHostMacLo),
    ip4Local := s.reg A.ringIp4Local, ip4Host := s.reg A.ringIp4Host,
    ip6Local := BitVec.ofNat 128 (ip6 A.ringIp6Local), ip6Host := BitVec.ofNat 128 (ip6 A.ringIp6Host),
    hopLimit := s.fld F.ringHopLimitLimit }

/-- The sum of bytes taken as 16-bit words, first byte most significant. -/
def netSum : List Byte → Nat
  | a :: b :: r => 256 * a.toNat + b.toNat + netSum r
  | [a] => 256 * a.toNat
  | [] => 0

/-- The UDP checksum over some bytes (RFC 768): the ones' complement of the ones' complement sum, 0xFFFF for 0. -/
def onesSum (n : Nat) : Nat := if n = 0 then 0 else (n - 1) % 0xFFFF + 1
def udpSum (bs : List Byte) : Nat :=
  let v := 0xFFFF - onesSum (netSum bs)
  if v = 0 then 0xFFFF else v

/-- 16 bits with the most significant byte first. -/
def netBytes16 (n : Nat) : List Byte := [BitVec.ofNat 8 (n / 256), BitVec.ofNat 8 n]

/-- The UDP header with checksum 0 and the payload, after a pseudo header of the two addresses. -/
def udpSummed (src dst : List Byte) (port : Nat) (payload : List Byte) : Nat :=
  let len := 8 + payload.length
  udpSum (src ++ dst ++ netBytes16 17 ++ netBytes16 len ++ netBytes16 port ++ netBytes16 port ++ netBytes16 len ++ [0, 0] ++ payload)

/-- The tag that the module sends with VLAN_EN at 1. -/
def tagOut (hwCtl : Word) : Option Tag :=
  if F.ringHwCtlVlanEn.of hwCtl = 0 then none
  else some { vid := BitVec.ofNat 12 (F.ringHwCtlVid.of hwCtl), pcp := BitVec.ofNat 3 (F.ringHwCtlPcp.of hwCtl) }

/-- What stands around Haywain bytes that a session sends. -/
def wrapOf (c : Sess) (payload : List Byte) : Wrap :=
  let dscp := BitVec.ofNat 6 (F.ringHwCtlDscp.of c.hwCtl)
  let net := match F.ringHwCtlTransport.of c.hwCtl with
    | 0 => .udp4 c.ip4Local c.ip4Host c.port dscp
        (BitVec.ofNat 16 (udpSummed (leBytes 4 c.ip4Local.toNat) (leBytes 4 c.ip4Host.toNat) c.port.toNat payload))
    | 1 => .udp6 c.ip6Local c.ip6Host c.port dscp
        (BitVec.ofNat 16 (udpSummed (leBytes 16 c.ip6Local.toNat) (leBytes 16 c.ip6Host.toNat) c.port.toNat payload))
    | _ => .etherType 0x88B5
  { srcMac := c.mac, dstMac := c.hostMac, tag := tagOut c.hwCtl, net := net }

/-- A frame that carries so many bytes is counted on the link that sends it (R407). -/
def countTx (s : State) (l : Link) (bytes : Nat) : State :=
  (s.perfAdd (32 + 4 * linkIdx l) bytes).perfAdd (34 + 4 * linkIdx l) 1

/-- A frame goes out on the sending link with the current ACK value (R94). -/
def transmit (s : State) (kind seq : Nat) (body : List Byte) (retx : Bool) : State :=
  match s.hw.cur with
  | none => s
  | some c =>
    let h := headerBytes 1 kind c.id.toNat seq s.hw.rxLast.toNat body.length retx
    let t := tagOf s (some c.devNonce) h body
    let s := countTx s (activeLink s) body.length
    let bs := h ++ body ++ leBytes 8 t.toNat
    let s := s.emit (.frame (activeLink s) (wrapOf c bs) (BitVec.ofNat 8 kind) bs)
    { s with hw := { s.hw with ackOwed := false } }

/-- An unsequenced frame carries the next SEQ without consuming it (R88). -/
def sendUnseq (s : State) (kind : Nat) (body : List Byte) : State := transmit s kind s.hw.txNext.toNat body false

/-- The first waiting frame is sent: it takes the next SEQ and waits for its acknowledgement. -/
def sendNext (s : State) : State :=
  match s.hw.waiting with
  | [] => s
  | f :: r =>
    let f := { f with seq := s.hw.txNext }
    let s := { s with hw := { s.hw with waiting := r, unacked := s.hw.unacked ++ [f],
                                        txNext := s.hw.txNext + 1 } }
    transmit s f.kind.toNat f.seq.toNat f.body false

/-- Send waiting frames while fewer than 64 are unacknowledged (R94). -/
def pumpFrames : Nat → State → State
  | 0, s => s
  | n + 1, s => if s.hw.waiting.isEmpty || 64 ≤ s.hw.unacked.length then s else pumpFrames n (sendNext s)

/-- The module sends on the other link from now on where that one carries frames and its own does not (R344; log 63). -/
def ontoUsable (s : State) : State :=
  let o := linkOther (activeLink s)
  if !linkUsable s (activeLink s) && linkUsable s o then setActive s o else s

/-- Send what waits: on the sending link, on the other one while the sending link sleeps, or wake a link (R94, R344). -/
def pump (s : State) : State :=
  if s.hw.waiting.isEmpty || !sessionOpen s then s
  else
    let t := ontoUsable s
    if linkUsable t (activeLink t) then pumpFrames t.hw.waiting.length t else wakeSome s

/-- A sequenced frame enters the send order. Without a session there is nobody to send it to. -/
def sendSeq (s : State) (kind : Nat) (body : List Byte) (readId : Option (BitVec 16)) : State :=
  if sessionOpen s then
    pump { s with hw := { s.hw with waiting := s.hw.waiting ++
      [{ kind := BitVec.ofNat 8 kind, seq := 0, body := body, retx := false, sends := 0, readId := readId }] } }
  else s

/-- The agent has room in its send window (R94, R336). -/
def windowRoom (s : State) : Bool := decide (s.hw.unacked.length + s.hw.waiting.length < 64)

/-- A record can issue: a session is OPEN and the window has room (R92, R336). -/
def canIssue (s : State) : Bool := sessionOpen s && windowRoom s

/-- One WRITE frame of at most 1,024 bytes (R88). -/
def writeFrame (s : State) (addr : Nat) (bs : List Byte) : State :=
  sendSeq s tyWrite (leBytes 8 addr ++ leBytes 2 bs.length ++ leBytes 2 0 ++ bs) none

/-- Bytes written to host memory in WRITEs of at most 1,024 bytes (R112). -/
def writePieces : Nat → State → Nat → List Byte → State
  | 0, s, _, _ => s
  | n + 1, s, a, bs =>
    if bs.isEmpty then s
    else writePieces n (writeFrame s a (bs.take 1024)) (a + (bs.take 1024).length) (bs.drop 1024)

/-- Bytes written to host memory. -/
def writeHost (s : State) (a : Nat) (bs : List Byte) : State := writePieces (bs.length / 1024 + 1) s a bs

/-! READ_REQs (R88, R112). -/

/-- Send READ_REQs that wait while fewer than 32 are outstanding. -/
def sendRead (s : State) (r : ReadReq) : State :=
  if r.sent || 32 ≤ (s.hw.reads.filter (·.sent)).length || !sessionOpen s then s
  else
    let rs := s.hw.reads.map (fun x => if x.id = r.id then { x with sent := true } else x)
    let s := { s with hw := { s.hw with reads := rs } }
    sendSeq s tyReadReq (leBytes 2 r.id.toNat ++ leBytes 2 r.len ++ leBytes 8 r.addr) (some r.id)

def pumpReads (s : State) : State := s.each s.hw.reads sendRead

/-- A READ_REQ of 1 to 1,024 bytes is wanted for a purpose. -/
def readHost (s : State) (addr len : Nat) (p : ReadFor) : State :=
  let r : ReadReq := { id := s.hw.nextRead, addr := addr, len := len, for_ := p, sent := false }
  pumpReads { s with hw := { s.hw with reads := s.hw.reads ++ [r], nextRead := s.hw.nextRead + 1 } }

/-! Completion records (R107 to R110). -/

/-- log2 of a ring's entries, 4 to 16, as its RESET took it (R114). -/
def ringSizeLog (s : State) (n : Nat) : Nat := max 4 (min 16 ((F.ringCfgSize n).of (s.ring n).cfg))

/-- A ring's entries. -/
def ringSize (s : State) (n : Nat) : Nat := 2 ^ ringSizeLog s n

/-- The state of a ring (R114): 0 IDLE, 1 RUN, 2 PAUSED, 3 STOPPED, 4 RETIRED, 5 CFG_ERR. -/
def ringState (s : State) (n : Nat) : Nat := s.fld (F.ringStatState n)

/-- The completion ring is full of records that the host has not consumed (R110). -/
def cplFull (s : State) (n : Nat) : Bool :=
  dist (s.reg (A.ringCplPi n)) (s.reg (A.ringHostCi n)) == ringSize s n

/-- The PHASE of a free-running index (R107). -/
def phaseOf (index size : Nat) : Nat := (index / size + 1) % 2

/-- A unit's retirement record has not been written yet (R376). -/
def recordHeld (s : State) (u : BitVec 8) : Bool := s.fault.held.any (fun r => r.unit == u && r.kind == 1)

/-- A completion may be issued now (R109, R110, R376). -/
def cplReady (s : State) (n : Nat) (c : Cpl) : Bool :=
  c.ready && canIssue s && !cplFull s n &&
  (match c.dep with | some u => !recordHeld s u | none => true)

/-- One completion record is written; the ring pauses when its completion ring is full (R107, R110). -/
def issueCpl (s : State) (n : Nat) (c : Cpl) : State :=
  let pi := (s.reg (A.ringCplPi n)).toNat
  let sz := ringSize s n
  let bs := leBytes 4 c.index.toNat ++ leBytes 2 c.tag.toNat ++ leBytes 1 c.status.toNat ++
            leBytes 1 (phaseOf pi sz + 2 * c.chain.toNat) ++ leBytes 8 c.detail.toNat
  let s := writeHost s ((s.ring n).cq + 16 * (pi % sz)) bs
  let s := s.setReg (A.ringCplPi n) (BitVec.ofNat 32 (pi + 1))
  let s := if (F.ringCfgCplEvt n).of (s.ring n).cfg ≠ 0 then raise s (192 + n) else s
  if cplFull s n && ringState s n == 1 then s.setFld (F.ringStatState n) 2 else s

/-- Issue a ring's held completions from the oldest, in descriptor order (R25, R109). -/
def issueHeld (n : Nat) : Nat → State → State
  | 0, s => s
  | k + 1, s =>
    match (s.ring n).held with
    | [] => s
    | c :: r => if cplReady s n c then issueHeld n k (issueCpl (s.setRing n { s.ring n with held := r }) n c) else s

def drainRing (s : State) (n : Nat) : State := issueHeld n (s.ring n).held.length s

/-- A number for the descriptor that is acted on next. -/
def takeKey (s : State) : Nat × State := (s.hw.serial, { s with hw := { s.hw with serial := s.hw.serial + 1 } })

/-- A descriptor is acted on whose completion comes later: its place in the ring's order is kept. -/
def openCpl (s : State) (n key : Nat) (index : BitVec 32) (tag : BitVec 16) (chain : Bool) : State :=
  s.setRing n { s.ring n with held := (s.ring n).held ++
    [{ key := key, ready := false, index := index, tag := tag, status := 0, chain := chain, detail := 0, dep := none }] }

/-- A descriptor finishes: its completion takes its place, or none is written on success with NOCPL (R101). -/
def closeCpl (s : State) (n key : Nat) (status : Nat) (detail : BitVec 64) (nocpl : Bool) (dep : Option (BitVec 8)) : State :=
  let ring := s.ring n
  let held :=
    if nocpl && status ≤ 1 then ring.held.filter (fun c => c.key != key)
    else ring.held.map (fun c => if c.key = key then
      { c with ready := true, status := BitVec.ofNat 8 status, detail := detail, dep := dep } else c)
  drainRing (s.setRing n { ring with held := held }) n

/-- A descriptor finishes at once with a status. -/
def complete (s : State) (n : Nat) (index : BitVec 32) (h : DescHdr) (chain : Bool) (status : Nat) (detail : BitVec 64) : State :=
  let (k, s) := takeKey s
  closeCpl (openCpl s n k index h.tag chain) n k status detail h.nocpl none

/-! Pipe records (R111). -/

/-- log2 of a pipe record ring's entries, as its enable took it. -/
def precSize (s : State) (p : Nat) : Nat := 2 ^ smGet 4 s.precSize p

/-- A pipe record ring is full. -/
def precFull (s : State) (p : Nat) : Bool :=
  dist (s.reg (A.ringPrecWr p)) (s.reg (A.ringPrecHostCi p)) == precSize s p

/-- The records that a pipe's ring holds back. -/
def precHeldOf (s : State) (p : Nat) : List (List Byte) := smGet [] s.precHeld p

/-- The held records of a pipe and their count (R111, R114). -/
def setPrecHeld (s : State) (p : Nat) (l : List (List Byte)) : State :=
  ({ s with precHeld := smSet [] s.precHeld p l }).setFld (F.ringPrecHeldCount p) (min l.length 0x7F)

/-- One pipe record is written: 16 bytes with PHASE at byte 7, bit 0. -/
def issuePrec (s : State) (p : Nat) (rec : List Byte) : State :=
  let wr := (s.reg (A.ringPrecWr p)).toNat
  let sz := precSize s p
  let b7 := BitVec.ofNat 8 ((nth 0 rec 7).toNat / 2 * 2 + phaseOf wr sz)
  let s := writeHost s (s.reg64 (A.ringPrecLo p) / 16 * 16 + 16 * (wr % sz)) (rec.set 7 b7)
  s.setReg (A.ringPrecWr p) (BitVec.ofNat 32 (wr + 1))

/-- Issue held pipe records, in order. -/
def issuePrecs (p : Nat) : Nat → State → State
  | 0, s => s
  | k + 1, s =>
    match precHeldOf s p with
    | [] => s
    | r :: l =>
      if canIssue s && !precFull s p && s.flag (F.ringPrecCfgEn p) then
        issuePrecs p k (issuePrec (setPrecHeld s p l) p r)
      else s

def drainPrec (s : State) (p : Nat) : State := issuePrecs p (precHeldOf s p).length s

/-- A pipe record arises. With EN at 0 none is written; event 224 + p occurs when 64 are held (R111). -/
def pipeRecord (s : State) (p : Nat) (rec : List Byte) : State :=
  if s.flag (F.ringPrecCfgEn p) then
    let s := drainPrec (setPrecHeld s p (precHeldOf s p ++ [rec])) p
    if (precHeldOf s p).length = 64 then raise s (224 + p) else s
  else s

/-! Fault records (spec 15, R375). -/

/-- Entries of the fault record ring. -/
def rrecRing (s : State) : Nat := 2 ^ s.fault.rrecSize

/-- The fault record ring is full. -/
def rrecFull (s : State) : Bool := dist (s.reg A.faultRrecWr) (s.reg A.faultRrecHostCi) == rrecRing s

/-- How many records are held: all that wait while no session is OPEN, else those for which the ring has no room (R375). -/
def heldRecords (s : State) : Nat :=
  let room := if sessionOpen s then rrecRing s - dist (s.reg A.faultRrecWr) (s.reg A.faultRrecHostCi) else 0
  s.fault.held.length - room

/-- FAULT.RREC_HELD and its level source follow the held records. -/
def noteHeld (s : State) : State :=
  reportCond (s.setFld F.faultRrecHeldCount (min (heldRecords s) 64)) 35 (heldRecords s != 0)

end Sys2Proof.Machine
end

