-- ==== Sys2Proof/Machine/Timing.lean ====
section
/-! DEFINITION. Pipe timing and the time base (spec 10): the raster's figures, the limits of R254 to R257, R260, R268 and
R271 that a strobe is checked against, and the gPTP commands. A view is a reading of the registers: the live copy, or the
copy that a strobe would put in force. -/

namespace Sys2Proof.Machine

/-- A reading of the register space by byte address. -/
abbrev View := Nat → Word

/-- A field of a view. -/
def vf (v : View) (f : Fld) : Nat := bits (v f.addr) f.hi f.lo

/-! The raster (R253). -/

def hActive (v : View) (p : Nat) : Nat := vf v (F.pipeHtime0Hactive p)
def hTotal (v : View) (p : Nat) : Nat :=
  hActive v p + vf v (F.pipeHtime0Hfp p) + vf v (F.pipeHtime1Hsync p) + vf v (F.pipeHtime1Hbp p)
def vActive (v : View) (p : Nat) : Nat := vf v (F.pipeVtime0Vactive p)
def vTotal (v : View) (p : Nat) : Nat :=
  vActive v p + vf v (F.pipeVtime0Vfp p) + vf v (F.pipeVtime1Vsync p) + vf v (F.pipeVtime1Vbp p)

/-- COMMIT_MARGIN: a value below 8 is taken as 8 (R274). -/
def marginOf (v : View) (p : Nat) : Nat := max 8 (vf v (F.pipeCommitMargin p))

/-- The line of the commit deadline. -/
def deadlineLine (v : View) (p : Nat) : Nat := vActive v p - marginOf v p

/-- Furrows of a pipe (R8). -/
def furrows (v : View) (p : Nat) : Nat := (vActive v p + 7) / 8

def pipeRuns (v : View) (p : Nat) : Bool := vf v (F.pipeCtlRun p) != 0
def stookOf (v : View) (p : Nat) : Nat := vf v (F.pipeCtlStook p)
def pllOf (v : View) (p : Nat) : Nat := vf v (F.pipeClkPll p)
def divOf (v : View) (p : Nat) : Nat := vf v (F.pipeClkDiv p)

/-- NDIV, NUM, DEN of a PLL. -/
def pllN (v : View) (n : Nat) : Nat := vf v (F.pipePllCtlNdiv n)
def pllNum (v : View) (n : Nat) : Nat := vf v (F.pipePllNumNum n)
def pllDen (v : View) (n : Nat) : Nat := vf v (F.pipePllDenDen n)

/-- The pixel clock F_p in kHz (R255). -/
def pixelKHz (v : View) (p : Nat) : Nat :=
  let n := pllOf v p
  ceilDiv (25000 * (pllN v n * pllDen v n + pllNum v n)) (pllDen v n * divOf v p)

/-- The pipes of a stook, and its leader: the lowest-numbered running pipe (R257). -/
def stookPipes (v : View) (k : Nat) : List Nat := pipes8.filter (fun p => stookOf v p == k)
def stookLeader (v : View) (k : Nat) : Option Nat := (stookPipes v k).find? (pipeRuns v)

/-- The running pipes of a view. -/
def runningPipes (v : View) : List Nat := pipes8.filter (pipeRuns v)

/-! Limits (R254 to R257). -/

def within (lo hi x : Nat) : Bool := decide (lo ≤ x) && decide (x ≤ hi)

/-- The timing of a running pipe is inside R254; COMMIT_MARGIN counts as it is stored. -/
def timingOk (v : View) (p : Nat) : Bool :=
  within 64 8192 (hActive v p) && within 1 4095 (vf v (F.pipeHtime0Hfp p)) &&
  within 1 4095 (vf v (F.pipeHtime1Hsync p)) && within 1 4095 (vf v (F.pipeHtime1Hbp p)) &&
  hTotal v p ≤ 16384 &&
  within 8 8192 (vActive v p) && within 1 4095 (vf v (F.pipeVtime0Vfp p)) &&
  within 1 4095 (vf v (F.pipeVtime1Vsync p)) && within 1 4095 (vf v (F.pipeVtime1Vbp p)) &&
  vTotal v p ≤ 16384 && vf v (F.pipeCommitMargin p) < vActive v p

/-- A PLL is enabled and inside its ranges: 1.2 GHz to 2.4 GHz, that is 48 to 96 times REFCLK (R255). -/
def pllOk (v : View) (n : Nat) : Bool :=
  vf v (F.pipePllCtlEn n) != 0 && within 48 96 (pllN v n) && 1 ≤ pllDen v n && pllNum v n < pllDen v n &&
  pllN v n * pllDen v n + pllNum v n ≤ 96 * pllDen v n

/-- The clock of a running pipe (R255, R256). -/
def clockOk (v : View) (p : Nat) : Bool :=
  pllOk v (pllOf v p) && within 2 255 (divOf v p) && pixelKHz v p ≤ 600000

/-- The frame period of a pipe in PLL cycles (R257). -/
def framePeriod (v : View) (p : Nat) : Nat := vTotal v p * hTotal v p * divOf v p

/-- Two running pipes of one stook have the same PLL and the same frame period. -/
def stookOk (v : View) (p q : Nat) : Bool :=
  stookOf v p != stookOf v q || (pllOf v p == pllOf v q && framePeriod v p == framePeriod v q)

/-- The settings of a PLL. -/
def pllSettings (v : View) (n : Nat) : Word × Nat × Nat := (v (A.pipePllCtl n), pllNum v n, pllDen v n)

/-- A change of the settings of a PLL that feeds running pipes of more than one stook is refused (R260): as it feeds them when the
strobe is written. -/
def pllChangeOk (old new : View) (n : Nat) : Bool :=
  pllSettings old n == pllSettings new n ||
  (let fed := pipes8.filter (fun p => pipeRuns old p && pllOf old p == n)
   fed.all (fun p => fed.all (fun q => stookOf old p == stookOf old q)))

/-- The LPE lines of a pipe that holds a timing lie below VTOTAL (R268). -/
def lpeOk (v : View) (p : Nat) : Bool :=
  !timingOk v p || (List.range 4).all (fun k => decide (vf v (F.pipeLpeLine p k) < vTotal v p))

/-- The pipe is the reference pipe of a gate list (R271, R243). -/
def isRefPipe (v : View) (p : Nat) : Bool :=
  (List.range 4).any (fun m => vf v (F.schedPortCfgLen m) != 0 && vf v (F.schedPortCfgRefPipe m) == p)

/-- The values of CAM and STEER_MAX, whether or not the lock is enabled (R274). -/
def lockFieldsOk (v : View) : Bool :=
  pipes8.all (fun p => vf v (F.pipeCamLockCam p) ≤ 5 && vf v (F.pipeCamLockSteerMax p) ≤ 5000)

/-- Camera lock on a pipe, running or not (R271). -/
def camLockOk (v : View) (p : Nat) : Bool :=
  vf v (F.pipeCamLockEn p) == 0 ||
  (stookLeader v (stookOf v p) == some p && vf v (F.pipeTeEn p) == 0 &&
   pipes8.all (fun q => !pipeRuns v q || pllOf v q != pllOf v p || stookOf v q == stookOf v p) &&
   pipes8.all (fun q => !(pipeRuns v q && pllOf v q == pllOf v p && isRefPipe v q)))

/-- A PIPE strobe's own checks for the pipes that run under the new view; `old` is the view in force. -/
def pipeChecks (old new : View) : Bool :=
  let run := runningPipes new
  run.all (fun p => timingOk new p && clockOk new p) && pipes8.all (fun p => lpeOk new p && camLockOk new p) &&
  run.all (fun p => run.all (fun q => stookOk new p q)) &&
  (run.foldl (fun n p => n + pixelKHz new p) 0) ≤ 1200000 &&
  (List.range 4).all (pllChangeOk old new) && lockFieldsOk new

/-- A change of a running pipe is relocking: PLL settings, PLL selection or DIV differ (R260). -/
def relocking (old new : View) (p : Nat) : Bool :=
  pllOf old p != pllOf new p || divOf old p != divOf new p ||
  pllSettings old (pllOf new p) != pllSettings new (pllOf new p)

/-! State of a generator. -/

/-- A pipe's timing generator runs (R259). -/
def generatorRuns (s : State) (p : Nat) : Bool := (s.pipe p).gen != .stopped

/-- The frame in hand is a composed frame that nothing makes black. -/
def draws (s : State) (p : Nat) : Bool := (s.pipe p).gen == .running && (s.pipe p).black == .none

/-- An enabled output group serves the pipe (R276). -/
def hasOutput (s : State) (p : Nat) : Bool :=
  (List.range 8).any (fun g => s.flag (F.laneCfgEn g) && s.fld (F.laneCfgIf g) != 4 && s.fld (F.laneCfgTarget g) == p)

/-- The frame in hand shows pixels (R266): a pipe without an enabled output group composes and shows nothing (R276). -/
def shows (s : State) (p : Nat) : Bool := draws s p && hasOutput s p

/-- PIPE_FAULT of a pipe with its cause (R275): 1 PLL_LOCK, 2 SHEAF_LATE, 3 NO_CAPACITY, 4 LINK_LOST. -/
def pipeFault (s : State) (p cause : Nat) : State := raise (s.setFld (F.pipeStatCause p) cause) (64 + 16 * p + 10)

/-- The state of PIPE.STAT (R274). `down` says that the pipe's link is in RECOVERY or RETIRED, which shows in any frame (R293). -/
def pipeStatState (r : PipeRt) (output down : Bool) : Nat :=
  match r.gen with
  | .stopped => 0
  | .leadIn => 1
  | .running =>
    match r.black with
    | .none => if output && !down then 2 else 4
    | .waitLink => 4
    | _ => if down then 4 else 3

/-- The bus position of a pipe as PIPE.POS reads it (R274). -/
def posWord (s : State) (p : Nat) : Word :=
  let r := s.pipe p
  BitVec.ofNat 32 ((shows s p).toNat * 2 ^ 31 + r.line % 2 ^ 14 * 2 ^ 16 + r.unit % 64)

/-- PLL_LOCKED: the gliding PLL reports lock (R261). -/
def pllLocked (s : State) (n : Nat) : State :=
  let s := s.setFld (F.pipePllStatLocked n) 1
  s.each pipes8 (fun s p =>
    if generatorRuns s p && pllOf s.reg p == n && (s.pipe p).black == .relock then
      s.setPipe p { s.pipe p with locked := true } else s)

def execPllLocked (n : Fin 4) (s : State) : Answer :=
  whenUp s (fun s => if s.flag (F.pipePllCtlEn n) then pllLocked s n else s)

/-- TE_EDGE: the frame start falls at the first line boundary at least OFFSET lines after the edge (R272): `teDue` counts the line
boundaries before it. -/
def teEdge (s : State) (p : Nat) : State :=
  if s.flag (F.pipeTeEn p) && generatorRuns s p && (s.pipe p).teDue.isNone then
    s.setPipe p { s.pipe p with teDue := some (s.fld (F.pipeTeOffset p)) } else s

/-- The bus stands at the end of line VTOTAL − 1 or of a repetition of it. -/
def lastLineEnds (s : State) (p : Nat) : Bool :=
  let r := s.pipe p
  decide (vTotal s.reg p + r.extra ≤ r.line + 1) && r.unit == 63

/-- A frame start may come: in command mode only where the edge's lines have passed, at the end of the shortest frame or later
(R272). -/
def startDue (s : State) (p : Nat) : Bool :=
  let r := s.pipe p
  !s.flag (F.pipeTeEn p) || r.gen != .running || (r.teDue == some 0 && lastLineEnds s p)

/-- TIMEOUT lines have passed since line VTOTAL − 1 first ended, and no edge came; 0 is taken as VTOTAL (R273, R274). -/
def teTimedOut (s : State) (p : Nat) : Bool :=
  let r := s.pipe p
  let n := if s.fld (F.pipeTeTimeout p) = 0 then vTotal s.reg p else s.fld (F.pipeTeTimeout p)
  s.flag (F.pipeTeEn p) && r.gen == .running && r.teDue.isNone && lastLineEnds s p && decide (n ≤ r.repeats)

def execTeEdge (p : Fin 8) (s : State) : Answer := whenUp s (fun s => teEdge s p)

/-! Camera lock (R269, R270). -/

/-- The lock's state: 0 OFF, 1 ACQUIRE, 2 TRACK, 3 LOCKED, 4 LOST. Entries to LOCKED and LOST fire CAM_LOCK. -/
def setLock (s : State) (p st : Nat) : State :=
  let was := s.fld (F.pipeStatLock p)
  let s := s.setFld (F.pipeStatLock p) st
  if was ≠ st && (st = 3 || st = 4) then raise s (64 + 16 * p + 11) else s

/-- The present steering of the PLL of a pipe in ppm, 0 or negative. -/
def steerOf (s : State) (p : Nat) : Int := signed 16 (s.fld (F.pipePllStatSteer (pllOf s.reg p)))
def setSteer (s : State) (p : Nat) (ppm : Int) : State :=
  s.setFld (F.pipePllStatSteer (pllOf s.reg p)) (unsigned 16 ppm)

/-- A line of a pipe in picoseconds at its programmed clock. -/
def linePs (s : State) (p : Nat) : Nat := hTotal s.reg p * 1000000000 / max 1 (pixelKHz s.reg p)

/-- A frame of a pipe in picoseconds at its programmed clock. -/
def framePs (s : State) (p : Nat) : Nat := max 1 (vTotal s.reg p * linePs s p)

/-- The distance in picoseconds from the lock's target to this frame start, within half a frame either way: late is positive. -/
def phaseError (s : State) (p : Nat) (camAt : Nat) : Int :=
  let frame : Int := framePs s p
  let d : Int := (s.time.uptime : Int) * 1000 - ((camAt : Int) * 1000 + s.fld (F.pipeCamLockLines p) * linePs s p)
  let r := d % frame
  if 2 * r > frame then r - frame else r

/-- The camera's frame period in picoseconds; before its second frame start the pipe's own. -/
def camPeriodPs (s : State) (p : Nat) : Nat :=
  match (s.cam (s.fld (F.pipeCamLockCam p))).period with | some n => n * 1000 | none => framePs s p

/-- The steering in ppm below the programmed clock at which the pipe's frames last as long as the camera's. -/
def holdPpm (s : State) (p : Nat) : Int :=
  ((camPeriodPs s p : Int) - framePs s p) * 1000000 / framePs s p

/-- The lines by which ACQUIRE lengthens a frame, with `d` ps from its end to the target, camera frames of `t` ps and lines of `lp`
ps: the next frame starts within a line of the target, on the side from which steering brings it there sooner (R269). A pipe that
starts early catches up by what STEER_MAX leaves above the steering that holds the target, one that starts late by that steering
itself, since none ever runs faster than programmed. -/
def acquireLines (lp t d hold most : Int) : Nat :=
  let d := d % max 1 t
  let r := d % lp
  let late := decide ((lp - r) * (most - hold) < r * hold)
  let k := if late then d / lp + 1 else d / lp
  if decide (64 * (t - d) ≤ lp) || (late && decide (t ≤ k * lp)) then 0 else k.toNat

/-- The lines of a pipe in the time of some lines of another one of its stook, rounded up: all its frames begin with the leader's
(R257). -/
def linesLike (s : State) (l q n : Nat) : Nat :=
  ceilDiv (n * hTotal s.reg l * divOf s.reg l) (max 1 (hTotal s.reg q * divOf s.reg q))

/-- A running pipe has just begun its frame. -/
def frameBegan (s : State) (p : Nat) : Bool :=
  let r := s.pipe p
  r.gen == .running && (r.fresh || (r.line == 0 && r.unit == 0))

/-- The frame in hand of a leader is longer by some lines, and that of each pipe of its stook which began with it (R257, R269). -/
def lengthen (s : State) (p n : Nat) : State :=
  s.each pipes8 (fun s q =>
    if q == p || (stookOf s.reg q == stookOf s.reg p && frameBegan s q) then
      s.setPipe q { s.pipe q with extra := linesLike s p q n } else s)

/-- ACQUIRE: the frame in hand is lengthened by whole lines (R269). -/
def acquire (s : State) (p : Nat) (e : Int) : State :=
  let d := (camPeriodPs s p : Int) - framePs s p - e
  let n := acquireLines (max 1 (linePs s p)) (camPeriodPs s p) d (max 0 (holdPpm s p)) (s.fld (F.pipeCamLockSteerMax p))
  setLock ((lengthen s p n).setPipe p { s.pipe p with extra := n, camGood := 0 }) p 1

/-- TRACK and LOCKED: the steering that would bring the next frame start onto the target, within its bounds; four frames in a row
within one gate unit are LOCKED (R269). -/
def track (s : State) (p : Nat) (e : Int) : State :=
  let mx : Int := s.fld (F.pipeCamLockSteerMax p)
  let want := ((camPeriodPs s p : Int) - framePs s p - e) * 1000000 / framePs s p
  let s := setSteer s p (-(max 0 (min mx want)))
  let r := s.pipe p
  let good := if 64 * e.natAbs ≤ linePs s p then r.camGood + 1 else 0
  let s := s.setPipe p { r with camGood := good, extra := 0 }
  setLock s p (if 4 ≤ good then 3 else 2)

/-- The lock is lost: `lostAt` notes which camera frame was the last (R270). -/
def loseLock (s : State) (p : Nat) : State :=
  setLock (s.setPipe p { s.pipe p with camGood := 0, extra := 0, lostAt := (s.cam (s.fld (F.pipeCamLockCam p))).frame }) p 4

/-- A pipe without lock returns to its programmed clock, by 100 ppm a frame (R270). -/
def unsteer (s : State) (p : Nat) : State := setSteer s p (min 0 (steerOf s p + 100))

/-- The lock of a pipe ends, where it is disabled or the pipe stops, and its PLL is steered no more. -/
def endLock (s : State) (p : Nat) : State := if s.fld (F.pipeStatLock p) = 0 then s else setSteer (setLock s p 0) p 0

/-- What camera lock does at a frame start (R269, R270). -/
def lockStep (s : State) (p : Nat) : State :=
  let st := s.fld (F.pipeStatLock p)
  if !s.flag (F.pipeCamLockEn p) then endLock s p
  else
    let c := s.cam (s.fld (F.pipeCamLockCam p))
    match c.lastStart with
    | none => if st = 0 then setLock s p 1 else if st = 4 then unsteer s p else s
    | some t =>
      let e := phaseError s p t
      let inRange := decide (holdPpm s p ≤ s.fld (F.pipeCamLockSteerMax p))
      if st = 0 then acquire s p e
      else if st = 4 then
        let s := unsteer s p
        if inRange && (s.pipe p).lostAt < c.frame && (s.time.uptime - t) * 1000 ≤ 2 * framePs s p then acquire s p e else s
      else if !inRange then loseLock s p
      else if st = 1 && linePs s p < e.natAbs then acquire s p e
      else track s p e

/-- The lines by which a frame that begins is longer: those of the leader of its stook, where that has begun the frame (R257, R269).
-/
def longerBy (s : State) (p : Nat) : Nat :=
  match pipes8.find? (fun q => generatorRuns s q && stookOf s.reg q == stookOf s.reg p) with
  | some l => if l ≠ p && frameBegan s l then linesLike s l p (s.pipe l).extra else 0
  | none => 0

/-- CAM_LOCK_LOST: no frame-start packet within 2 frames (R270). -/
def camLockLost (s : State) (p : Nat) : State :=
  if s.flag (F.pipeCamLockEn p) && s.flag (F.pipeStatLock p) then
    loseLock s p else s

def execCamLockLost (p : Fin 8) (s : State) : Answer := whenUp s (fun s => camLockLost s p)

/-! The time base (R263, R264). -/

/-- gPTP runs: enabled, on LINK_A up and awake. -/
def ptpRuns (s : State) : Bool := s.flag F.pipePtpCfgEn && linkIsUp s .a && !linkAsleep s .a

/-- The limit of rate corrections in parts per thousand million. -/
def rateLimit : Int := 250000

/-- PTP_SYNC: an offset from the grandmaster in ns (positive: the base is behind) and a rate ratio. -/
def ptpSync (s : State) (offset rate : Int) : State :=
  let s := s.setFld F.pipePtpOffsetOffset (unsigned 32 (max (-2147483648) (min 2147483647 offset)))
  let t := { s.time with ratePpb := max (-rateLimit) (min rateLimit rate), lastSync := some s.time.uptime }
  let s := s.setFld F.pipeTimeStatHoldover 0
  if 1000000 < offset then
    let s := { s with time := { t with base := t.base + BitVec.ofInt 64 offset, slew := 0 } }
    let s := (s.addFld F.pipeTimeStatSteps 1).setFld F.pipeTimeStatSynced 1
    raise s 25
  else if offset < -1000000000 then
    { s.setFld F.pipeTimeStatSynced 0 with time := { t with ratePpb := s.time.ratePpb, slew := 0 } }
  else
    { s.setFld F.pipeTimeStatSynced (decide (offset.natAbs ≤ 1000)).toNat with
      time := { t with slew := offset * 1000000000 } }

def execPtpSync (domain : BitVec 7) (offset rate : Int) (s : State) : Answer :=
  whenUp s (fun s => if ptpRuns s && s.fld F.pipePtpCfgDomain == domain.toNat then ptpSync s offset rate else s)

/-- PTP_PDELAY_REQ: the responder answers with the time of receipt. -/
def execPtpPdelayReq (domain : BitVec 7) (seqId : BitVec 16) (s : State) : Answer :=
  whenUp s (fun s =>
    if ptpRuns s && s.fld F.pipePtpCfgDomain == domain.toNat then s.emit (.pdelayResp domain seqId s.time.base) else s)

/-- PTP_PDELAY_TIMER: the initiator sends a request. -/
def execPtpPdelayTimer (s : State) : Answer :=
  whenUp s (fun s =>
    if ptpRuns s then
      let q := s.time.pdelaySeq
      ({ s with time := { s.time with pdelaySeq := q + 1, pdelayOut := some q } }).emit (.pdelayReq q)
    else s)

/-- PTP_PDELAY_RESP: the response to the request in hand updates the measured link delay. -/
def execPtpPdelayResp (domain : BitVec 7) (seqId : BitVec 16) (delayNs : Nat) (s : State) : Answer :=
  whenUp s (fun s =>
    if ptpRuns s && s.fld F.pipePtpCfgDomain == domain.toNat && s.time.pdelayOut == some seqId then
      { s with time := { s.time with pdelayOut := none, linkDelay := delayNs } }
    else s)

/-- The base holds over at its last rate (R264). -/
def holdOver (s : State) : State :=
  if s.flag F.pipePtpCfgEn && !s.flag F.pipeTimeStatHoldover then
    raise ({ s.setFld F.pipeTimeStatHoldover 1 with time := { s.time with slew := 0 } }) 26
  else s

/-- TIME_HOLDOVER. -/
def execTimeHoldover (s : State) : Answer := whenUp s holdOver

/-- One REFCLK period of 40 ns (log 2): the uptime counts it; the base advances by it at its rate, slewing at the rate
limit while an offset remains (R264). `fracNs` counts in units of 10⁻⁹ ns. -/
def refclkTick (s : State) : State :=
  let t := s.time
  let dir : Int := if t.slew = 0 then t.ratePpb else if 0 < t.slew then rateLimit else -rateLimit
  let done : Int := 40 * (dir - t.ratePpb)
  let slew : Int := if t.slew = 0 then 0 else if t.slew.natAbs ≤ done.natAbs then 0 else t.slew - done
  let sum : Nat := t.fracNs + (40000000000 + 40 * dir).toNat
  { s with time := { t with uptime := t.uptime + 40, base := t.base + BitVec.ofNat 64 (sum / 1000000000),
                            fracNs := sum % 1000000000, slew := slew } }

end Sys2Proof.Machine
end

