-- ==== Sys2Proof/Machine/Layers.lean ====
section
/-! DEFINITION. What the words of layers, object contexts and atlas descriptors say (spec 06: R149 to R163; spec 07: R176 to
R187, R193, R197), and what they cost: bales, spans and blends of each furrow. -/

namespace Sys2Proof.Machine

/-! Scene words. A composition is one state of the planar words, the object layer words and the object contexts. -/

/-- The words that a frame is composed from: planar words by slot × 32 + word, object layer words by layer × 32 + word,
context words by 8 × context + word. -/
structure Comp where
  planar : SMap Word
  obj    : SMap Word
  ctx    : SMap Word
deriving DecidableEq, Repr

/-- The applied state (R181: of objects, the binning copy). -/
def appliedComp (s : State) : Comp := { planar := s.scene.planar, obj := s.scene.objBin, ctx := s.scene.ctxBin }

/-- Sparse words laid over others. -/
def layWords {α : Type} [DecidableEq α] (d : α) (top base : SMap α) : SMap α :=
  top.foldl (fun m e => smSet d m e.1 e.2) base

/-- The layer words of a set of writes that fall on planar slots, and those on object layers, by layer. -/
def planarWrites (w : Writes) : SMap Word := w.layer.filter (fun e => e.1 < 0x60 * 32)
def objWrites (w : Writes) : SMap Word :=
  (w.layer.filter (fun e => 0x80 * 32 ≤ e.1)).map (fun e => (e.1 - 0x80 * 32, e.2))

/-! A slot that another pipe has taken stands, for as long as its old pipe still shows it, under a code of its own among the planar
words (R136, R164). -/

/-- The code of planar slot `n` as pipe `p` still shows it. -/
def leaverCode (p n : Nat) : Nat := 0x100 * (p + 1) + n

/-- The code under which the camera lines of planar slot `n` are kept that pipe `p` fetches before the slot comes to it. -/
def arriverCode (p n : Nat) : Nat := 0x1000 + leaverCode p n

/-- The hardware slot of a slot code. -/
def hwSlot (code : Nat) : Nat := code % 0x100

/-- The code names a planar slot, not an object layer. -/
def isPlanarCode (code : Nat) : Bool := decide (hwSlot code < 0x60)

/-- A code of a slot that is leaving its pipe. -/
def isLeaver (code : Nat) : Bool := decide (0x100 ≤ code)

/-- The code under which a pipe shows a planar slot. -/
def codeAt (m : SMap Word) (p n : Nat) : Nat := if m.any (fun e => e.1 / 32 == leaverCode p n) then leaverCode p n else n

/-- The planar words without the leaving forms of some slots. -/
def dropLeavers (m : SMap Word) (slots : List Nat) : SMap Word :=
  m.filter (fun e => !(isLeaver (e.1 / 32) && slots.contains (hwSlot (e.1 / 32))))

/-- The slots whose word 0 a set of writes holds. -/
def headWritten (w : Writes) : List Nat := (planarWrites w).filterMap (fun e => if e.1 % 32 = 0 then some (e.1 / 32) else none)

/-- A composition with staged writes laid over it; a slot whose word 0 they hold has left its old pipe. -/
def Comp.lay (c : Comp) (w : Writes) : Comp :=
  { planar := layWords 0 (planarWrites w) (dropLeavers c.planar (headWritten w)), obj := layWords 0 (objWrites w) c.obj,
    ctx := layWords 0 w.ctx c.ctx }

/-! The copies of the object state as the pipes see them: the shared copy, but for what a pipe holds back until its own part applies
(R136, R181). -/

def objViewNone : ObjView := { obj := [], ctx := [], glyph := [] }

/-- A copy with what a pipe holds back laid over it. -/
def ObjView.over (h base : ObjView) : ObjView :=
  { obj := layWords 0 h.obj base.obj, ctx := layWords 0 h.ctx base.ctx, glyph := layWords 0 h.glyph base.glyph }

/-- The shared binning and drawing copy. -/
def binShared (s : State) : ObjView := { obj := s.scene.objBin, ctx := s.scene.ctxBin, glyph := s.scene.glyphBin }
def drawShared (s : State) : ObjView := { obj := s.scene.objDraw, ctx := s.scene.ctxDraw, glyph := s.scene.glyphDraw }

/-- The binning and drawing copy of a pipe. -/
def binView (s : State) (p : Nat) : ObjView := (smGet objViewNone s.scene.binHeld p).over (binShared s)
def drawView (s : State) (p : Nat) : ObjView := (smGet objViewNone s.scene.drawHeld p).over (drawShared s)

/-- The applied state as a pipe shows it. -/
def appliedFor (s : State) (p : Nat) : Comp :=
  { planar := s.scene.planar, obj := (binView s p).obj, ctx := (binView s p).ctx }

/-- One table of a copy as it is written for one pipe: the shared table, and by pipe what is held back of it. -/
abbrev Split (α : Type) := SMap α × SMap (SMap α)

/-- A value is written for pipe `p`. Where `later` says that a newer one stands in the shared table already, it goes into what the
pipe holds back; else into the shared table, of which the pipes `others` hold back the value before. -/
def putFor {α : Type} [DecidableEq α] (d : α) (p : Nat) (later : Nat → Bool) (others : Nat → List Nat) (t : Split α) (k : Nat) (v : α) :
    Split α :=
  let mine := smGet [] t.2 p
  if (smFind mine k).isSome && later k then (t.1, smSet [] t.2 p (if smGet d t.1 k = v then smDel mine k else smPut mine k v))
  else
    let old := smGet d t.1 k
    let keep := fun (h : SMap (SMap α)) (r : Nat) =>
      let m := smGet [] h r
      if old = v || (smFind m k).isSome then h else smSet [] h r (smPut m k old)
    (smSet d t.1 k v, (others k).foldl keep (smSet [] t.2 p (smDel mine k)))

/-- What the pipes hold back, table by table. -/
def heldObj (h : SMap ObjView) : SMap (SMap Word) := h.map (fun e => (e.1, e.2.obj))
def heldCtx (h : SMap ObjView) : SMap (SMap Word) := h.map (fun e => (e.1, e.2.ctx))
def heldGlyph (h : SMap ObjView) : SMap (SMap Nat) := h.map (fun e => (e.1, e.2.glyph))
def heldOf (o c : SMap (SMap Word)) (g : SMap (SMap Nat)) : SMap ObjView :=
  [0, 1, 2, 3, 4, 5, 6, 7].filterMap (fun p =>
    let v : ObjView := { obj := smGet [] o p, ctx := smGet [] c p, glyph := smGet [] g p }
    if v = objViewNone then none else some (p, v))

/-- A copy, shared and held back, with words and glyph values written for pipe `p`. The tests name the keys of layer words, context
words and glyph values. -/
structure CopyRule where
  laterObj  : Nat → Bool
  laterCtx  : Nat → Bool
  othersObj : Nat → List Nat
  othersCtx : Nat → List Nat

def writeCopy (p : Nat) (r : CopyRule) (base : ObjView) (held : SMap ObjView) (top : ObjView) : ObjView × SMap ObjView :=
  let o := top.obj.foldl (fun t e => putFor 0 p r.laterObj r.othersObj t e.1 e.2) (base.obj, heldObj held)
  let c := top.ctx.foldl (fun t e => putFor 0 p r.laterCtx r.othersCtx t e.1 e.2) (base.ctx, heldCtx held)
  let g := top.glyph.foldl (fun t e => putFor 0 p (fun k => r.laterCtx (8 * k)) (fun k => r.othersCtx (8 * k)) t e.1 e.2)
    (base.glyph, heldGlyph held)
  ({ obj := o.1, ctx := c.1, glyph := g.1 }, heldOf o.2 c.2 g.2)

/-- The binning or the drawing copy takes a new form. -/
def setBin (s : State) (x : ObjView × SMap ObjView) : State :=
  { s with scene := { s.scene with objBin := x.1.obj, ctxBin := x.1.ctx, glyphBin := x.1.glyph, binHeld := x.2 } }
def setDraw (s : State) (x : ObjView × SMap ObjView) : State :=
  { s with scene := { s.scene with objDraw := x.1.obj, ctxDraw := x.1.ctx, glyphDraw := x.1.glyph, drawHeld := x.2 } }

/-- Words of contexts that change in both copies at once, for every pipe: set-up writes (R182), and contexts that a scene finds and
leaves disabled (R181). -/
def putCtxWords (s : State) (ws : SMap Word) : State :=
  let free := fun (h : SMap ObjView) => h.filterMap (fun e =>
    let v := { e.2 with ctx := e.2.ctx.filter (fun k => (smFind ws k.1).isNone) }
    if v = objViewNone then none else some (e.1, v))
  { s with scene := { s.scene with ctxBin := layWords 0 ws s.scene.ctxBin, ctxDraw := layWords 0 ws s.scene.ctxDraw,
                                   binHeld := free s.scene.binHeld, drawHeld := free s.scene.drawHeld } }

/-! Channels (R149). -/

def mcSize : Nat := 0x70000000
def memEnd : Nat := 0x1C0000000

/-- The channel of a device address. -/
def channelOf (a : Nat) : Option Nat := if a < memEnd then some (a / mcSize) else none

/-- The channel that a region lies wholly in. -/
def regionChannel (first last : Nat) : Option Nat :=
  match channelOf first with
  | some m => if channelOf last = some m && first ≤ last then some m else none
  | none => none

/-- A memory channel is in service: of the profile and not retired. -/
def mcInService (s : State) (m : Nat) : Bool := decide (m < profileChannels s) && !(s.unit m).retired

/-- A layer reads wholly from its twin (R168). -/
def onTwin (s : State) (code : Nat) : Bool :=
  if isLeaver code then s.scene.leaverTwins.contains code else s.flag (F.layerSlotStatOnTwin code)

def setOnTwin (s : State) (code : Nat) (on : Bool) : State :=
  if isLeaver code then
    let l := s.scene.leaverTwins.filter (· != code)
    { s with scene := { s.scene with leaverTwins := if on then l ++ [code] else l } }
  else s.setFld (F.layerSlotStatOnTwin code) on.toNat

/-! Planar slots (R151). -/

structure Planar where
  en : Bool
  pipe : Nat
  clsS : Bool
  twinEn : Bool
  crcEn : Bool
  camEn : Bool
  cam : Nat
  stack : Nat
  prio : Nat
  fmt : Nat
  premult : Bool
  degamma : Bool
  matrix : Bool
  filter : Nat
  alpha : Nat
  buf : Nat
  stride : Nat
  plane2 : Nat
  twin : Nat
  twin2 : Nat
  sx : Nat
  sy : Nat
  sw : Nat
  sh : Nat
  dx : Nat
  dy : Nat
  dw : Nat
  dh : Nat
  hinit : Nat
  vinit : Nat
  silo : Nat
  srcCrc : Word
  camLines : Nat
deriving DecidableEq, Repr

/-- A 64-bit value in two words, low word first. -/
def pair64 (lo hi : Word) : Nat := lo.toNat + 2 ^ 32 * hi.toNat

/-- The parameters of a planar slot. -/
def planarOf (m : SMap Word) (slot : Nat) : Planar :=
  let w := fun i => smGet (0 : Word) m (slot * 32 + i)
  { en := bits (w 0) 0 0 == 1, pipe := bits (w 0) 3 1, clsS := bits (w 0) 4 4 == 1, twinEn := bits (w 0) 5 5 == 1,
    crcEn := bits (w 0) 6 6 == 1, camEn := bits (w 0) 7 7 == 1, cam := bits (w 0) 10 8, stack := bits (w 0) 21 16,
    prio := bits (w 0) 31 24, fmt := bits (w 1) 3 0, premult := bits (w 1) 4 4 == 1, degamma := bits (w 1) 5 5 == 1,
    matrix := bits (w 1) 6 6 == 1, filter := bits (w 1) 9 8, alpha := bits (w 1) 23 16, buf := pair64 (w 2) (w 3),
    stride := bits (w 4) 19 0, plane2 := pair64 (w 5) (w 6), twin := pair64 (w 7) (w 8), twin2 := pair64 (w 9) (w 10),
    sx := bits (w 11) 15 0, sy := bits (w 11) 31 16, sw := bits (w 12) 15 0, sh := bits (w 12) 31 16,
    dx := bits (w 13) 15 0, dy := bits (w 13) 31 16, dw := bits (w 14) 15 0, dh := bits (w 14) 31 16,
    hinit := bits (w 15) 15 0, vinit := bits (w 15) 31 16, silo := bits (w 16) 8 0, srcCrc := w 17,
    camLines := bits (w 18) 15 0 }

/-- The bits of a planar word that must be zero whatever the layer is. -/
def planarZero (i : Nat) : Word :=
  nth 0xFFFFFFFF [0x00C0F800, 0xFF00FC80, 0, 0xFFFFFFFE, 0xFFF00000, 0, 0, 0, 0, 0, 0, 0, 0, 0, 0, 0,
    0xFFFFFE00, 0, 0xFFFF0000] i

/-- The slots with a listed word, in rising order. -/
def slotsOf (m : SMap Word) : List Nat := (m.map (fun e => e.1 / 32)).eraseDups

/-- The enabled planar slots of a pipe. -/
def planarOn (m : SMap Word) (p : Nat) : List Nat :=
  (slotsOf m).filter (fun n => (planarOf m n).en && (planarOf m n).pipe == p)

/-- Bytes per pixel (R154); 0 for a format that does not exist. -/
def bppOf (fmt : Nat) : Nat := nth 0 [4, 4, 2, 2, 2, 4, 1, 0, 2, 1] fmt

/-- The scaler steps (R158). -/
def Planar.hstep (l : Planar) : Nat := if l.dw = 0 then 0 else l.sw * 65536 / l.dw
def Planar.vstep (l : Planar) : Nat := if l.dh = 0 then 0 else l.sh * 65536 / l.dh

/-- The first and last byte of a region (R150): 0 primary, 1 plane 2, 2 twin, 3 twin 2. -/
def Planar.primaryLen (l : Planar) : Nat :=
  if l.camEn then 2 * l.camLines * l.stride else (l.sy + l.sh - 1) * l.stride + (l.sx + l.sw) * bppOf l.fmt
def Planar.plane2Len (l : Planar) : Nat :=
  if l.fmt = 6 then 1024 else ((l.sy + l.sh) / 2 - 1) * l.stride + l.sx + l.sw
def Planar.hasPlane2 (l : Planar) : Bool := l.fmt == 6 || l.fmt == 9

/-- The regions that a layer reads: kind, first byte, length. -/
def Planar.regions (l : Planar) : List (Nat × Nat × Nat) :=
  [(0, l.buf, l.primaryLen)] ++
  (if l.hasPlane2 then [(1, l.plane2, l.plane2Len)] else []) ++
  (if l.twinEn then [(2, l.twin, l.primaryLen)] else []) ++
  (if l.twinEn && l.hasPlane2 then [(3, l.twin2, l.plane2Len)] else [])

/-- Bales that one source line touches (R161); base and stride are multiples of 64. -/
def Planar.lineBales (l : Planar) : Nat :=
  (l.sx * bppOf l.fmt + l.sw * bppOf l.fmt - 1) / 64 - l.sx * bppOf l.fmt / 64 + 1

/-- Bytes of one line's place in the silo: Lb of R163. -/
def Planar.lineBytes (l : Planar) : Nat := 64 * (if l.fmt = 9 then 2 * l.lineBales else l.lineBales)

/-- A pipe fetches for a slot code: it shows the slot under it, or will when the slot has come (R136). -/
def ownCode (s : State) (p c : Nat) : Bool := c == arriverCode p (hwSlot c) || (planarOf s.scene.planar c).pipe == p

/-- Source lines that the slot's allocation holds (R163). -/
def Planar.window (l : Planar) : Nat := if l.lineBytes = 0 then 0 else l.silo * 4096 / l.lineBytes

/-- The last source line tapped by a destination line, counted in the source rectangle (R159, R162). -/
def Planar.lastTap (l : Planar) (k : Nat) : Nat :=
  if l.vstep = 65536 && l.vinit = 0 then k else min (l.sh - 1) ((l.vinit + k * l.vstep) / 65536 + 2)

/-- The first source line tapped by a destination line. -/
def Planar.firstTap (l : Planar) (k : Nat) : Nat :=
  if l.vstep = 65536 && l.vinit = 0 then k else min (l.sh - 1) ((l.vinit + k * l.vstep) / 65536 - 1)

/-- The chroma lines below a count of luma lines of the rectangle that those lines name (R156), for format 0x9. -/
def Planar.lastChroma (l : Planar) (t : Nat) : Nat :=
  min ((l.sy + l.sh) / 2 - 1) ((l.sy + t + 1) / 2)
def Planar.firstChroma (l : Planar) (t : Nat) : Nat :=
  max (l.sy / 2) ((l.sy + t + 1) / 2 - 1)

/-- The destination lines of a furrow that a layer covers: first and count, counted from DST_Y. -/
def Planar.destLines (l : Planar) (f : Nat) : Nat × Nat :=
  let lo := max l.dy (8 * f)
  let hi := min (l.dy + l.dh) (8 * f + 8)
  if lo < hi then (lo - l.dy, hi - lo) else (0, 0)

/-- The bales that a furrow newly needs, given the last luma and chroma line fetched and whether the palette was (R162). -/
def Planar.newBales (l : Planar) (st : Option (Nat × Nat)) (f : Nat) : Nat × Option (Nat × Nat) :=
  let (k, n) := l.destLines f
  if n = 0 then (0, st)
  else
    let last := l.lastTap (k + n - 1)
    let first := l.firstTap k
    let lines := match st with
      | none => last + 1 - first
      | some (t, _) => last + 1 - max first (t + 1)
    let lc := l.lastChroma last
    let fc := l.firstChroma first
    let chroma := if l.fmt ≠ 9 then 0 else match st with
      | none => lc + 1 - fc
      | some (_, c) => lc + 1 - max fc (c + 1)
    let pal := if l.fmt = 6 && st.isNone then 16 else 0
    ((lines + chroma) * l.lineBales + pal, some (last, lc))

/-! Object layers and contexts (R176, R179). -/

structure ObjLayer where
  en : Bool
  pipe : Nat
  clsS : Bool
  stack : Nat
  prio : Nat
  premult : Bool
  degamma : Bool
  degammaSlot : Nat
  alpha : Nat
  clips : List (Nat × Nat × Nat × Nat)
deriving DecidableEq, Repr

/-- The parameters of an object layer: its clip rectangles 1 to 7 are (x, y, w, h). -/
def objLayerOf (m : SMap Word) (k : Nat) : ObjLayer :=
  let w := fun i => smGet (0 : Word) m (k * 32 + i)
  { en := bits (w 0) 0 0 == 1, pipe := bits (w 0) 3 1, clsS := bits (w 0) 4 4 == 1, stack := bits (w 0) 21 16,
    prio := bits (w 0) 31 24, premult := bits (w 1) 4 4 == 1, degamma := bits (w 1) 5 5 == 1,
    degammaSlot := bits (w 1) 14 8, alpha := bits (w 1) 23 16,
    clips := (List.range 7).map (fun c =>
      (bits (w (4 + 2 * c)) 15 0, bits (w (4 + 2 * c)) 31 16, bits (w (5 + 2 * c)) 15 0, bits (w (5 + 2 * c)) 31 16)) }

/-- The bits of an object layer word that must be zero. -/
def objZero (i : Nat) : Word :=
  if i = 0 then 0x00C0FFE0 else if i = 1 then 0xFF0080CF else if i < 4 then 0xFFFFFFFF else if i < 18 then 0 else 0xFFFFFFFF

/-- The enabled object layers of a pipe. -/
def objOn (m : SMap Word) (p : Nat) : List Nat :=
  (slotsOf m).filter (fun k => (objLayerOf m k).en && (objLayerOf m k).pipe == p)

structure Ctx where
  m00 : Int
  m01 : Int
  m02 : Int
  m10 : Int
  m11 : Int
  m12 : Int
  x : Int
  y : Int
  atlas : Nat
  alpha : Nat
  clip : Nat
  clsS : Bool
  layer : Nat
  isMap : Bool
  en : Bool
  top : Bool
deriving DecidableEq, Repr

/-- An object context. -/
def ctxOf (m : SMap Word) (c : Nat) : Ctx :=
  let w := fun i => smGet (0 : Word) m (8 * c + i)
  let sw := fun i => signed 32 (w i).toNat
  { m00 := sw 0, m01 := sw 1, m02 := sw 2, m10 := sw 3, m11 := sw 4, m12 := sw 5,
    x := signed 16 (bits (w 6) 15 0), y := signed 16 (bits (w 6) 31 16), atlas := bits (w 7) 11 0,
    alpha := bits (w 7) 19 12, clip := bits (w 7) 22 20, clsS := bits (w 7) 23 23 == 1, layer := bits (w 7) 28 24,
    isMap := bits (w 7) 29 29 == 1, en := bits (w 7) 30 30 == 1, top := bits (w 7) 31 31 == 1 }

/-- The enabled contexts, in rising index. -/
def ctxOn (m : SMap Word) : List Nat :=
  m.filterMap (fun e => if e.1 % 8 = 7 && bits e.2 30 30 == 1 then some (e.1 / 8) else none)

/-- A context of the range that LIGHT.FB_CTX reserves (R317). -/
def inFbRange (s : State) (c : Nat) : Bool :=
  decide (s.fld F.lightFbCtxBase ≤ c) && decide (c < s.fld F.lightFbCtxBase + s.fld F.lightFbCtxCount)

/-- The drawn contexts of an object layer. -/
def ctxOfLayer (s : State) (m : SMap Word) (k : Nat) : List Nat :=
  (ctxOn m).filter (fun c => (ctxOf m c).layer == k && !inFbRange s c)

/-- The contexts of FLp, fallback layer of a pipe (R317). -/
def fbCtx (s : State) (m : SMap Word) (p : Nat) : List Nat :=
  (ctxOn m).filter (fun c => (ctxOf m c).layer == p && inFbRange s c)

/-! Atlas descriptors (R185, R186). -/

structure Atlas where
  base : Nat
  fmt : Nat
  nearest : Bool
  pitch : Nat
  pal : Nat
  cw : Nat
  ch : Nat
  bw : Nat
  bh : Nat
  zeros : Bool
deriving DecidableEq, Repr

/-- An atlas descriptor of the loft. -/
def atlasOf (loft : List Host.Cell) (i : Nat) : Atlas :=
  let w := fun k => leWord (memBytes loft (16 * i + 4 * k) 4)
  { base := bits (w 0) 22 0, fmt := bits (w 0) 27 24, nearest := bits (w 0) 28 28 == 1, pitch := bits (w 1) 15 0,
    pal := bits (w 1) 28 16, cw := bits (w 2) 11 0, ch := bits (w 2) 27 16, bw := bits (w 3) 11 0, bh := bits (w 3) 27 16,
    zeros := bits (w 0) 23 23 == 0 && bits (w 0) 31 29 == 0 && bits (w 1) 31 29 == 0 && bits (w 2) 15 12 == 0 &&
      bits (w 2) 31 28 == 0 && bits (w 3) 15 12 == 0 && bits (w 3) 31 28 == 0 }

/-- Bits per pixel of an atlas format; 0 for one that does not exist. -/
def atlasBpp (fmt : Nat) : Nat := nth 0 [1, 2, 4, 8, 8, 16, 32] fmt

/-- Palette entries of an atlas format. -/
def palEntries (fmt : Nat) : Nat := nth 0 [2, 4, 16, 256, 1, 0, 0] fmt

/-- Bytes of one row of the cell. -/
def Atlas.rowBytes (a : Atlas) : Nat := (a.cw * atlasBpp a.fmt + 7) / 8

/-- The referenced byte ranges of a descriptor: first byte and length (R187). -/
def atlasRanges (loft : List Host.Cell) (i : Nat) : List (Nat × Nat) :=
  let a := atlasOf loft i
  [(16 * i, 16), (a.base, (a.ch - 1) * a.pitch + a.rowBytes)] ++
  (if palEntries a.fmt = 0 then [] else [(a.pal * 1024, 4 * palEntries a.fmt)])

/-- The descriptors that a context names: one, or sixteen for a digit object (R200). -/
def Ctx.descriptors (c : Ctx) : List Nat := if c.isMap then (List.range 16).map (c.atlas + ·) else [c.atlas]

/-- The referenced loft ranges of a context (R187, R200). -/
def ctxRanges (loft : List Host.Cell) (c : Ctx) : List (Nat × Nat) := c.descriptors.flatMap (atlasRanges loft)

/-- Two byte ranges share a byte. -/
def overlaps (a b : Nat × Nat) : Bool := decide (a.1 < b.1 + b.2) && decide (b.1 < a.1 + a.2)

/-- Ranges without the bytes of another. -/
def cutRange (rs : List (Nat × Nat)) (c : Nat × Nat) : List (Nat × Nat) :=
  rs.flatMap (fun r =>
    if overlaps r c then [(r.1, c.1 - r.1), (c.1 + c.2, r.1 + r.2 - (c.1 + c.2))].filter (fun x => x.2 != 0) else [r])

/-- The loft bytes that a load writes: all but those that a later load has written (R188, R192). -/
def LoftLoad.bytes (l : LoftLoad) : List (Nat × Nat) := l.skip.foldl cutRange [(l.dest, l.len)]

/-! Boxes (R193). -/

/-- A rectangle: left, top, right and bottom edges, the last two exclusive. -/
structure Rect where
  x0 : Int
  y0 : Int
  x1 : Int
  y1 : Int
deriving DecidableEq, Repr

def Rect.inter (a b : Rect) : Rect :=
  { x0 := max a.x0 b.x0, y0 := max a.y0 b.y0, x1 := min a.x1 b.x1, y1 := min a.y1 b.y1 }

/-- The clipped box of an object: the box, the clip rectangle, the active area. -/
def clippedBox (loft : List Host.Cell) (c : Ctx) (clips : List (Nat × Nat × Nat × Nat)) (ha va : Nat) : Rect :=
  let a := atlasOf loft c.atlas
  let box : Rect := { x0 := c.x, y0 := c.y, x1 := c.x + a.bw, y1 := c.y + a.bh }
  let area : Rect := { x0 := 0, y0 := 0, x1 := ha, y1 := va }
  let b := box.inter area
  if c.clip = 0 then b
  else
    let (x, y, w, h) := nth (0, 0, 0, 0) clips (c.clip - 1)
    b.inter { x0 := x, y0 := y, x1 := x + w, y1 := y + h }

/-- Width of a rectangle and the lines it covers in a furrow; 0 when it is empty there. -/
def Rect.width (r : Rect) : Nat := (r.x1 - r.x0).toNat
def Rect.linesIn (r : Rect) (f : Nat) : Nat := (min r.y1 (8 * f + 8) - max r.y0 (8 * f)).toNat

/-- The spans of a clipped box in a furrow (R129). -/
def Rect.spansIn (r : Rect) (f : Nat) : Nat := if r.width = 0 || r.linesIn f = 0 then 0 else (r.width + 255) / 256

/-! Demand (R129 to R131). -/

/-- What one furrow costs: spans, blends, and bytes by port. -/
structure Dem where
  spans  : Nat
  blends : Nat
  bytes  : List Nat
deriving DecidableEq, Repr

def demZero : Dem := { spans := 0, blends := 0, bytes := [0, 0, 0, 0] }

def Dem.add (a b : Dem) : Dem :=
  { spans := a.spans + b.spans, blends := a.blends + b.blends, bytes := List.zipWith (· + ·) a.bytes b.bytes }
def Dem.sup (a b : Dem) : Dem :=
  { spans := max a.spans b.spans, blends := max a.blends b.blends, bytes := List.zipWith max a.bytes b.bytes }

/-- Two demands furrow by furrow. -/
def demAdd (a b : List Dem) : List Dem := List.zipWith Dem.add a b
def demSup (a b : List Dem) : List Dem := List.zipWith Dem.sup a b
def demNone (nf : Nat) : List Dem := List.replicate nf demZero

/-- Bytes on one port. -/
def onPort (m : Option Nat) (n : Nat) : List Nat := (List.range 4).map (fun k => if m = some k then n else 0)

/-- The demand of one planar layer over the furrows; `port` is the channel it is charged to, `shed` the furrows it is
left out of. -/
def planarDemandFrom (l : Planar) (port : Option Nat) (shed : Nat → Bool) : List Nat → Option (Nat × Nat) → List Dem
  | [], _ => []
  | f :: fs, st =>
    if shed f then demZero :: planarDemandFrom l port shed fs st
    else
      let (n, st') := l.newBales st f
      { spans := 0, blends := l.dw * (l.destLines f).2, bytes := onPort port (64 * n) } ::
        planarDemandFrom l port shed fs st'

def planarDemand (l : Planar) (port : Option Nat) (shed : Nat → Bool) (nf : Nat) : List Dem :=
  planarDemandFrom l port shed (List.range nf) none

/-- The demand of clipped boxes in each furrow. -/
def boxesDemand (boxes : List Rect) (shed : Nat → Bool) (nf : Nat) : List Dem :=
  (List.range nf).map (fun f =>
    if shed f then demZero
    else boxes.foldl (fun d r => { d with spans := d.spans + r.spansIn f,
                                          blends := d.blends + (if r.spansIn f = 0 then 0 else r.width * r.linesIn f) }) demZero)

/-- The clipped boxes of an object layer's contexts. -/
def layerBoxes (s : State) (c : Comp) (k ha va : Nat) : List Rect :=
  let l := objLayerOf c.obj k
  (ctxOfLayer s c.ctx k).map (fun i => clippedBox s.loft (ctxOf c.ctx i) l.clips ha va)

/-- The clipped boxes of FLp. -/
def fbBoxes (s : State) (m : SMap Word) (p ha va : Nat) : List Rect :=
  (fbCtx s m p).map (fun i => clippedBox s.loft (ctxOf m i) [] ha va)

/-- Of what the pipes hold back, the glyph values. -/
def glyphsHeld (h : SMap ObjView) : SMap ObjView := heldOf [] [] (heldGlyph h)

/-- The state as FLp of a pipe is drawn from it: a boot scene of the bulb-check kind has art of its own (R419). -/
def artOf (s : State) (p : Nat) : State :=
  if (s.pipe p).bootArt then
    let x := s.scene
    { s with loft := x.bootLoft, scene := { x with
        ctxBin := x.bootCtx, ctxDraw := x.bootCtx, binHeld := glyphsHeld x.binHeld, drawHeld := glyphsHeld x.drawHeld } }
  else s

/-- The state that a context of a pipe is drawn from (R419). -/
def artFor (s : State) (p c : Nat) : State := if inFbRange s c then artOf s p else s

/-- The contexts of FLp in the art of a pipe's boot scene (R419). -/
def artCtxs (s : State) (p : Nat) : List Nat := if (s.pipe p).bootArt then fbCtx s s.scene.bootCtx p else []

end Sys2Proof.Machine
end

