-- ==== Sys2Proof/Machine/GateMath.lean ====
section
/-! DEFINITION. What the winnow takes from the gate lists (spec 05, R131; spec 09, R242 to R249): the scan-out capacity of a
port, in rational arithmetic. -/

namespace Sys2Proof.Machine

/-- The raster that a list runs on: HTOTAL and the pixel period in ns. -/
structure RefLine where
  ht  : Nat
  pix : Rat

/-- The exact pixel period of a pipe in ns (R255). -/
def pixelNs (v : View) (p : Nat) : Rat :=
  let n := pllOf v p
  (pllDen v n * divOf v p * 40 : Nat) / (max 1 (pllN v n * pllDen v n + pllNum v n) : Nat)

def refLine (v : View) (p : Nat) : RefLine := { ht := hTotal v p, pix := pixelNs v p }

/-- The instant at which a gate unit begins, counted from unit 0 of a line (R242). -/
def RefLine.unitAt (l : RefLine) (u : Nat) : Rat := ((u / 64 * l.ht + u % 64 * l.ht / 64 : Nat) : Rat) * l.pix

/-- A stretch of time with S0 and S1 open or closed. -/
abbrev Seg := Rat × Rat × Bool

/-- Length of a cycle in units. -/
def cycleLen (es : List (Nat × BitVec 6)) : Nat := (es.map (·.1)).sum

def segsOf (l : RefLine) (u : Nat) : List (Nat × BitVec 6) → List Seg
  | [] => []
  | (d, g) :: r => (l.unitAt u, l.unitAt (u + d), g.getLsbD 0) :: segsOf l (u + d) r

/-- `n` cycles of a list from a unit on, shifted in time. -/
def cycleSegs (l : RefLine) (es : List (Nat × BitVec 6)) (u n : Nat) (shift : Rat) : List Seg :=
  (List.range n).flatMap (fun c => (segsOf l (u + c * cycleLen es) es).map (fun x => (x.1 + shift, x.2.1 + shift, x.2.2)))

/-- Open time within a window. -/
def openTime (segs : List Seg) (a b : Rat) : Rat :=
  segs.foldl (fun t x => if x.2.2 then t + max 0 (min b x.2.1 - max a x.1) else t) 0

/-- The closings: ends of open stretches that a closed one follows (R243). -/
def closings : List Seg → List Rat
  | x :: y :: r => if x.2.2 && !y.2.2 then x.2.1 :: closings (y :: r) else closings (y :: r)
  | _ => []

/-- Closings in one cycle, taken cyclically. -/
def closingsPerCycle (es : List (Nat × BitVec 6)) : Nat :=
  let gs := es.map (fun e => e.2.getLsbD 0)
  ((gs.zip (gs.drop 1 ++ gs.take 1)).filter (fun x => x.1 && !x.2)).length

def ratMin (d : Rat) (l : List Rat) : Rat := l.foldl min d

/-- P_m in kB/s and the guard band of S0 and S1 in ns (R131, R232, R233). -/
def payload (s : State) : Nat := if profileOf s = 0 then 6400000 else 4800000
def guardNs (s : State) : Nat := if profileOf s = 0 then 40 else 54

/-- Units that a window of length T spans, rounded up to whole lines with one to spare. -/
def spanUnits (l : RefLine) (t : Rat) : Nat := ((t / max (l.unitAt 64) (1 / 1000)).ceil.toNat + 1) * 64

/-- ρ_m of a list that runs steadily (R131, R249): the least open time over windows that begin or end on an entry boundary,
less a guard band for each closing. Unit boundaries repeat over the least common multiple of the cycle and a line. -/
def steadyRho (pm g : Nat) (l : RefLine) (es : List (Nat × BitVec 6)) (t : Rat) : Int :=
  let cyc := cycleLen es
  if cyc = 0 || t ≤ 0 then pm
  else
    let sup := Nat.lcm cyc 64
    let w := spanUnits l t
    let lead := (w / sup + 1) * sup
    let segs := cycleSegs l es 0 ((2 * lead + 2 * sup) / cyc) 0
    let from_ := l.unitAt lead
    let till := l.unitAt (lead + sup)
    let bs := (segs.map (·.1)).filter (fun b => from_ ≤ b && b < till)
    let o := ratMin t ((bs ++ bs.map (· - t)).map (fun a => openTime segs a (a + t)))
    let mean : Rat := (cyc : Rat) / 64 * l.unitAt 64
    let k := closingsPerCycle es * (t / max mean (1 / 1000)).ceil.toNat
    ((pm : Rat) * (o - (k * g : Nat)) / t).floor

/-- ρ_m over every window that overlaps a seam at time 0: open time less a guard band for each closing within (R249). -/
def seamRho (pm g : Nat) (segs : List Seg) (t : Rat) : Int :=
  let cs := closings segs
  let bs := segs.map (·.1) ++ segs.map (·.2.1)
  let starts := (bs ++ bs.map (· - t)).filter (fun a => -t ≤ a && a ≤ 0)
  let net := starts.map (fun a =>
    let k := max (cs.filter (fun c => a ≤ c && c < a + t)).length (cs.filter (fun c => a < c && c ≤ a + t)).length
    openTime segs a (a + t) - (k * g : Nat))
  ((pm : Rat) * ratMin t net / t).floor

/-- A list as the winnow takes it: its entries and its raster; `none` is an ungated port. -/
abbrev WList := Option (List (Nat × BitVec 6) × RefLine)

/-- The stretches before the seam of a list that stands at unit `phase` of its cycle, on the new list's raster. -/
def oldSegs (l : RefLine) (es : List (Nat × BitVec 6)) (phase seam : Nat) (t : Rat) : List Seg :=
  let cyc := cycleLen es
  let n := spanUnits l t / cyc + 2
  let back := phase + n * cyc
  let at_ := 64 * (back / 64 + 1) + seam % 64
  ((cycleSegs l es (at_ - back) (n + 1) (-(l.unitAt at_))).filter (fun x => x.1 < 0)).map
    (fun x => (x.1, min 0 x.2.1, x.2.2))

/-- The stretches from the seam on of a list that starts at entry 0 there. -/
def newSegs (l : RefLine) (es : List (Nat × BitVec 6)) (seam : Nat) (t : Rat) : List Seg :=
  let cyc := cycleLen es
  if cyc = 0 then [(0, 2 * t, true)]
  else cycleSegs l es (seam % 64) (spanUnits l t / cyc + 2) (-(l.unitAt (seam % 64)))

/-- A seam of two lists on one raster. -/
def seamSame (pm g : Nat) (l : RefLine) (old new : List (Nat × BitVec 6)) (phase seam : Nat) (t : Rat) : Int :=
  let o := if cycleLen old = 0 then [(-(2 * t), (0 : Rat), true)] else oldSegs l old phase seam t
  seamRho pm g (o ++ newSegs l new seam t) t

/-- A seam of two lists on different rasters: the old one at every phase at which an entry boundary of it meets the seam
or the start of a window that ends on a boundary of the new one (R249). -/
def seamCross (pm g : Nat) (lo ln : RefLine) (old new : List (Nat × BitVec 6)) (seam : Nat) (t : Rat) : Int :=
  let cyc := cycleLen old
  if cyc = 0 then seamSame pm g ln [] new 0 seam t
  else
    let sup := Nat.lcm cyc 64
    let full := lo.unitAt sup
    let ns := newSegs ln new seam t
    let k := (t / max full (1 / 1000)).ceil.toNat + 1
    let base := cycleSegs lo old 0 ((k + 1) * (sup / cyc)) 0
    let edges := (cycleSegs lo old 0 (sup / cyc) 0).map (·.1)
    let ends := ((ns.map (·.1)) ++ (ns.map (·.2.1))).filter (fun x => 0 < x && x ≤ t)
    let phases := edges.flatMap (fun e => e :: ends.map (fun x => e + (t - x)))
    let res := phases.map (fun p =>
      let ph := p - full * ((p / full).floor : Int)
      let sh := -(full * (k : Nat) + ph)
      let os := ((base.map (fun x => (x.1 + sh, x.2.1 + sh, x.2.2))).filter (fun x => x.1 < 0)).map
        (fun x => (x.1, min 0 x.2.1, x.2.2))
      seamRho pm g (os ++ ns) t)
    res.foldl min pm

/-! The lists of a port. -/

/-- Entries of a port in the gate list table: word (port × 64 + entry) × 2 + word (R251). -/
def gclEntries (gcl : SMap Word) (m len : Nat) : List (Nat × BitVec 6) :=
  (List.range (min len 64)).map (fun e =>
    (bits (smGet 0 gcl ((m * 64 + e) * 2)) 15 0, BitVec.ofNat 6 (smGet (0 : Word) gcl ((m * 64 + e) * 2 + 1)).toNat))

/-- The list of a port in a view of the registers and its table. -/
def listOf (v : View) (gcl : SMap Word) (m : Nat) : GateList :=
  { entries := gclEntries gcl m (vf v (F.schedPortCfgLen m)),
    ref := ⟨vf v (F.schedPortCfgRefPipe m) % 8, Nat.mod_lt _ (by decide)⟩,
    baseFrame := v (A.schedBaseFrame m), baseLine := vf v (F.schedBaseLineLine m), baseSteps := none }

/-! Pending parts (R70, R125). -/

/-- The live registers with the words of pending parts laid over them. -/
def pendView (s : State) (words : SMap Word) : View := fun a =>
  match smFind words a with
  | some w => w
  | none => s.reg a

/-- The words that some pending parts carry, the later over the earlier. -/
def wordsOfParts (l : List PendPart) : SMap Word :=
  l.foldl (fun m x => x.words.foldl (fun m e => smPut m e.1 e.2) m) []

/-- The pending parts of a block. -/
def pendParts (s : State) (b : Nat) : List PendPart := s.regs.pend.filter (fun x => x.block == b)

/-- A gate list table with the words of some ports replaced. -/
def putLists (base top : SMap Word) (ms : List Nat) : SMap Word :=
  top.foldl (fun m e => smSet 0 m e.1 e.2) (base.filter (fun e => !ms.contains (e.1 / 128)))

/-- The ports whose gate list a part carries. -/
def listsOf (x : PendPart) : List Nat := (List.range 4).filter (fun m => (smFind x.words (A.schedPortCfg m)).isSome)

/-- The gate list words of some SCHED parts over the live table. -/
def gclOfParts (s : State) (l : List PendPart) : SMap Word := l.foldl (fun m x => putLists m x.gcl (listsOf x)) s.gcl

/-- Some part carries gate lists. -/
def carriesLists (l : List PendPart) : Bool := l.any (fun x => x.block == 6 && x.pipe.isSome)

/-- The gate list of a port in some pending parts of SCHED, if they carry any. -/
def listIn (s : State) (v : View) (parts : List PendPart) (m : Nat) : Option GateList :=
  if carriesLists parts then some (listOf v (gclOfParts s parts) m) else none

/-- The registers with the parts of SCHED and PIPE that are fixed for the next frame starts (R70). -/
def fixedView (s : State) : View := pendView s (wordsOfParts ((pendParts s 6 ++ pendParts s 7).filter (·.fixed)))

/-- The list that is fixed for the next frame start of a port, before a later one that waits as well (R70, R249). -/
def fixedList (s : State) (m : Nat) : Option GateList :=
  listIn s (fixedView s) ((pendParts s 6).filter (fun x => x.fixed && (listsOf x).contains m)) m

/-- The units of a reference pipe are not held to a steady raster (R247). -/
def refDark (s : State) (p : Nat) : Bool :=
  let r := s.pipe p
  match r.gen with
  | .stopped => true
  | .leadIn => true
  | .running => r.black == .relock || r.black == .resync

/-- The ports. -/
def ports4 : List Nat := [0, 1, 2, 3]

/-- The unit count at the start of a frame that the record covers. -/
def histAt : List (Nat × Nat × Nat) → Nat → Option Int
  | [], _ => none
  | (f, st, n) :: r, k => if f ≤ k then some ((st : Int) + (k - f : Nat) * n) else histAt r k

/-- The unit count at a base that has come: by the record, or before it with the VTOTAL in force. -/
def stepsAtBase (s : State) (l : GateList) : Option Int :=
  let r := s.pipe l.ref
  let cur := (s.reg (A.pipeFrame l.ref)).toNat
  let back := (BitVec.ofNat 32 cur - l.baseFrame).toNat
  if 2 ^ 31 ≤ back || (back = 0 && r.line < l.baseLine) then none
  else
    let units : Int := 64 * l.baseLine
    match (if back ≤ cur then histAt r.hist (cur - back) else none) with
    | some k => some (k + units)
    | none => some ((r.steps : Int) - (back * vTotal s.reg l.ref + r.line : Nat) * 64 - r.unit + units)

/-- Units from now to a list's base; negative when it has passed (R245). -/
def unitsToBase (s : State) (v : View) (l : GateList) : Int :=
  let r := s.pipe l.ref
  match l.baseSteps with
  | some k => k - r.steps
  | none => match stepsAtBase s l with
    | some k => k - r.steps
    | none =>
      let fr := signed 32 (l.baseFrame - s.reg (A.pipeFrame l.ref)).toNat
      let rest : Int := if fr ≤ 0 then 0 else vTotal s.reg l.ref + r.extra + (fr - 1) * vTotal v l.ref
      (rest + l.baseLine - r.line) * 64 - r.unit

/-- Units from now to a list's start when it is armed `arm` units from now (R245). -/
def unitsToStart (s : State) (v : View) (l : GateList) (arm : Nat) : Nat :=
  let b := unitsToBase s v l
  let cyc := cycleLen l.entries
  if (arm : Int) ≤ b then b.toNat
  else if cyc = 0 then arm
  else
    let late := ((arm : Int) - b).toNat
    (b + ceilDiv late cyc * cyc).toNat

/-- Units from now to the next frame start of a pipe. -/
def unitsToFrame (s : State) (p : Nat) : Nat :=
  (vTotal s.reg p + (s.pipe p).extra - (s.pipe p).line) * 64 - (s.pipe p).unit

/-- Where the running list of a port stands in its cycle. -/
def gatePhase (g : Gate) (l : GateList) : Nat :=
  ((l.entries.take g.entry).map (·.1)).sum + (nth 0 (l.entries.map (·.1)) g.entry - g.left)

/-- The capacity at the seam between two lists, `now` the phase of the old one and `start` the units to the seam. -/
def seamOf (pm g : Nat) (v : View) (old : Option (GateList × Nat)) (new : GateList) (start seamUnit : Nat) (t : Rat) : Int :=
  match old with
  | none => seamSame pm g (refLine v new.ref) [] new.entries 0 seamUnit t
  | some (o, phase) =>
    if o.ref = new.ref then
      seamSame pm g (refLine v new.ref) o.entries new.entries ((phase + start) % max 1 (cycleLen o.entries)) seamUnit t
    else seamCross pm g (refLine v o.ref) (refLine v new.ref) o.entries new.entries seamUnit t

/-- A list with its raster, or an ungated port. -/
def steadyOf (pm g : Nat) (s : State) (v : View) (l : GateList) (t : Rat) : Int :=
  if cycleLen l.entries = 0 || refDark s l.ref && !(pipeRuns v l.ref && !generatorRuns s l.ref) then pm
  else steadyRho pm g (refLine v l.ref) l.entries t

/-- A list that starts some units from now, with its phase now. -/
def startsIn (l : GateList) (u : Nat) : GateList × Nat := (l, cycleLen l.entries - u % max 1 (cycleLen l.entries))

/-- The lists that may run when a new one, armed on reference pipe `ref` some units from now, starts: the one that runs, one that
waits and has started by then, or one that is fixed to be armed first (R246, R249). -/
def oldLists (s : State) (v : View) (now : Option (GateList × Nat)) (waiting first : Option GateList) (ref : Fin 8) (arm : Nat) :
    List (Option (GateList × Nat)) :=
  let before := fun (k : Nat) => match waiting with
    | none => [now]
    | some w =>
      let u := unitsToStart s v w 0
      if w.ref ≠ ref then [now, some (startsIn w u)] else if u < k then [some (startsIn w u)] else [now]
  match first with
  | none => before arm
  | some f =>
    let a := unitsToFrame s f.ref
    let u := unitsToStart s v f a
    if f.ref ≠ ref then some (startsIn f u) :: before arm
    else if arm ≤ a then before arm
    else if u < arm then [some (startsIn f u)]
    else before a

/-- ρ_m: the running list, a waiting list, a pending list and the seams between them (R131, R249). `first` is a list that is fixed
for the next frame start before the pending one. -/
def rho (s : State) (v : View) (first pend : Option GateList) (m : Nat) (t : Rat) : Int :=
  let pm := payload s
  let g := guardNs s
  let gate := s.gate m
  let run := gate.run
  let runPart := match run with
    | none => (pm : Int)
    | some l => steadyOf pm g s v l t
  let oldNow := match run with
    | none => none
    | some l => if gate.openRef then none else some (l, gatePhase gate l)
  let waitPart := match gate.waiting with
    | none => (pm : Int)
    | some w =>
      let st := unitsToStart s v w 0
      min (steadyOf pm g s v w t)
        (if refDark s w.ref then pm
         else seamOf pm g v oldNow w st ((s.pipe w.ref).unit + st) t)
  let pendPart := match pend with
    | none => (pm : Int)
    | some n =>
      let a1 := unitsToFrame s n.ref
      let arms := [a1, a1 + vTotal v n.ref * 64]
      let seams := arms.map (fun a =>
        let st := unitsToStart s v n a
        let olds := oldLists s v oldNow gate.waiting first n.ref a
        if refDark s n.ref then (pm : Int)
        else (olds.map (fun old => seamOf pm g v old n st ((s.pipe n.ref).unit + st) t)).foldl min (pm : Int))
      min (steadyOf pm g s v n t) (seams.foldl min pm)
  min runPart (min waitPart pendPart)

end Sys2Proof.Machine
end

