-- ==== Sys2Proof/Machine/LaneChecks.lean ====
section
/-! DEFINITION. The checks of a LANE strobe, and of a PIPE strobe against the lane field (spec 11, R276 to R290), and of a DMA strobe
(spec 14, R355). -/

namespace Sys2Proof.Machine

/-- A lane group as a view of the registers has it. -/
structure GroupCfg where
  en : Bool
  itf : Nat
  phy : Bool
  target : Nat
  lanes : Nat
  depth : Nat
  pair : Bool
  mode : Nat
  pnswap : Nat
  pack18 : Bool
  rate : Nat
deriving DecidableEq, Repr

def groupCfg (v : View) (g : Nat) : GroupCfg :=
  { en := vf v (F.laneCfgEn g) != 0, itf := vf v (F.laneCfgIf g), phy := vf v (F.laneCfgPhy g) != 0,
    target := vf v (F.laneCfgTarget g), lanes := vf v (F.laneCfgLanes g), depth := nth 0 [6, 8, 10] (vf v (F.laneCfgDepth g)),
    pair := vf v (F.laneCfgPair g) != 0, mode := vf v (F.laneCfgMode g), pnswap := vf v (F.laneCfgPnswap g),
    pack18 := vf v (F.laneCfgPack18 g) != 0, rate := vf v (F.laneRateRate g) }

/-- An enabled output group: DSI, eDP, LVDS or parallel RGB (R276). -/
def GroupCfg.isOut (c : GroupCfg) : Bool := c.en && decide (c.itf < 4)
def GroupCfg.isIn (c : GroupCfg) : Bool := c.en && c.itf == 4

/-- The ranges of an interface's fields, and no other field set (R281 to R287). -/
def GroupCfg.fieldsOk (c : GroupCfg) : Bool :=
  match c.itf with
  | 0 => within 1 4 c.lanes && within 80 4500 c.rate && c.depth != 0 && !c.pair && !(c.phy && c.pnswap != 0) &&
      !(c.pack18 && c.depth != 6)
  | 1 => [1, 2, 4].contains c.lanes && [1620, 2700, 5400, 8100].contains c.rate && c.depth != 0 && !c.pair && !c.phy &&
      c.mode == 0 && !c.pack18
  | 2 => c.lanes == 0 && c.rate == 0 && c.depth != 0 && !c.phy && c.mode < 2 && !c.pack18
  | 3 => c.lanes == 0 && c.rate == 0 && (c.depth == 6 || c.depth == 8) && !c.phy && c.mode < 2 && !c.pack18 && c.pair &&
      c.pnswap == 0
  | 4 => within 1 4 c.lanes && c.rate ≤ 4500 && !c.pair && c.mode == 0 && !c.pack18 && !(c.phy && c.pnswap != 0)
  | _ => false

/-- Bits per pixel of a DSI stream (R284). -/
def GroupCfg.dsiBits (c : GroupCfg) : Nat := if c.depth = 10 then 30 else if c.depth = 6 && c.pack18 then 18 else 24

/-- A DSI link carries its pipe (R283, R284). -/
def GroupCfg.dsiOk (c : GroupCfg) (v : View) : Bool :=
  let p := c.target
  let b := c.dsiBits
  let f := pixelKHz v p
  let k := if c.phy then c.lanes * c.rate * 16 / 7 else c.lanes * c.rate
  let bytes := (hActive v p * b + 7) / 8 + 6
  !(b == 18 && hActive v p % 4 != 0) &&
  (if c.mode = 0 || c.mode = 3 then decide (64 * (bytes + 12) * f ≤ 7000 * k * hTotal v p)
   else decide (b * f ≤ 1000 * k) && decide (1000 * k ≤ 102 * b * f / 100))

/-- A link carries its pipe in a view of PIPE (R282, R284 to R286); a pipe without a timing has nothing to carry. -/
def GroupCfg.carries (c : GroupCfg) (v : View) : Bool :=
  let p := c.target
  let f := pixelKHz v p
  !(c.itf == 0 && c.mode == 3 && vf v (F.pipeTeEn p) == 0) &&
  (!(timingOk v p && clockOk v p) ||
   (match c.itf with
    | 0 => c.dsiOk v
    | 1 => decide (6 * c.depth * f ≤ c.lanes * c.rate * 1575)
    | 2 =>
      if c.pair then within 280000 2240000 (7 * f) && [vf v (F.pipeHtime0Hactive p), vf v (F.pipeHtime0Hfp p),
        vf v (F.pipeHtime1Hsync p), vf v (F.pipeHtime1Hbp p)].all (· % 2 == 0)
      else within 140000 1120000 (7 * f)
    | _ => decide (f ≤ 100000)))

/-- A camera port's own values (R287, R297). -/
def camFieldsOk (v : View) (c : Nat) : Bool :=
  let dt := vf v (F.laneCamCfgDt c)
  let w := vf v (F.laneCamSizeWidth c)
  let st := vf v (F.laneCamStrideStride c)
  let base := (v (A.laneCamBufLo c)).toNat
  [0x1E, 0x24, 0x22].contains dt && within 8 4096 (vf v (F.laneCamSizeHeight c)) && within 16 4096 w &&
  !(dt == 0x1E && w % 2 == 1) && st % 64 == 0 && w * (if dt = 0x24 then 4 else 2) ≤ st && base % 64 == 0 &&
  (v (A.laneCamBufHi c)).toNat < 2

/-- A camera buffer lies in one channel range (R150). -/
def camRegionOk (v : View) (c : Nat) : Bool :=
  let base := pair64 (v (A.laneCamBufLo c)) (v (A.laneCamBufHi c))
  (regionChannel base (base + 2 * vf v (F.laneCamSizeHeight c) * vf v (F.laneCamStrideStride c) - 1)).isSome

/-- The camera ports that enabled camera layers of the running and armed scenes read (R290). -/
def portsRead (s : State) : List Nat :=
  let step := fun (acc : Comp × List (SMap Word)) (a : Armed) => (acc.1.lay a.writes, acc.2 ++ [(acc.1.lay a.writes).planar])
  let states := s.scene.planar :: (s.scene.armed.foldl step (appliedComp s, [])).2
  states.flatMap (fun m => ((slotsOf m).map (planarOf m)).filterMap (fun l => if l.en && l.camEn then some l.cam else none))

/-- A view changes the buffer, height, stride or type of a port that is being read (R290). -/
def camBusy (s : State) (v : View) : Bool :=
  (portsRead s).any (fun c =>
    [A.laneCamBufLo c, A.laneCamBufHi c, A.laneCamStride c].any (fun a => v a != s.reg a) ||
    vf v (F.laneCamSizeHeight c) != s.fld (F.laneCamSizeHeight c) || vf v (F.laneCamCfgDt c) != s.fld (F.laneCamCfgDt c))

/-- What a view of LANE fails against views of PIPE: PROFILE, BAD_FIELD or ADDR_RANGE, the first that applies (R280). -/
def laneFailure (s : State) (lane : View) (pipes : List View) : Option Nat :=
  let gs := (List.range 8).map (groupCfg lane)
  let outs := (gs.filter GroupCfg.isOut).map (·.target)
  let ins := (gs.filter GroupCfg.isIn).map (·.target)
  let cams := (List.range 6).filter (fun c => vf lane (F.laneCamCfgEn c) != 0)
  let pairBad := (List.range 8).any (fun g =>
    let c := groupCfg lane g
    c.en && c.pair && (g % 2 == 1 || (groupCfg lane (g + 1)).en))
  if outs.any (fun p => profilePipes s ≤ p) then some 0x03
  else if outs.eraseDups.length != outs.length || ins.eraseDups.length != ins.length || ins.any (5 < ·) || pairBad ||
    gs.any (fun c => 4 < c.itf || (c.itf < 4 && c.depth == 0)) ||
    (List.range 6).any (fun c => !([0x1E, 0x24, 0x22].contains (vf lane (F.laneCamCfgDt c)))) ||
    gs.any (fun c => c.en && !(c.fieldsOk && (!c.isOut || pipes.all c.carries))) || cams.any (fun c => !camFieldsOk lane c) ||
    camBusy s lane then some 0x06
  else if cams.any (fun c => !camRegionOk lane c) then some 0x09
  else none

/-- What a view of DMA fails (R355). -/
def dmaFailure (s : State) (v : View) : Option Nat :=
  let pos := [0, 1, 2, 3].filter (fun i => vf v (F.dmaTchCfgKind i) == 1)
  if pos.any (fun i => profilePipes s ≤ vf v (F.dmaTchCfgPipe i)) then some 0x03
  else if [0, 1, 2, 3].any (fun i => vf v (F.dmaTchCfgKind i) == 3 && 28 + i ≤ vf v (F.dmaTchCfgFrom i)) ||
    pos.any (fun i => vTotal s.reg (vf v (F.dmaTchCfgPipe i)) ≤ vf v (F.dmaTchPosLine i)) then some 0x06
  else none

end Sys2Proof.Machine
end

