-- ==== Sys2Proof/Machine/Winnow.lean ====
section
/-! DEFINITION. The winnow (spec 05, R116 to R134, R423, R424, R426; spec 06 and 07 for the layer checks; spec 18, R420): what
a scene touches, the checks in the order of R127, the four inequalities, and the DETAIL of R128. -/

namespace Sys2Proof.Machine

/-! Reason codes (R127). -/
def rBadDescriptor : Nat := 0x01
def rNotOwner : Nat := 0x02
def rProfile : Nat := 0x03
def rThermal : Nat := 0x04
def rReadmit : Nat := 0x05
def rBadField : Nat := 0x06
def rBadFormat : Nat := 0x07
def rBadRect : Nat := 0x08
def rAddrRange : Nat := 0x09
def rChannelOut : Nat := 0x0A
def rTwinChannel : Nat := 0x0B
def rScaleLimit : Nat := 0x0C
def rSiloSpace : Nat := 0x0D
def rSiloLines : Nat := 0x0E
def rDepth : Nat := 0x0F
def rClassSCount : Nat := 0x10
def rClassOrder : Nat := 0x11
def rClassRule : Nat := 0x12
def rLoftBusy : Nat := 0x13
def rLoftRate : Nat := 0x14
def rBinOverflow : Nat := 0x15
def rBlendCycles : Nat := 0x16
def rBandwidth : Nat := 0x17
def rPortTotal : Nat := 0x18
def rFenceTimeout : Nat := 0x19

/-- A verdict with the fields of R128; 0xF names no pipe and no port. -/
def mkVerdict (reason pipe port item : Nat) (next : Bool) (value : Nat) : Verdict :=
  { reason := BitVec.ofNat 8 reason, pipe := BitVec.ofNat 4 pipe, port := BitVec.ofNat 4 port,
    item := BitVec.ofNat 15 item, next := next, value := BitVec.ofNat 32 value, lift := 0 }

/-- The DETAIL of a completion record (R128). -/
def Verdict.detail (v : Verdict) : BitVec 64 :=
  BitVec.ofNat 64 (v.reason.toNat + 2 ^ 8 * v.pipe.toNat + 2 ^ 12 * v.port.toNat + 2 ^ 16 * v.item.toNat +
    2 ^ 31 * v.next.toNat + 2 ^ 32 * v.value.toNat)

/-- The first failure: the lowest reason code, in the order found (R126). -/
def firstFailure (l : List Verdict) : Option Verdict :=
  l.foldl (fun best v => match best with
    | none => some v
    | some b => if v.reason.toNat < b.reason.toNat then some v else some b) none

/-! What a scene touches (R116, R118). -/

/-- The pipes that a set of writes and loads touches, before or after the edit (log 21). -/
def touches (base : Comp) (w : Writes) (loads : List LoftLoad) : List Nat :=
  let new := base.lay w
  let slots := (slotsOf (planarWrites w) ++ ((w.lut.map (fun (e : Nat × Word) => e.1 / 1024)).filter (· < 0x60)) ++
    (w.mat.map (fun (e : Nat × BitVec 16) => e.1 / 12)) ++ w.indep.filter (· < 0x60)).eraseDups
  let fromPlanar := slots.flatMap (fun n => [(planarOf base.planar n).pipe, (planarOf new.planar n).pipe])
  let fromObj := (slotsOf (objWrites w)).flatMap (fun k => [(objLayerOf base.obj k).pipe, (objLayerOf new.obj k).pipe])
  let fromCtx := (w.ctx.map (fun e => e.1 / 8)).eraseDups.flatMap (fun c =>
    [(objLayerOf base.obj (ctxOf base.ctx c).layer).pipe, (objLayerOf new.obj (ctxOf new.ctx c).layer).pipe])
  let fromLut := ((w.lut.map (fun (e : Nat × Word) => e.1 / 1024)).filter (0xC0 ≤ ·)).map (· - 0xC0)
  let fromLoads := loads.map (fun l => l.pipe.val)
  let all := fromPlanar ++ fromObj ++ fromCtx ++ fromLut ++ fromLoads
  pipes8.filter (fun p => all.contains p)

/-- The owning ring of a pipe (R116, R147). -/
def ownerOf (s : State) (p : Nat) : Option Nat :=
  let w := s.reg (if p < 4 then A.sceneOwnerLo else A.sceneOwnerHi)
  let k := p % 4
  if bits w (8 * k + 7) (8 * k + 7) = 1 then some (bits w (8 * k + 4) (8 * k)) else none

/-- The armed parts of a ring, oldest first. -/
def armedOf (s : State) (n : Nat) : List Armed := s.scene.armed.filter (fun a => a.ring.val == n)

/-- The state that a scene of a ring starts from: the applied state with the ring's armed scenes laid over it (R117). -/
def baseComp (s : State) (n : Nat) : Comp := (armedOf s n).foldl (fun c a => c.lay a.writes) (appliedComp s)

/-! One proof. -/

/-- The pipe shows its boot or fallback scene (R419, R420). -/
def showsFallback (s : State) (p : Nat) : Bool := (s.pipe p).boot || (s.pipe p).fallback

/-- FLp is drawn: over a boot or fallback scene, and through the frame in which a host scene replaces it (R317, R320). -/
def drawsFl (s : State) (p : Nat) : Bool := (showsFallback s p || (s.pipe p).flUntilNext) && !(s.pipe p).flGone

/-- A state of one pipe to account: composition, the state before it for INDEPENDENT slots, whether FLp is drawn, alone or
above the scene, and what is shed. A layer that is held off is enabled, and it counts (R129 to R131). -/
structure Alt where
  comp   : Comp
  old    : Comp
  indep  : List Nat
  flOnly : Bool
  withFl : Bool
  shed   : List (Nat × Nat)
  twins  : List Nat

/-- What a proof looks at beside the alternatives of each pipe: a view of the registers, the gate lists that are fixed for the next
frame start before the pending ones, the pending gate lists, the channels that count as in service, the lanes that carry load. -/
structure Ground where
  view  : View
  first : Nat → Option GateList
  lists : Nat → Option GateList
  avail : Nat → Bool
  lanes : Nat

/-- The timing of a pipe is inside its limits (R423). -/
def timed (v : View) (p : Nat) : Bool := timingOk v p

/-- The active area of a pipe as the checks take it: empty without a timing (R423). -/
def areaOf (v : View) (p : Nat) : Nat × Nat := if timed v p then (hActive v p, vActive v p) else (0, 0)

/-- The port that a layer's reads are charged to: of its primary, or of its twin while it reads wholly from it (R168). -/
def chargedPort (l : Planar) (onTwin : Bool) : Option Nat := channelOf (if onTwin then l.twin else l.buf)

/-- The demand of FLp on a pipe, over a scene or alone: with the figures of the fallback proof (R420) where that took the active area
of the view, none where that proof took it out of what the pipe shows, or is to show (R318). -/
def flFigures (s : State) (v : View) (p : Nat) (ctx : SMap Word) : List Dem :=
  let nf := furrows v p
  let area := areaOf v p
  let r := s.pipe p
  if (if (showsFallback s p || r.flUntilNext) && r.gen == .running then r.flGone else r.flOut) then demNone nf
  else match r.flProved.filter (fun x => x.1 = area) with
    | some x => x.2.map (fun d => { demZero with spans := d.1, blends := d.2 })
    | none => boxesDemand (fbBoxes s ctx p area.1 area.2) (fun _ => false) nf

/-- The demand of a pipe in one state (R129 to R133). -/
def altDemand (s : State) (v : View) (p : Nat) (a : Alt) : List Dem :=
  let nf := furrows v p
  let (ha, va) := areaOf v p
  let fl := flFigures s v p a.comp.ctx
  if a.flOnly then fl
  else
    let shedOf := fun code f => a.shed.contains (code, f)
    let one := fun (c : Comp) (n : Nat) =>
      let l := planarOf c.planar n
      if l.en && l.pipe == p then
        planarDemand l (chargedPort l (a.twins.contains n)) (shedOf n) nf
      else demNone nf
    let planarPart := (planarOn a.comp.planar p).filter (fun n => !a.indep.contains n)
    let d1 := planarPart.foldl (fun d n => demAdd d (one a.comp n)) (demNone nf)
    let d2 := a.indep.foldl (fun d n => demAdd d (demSup (one a.old n) (one a.comp n))) d1
    let d3 := (objOn a.comp.obj p).foldl (fun d k =>
      demAdd d (boxesDemand (layerBoxes s a.comp k ha va) (shedOf (0x80 + k)) nf)) d2
    if a.withFl then demAdd d3 fl else d3

/-- Cycles of CCLK in one furrow (R130). -/
def furrowCycles (v : View) (p : Nat) : Nat := 8 * hTotal v p * 1000000 / max 1 (pixelKHz v p)

/-- Demands over several states, furrow by furrow: the largest (R424). VALUE therefore reports the largest left side of the states
that fail (DESIGN CHOICE, log 85). -/
def supOf (nf : Nat) (l : List (List Dem)) : List Dem := l.foldl demSup (demNone nf)

/-- A pipe's share of a frame's accounting: its number, cycles per furrow, clock and line, the demand of each state that it may be
in, and the largest of them in each furrow. -/
structure Row where
  pipe : Nat
  cyc  : Nat
  khz  : Nat
  ht   : Nat
  alts : List (List Dem)
  dem  : List Dem

/-- A row of a pipe that may be in some states. -/
def rowOf (v : View) (p : Nat) (alts : List (List Dem)) : Row :=
  { pipe := p, cyc := furrowCycles v p, khz := pixelKHz v p, ht := hTotal v p, alts := alts, dem := supOf (furrows v p) alts }

/-- The rows of one accounting frame: the pipes that run and have a timing. -/
def rowsOf (s : State) (v : View) (alts : Nat → List Alt) : List Row :=
  ((runningPipes v).filter (fun p => timed v p && p < profilePipes s)).map (fun p => rowOf v p ((alts p).map (altDemand s v p)))

/-- Lane share of a furrow, in 1/64 of a lane (R130). -/
def Row.laneOf (r : Row) (d : Dem) : Nat := ceilDiv (64 * d.blends) r.cyc
def Row.share (r : Row) : Nat := r.dem.foldl (fun m d => max m (r.laneOf d)) 0

/-- d(p, f, m) and D(p, m) in kB/s (R131). -/
def Row.kbs (r : Row) (d : Dem) (m : Nat) : Nat := ceilDiv (nth 0 d.bytes m * r.khz) (8 * r.ht)
def Row.top (r : Row) (m : Nat) : Nat := r.dem.foldl (fun x d => max x (r.kbs d m)) 0

/-- Items of a list with their index. -/
def indexed {α : Type} (l : List α) : List (Nat × α) := (List.range l.length).zip l

/-- R129: bins. -/
def binFails (frames : List (List Row)) : List Verdict :=
  (indexed frames).flatMap (fun (fr, rows) => rows.flatMap (fun r => (indexed r.dem).filterMap (fun (f, d) =>
    if 512 < d.spans then some (mkVerdict rBinOverflow r.pipe 0xF f (fr == 1) d.spans) else none)))

/-- R130: blend cycles. -/
def blendFails (lanes : Nat) (frames : List (List Row)) : List Verdict :=
  (indexed frames).flatMap (fun (fr, rows) =>
    let total := (rows.map Row.share).sum
    rows.flatMap (fun r =>
      let rest := total - r.share
      (indexed r.dem).filterMap (fun (f, d) =>
        let lhs := r.laneOf d + rest
        if 64 * lanes < lhs then some (mkVerdict rBlendCycles r.pipe 0xF f (fr == 1) lhs) else none)))

/-- A demand fetches from a port. -/
def usesPort (m : Nat) (d : List Dem) : Bool := d.any (fun x => nth 0 x.bytes m != 0)

/-- The furrow of a pipe. -/
def furrowTime (v : View) (p : Nat) : Rat := (refLine v p).unitAt 512

/-- The rows with the states that leave T_w of a port at `t` at least: a pipe with a shorter furrow is in a state that does not use
the port. None if some pipe has no such state. -/
def rowsAt (v : View) (rows : List Row) (m : Nat) (t : Rat) : Option (List Row) :=
  let cut := rows.map (fun r => if furrowTime v r.pipe < t then { r with alts := r.alts.filter (fun d => !usesPort m d) } else r)
  if cut.any (fun r => r.alts.isEmpty) then none
  else some (cut.map (fun r => { r with dem := supOf (furrows v r.pipe) r.alts }))

/-- What R131 proves on a port: T_w is the shortest furrow among the pipes with demand on it, so every state of the pipes that the
scene must prove against gives one of a few values, and for each the rows at their largest (R424). A pipe whose layers on the port
are shed in every furrow has no demand on it, and its furrows do not count for T_w (DESIGN CHOICE, log 85). -/
def portCases (v : View) (rows : List Row) (m : Nat) : List (Rat × List Row) :=
  let ts := ((rows.filter (fun r => usesPort m r.dem)).map (fun r => furrowTime v r.pipe)).eraseDups
  ts.filterMap (fun t => (rowsAt v rows m t).map (fun rs => (t, rs)))

/-- The ports with demand, each with its cases: ρ_m and the rows. -/
def rhos (s : State) (g : Ground) (rows : List Row) : List (Nat × List (Int × List Row)) :=
  (List.range 4).filterMap (fun m =>
    let cases := if g.avail m then portCases g.view rows m else []
    if cases.isEmpty then none else some (m, cases.map (fun c => (rho s g.view (g.first m) (g.lists m) m c.1, c.2))))

/-- The left side of R131 for a furrow of a row. -/
def leftSide (rows : List Row) (p m f : Nat) : Nat :=
  (rows.map (fun r => if r.pipe = p then r.kbs (nth demZero r.dem f) m else r.top m)).sum

/-- R131, furrow by furrow: frame, pipe, port, furrow, left side and margin, of the case with the least margin. -/
def bandRows (s : State) (g : Ground) (frames : List (List Row)) : List (Nat × Nat × Nat × Nat × Nat × Int) :=
  (indexed frames).flatMap (fun (fr, rows) =>
    let rs := rhos s g rows
    rows.flatMap (fun r => (List.range r.dem.length).flatMap (fun f => rs.filterMap (fun (m, cases) =>
      (cases.map (fun (rh, rows) => let lhs := leftSide rows r.pipe m f; (lhs, rh - lhs))).foldl
        (fun (b : Option (Nat × Int)) x => match b with | none => some x | some y => if x.2 < y.2 then some x else b) none |>.map
          (fun x => (fr, r.pipe, m, f, x))))))

def bandFails (b : List (Nat × Nat × Nat × Nat × Nat × Int)) : List Verdict :=
  b.filterMap (fun (fr, p, m, f, lhs, margin) =>
    if margin < 0 then some (mkVerdict rBandwidth p m f (fr == 1) lhs) else none)

/-- The smallest margin under R131, first in scan order (R128). Ports without demand have no T_w and are passed over; where no port
has any, the verdict names no pipe and no port, with VALUE 0 (DESIGN CHOICE, log 76). -/
def leastMargin (b : List (Nat × Nat × Nat × Nat × Nat × Int)) : Verdict :=
  let best := b.foldl (fun x y => match x with
    | none => some y
    | some z => if y.2.2.2.2.2 < z.2.2.2.2.2 then some y else some z) none
  match best with
  | none => mkVerdict 0 0xF 0xF 0 false 0
  | some (fr, p, m, f, _, margin) => mkVerdict 0 p m f (fr == 1) margin.toNat

/-! Port totals (R132). -/

/-- The S4 and S5 hold of R238 counts on a port. -/
def s45Held (s : State) (m : Nat) : Bool := s.flag F.schedThrottleReproof || s.fbit F.schedThrottleHeld m

/-- The shaped rates of S2 to S5 on a port in a view, in kB/s; `s45` says whether S4 and S5 count. -/
def shapedRates (v : View) (m : Nat) (s45 : Bool) : Nat :=
  ((List.range 211).filter (fun k => 96 ≤ k && 2 ≤ subClass k && vf v (F.schedSubCfgEn k) != 0 &&
    (vf v (F.schedSubCfgPortMask k)).testBit m && (s45 || subClass k < 4))).foldl
      (fun n k => n + 1000 * vf v (F.schedSubRateRate k)) 0

/-- What R132 adds up on a port. -/
def portTotal (g : Ground) (rows : List Row) (m : Nat) (s45 : Bool) : Nat :=
  (rows.map (·.top m)).sum + shapedRates g.view m s45

/-- R132, on each port whose channel counts as in service; one that is out of service has no P_m, and R131 and R132 pass it over
(DESIGN CHOICE, log 85). -/
def totalFails (s : State) (g : Ground) (frames : List (List Row)) : List Verdict :=
  (indexed frames).flatMap (fun (fr, rows) => (List.range 4).filterMap (fun m =>
    let t := portTotal g rows m (!s45Held s m)
    if g.avail m && payload s < t then some (mkVerdict rPortTotal 0xF m 0 (fr == 1) t) else none))

/-- The held ports on which the second proof of R426 holds. -/
def liftPorts (s : State) (g : Ground) (frames : List (List Row)) : BitVec 4 :=
  BitVec.ofNat 4 ((List.range 4).foldl (fun n m =>
    if s45Held s m && frames.all (fun rows => portTotal g rows m true ≤ payload s) then n + 2 ^ m else n) 0)

/-- The four inequalities over the two accounting frames. -/
def inequalities (s : State) (g : Ground) (frames : List (List Row)) : Verdict :=
  match binFails frames with
  | v :: _ => v
  | [] =>
    match blendFails g.lanes frames with
    | v :: _ => v
    | [] =>
      let b := bandRows s g frames
      match bandFails b with
      | v :: _ => v
      | [] =>
        match totalFails s g frames with
        | v :: _ => v
        | [] => { leastMargin b with lift := liftPorts s g frames }

/-! Layer checks. -/

/-- A failure of a layer: reason, port, value. -/
abbrev LFail := Nat × Nat × Nat

def ifFail (c : Bool) (r port value : Nat) : List LFail := if c then [(r, port, value)] else []

/-- The geometry, fields and formats of an enabled planar layer (R151 to R154, R158). -/
def planarFieldFails (s : State) (m : SMap Word) (n : Nat) : List LFail :=
  let l := planarOf m n
  let bad := (List.range 32).any (fun i => smGet (0 : Word) m (n * 32 + i) &&& planarZero i != 0)
  let cam := s.reg64 (A.laneCamBufLo l.cam) == l.buf && s.fld (F.laneCamSizeHeight l.cam) == l.camLines &&
    s.fld (F.laneCamCfgStore l.cam) == l.fmt
  ifFail (profilePipes s ≤ l.pipe) rProfile 0xF 0 ++
  ifFail (bad || 5 < l.cam || l.filter == 3 || l.buf % 64 != 0 || l.stride % 64 != 0 || l.stride < 64 ||
    1048512 < l.stride || l.plane2 % 64 != 0 || (l.plane2 != 0 && !l.hasPlane2) ||
    (l.twin != 0 && !l.twinEn) || (l.twin2 != 0 && !(l.twinEn && l.fmt == 6)) || l.twin % 64 != 0 || l.twin2 % 64 != 0 ||
    (l.twinEn && !l.clsS) || 256 < l.silo || (l.camLines != 0 && !l.camEn) ||
    l.sw == 0 || 8192 < l.sw || l.sh == 0 || 8192 < l.sh || l.dw == 0 || 8192 < l.dw || l.dh == 0 || 8192 < l.dh ||
    ((l.fmt == 8 || l.fmt == 9) && !l.clsS && !l.matrix) || (l.camEn && !cam)) rBadField 0xF 0 ++
  ifFail (bppOf l.fmt == 0 || (l.clsS && l.fmt == 5)) rBadFormat 0xF 0 ++
  ifFail (l.stride < (l.sx + l.sw) * bppOf l.fmt || (l.camEn && l.camLines < l.sy + l.sh) ||
    (l.fmt == 8 && (l.sx % 2 != 0 || l.sw % 2 != 0)) ||
    (l.fmt == 9 && (l.sx % 2 != 0 || l.sy % 2 != 0 || l.sw % 2 != 0 || l.sh % 2 != 0))) rBadRect 0xF 0 ++
  (let bs := fun x => decide (x < 0x2000) || decide (0x40000 < x)
   ifFail (bs l.hstep || bs l.vstep) rScaleLimit 0xF (if bs l.hstep then l.hstep else l.vstep)) ++
  ifFail (l.clsS && (l.dw != l.sw || l.dh != l.sh || l.hinit != 0 || l.vinit != 0 || l.degamma || l.matrix ||
    l.fmt == 8 || l.fmt == 9 || l.camEn)) rClassRule 0xF 0

/-- The regions of a planar layer (R149, R150). In a re-proof an absent twin is no failure, and a layer that reads wholly from
its twin does not need its primary (R127, R374). -/
def planarRegionFails (s : State) (avail : Nat → Bool) (reproof onTwin : Bool) (l : Planar) : List LFail :=
  let chs := l.regions.map (fun (k, a, n) => (k, a, regionChannel a (a + n - 1)))
  let chOf := fun (k : Nat) => ((chs.find? (fun x => x.1 == k)).map (fun x => x.2.2)).join
  chs.flatMap (fun (k, a, c) =>
    match c with
    | none => [(rAddrRange, ((channelOf a).getD 0xF), 0)]
    | some m =>
      ifFail (k % 2 == 1 && chOf (k - 1) != some m) rAddrRange m 0 ++
      ifFail (profileChannels s ≤ m) rProfile m 0 ++
      ifFail (!avail m && (!reproof || (if onTwin then 2 ≤ k else k < 2))) rChannelOut m 0 ++
      ifFail (k == 2 && chOf 0 == some m) rTwinChannel m 0)

/-- The lines that an allocation holds beyond what is composed: the filter window, and on a raster the ride-through lines (R163). -/
def siloNeed (v : View) (l : Planar) : Nat :=
  (if l.vstep ≤ 0x20000 then 8 else 16) +
  (if timed v l.pipe then ceilDiv (34 * pixelKHz v l.pipe * l.vstep) (65536000 * hTotal v l.pipe) else 0)

/-- The destination rectangle and the silo lines of a planar layer under one timing (R152, R163). `units` is the allocation
that the first furrow can use (R133). -/
def planarTimingFails (v : View) (units : Nat) (l : Planar) : List LFail :=
  let (ha, va) := areaOf v l.pipe
  let held := if l.lineBytes = 0 then 0 else units * 4096 / l.lineBytes
  ifFail (ha < l.dx + l.dw || va < l.dy + l.dh) rBadRect 0xF 0 ++
  ifFail (held < siloNeed v l) rSiloLines 0xF held

/-- The allocation of a slot for the first furrow of frame N: the smaller of old and new for a slot enabled before, whatever its pipe
was, and its new one otherwise (R28, R133). A boot or fallback scene has no slot enabled, so a pipe that leaves one takes its new
allocation (R420). -/
def firstUnits (old new : Comp) (n : Nat) : Nat :=
  let o := planarOf old.planar n
  let l := planarOf new.planar n
  if o.en then min o.silo l.silo else l.silo

/-- An atlas descriptor that a context names (R185 to R187). -/
def atlasFails (loft : List Host.Cell) (i : Nat) : List LFail :=
  let a := atlasOf loft i
  ifFail (!a.zeros || a.pitch == 0 || a.pitch < a.rowBytes || a.cw == 0 || a.ch == 0 || a.bw == 0 || a.bh == 0 ||
    ((atlasRanges loft i).drop 1).any (fun r => r.1 < 0x10000 || 0x800000 < r.1 + r.2)) rBadField 0xF 0 ++
  ifFail (6 < a.fmt) rBadFormat 0xF 0

/-- A drawn context of a layer (R179, R196, R200). -/
def ctxFails (loft : List Host.Cell) (l : ObjLayer) (c : Ctx) : List LFail :=
  let (_, _, w, _) := nth (0, 0, 0, 0) l.clips (c.clip - 1)
  let box := fun i => ((atlasOf loft i).bw, (atlasOf loft i).bh)
  ifFail (c.top || c.x < -8192 || 8191 < c.x || c.y < -8192 || 8191 < c.y || (c.clip != 0 && w == 0) ||
    (c.isMap && 4080 < c.atlas) || (c.isMap && c.descriptors.any (fun i => box i != box c.atlas))) rBadField 0xF 0 ++
  c.descriptors.flatMap (atlasFails loft) ++
  ifFail (c.clsS != l.clsS || (c.clsS && !(c.m00 == 65536 && c.m11 == 65536 && c.m01 == 0 && c.m10 == 0 &&
    c.m02 % 65536 == 32768 && c.m12 % 65536 == 32768))) rClassRule 0xF 0

/-- An enabled object layer (R176, R178). -/
def objFails (s : State) (v : View) (m : SMap Word) (k : Nat) : List LFail :=
  let l := objLayerOf m k
  let (ha, va) := areaOf v l.pipe
  let bad := (List.range 32).any (fun i => smGet (0 : Word) m (k * 32 + i) &&& objZero i != 0)
  ifFail (profilePipes s ≤ l.pipe) rProfile 0xF 0 ++
  ifFail (bad || 0x5F < l.degammaSlot || (!l.degamma && l.degammaSlot != 0) ||
    l.clips.any (fun (_, _, w, h) => 8192 < w || 8192 < h || (w == 0) != (h == 0))) rBadField 0xF 0 ++
  ((indexed l.clips).filter (fun (_, x, y, w, h) => w != 0 && (ha < x + w || va < y + h))).map
    (fun (c, _) => (rBadRect, 0xF, c + 1)) ++
  ifFail (!timed v l.pipe) rBadRect 0xF 0 ++
  ifFail (l.clsS && l.degamma) rClassRule 0xF 0

/-- The enabled layers of a pipe: code, class S, stack position. -/
def layersOn (c : Comp) (p : Nat) : List (Nat × Bool × Nat) :=
  (planarOn c.planar p).map (fun n => (n, (planarOf c.planar n).clsS, (planarOf c.planar n).stack)) ++
  (objOn c.obj p).map (fun k => (0x80 + k, (objLayerOf c.obj k).clsS, (objLayerOf c.obj k).stack))

/-- Limits on the layers of a pipe (R127: DEPTH, CLASS_S_COUNT, CLASS_ORDER; R151: STACK unique). -/
def stackFails (c : Comp) (p : Nat) : List Verdict :=
  let ls := layersOn c p
  let npl := (planarOn c.planar p).length
  let nob := (objOn c.obj p).length
  let cs := (ls.filter (fun x => x.2.1)).length
  let dup := (indexed ls).filter (fun (i, x) => (ls.take i).any (fun y => y.2.2 == x.2.2))
  let topI := (ls.filter (fun x => !x.2.1)).foldl (fun m x => max m (x.2.2 + 1)) 0
  let under := (ls.filter (fun x => x.2.1 && x.2.2 + 1 < topI)).foldl (fun (b : Option (Nat × Nat)) x =>
    match b with
    | none => some (x.1, x.2.2)
    | some y => if x.2.2 < y.2 then some (x.1, x.2.2) else b) none
  dup.map (fun (_, x) => mkVerdict rBadField p 0xF x.1 false 0) ++
  (if 24 < npl then [mkVerdict rDepth p 0xF 0x00 false npl] else []) ++
  (if 8 < nob then [mkVerdict rDepth p 0xF 0x80 false nob] else []) ++
  (if 8 < cs then [mkVerdict rClassSCount p 0xF 0 false cs] else []) ++
  (match under with | some y => [mkVerdict rClassOrder p 0xF y.1 false 0] | none => [])

/-- The failures of a layer as verdicts. -/
def asVerdicts (p item : Nat) (l : List LFail) : List Verdict :=
  l.map (fun (r, port, value) => mkVerdict r p port item false value)

/-- The object checks of a pipe in one frame's object state. -/
def objectChecks (s : State) (v : View) (c : Comp) (p : Nat) : List Verdict :=
  (objOn c.obj p).flatMap (fun k =>
    asVerdicts p (0x80 + k) (objFails s v c.obj k) ++
    (ctxOfLayer s c.ctx k).flatMap (fun i =>
      (ctxFails s.loft (objLayerOf c.obj k) (ctxOf c.ctx i)).map (fun (r, _, _) =>
        mkVerdict r p 0xF (0x80 + k) false i)))

/-- The planar checks of a pipe. -/
def planarChecks (s : State) (v : View) (avail : Nat → Bool) (reproof : Bool) (twins : List Nat) (old new : Comp)
    (p : Nat) : List Verdict :=
  (planarOn new.planar p).flatMap (fun n =>
    let l := planarOf new.planar n
    asVerdicts p (hwSlot n) (planarFieldFails s new.planar n ++ planarRegionFails s avail reproof (twins.contains n) l ++
      planarTimingFails v (firstUnits old new n) l))

/-! Scene checks. -/

/-- Word `i` of a planar slot, as a scene that writes it leaves the slot, holds what R151 and R152 forbid whether or not the slot is
enabled: a zero field that is not zero, a reserved encoding, a value outside a stated range (log 22). -/
def planarWordBad (l : Planar) (i : Nat) (w : Word) : Bool :=
  let size := fun (n : Nat) => n == 0 || decide (8192 < n)
  w &&& planarZero i != 0 ||
  (match i with
   | 0 => decide (5 < l.cam)
   | 1 => l.filter == 3
   | 2 => l.buf % 64 != 0
   | 4 => l.stride % 64 != 0 || decide (l.stride < 64) || decide (1048512 < l.stride)
   | 5 | 6 => l.plane2 % 64 != 0 || (l.plane2 != 0 && !l.hasPlane2)
   | 7 | 8 => l.twin % 64 != 0 || (l.twin != 0 && !l.twinEn)
   | 9 | 10 => l.twin2 % 64 != 0 || (l.twin2 != 0 && !(l.twinEn && l.fmt == 6))
   | 12 => size l.sw || size l.sh
   | 14 => size l.dw || size l.dh
   | 16 => decide (256 < l.silo)
   | 18 => l.camLines != 0 && !l.camEn
   | _ => false)

/-- The same of word `i` of an object layer (R176). -/
def objWordBad (l : ObjLayer) (i : Nat) (w : Word) : Bool :=
  w &&& objZero i != 0 ||
  (if i = 1 then decide (0x5F < l.degammaSlot) || (!l.degamma && l.degammaSlot != 0)
   else if 5 ≤ i && i ≤ 17 && i % 2 = 1 then
     let (_, _, cw, ch) := nth (0, 0, 0, 0) l.clips ((i - 5) / 2)
     decide (8192 < cw) || decide (8192 < ch) || (cw == 0) != (ch == 0)
   else false)

/-- Staged layer words that no scene may write, whether or not the layer is enabled (R151, R154, R176; log 22). -/
def writtenFails (new : Comp) (w : Writes) : List Verdict :=
  let pl := (planarWrites w).filter (fun e => planarWordBad (planarOf new.planar (e.1 / 32)) (e.1 % 32) e.2)
  let fm := (planarWrites w).filter (fun e => e.1 % 32 == 1 && bppOf (bits e.2 3 0) == 0)
  let ob := (objWrites w).filter (fun e => objWordBad (objLayerOf new.obj (e.1 / 32)) (e.1 % 32) e.2)
  pl.map (fun e => mkVerdict rBadField (planarOf new.planar (e.1 / 32)).pipe 0xF (e.1 / 32) false 0) ++
  fm.map (fun e => mkVerdict rBadFormat (planarOf new.planar (e.1 / 32)).pipe 0xF (e.1 / 32) false 0) ++
  ob.map (fun e => mkVerdict rBadField (objLayerOf new.obj (e.1 / 32)).pipe 0xF (0x80 + e.1 / 32) false 0) ++
  (w.indep.filter (0x80 ≤ ·)).map (fun c => mkVerdict rBadField (objLayerOf new.obj (c - 0x80)).pipe 0xF c false 0)

/-- Staged LUT entries (R214, R218). -/
def lutFails (new : Comp) (w : Writes) : List Verdict :=
  w.lut.filterMap (fun e =>
    let t := e.1 / 1024
    let i := e.1 % 1024
    if t < 0x60 then
      if 0x8000 < e.2.toNat then some (mkVerdict rBadField (planarOf new.planar t).pipe 0xF t false i) else none
    else
      let bad := if i = 0 then decide (0x8000 ≤ e.2.toNat) || (bits e.2 14 14 == 1 && bits e.2 13 13 == 0)
        else decide (0x1000 ≤ e.2.toNat)
      if bad then some (mkVerdict rBadField (t - 0xC0) 0xF t false i) else none)

/-- Staged contexts: the reserved range (R317) and a move between pipes (R180). -/
def ctxWriteFails (s : State) (old new : Comp) (w : Writes) : List Verdict :=
  ((w.ctx.map (fun e => e.1 / 8)).eraseDups).filterMap (fun c =>
    let o := ctxOf old.ctx c
    let n := ctxOf new.ctx c
    let po := (objLayerOf old.obj o.layer).pipe
    let pn := (objLayerOf new.obj n.layer).pipe
    if inFbRange s c || (o.en && n.en && po != pn) then some (mkVerdict rBadField pn 0xF (0x80 + n.layer) false c) else none)

/-- The drawn host contexts of a composition, with their pipe and layer. -/
def drawnCtx (s : State) (c : Comp) : List (Nat × Nat × Nat) :=
  (ctxOn c.ctx).filterMap (fun i =>
    let k := (ctxOf c.ctx i).layer
    if (objLayerOf c.obj k).en && !inFbRange s i then some (i, (objLayerOf c.obj k).pipe, k) else none)

def drawnRanges (s : State) (c : Comp) : List (Nat × Nat) :=
  (drawnCtx s c).flatMap (fun x => ctxRanges s.loft (ctxOf c.ctx x.1))

/-- The loads of armed parts and the loads that still run (R189); an abandoned load is neither. -/
def loadsInHand (s : State) : List LoftLoad :=
  s.scene.armed.flatMap (·.loads) ++ s.scene.running.map (·.1)

/-- The checks of loft loads (R184, R189). A context check names the context's pipe (DESIGN CHOICE, log 76). -/
def loadFails (s : State) (avail : Nat → Bool) (new : Comp) (loads : List LoftLoad) : List Verdict :=
  let bin := appliedComp s
  let views := (s.scene.binHeld.map (fun e => binView s e.1)) ++ drawShared s :: s.scene.drawHeld.map (fun e => drawView s e.1)
  let copies := views.map (fun v => ({ planar := [], obj := v.obj, ctx := v.ctx } : Comp))
  let armedStates := (s.scene.armed.foldl (fun (acc : Comp × List Comp) a =>
    (acc.1.lay a.writes, acc.2 ++ [acc.1.lay a.writes])) (bin, [])).2
  let busy := (bin :: copies ++ armedStates).flatMap (drawnRanges s) ++ (loadsInHand s).map (fun l => (l.dest, l.len))
  let perLoad := loads.flatMap (fun l =>
    let src := match regionChannel l.src (l.src + l.len - 1) with
      | none => [mkVerdict rAddrRange l.pipe ((channelOf l.src).getD 0xF) 0 false l.index.toNat]
      | some m =>
        (if profileChannels s ≤ m then [mkVerdict rProfile l.pipe m 0 false l.index.toNat] else []) ++
        (if avail m then [] else [mkVerdict rChannelOut l.pipe m 0 false l.index.toNat])
    (if l.dest < s.fld F.objLoftFloorFloor then [mkVerdict rBadField l.pipe 0xF 0 false l.index.toNat] else []) ++ src ++
    (if busy.any (overlaps (l.dest, l.len)) then [mkVerdict rLoftBusy l.pipe 0xF 0 false l.index.toNat] else []))
  let perCtx := (drawnCtx s new).filterMap (fun (i, q, _) =>
    let rs := ctxRanges s.loft (ctxOf new.ctx i)
    let hit := fun (l : LoftLoad) => rs.any (overlaps (l.dest, l.len))
    if loads.any (fun l => l.pipe.val != q && hit l) || (loadsInHand s).any hit then
      some (mkVerdict rLoftBusy q 0xF 0 false i)
    else none)
  perLoad ++ perCtx

/-- LOFT_RATE of a view (R190): per pipe and source port. -/
def loftRateFails (v : View) (loads : List LoftLoad) : List Verdict :=
  pipes8.flatMap (fun p => (List.range 4).filterMap (fun m =>
    let total := ((loads.filter (fun l => l.pipe.val == p && channelOf l.src == some m)).map (·.len)).sum
    let rate := 1000 * vf v (F.schedSubRateRate (104 + 4 * p + m))
    let limit := if timed v p then rate * vTotal v p * hTotal v p / max 1 (pixelKHz v p) else 0
    if limit < total then some (mkVerdict rLoftRate p m 0 false total) else none))

/-- The pipes that show their boot or fallback scene and hold no units, but for the pipes of some armed parts (R420). -/
def unitless (s : State) (parts : List Armed) : List Nat :=
  pipes8.filter (fun p => showsFallback s p && !parts.any (fun a => a.pipes.any (fun q => q.val == p)))

/-- The units of a slot in a state in which some pipes hold none. -/
def unitsIn (c : Comp) (off : List Nat) (n : Nat) : Nat :=
  ((slotsOf c.planar).filter (fun k => hwSlot k == n && !off.contains (planarOf c.planar k).pipe)).foldl
    (fun m k => max m (planarOf c.planar k).silo) 0

/-- The silo partition (R164): the sum of the larger of old and new units, and 8 units for each running pipe that shows a
host scene. `parts` are the armed parts that stand in the old state; those of them that are committed apply before anything else can,
so that what stood before them counts no more (R117, R119). -/
def siloFails (s : State) (v : View) (parts : List Armed) (old new : Comp) (touched : List Nat) : List Verdict :=
  let off := unitless s parts
  let sure := parts.filter (·.committed)
  let first := sure.foldl (fun c a => c.lay a.writes) (appliedComp s)
  let states := [(first, unitless s sure), (old, off), (new, off.filter (fun p => !touched.contains p))] ++
    s.scene.armed.map (fun a => (first.lay a.writes, unitless s (a :: sure)))
  let slots := ((states.flatMap (fun e => slotsOf e.1.planar)).map hwSlot).eraseDups
  let sum := (slots.map (fun n => states.foldl (fun m e => max m (unitsIn e.1 e.2 n)) 0)).sum
  let units := fun p => ((slotsOf new.planar).map (fun n =>
    if (planarOf new.planar n).pipe = p then (planarOf new.planar n).silo else 0)).sum
  (if 256 < sum then [mkVerdict rSiloSpace 0xF 0xF 0 false sum] else []) ++
  (runningPipes v).filterMap (fun p =>
    if (touched.contains p || !showsFallback s p) && units p < 8 then some (mkVerdict rSiloSpace p 0xF 0 false (units p))
    else none)

/-- READMIT (R127, R294): a unit named must be retired, tested and ready, and a paired lane group is named whole. -/
def readmitFails (s : State) (mc : BitVec 4) (lg : BitVec 8) : List Verdict :=
  let ready := fun u => (s.unit u).retired && (s.unit u).ready
  let mcs := (setBitsBelow 4 mc.toNat).filter (fun m => !ready m)
  let lgs := (List.range 8).filter (fun g =>
    (lg.getLsbD g && !ready (0x30 + g)) ||
    (s.flag (F.laneCfgPair (g / 2 * 2)) && !lg.getLsbD g && lg.getLsbD (if g % 2 = 0 then g + 1 else g - 1)))
  match mcs ++ lgs.map (0x30 + ·) with
  | u :: _ => [mkVerdict rReadmit 0xF 0xF 0 false u]
  | [] => []

/-! Views (R125, R423). -/

/-- The words of the pending sets of SCHED and PIPE. -/
def pendWords (s : State) : SMap Word := wordsOfParts (pendParts s 6 ++ pendParts s 7)

/-- The lanes of the profile that are in service: not retired, and not under the hold of R209. -/
def lanesIn (s : State) : Nat :=
  ((List.range 17).filter (fun k => k ≤ profileLanes s && !(s.unit (0x10 + k)).retired)).length - s.fault.holdFail.toNat

/-- N_L, the lanes that carry load (R203, R33): one less than are in service while two or more are. -/
def lanesLoaded (s : State) : Nat := if 2 ≤ lanesIn s then lanesIn s - 1 else lanesIn s

/-- What a block will stand at: as it is; with the parts that wait for their frame start; with every pending part (R70, R125). -/
def setStates (s : State) (b : Nat) : List (List PendPart) :=
  [[], (pendParts s b).filter (·.fixed), pendParts s b].eraseDups

/-- The ground that some pending parts of SCHED and PIPE give. -/
def groundOn (s : State) (avail : Nat → Bool) (sched pipe : List PendPart) : Ground :=
  let v := pendView s (wordsOfParts (sched ++ pipe))
  let parts := fun m => sched.filter (fun x => (listsOf x).contains m)
  { view := v, avail := avail, lanes := lanesLoaded s, lists := fun m => listIn s v (parts m) m,
    first := fun m => if (parts m).any (fun x => !x.fixed) then fixedList s m else none }

/-- The grounds that a scene is proved on: the active state first, then each that the pending sets of SCHED and PIPE, one or both,
will bring (R125; log 64). -/
def groundsOf (s : State) (avail : Nat → Bool) : List Ground :=
  (setStates s 6).flatMap (fun sched => (setStates s 7).map (groundOn s avail sched))

/-! Alternatives of the pipes. -/

/-- The planar slots that read wholly from their twin. -/
def twinSlots (s : State) : List Nat :=
  (List.range 96).filter (fun n => s.flag (F.layerSlotStatOnTwin n)) ++ s.scene.leaverTwins

/-- The applied state of a pipe. -/
def appliedAlt (s : State) (p : Nat) : Alt :=
  let r := s.pipe p
  { comp := appliedFor s p, old := appliedFor s p, indep := [], flOnly := showsFallback s p, withFl := r.flUntilNext,
    shed := r.shedNext, twins := twinSlots s }

/-- A channel in service, or one that an admitted COMMIT brings back (R134). -/
def mcComing (s : State) (m : Nat) : Bool := mcInService s m || s.scene.readmit.any (fun e => e.2.1.getLsbD m)

/-- The primary of a class S layer lies on a channel that will not serve it, and its twin does or does not (R30 step 5, R168). -/
def lostPrimary (s : State) (l : Planar) : Bool :=
  l.en && l.clsS && l.regions.any (fun (k, a, _) => decide (k < 2) && (channelOf a).any (fun m => !mcComing s m))
def twinServes (s : State) (l : Planar) : Bool := l.twinEn && (channelOf l.twin).any (mcComing s)

/-- The slots of a composition that will read wholly from their twin for want of their primary. -/
def onTwinIn (s : State) (c : Comp) : List Nat :=
  (slotsOf c.planar).filter (fun n => lostPrimary s (planarOf c.planar n) && twinServes s (planarOf c.planar n))

/-- A scene writes the buffer address of a planar slot (R144); its buffer or twin address: reading from the twin ends there (R168).
-/
def bufWritten (w : Writes) (n : Nat) : Bool := [2, 3].any (fun i => (smFind w.layer (n * 32 + i)).isSome)
def twinWritten (w : Writes) (n : Nat) : Bool := [2, 3, 7, 8].any (fun i => (smFind w.layer (n * 32 + i)).isSome)

/-- The states that an armed part gives a pipe: in frame N with the objects before it, in frame N + 1 with its own; in the form
that a re-proof left it (R422). Every part that its ring has armed before lies under it, so a sub-commit that applies before the main
part it follows gives no state of its own (DESIGN CHOICE, log 85). -/
def armedAlts (s : State) (p : Nat) (a : Armed) : List Alt :=
  let base := baseComp { s with scene := { s.scene with armed := s.scene.armed.filter (fun x => x.serial < a.serial) } } a.ring
  let new := base.lay a.writes
  let alt : Alt := { comp := new, old := base, indep := [], flOnly := a.noCap.contains p, withFl := showsFallback s p,
                     shed := (a.shed.filter (fun e => e.1 == p)).map (·.2),
                     twins := (twinSlots s).filter (fun n => !twinWritten a.writes n) ++ onTwinIn s new }
  [{ alt with comp := { planar := new.planar, obj := base.obj, ctx := base.ctx } }, { alt with withFl := false }]

/-- The states of a pipe that a scene does not touch (R129, R424). -/
def untouchedAlts (s : State) (p : Nat) : List Alt :=
  appliedAlt s p :: (s.scene.armed.filter (fun a => a.pipes.any (fun q => q.val == p))).flatMap (armedAlts s p)

/-- The state of a touched pipe in an accounting frame (R129, R320). -/
def touchedAlt (s : State) (base new : Comp) (w : Writes) (p : Nat) (next : Bool) : Alt :=
  let comp := if next then new else { planar := new.planar, obj := base.obj, ctx := base.ctx }
  { comp := comp, old := base, indep := w.indep.filter (· < 0x60), flOnly := false,
    withFl := !next && showsFallback s p, shed := [],
    twins := (twinSlots s).filter (fun n => !twinWritten w n) }

/-- The two accounting frames of a scene on a ground. -/
def sceneFrames (s : State) (g : Ground) (base new : Comp) (w : Writes) (touched : List Nat) : List (List Row) :=
  [false, true].map (fun next => rowsOf s g.view (fun p =>
    if touched.contains p then [touchedAlt s base new w p next] else untouchedAlts s p))

/-! The proof of a COMMIT. -/

/-- The checks before the inequalities on one ground. Of failures with one reason the first in this order is reported: pipes rising,
planar layers before objects, frame N before N + 1 (DESIGN CHOICE, log 76). -/
def sceneChecks (s : State) (g : Ground) (sc : Scene) : List Verdict :=
  let base := baseComp s sc.ring
  let new := base.lay sc.writes
  let touched := touches base sc.writes sc.loads
  let fn : Comp := { planar := new.planar, obj := base.obj, ctx := base.ctx }
  let twins := (twinSlots s).filter (fun n => !twinWritten sc.writes n)
  (match sc.poison with | some i => [mkVerdict rBadDescriptor 0xF 0xF 0 false i.toNat] | none => []) ++
  (touched.filter (fun p => ownerOf s p != some sc.ring.val)).map (fun p => mkVerdict rNotOwner p 0xF 0 false 0) ++
  (touched.filter (fun p => profilePipes s ≤ p)).map (fun p => mkVerdict rProfile p 0xF 0 false 0) ++
  ((setBitsBelow 4 sc.readmitMc.toNat).filter (fun m => profileChannels s ≤ m)).map
    (fun m => mkVerdict rProfile 0xF m 0 false 0) ++
  (if s.flag F.sysTempTrip then [mkVerdict rThermal 0xF 0xF 0 false 0] else []) ++
  readmitFails s sc.readmitMc sc.readmitLg ++
  touched.flatMap (fun p => planarChecks s g.view g.avail false twins base new p ++ objectChecks s g.view fn p ++
    stackFails fn p) ++
  writtenFails new sc.writes ++ lutFails new sc.writes ++ ctxWriteFails s base new sc.writes ++
  touched.flatMap (fun p => objectChecks s g.view new p ++ stackFails new p) ++
  siloFails s g.view (armedOf s sc.ring) base new touched ++ loadFails s g.avail new sc.loads ++ loftRateFails g.view sc.loads

/-- The verdict of a scene on one ground. -/
def sceneVerdictOn (s : State) (sc : Scene) (g : Ground) : Verdict :=
  match firstFailure (sceneChecks s g sc) with
  | some v => v
  | none =>
    let base := baseComp s sc.ring
    let new := base.lay sc.writes
    inequalities s g (sceneFrames s g base new sc.writes (touches base sc.writes sc.loads))

/-- The verdicts of the grounds of a proof: the first failure, or the least margin (R125, R128). The active ground's failure is
reported before a pending one's, even where that one fails an earlier check (DESIGN CHOICE, log 76). -/
def combine (l : List Verdict) : Verdict :=
  match l.find? (fun v => v.reason != 0) with
  | some v => v
  | none =>
    match l with
    | [] => mkVerdict 0 0xF 0xF 0 false 0
    | v :: r => r.foldl (fun b x =>
        let least := if x.pipe != 0xF && (b.pipe == 0xF || x.value.toNat < b.value.toNat) then x else b
        { least with lift := b.lift &&& x.lift }) v

/-- The winnow's verdict on a scene, from the inputs as they stand (R424). READMIT channels count as in service (R134). -/
def sceneVerdict (s : State) (sc : Scene) : Verdict :=
  combine ((groundsOf s (fun m => mcInService s m || sc.readmitMc.getLsbD m)).map (sceneVerdictOn s sc))

/-! The proof of a strobe (R71, R248, R274, R280, R355). The ITEM of its verdict is the mask of the blocks that are refused. -/

/-- A view with words laid over it. -/
def layView (v : View) (words : SMap Word) : View := fun a => match smFind words a with | some w => w | none => v a

/-- The words of the pending sets of a block. -/
def pendOf (s : State) (b : Nat) : SMap Word := wordsOfParts (pendParts s b)

/-- The view that a strobe's words would put in force: over what is pending. -/
def strobeView (s : State) (words : SMap Word) : View :=
  layView (layView (layView s.reg (pendOf s 8)) (pendWords s)) words

/-- The verdict of every running and armed scene on a ground, with the layer checks made again on it (R423). -/
def runningVerdict (s : State) (g : Ground) : Verdict :=
  let c := appliedComp s
  let armed := s.scene.armed.foldl (fun c a => c.lay a.writes) c
  let shown := (List.range (profilePipes s)).filter (fun p => !showsFallback s p)
  let armedPipes := pipes8.filter (fun p => s.scene.armed.any (fun a => a.pipes.any (fun q => q.val == p)))
  let checks := shown.flatMap (fun p => planarChecks s g.view g.avail true (twinSlots s) c c p ++
      objectChecks s g.view (appliedFor s p) p) ++
    armedPipes.flatMap (fun p => planarChecks s g.view g.avail true (twinSlots s) armed armed p ++
      objectChecks s g.view armed p) ++
    siloFails s g.view [] c c [] ++ loftRateFails g.view (s.scene.armed.flatMap (·.loads))
  match firstFailure (checks.filter (fun v => v.reason != BitVec.ofNat 8 rChannelOut)) with
  | some v => v
  | none =>
    let frame := rowsOf s g.view (untouchedAlts s)
    inequalities s g [frame, frame]

/-- A verdict that refuses a strobe for some blocks. -/
def refusal (reason mask : Nat) : Verdict := mkVerdict reason 0xF 0xF mask false 0

/-- The timings of a pipe that count beside a strobe's view (R423). -/
def timingsOf (s : State) (v : View) (p : Nat) : List View :=
  if generatorRuns s p then [s.reg, v] else if pipeRuns v p then [v] else [s.reg]

/-- A SCHED strobe's own checks (R241, R243, R248, R271). -/
def schedOwn (s : State) (v : View) (gcl : SMap Word) : List Verdict :=
  let bad := refusal rBadField 0x40
  (List.range 4).flatMap (fun m =>
    let len := vf v (F.schedPortCfgLen m)
    let p := vf v (F.schedPortCfgRefPipe m)
    let es := (List.range (min len 64)).map (fun e =>
      (smGet (0 : Word) gcl ((m * 64 + e) * 2), smGet (0 : Word) gcl ((m * 64 + e) * 2 + 1)))
    (if profilePipes s ≤ p then [refusal rProfile 0x40] else []) ++
    (if (timingsOf s v p).any (fun w => timed w p && vTotal w p ≤ vf v (F.schedBaseLineLine m)) then [bad] else []) ++
    (if 64 < len then [bad] else []) ++
    (if es.any (fun (d, g) => d == 0 || 65535 < d.toNat || 63 < g.toNat || g.getLsbD 0 != g.getLsbD 1) then [bad] else [])) ++
  (if pipes8.any (fun p => !camLockOk v p) then [bad] else []) ++
  (if (List.range 256).any (fun k => 6400 < vf v (F.schedSubRateRate k) ||
      (96 ≤ k && (vf v (F.schedSubDepthDepth k) == 0 || 1024 < vf v (F.schedSubDepthDepth k)))) then [bad] else []) ++
  (if (List.range 6).any (fun c => vf v (F.schedSubRateRate (96 + c)) < vf v (F.schedPolCfgRate c) ||
      vf v (F.schedPolDepthDepth c) == 0 || 1024 < vf v (F.schedPolDepthDepth c)) then [bad] else [])

/-- A PIPE strobe's own checks: the bases of every list, active or pending, against the new timing (R248), the timing and clocks
(R254 to R260, R268, R271), and the lane field in force and pending (R280). -/
def pipeOwn (s : State) (v : View) : List Verdict :=
  let bad := refusal rBadField 0x80
  let bases := [v, s.reg].any (fun w => (List.range 4).any (fun m =>
    let p := vf w (F.schedPortCfgRefPipe m)
    timed v p && vTotal v p ≤ vf w (F.schedBaseLineLine m)))
  let lane := [s.reg, layView s.reg (pendOf s 8)].filterMap (fun l => laneFailure s l [v])
  (if (runningPipes v).any (fun p => profilePipes s ≤ p) then [refusal rProfile 0x80] else []) ++
  (if pipeChecks s.reg v && !bases then [] else [bad]) ++
  (match lane with | r :: _ => [refusal r 0x80] | [] => [])

/-- The checks of the blocks of a strobe that need no proof: LANE and DMA. -/
def otherOwn (s : State) (blocks : BitVec 16) (v : View) : List Verdict :=
  (if blocks.getLsbD 8 then
    match laneFailure s v [s.reg, v] with | some r => [refusal r 0x100] | none => []
   else []) ++
  (if blocks.getLsbD 11 then
    match dmaFailure s v with | some r => [refusal r 0x800] | none => []
   else [])

/-- What SCHED or PIPE will stand at beside or under a strobe: a block that it names at its own words, the other at its active and
each of its pending states (R125, R249). -/
def strobeStates (s : State) (blocks : BitVec 16) (words : SMap Word) (b : Nat) : List (List PendPart × SMap Word) :=
  if blocks.getLsbD b then
    [([], (words.filter (fun e => e.1 / 0x10000 == b)).foldl (fun m e => smPut m e.1 e.2) (wordsOfParts (pendParts s b)))]
  else (setStates s b).map (fun l => (l, wordsOfParts l))

/-- The grounds that a strobe of SCHED or PIPE is proved on (R71, R249). -/
def strobeGrounds (s : State) (blocks : BitVec 16) (words gcl : SMap Word) : List Ground :=
  (strobeStates s blocks words 6).flatMap (fun sched => (strobeStates s blocks words 7).map (fun pipe =>
    let v := layView (layView s.reg sched.2) pipe.2
    if blocks.getLsbD 6 then
      { view := v, avail := mcInService s, lanes := lanesLoaded s, lists := fun m => some (listOf v gcl m), first := fixedList s }
    else { groundOn s (mcInService s) sched.1 [] with view := v }))

/-- The verdict of a strobe that names SCHED or PIPE. -/
def strobeVerdict (s : State) (blocks : BitVec 16) (words : SMap Word) (gcl : SMap Word) : Verdict :=
  let v := strobeView s words
  let own := (if blocks.getLsbD 7 then pipeOwn s v else []) ++ (if blocks.getLsbD 6 then schedOwn s v gcl else []) ++
    otherOwn s blocks v
  match own with
  | x :: _ => x
  | [] =>
    let x := combine ((strobeGrounds s blocks words gcl).map (runningVerdict s))
    if x.reason = 0 then x else { x with item := BitVec.ofNat 15 ((blocks &&& 0xC0).toNat) }

end Sys2Proof.Machine
end

