-- ==== Sys2Proof/Machine/Gates.lean ====
section
/-! DEFINITION. Gate lists as they run (spec 09, R242 to R247): arming, starting at the base or late, running unit by unit
with the line-position bus, and running ungated while the reference pipe has no steady raster. -/

namespace Sys2Proof.Machine

/-- A frame of a pipe begins: the record of how many units frames had (R245) takes the frame that ended. -/
def noteFrame (r : PipeRt) (frame : Nat) : PipeRt :=
  match r.hist with
  | [] => { r with hist := [(frame, r.steps, 0)] }
  | (f, st, n) :: rest =>
    if n = 0 then { r with hist := (f, st, r.steps - st) :: rest }
    else if r.steps = st + (frame - f) * n then r
    else
      let prev := st + (frame - 1 - f) * n
      { r with hist := (frame - 1, prev, r.steps - prev) :: r.hist }

/-- A waiting list starts: it takes over at entry 0. A list without entries leaves the port ungated (R243). -/
def startGate (s : State) (m : Nat) (l : GateList) (late : Bool) (n : Nat) : State :=
  let g := s.gate m
  let s := if cycleLen l.entries = 0 then s.setGate m { g with run := none, waiting := none, entry := 0, left := 0, openRef := false, resumed := false }
    else s.setGate m { g with run := some l, waiting := none, entry := 0, left := nth 0 (l.entries.map (·.1)) 0,
                              openRef := false, resumed := false }
  if late && cycleLen l.entries ≠ 0 then raise (s.addFld F.schedGclLateCount n) (896 + m) else s

/-- A list is armed on a port: it waits for its start (R245, R246). One without entries whose base has passed starts at once (R243).
-/
def armGate (s : State) (m : Nat) (l : GateList) : State :=
  let g := s.gate m
  let l := { l with baseSteps := stepsAtBase s l }
  let s := s.setGate m { g with waiting := some l, resumed := false }
  if cycleLen l.entries = 0 && l.baseSteps.isSome then startGate s m l false 0 else s

/-- The waiting list of a port at a unit of its reference pipe: its base is noted, and it starts, unless the pipe's frames are no
steady raster (R246, R247). -/
def tickWaiting (s : State) (p m : Nat) : State :=
  match (s.gate m).waiting with
  | none => s
  | some l =>
    if l.ref.val ≠ p then s
    else
      let r := s.pipe p
      let atBase := s.reg (A.pipeFrame p) == l.baseFrame && r.line == l.baseLine && r.unit == 0
      let l := if l.baseSteps.isNone && atBase then { l with baseSteps := some (r.steps : Int) } else l
      let s := s.setGate m { s.gate m with waiting := some l }
      match l.baseSteps with
      | none => s
      | some b =>
        let since := ((r.steps : Int) - b).toNat
        let cyc := cycleLen l.entries
        if cyc = 0 then startGate s m l false 0
        else if refDark s p then s
        else if since % cyc = 0 then startGate s m l (since ≠ 0 || (s.gate m).resumed) (since / cyc)
        else s

/-- The running list of a port goes on by one unit. -/
def tickRunning (s : State) (p m : Nat) : State :=
  let g := s.gate m
  match g.run with
  | none => s
  | some l =>
    if l.ref.val ≠ p || g.openRef then s
    else
      if 1 < g.left then s.setGate m { g with left := g.left - 1 }
      else
        let e := (g.entry + 1) % max 1 l.entries.length
        s.setGate m { g with entry := e, left := nth 0 (l.entries.map (·.1)) e }

/-- The line-position bus of a pipe stands at a new unit: the lists that refer to it start or go on. -/
def gateStep (s : State) (p : Nat) : State :=
  s.each ports4 (fun s m =>
    tickWaiting (if (s.pipe p).steps = 0 then s else tickRunning s p m) p m)

/-- The condition of R247 of a pipe began or ended: its ports are cut, or their list resumes from its base. -/
def gateRecheck (s : State) (p : Nat) : State :=
  s.each ports4 (fun s m =>
    let g := s.gate m
    match g.run with
    | none => s
    | some l =>
      if l.ref.val ≠ p then s
      else if refDark s p then s.setGate m { g with openRef := true }
      else if g.openRef then
        let next := g.waiting.getD l
        let base := next.baseSteps.or (stepsAtBase s next)
        s.setGate m { g with run := none, waiting := some { next with baseSteps := base }, entry := 0, left := 0, openRef := false,
                             resumed := base.any (fun k => decide (k < ((s.pipe next.ref).steps : Int))) }
      else s)

/-- The state of a port (R251): 0 UNGATED, 1 RUNNING, 2 OPEN_REF, 3 RETIRED. -/
def portState (s : State) (m : Nat) : Nat :=
  if (s.unit m).retired then 3
  else
    let g := s.gate m
    match g.run, g.waiting with
    | some _, _ => if g.openRef then 2 else 1
    | none, some w => if w.entries.isEmpty || !refDark s w.ref then 0 else 2
    | none, none => 0

/-- PORT_STAT as it reads (R251). -/
def portStatWord (s : State) (m : Nat) : Word :=
  let g := s.gate m
  let e := if portState s m = 1 then g.entry else 0
  BitVec.ofNat 32 (e * 2 ^ 8 + g.waiting.isSome.toNat * 2 ^ 4 + portState s m)

end Sys2Proof.Machine
end

