-- ==== Sys2Proof/Machine/Light.lean ====
section
/-! DEFINITION. The light block (spec 12): force causes, telltale channels and their supervision, the fallback mapper, the
CAN FD controllers, and the duties of the dimming zones. -/

namespace Sys2Proof.Machine

/-! Force causes (R310). 0 CLASS_S, 1 LINK, 2 PLL, 3 NO_LANES, 4 NO_CAPACITY. -/

/-- Whether a cause holds for a pipe. -/
def causeHolds (s : State) (c p : Nat) : Bool := smGet (0 : BitVec 8) s.light.cause (8 * c + p) != 0

/-- The causes that hold, as FORCE.CAUSE reads them. -/
def forceCauses (s : State) : Nat :=
  (List.range 5).foldl (fun n c => if pipes8.any (causeHolds s c) then n + 2 ^ c else n) 0

/-- The pipes with a cause of their own, as FORCE.PIPE reads them; NO_LANES belongs to no pipe. -/
def forcePipes (s : State) : Nat :=
  pipes8.foldl (fun n p => if [0, 1, 2, 4].any (fun c => causeHolds s c p) then n + 2 ^ p else n) 0

/-- Any force cause holds. -/
def forced (s : State) : Bool := forceCauses s != 0 || s.flag F.lightForceSw

/-! Telltale channels. States: 0 OFF, 1 ON, 2 BLINK_A, 3 BLINK_B. -/

/-- The channels. -/
def ttChannels : List Nat := List.range 24

/-- A used channel (R306). -/
def ttUsed (s : State) (n : Nat) : Bool := s.flag (F.lightTtChDayCode n)

/-- The higher-ranked of two states: ON, BLINK_A, BLINK_B, OFF (R307). -/
def rankOf (st : Nat) : Nat := nth 0 [0, 3, 2, 1] st
def higher (a b : Nat) : Nat := if rankOf a < rankOf b then b else a

/-- The raw field is a match of a TT entry (R314). -/
def ttTrue (s : State) (i : Nat) (raw : Int) : Bool :=
  let v := s.reg (A.lightMapVal i)
  if s.flag (F.lightMapActCmp i) then
    decide ((if s.flag (F.lightMapFieldSigned i) then signed 32 v.toNat else (v.toNat : Int)) ≤ raw)
  else BitVec.ofInt 32 raw == v

/-- The mapper entries. -/
def mapEntries : List Nat := List.range 64

/-- The state that a TT entry gives its channel (R314, R316). -/
def entryState (s : State) (i : Nat) : Nat :=
  let e := s.mapEntry i
  if e.timedOut then s.fld (F.lightMapActStateTimeout i)
  else if e.seen && ttTrue s i e.raw then s.fld (F.lightMapActStateTrue i) else 0

/-- The mapper state of a channel (R314). -/
def mapperState (s : State) (n : Nat) : Nat :=
  mapEntries.foldl (fun st i =>
    if s.flag (F.lightMapIdEn i) && !s.flag (F.lightMapFieldKind i) && s.fld (F.lightMapActCh i) == n then
      higher st (entryState s i) else st) 0

/-- The host state of a channel. -/
def hostState (s : State) (n : Nat) : Nat :=
  if n < 16 then bits (s.reg A.lightTtStateLo) (2 * n + 1) (2 * n)
  else bits (s.reg A.lightTtStateHi) (2 * (n - 16) + 1) (2 * (n - 16))

/-- A channel's own state (R307): a HOST channel follows the mapper while no session is OPEN. -/
def ownState (s : State) (n : Nat) : Nat :=
  match s.fld (F.lightTtChSource n) with
  | 0 => if sessionOpen s then hostState s n else mapperState s n
  | 1 => mapperState s n
  | _ => higher (hostState s n) (mapperState s n)

/-- The channel is lit by the bulb-check; it is forced. -/
def inBulb (s : State) (n : Nat) : Bool := s.pow.bulb && s.flag (F.lightTtChBulb n)
def isForced (s : State) (n : Nat) : Bool := forced s && s.flag (F.lightTtChFallback n)

/-- The settled state of a used channel (R307). -/
def settled (s : State) (n : Nat) : Nat :=
  if !ttUsed s n then 0
  else if inBulb s n then 1
  else if isForced s n then (if s.flag (F.lightTtChForceBlink n) then 2 else 1)
  else ownState s n

/-- TT_STAT.STATE: the state, 4 FORCED, 5 BULB. -/
def ttStateCode (s : State) (n : Nat) : Nat :=
  if !ttUsed s n then 0 else if inBulb s n then 5 else if isForced s n then 4 else ownState s n

/-- The sink conducts now: none before step 8 of the start sequence (R57, R307, R309). -/
def ttLit (s : State) (n : Nat) : Bool :=
  s.pow.started && !(s.tt n).off &&
  (match settled s n with
   | 0 => false
   | 1 => true
   | 2 => s.light.blinkA
   | _ => s.light.blinkB)

/-- The current of a lit channel in units of 0.25 mA (R306): codes 1 to 3 count as 4, codes above 160 as 160. -/
def ttCode (v : Nat) : Nat := if v = 0 then 0 else max 4 (min 160 v)
def ttCurrent (s : State) (n : Nat) : Nat :=
  let day := ttCode (s.fld (F.lightTtChDayCode n))
  let nightRaw := ttCode (s.fld (F.lightTtChNightCode n))
  let night := if nightRaw = 0 then day else nightRaw
  if isForced s n && !inBulb s n then max day night else if s.flag F.lightTtNightNight then night else day

/-- A generator starts anew when its first channel enters its state (R308): it is lit unless its on-time is 0. -/
def startBlink (s : State) : State :=
  let a := ttChannels.any (fun n => settled s n == 2)
  let b := ttChannels.any (fun n => settled s n == 3)
  let l := s.light
  { s with light := { l with
      busyA := a, busyB := b,
      blinkA := if a && !l.busyA then s.flag F.lightTtBlinkAOn else l.blinkA && a,
      blinkB := if b && !l.busyB then s.flag F.lightTtBlinkBOn else l.blinkB && b } }

/-- After a change, a latched short is released when the lit state goes from OFF to lit (R309), and the generators follow. -/
def refreshTelltales (s : State) : State :=
  startBlink (s.each ttChannels (fun s n =>
    let t := s.tt n
    let lit := settled s n != 0
    if lit && !t.wasLit && s.fld (F.lightTtStatFault n) == 3 then
      s.setTt n { retries := 0, wasLit := true, off := false }
    else s.setTt n { t with wasLit := lit }))

/-- A change of force causes: TT_FORCED fires when the set goes from empty to non-empty (R310). -/
def changeForce (s : State) (f : State → State) : State :=
  let s' := f s
  refreshTelltales (if !forced s && forced s' then raise s' 664 else s')

/-- The flags of a cause for a pipe set or cleared: bit 0 for the rest of a frame, bit 1 while its rule holds. -/
def putCause (s : State) (c p : Nat) (v : BitVec 8) : State :=
  { s with light := { s.light with cause := smSet 0 s.light.cause (8 * c + p) v } }
def causeFlags (s : State) (c p : Nat) : BitVec 8 := smGet 0 s.light.cause (8 * c + p)

/-- A cause holds for the rest of a frame of a pipe. -/
def forceFrame (s : State) (c p : Nat) : State := changeForce s (fun s => putCause s c p (causeFlags s c p ||| 1))

/-- A cause holds, or no longer holds, under its own rule. -/
def forceHold (s : State) (c p : Nat) (on : Bool) : State :=
  changeForce s (fun s => putCause s c p (if on then causeFlags s c p ||| 2 else causeFlags s c p &&& ~~~2))

/-- At a frame start of a pipe the causes of its last frame are released. -/
def forceFrameEnd (s : State) (p : Nat) : State :=
  changeForce s (fun s => s.each (List.range 5) (fun s c => putCause s c p (causeFlags s c p &&& ~~~1)))

/-- The software cause (R310). -/
def forceSw (s : State) (on : Bool) : State := changeForce s (fun s => s.setFld F.lightForceSw on.toNat)

/-! Supervision (R309). -/

/-- A channel's fault; TT_FAULT fires at each entry to one. -/
def setTtFault (s : State) (n v : Nat) : State :=
  let was := s.fld (F.lightTtStatFault n)
  let s := s.setFld (F.lightTtStatFault n) v
  if v ≠ 0 && v ≠ was then raise s (640 + n) else s

/-- TT_OPEN_LOAD: an open load while lit. -/
def execTtOpenLoad (ch : Fin 24) (s : State) : Answer :=
  whenUp s (fun s => if ttUsed s ch && ttLit s ch then setTtFault s ch 1 else s)

/-- A check passes: the fault clears. -/
def ttPass (s : State) (n : Nat) : State :=
  setTtFault (s.setTt n { s.tt n with retries := 0, off := false }) n 0

/-- TT_OFF_TEST: the 10 ms test of an unlit channel. -/
def execTtOffTest (ch : Fin 24) (isOpen : Bool) (s : State) : Answer :=
  whenUp s (fun s =>
    if ttUsed s ch && !ttLit s ch && !(s.tt ch).off then
      if isOpen then setTtFault s ch 1 else ttPass s ch
    else s)

/-- TT_SHORT: the sink of a lit channel turns off. -/
def execTtShort (ch : Fin 24) (s : State) : Answer :=
  whenUp s (fun s =>
    if ttUsed s ch && ttLit s ch then
      refreshTelltales (setTtFault (s.setTt ch { s.tt ch with retries := 0, off := true }) ch 2)
    else s)

/-- TT_SHORT_RETRY: the retry after 100 ms; the third that fails latches the short. -/
def execTtShortRetry (ch : Fin 24) (stillShort : Bool) (s : State) : Answer :=
  whenUp s (fun s =>
    if ttUsed s ch && s.fld (F.lightTtStatFault ch) == 2 && (s.tt ch).off then
      if stillShort then
        let t := { s.tt ch with retries := (s.tt ch).retries + 1 }
        let s := s.setTt ch t
        if 3 ≤ t.retries then setTtFault s ch 3 else s
      else ttPass s ch
    else s)

/-- TT_CHECK_PASS: a check of a conducting channel passes. -/
def execTtCheckPass (ch : Fin 24) (s : State) : Answer :=
  whenUp s (fun s => if ttUsed s ch && ttLit s ch then ttPass s ch else s)

/-- BLINK_PHASE: a generator goes to its other phase; an on-time at or above its period, or of 0, has no other phase (R308). -/
def blinkStep (s : State) (genB : Bool) : State :=
  let l := s.light
  if genB then
    let on := s.fld F.lightTtBlinkBOn
    if l.busyB then
      { s with light := { l with blinkB := if on = 0 then false else if s.fld F.lightTtBlinkBPeriod ≤ on then true else !l.blinkB } }
    else s
  else
    let on := s.fld F.lightTtBlinkAOn
    if l.busyA then
      { s with light := { l with blinkA := if on = 0 then false else if s.fld F.lightTtBlinkAPeriod ≤ on then true else !l.blinkA } }
    else s

def execBlinkPhase (genB : Bool) (s : State) : Answer := whenUp s (fun s => blinkStep s genB)

/-- BULB_CHECK_END: BULB_MS after step 8 (R307). -/
def execBulbCheckEnd (s : State) : Answer :=
  whenUp s (fun s => if s.pow.bulb then refreshTelltales { s with pow := { s.pow with bulb := false } } else s)

/-! The fallback mapper (R313 to R316). -/

/-- The positions of a field's bits, least significant first (R313). -/
def fieldBits (start len : Nat) (order : Bool) : List Nat :=
  if order then
    ((List.range (len - 1)).foldl (fun l _ =>
      let p := nth 0 l 0
      (if p % 8 = 0 then p + 15 else p - 1) :: l) [start])
  else (List.range len).map (start + ·)

/-- The raw field of a payload; a payload too short does not hold it. -/
def rawField (s : State) (i : Nat) (data : List Byte) : Option Int :=
  let len := s.fld (F.lightMapFieldLenM1 i) + 1
  let ps := fieldBits (s.fld (F.lightMapFieldStart i)) len (s.flag (F.lightMapFieldOrder i))
  if ps.any (fun p => 8 * data.length ≤ p) then none
  else
    let v := (ps.zip (List.range len)).foldl (fun n (p, k) =>
      n + ((nth 0 data (p / 8)).getLsbD (p % 8)).toNat * 2 ^ k) 0
    some (if s.flag (F.lightMapFieldSigned i) then signed len v else v)

/-- An entry is in use: enabled, with a channel or with digits (R321). -/
def entryUsed (s : State) (i : Nat) : Bool :=
  s.flag (F.lightMapIdEn i) &&
  (if s.flag (F.lightMapFieldKind i) then s.flag (F.lightMapActNdig i) else decide (s.fld (F.lightMapActCh i) < 24))

/-- NDIG, at most 5, and the first context of a DIGITS entry. -/
def digitCount (s : State) (i : Nat) : Nat := min 5 (s.fld (F.lightMapActNdig i))
def digitCtx (s : State) (i : Nat) : Nat := bits (s.reg (A.lightMapAct i)) 31 16

/-- The value of a DIGITS entry, before its clamp (R315). -/
def digitValue (s : State) (i : Nat) (x : Int) : Int :=
  let w := s.reg (A.lightMapVal i)
  let sh := s.fld (F.lightMapActShift i)
  let r : Int := if sh = 0 then 0 else (2 ^ (sh - 1) : Nat)
  (x * (bits w 15 0 : Nat) + r) / ((2 ^ sh : Nat) : Int) + signed 16 (bits w 31 16)

/-- The glyphs of a value in `n` digits, most significant first (R315): 10 is blank, 11 a minus sign. -/
def digitGlyphs (n : Nat) (y : Int) : List Nat :=
  let v := if y < 0 then min y.natAbs (10 ^ (n - 1) - 1) else min y.natAbs (10 ^ n - 1)
  let ds := (List.range n).map (fun k => v / 10 ^ (n - 1 - k) % 10)
  let lead := (ds.takeWhile (· == 0)).length
  let blanks := min lead (n - 1)
  (indexed' ds).map (fun (k, d) => if k < blanks then (if y < 0 && k + 1 = blanks && v ≠ 0 then 11 else 10) else d)
where
  indexed' (l : List Nat) : List (Nat × Nat) := (List.range l.length).zip l

/-- The glyphs that an entry writes: none before it has received a frame, 12 after its timeout. -/
def entryGlyphs (s : State) (i : Nat) : Option (List Nat) :=
  let e := s.mapEntry i
  let n := digitCount s i
  if e.timedOut then some (List.replicate n 12)
  else if e.seen then some (digitGlyphs n (digitValue s i e.raw))
  else none

/-- The glyph value of a context: of the highest-numbered entry that names it, 0 while none drives it (R199, R315). -/
def glyphOf (s : State) (c : Nat) : Nat :=
  mapEntries.foldl (fun g i =>
    if entryUsed s i && s.flag (F.lightMapFieldKind i) then
      let c0 := digitCtx s i
      if c0 ≤ c && c < c0 + digitCount s i then
        match entryGlyphs s i with
        | some l => nth 0 l (c - c0)
        | none => g
      else g
    else g) 0

/-- A controller's nominal or data rate is above its limit (R311): PCLK is 250 MHz. -/
def canConfig (s : State) (b : Nat) : Bool :=
  let n := max 1 (s.fld (F.lightCanNbtBrp b)) *
    (1 + max 2 (s.fld (F.lightCanNbtTseg1 b)) + max 1 (s.fld (F.lightCanNbtTseg2 b)))
  let d := max 1 (s.fld (F.lightCanDbtBrp b)) *
    (1 + max 1 (s.fld (F.lightCanDbtTseg1 b)) + max 1 (s.fld (F.lightCanDbtTseg2 b)))
  decide (n < 250) || decide (d < 50)

/-- CAN_STAT.STATE: 0 ACTIVE, 1 PASSIVE, 2 BUS_OFF, 3 CONFIG. -/
def canState (s : State) (b : Nat) : Nat := if canConfig s b then 3 else s.fld (F.lightCanStatState b)

/-- A controller takes part in its bus. -/
def canRuns (s : State) (b : Nat) : Bool := s.flag (F.lightCanCtlEn b) && canState s b < 2

/-- An entry receives a frame (R313, R316). -/
def entryReceives (s : State) (b : Nat) (ide : Bool) (id : BitVec 29) (data : List Byte) (i : Nat) : State :=
  if entryUsed s i && s.fld (F.lightMapIdBus i) == b && s.flag (F.lightMapIdIde i) == ide &&
     (if ide then s.fld (F.lightMapIdId i) == id.toNat else s.fld (F.lightMapIdId i) % 2048 == id.toNat % 2048) then
    match rawField s i data with
    | some r => s.setMapEntry i { seen := true, timedOut := false, raw := r }
    | none => s
  else s

/-- CAN_FRAME_RECEIVED: a data frame meets the entries of its bus; remote frames are ignored. -/
def execCanFrameReceived (bus : Fin 2) (ide : Bool) (id : BitVec 29) (remote : Bool) (data : List Byte) (s : State) : Answer :=
  whenUp s (fun s =>
    if canRuns s bus && !remote then
      refreshTelltales (s.each mapEntries (fun s i => entryReceives s bus ide id data i))
    else s)

/-- MAPPER_TIMEOUT: an entry with a timeout has received no frame for it (R316). -/
def execMapperTimeout (entry : Fin 64) (s : State) : Answer :=
  whenUp s (fun s =>
    let e := s.mapEntry entry
    if entryUsed s entry && s.flag (F.lightMapFieldTimeout entry) && !e.timedOut then
      raise (refreshTelltales (s.setMapEntry entry { e with timedOut := true })) 665
    else s)

/-- LIGHT.FORCE as it reads. -/
def forceWord (s : State) : Word :=
  BitVec.ofNat 32 (forcePipes s * 2 ^ 16 + (s.flag F.lightForceSw).toNat * 2 ^ 15 + forceCauses s)

/-- The payload of the status frame (R312); reserved bits of LIGHT.FORCE are as they read (R66, log 3). -/
def canStatusBytes (s : State) : List Byte :=
  let f := forceWord s
  let openBits := ttChannels.foldl (fun n c => if s.fld (F.lightTtStatFault c) = 1 then n + 2 ^ c else n) 0
  let shortBits := ttChannels.foldl (fun n c => if 2 ≤ s.fld (F.lightTtStatFault c) then n + 2 ^ c else n) 0
  leBytes 1 (s.fld F.sysStateState + 16 * (forced s).toNat) ++ leBytes 1 (f ||| (Config.trim A.lightForce &&& 0xE0)).toNat ++ leBytes 3 openBits ++ leBytes 3 shortBits

/-- CAN_STATUS_TX: with TX_EN the controller sends the status frame; until the module has started CAN TX is high (R59). -/
def execCanStatusTx (bus : Fin 2) (s : State) : Answer :=
  whenStarted s (fun s =>
    if canRuns s bus && s.flag (F.lightCanTxidTxEn bus) && !s.flag (F.lightCanCtlListen bus) then
      s.emit (.canStatus bus (BitVec.ofNat 29 (s.fld (F.lightCanTxidId bus))) (s.flag (F.lightCanTxidIde bus))
        (s.flag (F.lightCanCtlFd bus)) (canStatusBytes s))
    else s)

/-- BUS_OFF. -/
def execBusOff (bus : Fin 2) (s : State) : Answer :=
  whenUp s (fun s => if canRuns s bus then raise (s.setFld (F.lightCanStatState bus) 2) (666 + bus) else s)

/-- BUS_OFF_RECOVERY: recovery runs automatically, and the counters return to 0 as the standard requires (R311). -/
def execBusOffRecovery (bus : Fin 2) (s : State) : Answer :=
  whenUp s (fun s =>
    if s.fld (F.lightCanStatState bus) = 2 then
      ((s.setFld (F.lightCanStatState bus) 0).setFld (F.lightCanStatTec bus) 0).setFld (F.lightCanStatRec bus) 0
    else s)

/-- CAN_BUS_ERROR: the error counters take their new values; above 127 the controller is PASSIVE. -/
def execCanBusError (bus : Fin 2) (tec rec : BitVec 8) (s : State) : Answer :=
  whenUp s (fun s =>
    if canRuns s bus then
      let s := (s.setFld (F.lightCanStatTec bus) tec.toNat).setFld (F.lightCanStatRec bus) rec.toNat
      s.setFld (F.lightCanStatState bus) (decide (128 ≤ tec.toNat) || decide (128 ≤ rec.toNat)).toNat
    else s)

/-! Dimming (R299 to R304). -/

/-- The zones. -/
def zones40 : List Nat := List.range 40

/-- A zone as its pipe holds it for the frame: enabled, pipe, bounds. -/
def zoneOn (z : Zone) : Bool := F.lightZoneAEn 0 |>.of z.cfg |> (· != 0)
def zonePipe (z : Zone) : Nat := (F.lightZoneAPipe 0).of z.cfg
def zoneHas (z : Zone) (x y : Nat) : Bool :=
  decide ((F.lightZoneXXFirst 0).of z.xs ≤ x) && decide (x ≤ (F.lightZoneXXLast 0).of z.xs) &&
  decide ((F.lightZoneYYFirst 0).of z.ys ≤ y) && decide (y ≤ (F.lightZoneYYLast 0).of z.ys)

/-- The zone of a pixel of a pipe: the lowest-numbered that holds it, enabled or not (R299, R303). -/
def zoneAt (s : State) (p x y : Nat) : Option Nat :=
  zones40.find? (fun i => zonePipe (s.zone i) == p && zoneHas (s.zone i) x y)

/-- MEAN of a zone: rounded to nearest, 0 without pixels (R300). -/
def zoneMean (z : Zone) : Nat := if z.count = 0 then 0 else (2 * z.sum + z.count) / (2 * z.count)

/-- The weight W: values above 16 count as 16. -/
def dimWeight (s : State) : Nat := min 16 (s.fld F.lightDimCfgW)

/-- The duty of a zone before its floor (R301). -/
def zoneDuty (s : State) (z : Zone) : Nat :=
  let q := (dimWeight s * z.peak + (16 - dimWeight s) * zoneMean z + 8) >>> 4
  let k := q >>> 4
  let f := q % 16
  let d := min ((nth 0 z.curve k * (16 - f) + nth 0 z.curve (k + 1) * f + 8) >>> 4) 4095
  let slew := s.fld F.lightDimCfgSlew
  if slew = 0 then d else max d (z.duty - 16 * slew)

/-- The gain that goes with a duty (R301). -/
def zoneGain (s : State) (duty : Nat) : Nat :=
  let mx := max 0x1000 (s.fld F.lightDimStartGainMax)
  if duty = 4095 then 0x1000 else if duty = 0 then mx else min (4096 * 4095 / duty) mx

/-- The vertical blanking of a pipe lasts less than 2 µs (R302). -/
def shortBlank (s : State) (p : Nat) : Bool :=
  decide ((vTotal s.reg p - vActive s.reg p) * linePs s p < 2000000)

/-- A zone's statistics of the frame are reported (R300). -/
def zoneReport (s : State) (i : Nat) : State :=
  (s.setFld (F.lightZoneStatPeak i) (s.zone i).peak).setFld (F.lightZoneStatMean i) (zoneMean (s.zone i))

/-- A zone's duty for the next frame, or late for the one after it, is computed (R302). -/
def zoneNext (s : State) (late : Bool) (i : Nat) : State :=
  let z := s.zone i
  let d := some (zoneDuty s z)
  s.setZone i (if late then { z with later := d } else { z with due := d })

/-- ZONE_UPDATE: at the end of a pipe's last active line the statistics of its zones, enabled or not, are read; after a frame that
shows pixels their duties are computed (R300, R302, R303). -/
def zoneUpdate (s : State) (p : Nat) : State :=
  if (s.pipe p).gen != .running then s
  else
    let mine := zones40.filter (fun i => zonePipe (s.zone i) == p)
    let late := shortBlank s p
    let s := s.each mine zoneReport
    if !shows s p then s
    else
      let s := s.each mine (fun s i => zoneNext s late i)
      if late && mine.any (fun i => zoneOn (s.zone i)) then raise s 669 else s

def execZoneUpdate (pipe : Fin 8) (s : State) : Answer := whenUp s (fun s => zoneUpdate s pipe)

/-- A rectangle meets a zone. -/
def zoneMeets (z : Zone) (r : Rect) : Bool :=
  decide (r.x0 < r.x1) && decide (r.y0 < r.y1) &&
  decide (r.x0 ≤ (F.lightZoneXXLast 0).of z.xs) && decide (((F.lightZoneXXFirst 0).of z.xs : Int) < r.x1) &&
  decide (r.y0 ≤ (F.lightZoneYYLast 0).of z.ys) && decide (((F.lightZoneYYFirst 0).of z.ys : Int) < r.y1)

/-- A zone at a frame start of its pipe: it takes the geometry, floor and curve in force, and its duty and gain. A zone that comes
from another pipe had no pixels there; where the computed duty is late the duty in force stays; a floor holds in either case (R301,
R302). `classS` lists the class S rectangles of the state drawn; `first` says that the frame shows pixels after one that did not
(R303). -/
def zoneStart (s : State) (p : Nat) (showing first : Bool) (classS : List Rect) (i : Nat) : State :=
  let z := s.zone i
  let cfg := s.reg (A.lightZoneA i)
  if (F.lightZoneAPipe 0).of cfg ≠ p then
    if zonePipe z = p then s.setZone i { z with cfg := 0, xs := 1 } else s
  else
    let base : Zone := { z with cfg := cfg, xs := s.reg (A.lightZoneX i), ys := s.reg (A.lightZoneY i),
                                curve := (List.range 17).map (fun k => s.fld (F.lightDimCurveKnot k)),
                                peak := 0, sum := 0, count := 0, covered := false }
    let floored := z.covered || classS.any (zoneMeets base)
    let fl := fun d => if floored then max d ((F.lightZoneAFloor 0).of cfg) else d
    let computed := if zonePipe z = p then z.due else some (zoneDuty s base)
    let duty :=
      if (F.lightZoneAEn 0).of cfg = 0 || !showing then 0
      else if first then s.fld F.lightDimStartDutyStart
      else fl (computed.getD z.duty)
    let gain := if (F.lightZoneAEn 0).of cfg = 0 || !showing || first then 0x1000 else zoneGain s duty
    (s.setZone i { base with duty := duty, gain := gain, due := if showing then z.later else none, later := none }).setFld
      (F.lightZoneStatDuty i) duty

def zonesStart (s : State) (p : Nat) (showing first : Bool) (classS : List Rect) : State :=
  s.each zones40 (fun s i => zoneStart s p showing first classS i)

/-- A pixel of demand level m enters the statistics of its zone (R300). -/
def zoneCount (s : State) (i m : Nat) (covered : Bool) : State :=
  let z := s.zone i
  s.setZone i { z with peak := max z.peak m, sum := z.sum + m, count := z.count + 1, covered := z.covered || covered }

/-- PWM_PERIOD_BOUNDARY: a change of PERIOD takes effect (R304). -/
def execPwmPeriodBoundary (s : State) : Answer :=
  whenUp s (fun s => { s with light := { s.light with period := max 6250 (min 250000 (s.fld F.lightDimCfgPeriod)) } })

/-- The on-time of a dimming output: its first cycle and its length in PCLK cycles; low from a line loss on (R304, R305). -/
def dimOutput (s : State) (n : Nat) : Nat × Nat :=
  (n * s.light.period / 40, if s.flag F.lightDimCfgEn && s.pow.power = .up then (s.zone n).duty * s.light.period / 4095 else 0)

end Sys2Proof.Machine
end

