-- ==== Sys2Proof/Machine/RingBase.lean ====
section
/-! DEFINITION. Submission rings (spec 04, R100 to R110): types, slots, reading descriptors ahead, stopping. -/

namespace Sys2Proof.Machine

/-- The rings. -/
def rings32 : List Nat := List.range 32

/-- The kind of a ring as its RESET took it (R114): 1 SCENE, 2 DMA, else disabled. -/
def ringKind (s : State) (n : Nat) : Nat :=
  let t := (F.ringCfgType n).of (s.ring n).cfg
  if t = 3 then 0 else t

/-- The DMA channel that a ring feeds. -/
def ringChannel (s : State) (n : Nat) : Nat := (F.ringCfgChannel n).of (s.ring n).cfg

/-- The ring that feeds a channel. -/
def channelRing (s : State) (c : Nat) : Option Nat :=
  rings32.find? (fun n => ringKind s n == 2 && ringChannel s n == c)

/-- HOP_LIMIT as the session read it, 16 or more (R113). -/
def hopLimit (s : State) : Nat :=
  max 16 (match s.hw.cur with
    | some c => c.hopLimit
    | none => s.fld F.ringHopLimitLimit)

/-- The ring runs. -/
def ringRuns (s : State) (n : Nat) : Bool := ringState s n == 1

/-- The slot whose descriptor is acted on next. -/
def takeSlot (s : State) (n : Nat) : BitVec 32 :=
  match (s.ring n).waitCommit, (s.ring n).buf with
  | some d, _ => d.index
  | none, d :: _ => d.index
  | none, [] => s.reg (A.ringCi n)

/-- The last slot that a ring has finished with. -/
def lastFinished (s : State) (n : Nat) : BitVec 32 :=
  match (s.ring n).held.find? (fun c => !c.ready), (s.ring n).chain with
  | some c, _ => c.index - 1
  | none, some (_, slot) => slot - 1
  | none, none => takeSlot s n - 1

/-- A COMMIT of a ring is in proof or waits for its proof. -/
def isSceneOf (n : Nat) : WItem → Bool
  | .scene c => c.ring.val == n
  | .strobe _ _ _ _ => false

def ringInProof (s : State) (n : Nat) : Bool :=
  s.scene.queue.any (isSceneOf n) || (match s.scene.inHand with | some (i, _) => isSceneOf n i | none => false)

/-- The completion of a COMMIT of a ring, ADMITTED or REJECTED, is not yet written. -/
def commitOwed (s : State) (n : Nat) : Bool := (s.ring n).held.any (fun c => c.ready && (c.status == 1 || c.status == 2))

/-- Work that a ring has handed over and that ends before the ring stops: a COMMIT in proof or whose completion is not yet written
(R121), descriptors with its channel. -/
def handedOver (s : State) (n : Nat) : Bool :=
  let c := s.chan (ringChannel s n)
  ringInProof s n || commitOwed s n || (ringKind s n == 2 && (c.inHand.isSome || !c.queue.isEmpty))

/-- A ring stops (R103): cause 1 CHAIN_LOOP, 2 DESC_FAULT, 3 HOST_STOP, 4 HOST_LOST, 5 RETIRED_UNIT; the last two retire it.
Reads in flight are no longer its own, and the slots after STOP_INDEX count as not fetched. Source 192 + n fires, whatever CPL_EVT
says (R114; log 62), for a STOPPED ring that a host loss retires too (DESIGN CHOICE, log 73). -/
def haltRing (s : State) (n cause : Nat) (stop : BitVec 32) : State :=
  let r := s.ring n
  let mine := match r.inHand with | some c => some c.key | none => none
  let held := if cause = 4 then [] else r.held.filter (fun c => c.ready || some c.key != mine)
  let s := s.setRing n { r with chain := none, reading := none, buf := [], inHand := none, waitCommit := none,
                                stopping := false, halt := none, held := held }
  let s := (s.setFld (F.ringStatState n) (if 4 ≤ cause then 4 else 3)).setFld (F.ringStatCause n) cause
  let s := (s.setReg (A.ringStopIndex n) stop).setReg (A.ringCi n) (stop + 1)
  raise (s.setFld (F.ringCtlRun n) 0) (192 + n)

/-- A ring acts on nothing more and stops with a cause and STOP_INDEX: at once, or when the work that it has handed over before
has ended (R92, R121). -/
def endRing (s : State) (n cause : Nat) (stop : BitVec 32) : State :=
  if handedOver s n then
    let r := s.ring n
    let mine := match r.inHand with | some c => some c.key | none => none
    s.setRing n { r with chain := none, reading := none, buf := [], inHand := none, waitCommit := none,
                         halt := some (r.halt.getD (cause, stop)), held := r.held.filter (fun c => c.ready || some c.key != mine) }
  else haltRing s n cause stop

/-- A descriptor of a DMA channel is marked bad: its event and count (R366). -/
def countBad (s : State) (c : Nat) : State := raise (s.addFld F.dmaBadDescCount 1) (256 + c)

/-- A descriptor fails before it is carried out: its completion is written with a status (R102, R103). -/
def failSlot (s : State) (n : Nat) (index : BitVec 32) (tag : BitVec 16) (chain : Bool) (status : Nat) : State :=
  complete s n index { nocpl := false, last := false, tag := tag } chain status 0

/-- Descriptors handed to DMA channels and not started, against the 64 entries of the prefetch store (R353). -/
def prefetched (s : State) : Nat := s.dma.foldl (fun n e => n + e.2.queue.length) 0

/-- A ring may read its next descriptors: it runs, has nothing in hand, and its engine is not halted (R353). -/
def mayRead (s : State) (n : Nat) : Bool :=
  let r := s.ring n
  ringRuns s n && (ringKind s n == 1 || (ringKind s n == 2 && !s.dmaHalted && prefetched s < 64)) && r.reading.isNone && r.halt.isNone &&
  (r.buf.isEmpty || (r.chain.isSome && !(r.buf.take 1).any (·.chain))) && r.inHand.isNone && r.waitCommit.isNone

/-- A READ_REQ for descriptors: at most 32 slots, not past the end of the ring (log 23); a chain's one by one. -/
def readAhead (s : State) (n : Nat) : State :=
  if !mayRead s n then s
  else
    let r := s.ring n
    let id := s.hw.nextRead
    match r.chain with
    | some (a, slot) => readHost (s.setRing n { r with reading := some id }) a 32 (.chain (Fin.ofNat 32 n) slot a)
    | none =>
      let ci := s.reg (A.ringCi n)
      let sz := ringSize s n
      let k := min (min (dist (s.reg (A.ringPi n)) ci) 32) (sz - ci.toNat % sz)
      if k = 0 || r.stopping then s
      else readHost (s.setRing n { r with reading := some id }) (r.sq + 32 * (ci.toNat % sz)) (32 * k)
        (.slots (Fin.ofNat 32 n) ci k)

/-- A descriptor from its 32 bytes (R101). -/
def descOf (bs : List Byte) (index : BitVec 32) (chain : Bool) : Desc :=
  let b1 := (nth 0 bs 1).toNat
  { kind := nth 0 bs 0, h := { nocpl := b1.testBit 0, last := b1.testBit 1, tag := BitVec.ofNat 16 (leAt bs 2 2) },
    body := BitVec.ofNat 224 (leAt bs 4 28), index := index, chain := chain }

/-- A later batch begins at a slot (R102). -/
def passMarks (r : Ring) (slot : BitVec 32) : Ring :=
  let left := r.marks.dropWhile (fun m => decide (dist slot m < 2 ^ 31))
  if left.length < r.marks.length then { r with marks := left, batch := 0 } else r

/-- The descriptor counts toward its batch; none past HOP_LIMIT is acted on, and the ring stops (R102). -/
def countHop (s : State) (n : Nat) (d : Desc) : Option State :=
  let r := if d.chain then s.ring n else passMarks (s.ring n) d.index
  let s := s.setRing n { r with batch := r.batch + 1 }
  if hopLimit s < r.batch + 1 then none else some s

/-- CHAIN_LOOP. -/
def loopStop (s : State) (n : Nat) (d : Desc) : State :=
  endRing (failSlot s n d.index d.h.tag d.chain 0x10) n 1 d.index

/-- The chain after a descriptor of it: it ends at LAST (R101). -/
def stepChain (s : State) (n : Nat) (d : Desc) : State :=
  match (s.ring n).chain with
  | some (a, slot) =>
    if d.chain then s.setRing n { s.ring n with chain := if d.h.last then none else some (a + 32, slot) } else s
  | none => s

end Sys2Proof.Machine
end

