-- ==== Sys2Proof/Machine/Operands.lean ====
section
/-! DEFINITION. The operand forms of the ring descriptors (spec 05, R122; spec 14, R349): where each field stands, which bytes
must be zero, and which values a field may take. -/

namespace Sys2Proof.Machine

/-- The bytes of a descriptor body from offset `lo` to offset `hi - 1` are zero. -/
def bodyZero (b : DescBody) (lo hi : Nat) : Bool := bodyBits b lo 0 (8 * (hi - lo)) == 0

/-- A slot code that exists (R122). -/
def slotCodeOk (code : Nat) : Bool := decide (code < 0x60) || (decide (0x80 ≤ code) && decide (code < 0xA0))

/-- Words `lo` to `hi - 1` of the five inline words at offset 8. -/
def inlineWords (b : DescBody) (n : Nat) : List Word :=
  (List.range n).map (fun i => BitVec.ofNat 32 (bodyBits b (8 + 4 * i) 0 32))

/-- LAYER_WORDS and LAYER_BLOCK: slot code, first word, count, INDEP. -/
structure LayerOp where
  slot  : Nat
  first : Nat
  count : Nat
  indep : Bool
deriving DecidableEq, Repr

def layerOp (b : DescBody) : LayerOp :=
  { slot := bodyBits b 4 0 8, first := bodyBits b 5 0 8, count := bodyBits b 6 0 8, indep := bodyBits b 7 0 1 == 1 }

def layerOpOk (b : DescBody) (most : Nat) : Bool :=
  let o := layerOp b
  slotCodeOk o.slot && 1 ≤ o.count && o.count ≤ most && o.first + o.count ≤ 32 && bodyBits b 7 1 7 == 0

/-- LAYER_WORDS is well formed: unused words and bytes 28 to 31 are zero. -/
def layerWordsOk (b : DescBody) : Bool := layerOpOk b 5 && bodyZero b (8 + 4 * (layerOp b).count) 32

/-- The host address at offset 8. -/
def srcAt8 (b : DescBody) : Nat := bodyBits b 8 0 64

/-- LAYER_BLOCK is well formed. -/
def layerBlockOk (b : DescBody) : Bool := layerOpOk b 32 && srcAt8 b % 4 == 0 && bodyZero b 16 32

/-- OBJ_WORDS: the context and the words that MASK names. -/
def objIndex (b : DescBody) : Nat := bodyBits b 4 0 16
def objMask (b : DescBody) : List Nat := setBitsBelow 8 (bodyBits b 6 0 8)
def objWordsOk (b : DescBody) : Bool :=
  objIndex b < 40960 && (objMask b).length ≤ 5 && bodyZero b 7 8 && bodyZero b (8 + 4 * (objMask b).length) 32

/-- OBJ_BLOCK: count of contexts. -/
def objCount (b : DescBody) : Nat := bodyBits b 6 0 16
def objBlockOk (b : DescBody) : Bool :=
  1 ≤ objCount b && objCount b ≤ 4096 && objIndex b + objCount b ≤ 40960 && srcAt8 b % 32 == 0 && bodyZero b 16 32

/-- LUT_LOAD: target, first entry, count, host address. -/
def lutTarget (b : DescBody) : Nat := bodyBits b 4 0 8
def lutFirst (b : DescBody) : Nat := bodyBits b 6 0 16
def lutCount (b : DescBody) : Nat := bodyBits b 8 0 16
def lutSrc (b : DescBody) : Nat := bodyBits b 12 0 64
def lutOk (b : DescBody) : Bool :=
  (lutTarget b < 0x60 || (0xC0 ≤ lutTarget b && lutTarget b < 0xC8)) && bodyZero b 5 6 && lutFirst b < 1024 &&
  1 ≤ lutCount b && lutFirst b + lutCount b ≤ 1024 && bodyZero b 10 12 && bodyZero b 20 32

/-- MATRIX: twelve coefficients. -/
def matrixOk (b : DescBody) : Bool := lutTarget b < 0x60 && bodyZero b 5 8
def matrixCoef (b : DescBody) (i : Nat) : BitVec 16 := BitVec.ofNat 16 (bodyBits b (8 + 2 * i) 0 16)

/-- LOFT_LOAD: destination, length, source, pipe. A load past the end of the loft is out of range (log 24). -/
def loadDest (b : DescBody) : Nat := bodyBits b 4 0 32
def loadLen (b : DescBody) : Nat := bodyBits b 8 0 32
def loadSrc (b : DescBody) : Nat := bodyBits b 12 0 64
def loadPipe (b : DescBody) : Nat := bodyBits b 20 0 8
def loftLoadOk (b : DescBody) : Bool :=
  loadDest b % 64 == 0 && loadLen b % 64 == 0 && 64 ≤ loadLen b && loadLen b ≤ 262144 && loadSrc b % 64 == 0 &&
  loadPipe b < 8 && bodyZero b 21 32 && loadDest b + loadLen b ≤ 0x800000

/-- FENCE_ACQ. -/
def fenceSlot (b : DescBody) : Nat := bodyBits b 4 0 8
def fenceSpace (b : DescBody) : Nat := bodyBits b 5 0 8
def fenceAddr (b : DescBody) : Nat := bodyBits b 8 0 64
def fenceOk (b : DescBody) : Bool :=
  (fenceSlot b < 0x60 || fenceSlot b == 0xFF) && fenceSpace b ≤ 1 && bodyZero b 6 8 && fenceAddr b % 4 == 0 && bodyZero b 20 32

/-- COMMIT. -/
def commitMc (b : DescBody) : BitVec 4 := BitVec.ofNat 4 (bodyBits b 4 0 4)
def commitLg (b : DescBody) : BitVec 8 := BitVec.ofNat 8 (bodyBits b 4 4 8)
def commitOk (b : DescBody) : Bool := bodyBits b 4 12 4 == 0 && bodyZero b 6 32

/-- JUMP. -/
def jumpTarget (b : DescBody) : Nat := bodyBits b 8 0 64

/-! DMA descriptors (R349). -/

def dmaSrcHost (b : DescBody) : Bool := bodyBits b 4 0 1 == 1
def dmaDstHost (b : DescBody) : Bool := bodyBits b 4 1 1 == 1
def dmaTrigger (b : DescBody) : Bool := bodyBits b 4 2 1 == 1
def dmaLen (b : DescBody) : Nat := bodyBits b 8 0 32
def dmaSrc (b : DescBody) : Nat := bodyBits b 12 0 64
def dmaDst (b : DescBody) : Nat := bodyBits b 20 0 64
def dmaPattern (b : DescBody) : Nat := bodyBits b 12 0 32

def dmaZeros (b : DescBody) : Bool := bodyBits b 4 3 5 == 0 && bodyZero b 5 8 && bodyZero b 28 32

/-- COPY, FILL and WRITE32 are well formed. -/
def copyOk (b : DescBody) : Bool := dmaZeros b && 1 ≤ dmaLen b && dmaLen b ≤ 16777216
def fillOk (b : DescBody) : Bool :=
  dmaZeros b && !dmaSrcHost b && dmaLen b % 4 == 0 && 4 ≤ dmaLen b && dmaLen b ≤ 16777216 && dmaDst b % 4 == 0 &&
  bodyZero b 16 20
def write32Ok (b : DescBody) : Bool := dmaZeros b && !dmaSrcHost b && dmaSrc b == 0 && dmaDst b % 4 == 0

/-- A DMA descriptor of a type is well formed. -/
def dmaOk (kind : Nat) (b : DescBody) : Bool :=
  if kind = 0x40 then copyOk b else if kind = 0x41 then fillOk b else if kind = 0x42 then write32Ok b else false

/-- The bytes that a DMA descriptor moves. -/
def dmaBytes (kind : Nat) (b : DescBody) : Nat := if kind = 0x42 then 4 else dmaLen b

end Sys2Proof.Machine
end

