-- ==== Sys2Proof/Machine/Sched.lean ====
section
/-! DEFINITION. The scheduler's subscribers (spec 09, R230 to R241): which port a request may go to, the buckets and their
debt, the throttle of S4 and S5, the camera policers, and the counting of bytes (spec 17, R407). -/

namespace Sys2Proof.Machine

/-- A request to a device address may go to its port: the mask allows it and the channel is in service (R231). -/
def portAllows (s : State) (k a : Nat) : Bool :=
  match channelOf a with
  | none => false
  | some m => mcInService s m && s.fbit (F.schedSubCfgPortMask k) m

/-- S4 and S5 are held on a port (R238). -/
def throttled (s : State) (m : Nat) : Bool := s.flag F.schedThrottleReproof || s.fbit F.schedThrottleHeld m

/-! Buckets (R236, R240). Levels in thousandths of a byte. -/

/-- A bucket's rate and cap: a subscriber, or policer `k - 256`. -/
def bucketRate (s : State) (k : Nat) : Nat :=
  if k < 256 then s.fld (F.schedSubRateRate k) else s.fld (F.schedPolCfgRate (k - 256))
def bucketCap (s : State) (k : Nat) : Int :=
  1024000 * (if k < 256 then s.fld (F.schedSubDepthDepth k) else s.fld (F.schedPolDepthDepth (k - 256)) : Nat)

/-- A bucket is frozen: an S4 or S5 subscriber with a held port in its mask (R238). -/
def bucketFrozen (s : State) (k : Nat) : Bool :=
  decide (k < 256) && decide (4 ≤ subClass k) && k != 210 &&
  [0, 1, 2, 3].any (fun m => throttled s m && s.fbit (F.schedSubCfgPortMask k) m)

/-- The level of a bucket now. A bucket that nothing has touched is full. -/
def levelNow (s : State) (k : Nat) : Int :=
  match smFind s.levels k with
  | none => bucketCap s k
  | some (l, t) =>
    if bucketFrozen s k then l else min (bucketCap s k) (l + bucketRate s k * (s.time.uptime - t : Nat))

def setLevel (s : State) (k : Nat) (v : Int) : State := { s with levels := smPut s.levels k (v, s.time.uptime) }

/-- The levels of the S4 and S5 subscribers are noted before the throttle changes, the full ones too, so that they freeze or go on
from there. -/
def settleLevels (s : State) : State := s.each ((List.range 74).map (136 + ·)) (fun s k => setLevel s k (levelNow s k))

/-- The throttle of R238 changes; S45_THROTTLE fires when a retirement throttles every port, and when the last port is lifted
(R252). -/
def setThrottle (s : State) (reproof : Bool) (held : Nat) : State :=
  let all := s.flag F.schedThrottleReproof
  let was := all || s.flag F.schedThrottleHeld
  let s := settleLevels s
  let s := (s.setFld F.schedThrottleReproof reproof.toNat).setFld F.schedThrottleHeld held
  let now := reproof || held != 0
  if (reproof && !all) || (was && !now) then raise s 906 else s

/-- A burst of a shaped subscriber is charged; a frozen bucket is not (R236, R238). -/
def charge (s : State) (k n : Nat) : State := if bucketFrozen s k then s else setLevel s k (levelNow s k - 1000 * n)

/-- Bytes of a subscriber's class on a port, and of the subscriber (R407). -/
def countBytes (s : State) (k cls a n : Nat) : State :=
  match channelOf a with
  | none => s
  | some m => (s.perfAdd (6 * m + cls) n).perfAdd (256 + k) n

/-- Bales of a planar slot arrive in the silo: the least lead of any on their port and of the slot (R407, log 25). -/
def noteLead (s : State) (n a : Nat) : State :=
  match channelOf a with
  | none => s
  | some m => ((s.perfMin (28 + m) (Config.baleLead s.free)).perfMin (128 + n) (Config.baleLead s.free)).freshen

/-- Bytes moved by a shaped subscriber in one burst. -/
def moveBytes (s : State) (k a n : Nat) : State := countBytes (charge s k n) k (subClass k) a n

/-- Bytes of a burst that turned out to be no payload: neither charged nor counted (R236, R407). -/
def giveBack (s : State) (k a n : Nat) : State :=
  if n = 0 then s
  else
    let s := if bucketFrozen s k then s else setLevel s k (min (bucketCap s k) (levelNow s k + 1000 * n))
    match channelOf a with
    | none => s
    | some m =>
      let s := s.setPerf (6 * m + subClass k) (s.perfCount (6 * m + subClass k) - n)
      s.setPerf (256 + k) (s.perfCount (256 + k) - n)

/-- R237: at a SCHED set's instant a subscriber whose rate or depth differs has its bucket reset; its debt is dropped. `old`
is the state before the set. A policer's change sets it full (R240). -/
def shaperChange (old s : State) : State :=
  let differs := fun k => bucketRate old k != bucketRate s k || bucketCap old k != bucketCap s k
  let s := s.each ((List.range 115).map (· + 96)) (fun s k =>
    if differs k && !bucketFrozen s k then
      let l := levelNow old k
      let s := if l < 0 then s.addFld F.schedDebtDroppedCount ((-l) / 1000).toNat else s
      setLevel s k (if s.flag (F.schedSubRateFillOnChange k) then bucketCap s k else 0)
    else if (smFind s.levels k).isSome then setLevel s k (levelNow old k) else s)
  s.each [256, 257, 258, 259, 260, 261] (fun s k => if differs k then setLevel s k (bucketCap s k)
    else if (smFind s.levels k).isSome then setLevel s k (levelNow old k) else s)

/-- The policer of a camera admits a line of some bytes, and is charged (R240). -/
def policeLine (s : State) (c n : Nat) : State × Bool :=
  if !s.flag (F.schedPolCfgEn c) then (s, true)
  else
    let l := levelNow s (256 + c)
    if 1000 * (n : Int) ≤ l then (setLevel s (256 + c) (l - 1000 * n), true) else (s, false)

/-- SUB_LEVEL as it reads. -/
def subLevelWord (s : State) (k : Nat) : Word := if k < 96 then 0 else BitVec.ofInt 32 (levelNow s k / 1000)

end Sys2Proof.Machine
end

