-- ==== Sys2Proof/Machine/Ports.lean ====
section
/-! DEFINITION. Service on the ports (spec 09, R232 to R236, R239, R244): the requests that wait at a port, the choice of the next
burst, its start and its cutting. A port serves as fast as the rules allow (log 25). -/

namespace Sys2Proof.Machine

/-! The gate of a class (R243, R244). -/

/-- The largest burst of a class in bytes, and its guard band in ns (R233). -/
def burstOf (cls : Nat) : Nat := nth 256 [256, 256, 512, 1024, 2048, 256] cls
def guardOf (s : State) (cls : Nat) : Nat :=
  nth 0 (if profileOf s = 0 then [40, 40, 80, 160, 320, 40] else [54, 54, 107, 214, 427, 54]) cls

/-- A class is open on a port at this instant: the port is ungated, or its entry opens the class (R243). -/
def gateOpens (s : State) (m cls : Nat) : Bool :=
  let g := s.gate m
  match g.run with
  | none => true
  | some l => g.openRef || (nth (0, (0 : BitVec 6)) l.entries g.entry).2.getLsbD cls

/-- Units from the one in hand to the closing of a class that entry `e` opens with `left` units to go; none if no entry closes it. -/
def unitsOpen (es : List (Nat × BitVec 6)) (cls e left : Nat) : Option Nat :=
  let opens := fun (x : Nat × BitVec 6) => x.2.getLsbD cls
  if es.all opens then none else some (left + (((es.drop (e + 1) ++ es.take (e + 1)).takeWhile opens).map (·.1)).sum)

/-- The uptime at which a pipe's raster comes to a unit some units on. -/
def unitTime (s : State) (p n : Nat) : Rat :=
  let l := refLine s.reg p
  let r := s.pipe p
  (r.unitAt : Rat) + (l.unitAt (r.unit + n) - l.unitAt r.unit)

/-- The lists that take over on a port, in their order, each with its start in units of its reference pipe and its uptime: the one
that waits, unless a pending one that is fixed is armed before it starts, and that one (R246). -/
def comingLists (s : State) (m : Nat) : List (GateList × Nat × Rat) :=
  let starts := fun (l : GateList) (u : Nat) => if refDark s l.ref then [] else [(l, u, unitTime s l.ref u)]
  let waits := match (s.gate m).waiting with | none => [] | some w => starts w (unitsToStart s s.reg w 0)
  match fixedList s m with
  | none => waits
  | some f =>
    let arm := unitsToFrame s f.ref
    waits.filter (fun w => w.2.2 < unitTime s f.ref arm) ++ starts f (unitsToStart s (fixedView s) f arm)

/-- The next closing of an open class, given that of the list in force and the lists that take over: at a seam itself where the new
list's first entry does not open the class. -/
def closesAfter (s : State) (cls : Nat) : Option Rat → List (GateList × Nat × Rat) → Option Rat
  | c, [] => c
  | c, (l, u, t) :: r =>
    if c.any (· ≤ t) then c
    else if cycleLen l.entries = 0 then closesAfter s cls none r
    else if !(nth (0, (0 : BitVec 6)) l.entries 0).2.getLsbD cls then some t
    else closesAfter s cls ((unitsOpen l.entries cls 0 (nth (0, (0 : BitVec 6)) l.entries 0).1).map (fun k => unitTime s l.ref (u + k))) r

/-- The uptime of the next closing of an open class on a port whose list runs. -/
def closesAt (s : State) (m cls : Nat) (l : GateList) : Option Rat :=
  closesAfter s cls ((unitsOpen l.entries cls (s.gate m).entry (s.gate m).left).map (unitTime s l.ref)) (comingLists s m)

/-- A burst of a class may start on a port as far as its gate goes: the class is open, and at least its guard band remains before its
next closing. On an ungated port no guard applies (R244). -/
def gateFits (s : State) (m cls : Nat) : Bool :=
  let g := s.gate m
  match g.run with
  | none => true
  | some l => g.openRef || (gateOpens s m cls && match closesAt s m cls l with
    | none => true
    | some t => decide (((guardOf s cls + s.time.uptime : Nat) : Rat) ≤ t))

/-! Requests (R230, R233). -/

/-- A transfer that asks for a port: subscriber, class, the code of its planar slot, its address, the bytes that no burst has taken
yet, the rest of a burst that was cut, which is charged already (R235), and the deadline of a planar request in ps (R234). -/
structure Req where
  sub  : Nat
  cls  : Nat
  code : Nat
  addr : Nat
  at_  : Nat
  left : Nat
  cut  : Nat
  due  : Int

/-- A request of a shaped subscriber: `n` bytes of it are there to move, of which `sent` are taken. -/
def shapedReq (k addr n : Nat) (sent : Nat × Nat) : Req :=
  { sub := k, cls := subClass k, code := 0, addr := addr, at_ := addr + sent.1, left := n - sent.1, cut := sent.2, due := 0 }

/-- The read and write subscribers of a DMA channel. -/
def readSub (c : Nat) : Nat := 136 + 2 * c
def writeSub (c : Nat) : Nat := 137 + 2 * c

/-- The length of the host content that has arrived without a gap. -/
def arrivedLen (m : SMap (List Byte)) : Nat := m.foldl (fun n e => if e.1 = n then n + e.2.length else n) 0

/-- The bytes that a channel's write engine has to hand: what the host has sent, or what its read engine has put into blocks (R347).
-/
def writable (d : DmaChan) (x : DmaDesc) : Nat := if x.d.kind = 0x40 && dmaSrcHost x.d.body then arrivedLen d.got else d.rd.1

/-! The blocks of the DMA buffer (R347). -/

/-- The bytes of a descriptor that the write engine has drained: WRITE frames take what is there. -/
def drained (d : DmaChan) (x : DmaDesc) : Nat := if dmaDstHost x.d.body then writable d x else d.wr.1

/-- The bytes that blocks are taken for: asked of the host, read from device memory, or spelled by a pattern or a value. -/
def filled (d : DmaChan) (x : DmaDesc) : Nat := if x.d.kind = 0x40 && dmaSrcHost x.d.body then d.asked else d.rd.1

/-- The blocks that a channel holds. -/
def blocksHeld (d : DmaChan) : Nat :=
  match d.inHand with
  | some x => if filled d x ≤ drained d x then 0 else (filled d x + 1023) / 1024 - drained d x / 1024
  | none => 0

def bufMax (s : State) (c : Nat) : Nat := if c < 28 then max 1 (min 64 (s.fld (F.dmaChCfgBufMax c))) else 16

/-- Blocks of the shared 192 in use, and of all. -/
def sharedUsed (s : State) : Nat := s.dma.foldl (fun n e => if e.1 < 28 then n + blocksHeld e.2 else n) 0
def bufUsed (s : State) : Nat := s.dma.foldl (fun n e => n + blocksHeld e.2) 0

/-- How far the read engine of a channel may fill, with the blocks that it holds and those that it may take. -/
def fillable (s : State) (c : Nat) (d : DmaChan) (x : DmaDesc) : Nat :=
  let own := blocksHeld d
  let free := if c < 28 then min (bufMax s c - own) (192 - sharedUsed s) else bufMax s c - own
  min (dmaBytes x.d.kind.toNat x.d.body) (1024 * (drained d x / 1024 + own + free))

/-- The read engine of a FILL or WRITE32 puts its pattern or value into the blocks that it may take; what goes to the host leaves
them at once (R347). -/
def fillBlocks (s : State) : State :=
  s.each (s.dma.map (·.1)) (fun s c =>
    let d := s.chan c
    match d.inHand with
    | none => s
    | some x =>
      let to_ := fillable s c d x
      if x.d.kind = 0x40 || to_ ≤ d.rd.1 then s
      else s.setChan c { d with rd := (if dmaDstHost x.d.body then dmaBytes x.d.kind.toNat x.d.body else to_, 0) })

/-- The next entry of a triggered channel's list is to be read: at its port, with a run that goes on (R356). -/
def entryWanted (s : State) (c : Nat) (d : DmaChan) : Option Nat :=
  match d.runAt, d.inHand with
  | some a, none =>
    if d.runLast || d.runRead || d.runHalted || s.dmaHalted || 64 ≤ d.runCount || memEnd < a + 32 || !portAllows s (readSub c) a then none
    else some a
  | _, _ => none

def dmaReqs (s : State) : List Req :=
  s.dma.flatMap (fun e =>
    match e.2.inHand with
    | none => (entryWanted s e.1 e.2).toList.map (fun a => shapedReq (readSub e.1) a 32 (0, 0))
    | some x =>
      let b := x.d.body
      (if x.d.kind = 0x40 && !dmaSrcHost b then [shapedReq (readSub e.1) (dmaSrc b) (fillable s e.1 e.2 x) e.2.rd] else []) ++
      (if dmaDstHost b then [] else [shapedReq (writeSub e.1) (dmaDst b) (writable e.2 x) e.2.wr]))

/-- Where a line of a camera slot is stored (R288). -/
def camLineAddr (s : State) (c slot line : Nat) : Nat :=
  s.reg64 (A.laneCamBufLo c) + (slot * s.fld (F.laneCamSizeHeight c) + line) * s.fld (F.laneCamStrideStride c)

def camReqs (s : State) : List Req :=
  s.cams.flatMap (fun e =>
    match e.2.waiting with
    | [] => []
    | (slot, line, _, bs) :: _ => [shapedReq (96 + e.1) (camLineAddr s e.1 slot line) bs.length e.2.sent])

/-- The subscriber of a load: the loft-fill subscriber of its pipe on the port of its source (R188, R230). -/
def loadSub (l : LoftLoad) : Nat := 104 + 4 * l.pipe.val + (channelOf l.src).getD 0

/-- The load of a pipe that is being fetched: the oldest that runs. -/
def loadInHand (s : State) (p : Nat) : Option (LoftLoad × BitVec 32) :=
  s.scene.running.find? (fun e => e.1.pipe.val == p && !e.1.abandoned)

def loadReqs (s : State) : List Req :=
  pipes8.filterMap (fun p => (loadInHand s p).map (fun e => shapedReq (loadSub e.1) e.1.src e.1.len e.1.got))

def scanReqs (s : State) : List Req := s.scans.map (fun e => shapedReq (202 + e.1) e.2.start e.2.len e.2.got)

/-- The first source line that furrow `f` or a later one taps: the lines before it have left the silo. -/
def firstLeft (l : Planar) (f : Nat) : Nat := l.firstTap (max l.dy (8 * f) - l.dy)

/-- The deadline of a furrow of a pipe: the start of its first output line, in ps, counted from the unit in hand; of a furrow of
the frame in hand or of the next (R204, R234). -/
def furrowDue (s : State) (p : Nat) (next : Bool) (f : Nat) : Int :=
  let r := s.pipe p
  let y : Int := (if next then vTotal s.reg p + r.extra else 0) + 8 * f
  r.unitAt * 1000 + ((y - r.line) * 64 - r.unit) * linePs s p / 64

/-- The pipe that fetches for a slot code. -/
def fetchPipe (s : State) (c : Nat) : Nat := ([0, 1, 2, 3, 4, 5, 6, 7].find? (fun p => ownCode s p c)).getD 0

/-- A fetch unit asks for its lines in order, those of the frame in hand before those of the next (R165). -/
def planarReqs (s : State) : List Req :=
  s.fetches.flatMap (fun e =>
    let behind := e.1 % 2 = 1 && (smFind s.fetches (e.1 - 1)).any (fun f => !f.lines.isEmpty)
    match e.2.lines with
    | [] => []
    | l :: _ =>
      if behind then []
      else [{ sub := hwSlot (e.1 / 2), cls := e.2.cls, code := e.1, addr := l.addr, at_ := l.addr, left := l.left, cut := 0,
              due := furrowDue s (fetchPipe s (e.1 / 2)) (e.1 % 2 = 1) l.furrow }])

/-- A furrow of a layer needs a bale: of a line that it taps, of a chroma line that goes with one, of the palette (R156, R161,
R172). -/
def needsBale (s : State) (n f bale : Nat) : Bool :=
  let l := planarOf s.scene.planar n
  let (k, m) := l.destLines f
  let twin := onTwin s n
  let a2 := if twin then l.twin2 else l.plane2
  let holds := fun (a len : Nat) => a / 64 ≤ bale && bale < a / 64 + len
  let row := fun (t : Nat) =>
    if l.camEn then
      match smFind s.camLines (65536 * n + l.sy + t) with
      | some (slot, _, true) => some (l.buf + (slot * l.camLines + l.sy + t) * l.stride)
      | _ => none
    else some ((if twin then l.twin else l.buf) + (l.sy + t) * l.stride)
  let first := l.firstTap k
  let last := l.lastTap (k + m - 1)
  m != 0 &&
  ((List.range (last + 1 - first)).any (fun i => (row (first + i)).any (fun a => holds (a + l.sx * bppOf l.fmt) l.lineBales)) ||
   (l.fmt == 9 && (List.range (l.lastChroma last + 1 - l.firstChroma first)).any (fun i =>
     holds (a2 + (l.firstChroma first + i) * l.stride + l.sx) l.lineBales)) ||
   (l.fmt == 6 && holds a2 16))

/-- The place in the twin of an address of the primary (R167): plane 2 and the palette stand in twin 2. -/
def twinPlace (l : Planar) (addr : Nat) : Nat :=
  if l.hasPlane2 && l.plane2 ≤ addr && addr < l.plane2 + l.plane2Len then l.twin2 + (addr - l.plane2) else l.twin + (addr - l.buf)

/-- The codes of requests for bales of a twin. -/
def twinReq : Nat := 0x100000

/-- The next furrow that needs a bale of a slot. -/
def baleFurrow (s : State) (n bale : Nat) (next : Bool) : Nat :=
  let p := (planarOf s.scene.planar n).pipe
  let f := if next then 0 else (s.pipe p).line / 8 + 1
  ((List.range (furrows s.reg p)).find? (fun k => f ≤ k && needsBale s n k bale)).getD f

/-- The bales that the twin is to serve are asked of its port in S0, with the deadline of the furrow that needs them (R167, R234). -/
def twinReqs (s : State) : List Req :=
  s.scene.twinAsks.map (fun (c, b, next) =>
    let l := planarOf s.scene.planar c
    let a := twinPlace l (64 * b)
    { sub := hwSlot c, cls := 0, code := twinReq + b, addr := a, at_ := a, left := 64, cut := 0,
      due := furrowDue s l.pipe next (baleFurrow s c b next) })

/-- The device-memory fence words that armed parts wait for are read as subscriber 210 (R138); the address is the request's code. -/
def fenceReqs (s : State) : List Req :=
  ((s.scene.armed.flatMap (fun a => (a.fences.filter (·.reading)).map (·.addr))).eraseDups).map (fun a =>
    { shapedReq 210 a 4 (0, 0) with code := a })

/-- The transfers of the shaped subscribers. -/
def transfers (s : State) : List Req := camReqs s ++ loadReqs s ++ dmaReqs s ++ scanReqs s ++ fenceReqs s

/-- What asks for service. -/
def requests (s : State) : List Req := (planarReqs s ++ twinReqs s ++ transfers s).filter (fun r => 0 < r.left)

/-! Eligibility and choice (R234, R236, R238, R239). -/

/-- A shaped subscriber may start a burst on a port: enabled for it, with a rate, its class not held, its level 1 byte or more: the
level counts whole bytes (R236, the example of a rate raised while in debt). -/
def mayStart (s : State) (k m : Nat) : Bool :=
  s.flag (F.schedSubCfgEn k) && s.flag (F.schedSubRateRate k) && s.fbit (F.schedSubCfgPortMask k) m &&
  !(4 ≤ subClass k && k != 210 && throttled s m) && decide (1000 ≤ levelNow s k)

/-- A port serves: its channel is in service and in no recovery. -/
def portServes (s : State) (m : Nat) : Bool := mcInService s m && !(s.unit m).recovery

def mayTake (s : State) (m : Nat) (r : Req) : Bool :=
  channelOf r.addr == some m && gateFits s m r.cls && (r.cls < 2 || mayStart s r.sub m)

/-- The request of S0 and S1 that goes first: earliest deadline, then S0, then the lower subscriber. -/
def earlier (a b : Req) : Bool :=
  decide (a.due < b.due) || (a.due == b.due && (decide (a.cls < b.cls) || (a.cls == b.cls && decide (a.sub < b.sub))))

/-- The choice of R234 among eligible requests; `last` is the subscriber that each class served last. -/
def chooseReq (rs : List Req) (last : SMap Nat) : Option Req :=
  let first := fun (better : Req → Req → Bool) (l : List Req) =>
    l.foldl (fun (b : Option Req) r => match b with | none => some r | some x => if better r x then some r else some x) none
  match first earlier (rs.filter (fun r => r.cls < 2)) with
  | some r => some r
  | none =>
    [2, 3, 4, 5].findSome? (fun c =>
      let mine := rs.filter (fun r => r.cls == c)
      let low := first (fun a b => decide (a.sub < b.sub))
      (low (mine.filter (fun r => (smFind last c).any (fun k => k < r.sub)))).or (low mine))

def chooseBurst (s : State) (m : Nat) : Option Req :=
  if portServes s m then chooseReq ((requests s).filter (mayTake s m)) (s.gate m).turns else none

/-! Bursts (R233, R235, R236). -/

/-- The payload of the next burst of a request: the rest of a cut burst, or as many bales as its class allows. -/
def burstBytes (r : Req) : Nat :=
  if r.cut = 0 then min r.left (burstOf r.cls - r.at_ % 64) else min r.left r.cut

/-- A fetch unit has taken some bytes of its first line. -/
def takeLine (n : Nat) (f : Fetch) : Fetch :=
  match f.lines with
  | [] => f
  | l :: r => { f with lines := if l.left ≤ n then r else { l with addr := l.addr + n, left := l.left - n } :: r }

/-- The receiver writes the oldest waiting line of a camera: the copy that stood in its place is no complete copy any more (R170). -/
def writeOver (x : Cam) : Cam :=
  match x.waiting with
  | (slot, line, _, _) :: _ => { x with copies := smDel x.copies (2 * line + slot) }
  | [] => x

/-- A fence word satisfies its value (R122). -/
def fenceMet (f : Fence) (w : Word) : Bool := decide (dist w f.value < 2 ^ 31)

/-- A fence word in device memory has been read, for every part of the scenes that asked for it (R138). -/
def fenceRead (s : State) (addr : Nat) : State :=
  let w := leWord (s.load addr 4)
  let here := fun (f : Fence) => !f.host && f.addr == addr
  let keys := (s.scene.armed.filter (fun a => a.fences.any (fun f => here f && f.reading))).map (·.key)
  let see := fun (f : Fence) => if here f then { f with reading := false, signalled := f.signalled || fenceMet f w } else f
  { s with scene := { s.scene with armed := s.scene.armed.map (fun a =>
      if keys.contains a.key then { a with fences := a.fences.map see } else a) } }

/-- Bales of a slot code that were asked of the twin have come: LAYER.TWIN_READS counts them (R167). -/
def takeTwin (s : State) (mine : Nat × Nat × Bool → Bool) : State :=
  let got := s.scene.twinAsks.filter mine
  { s with scene := { s.scene with twinAsks := s.scene.twinAsks.filter (fun e => !mine e), twinBales := s.scene.twinBales ++ got } }.addFld
    F.layerTwinReadsCount got.length

/-- The progress of a transfer changes: bytes taken, and charged bytes that a cut gave back. -/
def moveProgress (s : State) (k code : Nat) (f : Nat × Nat → Nat × Nat) : State :=
  if k < 96 && twinReq ≤ code then takeTwin s (fun e => hwSlot e.1 == k && twinReq + e.2.1 == code)
  else if k < 96 then { s with fetches := s.fetches.map (fun e => if e.1 = code then (e.1, takeLine (f (0, 0)).1 e.2) else e) }
  else if k < 104 then s.setCam (k - 96) (writeOver { s.cam (k - 96) with sent := f (s.cam (k - 96)).sent })
  else if k < 136 then
    match loadInHand s ((k - 104) / 4) with
    | none => s
    | some e =>
      let r := s.scene.running.map (fun y => if y == e then ({ y.1 with got := f y.1.got }, y.2) else y)
      { s with scene := { s.scene with running := r } }
  else if k < 200 then
    let c := (k - 136) / 2
    let d := s.chan c
    s.setChan c (if k % 2 ≠ 0 then { d with wr := f d.wr } else if d.inHand.isNone then { d with runRead := true } else { d with rd := f d.rd })
  else if k = 210 then fenceRead s code
  else { s with scans := s.scans.map (fun e => if e.1 + 202 = k then (e.1, { e.2 with got := f e.2.got }) else e) }

/-- A burst starts: it is charged and counted, unless it is the rest of one that was (R235, R236). -/
def startBurst (s : State) (m : Nat) (r : Req) : State :=
  let n := burstBytes r
  let s := if r.cut ≠ 0 then s
    else if r.cls < 2 then countBytes s r.sub r.cls r.addr n
    else countBytes (charge s r.sub n) r.sub r.cls r.addr n
  let s := moveProgress s r.sub r.code (fun e => (e.1 + n, e.2 - n))
  let g := s.gate m
  s.setGate m (if r.cls < 2 then { g with last := none } else { g with last := some (r.sub, n, r.at_ + n, s.time.uptime), turns := smPut g.turns r.cls r.sub })

/-- The bytes of a burst of `n` bytes up to an address that stand behind one of its bale boundaries: the `c`-th from its end, none
for 0 or where the burst has no such boundary. -/
def cutRest (n stop c : Nat) : Nat :=
  let rest := if stop % 64 = 0 then 64 * c else if c = 0 then 0 else stop % 64 + 64 * (c - 1)
  if rest < n then rest else 0

/-- A request of S0 or S1 may start on a port. -/
def urgent (s : State) (m : Nat) : Bool := (planarReqs s ++ twinReqs s).any (fun r => 0 < r.left && mayTake s m r)

/-- A burst of S2 to S5 that is under way when S0 or S1 may start stops at the next bale boundary; its remaining bales ask again. A
burst is under way for its class's guard band at most (R233); how many bales of it remain then, or none, is timing: a free value
(R235, log 25). -/
def cutBurst (s : State) (m : Nat) : State :=
  match (s.gate m).last with
  | none => s
  | some (k, n, stop, at_) =>
    if s.time.uptime - at_ < guardOf s (subClass k) && portServes s m && urgent s m && (transfers s).any (fun r => r.sub == k && r.at_ == stop) then
      let rest := cutRest n stop (Config.cutBales s.free % (n / 64 + 1))
      let low := if 136 ≤ k && k < 200 && k % 2 = 0 then (s.chan ((k - 136) / 2)).wr.1 else 0
      let s := (s.setGate m { s.gate m with last := none }).freshen
      moveProgress s k 0 (fun e => if low + rest ≤ e.1 then (e.1 - rest, e.2 + rest) else e)
    else s

/-- A port starts the bursts that may start, one after the other. -/
def servePort : Nat → State → Nat → State
  | 0, s, _ => s
  | k + 1, s, m =>
    let s := fillBlocks s
    match chooseBurst s m with
    | none => s
    | some r => servePort k (startBurst s m r) m

/-- More bursts than the waiting transfers have; those of a DMA descriptor come block by block, those of a fetch unit line by line.
-/
def serveFuel (s : State) : Nat :=
  ((requests s).map (fun r => r.left / 32 + 4)).sum + (s.fetches.map (fun e => (e.2.lines.map (fun l => l.left / 32 + 4)).sum)).sum +
    (s.dma.map (fun e => match e.2.inHand with | some x => dmaBytes x.d.kind.toNat x.d.body / 16 + 8 | none => 0)).sum

/-- The ports serve what waits. -/
def servePorts (s : State) : State :=
  let s := fillBlocks s
  if (requests s).isEmpty then s else s.each ports4 (fun s m => servePort (serveFuel s) (cutBurst s m) m)

/-! The fetch units of planar slots (R162 to R165, R204). -/

/-- The lines that a furrow newly needs, in line order, with the source line that each goes with, its address and its bytes; `a` and
`a2` are the bases of the primary and of plane 2, `seen` the last source line and chroma line that furrows before it named. -/
def Planar.furrowReads (l : Planar) (a a2 : Nat) (seen : Option (Nat × Nat)) (f : Nat) : List (Nat × Nat × Nat) × Option (Nat × Nat) :=
  let (k, n) := l.destLines f
  if n = 0 then ([], seen)
  else
    let last := l.lastTap (k + n - 1)
    let first := l.firstTap k
    let lo := match seen with | none => first | some (t, _) => max first (t + 1)
    let clo := match seen with | none => l.firstChroma first | some (_, c) => max (l.firstChroma first) (c + 1)
    let bale := fun (x : Nat) => x / 64 * 64
    let luma := fun (r : Nat) => (r, bale (a + (l.sy + r) * l.stride + l.sx * bppOf l.fmt), 64 * l.lineBales)
    let chroma := fun (r : Nat) =>
      let from_ := if r = lo then clo else max clo (l.lastChroma (r - 1) + 1)
      (List.range (l.lastChroma r + 1 - from_)).map (fun i => (r, bale (a2 + (from_ + i) * l.stride + l.sx), 64 * l.lineBales))
    let rows := (List.range (last + 1 - lo)).map (· + lo)
    ((if l.fmt = 6 && seen.isNone then [(lo, bale a2, 1024)] else []) ++
      rows.flatMap (fun r => luma r :: (if l.fmt = 9 then chroma r else [])), some (last, l.lastChroma last))

/-- What a fetch unit reads for a slot: parameters, bases, furrows, and the furrows that it is left out of. -/
structure Plan1 where
  l    : Planar
  a    : Nat
  a2   : Nat
  nf   : Nat
  shed : Nat → Bool

/-- The lines of the next furrow join those that wait for a place. -/
def Fetch.reach (x : Fetch) (pl : Plan1) : Fetch :=
  if pl.shed x.furrow then { x with furrow := x.furrow + 1 }
  else
    let (ls, seen) := pl.l.furrowReads pl.a pl.a2 x.seen x.furrow
    { x with furrow := x.furrow + 1, seen := seen, todo := x.todo ++ ls.map (fun e =>
        { row := e.1, furrow := x.furrow, addr := e.2.1, left := e.2.2 }) }

/-- The lines before source line `top` have their place in the allocation, and ask for their port. -/
def Fetch.grant (pl : Plan1) (top : Nat) : Nat → Fetch → Fetch
  | 0, x => x
  | k + 1, x =>
    let go := x.todo.takeWhile (fun l => decide (l.row < top))
    let y := { x with lines := x.lines ++ go, todo := x.todo.drop go.length }
    if y.todo.isEmpty && y.furrow < pl.nf then Fetch.grant pl top k (y.reach pl) else y

/-- The lines of every furrow up to one have been named. -/
def Fetch.through (pl : Plan1) (f : Nat) : Nat → Fetch → Fetch
  | 0, x => x
  | k + 1, x => if x.furrow ≤ f then Fetch.through pl f k (x.reach pl) else x

/-- A fetch unit at the beginning of a frame. -/
def fetchInit (cls : Nat) : Fetch := { cls := cls, furrow := 0, seen := none, todo := [], lines := [] }

/-- The bales that the furrow needed from a twin have come with it. -/
def twinEnds (s : State) (n f : Nat) : State :=
  let mine := fun (e : Nat × Nat × Bool) => e.1 == n && !e.2.2 && needsBale s n f e.2.1
  let s := s.each (s.scene.twinAsks.filter mine) (fun s e =>
    let a := twinPlace (planarOf s.scene.planar n) (64 * e.2.1)
    if (channelOf a).any (mcInService s) then countBytes s (hwSlot n) 0 a 64 else s)
  takeTwin s mine

/-- At a furrow's first line its lines have come: what no burst has taken of them yet is counted now (log 25). -/
def fetchEnds (s : State) (key f : Nat) (x : Fetch) : State :=
  let mine := (x.lines ++ x.todo).filter (fun l => decide (l.furrow ≤ f))
  let rest := fun (ls : List FetchLine) => ls.filter (fun l => !decide (l.furrow ≤ f))
  let s := s.each mine (fun s l => if (channelOf l.addr).any (mcInService s) then countBytes s (hwSlot (key / 2)) x.cls l.addr l.left else s)
  { s with fetches := smPut s.fetches key { x with lines := rest x.lines, todo := rest x.todo } }

end Sys2Proof.Machine
end

