-- ==== Sys2Proof/Machine/Staging.lean ====
section
/-! DEFINITION. Staging (spec 05, R116 to R124): what the descriptors of a SCENE ring stage, and the hand-over of a COMMIT to
the winnow. -/

namespace Sys2Proof.Machine

/-- The state with its scene state changed. -/
def State.mapScene (s : State) (f : SceneState → SceneState) : State := { s with scene := f s.scene }

/-- An empty staging set of a ring. -/
def emptyScene (n : Nat) : Scene :=
  { ring := Fin.ofNat 32 n, writes := writesInit, fences := [], loads := [], poison := none, index := 0, tag := 0,
    nocpl := false, chain := false, key := 0, readmitMc := 0, readmitLg := 0 }

/-- The open staging set of a ring (R117). -/
def stagingOf (s : State) (n : Nat) : Scene := (s.scene.staging.find? (fun c => c.ring.val == n)).getD (emptyScene n)

/-- The state with the open staging set of a ring set or taken away. -/
def setStaging (s : State) (n : Nat) (c : Option Scene) : State :=
  s.mapScene (fun x => { x with staging := x.staging.filter (fun c => c.ring.val != n) ++ c.toList })

/-- The staging set as it stands is kept: the slot in hand begins (R92). -/
def keepBefore (s : State) (n : Nat) : State :=
  s.mapScene (fun x => { x with before := x.before.filter (fun c => c.ring.val != n) ++
                                          x.staging.filter (fun c => c.ring.val == n) })

/-- The slot in hand is not carried out: what it staged is taken back (R92). -/
def backToBefore (s : State) (n : Nat) : State := setStaging s n (s.scene.before.find? (fun c => c.ring.val == n))

/-- A descriptor is bad: its completion says so and the scene being staged is poisoned (R120). -/
def badDesc (s : State) (n : Nat) (d : Desc) (status : Nat) : State :=
  let c := stagingOf s n
  let s := setStaging s n (some { c with poison := c.poison.or (some d.index) })
  complete s n d.index d.h d.chain status 0

/-- A descriptor is staged: the set changes, and its completion is OK. -/
def staged (s : State) (n : Nat) (d : Desc) (f : Scene → Scene) : State :=
  complete (setStaging s n (some (f (stagingOf s n)))) n d.index d.h d.chain 0 0

/-- Words staged into a layer; the TAG of the descriptor that writes a buffer address is kept for its release (R141). -/
def stageLayer (o : LayerOp) (tag : BitVec 16) (ws : List Word) (c : Scene) : Scene :=
  let w := c.writes
  let layer := (indexed ws).foldl (fun m (i, v) => smPut m (o.slot * 32 + o.first + i) v) w.layer
  let buf := decide (o.first ≤ 3) && decide (2 < o.first + ws.length) && decide (o.slot < 0x60)
  { c with writes := { w with layer := layer, indep := if o.indep then (w.indep.erase o.slot) ++ [o.slot] else w.indep,
                              tags := if buf then smPut w.tags o.slot tag else w.tags } }

/-- Words staged into a context. -/
def stageCtx (c : Nat) (ws : List (Nat × Word)) (sc : Scene) : Scene :=
  { sc with writes := { sc.writes with ctx := ws.foldl (fun m (i, v) => smPut m (8 * c + i) v) sc.writes.ctx } }

/-! The inline descriptors (R122, R123). -/

/-- LAYER_WORDS. -/
def actLayerWords (s : State) (n : Nat) (d : Desc) : State :=
  if layerWordsOk d.body then
    let o := layerOp d.body
    staged s n d (stageLayer o d.h.tag (inlineWords d.body o.count))
  else badDesc s n d 0x11

/-- OBJ_WORDS. -/
def actObjWords (s : State) (n : Nat) (d : Desc) : State :=
  if objWordsOk d.body then
    staged s n d (stageCtx (objIndex d.body) ((objMask d.body).zip (inlineWords d.body (objMask d.body).length)))
  else badDesc s n d 0x11

/-- MATRIX. -/
def actMatrix (s : State) (n : Nat) (d : Desc) : State :=
  if matrixOk d.body then
    let put := fun m i => smPut m (lutTarget d.body * 12 + i) (matrixCoef d.body i)
    staged s n d (fun c => { c with writes := { c.writes with mat := (List.range 12).foldl put c.writes.mat } })
  else badDesc s n d 0x11

/-- LOFT_LOAD: at most 16 loads and 1 MiB in a staging set. -/
def actLoftLoad (s : State) (n : Nat) (d : Desc) : State :=
  let c := stagingOf s n
  let room := c.loads.length < 16 && (c.loads.map (·.len)).sum + loadLen d.body ≤ 1048576
  if loftLoadOk d.body && room then
    let load : LoftLoad :=
      { dest := loadDest d.body, len := loadLen d.body, src := loadSrc d.body, pipe := Fin.ofNat 8 (loadPipe d.body),
        tag := d.h.tag, index := d.index, order := c.loads.length, scene := 0, abandoned := false, late := false, skip := [], got := (0, 0) }
    staged s n d (fun c => { c with loads := c.loads ++ [load] })
  else badDesc s n d 0x11

/-- FENCE_ACQ: at most 16 fences; a fence word beyond device memory is ADDR_RANGE (R108). -/
def actFenceAcq (s : State) (n : Nat) (d : Desc) : State :=
  if !(fenceOk d.body && (stagingOf s n).fences.length < 16) then badDesc s n d 0x11
  else if fenceSpace d.body = 0 && memEnd < fenceAddr d.body + 4 then badDesc s n d 0x13
  else
    let fence : Fence :=
      { slot := BitVec.ofNat 8 (fenceSlot d.body), host := fenceSpace d.body == 1, addr := fenceAddr d.body,
        value := BitVec.ofNat 32 (bodyBits d.body 16 0 32), signalled := false, reading := false }
    staged s n d (fun c => { c with fences := c.fences ++ [fence] })

/-! Descriptors with host content (R108, R112). -/

/-- The address and length of the content that a descriptor names, when it is well formed. -/
def contentOf (d : Desc) : Option (Nat × Nat) :=
  if d.kind = 0x11 then (if layerBlockOk d.body then some (srcAt8 d.body, 4 * (layerOp d.body).count) else none)
  else if d.kind = 0x13 then (if objBlockOk d.body then some (srcAt8 d.body, 32 * objCount d.body) else none)
  else if lutOk d.body then some (lutSrc d.body, 4 * lutCount d.body) else none

/-- The READ_REQs of a content, in pieces of at most 1,024 bytes. -/
def readPieces (s : State) (n key addr len : Nat) : State :=
  s.each (List.range ((len + 1023) / 1024)) (fun s i =>
    readHost s (addr + 1024 * i) (min 1024 (len - 1024 * i)) (.content (Fin.ofNat 32 n) key (1024 * i)))

/-- A descriptor with content: its reads begin, and the ring holds it in hand until they end. -/
def beginContent (s : State) (n : Nat) (d : Desc) : State :=
  match contentOf d with
  | none => badDesc s n d 0x11
  | some (addr, len) =>
    let (k, s) := takeKey s
    let s := openCpl s n k d.index d.h.tag d.chain
    let c : Content :=
      { kind := d.kind, h := d.h, body := d.body, index := d.index, chain := d.chain, key := k, got := [],
        left := (len + 1023) / 1024 }
    readPieces (s.setRing n { s.ring n with inHand := some c }) n k addr len

/-- LAYER_BLOCK. -/
def actLayerBlock (s : State) (n : Nat) (d : Desc) : State := beginContent s n d

/-- OBJ_BLOCK. -/
def actObjBlock (s : State) (n : Nat) (d : Desc) : State := beginContent s n d

/-- LUT_LOAD. -/
def actLutLoad (s : State) (n : Nat) (d : Desc) : State := beginContent s n d

/-- What the bytes of a content stage. -/
def stageContent (c : Content) (bs : List Byte) (sc : Scene) : Scene :=
  let ws := leWords (bs.length / 4) bs
  if c.kind = 0x11 then stageLayer (layerOp c.body) c.h.tag ws sc
  else if c.kind = 0x13 then
    (indexed ws).foldl (fun sc (i, v) => stageCtx (objIndex c.body + i / 8) [(i % 8, v)] sc) sc
  else
    let put := fun (m : SMap Word) (e : Nat × Word) => smPut m (lutTarget c.body * 1024 + lutFirst c.body + e.1) e.2
    { sc with writes := { sc.writes with lut := (indexed ws).foldl put sc.writes.lut } }

/-- The chain goes on after a descriptor whose content has ended. -/
def endContent (s : State) (n : Nat) (c : Content) : State :=
  stepChain (s.setRing n { s.ring n with inHand := none }) n
    { kind := c.kind, h := c.h, body := c.body, index := c.index, chain := c.chain }

/-- A piece of content has arrived: after the last one the descriptor is staged. -/
def contentArrived (s : State) (n key offset : Nat) (bs : List Byte) : State :=
  match (s.ring n).inHand with
  | none => s
  | some c =>
    if c.key ≠ key || (smFind c.got offset).isSome then s
    else
      let c := { c with got := smPut c.got offset bs, left := c.left - 1 }
      if c.left ≠ 0 then s.setRing n { s.ring n with inHand := some c }
      else
        let s := setStaging s n (some (stageContent c (c.got.flatMap (·.2)) (stagingOf s n)))
        endContent (closeCpl s n key 0 0 c.h.nocpl none) n c

/-- A content read reports FAULT: the descriptor is bad and the ring continues (R108, R120). -/
def contentFaulted (s : State) (n key : Nat) : State :=
  match (s.ring n).inHand with
  | none => s
  | some c =>
    if c.key ≠ key then s
    else
      let sc := stagingOf s n
      let s := setStaging s n (some { sc with poison := sc.poison.or (some c.index) })
      endContent (closeCpl s n key 0x12 0 c.h.nocpl none) n c

/-! COMMIT (R117 to R124). -/

/-- R119: the previous COMMIT is in proof, or its scene is armed short of a deadline. -/
def commitMustWait (s : State) (n : Nat) : Bool :=
  ringInProof s n || s.scene.armed.any (fun a => a.ring.val == n && !a.committed)

/-- R111: a pipe that the scene touches holds 64 records or more. -/
def recordsMustWait (s : State) (n : Nat) : Bool :=
  let c := stagingOf s n
  (touches (baseComp s n) c.writes c.loads).any (fun p => 64 ≤ (precHeldOf s p).length)

/-- The verdict on an item, from the inputs as they stand. -/
def itemVerdict (s : State) : WItem → Verdict
  | .scene c => sceneVerdict s c
  | .strobe _ blocks words gcl => strobeVerdict s blocks words gcl

/-- The next proof starts when the winnow is free (R124); a re-proof goes first (R29, R124). -/
def startProof (s : State) : State :=
  if s.scene.inHand.isSome || s.fault.reproof then s
  else
    match s.scene.queue with
    | [] => s
    | i :: q =>
      let v := itemVerdict s i
      s.mapScene (fun x => { x with inHand := some (i, v), queue := q, proofDep := none })

/-- An item enters the winnow's queue. -/
def submit (s : State) (i : WItem) : State := startProof (s.mapScene (fun x => { x with queue := x.queue ++ [i] }))

/-- A COMMIT closes its staging set and goes to the winnow. -/
def handCommit (s : State) (n : Nat) (d : Desc) : State :=
  let c := stagingOf s n
  let (k, s) := takeKey s
  let s := openCpl s n k d.index d.h.tag d.chain
  let c := { c with index := d.index, tag := d.h.tag, nocpl := d.h.nocpl, chain := d.chain, key := k,
                    readmitMc := commitMc d.body, readmitLg := commitLg d.body }
  submit (setStaging s n none) (.scene c)

/-- COMMIT: bad when malformed; it waits under R111 and R119. -/
def actCommit (s : State) (n : Nat) (d : Desc) : State :=
  if !commitOk d.body then badDesc s n d 0x11
  else if commitMustWait s n || recordsMustWait s n then s.setRing n { s.ring n with waitCommit := some d }
  else handCommit s n d

/-- NOP. -/
def actNop (s : State) (n : Nat) (d : Desc) : State := complete s n d.index d.h d.chain 0 0

/-- JUMP: a chain starts or moves; a TARGET that is not aligned is bad and ends the chain (R101). -/
def actJump (s : State) (n : Nat) (d : Desc) : State :=
  if jumpTarget d.body % 32 = 0 then s.setRing n { s.ring n with chain := some (jumpTarget d.body, d.index) }
  else
    let s := s.setRing n { s.ring n with chain := none }
    if ringKind s n = 1 then badDesc s n d 0x11 else countBad (complete s n d.index d.h d.chain 0x11 0) (ringChannel s n)

end Sys2Proof.Machine
end

