-- ==== Sys2Proof/Machine/Commit.lean ====
section
/-! DEFINITION. The commit instant (spec 05, R134 to R145; spec 07, R181, R188 to R192; spec 12, R319, R320): verdicts, arming,
fences, deadlines, applying, pipe records and the change to the fallback scene. -/

namespace Sys2Proof.Machine

/-! Pipe records (R141). -/

def recFlip (f : FlipDue) : List Byte :=
  leBytes 4 f.frame.toNat ++ leBytes 2 f.tag.toNat ++ [0x01] ++ leBytes 1 (2 * f.slipped.toNat + 4 * f.degraded.toNat) ++
  leBytes 6 f.stamp.toNat ++ leBytes 1 f.sub.toNat ++ [0]

def recRelease (r : Release) : List Byte :=
  leBytes 4 r.frame.toNat ++ leBytes 2 r.tag.toNat ++ [0x02] ++ leBytes 1 (2 * r.twin.toNat) ++ leBytes 5 r.addr ++
  leBytes 1 r.slot ++ [0, 0]

def recDropped (frame : BitVec 32) (tag : BitVec 16) (reason sub : Nat) : List Byte :=
  leBytes 4 frame.toNat ++ leBytes 2 tag.toNat ++ [0x03, 0] ++ leBytes 1 reason ++ leBytes 5 0 ++ leBytes 1 sub ++ [0]

/-- The events of scene application of a pipe (R148): 0 flip-done, 1 slip, 2 dropped, 3 degraded. -/
def pipeEvent (s : State) (p k : Nat) : State := raise s (64 + 16 * p + k)

/-- PIPE.FRAME of a pipe, and the frame that its next frame start begins: 0 before the first (R259). -/
def frameOf (s : State) (p : Nat) : BitVec 32 := s.reg (A.pipeFrame p)
def nextFrame (s : State) (p : Nat) : BitVec 32 := if (s.pipe p).hist.isEmpty then 0 else frameOf s p + 1

/-- SUB of a part: 0, or slot code + 1 (R141). -/
def subOf : PartKind → Nat
  | .stook _ => 0
  | .indep slot => slot + 1

/-! The parts of a scene (R135, R136, R140). -/

/-- The pipes that a planar slot, an object layer or a context belongs to before or after the edit (R118, R181). -/
def slotPipes (old new : Comp) (n : Nat) : List Nat := [(planarOf old.planar n).pipe, (planarOf new.planar n).pipe]
def layerPipes (old new : Comp) (k : Nat) : List Nat := [(objLayerOf old.obj k).pipe, (objLayerOf new.obj k).pipe]
def ctxPipes (old new : Comp) (c : Nat) : List Nat :=
  let o := ctxOf old.ctx c
  let n := ctxOf new.ctx c
  (if o.en then [(objLayerOf old.obj o.layer).pipe] else []) ++ (if n.en then [(objLayerOf new.obj n.layer).pipe] else [])

/-- The writes of a scene that belong to some pipes; a context that is disabled in both states belongs to all (R181). -/
def writesOf (old new : Comp) (w : Writes) (ps : List Nat) : Writes :=
  let meets := fun (l : List Nat) => l.any ps.contains
  let slotIn := fun n => meets (slotPipes old new n)
  { layer := w.layer.filter (fun e => if e.1 / 32 < 0x60 then slotIn (e.1 / 32) else meets (layerPipes old new (e.1 / 32 - 0x80))),
    ctx := w.ctx.filter (fun e => (ctxPipes old new (e.1 / 8)).isEmpty || meets (ctxPipes old new (e.1 / 8))),
    lut := w.lut.filter (fun e => if e.1 / 1024 < 0x60 then slotIn (e.1 / 1024) else ps.contains (e.1 / 1024 - 0xC0)),
    mat := w.mat.filter (fun e => slotIn (e.1 / 12)),
    indep := w.indep.filter slotIn, tags := w.tags.filter (fun e => slotIn e.1) }

/-- The planar slots that a set of writes concerns. -/
def slotsWritten (w : Writes) : List Nat :=
  (slotsOf (planarWrites w) ++ (w.lut.map (fun (e : Nat × Word) => e.1 / 1024)).filter (· < 0x60) ++
    w.mat.map (fun (e : Nat × BitVec 16) => e.1 / 12) ++ w.tags.map (fun (e : Nat × BitVec 16) => e.1)).eraseDups

/-- The writes of some planar slots, or all others. -/
def writesCut (w : Writes) (slots : List Nat) (inside : Bool) : Writes :=
  let keep := fun n => slots.contains n == inside
  { layer := w.layer.filter (fun e => keep (e.1 / 32)), ctx := if inside then [] else w.ctx,
    lut := w.lut.filter (fun e => keep (e.1 / 1024)), mat := w.mat.filter (fun e => keep (e.1 / 12)),
    indep := w.indep.filter keep, tags := w.tags.filter (fun e => keep e.1) }

/-- Whether a fence gates a part (R122, R140). -/
def gatesPart (s : State) (new : Comp) (indep : List Nat) (kind : PartKind) (pipes : List Nat) (f : Fence) : Bool :=
  let n := f.slot.toNat
  if n = 0xFF then true
  else match kind with
    | .indep k => k == n
    | .stook _ => !indep.contains n && pipes.any (fun p => stookOf s.reg p == stookOf s.reg (planarOf new.planar n).pipe)

/-- The pipes of a list by stook, stopped pipes apart (R136, R137). -/
def byStook (s : State) (ps : List Nat) : List (List Nat) :=
  ((List.range 8).flatMap (fun k =>
    let mine := ps.filter (fun p => stookOf s.reg p == k)
    [mine.filter (generatorRuns s), mine.filter (fun p => !generatorRuns s p)])).filter (fun l => !l.isEmpty)

/-- One part of an admitted scene. -/
def makePart (s : State) (sc : Scene) (old new : Comp) (indep : List Nat) (kind : Nat → PartKind) (w : Writes)
    (loads : List LoftLoad) (pipes : List Nat) : Armed :=
  let k := kind (stookOf s.reg (nth 0 pipes 0))
  { serial := 0, ring := sc.ring, key := sc.key, preTrip := false, written := false, due := false, kind := k, pipes := pipes.map (Fin.ofNat 8),
    writes := writesOf old new w pipes,
    loads := (loads.filter (fun l => pipes.contains l.pipe.val)).map (fun l => { l with scene := sc.key }),
    fences := sc.fences.filter (gatesPart s new indep k pipes), tag := sc.tag, slips := 0, committed := false, shed := [],
    noCap := [] }

/-- The parts of an admitted scene: the stook parts, then the INDEPENDENT sub-commits. -/
def partsOf (s : State) (sc : Scene) : List Armed :=
  let old := baseComp s sc.ring
  let new := old.lay sc.writes
  let indep := sc.writes.indep.filter (· < 0x60)
  let main := writesCut sc.writes indep false
  let mainParts := (byStook s (touches old main sc.loads)).map
    (makePart s sc old new indep (fun k => .stook (Fin.ofNat 8 k)) main sc.loads)
  let subs := indep.flatMap (fun n =>
    let w := writesCut sc.writes [n] true
    (byStook s (touches old w [])).map (makePart s sc old new indep (fun _ => .indep n) w []))
  mainParts ++ subs

/-- The armed part of a serial number. -/
def armedAt (s : State) (k : Nat) : Option Armed := s.scene.armed.find? (fun a => a.serial == k)

def setArmed (s : State) (a : Armed) : State :=
  s.mapScene (fun x => { x with armed := x.armed.map (fun b => if b.serial = a.serial then a else b) })

def dropArmed (s : State) (k : Nat) : State :=
  s.mapScene (fun x => { x with armed := x.armed.filter (fun b => b.serial != k) })

/-- A table with the groups of `k` keys of one number taken from another number, and those groups without it. -/
def copyGroup {α : Type} (m : SMap α) (k from_ to_ : Nat) : SMap α :=
  (m.filter (fun e => e.1 / k == from_)).foldl (fun t e => smPut t (to_ * k + e.1 % k) e.2) m
def moveGroup {α : Type} (m : SMap α) (k from_ to_ : Nat) : SMap α :=
  (copyGroup m k from_ to_).filter (fun e => e.1 / k != from_)
def dropGroupOf {α : Type} (m : SMap α) (k n : Nat) : SMap α := m.filter (fun e => e.1 / k != n)

/-! Layers switched off (R143 to R145, R167, R168, R173). -/

/-- A planar layer's fault with its cause (R174, R175): 1 UNDERRUN, 2 ADDR_FAULT, 3 CRC_MISMATCH, 4 CHANNEL_LOST. -/
def slotFault (s : State) (code cause : Nat) : State :=
  raise (s.setFld (F.layerSlotStatCause (hwSlot code)) cause) (320 + 2 * hwSlot code)

/-- The bales that are kept by slot code change alike: those read from a twin, those asked of it, those that did not arrive. -/
def onBales (f : List (Nat × Nat × Bool) → List (Nat × Nat × Bool)) (x : SceneState) : SceneState :=
  { x with twinBales := f x.twinBales, twinAsks := f x.twinAsks, twinRuns := f x.twinRuns, lostBales := f x.lostBales }

/-- What a fetch unit has still to read on a channel that left service it reads from the twin (R168). -/
def linesToTwin (l : Planar) (m : Nat) (x : Fetch) : Fetch :=
  let go := fun (y : FetchLine) =>
    if channelOf y.addr != some m then y
    else if l.buf ≤ y.addr && y.addr < l.buf + l.primaryLen then { y with addr := y.addr - l.buf + l.twin }
    else if l.plane2 ≤ y.addr && y.addr < l.plane2 + l.plane2Len then { y with addr := y.addr - l.plane2 + l.twin2 }
    else y
  { x with todo := x.todo.map go, lines := x.lines.map go }

/-- A layer is out for the rest of the frame, and its fetch unit reads no further for it (R173). -/
def offFrame (s : State) (p code : Nat) : State :=
  let r := s.pipe p
  { s with fetches := smDel s.fetches (2 * code) }.setPipe p { r with offFrame := if r.offFrame.contains code then r.offFrame else r.offFrame ++ [code] }

/-- A class S layer is held off, and the fallback telltale channels are forced on while it is (R144, R310). -/
def holdOffPlanar (s : State) (p n : Nat) : State :=
  let r := s.pipe p
  let s := { s with fetches := dropGroupOf s.fetches 2 n }
  forceHold (s.setPipe p { r with heldOff := if r.heldOff.contains n then r.heldOff else r.heldOff ++ [n] }) 0 p true

def holdOffObject (s : State) (p code : Nat) : State :=
  let r := s.pipe p
  forceHold (s.setPipe p { r with heldObj := if r.heldObj.contains code then r.heldObj else r.heldObj ++ [code] }) 0 p true

/-- Something of class S is held off or left out on a pipe; the cause holds while it is. -/
def classSHeld (s : State) (p : Nat) : Bool :=
  let r := s.pipe p
  r.heldOff.any (fun n => (planarOf s.scene.planar n).en) || r.heldObj.any (fun c => (objLayerOf (drawView s p).obj (c - 0x80)).en) ||
  r.leftOut.any (fun c => (ctxOf (drawView s p).ctx c).en && (ctxOf (drawView s p).ctx c).clsS)

def recheckClassS (s : State) (p : Nat) : State := forceHold s 0 p (classSHeld s p)

/-- A layer whose buffers lie on a channel that left service: class S goes on from its twin, or is held off; a class I
layer is off for the rest of the frame (R29 step 3, R168, R374). -/
def loseLayer (s : State) (m n : Nat) : State :=
  let l := planarOf s.scene.planar n
  let twin := onTwin s n
  let uses := fun (ks : List Nat) => l.regions.any (fun (k, a, _) => ks.contains k && channelOf a == some m)
  let reads := if twin then uses [2, 3] else uses [0, 1]
  if !reads then s
  else if l.clsS && !twin && l.twinEn && (channelOf l.twin).any (mcInService s) then
    let s := { s with fetches := s.fetches.map (fun e => if e.1 / 2 = n then (e.1, linesToTwin l m e.2) else e) }
    (setOnTwin s n true).setFld (F.layerSlotStatCause (hwSlot n)) 4
  else
    let s := slotFault s n 4
    if l.clsS then holdOffPlanar (setOnTwin s n false) l.pipe n else offFrame s l.pipe n

/-! Releases (R143). -/

/-- A release is due once the buffer's reads have ended. -/
def addRelease (s : State) (r : Release) : State := s.mapScene (fun x => { x with releases := x.releases ++ [r] })

/-- Reads of a buffer may still be under way: the re-read of a bale of its slot, one served from the twin too, or a recovery of the
channel that it is read from (R25). -/
def readsOpen (s : State) (r : Release) : Bool :=
  s.fault.reread.any (fun e => match e.2.1 with | .fetch n => n.val == r.slot | _ => false) ||
  r.port.any (fun m => (s.unit m).recovery)

/-- A slot's release may be written: its pipe stands still, the frame that read the buffer last is over, its last bale has been
fetched, or the layer is out of the frame (R143, R173); and no read is under way. -/
def releaseReady (s : State) (r : Release) : Bool :=
  let q := s.pipe r.pipe
  let code := codeAt s.scene.planar r.pipe r.slot
  r.slot != 0xFF && !readsOpen s r &&
  (r.past || q.gen == .stopped || q.offFrame.contains code || q.heldOff.contains code || q.fetched.contains code)

/-- A flip-done record whose line 1 has come may be written: every release of an earlier frame on its ring is (R143). -/
def flipReady (s : State) (f : FlipDue) : Bool :=
  f.due && !s.scene.releases.any (fun r => r.pipe == f.pipe && r.slot != 0xFF && r.past)

/-- A loft load's release may be written: it follows the flip-done record of its frame (R191). -/
def loadReleaseReady (s : State) (r : Release) : Bool :=
  r.slot == 0xFF && !s.scene.flips.any (fun f => f.pipe == r.pipe && f.frame == r.frame)

/-- The waiting releases that a test selects are written. -/
def flushReleases (s : State) (f : Release → Bool) : State :=
  (s.mapScene (fun x => { x with releases := x.releases.filter (fun r => !f r) })).each (s.scene.releases.filter f)
    (fun s r => pipeRecord s r.pipe (recRelease r))

/-- The flip-done records that a test selects are written. -/
def flushFlips (s : State) (f : FlipDue → Bool) : State :=
  (s.mapScene (fun x => { x with flips := x.flips.filter (fun r => !f r) })).each (s.scene.flips.filter f)
    (fun s r => pipeEvent (pipeRecord s r.pipe (recFlip r)) r.pipe 0)

/-- The records of buffers, flips and loads that may be written now, in the order of the ring (R143, R191). -/
def drainReleases (s : State) : State :=
  let s := flushReleases s (releaseReady s)
  let s := flushFlips s (flipReady s)
  flushReleases s (loadReleaseReady s)

/-- The release record of the buffer that a pipe reads under a slot code. -/
def releaseOf (s : State) (p code : Nat) (frame : BitVec 32) : Release :=
  let l := planarOf s.scene.planar code
  { pipe := Fin.ofNat 8 p, slot := hwSlot code, addr := l.buf, tag := smGet 0 s.scene.bufTag code, twin := l.twinEn,
    frame := frame, port := channelOf (if onTwin s code then l.twin else l.buf), past := false }

/-- A slot of a pipe before a part and after it, with the release of what it read before: the parts committed before have applied by
then, though a black frame may still hold them (R137). -/
def slotTurn (s : State) (a : Armed) (p n : Nat) : Planar × Planar × Release :=
  let code := codeAt s.scene.planar p n
  let r := releaseOf s p code (frameOf s p)
  let held := s.scene.armed.filter (fun b => b.committed && b.serial < a.serial && b.pipes.any (fun q => q.val == p) &&
    (slotsOf (planarWrites b.writes)).contains n)
  let base := held.foldl (fun c b => c.lay b.writes) (appliedComp s)
  let new := planarOf (base.lay a.writes).planar n
  if held.isEmpty then (planarOf s.scene.planar code, new, r)
  else
    let l := planarOf base.planar n
    (l, new, { r with
                 addr := l.buf, twin := l.twinEn, port := channelOf l.buf,
                 tag := held.foldl (fun t b => (smFind b.writes.tags n).getD t) r.tag })

/-- The buffers that a committed part replaces or disables on its pipes. -/
def releasesAtCommit (s : State) (a : Armed) : State :=
  drainReleases (s.each (slotsOf (planarWrites a.writes)) (fun s n => s.each (a.pipes.map (·.val)) (fun s p =>
    let (o, l, r) := slotTurn s a p n
    if o.en && o.pipe == p && (!l.en || l.buf != o.buf) then addRelease s r else s)))

/-! Loft loads (R188, R191, R192). -/

/-- The objects of a pipe that reference some loft bytes, in the drawing copy. -/
def ctxUsing (s : State) (p : Nat) (r : Nat × Nat) : List Nat :=
  let v := drawView s p
  let m := v.ctx
  (ctxOn m).filter (fun c =>
    let x := ctxOf m c
    let k := objLayerOf v.obj x.layer
    k.en && k.pipe == p && !inFbRange s c && (ctxRanges s.loft x).any (overlaps r))

/-- OBJECT_FAULT of a pipe (R202): 1 GRAN_ECC, 2 LOFT_ECC, 3 LOFT_LATE, 4 LOFT_ABANDONED, 5 BIN_OVERFLOW. -/
def objectFault (s : State) (p cause : Nat) : State :=
  raise ((s.setFld (F.objPipeStatCause p) cause).addFld F.objFaultsCount 1) (16 + p)

/-- A load that still runs at a frame start after the one that started it is late, once (R192). One that has lost a bale of its
source, or whose port is outside its subscriber's mask (R231), does not finish any more. -/
def lateLoads (s : State) (p : Nat) : State :=
  let mine := fun (e : LoftLoad × BitVec 32) => e.1.pipe.val == p
  let lost := fun (e : LoftLoad × BitVec 32) => mine e && (e.1.abandoned || !portAllows s (loadSub e.1) e.1.src)
  let n := (s.scene.running.filter (fun e => mine e && !e.1.late)).length
  let s := s.mapScene (fun x =>
    { x with running := (x.running.filter (fun e => !lost e)).map (fun e => if mine e then ({ e.1 with late := true }, e.2) else e),
             unfinished := x.unfinished ++ (x.running.filter lost).map (·.1) })
  s.each (List.replicate n 3) (fun s cause => objectFault s p cause)

/-- A load does not finish: the objects that it serves stay out (R192). -/
def abandonLoad (s : State) (l : LoftLoad) : State :=
  objectFault (s.mapScene (fun x => { x with unfinished := x.unfinished ++ [l] })) l.pipe 4

/-- A running load whose source channel is retired is abandoned. -/
def abandonLoads (s : State) (m : Nat) : State :=
  let lost := s.scene.running.filter (fun e => channelOf e.1.src == some m)
  (s.mapScene (fun x => { x with running := x.running.filter (fun e => channelOf e.1.src != some m) })).each lost
    (fun s e => abandonLoad s e.1)

/-- The bytes of a load stand in the loft, but for those that a later load of its scene has written (R188). -/
def putLoad (s : State) (l : LoftLoad) : List Host.Cell :=
  (indexed (s.load l.src l.len)).foldl (fun m (i, b) =>
    if l.skip.any (fun r => r.1 ≤ l.dest + i && l.dest + i < r.1 + r.2) then m else memSet m (l.dest + i) b) s.loft

/-- The earlier loads of a load's scene leave its bytes alone from now on (R188). -/
def skipUnder (l x : LoftLoad) : LoftLoad :=
  if x.scene = l.scene && x.order < l.order then { x with skip := x.skip ++ [(l.dest, l.len)] } else x

/-- Bytes that a load has written are unfinished no more, unless a later load of its scene was to write them (R188, R192). -/
def coverBy (l u : LoftLoad) : LoftLoad :=
  if u.scene = l.scene && l.order < u.order then u else { u with skip := u.skip ++ l.bytes }

/-- LOFT_LOAD_DONE: the bytes of the pipe's oldest running load stand in the loft; its release record follows the flip-done
record of its frame. A load has not finished before its bursts have gone (R236, R239, R244). -/
def loadDone (s : State) (p : Nat) : State :=
  let s := servePorts s
  match loadInHand s p with
  | none => s
  | some (l, frame) =>
    if l.got.1 < l.len then s
    else
      let s := { s with loft := putLoad s l }
      let s := (s.mapScene (fun x =>
        { x with running := (x.running.erase (l, frame)).map (fun e => (skipUnder l e.1, e.2)),
                 unfinished := (x.unfinished.map (coverBy l)).filter (fun u => !u.bytes.isEmpty),
                 armed := x.armed.map (fun a => { a with loads := a.loads.map (skipUnder l) }) })).addFld F.objLoadsCount 1
      drainReleases (addRelease s
        { pipe := l.pipe, slot := 0xFF, addr := l.src, tag := l.tag, twin := false, frame := frame, port := none, past := false })

def execLoftLoadDone (pipe : Fin 8) (s : State) : Answer := whenUp s (fun s => loadDone s pipe)

/-- The code under which LAST_BALE_FETCHED means a slot: a pipe that the slot is leaving reads its last bale first (log 65). -/
def fetchCode (s : State) (n : Nat) : Nat :=
  ((pipes8.map (fun p => leaverCode p n)).find? (fun c =>
    let l := planarOf s.scene.planar c
    l.en && generatorRuns s l.pipe && !(s.pipe l.pipe).fetched.contains c)).getD n

/-- LAST_BALE_FETCHED: the buffer of a slot has been read for the frame in hand. -/
def baleFetched (s : State) (n : Nat) : State :=
  let l := planarOf s.scene.planar n
  if l.en && generatorRuns s l.pipe then
    let r := s.pipe l.pipe
    drainReleases (s.setPipe l.pipe { r with fetched := if r.fetched.contains n then r.fetched else r.fetched ++ [n] })
  else s

/-! Applying (R181, R320). -/

/-- The lists of a pipe with one slot code in place of another. -/
def renameIn (r : PipeRt) (a b : Nat) : PipeRt :=
  let one := fun (l : List Nat) => l.map (fun x => if x = a then b else x)
  let two := fun (l : List (Nat × Nat)) => l.map (fun x => if x.1 = a then (b, x.2) else x)
  { r with offFrame := one r.offFrame, fetched := one r.fetched, heldOff := one r.heldOff, shedNow := two r.shedNow,
           shedNext := two r.shedNext, furrowOut := one r.furrowOut, rideOut := one r.rideOut }

/-- A slot that another pipe takes stays on its old pipe under a code of its own until that pipe's part applies (R136, R164). -/
def makeLeaver (s : State) (q n : Nat) : State :=
  let c := leaverCode q n
  let on := onTwin s n
  let s := s.mapScene (fun x =>
    { x with planar := copyGroup x.planar 32 n c, degamma := copyGroup x.degamma 1024 n c, matrix := copyGroup x.matrix 12 n c,
             bufTag := copyGroup x.bufTag 1 n c, leaverTwins := if on then x.leaverTwins ++ [c] else x.leaverTwins })
  let s := s.mapScene (onBales (fun l => l.map (fun e => if e.1 = n then (c, e.2) else e)))
  let s := s.setPipe q (renameIn (s.pipe q) n c)
  { s with camLines := moveGroup s.camLines 65536 n c, camLags := moveGroup s.camLags 1 n c,
           camEarly := moveGroup s.camEarly 131072 n c, fetches := moveGroup s.fetches 2 n c }

/-- The camera lines that a pipe fetched for a slot before it came are the slot's. -/
def takeArrived (s : State) (p n : Nat) : State :=
  let a := arriverCode p n
  { s with camLines := moveGroup (dropGroupOf s.camLines 65536 n) 65536 a n, camLags := moveGroup (dropGroupOf s.camLags 1 n) 1 a n,
           camEarly := moveGroup (dropGroupOf s.camEarly 131072 n) 131072 a n, fetches := moveGroup (dropGroupOf s.fetches 2 n) 2 a n }

/-- A leaving slot's form on its old pipe is gone. -/
def dropLeaver (s : State) (c : Nat) : State :=
  let p := c / 0x100 - 1
  let s := s.mapScene (fun x =>
    { x with planar := dropGroupOf x.planar 32 c, degamma := dropGroupOf x.degamma 1024 c, matrix := dropGroupOf x.matrix 12 c,
             bufTag := dropGroupOf x.bufTag 1 c, leaverTwins := x.leaverTwins.filter (· != c) })
  let s := s.mapScene (onBales (fun l => l.filter (fun e => e.1 != c)))
  let r := s.pipe p
  let s := s.setPipe p { r with heldOff := r.heldOff.filter (· != c), shedNow := r.shedNow.filter (fun e => e.1 != c),
                                shedNext := r.shedNext.filter (fun e => e.1 != c) }
  { s with camLines := dropGroupOf s.camLines 65536 c, camLags := dropGroupOf s.camLags 1 c,
           camEarly := dropGroupOf s.camEarly 131072 c, fetches := dropGroupOf s.fetches 2 c }

/-- The leaving forms on a pipe that no armed part of the pipe will end are gone. -/
def dropStrays (s : State) (p : Nat) : State :=
  s.each ((slotsOf s.scene.planar).filter (fun c => isLeaver c && c / 0x100 - 1 == p &&
    !s.scene.armed.any (fun a => a.pipes.any (fun q => q.val == p) && (slotsOf (planarWrites a.writes)).contains (hwSlot c))))
    dropLeaver

/-- What a part writes to one planar slot. -/
def slotWords (w : Writes) (n : Nat) : SMap Word := (planarWrites w).filter (fun e => e.1 / 32 == n)

/-- The words, tables and tags that a part writes to a slot take force under a code. -/
def laySlot (s : State) (w : Writes) (n c : Nat) : State :=
  let at_ := fun (k a : Nat) => c * k + a % k
  s.mapScene (fun x =>
    { x with planar := (slotWords w n).foldl (fun m e => smSet 0 m (at_ 32 e.1) e.2) x.planar,
             degamma := (w.lut.filter (fun e => e.1 / 1024 == n)).foldl (fun m e => smSet 0 m (at_ 1024 e.1) e.2) x.degamma,
             matrix := (w.mat.filter (fun e => e.1 / 12 == n)).foldl (fun m e => smSet 0 m (at_ 12 e.1) e.2) x.matrix,
             bufTag := (w.tags.filter (fun e => e.1 == n)).foldl (fun m e => smSet 0 m c e.2) x.bufTag })

/-- After its words took force: reading from the twin ends where they say so (R168), a layer held off comes back where its buffer
address was written (R144). -/
def returnSlot (s : State) (w : Writes) (p n c : Nat) : State :=
  let s := if twinWritten w n || !(planarOf s.scene.planar c).en then setOnTwin s c false else s
  if bufWritten w n then s.setPipe p { s.pipe p with heldOff := (s.pipe p).heldOff.filter (· != c) } else s

/-- A slot comes to a pipe from another one: with the words of the parts before this one, under its own code. Its old pipe keeps it
under another until its own part applies. -/
def slotArrives (s : State) (prior : Comp) (w : Writes) (p n : Nat) : State :=
  let o := planarOf s.scene.planar n
  let q := o.pipe
  let held := (s.pipe q).heldOff.contains n
  let stays := generatorRuns s q && !s.scene.givenUp.contains n && (o.en || o.silo != 0)
  let s := if stays then makeLeaver s q n else s.setPipe q { s.pipe q with heldOff := (s.pipe q).heldOff.filter (· != n) }
  let s := s.mapScene (fun x =>
    { x with planar := (prior.planar.filter (fun e => e.1 / 32 == n)).foldl (fun m e => smPut m e.1 e.2) (dropGroupOf x.planar 32 n),
             givenUp := x.givenUp.filter (· != n) })
  let s := takeArrived (laySlot s w n n) p n
  let s := if held then s.setPipe p { s.pipe p with heldOff := (s.pipe p).heldOff ++ [n] } else s
  recheckClassS (returnSlot s w p n n) q

/-- What a part does to one planar slot at a pipe: the slot stays, comes, or leaves, giving up its units (R135, R136, R164). -/
def applySlot (prior : Comp) (w : Writes) (p : Nat) (s : State) (n : Nat) : State :=
  let c := codeAt s.scene.planar p n
  let now := planarOf s.scene.planar c
  let new := planarOf ((slotWords w n).foldl (fun m e => smSet 0 m (c * 32 + e.1 % 32) e.2) s.scene.planar) c
  if now.pipe = p then
    if new.pipe = p then returnSlot (laySlot s w n c) w p n c
    else if isLeaver c then dropLeaver s c
    else
      s.mapScene (fun x => { x with planar := smSet 0 x.planar (n * 32) (smGet (0 : Word) x.planar (n * 32) &&& ~~~1),
                                    givenUp := x.givenUp.filter (· != n) ++ [n] })
  else if new.pipe = p then slotArrives s prior w p n
  else s

/-- The words of a copy with every enabled layer of a pipe disabled. -/
def disableOn (m : SMap Word) (isPlanar : Bool) (p : Nat) : SMap Word :=
  (slotsOf m).foldl (fun m k =>
    let w := smGet (0 : Word) m (k * 32)
    let mine := if isPlanar then (planarOf m k).en && (planarOf m k).pipe == p else (objLayerOf m k).en && (objLayerOf m k).pipe == p
    if mine then smSet 0 m (k * 32) (w &&& ~~~1) else m) m

/-- What a pipe held back of layers of its own it holds back no more, and of layers that are not its own as before. -/
def darkenHeld (p : Nat) (h : SMap ObjView) : SMap ObjView :=
  let off := fun (w : Nat × Word) => if w.1 % 32 = 0 && bits w.2 3 1 == p then (w.1, w.2 &&& ~~~1) else w
  h.map (fun e => if e.1 = p then (p, { e.2 with obj := e.2.obj.map off }) else e)

/-- Every host layer of a pipe is disabled in both object copies, its fetch units read no further, and its buffers fall due for
release (R143, R319). A class S layer that was held off stays so until its buffer address is written (R144, R173). `frame` is the
last frame that read the buffers. -/
def darken (s : State) (p : Nat) (frame : BitVec 32) : State :=
  let s := s.each (planarOn s.scene.planar p) (fun s n => addRelease s { releaseOf s p n frame with past := true })
  let s := s.each ((slotsOf s.scene.planar).filter (fun n => (planarOf s.scene.planar n).pipe == p && onTwin s n))
    (fun s n => setOnTwin s n false)
  let s := s.mapScene (fun x => { x with planar := disableOn x.planar true p, objBin := disableOn x.objBin false p,
                                         objDraw := disableOn x.objDraw false p,
                                         binHeld := darkenHeld p x.binHeld, drawHeld := darkenHeld p x.drawHeld })
  let s := { s with fetches := s.fetches.filter (fun e => !ownCode s p (e.1 / 2)) }
  let r := s.pipe p
  let s := s.setPipe p { r with flUntilNext := false, shedNow := [], shedNext := [], leftOut := [] }
  recheckClassS (drainReleases s) p

/-- What a part writes to the object state for one pipe: the other pipes of its scene whose parts have not applied yet hold back what
they see; where a later scene that waits at this pipe has changed a word on another stook, the pipe holds back this part's (R136). -/
def partRule (s : State) (a : Armed) (p : Nat) : CopyRule :=
  let waits := (s.scene.armed.filter (fun x => x.key == a.key)).flatMap (fun x => x.pipes.map (·.val))
  let others := fun (_ : Nat) => (waits.filter (fun q => q != p && generatorRuns s q)).eraseDups
  let later := s.scene.armed.filter (fun x => a.serial < x.serial && x.key != a.key && x.pipes.any (fun q => q.val == p))
  { laterObj := fun k => later.any (fun x => (smFind (objWrites x.writes) k).isSome),
    laterCtx := fun k => later.any (fun x => (smFind x.writes.ctx k).isSome), othersObj := others, othersCtx := others }

/-- Contexts that are disabled in both states of a scene have changed with its first part; the parts still to come leave them be
(R181). -/
def dropOff (s : State) (key : Nat) (cs : List Nat) : State :=
  s.mapScene (fun x => { x with armed := x.armed.map (fun b =>
    if b.key = key then { b with writes := { b.writes with ctx := b.writes.ctx.filter (fun e => !cs.contains (e.1 / 8)) } } else b) })

/-- A part has applied at a pipe: it waits for its other pipes, or is gone. -/
def leavePipe (s : State) (k p : Nat) : State :=
  s.mapScene (fun x => { x with armed := (x.armed.map (fun b =>
    if b.serial = k then { b with pipes := b.pipes.filter (fun q => q.val != p) } else b)).filter (fun b => b.serial != k || !b.pipes.isEmpty) })

/-- The objects, loads and tables of a part take force at a pipe: its objects in the binning copy (R181), its loads run from the
frame on (R188), one whose source channel has left service is abandoned (R192). -/
def applyRest (s : State) (a : Armed) (p : Nat) (frame : BitVec 32) : State :=
  let old := appliedFor s p
  let w := writesOf old (old.lay a.writes) a.writes [p]
  let ctx := layWords 0 w.ctx old.ctx
  let rule := partRule s a p
  let off := fun (c : Nat) => !(ctxOf old.ctx c).en && !(ctxOf ctx c).en && !(List.range 8).any (fun i => rule.laterCtx (8 * c + i))
  let bothOff := w.ctx.filter (fun e => off (e.1 / 8))
  let s := setBin s (writeCopy p rule (binShared s) s.scene.binHeld
    { obj := objWrites w, ctx := w.ctx.filter (fun e => !off (e.1 / 8)), glyph := [] })
  let loads := a.loads.filter (fun l => l.pipe.val == p)
  let runs := fun (l : LoftLoad) => (channelOf l.src).any (mcInService s)
  let s := s.mapScene (fun x =>
    { x with regamma := layWords 0 ((w.lut.filter (fun (e : Nat × Word) => 0xC0 ≤ e.1 / 1024)).map
               (fun (e : Nat × Word) => (e.1 - 0xC0 * 1024, e.2))) x.regamma,
             running := x.running ++ (loads.filter runs).map (fun l => (l, frame)) })
  let s := dropOff (putCtxWords s bothOff) a.key (bothOff.map (fun e => e.1 / 8))
  let s := s.setPipe p { s.pipe p with heldObj := (s.pipe p).heldObj.filter (fun c => (smFind w.layer (c * 32)).isNone) }
  s.each (loads.filter (fun l => !runs l)) abandonLoad

/-- The flip-done record of a part at a pipe, which says whether anything of the part was shed, on whichever of its pipes (R142,
R422), and the event of a degraded application. -/
def flipOf (s : State) (a : Armed) (p : Nat) (frame : BitVec 32) : State :=
  let s := if a.shed.isEmpty then s else pipeEvent s p 3
  let flip : FlipDue :=
    { pipe := Fin.ofNat 8 p, frame := frame, tag := a.tag, slipped := a.slips != 0, degraded := !a.shed.isEmpty,
      stamp := 0, sub := BitVec.ofNat 8 (subOf a.kind), due := false }
  s.mapScene (fun x => { x with flips := x.flips ++ [flip] })

/-- The state that a part is laid over: with the parts before it of its ring. -/
def priorOf (s : State) (a : Armed) : Comp :=
  (s.scene.armed.filter (fun x => x.ring == a.ring && x.serial < a.serial)).foldl (fun c x => c.lay x.writes) (appliedComp s)

/-- The planar words that a pipe will show under a slot once a part has applied there. -/
def slotNext (prior : Comp) (w : Writes) (p : Nat) (m : SMap Word) (n : Nat) : SMap Word :=
  let laid := fun (b : SMap Word) (c : Nat) => (slotWords w n).foldl (fun m e => smSet 0 m (c * 32 + e.1 % 32) e.2) b
  let c := codeAt m p n
  if (planarOf m c).pipe = p then if (planarOf (laid m c) c).pipe = p then laid m c else dropGroupOf m 32 c
  else if (planarOf (laid m n) n).pipe = p then
    laid ((prior.planar.filter (fun e => e.1 / 32 == n)).foldl (fun m e => smPut m e.1 e.2) (dropGroupOf m 32 n)) n
  else m

/-- The planar state of a pipe's next frame: with the parts that are committed to it. -/
def nextPlanar (s : State) (p : Nat) : SMap Word :=
  (s.scene.armed.filter (fun a => a.committed && a.pipes.any (fun q => q.val == p))).foldl
    (fun m a => (slotsWritten a.writes).foldl (slotNext (priorOf s a) a.writes p) m) s.scene.planar

/-- A part applies at a pipe: its planar state, tables and loads take force, its objects enter the binning copy; layers that it
re-points come back; a boot or fallback scene gives way, but for a thermal trip that came after the part was armed: there the
layers are disabled again (R60, R319). A fallback for want of capacity that is still to come stays due, with its cause (R31, R319).
`frame` is the frame that applies it. -/
def applyPart (s : State) (k p : Nat) (frame : BitVec 32) (atStart : Bool) : State :=
  match armedAt s k with
  | none => s
  | some a =>
    let prior := priorOf s a
    let s := applyRest s a p frame
    let s := s.each (slotsWritten a.writes) (applySlot prior a.writes p)
    let r := s.pipe p
    let dark := a.preTrip && r.fallback
    let took := (r.boot || r.fallback) && !dark
    let shed := (a.shed.filter (fun x => x.1 == p)).map (·.2)
    let s := s.setPipe p { r with boot := r.boot && dark, fallback := r.fallback && dark, noCapacity := r.noCapacity && r.wantFallback,
                                  hostShown := r.hostShown || (dark && atStart), flUntilNext := r.flUntilNext || (took && atStart),
                                  shedNow := shed, shedNext := shed, wantFallback := r.wantFallback || a.noCap.contains p }
    let s := forceHold (recheckClassS s p) 4 p (r.noCapacity && r.wantFallback)
    let s := if a.noCap.contains p then
        pipeFault (forceHold (s.setPipe p { s.pipe p with noCapacity := true }) 4 p true) p 3 else s
    let s := flipOf s a p frame
    let s := leavePipe s k p
    let s := s.each (planarOn s.scene.planar p) (fun s n =>
      s.each [0, 1, 2, 3] (fun s m => if mcInService s m then s else loseLayer s m n))
    if dark then darken s p (frame - 1) else s

/-! Fences (R138). -/

/-- The device-memory fence words of a part that are not signalled are to be read, by subscriber 210; a port that the subscriber may
not use refuses the read (R138, R231). -/
def askFences (s : State) (a : Armed) : State :=
  setArmed s { a with fences := a.fences.map (fun f =>
    if !f.host && !f.signalled && portAllows s 210 f.addr then { f with reading := true } else f) }

/-- A part waits for the read of a fence word: until its port serves it (R236, R239, R244), or is retired. -/
def fenceWaits (s : State) (a : Armed) : Bool := a.fences.any (fun f => f.reading && portAllows s 210 f.addr)

/-- Every fence that gates a part is signalled. -/
def fencesMet (a : Armed) : Bool := a.fences.all (·.signalled)

/-- A part is for stopped pipes only (R137). -/
def partStopped (s : State) (a : Armed) : Bool := a.pipes.all (fun p => !generatorRuns s p)

/-- READMIT units wait for their deadline, here for the Fault manager's re-admission (R134). -/
def queueReadmit (s : State) (stooks : List Nat) (sc : Scene) : State :=
  if sc.readmitMc = 0 && sc.readmitLg = 0 then s
  else s.mapScene (fun x => { x with readmit := x.readmit ++ [(stooks, sc.readmitMc, sc.readmitLg)] })

/-- A part for stopped pipes whose fences are signalled applies at once (R137). -/
def applyStopped (s : State) (k : Nat) : State :=
  match armedAt s k with
  | none => s
  | some a =>
    if a.written && partStopped s a && fencesMet a then
      let s := if a.committed then s else releasesAtCommit (setArmed s { a with committed := true }) a
      s.each a.pipes (fun s p => applyPart s k p (nextFrame s p) false)
    else s

/-- A committed part applies at once to those of its pipes that stand still (R137). -/
def applyToStopped (s : State) (k : Nat) : State :=
  match armedAt s k with
  | none => s
  | some a =>
    if a.committed then
      s.each ((a.pipes.map (fun q => q.val)).filter (fun p => !generatorRuns s p)) (fun s p => applyPart s k p (nextFrame s p) false)
    else s

/-- A part joins those that are armed. -/
def addPart (s : State) (a : Armed) : State :=
  s.mapScene (fun x => { x with serial := x.serial + 1, armed := x.armed ++ [{ a with serial := x.serial }] })

/-- An admitted scene, part by part, before its completion is written. -/
def admitScene (s : State) (sc : Scene) (lift : BitVec 4) : State :=
  (s.each (partsOf s sc) addPart).mapScene (fun x => { x with admitted := x.admitted ++ [(sc, lift)] })

/-- A part for stopped pipes asks for its device-memory fences (R137). -/
def askStopped (s : State) (k : Nat) : State :=
  match armedAt s k with
  | none => s
  | some a => if a.written && !a.committed && partStopped s a then askFences s a else s

/-- The parts of a scene, by number. -/
def partsWithKey (s : State) (key : Nat) : List Nat := (s.scene.armed.filter (fun a => a.key == key)).map (·.serial)

/-- A scene is armed (R135): parts for stopped pipes apply at once (R137), READMIT units wait for a deadline of one of its stooks,
also where all its pipes are stopped and nothing else of it waits (R134; DESIGN CHOICE, log 87). -/
def armScene (s : State) (sc : Scene) : State :=
  let s := s.mapScene (fun x => { x with armed := x.armed.map (fun a => if a.key = sc.key then { a with written := true } else a) })
  let ps := s.scene.armed.filter (fun a => a.key == sc.key)
  let stooks := (ps.flatMap (fun a => a.pipes.map (fun p => stookOf s.reg p.val))).eraseDups
  let ks := partsWithKey s sc.key
  queueReadmit ((servePorts (s.each ks askStopped)).each ks applyStopped) stooks sc

/-- The completion of an admitted scene's COMMIT is written, or none is to be. -/
def cplWritten (s : State) (sc : Scene) : Bool := !(s.ring sc.ring.val).held.any (fun c => c.key == sc.key)

/-- The S4 and S5 holds that a second proof lifts (R426). -/
def liftHolds (s : State) (lift : BitVec 4) : State :=
  if lift = 0 then s
  else setThrottle s (s.flag F.schedThrottleReproof) (BitVec.ofNat 4 (s.fld F.schedThrottleHeld) &&& ~~~lift).toNat

/-- The admitted scenes whose completion is written are armed (R135), which lifts the holds that their proofs lift (R426). -/
def armWritten (s : State) : State :=
  let go := s.scene.admitted.filter (fun c => cplWritten s c.1)
  (s.mapScene (fun x => { x with admitted := x.admitted.filter (fun c => !cplWritten s c.1) })).each go
    (fun s c => armScene (liftHolds s c.2) c.1)

/-! Verdicts (R124, R424, R426). -/

/-- The verdict as it is formed: a trip read now rejects the scene, unless a check before it in the table failed (R126, R424). -/
def formed (s : State) (v : Verdict) : Verdict :=
  if s.flag F.sysTempTrip && (v.reason == 0 || decide (rThermal < v.reason.toNat)) then mkVerdict rThermal 0xF 0xF 0 false 0
  else v

/-- WINNOW_PROOF_END: the verdict on the scene in proof. -/
def sceneProved (s : State) : State :=
  match s.scene.inHand with
  | some (.scene sc, v0) =>
    let v := formed s v0
    let dep := s.scene.proofDep
    let s := s.mapScene (fun x => { x with inHand := none, proofDep := none })
    let s := (s.setFld F.sceneWinnowStatRing sc.ring).setFld F.sceneWinnowStatReason v.reason.toNat
    let s := (s.setReg A.sceneDetailLo (v.detail.setWidth 32)).setReg A.sceneDetailHi ((v.detail >>> 32).setWidth 32)
    let ok := v.reason == 0
    let s := if ok then admitScene (s.addFld F.sceneAdmitCntCount 1) sc v.lift
      else raise (s.addFld F.sceneRejectCntCount 1) 6
    startProof (armWritten (closeCpl s sc.ring sc.key (if ok then 1 else 2) v.detail sc.nocpl dep))
  | _ => s

/-! Deadlines (R135, R139). -/

/-- A part is dropped: a record and an event on each of its pipes (R141, R148). -/
def dropPart (s : State) (a : Armed) (reason : Nat) : State :=
  let s := (dropArmed s a.serial).addFld F.sceneDropCntCount 1
  s.each a.pipes (fun s p => pipeEvent (pipeRecord s p (recDropped (frameOf s p) a.tag reason (subOf a.kind))) p 2)

/-- Slips allowed: 0 counts as 1 (R147). -/
def fenceWait (s : State) : Nat := max 1 (s.fld F.sceneFenceCfgFenceWait)

/-- An armed part slips one frame, or is dropped (R139). -/
def slipPart (s : State) (a : Armed) : State :=
  if fenceWait s < a.slips + 1 then dropPart s { a with slips := a.slips + 1 } rFenceTimeout
  else
    let s := (setArmed s { a with slips := a.slips + 1 }).addFld F.sceneSlipCntCount 1
    s.each a.pipes (fun s p => pipeEvent (s.perfAdd (70 + 8 * p.val) 1) p 1)

/-- What was fetched for the next frame of a slot before a part of it was committed is fetched anew, from the scene then committed
(R165). -/
def dropAhead (s : State) (a : Armed) : State :=
  let gone := fun (c : Nat) => (slotsWritten a.writes).contains (hwSlot c) && a.pipes.any (fun p => ownCode s p c)
  { s with fetches := s.fetches.filter (fun e => !(e.1 % 2 == 1 && gone (e.1 / 2))),
           camEarly := s.camEarly.filter (fun (e : Nat × (Nat × Nat × Nat)) => !(e.1 % 2 == 1 && gone (e.1 / 131072))) }

/-- The fate of an armed part at a deadline of its stook (R135, R139): decided by the words then read, and where a read still waits
for its port, once that has been served (R138, R239, R244). A committed part of which pipes stand still applies there. -/
def decidePart (s : State) (k : Nat) : State :=
  match armedAt s k with
  | none => s
  | some a =>
    if !a.due || fenceWaits s a then s
    else
      let a := { a with due := false }
      let s := setArmed s a
      if fencesMet a then applyToStopped (releasesAtCommit (dropAhead (setArmed s { a with committed := true }) a) a) k
      else if partStopped s a then s else slipPart s a

/-- The parts that wait for reads of their fence words go on: one at a deadline is decided, one for stopped pipes applies (R137). -/
def decideParts (s : State) : State :=
  let ks := (s.scene.armed.filter (fun a => a.due || (a.written && !a.committed && a.fences.any (fun f => !f.host)))).map (·.serial)
  s.each ks (fun s k => applyStopped (decidePart s k) k)

/-- A frame start ends the wait of a part's deadline: no word was read for it (log 75). -/
def endWait (s : State) (a : Armed) : State :=
  slipPart s { a with due := false, fences := a.fences.map (fun f => { f with reading := false }) }

/-- The armed parts that a deadline of a stook decides. -/
def partsAt (s : State) (k : Nat) : List Armed :=
  s.scene.armed.filter (fun a => a.written && !partStopped s a && a.pipes.any (fun p => stookOf s.reg p == k))

/-- A deadline of a stook: the fence words of its parts are asked for, and the parts are decided, oldest first (R135, R138). -/
def deadlineParts (s : State) (k : Nat) : State :=
  let ps := (partsAt s k).filter (fun a => !a.committed)
  decideParts (servePorts (s.each ps (fun s a => askFences s { a with due := true })))

/-! Fence polls. -/

/-- The host fence words of the scenes that are armed and not committed, each once: number of the COMMIT and address. -/
def hostFences (s : State) : List (Nat × Nat) :=
  ((s.scene.armed.filter (fun a => a.written && !a.committed)).flatMap (fun a =>
    (a.fences.filter (fun f => f.host && !f.signalled)).map (fun f => (a.key, f.addr)))).eraseDups

/-- FENCE_POLL: the host fence words of armed scenes are read; for stopped pipes the device words too (R137, R138). -/
def fencePoll (s : State) : State :=
  let s := s.each (hostFences s) (fun s e => readHost s e.2 4 (.fence e.1 e.2))
  decideParts (servePorts (s.each (s.scene.armed.map (·.serial)) askStopped))

/-- A host fence word has arrived, for every part of its scene (R138). -/
def fenceArrived (s : State) (key addr : Nat) (w : Word) : State :=
  let mine := s.scene.armed.filter (fun a => a.key == key)
  let see := fun (f : Fence) => if f.host && f.addr == addr then { f with signalled := f.signalled || fenceMet f w } else f
  (s.each mine (fun s a => setArmed s { a with fences := a.fences.map see })).each (mine.map (·.serial)) applyStopped

/-! The fallback scene (R319). -/

/-- The pipe changes to its fallback scene at a frame start; `frame` is the last frame before it. -/
def enterFallback (s : State) (p : Nat) (frame : BitVec 32) : State :=
  let s := darken s p frame
  raise (s.setPipe p { s.pipe p with
    boot := false, fallback := true, wantFallback := false, bootArt := false, flGone := (s.pipe p).flOut, bg := (s.pipe p).ground }) (672 + p)

/-- A pipe is to change to its fallback scene at its next frame start: one that shows a host scene, or for a thermal trip
any (R319). A pipe that shows it already goes on. -/
def requestFallback (s : State) (p : Nat) : State :=
  let r := s.pipe p
  if r.fallback then s else s.setPipe p { r with wantFallback := true }

/-- SYS.STATE.STATE after a change of what pipes show (R416, R81): HOST once a host scene has shown, FALLBACK while a pipe that runs
shows the fallback scene after it, whatever the others show (log 70). -/
def refreshState (s : State) : State :=
  if s.fld F.sysStateState = 4 || !pipes8.any (fun p => (s.pipe p).hostShown) then s
  else s.setFld F.sysStateState (if pipes8.any (fun p => (s.pipe p).fallback && (s.pipe p).gen == .running) then 3 else 2)

/-! Loss of the host (R98, R121). -/

/-- Staged scenes, COMMITs in proof or waiting for it, and armed scenes short of their deadline are discarded. -/
def discardScenes (s : State) : State :=
  let isScene : WItem → Bool := fun i => match i with | .scene _ => true | .strobe _ _ _ _ => false
  let s := s.mapScene (fun x => { x with
    staging := [], before := [], admitted := [], queue := x.queue.filter (fun i => !isScene i),
    inHand := match x.inHand with | some (i, v) => if isScene i then none else some (i, v) | none => none,
    armed := x.armed.filter (·.committed), readmit := x.readmit.filter (fun e => e.1.isEmpty) })
  startProof s

end Sys2Proof.Machine
end

