-- ==== Sys2Proof/Machine/Lanes.lean ====
section
/-! DEFINITION. The lane field (spec 11): lane groups and their links, packets to panels, and the camera ports with their
policers (spec 09, R240, R241). -/

namespace Sys2Proof.Machine

/-! Lane groups (R276, R291, R297). -/

def groups8 : List Nat := List.range 8

def groupEn (s : State) (g : Nat) : Bool := s.flag (F.laneCfgEn g)
def groupIf (s : State) (g : Nat) : Nat := s.fld (F.laneCfgIf g)
def groupTarget (s : State) (g : Nat) : Nat := s.fld (F.laneCfgTarget g)
def isInput (s : State) (g : Nat) : Bool := groupIf s g == 4
def isPair (s : State) (g : Nat) : Bool := s.flag (F.laneCfgPair g)

/-- LANE.STAT.STATE: 0 OFF, 1 BRINGUP, 2 READY, 3 RECOVERY, 4 RETIRED. -/
def groupState (s : State) (g : Nat) : Nat := s.fld (F.laneStatState g)
def setGroupState (s : State) (g v : Nat) : State := s.setFld (F.laneStatState g) v

/-- The group that serves a pipe, and the group that feeds a camera port. -/
def outGroupOf (s : State) (p : Nat) : Option Nat :=
  groups8.find? (fun g => groupEn s g && !isInput s g && groupTarget s g == p)
def inGroupOf (s : State) (c : Nat) : Option Nat :=
  groups8.find? (fun g => groupEn s g && isInput s g && groupTarget s g == c)

/-- The link of a pipe is ready; a pipe without an output group has no link to wait for (R276). -/
def linkReady (s : State) (p : Nat) : Bool :=
  match outGroupOf s p with
  | none => true
  | some g => groupState s g == 2

/-- LANE.GROUPS as it reads. -/
def groupsWord (s : State) : Word :=
  BitVec.ofNat 32 (groups8.foldl (fun n g =>
    let st := groupState s g
    n + (if st = 2 then 2 ^ g else 0) + (if st = 3 then 2 ^ (8 + g) else 0) + (if st = 4 then 2 ^ (16 + g) else 0)) 0)

/-- A pipe's scene in force has an enabled class S layer; FLp is one (R317). -/
def hasClassS (s : State) (p : Nat) : Bool :=
  drawsFl s p ||
  (planarOn s.scene.planar p).any (fun n => (planarOf s.scene.planar n).clsS) ||
  (objOn (drawView s p).obj p).any (fun k => (objLayerOf (drawView s p).obj k).clsS)

/-- A line of black with sync goes out: of the lead-in, and of a frame that shows no pixels (R258, R259, R261, R291). A DSI link in
a relocking change has stopped its video mode (R261). -/
def blackLine (s : State) (p : Fin 8) (y : Nat) : State :=
  let mute := (s.pipe p).black == .relock && (outGroupOf s p).any (fun g => groupIf s g == 0)
  if hasOutput s p && !mute && y < vActive s.reg p then s.emit (.pixels p y (List.replicate (hActive s.reg p) 0)) else s

/-- The LINK force cause of a pipe (R293): class S content whose link is not ready, until the frame start at which pixels resume. -/
def recheckLink (s : State) (p : Nat) : State :=
  let black := (s.pipe p).black
  let held := causeFlags s 1 p &&& 2 != 0 && black != .none
  forceHold s 1 p (generatorRuns s p && hasClassS s p && (!linkReady s p || black == .waitLink || held))

/-- The link of a pipe is in RECOVERY or RETIRED (R293). -/
def linkFailing (s : State) (p : Nat) : Bool := (outGroupOf s p).any (fun g => 3 ≤ groupState s g)

/-- The frame in hand is checked: it shows pixels, or would but for a link in RECOVERY or RETIRED (R276, R293, R361). -/
def checks (s : State) (p : Nat) : Bool :=
  let r := s.pipe p
  r.gen == .running && (r.black == .none || (r.black == .waitLink && linkFailing s p))

/-- A pipe's link dropped: it carries black with sync from now on. -/
def waitLink (s : State) (p : Nat) : State :=
  let r := s.pipe p
  recheckLink (if r.gen != .stopped && r.black == .none then s.setPipe p { r with black := .waitLink } else s) p

/-- Bring-up begins (R291, step 1): an eDP group waits for HPD, LVDS and parallel RGB for their POWER_DELAY. -/
def bringUp (s : State) (g st : Nat) : State :=
  let delay := if groupIf s g = 2 || groupIf s g = 3 then 1000000 * min 255 (nth 0 s.pow.powerDelay g) else 0
  setGroupState (s.setGroup g { s.group g with waitHpd := groupIf s g == 1, readyAt := s.time.uptime + delay }) g st

/-- An enabled group that is not retired comes up; its pipe waits for it. None does after a core failure (R380). -/
def startGroup (s : State) (g : Nat) : State :=
  if !groupEn s g || groupState s g = 4 || s.flag F.faultStateCoreFail then s
  else
    let s := bringUp s g 1
    if isInput s g then s else waitLink s (groupTarget s g)

/-- The group whose configuration a group's part of a link follows: of a pair g and g + 1 it is g (R276). -/
def linkHead (s : State) (g : Nat) : Nat := if g % 2 = 1 && groupEn s (g - 1) && isPair s (g - 1) then g - 1 else g

/-- The other group of an enabled pair. -/
def pairMate (s : State) (g : Nat) : Option Nat :=
  if linkHead s g ≠ g then some (linkHead s g) else if groupEn s g && isPair s g then some (g + 1) else none

/-- A group's failure is counted and reported with its cause (R293, R298). -/
def linkFault (s : State) (g cause : Nat) : State :=
  raise ((s.setFld (F.laneStatCause g) cause).addFld F.laneLinkFailsCount 1) (512 + g)

/-- A group's failure with a cause of LANE.STAT (R293): its link recovers, or the group is retired. -/
def dropGroup (s : State) (g cause : Nat) (retired : Bool) : State :=
  let h := linkHead s g
  let s := linkFault s g cause
  let s := if retired then setGroupState s g 4 else bringUp s h 3
  if groupEn s h && !isInput s h then pipeFault (waitLink s (groupTarget s h)) (groupTarget s h) 4 else s

/-- The other group of a pair is retired with the first: a link that it heads is not ready any more. -/
def dropMate (s : State) (g : Nat) : State :=
  let s := setGroupState s g 4
  if groupEn s g && !isInput s g then recheckLink s (groupTarget s g) else s

/-- The panel list of a DSI group is sent, in order (R291, step 2). -/
def sendPanelList (s : State) (g : Fin 8) : State :=
  if groupIf s g = 0 then s.each (nth [] s.pow.panels g) (fun s e => s.emit (.panelPacket g e.1 0 e.2.1)) else s

/-- A unit is in recovery no longer. -/
def endRecovery (s : State) (u : Nat) : State := s.setUnit u { s.unit u with recovery := false }

/-- LINK_READY: bring-up ends. A link of a boot scene that is ready later than 200 ms after power-good is late (R49). -/
def groupReady (s : State) (g : Fin 8) : State :=
  let st := groupState s g
  if (st = 1 || st = 3) && !(s.group g).waitHpd && (s.group g).readyAt ≤ s.time.uptime then
    let s := raise (setGroupState (sendPanelList s g) g 2) (520 + g)
    let s := endRecovery s (0x30 + g)
    let s := match pairMate s g with | some k => endRecovery s (0x30 + k) | none => s
    let first := (s.group g).atBoot
    let s := s.setGroup g { s.group g with atBoot := false }
    if !isInput s g && first && 200000000 < s.time.uptime then raise s (64 + 16 * groupTarget s g + 9) else s
  else s

def execLinkReady (group : Fin 8) (s : State) : Answer := whenUp s (fun s => groupReady s group)

/-! Packets to panels (R296). -/

/-- The interface of a group sends packets: an enabled DSI or eDP group. -/
def sendsPackets (s : State) (g : Nat) : Bool := groupEn s g && groupIf s g ≤ 1

/-- The length of a packet is in the range of its interface. -/
def packetLenOk (s : State) (g : Nat) : Bool :=
  let n := s.fld (F.lanePktCtlLen g)
  if groupIf s g = 0 then n ≤ 64 else 1 ≤ n && n ≤ 16

/-- PKT_GO. -/
def packetGo (s : State) (g : Nat) : State :=
  if s.flag (F.lanePktCtlBusy g) || !sendsPackets s g || !packetLenOk s g then
    (s.setFld (F.lanePktCtlBusy g) 0).setFld (F.lanePktCtlErr g) 1
  else s.setFld (F.lanePktCtlBusy g) 1

def execPktGo (path : Path) (group : Fin 8) (s : State) : Answer := whenServed s path (fun s => packetGo s group)

/-- A DSI group is in bring-up: its packets wait for the panel list to end (R296). -/
def listFirst (s : State) (g : Nat) : Bool := groupIf s g == 0 && (groupState s g == 1 || groupState s g == 3)

/-- PKT_DONE: the transaction ends; a DSI packet and an eDP write take their payload from the FIFO, a read leaves its response
there. -/
def packetDone (s : State) (g : Fin 8) (ok : Bool) (resp : List Byte) : State :=
  if !s.flag (F.lanePktCtlBusy g) || listFirst s g then s
  else
    let n := s.fld (F.lanePktCtlLen g)
    let read := s.flag (F.lanePktCtlRead g)
    let x := s.group g
    let sent := if groupIf s g = 1 && read then [] else (x.fifo ++ List.replicate n 0).take n
    let s := s.emit (.panelPacket g (s.reg (A.lanePktCtl g)) (s.reg (A.lanePktAddr g)) sent)
    let s := s.setGroup g { x with fifo := x.fifo.drop sent.length, resp := if read && ok then resp.take n else x.resp }
    let s := (s.setFld (F.lanePktCtlBusy g) 0).setFld (F.lanePktCtlErr g) (if ok then s.fld (F.lanePktCtlErr g) else 1)
    raise s (528 + g)

/-- The transaction that ends is a DSI acknowledge that reports an error: its bytes are there, and it is not good (R292; log 29). -/
def ackError (s : State) (g : Nat) (ok : Bool) (resp : List Byte) : Bool :=
  s.flag (F.lanePktCtlBusy g) && !listFirst s g && groupIf s g == 0 && s.flag (F.lanePktCtlRead g) && !ok && !resp.isEmpty

/-- A write of PKT_DATA pushes four bytes into the 64-byte FIFO; bytes that find no room are lost (log 29). -/
def packetPush (s : State) (g : Nat) (w : Word) : State :=
  s.setGroup g { s.group g with fifo := ((s.group g).fifo ++ leBytes 4 w.toNat).take 64 }

def execPktDataPush (path : Path) (group : Fin 8) (w : Word) (s : State) : Answer := whenServed s path (fun s => packetPush s group w)

/-- A read of PKT_DATA pops four response bytes, zeros past the end. -/
def packetPop (s : State) (g : Nat) : State × Word :=
  let r := (s.group g).resp
  (s.setGroup g { s.group g with resp := r.drop 4 }, leWord (r ++ [0, 0, 0, 0]))

def execPktDataPop (path : Path) (group : Fin 8) (s : State) : Answer :=
  whenServed s path (fun s => (packetPop s group).1.emit (.read path (BitVec.ofNat 32 (A.lanePktData group)) (packetPop s group).2))

/-! Camera ports (R287 to R289). -/

/-- A port receives: it is enabled and its input group is ready. -/
def camReceives (s : State) (c : Nat) : Bool :=
  s.flag (F.laneCamCfgEn c) && (match inGroupOf s c with | some g => groupState s g == 2 | none => false)

/-- Bytes per pixel on the link and in the stored format. -/
def camLinkBytes (dt : Nat) : Nat := if dt = 0x24 then 3 else 2
def camStoreBytes (dt : Nat) : Nat := if dt = 0x24 then 4 else 2

/-- Stored format of a data type (R287). -/
def camStore (dt : Nat) : Nat := if dt = 0x24 then 1 else if dt = 0x22 then 2 else 8

/-- The pixels of a packet in their stored order (R154, R287): YUV422 arrives as Cb, Y0, Cr, Y1, RGB888 as B, G, R. -/
def camReorder (dt : Nat) : List Byte → List Byte
  | [] => []
  | [_] => []
  | [a, b] => if dt = 0x22 then [a, b] else []
  | a :: b :: c :: r =>
    if dt = 0x22 then a :: b :: camReorder dt (c :: r)
    else if dt = 0x24 then a :: b :: c :: 0 :: camReorder dt r
    else match r with
      | [] => []
      | d :: r => b :: a :: d :: c :: camReorder dt r

/-- A line is dropped for an error; CAM_ERR fires once in a frame (R289). -/
def camError (s : State) (c : Nat) : State :=
  let s := s.addFld (F.laneCamErrsCount c) 1
  if (s.cam c).errFired then s else raise (s.setCam c { s.cam c with errFired := true }) (536 + c)

/-- A line of a camera frame is dropped by the policer or for want of room; CAM_DROP fires once in that frame (R241, R252). -/
def camDropped (s : State) (c frame : Nat) : State :=
  let x := s.cam c
  if x.dropFired.contains frame then s else raise (s.setCam c { x with dropFired := frame :: x.dropFired }) (900 + c)

/-- A line passes the policer and waits to be written, or is dropped. -/
def camAdmit (s : State) (c line : Nat) (bs : List Byte) : State :=
  let (s, ok) := policeLine s c bs.length
  let slot := s.fld (F.laneCamStatSlot c)
  if !ok then camDropped (s.addFld (F.schedPolDropsCount c) 1) c (s.cam c).frame
  else if 2 ≤ (s.cam c).waiting.length || !portAllows s (96 + c) (camLineAddr s c slot line) then
    camDropped (s.addFld (F.schedPolOverrunsCount c) 1) c (s.cam c).frame
  else s.setCam c { s.cam c with waiting := (s.cam c).waiting ++ [(slot, line, (s.cam c).frame, bs)] }

/-- CAM_LINE: a long packet of the port's channel and data type. A packet whose header cannot be corrected is not known to be
a line, so it takes no line index (log 30). -/
def camLineIn (s : State) (c : Nat) (headerOk crcOk : Bool) (bs : List Byte) : State :=
  let x := s.cam c
  if !camReceives s c || !x.inFrame then s
  else if !headerOk then camError s c
  else
    let dt := s.fld (F.laneCamCfgDt c)
    let s := match inGroupOf s c with | some g => s.perfAdd (40 + 2 * g) bs.length | none => s
    let s := s.setCam c { x with line := x.line + 1 }
    if !crcOk || bs.length ≠ s.fld (F.laneCamSizeWidth c) * camLinkBytes dt then camError s c
    else if s.fld (F.laneCamSizeHeight c) ≤ x.line then s.addFld (F.laneCamErrsCount c) 1
    else camAdmit s c x.line (camReorder dt bs)

def execCamLine (cam : Fin 6) (headerOk crcOk : Bool) (bytes : List Byte) (s : State) : Answer :=
  whenUp s (fun s => camLineIn s cam headerOk crcOk bytes)

/-- CAM_LINE_WRITTEN: the oldest waiting line stands in device memory, once its bursts have gone (R236, R244). -/
def camWritten (s : State) (c : Nat) : State :=
  let s := servePorts s
  match (s.cam c).waiting with
  | [] => s
  | (slot, line, frame, bs) :: r =>
    let a := camLineAddr s c slot line
    if (s.cam c).sent.1 < bs.length then s
    else
      let s := s.store a bs
      s.setCam c { s.cam c with waiting := r, sent := (0, 0), copies := smPut (s.cam c).copies (2 * line + slot) (frame, s.time.uptime) }

/-- A frame closes. -/
def camClose (s : State) (c : Nat) : State :=
  (s.setCam c { s.cam c with inFrame := false }).setFld (F.laneCamStatActive c) 0

def execCamFrameEnd (cam : Fin 6) (s : State) : Answer := whenUp s (fun s => if camReceives s cam then camClose s cam else s)

/-- A frame opens in the slot that the previous frame did not use; the first frame of a port uses slot 0 (log 31). -/
def camOpen (s : State) (c : Nat) : State :=
  let s := camClose s c
  let x := s.cam c
  let slot := if x.frame = 0 then 0 else 1 - s.fld (F.laneCamStatSlot c)
  let s := match inGroupOf s c with | some g => s.perfAdd (41 + 2 * g) 1 | none => s
  let s := ((s.setFld (F.laneCamStatSlot c) slot).setFld (F.laneCamStatActive c) 1).setFld (F.laneCamStatFrames c)
    (s.fld (F.laneCamStatFrames c) + 1)
  s.setCam c { x with
    inFrame := true, line := 0, frame := x.frame + 1, errFired := false,
    dropFired := x.dropFired.filter (fun f => x.waiting.any (fun e => e.2.2.1 == f)),
    lastStart := some s.time.uptime, period := x.lastStart.map (fun t => s.time.uptime - t) }

/-- Waiting lines whose buffer lies on a channel that has left service, or on a port that has left the mask, are dropped (R241,
R374). -/
def dropCamLines (s : State) : State :=
  s.each [0, 1, 2, 3, 4, 5] (fun s c =>
    let allowed := fun (e : Nat × Nat × Nat × List Byte) => portAllows s (96 + c) (camLineAddr s c e.1 e.2.1)
    let x := s.cam c
    let lost := x.waiting.filter (fun e => !allowed e)
    let sent := if (x.waiting.take 1).all allowed then x.sent else (0, 0)
    (s.setCam c { x with waiting := x.waiting.filter allowed, sent := sent }).each lost (fun s e =>
      camDropped (s.addFld (F.schedPolOverrunsCount c) 1) c e.2.2.1))

end Sys2Proof.Machine
end

