-- ==== Sys2Proof/Machine/Dma.lean ====
section
/-! DEFINITION. The DMA engine and the memory scan engines (spec 14, R347 to R359). -/

namespace Sys2Proof.Machine

/-- The channels. -/
def channels32 : List Nat := List.range 32

/-- Unit code of a channel (R367). -/
def dmaUnit (c : Nat) : Nat := 0x40 + c

/-- A region of device memory lies within one channel range (R149, R349). -/
def inOneChannel (a n : Nat) : Bool := (regionChannel a (a + n - 1)).isSome

/-- What a descriptor completes with before it moves anything: BAD_TYPE, ADDR_RANGE, or 0. -/
def dmaCheck (kind : Nat) (b : DescBody) : Nat :=
  if !dmaOk kind b then 0x11
  else
    let n := dmaBytes kind b
    let src := kind = 0x40 && !dmaSrcHost b && !inOneChannel (dmaSrc b) n
    let dst := !dmaDstHost b && !inOneChannel (dmaDst b) n
    if src || dst then 0x13 else 0

/-- The statuses that mark a descriptor bad. -/
def isBad (status : Nat) : Bool := [0x11, 0x12, 0x13, 0x20, 0x21, 0x22].contains status

/-! Host reads of a COPY (R347, R112). -/

/-- Ask for host bytes while the channel has a free block. -/
def askHost (c : Nat) : Nat → State → State
  | 0, s => s
  | k + 1, s =>
    let d := s.chan c
    match d.inHand with
    | none => s
    | some x =>
      let n := dmaLen x.d.body
      if x.d.kind = 0x40 && dmaSrcHost x.d.body && !d.failed && d.asked < fillable s c d x then
        let len := min 1024 (n - d.asked)
        let at_ := d.asked
        askHost c k (readHost (s.setChan c { d with asked := at_ + len }) (dmaSrc x.d.body + at_) len
          (.dma (Fin.ofNat 32 c) x.key at_))
      else s

/-! Beats (R351, R352). -/

/-- The beats of a transfer: offset and length of each part inside one 64-byte block of the source, or of the destination
where there is no source. -/
def beatsFrom (base n : Nat) : Nat → Nat → List (Nat × Nat)
  | 0, _ => []
  | k + 1, off =>
    if n ≤ off then []
    else
      let len := min (n - off) (64 - (base + off) % 64)
      (off, len) :: beatsFrom base n k (off + len)

def beatsOf (kind : Nat) (b : DescBody) : List (Nat × Nat) :=
  let n := dmaBytes kind b
  beatsFrom (if kind = 0x40 then dmaSrc b else dmaDst b) n (n / 64 + 2) 0

/-- The bytes that a descriptor moves: of device memory, of what stood there when its channel was retired, of the host content that
arrived, or of its pattern or value. -/
def dmaData (s : State) (c : Nat) (kind : Nat) (b : DescBody) : List Byte :=
  if kind = 0x40 then
    (if dmaSrcHost b || !(s.chan c).got.isEmpty then (s.chan c).got.flatMap (·.2) else s.load (dmaSrc b) (dmaLen b))
  else if kind = 0x41 then (List.replicate (dmaLen b / 4) (leBytes 4 (dmaPattern b))).flatten
  else leBytes 4 (dmaLen b)

/-- A beat's bytes stored at the destination. What was written to a channel that has been retired since is undefined with the rest of
its range (R374, R382). -/
def putBeat (s : State) (b : DescBody) (off : Nat) (bs : List Byte) : State :=
  if dmaDstHost b then writeHost s (dmaDst b + off) bs
  else if (channelOf (dmaDst b)).any (fun m => (s.unit m).retired) then s
  else s.store (dmaDst b + off) bs

/-- Neighbouring beats that are written, joined. -/
def joinBeats : List (Nat × Nat) → List (Nat × Nat)
  | [] => []
  | (o, n) :: r =>
    match joinBeats r with
    | (o', n') :: r' => if o + n = o' then (o, n + n') :: r' else (o, n) :: (o', n') :: r'
    | [] => [(o, n)]

/-- A last beat that failed late leaves undefined bytes. -/
def lateBytes (s : State) (b : DescBody) (off n : Nat) : List Byte :=
  (List.range n).map (fun i => Config.undefByte s.free (dmaDst b + off + i))

/-- A descriptor has a request to a port outside its subscriber's mask, or out of service (R231). -/
def dmaRefused (s : State) (c : Nat) (x : DmaDesc) : Bool :=
  let b := x.d.body
  (x.d.kind = 0x40 && !dmaSrcHost b && !portAllows s (readSub c) (dmaSrc b)) ||
    (!dmaDstHost b && !portAllows s (writeSub c) (dmaDst b))

/-- What becomes of the beats of a descriptor (R351, R352): all of them, those that failed before the count reached zero, the last
one if it failed late, those that a port refused, and those that are written; whether a failure arose in the shared buffer. -/
structure Beats where
  all     : List (Nat × Nat)
  bad     : List (Nat × Nat)
  late    : Option (Nat × Nat)
  refused : List (Nat × Nat)
  good    : List (Nat × Nat)
  buffer  : Bool

/-- The beats of the descriptor in hand. Of one that a port refuses, the beats that were read may have failed, and those that were
drained stand (R374). An ECC error needs a source in device memory (R351). -/
def beatsIn (s : State) (c : Nat) (x : DmaDesc) (rep : BeatReport) : Beats :=
  let kind := x.d.kind.toNat
  let b := x.d.body
  let n := dmaBytes kind b
  let all := beatsOf kind b
  let refusedNow := dmaRefused s c x
  let gotten := if refusedNow then writable (s.chan c) x else n
  let reach := if refusedNow then drained (s.chan c) x else n
  let fails := fun (inBuffer : Bool) => inBuffer || (kind = 0x40 && !dmaSrcHost b)
  let last := if n ≤ gotten && rep.late.any fails then all.getLast? else none
  let isLast := fun (e : Nat × Nat) => last == some e
  let hits := fun (e : Nat × Nat) => rep.bad.filter (fun r => r.1 == e.1 && fails r.2)
  let bad := all.filter (fun e => e.1 + e.2 ≤ gotten && !(hits e).isEmpty && !isLast e)
  { all := all, bad := bad, late := last, refused := all.filter (fun e => !(e.1 + e.2 ≤ reach)),
    good := all.filter (fun e => e.1 + e.2 ≤ reach && (hits e).isEmpty && !isLast e),
    buffer := bad.any (fun e => (hits e).any (·.2)) || (last.isSome && rep.late == some true) }

/-- The status of a descriptor (R350, R352). -/
def Beats.status (x : Beats) : Nat :=
  if !x.bad.isEmpty || (x.late.isSome && !x.refused.isEmpty) then 0x20
  else if !x.refused.isEmpty then 0x22
  else if x.late.isSome then 0x21 else 0

/-- DETAIL of a descriptor of `n` bytes (R350). -/
def Beats.detail (x : Beats) (n : Nat) : BitVec 64 :=
  let out := x.all.filter (fun e => x.bad.contains e || x.refused.contains e || x.late == some e)
  let first := match out with | e :: _ => e.1 | [] => n
  BitVec.ofNat 64 (first + 2 ^ 32 * min out.length 0xFFFF + 2 ^ 48 * x.late.isSome.toNat + 2 ^ 49 * x.buffer.toNat)

/-- The outcome of a descriptor: the state with its beats written, its status and DETAIL (R350). The bytes of a last beat that
failed late are undefined. Beats that failed carried no payload. -/
def runBeats (s : State) (c : Nat) (x : DmaDesc) (rep : BeatReport) : State × Nat × BitVec 64 :=
  let kind := x.d.kind.toNat
  let b := x.d.body
  let data := dmaData s c kind b
  let bs := beatsIn s c x rep
  let s' := s.each (joinBeats bs.good) (fun s e => putBeat s b e.1 ((data.drop e.1).take e.2))
  let s' := s'.each (bs.late.toList.filter (fun e => !bs.refused.contains e))
    (fun s e => (putBeat s b e.1 (lateBytes s b e.1 e.2)).freshen)
  let s' := if dmaDstHost b then s' else giveBack s' (writeSub c) (dmaDst b) ((s.chan c).wr.1 - (bs.good.map (·.2)).sum)
  (s', bs.status, bs.detail (dmaBytes kind b))

/-- A descriptor in hand cannot finish yet: host bytes are still to come, or bursts of it have not gone (R236, R238, R239, R244),
or its read engine waits for a free block (R347). -/
def dmaWaits (s : State) (c : Nat) (x : DmaDesc) : Bool :=
  let b := x.d.body
  let d := s.chan c
  let read := x.d.kind = 0x40 && !dmaSrcHost b && decide (d.rd.1 < dmaLen b)
  let fill := x.d.kind ≠ 0x40 && dmaDstHost b && decide (d.rd.1 < dmaBytes x.d.kind.toNat b)
  let write := !dmaDstHost b && decide (d.wr.1 < dmaBytes x.d.kind.toNat b)
  let host := x.d.kind = 0x40 && dmaSrcHost b && decide (arrivedLen d.got < dmaLen b)
  !d.failed && !dmaRefused s c x && (read || fill || write || host)

/-! Triggered channels (R355, R356). -/

def isTriggered (c : Nat) : Bool := decide (28 ≤ c)
def tchKind (s : State) (c : Nat) : Nat := s.fld (F.dmaTchCfgKind (c - 28))

/-- The triggered channels that a channel's completion or end of run triggers. -/
def followers (s : State) (c : Nat) : List Nat :=
  [28, 29, 30, 31].filter (fun d => tchKind s d == 3 && s.fld (F.dmaTchCfgFrom (d - 28)) == c && c < d)

/-- The first bad status of the run is kept. -/
def noteStatus (s : State) (c st : Nat) : State :=
  if s.fld (F.dmaTchStatStatus (c - 28)) = 0 then s.setFld (F.dmaTchStatStatus (c - 28)) st else s

/-- A trigger begins a run, or is missed (R356). -/
def beginRun (s : State) (c : Nat) : State :=
  if (s.unit (dmaUnit c)).retired then s
  else if s.dmaHalted || (s.chan c).runAt.isSome then raise (s.addFld F.dmaTrigMissedCount 1) (292 + (c - 28))
  else
    let base := s.reg64 (A.dmaTchBaseLo (c - 28)) / 32 * 32
    let s := (s.setFld (F.dmaTchStatBusy (c - 28)) 1).setFld (F.dmaTchStatStatus (c - 28)) 0
    s.setChan c { s.chan c with runAt := some base, runCount := 0, runStatus := 0, runLast := false, runRead := false, runHalted := false }

/-- A run ends. -/
def closeRun (s : State) (c : Nat) : State :=
  let s := s.setChan c { s.chan c with runAt := none, runCount := 0, inHand := none, runLast := false, runRead := false, runHalted := false }
  let s := (s.setFld (F.dmaTchStatBusy (c - 28)) 0).setReg (A.dmaTchRuns (c - 28)) (s.reg (A.dmaTchRuns (c - 28)) + 1)
  raise s (288 + (c - 28))

/-- A list entry that moves nothing: a NOP, or one that is bad for its type, its fields or its addresses; its status (R352, R356). -/
def entryStatus (x : Desc) : Option Nat :=
  if x.kind = 0 then some 0
  else
    let st := if x.kind.toNat = 0x40 && dmaSrcHost x.body || dmaDstHost x.body then 0x11 else dmaCheck x.kind.toNat x.body
    if st = 0 then none else some st

/-- A list entry ends with a status (R356, R364). -/
def noteEntry (s : State) (c st : Nat) : State :=
  let s := s.setFld (F.dmaChStatLastStatus c) st
  if st = 0 then s else countBad (noteStatus s c st) c

/-- The entry that has been read is in hand. -/
def takeEntry (s : State) (c a : Nat) : State :=
  let d := s.chan c
  let x := descOf (s.load a 32) 0 false
  s.setChan c { d with runAt := some (a + 32), runCount := d.runCount + 1, runLast := x.h.last, runRead := false,
                       inHand := some { d := x, key := 0, chainAt := a, batchAt := 0, marksAt := [] },
                       got := [], asked := 0, failed := false, rd := (0, 0), wr := (0, 0), dep := none }

/-- The run of a triggered channel goes on: an entry that moves nothing ends, the next one is taken once the port has read it, or the
run ends; its end triggers the channels that follow it (R354 to R356). -/
def runNext : Nat → State → Nat → State
  | 0, s, _ => s
  | k + 1, s, c =>
    let d := s.chan c
    let finish := fun (s : State) => (followers s c).foldl (fun s f =>
      let was := (s.chan f).runAt
      let s := beginRun s f
      if was.isNone then runNext k s f else s) (closeRun s c)
    match d.runAt, d.inHand with
    | none, _ => s
    | some _, some x =>
      (match entryStatus x.d with
       | none => s
       | some st => runNext k (noteEntry (s.setChan c { d with inHand := none }) c st) c)
    | some a, none =>
      if d.runHalted || s.dmaHalted then finish (s.setFld (F.dmaTchStatStatus (c - 28)) 0x23)
      else if d.runLast then finish s
      else if 64 ≤ d.runCount then finish (noteStatus s c 0x10)
      else if memEnd < a + 32 then finish (noteEntry s c 0x13)
      else if !portAllows s (readSub c) a then finish (noteEntry s c 0x22)
      else if d.runRead then takeEntry s c a
      else s

/-- Enough fuel for the runs that one command can bring about. -/
def runFuel : Nat := 400

/-- The triggered channels. -/
def channels4 : List Nat := [28, 29, 30, 31]

/-- An entry that moves nothing stays in hand until the next command, since its read may still prove wrong (R356); then its run goes
on. -/
def endEntries (s : State) : State := s.each channels4 (fun s c => if (s.chan c).runAt.isSome then runNext runFuel s c else s)

/-- The entries that the ports have read are taken. -/
def takeEntries (s : State) : State := s.each channels4 (fun s c => if (s.chan c).runRead then runNext runFuel s c else s)

/-- The ports serve what waits, and the entries that they read are taken. -/
def serveRuns (s : State) : State := servePorts (takeEntries (servePorts s))

/-- The channels ask the host for what their blocks have room for. -/
def askAll (s : State) : State := s.each (s.dma.map (·.1)) (fun s c => askHost c 64 s)

/-- The read of the list entry in hand returns an uncorrectable error: the run ends without carrying it out (R356). -/
def listLost (s : State) (c addr : Nat) : State :=
  match (s.chan c).runAt, (s.chan c).inHand with
  | some _, some x =>
    if isTriggered c && addr / 64 == x.chainAt / 64 then
      runNext runFuel (noteEntry (s.setChan c { s.chan c with inHand := none, runLast := true }) c 0x20) c
    else s
  | _, _ => s

/-- A trigger of a triggered channel. -/
def triggerChan (s : State) (c : Nat) : State :=
  let was := (s.chan c).runAt
  let s := beginRun s c
  if was.isNone then runNext runFuel s c else s

/-- The completion of a descriptor with TRIGGER set. -/
def triggerFollowers (s : State) (c : Nat) : State := s.each (followers s c) triggerChan

/-- TRIGGER_TIMER. -/
def execTriggerTimer (chan : Fin 32) (s : State) : Answer :=
  whenUp s (fun s => if isTriggered chan && tchKind s chan == 2 then serveRuns (triggerChan s chan) else s)

/-- The triggers of the line-position bus (R355): POS channels whose place a pipe enters, never in a lead-in. -/
def posTriggers (s : State) (p line unit : Nat) : State :=
  s.each [28, 29, 30, 31] (fun s c =>
    if tchKind s c == 1 && s.fld (F.dmaTchCfgPipe (c - 28)) == p && s.fld (F.dmaTchPosLine (c - 28)) == line &&
       s.fld (F.dmaTchPosUnit (c - 28)) == unit then triggerChan s c else s)

/-! The end of a descriptor. -/

/-- A channel's recovery ends when its restarted descriptor completes (R367). -/
def endChanRecovery (s : State) (c : Nat) : State :=
  let u := s.unit (dmaUnit c)
  if u.recovery then s.setUnit (dmaUnit c) { u with recovery := false } else s

/-- The descriptor in hand ends with a status; its completion triggers what follows the channel (R355). -/
def endDesc (s : State) (c : Nat) (status : Nat) (detail : BitVec 64) (dep : Option (BitVec 8)) : State :=
  match (s.chan c).inHand with
  | none => s
  | some x =>
    let s := s.setChan c { s.chan c with inHand := none, got := [], asked := 0, failed := false, dep := none }
    let s := endChanRecovery (s.setFld (F.dmaChStatLastStatus c) status) c
    let s := if isBad status then countBad s c else s
    if isTriggered c then runNext runFuel (if status = 0 then s else noteStatus s c status) c
    else
      let s := match channelRing s c with
        | some n => closeCpl s n x.key status detail x.d.h.nocpl dep
        | none => s
      if dmaTrigger x.d.body then triggerFollowers s c else s

/-- A channel takes its descriptors in ring order (R348): a bad one ends at once, in its place. -/
def takeDescs : Nat → State → Nat → State
  | 0, s, _ => s
  | k + 1, s, c =>
    let d := s.chan c
    match d.inHand, d.queue with
    | none, x :: q =>
      if s.dmaHalted || (s.unit (dmaUnit c)).retired then s
      else
        let s := s.setChan c { d with inHand := some x, queue := q, got := [], asked := 0, failed := false, rd := (0, 0), wr := (0, 0), dep := none }
        let st := dmaCheck x.d.kind.toNat x.d.body
        if st ≠ 0 then takeDescs k (endDesc s c st 0 none) c else askHost c 64 s
    | _, _ => s

/-- A channel takes its next descriptor. -/
def startDma (s : State) (c : Nat) : State := takeDescs ((s.chan c).queue.length) s c

/-- A descriptor of a DMA ring goes to its channel. -/
def handDma (s : State) (n : Nat) (d : Desc) (at_ batch : Nat) (marks : List (BitVec 32)) : State :=
  let c := ringChannel s n
  let (k, s) := takeKey s
  let s := openCpl s n k d.index d.h.tag d.chain
  let x : DmaDesc := { d := d, key := k, chainAt := at_, batchAt := batch, marksAt := marks }
  startDma (s.setChan c { s.chan c with queue := (s.chan c).queue ++ [x] }) c

/-- The descriptor in hand ends with a status, and the next one is taken. -/
def finishDma (s : State) (c : Nat) (status : Nat) (detail : BitVec 64) (dep : Option (BitVec 8)) : State :=
  startDma (endDesc s c status detail dep) c

/-- The bytes that a descriptor's bursts have drained stand at its destination (R374). -/
def keepDrained (s : State) (c : Nat) (x : DmaDesc) : State :=
  putBeat s x.d.body 0 ((dmaData s c x.d.kind.toNat x.d.body).take (drained (s.chan c) x))

/-- The retired port that a refused descriptor depends on (R376). -/
def refusedBy (s : State) (x : DmaDesc) : Option (BitVec 8) :=
  let out := fun (a : Nat) (on : Bool) => if on then
      (match channelOf a with | some m => if (s.unit m).retired then some (BitVec.ofNat 8 m) else none | none => none) else none
  (out (dmaSrc x.d.body) (x.d.kind == 0x40 && !dmaSrcHost x.d.body)).or (out (dmaDst x.d.body) (!dmaDstHost x.d.body))

/-- DMA_DESC_DONE: the descriptor in hand has finished its writes. -/
def dmaDone (s : State) (c : Nat) (rep : BeatReport) : State :=
  let s := servePorts s
  match (s.chan c).inHand with
  | none => s
  | some x =>
    if dmaWaits s c x || (isTriggered c && (entryStatus x.d).isSome) then s
    else
      let (s', status, detail) := runBeats s c x rep
      finishDma s' c status detail ((s.chan c).dep.or (if status = 0x22 then refusedBy s x else none))

/-- Host bytes for a channel have arrived, or a host read reports FAULT. An answer to a read of a descriptor that has ended brings
nothing. -/
def dmaArrived (s : State) (c key off : Nat) (bs : Option (List Byte)) : State :=
  let d := s.chan c
  match d.inHand with
  | none => s
  | some x =>
    if x.key ≠ key then s
    else match bs with
    | none => finishDma (keepDrained (s.setChan c { d with failed := true }) c x) c 0x12 0 d.dep
    | some bs => askHost c 64 (servePorts (s.setChan c { d with got := smPut d.got off bs }))

/-- A channel in recovery carries the descriptor in hand out again from its first beat; what it has written stands (R367, R374). -/
def restartDesc (s : State) (c : Nat) : State :=
  match (s.chan c).inHand with
  | none => s
  | some x =>
    let s := keepDrained s c x
    askHost c 64 (s.setChan c { s.chan c with got := [], asked := 0, rd := (0, 0), wr := (0, 0) })

/-! The halt (R353, R354). -/

/-- The ring of a discarded descriptor fetches again from it: its slot does not count as fetched. -/
def rollBack (s : State) (n : Nat) (x : DmaDesc) : State :=
  let r := s.ring n
  let marks := x.marksAt.filter (fun m => !r.marks.contains m) ++ r.marks
  let held := r.held.filter (fun c => c.key < x.key)
  let r := { r with reading := none, buf := [], batch := x.batchAt, marks := marks, held := held,
                    chain := if x.d.chain then some (x.chainAt, x.d.index) else none }
  (s.setRing n r).setReg (A.ringCi n) (if x.d.chain then x.d.index + 1 else x.d.index)

/-- The descriptors that a ring has read and not handed over are discarded: their slots do not count as fetched (R353). -/
def dropBuf (s : State) (n : Nat) : State :=
  let r := s.ring n
  let s := s.setRing n { r with reading := none, buf := [] }
  match r.buf.find? (fun d => !d.chain) with
  | some d => s.setReg (A.ringCi n) d.index
  | none => s

/-- The descriptors of a channel from a place in its queue on are discarded. -/
def discardFrom (s : State) (c keep : Nat) : State :=
  let d := s.chan c
  match d.queue.drop keep, channelRing s c with
  | x :: _, some n => rollBack (s.setChan c { d with queue := d.queue.take keep }) n x
  | [], some n => dropBuf s n
  | _, none => s

/-- A descriptor in hand whose first beat still waits for its shaper or port has not started (R353). -/
def notBegun (s : State) (c : Nat) (x : DmaDesc) : Bool :=
  let b := x.d.body
  let d := s.chan c
  !d.failed && !dmaRefused s c x &&
  (if x.d.kind = 0x40 then (if dmaSrcHost b then d.asked == 0 else d.rd == (0, 0))
   else if dmaDstHost b then d.rd == (0, 0) else d.wr == (0, 0))

/-- A channel at the halt: what has not started is discarded, and a run ends after its descriptor in hand (R353, R354). -/
def haltChan (s : State) (c : Nat) : State :=
  let s := servePorts s
  let d := s.chan c
  if isTriggered c then
    let d := { d with runHalted := d.runAt.isSome, runRead := false, inHand := d.inHand.filter (fun x => !notBegun s c x) }
    runNext runFuel (s.setChan c d) c
  else match d.inHand with
    | none => discardFrom s c 0
    | some x =>
      if !notBegun s c x then discardFrom s c 0
      else discardFrom (s.setChan c { d with inHand := none, queue := x :: d.queue }) c 0

/-- ENGINE_HALT: prefetched descriptors are discarded; those in hand go on. -/
def engineHalt (s : State) : State :=
  if s.dmaHalted then s
  else
    let s := { s with dmaHalted := true }
    let s := s.each channels32 haltChan
    raise ((s.setFld F.dmaEngineHalted 1).addFld F.dmaHaltsCount 1) 296

/-- RESTART of a halted engine. -/
def restartEngine (s : State) : State :=
  if s.dmaHalted then { s with dmaHalted := false }.setFld F.dmaEngineHalted 0 else s

/-- A DMA channel is retired (R374). -/
def retireDma (s : State) (c : Nat) : State :=
  let u := BitVec.ofNat 8 (dmaUnit c)
  if isTriggered c then
    let s := match (s.chan c).inHand with | some x => (keepDrained s c x).setFld (F.dmaChStatLastStatus c) 0x14 | none => s
    if (s.chan c).runAt.isSome then triggerFollowers (closeRun (s.setFld (F.dmaTchStatStatus (c - 28)) 0x14) c) c else s
  else
    let d := s.chan c
    match channelRing s c with
    | none => s
    | some n =>
      let last := match d.inHand with | some x => x.d.index | none => lastFinished s n
      let s := discardFrom s c 0
      let s := match d.inHand with
        | some x =>
          let s := closeCpl (((keepDrained s c x).setChan c dmaInit).setFld (F.dmaChStatLastStatus c) 0x14) n x.key 0x14 0 false (some u)
          if dmaTrigger x.d.body then triggerFollowers s c else s
        | none => s
      if ringRuns s n || ringState s n == 2 then haltRing s n 5 last else s

/-- The descriptors in hand with a beat in flight on a channel that retires wait for its record (R376); what they have read of it
stays theirs (R374). -/
def markInFlight (s : State) (m : Nat) : State :=
  s.each channels32 (fun s c =>
    match (s.chan c).inHand with
    | none => s
    | some x =>
      let b := x.d.body
      let reads := x.d.kind == 0x40 && !dmaSrcHost b && channelOf (dmaSrc b) == some m
      let d := s.chan c
      let s := if reads then s.setChan c { d with got := [(0, s.load (dmaSrc b) d.rd.1)] } else s
      if reads || (!dmaDstHost b && channelOf (dmaDst b) == some m) then
        s.setChan c { s.chan c with dep := some (BitVec.ofNat 8 m) }
      else s)

/-- A descriptor uses host memory. -/
def usesHost (x : DmaDesc) : Bool := (x.d.kind == 0x40 && dmaSrcHost x.d.body) || dmaDstHost x.d.body

/-- At a CLOSE a descriptor whose host reads or writes are abandoned stops, with those behind it (R92): RESUME carries
them out again. -/
def abandonDma (s : State) (c : Nat) : State :=
  let d := s.chan c
  match d.inHand with
  | some x =>
    if usesHost x then
      let s := s.setChan c { d with inHand := none, queue := x :: d.queue, got := [], asked := 0, failed := false }
      discardFrom s c 0
    else discardFrom s c (d.queue.takeWhile (fun x => !usesHost x)).length
  | none => discardFrom s c (d.queue.takeWhile (fun x => !usesHost x)).length

/-- The descriptors of a slot's chain that a channel still has go back: the slot is not carried out (R92). -/
def dropSlot (s : State) (n : Nat) (slot : BitVec 32) : State :=
  let c := ringChannel s n
  let d := s.chan c
  let mine := fun (x : DmaDesc) => x.d.chain && x.d.index == slot
  let d := if d.inHand.any mine then { d with inHand := none, got := [], asked := 0, failed := false } else d
  let s := s.setChan c { d with queue := d.queue.filter (fun x => !mine x) }
  s.setRing n { s.ring n with held := (s.ring n).held.filter (fun x => x.ready || !(x.chain && x.index == slot)) }

/-- At the loss of the host a ring channel's work ends without a record: host descriptors and those behind them go. -/
def dropDma (s : State) (c : Nat) : State :=
  if isTriggered c then s
  else
    let d := s.chan c
    match d.inHand with
    | some x => s.setChan c (if usesHost x then dmaInit else { d with queue := [] })
    | none => s.setChan c dmaInit

/-- CH_STAT.STATE as it reads (R364). -/
def chanState (s : State) (c : Nat) : Nat :=
  if (s.unit (dmaUnit c)).retired then 4
  else match (s.chan c).inHand with
    | some x => if dmaWaits s c x then 2 else 1
    | none => if (s.chan c).runAt.isSome then 2 else if s.dmaHalted then 3 else 0

/-! Memory scans (R358, R359). -/

/-- The CRC of a region under a polynomial. -/
def scanCrcOf (poly : Nat) (bs : List Byte) : Nat :=
  match poly with
  | 0 => crc32 bs
  | 1 => crc32c bs
  | 2 => crc16 bs
  | _ => crc8 bs

/-- A pass ends with a status. -/
def endScan (s : State) (e status : Nat) : State :=
  raise ({ s with scans := smDel s.scans e }.setFld (F.chkScanStatStatus e) status) (832 + e)

/-- A pass begins over a region; one that leaves its channel range, or is empty, ends at once with RANGE. -/
def beginScan (s : State) (e start len poly : Nat) : State :=
  if len = 0 || !inOneChannel start len then endScan s e 3
  else { s with scans := smPut s.scans e { start := start, len := len, poly := poly, dirty := false, got := (0, 0) } }.setFld (F.chkScanStatStatus e) 1

/-- SCAN_GO: START, LEN and POLY are read now. -/
def scanGo (s : State) (e : Nat) : State :=
  if (smFind s.scans e).isSome then s
  else beginScan s e (s.reg64 (A.chkStartLo e)) (s.fld (F.chkLenLen e)) (s.fld (F.chkScanCfgPoly e))

def execScanGo (path : Path) (engine : Fin 8) (s : State) : Answer := whenServed s path (fun s => scanGo s engine)

/-- SCAN_STOP. -/
def scanStop (s : State) (e : Nat) : State := if (smFind s.scans e).isSome then endScan s e 6 else s

def execScanStop (path : Path) (engine : Fin 8) (s : State) : Answer := whenServed s path (fun s => scanStop s engine)

/-- SCAN_DONE: the pass in hand ends. A region written during the pass has the CRC of neither version: a free value. -/
def scanDone (s : State) (e : Nat) (how : ScanEnd) : State :=
  let s := servePorts s
  match smFind s.scans e with
  | none => s
  | some c =>
    if !portAllows s (202 + e) c.start then endScan s e 5
    else
      match how with
      | .refused => s
      | .ecc a =>
        if c.start ≤ a && a < c.start + c.got.1 then endScan (s.setReg64 (A.chkErrLo e) (a / 64 * 64)) e 4 else s
      | .read =>
        if c.got.1 < c.len then s
        else
        let v : Word := if c.dirty then Config.scanCrc s.free else BitVec.ofNat 32 (scanCrcOf c.poly (s.load c.start c.len))
        let s := if c.dirty then s.freshen else s
        let s := (s.setReg (A.chkResult e) v).setFld (F.chkScanStatPasses e) (s.fld (F.chkScanStatPasses e) + 1)
        let s := endScan s e 2
        if s.flag (F.chkScanCfgRepeat e) then beginScan s e c.start c.len c.poly else s

def execScanDone (engine : Fin 8) (how : ScanEnd) (s : State) : Answer := whenUp s (fun s => scanDone s engine how)

/-- Scans on a channel that leaves service end REFUSED (R374). -/
def refuseScans (s : State) (m : Nat) : State :=
  s.each (s.scans.filter (fun e => channelOf e.2.start == some m)) (fun s e => endScan s e.1 5)

end Sys2Proof.Machine
end

