-- ==== Sys2Proof/Machine/Events.lean ====
section
/-! DEFINITION. The event controller's commands (spec 13): occurrences, re-sampling, record issue, completion, masks,
sleep and wake. -/

namespace Sys2Proof.Machine

/-! Queues and notifications. -/

/-- The notification of a queue: an 8-byte WRITE to QNOTIFY, nothing while QNOTIFY is 0 (R338). -/
def sendNotify (s : State) (q : Nat) : State :=
  let a := s.reg64 (A.evtQnotifyLo q)
  if a / 8 = 0 then s
  else writeHost s (a / 8 * 8) (leBytes 4 (s.reg (A.evtQpi q)).toNat ++ leBytes 1 q ++ leBytes 3 0)

/-- The queue is not empty. -/
def queueNonempty (s : State) (q : Nat) : Bool := s.reg (A.evtQpi q) != s.reg (A.evtHostCi q)

/-- A notification is sent only while QMASK is 0 and the queue is AWAKE (R338). -/
def notifyAllowed (s : State) (q : Nat) : Bool :=
  !s.flag (F.evtQctlQmask q) && s.fld (F.evtQctlState q) == 0

/-- Notify if the host has records to consume (R338): after a KIND 3 entry, at the return to AWAKE.
With no session it falls due at the next confirmation. -/
def notifyPending (s : State) (q : Nat) : State :=
  if queueNonempty s q && notifyAllowed s q && sessionOpen s then sendNotify s q else s

/-- At a confirmation each enabled queue that meets R338 sends one notification. -/
def notifyAtConfirm (s : State) : State :=
  s.each pipes8 (fun s q => if s.flag (F.evtQcfgEn q) then notifyPending s q else s)

/-- A WAKE frame with a queue's bit (R88, R342). -/
def sendWake (s : State) (q : Nat) : State := sendSeq s tyWake (leBytes 1 (1 <<< q) ++ leBytes 3 0) none

/-- Whether a source's record may issue now (R332, R336). -/
def issuable (s : State) (k : Nat) : Bool :=
  let q := s.fld (F.evtSrcCfgQueue k)
  canIssue s && eligible s k && s.flag (F.evtQcfgEn q) && !queueFull s q

/-- The better of two sources: higher PRIORITY, then lower number (R332). -/
def betterSource (s : State) (best : Option Nat) (k : Nat) : Option Nat :=
  match best with
  | none => some k
  | some b =>
    let pb := s.fld (F.evtSrcCfgPriority b)
    let pk := s.fld (F.evtSrcCfgPriority k)
    if pb < pk || (pb == pk && k < b) then some k else some b

/-- The source whose record issues next. -/
def nextSource (s : State) : Option Nat := ((knownSources s).filter (issuable s)).foldl (betterSource s) none

/-- The 16 bytes of an event record (R335). -/
def eventRecord (s : State) (q k : Nat) : List Byte :=
  let v := s.source k
  let qpi := (s.reg (A.evtQpi q)).toNat
  let lvl := isLevel s k && s.flag (F.evtSrcStatAsserted k)
  let flags := phaseOf qpi (queueSize s q) + 2 * v.saturated.toNat + 4 * v.resampled.toNat + 8 * v.moved.toNat +
    16 * s.fld (F.evtSrcCfgExplicit k) + 32 * lvl.toNat
  leBytes 2 k ++ leBytes 1 (s.fld (F.evtSrcStatCount k)) ++ leBytes 1 flags ++ leBytes 4 v.detail.toNat ++
  leBytes 6 v.stamp.toNat ++ leBytes 2 0

/-- No WAKE frame is owed for a queue any more. -/
def dropWake (s : State) (q : Nat) : State :=
  { s with hw := { s.hw with wakeDue := s.hw.wakeDue &&& ~~~(BitVec.ofNat 8 (1 <<< q)) } }

/-- After a record issued into a queue: the wake request of an ASLEEP queue, an owed WAKE frame, or the notification
of a queue that was empty (R338, R342). -/
def afterIssue (s : State) (q : Nat) (wasEmpty : Bool) : State :=
  if s.fld (F.evtQctlState q) = 1 then
    sendWake (wakeRequest (s.setFld (F.evtQctlState q) 2)) q
  else if s.hw.wakeDue.getLsbD q then
    sendWake (dropWake s q) q
  else if wasEmpty && notifyAllowed s q then sendNotify s q
  else s

/-- The commit point of a source's record (R339). -/
def issueRecord (s : State) (k : Nat) : State :=
  let q := s.fld (F.evtSrcCfgQueue k)
  let rec' := eventRecord s q k
  let wasEmpty := !queueNonempty s q
  let qpi := s.reg (A.evtQpi q)
  let addr := s.reg64 (A.evtQbaseLo q) / 16 * 16 + 16 * (qpi.toNat % queueSize s q)
  let s := writeHost s addr rec'
  let s := s.setReg (A.evtQpi q) (qpi + 1)
  let s := s.setFld (F.evtSrcStatCount k) 0
  let s := s.setSource k { s.source k with saturated := false, resampled := false, moved := false }
  let s := if s.flag (F.evtSrcCfgExplicit k) then
      (s.setFld (F.evtSrcStatActive k) 1).setFld (F.evtSrcStatAqueue k) q else s
  reportFull (afterIssue s q wasEmpty) q

/-- EVENT_RECORD_ISSUE: the record of the most urgent eligible source issues; with none, nothing happens. -/
def execEventRecordIssue (s : State) : Answer :=
  whenUp s (fun s => match nextSource s with
    | some k => issueRecord s k
    | none => s)

/-! Occurrences. -/

/-- A source number that some chapter assigns (R115, R148, R175, R252, R275, R298, R322 to R324, R366, R384, R405, R415);
the others never occur (R323). -/
def assignedSource (k : Nat) : Bool :=
  k < 36 || (64 ≤ k && k < 192 && (k - 64) % 16 < 13) || (192 ≤ k && k ≤ 236) || (256 ≤ k && k ≤ 296) ||
  (320 ≤ k && k ≤ 541) || (640 ≤ k && k ≤ 669) || (672 ≤ k && k ≤ 679) || (760 ≤ k && k ≤ 839) ||
  (896 ≤ k && k ≤ 906) || (928 ≤ k && k ≤ 936)

/-- The condition of a level source as its block sees it, before the filter. -/
def rawCond (s : State) (k : Nat) : Bool :=
  if k = 0 then s.flag F.sysTempWarn
  else if 8 ≤ k && k < 16 then queueFull s (k - 8)
  else if k = 35 then s.flag F.faultRrecHeldCount
  else if snsSource k then snsCond s (k - 760) else false

/-- EVENT_OCCURRENCE: an edge source occurs. Of a level source it is the change of its filtered condition (R325, R326):
it takes effect when the block's condition has that value. -/
def occur (s : State) (k : Nat) (level : Bool) : State :=
  if !assignedSource k then s
  else if isLevel s k then (if rawCond s k == level then setCond s k level else s)
  else raise s k

def execEventOccurrence (k : Fin 1024) (level : Bool) (s : State) : Answer := whenUp s (fun s => occur s k level)

/-- RESAMPLE: at the end of a source's re-sample phase its condition is sampled, once (R328). -/
def resample (s : State) (k : Nat) : State :=
  if s.sampleDue.contains k then sampleSource { s with sampleDue := s.sampleDue.filter (· != k) } k else s

def execResample (k : Fin 1024) (s : State) : Answer := whenUp s (fun s => resample s k)

/-! Sense inputs (R329). -/

/-- The filtered level of a sense input changes: the level kind's condition follows, the edge kinds occur. -/
def senseChange (s : State) (i : Nat) (level : Bool) : State :=
  if snsLevel s i == level then s
  else
    let s := s.setFld (F.evtSnsCfgLevelNow i) level.toNat
    let m := snsMode s i
    if m ≤ 1 then setCond s (760 + i) (snsCond s i)
    else if (m = 2 && level) || (m = 3 && !level) || m = 4 then raise s (760 + i)
    else s

/-- A pin's level changes; without power only the level itself is followed. -/
def sensePin (s : State) (i : Nat) (level : Bool) : State :=
  match s.pow.power with
  | .up => senseChange s i level
  | _ => s.setFld (F.evtSnsCfgLevelNow i) level.toNat

/-- SNS_CHANGE: the pin stays changed for its filter time. -/
def execSnsChange (pin : Fin 8) (level : Bool) (s : State) : Answer := answer s (sensePin s pin level)

/-! Completion, mask, SPI flag. -/

/-- A write of 1 to SRC_STAT.ACTIVE (R331, R333): an inactive source makes a stray completion. In a re-sample phase the
condition of a level source is sampled (R328). -/
def completeSource (s : State) (k : Nat) : State :=
  if s.flag (F.evtSrcStatActive k) then
    let s := s.setFld (F.evtSrcStatActive k) 0
    let s := if resamplePhase s then sampleSource s k else s
    wakeAll s
  else s.addFld F.evtStrayCplCount 1

/-- SOURCE_COMPLETE. -/
def execSourceComplete (path : Path) (k : Fin 1024) (s : State) : Answer := whenServed s path (fun s => completeSource s k)

/-- A write of SRC_CFG.MASK applies at once (R339). -/
def maskSource (s : State) (k : Nat) (m : Bool) : State := wakeFor (s.setFld (F.evtSrcCfgMask k) m.toNat) k

/-- SOURCE_MASK. -/
def execSourceMask (path : Path) (k : Fin 1024) (m : Bool) (s : State) : Answer := whenServed s path (fun s => maskSource s k m)

/-- A write of 1 to SPI_FLAG clears it; SPI_INT_N and SPI_FIRST follow (R345). -/
def clearSpi (s : State) (k : Nat) : State := s.setFld (F.evtSrcStatSpiFlag k) 0

/-- SPI_FLAG_CLEAR. -/
def execSpiFlagClear (path : Path) (k : Fin 1024) (s : State) : Answer := whenServed s path (fun s => clearSpi s k)

/-! Queue control. -/

/-- Writing 1 to SLEEP makes the queue ASLEEP (R342), a WAKE_SENT one too; an eligible source may at once wake it again when no
session is OPEN. A WAKE frame that an earlier wake still owed is owed no more. -/
def sleepQueue (s : State) (q : Nat) : State :=
  let s := dropWake s q
  wakeAll ((s.setFld (F.evtQctlSleep q) 1).setFld (F.evtQctlState q) 1)

/-- QUEUE_SLEEP. -/
def execQueueSleep (path : Path) (q : Fin 8) (s : State) : Answer := whenServed s path (fun s => sleepQueue s q)

/-- Writing 0 to SLEEP returns the queue to AWAKE; it notifies if records wait (R342). -/
def awakeQueue (s : State) (q : Nat) : State :=
  let was := s.fld (F.evtQctlState q)
  let s := (s.setFld (F.evtQctlSleep q) 0).setFld (F.evtQctlState q) 0
  let s := dropWake s q
  if was = 0 then s else notifyPending s q

/-- QUEUE_AWAKE. -/
def execQueueAwake (path : Path) (q : Fin 8) (s : State) : Answer := whenServed s path (fun s => awakeQueue s q)

/-- QMASK is written; clearing it while HOST_CI is below QPI sends one notification, whatever the queue's state: the rule asks for
AWAKE only at a record's issue and at a KIND 3 entry (R338; log 67). -/
def writeQmask (s : State) (q : Nat) (m : Bool) : State :=
  let was := s.flag (F.evtQctlQmask q)
  let s := s.setFld (F.evtQctlQmask q) m.toNat
  if was && !m && queueNonempty s q && sessionOpen s then sendNotify s q else s

/-- QMASK_CLEAR. -/
def execQmaskClear (path : Path) (q : Fin 8) (s : State) : Answer := whenServed s path (fun s => writeQmask s q false)

/-- A KIND 3 doorbell entry: the queue's consumer index (R337, R338). -/
def queueConsumed (s : State) (q : Nat) (index : BitVec 32) : State :=
  let s := reportFull (s.setReg (A.evtHostCi q) index) q
  notifyPending s q

/-- WAKE_PULSE_END: the 1 ms pulse ends (R58). -/
def execWakePulseEnd (s : State) : Answer :=
  whenUp s (fun s =>
    if s.pow.wakeOut then ({ s with pow := { s.pow with wakeOut := false } }).emit (.wakePin false) else s)

/-! What a strobe of EVT changes (R325, R334, R340, R341). `old` is the state before the strobe applied. -/

/-- A source's EN, QUEUE change. -/
def sourceStrobed (old s : State) (k : Nat) : State :=
  let s := if old.fld (F.evtSrcCfgQueue k) != s.fld (F.evtSrcCfgQueue k) then
      s.setSource k { s.source k with moved := true } else s
  let was := old.flag (F.evtSrcCfgEn k)
  let now := s.flag (F.evtSrcCfgEn k)
  let s :=  -- a filter that is taken away no longer holds the condition back (R326)
    if !(levelSource k && !snsSource k) then s
    else if now && !was then
      (if s.fld (F.evtSrcCfgFilter k) = 0 then s.setFld (F.evtSrcStatAsserted k) (rawCond s k).toNat else s)
    else reportCond s k (rawCond s k)
  let s :=
    if was && !now then
      let s := s.setFld (F.evtSrcStatCount k) 0
      s.setSource k { s.source k with saturated := false, resampled := false }
    else if !was && now && isLevel s k && s.flag (F.evtSrcStatAsserted k) && !resamplePhase s then
      countOccurrence (markSpi s k) k true
    else s
  wakeFor s k

/-- A queue's EN change: its enable takes SIZE and zeroes the indices, its disable completes its active sources. -/
def queueStrobed (old s : State) (q : Nat) : State :=
  let was := old.flag (F.evtQcfgEn q)
  let now := s.flag (F.evtQcfgEn q)
  let s :=
    if !was && now then
      let size := max 6 (min 16 (s.fld (F.evtQcfgSize q)))
      let s := { s with queueSizes := smSet 6 s.queueSizes q size }
      (s.setReg (A.evtQpi q) 0).setReg (A.evtHostCi q) 0
    else if was && !now then
      s.each (knownSources s) (fun s k => if activeIn s q k then s.setFld (F.evtSrcStatActive k) 0 else s)
    else s
  reportFull s q

/-- The sources whose configuration differs between two states. -/
def changedSources (old s : State) : List Nat :=
  (List.range 1024).filter (fun k => old.reg (A.evtSrcCfg k) != s.reg (A.evtSrcCfg k))

/-- EVT has applied its pending set. -/
def evtStrobed (old s : State) : State :=
  let s := s.each pipes8 (queueStrobed old)
  wakeAll (s.each (changedSources old s) (sourceStrobed old))

end Sys2Proof.Machine
end

