-- ==== Sys2Proof/Machine/Rings.lean ====
section
/-! DEFINITION. The rings at work (spec 04, R100 to R112): acting on descriptors, the ring controls, doorbells, polls and the
content that arrives; and `settle`, which lets every ring, record and read go on that a change of state allows. -/

namespace Sys2Proof.Machine

/-! Acting on descriptors. -/

/-- The act of a descriptor in a SCENE ring, by TYPE (R101, R122). -/
def actScene (s : State) (n : Nat) (d : Desc) : State :=
  match d.kind.toNat with
  | 0x00 => actNop s n d
  | 0x01 => actJump s n d
  | 0x10 => actLayerWords s n d
  | 0x11 => actLayerBlock s n d
  | 0x12 => actObjWords s n d
  | 0x13 => actObjBlock s n d
  | 0x14 => actLutLoad s n d
  | 0x15 => actMatrix s n d
  | 0x16 => actLoftLoad s n d
  | 0x18 => actFenceAcq s n d
  | 0x1F => actCommit s n d
  | _ => badDesc s n d 0x11

/-- The act of a descriptor in a DMA ring (R101, R349). `r` is the ring before the descriptor was counted. -/
def actDma (s : State) (n : Nat) (d : Desc) (r : Ring) : State :=
  match d.kind.toNat with
  | 0x00 => actNop s n d
  | 0x01 => actJump s n d
  | _ => handDma s n d (match r.chain with | some (a, _) => a | none => 0) r.batch r.marks

/-- After the act the chain steps on, but for a JUMP, and for a descriptor that stays in hand. -/
def afterAct (s : State) (n : Nat) (d : Desc) : State :=
  if d.kind = 0x01 || (s.ring n).inHand.isSome || (s.ring n).waitCommit.isSome then s else stepChain s n d

/-- A descriptor is counted (R102) and acted on. -/
def actOn (s : State) (n : Nat) (d : Desc) : State :=
  let r := s.ring n
  let s := if d.chain then s else keepBefore s n
  match countHop s n d with
  | none => loopStop s n d
  | some s => afterAct (if ringKind s n = 1 then actScene s n d else actDma s n d r) n d

/-- The descriptor that may be acted on now: a chain goes before the slots behind it. -/
def headReady (s : State) (n : Nat) : Option Desc :=
  let r := s.ring n
  if r.halt.isSome || r.inHand.isSome || r.waitCommit.isSome || (ringKind s n == 2 && (s.dmaHalted || 64 ≤ prefetched s)) then none
  else match r.buf with
    | [] => none
    | d :: _ => if r.chain.isSome && !d.chain then none else some d

/-- The work that a ring has in hand before it can stop (R103, R121). -/
def ringBusy (s : State) (n : Nat) : Bool :=
  let r := s.ring n
  r.chain.isSome || r.inHand.isSome || (r.waitCommit.any (·.chain)) || handedOver s n

/-- HOST_STOP is due. -/
def stopDue (s : State) (n : Nat) : Bool := (s.ring n).stopping && !ringBusy s n

/-- A ring goes on: it stops, retries a COMMIT that waited, acts on what it has fetched, or reads ahead. -/
def runRing : Nat → State → Nat → State
  | 0, s, _ => s
  | k + 1, s, n =>
    if let some (cause, stop) := (s.ring n).halt then (if handedOver s n then s else haltRing s n cause stop)
    else if stopDue s n then haltRing s n 3 (takeSlot s n - 1)
    else if !(ringState s n == 1 || ringState s n == 2) then s
    else
      match (s.ring n).waitCommit with
      | some d =>
        if commitMustWait s n || recordsMustWait s n then s
        else runRing k (stepChain (handCommit (s.setRing n { s.ring n with waitCommit := none }) n d) n d) n
      | none =>
        match headReady s n with
        | none => readAhead s n
        | some d =>
          if (s.ring n).stopping && !d.chain then s
          else runRing k (actOn (s.setRing n { s.ring n with buf := (s.ring n).buf.drop 1 }) n d) n

/-- Enough fuel for the descriptors that one read brings, and a stop. -/
def ringFuel : Nat := 40

/-- What waits at the ports is served, runs go on, and the parts whose fence words have been read are decided. -/
def portsGoOn (s : State) : State := decideParts (askAll (serveRuns (endEntries s)))

/-- The completions that wait are written, the scenes that they arm are armed, and every ring goes on (R109, R135). -/
def ringsGoOn (s : State) : State :=
  (armWritten (s.each (s.rings.map (·.1)) drainRing)).each (s.rings.map (·.1)) (runRing ringFuel)

/-- What was held for want of a session, of room, of a read or of a record issues, every ring goes on, and the ports serve what waits
(R92, R109, R111, R143, R234, R376): pipe records first, since a COMMIT may wait for them. -/
def settle (s : State) : State :=
  let s := drainReleases s
  let s := s.each (s.precHeld.map (·.1)) drainPrec
  portsGoOn (pumpReads (armWritten (ringsGoOn s)))

/-! A descriptor as a command: it reaches the ring at the slot that the ring serves next. -/

/-- A descriptor arrives at the place that its ring reads next; it stands for the read of it (log 26). -/
def arrive (s : State) (n : Nat) (kind : BitVec 8) (h : DescHdr) (body : DescBody) : State :=
  let r := s.ring n
  let ci := s.reg (A.ringCi n)
  let free := ringRuns s n && ringKind s n != 0 && r.inHand.isNone && r.waitCommit.isNone && r.buf.isEmpty &&
    r.halt.isNone
  match r.chain with
  | some (_, slot) =>
    if free then
      settle (s.setRing n { r with reading := none, buf := [{ kind := kind, h := h, body := body, index := slot, chain := true }] })
    else s
  | none =>
    if free && !r.stopping && dist (s.reg (A.ringPi n)) ci != 0 then
      let d : Desc := { kind := kind, h := h, body := body, index := ci, chain := false }
      settle ((s.setRing n { r with reading := none, buf := [d] }).setReg (A.ringCi n) (ci + 1))
    else s

def execNop (ring : Fin 32) (h : DescHdr) (body : DescBody) (s : State) : Answer := whenUp s (fun s => arrive s ring 0x00 h body)
def execJump (ring : Fin 32) (h : DescHdr) (body : DescBody) (s : State) : Answer := whenUp s (fun s => arrive s ring 0x01 h body)
def execLayerWords (ring : Fin 32) (h : DescHdr) (body : DescBody) (s : State) : Answer :=
  whenUp s (fun s => arrive s ring 0x10 h body)
def execLayerBlock (ring : Fin 32) (h : DescHdr) (body : DescBody) (s : State) : Answer :=
  whenUp s (fun s => arrive s ring 0x11 h body)
def execObjWords (ring : Fin 32) (h : DescHdr) (body : DescBody) (s : State) : Answer :=
  whenUp s (fun s => arrive s ring 0x12 h body)
def execObjBlock (ring : Fin 32) (h : DescHdr) (body : DescBody) (s : State) : Answer :=
  whenUp s (fun s => arrive s ring 0x13 h body)
def execLutLoad (ring : Fin 32) (h : DescHdr) (body : DescBody) (s : State) : Answer :=
  whenUp s (fun s => arrive s ring 0x14 h body)
def execMatrix (ring : Fin 32) (h : DescHdr) (body : DescBody) (s : State) : Answer :=
  whenUp s (fun s => arrive s ring 0x15 h body)
def execLoftLoad (ring : Fin 32) (h : DescHdr) (body : DescBody) (s : State) : Answer :=
  whenUp s (fun s => arrive s ring 0x16 h body)
def execFenceAcq (ring : Fin 32) (h : DescHdr) (body : DescBody) (s : State) : Answer :=
  whenUp s (fun s => arrive s ring 0x18 h body)
def execCommit (ring : Fin 32) (h : DescHdr) (body : DescBody) (s : State) : Answer :=
  whenUp s (fun s => arrive s ring 0x1F h body)
def execCopy (ring : Fin 32) (h : DescHdr) (body : DescBody) (s : State) : Answer :=
  whenUp s (fun s => arrive s ring 0x40 h body)
def execFill (ring : Fin 32) (h : DescHdr) (body : DescBody) (s : State) : Answer :=
  whenUp s (fun s => arrive s ring 0x41 h body)
def execWrite32 (ring : Fin 32) (h : DescHdr) (body : DescBody) (s : State) : Answer :=
  whenUp s (fun s => arrive s ring 0x42 h body)

/-! Ring controls (R100, R103, R114). -/

/-- R100: no more than 8 SCENE rings, one ring for a channel, and none for channels 28 to 31. -/
def cfgBreaks (s : State) (n : Nat) (cfg : Word) : Bool :=
  let others := rings32.filter (· != n)
  let t := (F.ringCfgType n).of cfg
  let c := (F.ringCfgChannel n).of cfg
  (t == 1 && 8 ≤ (others.filter (fun m => ringKind s m == 1)).length) ||
  (t == 2 && (28 ≤ c || others.any (fun m => ringKind s m == 2 && ringChannel s m == c)))

/-- RESET (R114): with RUN at 0 and no slot in hand, every index is 0, held completions go, and CFG is taken. -/
def resetRing (s : State) (n : Nat) : State :=
  if s.flag (F.ringCtlRun n) || (s.ring n).stopping || (s.ring n).halt.isSome then s
  else
    let cfg := s.reg (A.ringCfg n)
    let s := s.each [A.ringPi n, A.ringCi n, A.ringCplPi n, A.ringHostCi n, A.ringStopIndex n] (fun s a => s.setReg a 0)
    let s := (setStaging s n none).mapScene (fun x => { x with before := x.before.filter (fun c => c.ring.val != n) })
    let s := s.setFld (F.ringStatCause n) 0
    if cfgBreaks s n cfg then (s.setRing n ringInit).setFld (F.ringStatState n) 5
    else
      let r := { ringInit with cfg := cfg, sq := s.reg64 (A.ringSqLo n) / 32 * 32, cq := s.reg64 (A.ringCqLo n) / 16 * 16,
                               poll := s.reg64 (A.ringPollLo n) / 8 * 8, pollIv := max 10 (s.fld (F.ringPollIvUs n)) }
      (s.setRing n r).setFld (F.ringStatState n) 0

/-- RUN is written 1: after a core failure sessions serve register access only, and a SCENE ring enters CFG_ERR (R380), a DMA ring
too (log 80); an IDLE ring runs; one that is still finishing its slot after RUN was cleared goes on (DESIGN CHOICE, log 74); a
STOPPED, RETIRED or CFG_ERR ring stays. -/
def startRing (s : State) (n : Nat) : State :=
  if ringState s n = 0 && s.flag F.faultStateCoreFail then s.setFld (F.ringStatState n) 5
  else if ringState s n = 0 then runRing ringFuel ((s.setFld (F.ringCtlRun n) 1).setFld (F.ringStatState n) 1) n
  else if ringState s n = 1 || ringState s n = 2 then
    runRing ringFuel ((s.setRing n { s.ring n with stopping := false }).setFld (F.ringCtlRun n) 1) n
  else s

/-- RUN is written 0: the ring stops after the slot in hand. -/
def stopRing (s : State) (n : Nat) : State :=
  if ringState s n = 1 || ringState s n = 2 then
    runRing ringFuel ((s.setRing n { s.ring n with stopping := true }).setFld (F.ringCtlRun n) 0) n
  else s

/-- RESUME: a STOPPED ring goes on at STOP_INDEX + 1; what is left of the batch counts afresh (R102). -/
def resumeRing (s : State) (n : Nat) : State :=
  if ringState s n = 3 then
    let s := (s.setRing n { s.ring n with batch := 0 }).setReg (A.ringCi n) (s.reg (A.ringStopIndex n) + 1)
    let s := (s.setFld (F.ringCtlRun n) 1).setFld (F.ringStatState n) (if cplFull s n then 2 else 1)
    runRing ringFuel (s.setFld (F.ringStatCause n) 0) n
  else s

def execRingRun (path : Path) (ring : Fin 32) (s : State) : Answer := whenServed s path (fun s => startRing s ring)
def execRingStop (path : Path) (ring : Fin 32) (s : State) : Answer := whenServed s path (fun s => stopRing s ring)
def execRingReset (path : Path) (ring : Fin 32) (s : State) : Answer := whenServed s path (fun s => resetRing s ring)
def execRingResume (path : Path) (ring : Fin 32) (s : State) : Answer := whenServed s path (fun s => resumeRing s ring)

/-- A write of a ring's CTL (R114): RESET and RESUME act on the ring as it stands, before RUN is stored, against the order of log 36
(DESIGN CHOICE, log 73). -/
def writeRingCtl (s : State) (n : Nat) (w : Word) : State :=
  let s := if w.getLsbD 1 then resetRing s n else s
  if w.getLsbD 2 && ringState s n == 3 then resumeRing s n
  else if w.getLsbD 0 then startRing s n else stopRing s n

/-- A write of PREC_CFG: SIZE is taken when EN goes from 0 to 1, which sets both indices to 0 (R114);
what waited for the ring goes on (R111). -/
def enablePrec (s : State) (p : Nat) (w : Word) : State :=
  let was := s.flag (F.ringPrecCfgEn p)
  let s := s.setFld (F.ringPrecCfgSize p) ((F.ringPrecCfgSize p).of w)
  let s := s.setFld (F.ringPrecCfgEn p) ((F.ringPrecCfgEn p).of w)
  settle (if !was && s.flag (F.ringPrecCfgEn p) then
      let size := max 4 (min 16 (s.fld (F.ringPrecCfgSize p)))
      let s := (s.setReg (A.ringPrecWr p) 0).setReg (A.ringPrecHostCi p) 0
      { s with precSize := smSet 4 s.precSize p size }
    else s)

def execPrecEnable (path : Path) (pipe : Fin 8) (w : Word) (s : State) : Answer := whenServed s path (fun s => enablePrec s pipe w)

/-! Index updates (R104, R105, R337). -/

/-- An entry that is not accepted. -/
def badDoorbell (s : State) : State := raise (s.addFld F.ringBadDbCount 1) 235

/-- A ring's completion ring has room again. -/
def unpause (s : State) (n : Nat) : State :=
  if ringState s n = 2 && !cplFull s n then s.setFld (F.ringStatState n) 1 else s

/-- The new PI of a ring, where R104 accepts it; each advance makes a batch (R102). -/
def submitIndex (s : State) (n : Nat) (index : BitVec 32) : State :=
  let pi := s.reg (A.ringPi n)
  if dist index pi ≤ ringSize s n && dist index (s.reg (A.ringCplPi n)) ≤ ringSize s n then
    if index = pi then s
    else runRing ringFuel ((s.setRing n { s.ring n with marks := (s.ring n).marks ++ [pi] }).setReg (A.ringPi n) index) n
  else badDoorbell s

/-- The completion consumer index of a ring. -/
def consumeIndex (s : State) (n : Nat) (index : BitVec 32) : State :=
  let ci := s.reg (A.ringHostCi n)
  if dist index ci ≤ dist (s.reg (A.ringCplPi n)) ci then
    let s := unpause (s.setReg (A.ringHostCi n) index) n
    drainRing (runRing ringFuel (drainRing s n) n) n
  else badDoorbell s

/-- The consumer index of a pipe record ring. -/
def precIndex (s : State) (p : Nat) (index : BitVec 32) : State :=
  let ci := s.reg (A.ringPrecHostCi p)
  if dist index ci ≤ dist (s.reg (A.ringPrecWr p)) ci then drainPrec (s.setReg (A.ringPrecHostCi p) index) p
  else badDoorbell s

/-- One DOORBELL entry. Bytes 2 and 3 are not looked at (log 60). -/
def doorEntry (s : State) (e : DbEntry) : State :=
  let t := e.target.toNat
  if e.kind = 0 && t < 32 then submitIndex s t e.index
  else if e.kind = 1 && t < 32 then consumeIndex s t e.index
  else if e.kind = 2 && t < 8 then precIndex s t e.index
  else if e.kind = 3 && t < 8 && dist e.index (s.reg (A.evtHostCi t)) ≤ dist (s.reg (A.evtQpi t)) (s.reg (A.evtHostCi t)) then
    queueConsumed s t e.index
  else badDoorbell s

/-- RING_POLL: the agent reads the ring's poll words. -/
def pollRing (s : State) (n : Nat) : State :=
  if (F.ringCfgPollEn n).of (s.ring n).cfg ≠ 0 && (ringState s n == 1 || ringState s n == 2) then
    readHost s (s.ring n).poll 8 (.poll (Fin.ofNat 32 n))
  else s

def execRingPoll (ring : Fin 32) (s : State) : Answer := whenUp s (fun s => pollRing s ring)

/-- The words that a poll brought; those of a ring that is no longer in RUN or PAUSED are ignored (DESIGN CHOICE, log 87). -/
def polled (s : State) (n : Nat) (bs : List Byte) : State :=
  if ringState s n = 1 || ringState s n = 2 then
    consumeIndex (submitIndex s n (leWord bs)) n (leWord (bs.drop 4))
  else s

/-! READ_RESP (R103, R108, R112). -/

/-- A descriptor read reports FAULT: the ring stops at the first slot of the read, or the slot of the chain. -/
def descFault (s : State) (n : Nat) (slot : BitVec 32) (chain : Bool) : State :=
  let s := if ringKind s n = 2 then countBad s (ringChannel s n) else s
  endRing (failSlot s n slot 0 chain 0x12) n 2 slot

/-- The slots that a read brought join those in hand; CI counts them as fetched. -/
def slotsArrived (s : State) (n : Nat) (first : BitVec 32) (count : Nat) (bs : List Byte) : State :=
  let ds := (List.range count).map (fun i => descOf (bs.drop (32 * i)) (first + BitVec.ofNat 32 i) false)
  let r := s.ring n
  (s.setRing n { r with reading := none, buf := r.buf ++ ds }).setReg (A.ringCi n) (first + BitVec.ofNat 32 count)

/-- What an answered READ_REQ brings to whom. A ring that no longer waits for it takes nothing. -/
def deliver (s : State) (r : ReadReq) (bs : Option (List Byte)) : State :=
  match r.for_, bs with
  | .slots n first count, some bs =>
    if (s.ring n).reading = some r.id then slotsArrived s n first count bs else s
  | .slots n first _, none => if (s.ring n).reading = some r.id then descFault s n first false else s
  | .chain n slot _, some bs =>
    if (s.ring n).reading = some r.id then
      s.setRing n { s.ring n with reading := none, buf := descOf bs slot true :: (s.ring n).buf }
    else s
  | .chain n slot _, none => if (s.ring n).reading = some r.id then descFault s n slot true else s
  | .poll n, some bs => polled s n bs
  | .poll _, none => s
  | .content n key offset, some bs => contentArrived s n key offset bs
  | .content n key _, none => contentFaulted s n key
  | .fence k a, some bs => fenceArrived s k a (leWord bs)
  | .fence _ _, none => s
  | .dma c key off, bs => dmaArrived s c key off bs

/-- READ_RESP: the request is answered, its frame is acknowledged (R95), and the data goes where it was wanted. An answer that
matches no outstanding request, or whose data has another length, is ignored (R112; log 27). A STATUS other than 0x00 counts as a
fault, also one that R88 does not name (DESIGN CHOICE, log 87). -/
def readAnswered (s : State) (id : BitVec 16) (status : BitVec 8) (data : List Byte) : State :=
  match s.hw.reads.find? (fun r => r.id == id && r.sent) with
  | none => settle s
  | some r =>
    if status = 0 && data.length ≠ r.len then settle s
    else
      let hw := { s.hw with reads := s.hw.reads.filter (fun x => x.id != id),
                            unacked := s.hw.unacked.filter (fun f => f.readId != some id) }
      settle (deliver (pump { s with hw := hw }) r (if status = 0 then some data else none))

/-! Commands after which rings may go on. -/



/-- FENCE_POLL. -/
def execFencePoll (s : State) : Answer := whenUp s (fun s => settle (fencePoll s))

/-- DMA_DESC_DONE. -/
def execDmaDescDone (chan : Fin 32) (rep : BeatReport) (s : State) : Answer := whenUp s (fun s => settle (dmaDone s chan rep))

/-- ENGINE_HALT. -/
def execEngineHalt (s : State) : Answer := whenUp s (fun s => settle (engineHalt s))

/-- ENGINE_RESTART. -/
def execEngineRestart (path : Path) (s : State) : Answer :=
  whenServed s path (fun s => settle ((restartEngine s).each channels32 startDma))

end Sys2Proof.Machine
end

