-- ==== Sys2Proof/Machine/Reproof.lean ====
section
/-! DEFINITION. Re-proof after a change of capacity (spec 01, R29 to R33, R422; spec 09, R238): the degradation order for the
running scene and for the armed parts. -/

namespace Sys2Proof.Machine

/-- What a re-proof has decided so far: layers shed by pipe, slot code and furrow; pipes that do not prove; the reason that
first failed. -/
structure Plan where
  shed   : List (Nat × Nat × Nat)
  falls  : List Nat
  reason : Nat

def planNone : Plan := { shed := [], falls := [], reason := 0 }

/-- The states of the pipes in one accounting frame. -/
abbrev Frame := Nat → Alt

/-- An accounting frame under a plan. -/
def planFrame (x : Plan) (fr : Frame) : Frame := fun p =>
  let a := fr p
  { a with shed := a.shed ++ (x.shed.filter (fun e => e.1 == p)).map (·.2), flOnly := a.flOnly || x.falls.contains p }

/-- The rows of accounting frames. -/
def framesRows (s : State) (g : Ground) (frames : List Frame) : List (List Row) :=
  frames.map (fun fr => rowsOf s g.view (fun p => [fr p]))

/-- The demand of one class I layer of a pipe in one state. -/
def layerDem (s : State) (v : View) (p : Nat) (a : Alt) (code : Nat) : List Dem :=
  let shed := fun f => a.shed.contains (code, f)
  let (ha, va) := areaOf v p
  if isPlanarCode code then
    let l := planarOf a.comp.planar code
    planarDemand l (channelOf l.buf) shed (furrows v p)
  else boxesDemand (layerBoxes s a.comp (code - 0x80) ha va) shed (furrows v p)

/-- The class I layers of a pipe that a state draws, with their priority. -/
def classILayers (a : Alt) (p : Nat) : List (Nat × Nat) :=
  if a.flOnly then []
  else
    ((planarOn a.comp.planar p).filter (fun n => !(planarOf a.comp.planar n).clsS)).map
      (fun n => (n, (planarOf a.comp.planar n).prio)) ++
    ((objOn a.comp.obj p).filter (fun k => !(objLayerOf a.comp.obj k).clsS)).map
      (fun k => (0x80 + k, (objLayerOf a.comp.obj k).prio))

/-- Whether a layer contributes to an inequality in a furrow (R30, step 3). -/
def contributes (reason port code : Nat) (d : Dem) : Bool :=
  if reason = rBinOverflow then !isPlanarCode code && d.spans != 0
  else if reason = rBlendCycles then d.blends != 0
  else isPlanarCode code && nth 0 d.bytes port != 0

/-- The layer to shed in a furrow of one state: the lowest priority, then the highest slot number (R30, step 3). -/
def sheddable (s : State) (v : View) (a : Alt) (p f reason port : Nat) : Option Nat :=
  let cands := (classILayers a p).filter (fun x => contributes reason port x.1 (nth demZero (layerDem s v p a x.1) f))
  (cands.foldl (fun (b : Option (Nat × Nat)) x =>
    match b with
    | none => some x
    | some y => if x.2 < y.2 || (x.2 == y.2 && hwSlot y.1 < hwSlot x.1) then some x else b) none).map (·.1)

/-- The first furrow that fails R129, R130 or R131 on a ground, among some pipes, in the scan order of R126: reason, frame, pipe,
furrow, port. -/
def furrowFail (s : State) (g : Ground) (mine : List Nat) (frames : List (List Row)) : Option (Nat × Nat × Nat × Nat × Nat) :=
  let first := fun (l : List Verdict) => l.find? (fun v => mine.contains v.pipe.toNat)
  let v := (first (binFails frames)).or ((first (blendFails g.lanes frames)).or (first (bandFails (bandRows s g frames))))
  v.map (fun v => (v.reason.toNat, v.next.toNat, v.pipe.toNat, v.item.toNat, v.port.toNat))

/-- The first frame and port that fail R132 on a ground under the holds of a list. -/
def portFail (s : State) (g : Ground) (held : List Nat) (frames : List (List Row)) : Option (Nat × Nat) :=
  (indexed frames).findSome? (fun (fr, rows) =>
    ((List.range 4).find? (fun m => g.avail m && decide (payload s < portTotal g rows m (!held.contains m)))).map (fun m => (fr, m)))

/-- The rows with demand on a port, the largest D first, the lowest pipe first on a tie. -/
def byTop (rows : List Row) (m : Nat) : List Row :=
  let rs := rows.filter (fun r => r.top m != 0)
  let tops := (rs.map (fun r => r.top m)).eraseDups
  let sorted := tops.foldl (fun (l : List Nat) t => l.filter (fun x => t < x) ++ [t] ++ l.filter (fun x => x < t)) []
  sorted.flatMap (fun t => rs.filter (fun r => r.top m == t))

/-- Step 4 of R30 on a port in one frame: the pipe and furrow that set D, with the layer to shed there; or the pipe that falls back
(R31). Where the furrow that sets the largest D holds no class I layer, another furrow of that pipe that sets D is taken, then the
next pipe; where no furrow that sets a D holds one, the pipe with the largest D falls back, though other furrows may hold some
(DESIGN CHOICE, log 28). -/
def portStep (s : State) (g : Ground) (fr : Frame) (mine : List Nat) (rows : List Row) (m : Nat) :
    Option (Nat × Option (Nat × Nat)) :=
  let rs := (byTop rows m).filter (fun r => mine.contains r.pipe)
  let pick := rs.findSome? (fun r =>
    let fs := (indexed r.dem).filter (fun e => r.kbs e.2 m == r.top m)
    (fs.findSome? (fun e => (sheddable s g.view (fr r.pipe) r.pipe e.1 rBandwidth m).map (fun c => (c, e.1)))).map
      (fun x => (r.pipe, some x)))
  pick.or ((rs.head?).map (fun r => (r.pipe, none)))

/-- A state that no proof looks at. -/
def altNone : Alt :=
  let c : Comp := { planar := [], obj := [], ctx := [] }
  { comp := c, old := c, indep := [], flOnly := true, withFl := false, shed := [], twins := [] }

/-- One step of the degradation order, if anything still fails: a layer shed in a furrow, or a pipe that does not prove. A layer is
shed for a failure in an accounting frame by what it contributes there. -/
def degradeOnce (s : State) (gs : List Ground) (held mine : List Nat) (base : List Frame) (x : Plan) : Option Plan :=
  let frames := base.map (planFrame x)
  let frame := fun k => nth (fun _ => altNone) frames k
  let left := mine.filter (fun p => !x.falls.contains p)
  let fall := fun (p r : Nat) => { x with falls := x.falls ++ [p], reason := if x.reason = 0 then r else x.reason }
  gs.findSome? (fun g =>
    let rows := framesRows s g frames
    match furrowFail s g left rows with
    | some (r, k, p, f, m) =>
      (match sheddable s g.view (frame k p) p f r m with
       | some c => some { x with shed := x.shed ++ [(p, c, f)] }
       | none => some (fall p r))
    | none =>
      match portFail s g held rows with
      | none => none
      | some (k, m) =>
        (portStep s g (frame k) left (nth [] rows k) m).map (fun (p, what) =>
          match what with
          | some (c, f) => { x with shed := x.shed ++ [(p, c, f)] }
          | none => fall p rPortTotal))

/-- The degradation order until every check proves or nothing is left to shed. -/
def degrade (s : State) (gs : List Ground) (held mine : List Nat) (base : List Frame) : Nat → Plan → Plan
  | 0, x => x
  | k + 1, x =>
    match degradeOnce s gs held mine base x with
    | none => x
    | some y => degrade s gs held mine base k y

/-- More steps than any scene has layers and furrows. -/
def degradeFuel : Nat := 10000000

/-- Step 2 of R30: class I layers with a region on a channel that is out of service are shed from every furrow. -/
def shedLost (s : State) (g : Ground) (c : Comp) (mine : List Nat) : List (Nat × Nat × Nat) :=
  mine.flatMap (fun p => (planarOn c.planar p).flatMap (fun n =>
    let l := planarOf c.planar n
    let lost := (planarRegionFails s g.avail true false l).any (fun e => e.1 == rChannelOut)
    if !l.clsS && lost then (List.range (furrows g.view p)).map (fun f => (p, n, f)) else []))

/-- Step 1 of R30: the ports on which a state does not prove with the programmed S4 and S5 rates. -/
def mustHold (s : State) (gs : List Ground) (base : List Frame) : List Nat :=
  (List.range 4).filter (fun m => gs.any (fun g => (framesRows s g base).any (fun rows =>
    g.avail m && decide (payload s < portTotal g rows m true))))

/-- The degraded form of one state: ports held, and the plan for some pipes. -/
def planFor (s : State) (gs : List Ground) (held mine : List Nat) (c : Comp) (base : List Frame) : List Nat × Plan :=
  let held := (held ++ mustHold s gs base).eraseDups
  let lost := (gs.flatMap (fun g => shedLost s g c mine)).eraseDups
  (held, degrade s gs held mine base degradeFuel { planNone with shed := lost })

/-- The running scene of a pipe, without what was shed before (R32). -/
def runningAlt (s : State) : Frame := fun p => { appliedAlt s p with shed := [] }

/-- The state that an armed part puts in force at a pipe, in an accounting frame (R422). A sub-commit is taken at its new demand: the
state before it is the result of the parts before it, which has been re-proved (DEDUCED, log 85). -/
def partAlt (s : State) (old new : Comp) (w : Writes) (next : Bool) : Frame := fun p =>
  let a := touchedAlt s old new w p next
  { a with indep := [], twins := a.twins ++ onTwinIn s new }

/-- A re-proof in hand: the composition and the states of the pipes after the parts proved so far, the ports held, the
degraded forms and drops decided. -/
structure Reproof where
  comp : Comp
  alts : Frame
  held : List Nat
  parts : List (Nat × Plan)

/-- One armed part is re-proved over the result of those before it, for its two accounting frames. A part not yet committed fails
CHANNEL_OUT for a loft load whose source has left service (R127); one committed applies, and the load is abandoned (R192; log 66).
Later parts are proved over the result of a part in its frame N + 1 alone (DESIGN CHOICE, log 85). -/
def reprovePart (s : State) (x : Reproof) (a : Armed) : Reproof :=
  let gs := groundsOf s (mcComing s)
  let mine := a.pipes.map (·.val)
  let new := x.comp.lay a.writes
  let base := [false, true].map (fun next => fun p => if mine.contains p then partAlt s x.comp new a.writes next p else x.alts p)
  let (held, plan) := planFor s gs x.held mine new base
  let lost := a.loads.any (fun l => !(channelOf l.src).any (mcComing s))
  let plan := if lost && !a.committed then { plan with falls := mine, reason := rChannelOut } else plan
  let drop := !plan.falls.isEmpty && !a.committed
  if drop then { x with parts := x.parts ++ [(a.serial, plan)] }
  else
    let done := planFrame plan (partAlt s x.comp new a.writes true)
    { comp := new, alts := fun p => if mine.contains p then done p else x.alts p, held := held,
      parts := x.parts ++ [(a.serial, plan)] }

/-- A pipe whose running scene does not prove falls back (R31). -/
def fallFor (s : State) (p : Nat) : State :=
  let s := s.setPipe p { s.pipe p with noCapacity := true }
  pipeFault (forceHold (requestFallback s p) 4 p true) p 3

/-- The degraded form of the running scene takes its place for the next frame start of each pipe. -/
def setShedNext (s : State) (x : Plan) : State :=
  s.each pipes8 (fun s p =>
    s.setPipe p { s.pipe p with shedNext := ((x.shed.filter (fun e => e.1 == p)).map (·.2)).eraseDups })

/-- What a re-proof decided for an armed part. -/
def settlePart (s : State) (e : Nat × Plan) : State :=
  match armedAt s e.1 with
  | none => s
  | some a =>
    if !e.2.falls.isEmpty && !a.committed then dropPart s a e.2.reason
    else setArmed s { a with shed := e.2.shed.eraseDups, noCap := e.2.falls }

/-- The re-proof (R29 steps 5 to 7, R422). A port that it finds to be held stays so when a scene is armed that was proved before it
(DEDUCED, log 85). -/
def reprove (s : State) : State :=
  let gs := groundsOf s (mcInService s)
  let shown := (List.range (profilePipes s)).filter (fun p => !showsFallback s p)
  let (held, run) := planFor s gs [] shown (appliedComp s) [runningAlt s]
  let start : Reproof := { comp := appliedComp s, alts := planFrame run (runningAlt s), held := held, parts := [] }
  let x := s.scene.armed.foldl (reprovePart s) start
  let kept := if s.flag F.schedThrottleReproof then [] else (List.range 4).filter (fun m => s.fbit F.schedThrottleHeld m)
  let mask := fun (l : List Nat) => l.eraseDups.foldl (fun n m => n + 2 ^ m) 0
  let s := (setShedNext s run).each run.falls fallFor
  let s := s.mapScene (fun y => { y with admitted := y.admitted.map (fun e => (e.1, e.2 &&& ~~~BitVec.ofNat 4 (mask x.held))) })
  setThrottle (s.each x.parts settlePart) false (mask (x.held ++ kept))

/-- The proof in hand restarts with the units as they are now (R124). -/
def restartProof (s : State) : State :=
  match s.scene.inHand with
  | none => s
  | some (i, _) => s.mapScene (fun x => { x with inHand := some (i, itemVerdict s i) })

/-- A change of the units that carry load: the proof in hand restarts, and a re-proof is owed that goes before every item still
waiting (R33, R124). Which of the two ends first is the sender's. `retired` names the unit whose retirement brought it (R376). -/
def oweReproof (s : State) (retired : Option (BitVec 8)) : State :=
  let s := restartProof { s with fault := { s.fault with reproof := true } }
  match retired with
  | none => s
  | some u => s.mapScene (fun x => { x with proofDep := if x.inHand.isSome then some u else x.proofDep })

/-- REPROOF_DONE: the re-proof ends; proofs go on. -/
def reproofDone (s : State) : State :=
  if s.fault.reproof then
    let s := reprove s
    startProof (restartProof { s with fault := { s.fault with reproof := false } })
  else s

end Sys2Proof.Machine
end

