-- ==== Sys2Proof/Machine/Failover.lean ====
section
/-! DEFINITION. The sending link (spec 04, R95 to R98): resending, failover, and the loss of the host. -/

namespace Sys2Proof.Machine

/-- The unacknowledged frames are sent again, oldest first, with RETX set (R95, R96). -/
def resendAll (s : State) : State :=
  let again := s.hw.unacked.map (fun (f : TxFrame) => { f with retx := true })
  let s := { s with hw := { s.hw with unacked := again } }
  s.each s.hw.unacked (fun s f => (transmit s f.kind.toNat f.seq.toNat f.body true).addFld F.ringRetxCount 1)

/-- No unacknowledged frame counts as retransmitted yet: sending begins on another link (R96). -/
def freshCounts (s : State) : State :=
  { s with hw := { s.hw with unacked := s.hw.unacked.map (fun (f : TxFrame) => { f with sends := 0 }) } }

/-- The module sends on the other link from now on (R96). -/
def switchOver (s : State) : State :=
  let s := resendAll (setActive (freshCounts s) (linkOther (activeLink s)))
  pump (raise (s.addFld F.ringFailoverCount 1) 232)

/-- The host is unresponsive (R98). A source then eligible for an ASLEEP queue wakes it (R342). -/
def hostLost (s : State) : State :=
  let s := (s.setFld F.ringLinkStatHostLost 1).setFld F.ringSessionState 3
  let s := refreshTelltales { s with hw := { s.hw with cur := none, opening := none, unacked := [], waiting := [], reads := [] } }
  let s := ((noteHeld s).each channels32 dropDma).each rings32 (fun s n =>
    if 1 ≤ ringState s n && ringState s n ≤ 3 then
      haltRing s n 4 (if ringState s n = 3 then s.reg (A.ringStopIndex n) else lastFinished s n)
    else s)
  let s := flogEntry (raise (discardScenes s) 233) 5 0xFF 0 0
  wakeAll (s.each pipes8 (fun s p => if showsFallback s p then s else requestFallback s p))

/-- A link that can be woken and sent on (R96, R98). -/
def linkWakeable (s : State) (l : Link) : Bool := linkEnabled s l && !linkRetired s l && linkAsleep s l

/-- The host is lost, if it was not (R98). -/
def loseHost (s : State) : State := if s.flag F.ringLinkStatHostLost then s else hostLost s

/-- The link that the module sends on has failed: it fails over, wakes the other link for it, or has lost its host (R96, R98), with
a session OPEN or without one. A host that is lost already is not lost again; before the start sequence has ended the module sends
on no link. -/
def failover (s : State) : State :=
  let o := linkOther (activeLink s)
  if !s.pow.started then s
  else if linkUsable s o then switchOver s
  else if linkWakeable s o then wakeLink s o
  else if s.hw.waking.getLsbD (linkIdx o) && linkEnabled s o && !linkRetired s o then s
  else loseHost s

end Sys2Proof.Machine
end

