-- ==== Sys2Proof/Machine/Faults.lean ====
section
/-! DEFINITION. The fault manager (spec 15, R367 to R384) and the rotation of the lane under test (spec 08, R205 to R210). -/

namespace Sys2Proof.Machine

/-! Units (R367). -/

def isMc (u : Nat) : Bool := decide (u < 4)
def isLane (u : Nat) : Bool := decide (0x10 ≤ u) && decide (u ≤ 0x20)
def isLg (u : Nat) : Bool := decide (0x30 ≤ u) && decide (u ≤ 0x37)
def isDma (u : Nat) : Bool := decide (0x40 ≤ u) && decide (u ≤ 0x5F)
def isLink (u : Nat) : Bool := u == 0x60 || u == 0x61
def isUnit (u : Nat) : Bool := isMc u || isLane u || isLg u || isDma u || isLink u
def unitLink (u : Nat) : Link := if u = 0x61 then .b else .a
def linkUnit (l : Link) : Nat := 0x60 + linkIdx l

def State.mapFault (s : State) (f : FaultState → FaultState) : State := { s with fault := f s.fault }

/-- Failures of a unit in the last 10 ms (R368). -/
def recentFails (s : State) (u : Nat) : List Nat := (s.unit u).fails.filter (fun t => s.time.uptime - t < 10000000)

/-! Records (R375, R376). -/

/-- A record arises: 1 RETIRED, 2 READMITTED. It is held until it is written. -/
def pushRecord (s : State) (u kind cause fails : Nat) : State :=
  let q := s.fault.nextSeq
  let r : FRec := { unit := BitVec.ofNat 8 u, kind := BitVec.ofNat 8 kind, cause := BitVec.ofNat 8 cause,
                    fails := BitVec.ofNat 8 fails, seq := q, stamp := s.time.base.setWidth 48 }
  let s := s.mapFault (fun x => { x with held := x.held ++ [r], nextSeq := if q = 0xFFFF then 1 else q + 1 })
  let s := (s.setFld F.faultLastKind (kind + 1)).setFld F.faultLastFails fails
  (s.setFld F.faultLastCause cause).setFld F.faultLastUnit u

/-- With EN at 0 a record counts as written once it is in FAULT.LAST. -/
def writtenIfOff (s : State) : State :=
  noteHeld (if s.flag F.faultRrecCfgEn then s else s.mapFault (fun x => { x with held := [] }))

/-- The 16 bytes of a record. -/
def recordBytes16 (s : State) (r : FRec) : List Byte :=
  leBytes 1 r.unit.toNat ++ leBytes 1 r.kind.toNat ++ leBytes 1 r.cause.toNat ++ leBytes 1 r.fails.toNat ++
  leBytes 2 r.seq.toNat ++ [0] ++ leBytes 1 (phaseOf (s.reg A.faultRrecWr).toNat (rrecRing s)) ++ leBytes 6 r.stamp.toNat ++
  [0, 0]

/-- RETIREMENT_RECORD: the oldest held record issues into the fault record ring. -/
def issueRetirement (s : State) : State :=
  match s.fault.held with
  | [] => s
  | r :: l =>
    if s.flag F.faultRrecCfgEn && canIssue s && !rrecFull s then
      let wr := (s.reg A.faultRrecWr).toNat
      let s' := writeHost s (s.reg64 A.faultRrecLo / 16 * 16 + 16 * (wr % rrecRing s)) (recordBytes16 s r)
      let s' := s'.setReg A.faultRrecWr (BitVec.ofNat 32 (wr + 1))
      settle (noteHeld (s'.mapFault (fun x => { x with held := l })))
    else s

def execRetirementRecord (s : State) : Answer := whenUp s issueRetirement

/-- RREC_CONSUME: a value that would exceed RREC_WR is ignored (R383). -/
def consumeRecords (s : State) (w : Word) : State :=
  let ci := s.reg A.faultRrecHostCi
  if dist w ci ≤ dist (s.reg A.faultRrecWr) ci then noteHeld (s.setReg A.faultRrecHostCi w) else s

def execRrecConsume (path : Path) (w : Word) (s : State) : Answer := whenServed s path (fun s => consumeRecords s w)

/-- RREC_ENABLE: a write of RREC_CFG, SIZE clamped; EN from 0 to 1 takes SIZE and zeroes the indices. -/
def enableRecords (s : State) (w : Word) : State :=
  let was := s.flag F.faultRrecCfgEn
  let n := max 6 (min 12 (F.faultRrecCfgSize.of w))
  let s := (s.setFld F.faultRrecCfgSize n).setFld F.faultRrecCfgEn (F.faultRrecCfgEn.of w)
  if !was && s.flag F.faultRrecCfgEn then
    noteHeld (((s.setReg A.faultRrecWr 0).setReg A.faultRrecHostCi 0).mapFault (fun x => { x with rrecSize := n }))
  else settle (writtenIfOff s)

def execRrecEnable (path : Path) (w : Word) (s : State) : Answer := whenServed s path (fun s => enableRecords s w)

/-- The retired-unit map (R377). -/
def retiredMap (s : State) : List Byte :=
  let bit := fun (base n : Nat) (ok : Nat → Bool) =>
    (List.range n).foldl (fun m i => if (s.unit (base + i)).retired && ok (base + i) then m + 2 ^ i else m) 0
  leBytes 1 (bit 0 4 (fun _ => true)) ++ leBytes 3 (bit 0x10 17 (fun _ => true)) ++
  leBytes 1 (bit 0x30 8 (fun u => (s.unit u).cause == 0x11 || (s.unit u).cause == 0x16)) ++
  leBytes 4 (bit 0x40 32 (fun _ => true)) ++ List.replicate 7 0

/-- The map goes to the journal at each retirement and re-admission. -/
def journalMap (s : State) : State := s.mapBarn (fun b => deviceRecord b 4096 (retiredMap s))

/-! The lane rotation as far as retirement needs it (R209, R210). -/

/-- With one lane in service the rotation stops; with none every pipe is black (R210). -/
def checkLanes (s : State) : State :=
  let n := lanesIn s
  if n = 0 then
    let s := s.each pipes8 (fun s p =>
      if generatorRuns s p then s.setPipe p { s.pipe p with black := .noLanes } else s)
    forceHold (s.mapFault (fun x => { x with lane := none, waitLane := none, testing := false })) 3 0 true
  else if n = 1 && s.fault.lane.isSome then
    raise (s.mapFault (fun x => { x with lane := none, waitLane := none, testing := false, hold := false, holdFail := false,
                                         holdFrames := [], holdDone := none })) 24
  else s

/-- The pipes that must pass a frame start. -/
def pipesRunning (s : State) : List Nat := pipes8.filter (generatorRuns s)

/-! Retirement (R373, R374). -/

/-- A memory channel is retired. -/
def retireMc (s : State) (m : Nat) : State :=
  let s := s.mapFault (fun x => { x with mcQueue := x.mcQueue.filter (· != m), mcHand := if x.mcHand = some m then none else x.mcHand })
  let s := s.mapFault (fun x => { x with reread := x.reread.filter (fun e => e.1 != m) })
  let s := setThrottle s true (s.fld F.schedThrottleHeld)
  let s := s.each ((slotsOf s.scene.planar).filter (fun n => (planarOf s.scene.planar n).en)) (fun s n => loseLayer s m n)
  let s := dropCamLines (refuseScans (abandonLoads (markInFlight s m) m) m)
  let s := s.loseMemory m
  let s := oweReproof s (some (BitVec.ofNat 8 m))
  if [0, 1, 2, 3].any (mcInService s) then s
  else s.each pipes8 (fun s p => if showsFallback s p then s else fallFor s p)

/-- A blend lane is retired: S4 and S5 are throttled until the re-proof, in the hold of R209 too (R29, R238). -/
def retireLane (s : State) (u : Nat) : State :=
  let s := setThrottle s true (s.fld F.schedThrottleHeld)
  oweReproof (checkLanes (s.mapFault (fun x => { x with holdFail := false }))) (some (BitVec.ofNat 8 u))

/-- A link is retired: it no longer carries the session, and with the second one the host is lost (R374). -/
def retireLink (s : State) (l : Link) : State :=
  let s := match l with
    | .a => s.setFld F.ringLinkStatARetired 1
    | .b => s.setFld F.ringLinkStatBRetired 1
  if linkRetired s (linkOther l) then loseHost s else if activeLink s = l then failover s else s

/-- The actions of a unit's kind. -/
def retireActions (s : State) (u cause : Nat) : State :=
  if isMc u then retireMc s u
  else if isLane u then retireLane s u
  else if isLg u then dropGroup s (u - 0x30) (cause - 0x10) true
  else if isDma u then retireDma (s.setUnit u { s.unit u with recovery := false }) (u - 0x40)
  else retireLink s (unitLink u)

/-- A unit is marked retired. -/
def markRetired (s : State) (u cause : Nat) : State :=
  s.setUnit u { s.unit u with cause := cause, recovery := false, retired := true, ready := false, passes := 0, pendingIn := false }

/-- One unit is retired, in the order of R373, with the actions of its kind. -/
def retireWith (s : State) (u cause fails : Nat) (actions : State → State) : State :=
  let s := (pushRecord (markRetired s u cause) u 1 cause fails).addFld F.faultRetirementsCount 1
  let s := raise (writtenIfOff (actions s)) 28
  let s := flogEntry s 1 u cause fails
  journalMap (s.mapBarn (fun b => summaryRecord (countSummary b 1)))

def retireOne (s : State) (u cause fails : Nat) : State := retireWith s u cause fails (fun s => retireActions s u cause)

/-- A unit is retired; the other group of a pair with it, with the failures of its own (R293, R298, R375). -/
def retireUnit (s : State) (u cause fails : Nat) : State :=
  let mate := if isLg u then pairMate s (u - 0x30) else none
  let s := retireOne s u cause fails
  match mate with
  | some g => if (s.unit (0x30 + g)).retired then s else retireWith s (0x30 + g) cause (recentFails s (0x30 + g)).length (fun s => dropMate s g)
  | none => s

/-! Failures (R368, R369). -/

/-- The next waiting channel starts its recovery. -/
def nextRecovery (s : State) : State :=
  match s.fault.mcHand, s.fault.mcQueue with
  | none, m :: q => s.mapFault (fun x => { x with mcHand := some m, mcQueue := q })
  | _, _ => s

/-! The lead of a port and what a third recovery costs (R372). What the fetch units still ask for says when a lead is not whole, and how
many layers are shed at least; since bursts take no time here (log 25), and a recovery has no set length, whether a lead that may be
whole is, and how many more layers are shed, are free values (log 42). -/

/-- The planar layers in force that a pipe shows from buffers on a port. -/
def layersFrom (s : State) (p m : Nat) : List Nat :=
  let r := s.pipe p
  if !draws s p || showsFallback s p then []
  else (planarOn s.scene.planar p).filter (fun n =>
    channelOf (planarOf s.scene.planar n).buf == some m && !r.offFrame.contains n && !r.heldOff.contains n)

/-- A layer's fetch unit still asks for lines of its filter window or of its ride-through lines, or for ones of the next frame. -/
def leadAsked (s : State) (p n : Nat) : Bool :=
  let l := planarOf s.scene.planar n
  let asks := fun (k f : Nat) => (smFind s.fetches k).any (fun x => x.lines.any (fun y => y.row < firstLeft l f + siloNeed s.reg l))
  asks (2 * n) ((s.pipe p).line / 8 + 1) || asks (2 * n + 1) 0

/-- The lead on a port whose recovery has ended may be whole again, with every layer's window and ride-through lines held. -/
def settleLead (s : State) (m : Nat) : State :=
  if !s.fault.leadOpen.getLsbD m then s
  else
    let used := pipes8.any (fun p => !(layersFrom s p m).isEmpty)
    let asked := pipes8.any (fun p => (layersFrom s p m).any (leadAsked s p))
    let whole := !used || (!(s.unit m).recovery && !asked && Config.leadWhole s.free)
    let s := s.freshen
    if whole then s.mapFault (fun x => { x with leadOpen := x.leadOpen &&& ~~~(BitVec.ofNat 4 (2 ^ m)) }) else s

/-- The leads of all ports as they stand (R372). -/
def settleLeads (s : State) : State := s.each [0, 1, 2, 3] settleLead

/-- A class I layer is shed for the rest of its frame, from the next furrow; it is counted and reported (R372). -/
def rideShed (s : State) (p n : Nat) : State :=
  let s := offFrame s p n
  let s := s.setPipe p { s.pipe p with rideOut := (s.pipe p).rideOut ++ [n] }
  raise (s.addFld F.faultShedsCount 1) 32

/-- Class I layers of a pipe on a port in the order of R30: rising priority, the higher slot first. -/
def rideOrder (s : State) (p m : Nat) : List Nat :=
  let l := (layersFrom s p m).filter (fun n => !(planarOf s.scene.planar n).clsS)
  let key := fun n => (planarOf s.scene.planar n).prio * 128 + (127 - hwSlot n)
  l.mergeSort (fun a b => decide (key a ≤ key b))

/-- The bytes of S0 and S1 that a port has still to serve by an instant in ps, but for those of some layers. -/
def bytesDue (s : State) (m : Nat) (t : Int) (out : List Nat) : Nat :=
  let lines := s.fetches.flatMap (fun e => e.2.lines.map (fun l => (e.1, l)))
  let due := lines.filter (fun (k, l) => !out.contains (k / 2) && channelOf l.addr == some m &&
    decide (furrowDue s (fetchPipe s (k / 2)) (k % 2 = 1) l.furrow ≤ t))
  let twins := (twinReqs s).filter (fun r => channelOf r.addr == some m && decide (r.due ≤ t))
  (due.map (fun e => e.2.left)).sum + (twins.map (·.left)).sum

/-- The bales still due for the next furrow of a pipe can be served at the port's P_m before its deadline, with some layers shed. -/
def rideFits (s : State) (p m : Nat) (out : List Nat) : Bool :=
  let t := furrowDue s p false ((s.pipe p).line / 8 + 1)
  decide (((bytesDue s m t out * 1000000000 / payload s : Nat) : Int) ≤ t - s.time.uptime * 1000)

/-- The layers of a pipe that are shed at least: one at a time, until the bales still due can be served. -/
def rideLeast (s : State) (p m : Nat) : Nat :=
  let l := rideOrder s p m
  ((List.range l.length).find? (fun k => rideFits s p m (l.take k))).getD l.length

/-- The fetch units of a port shed class I layers. -/
def ridePort (s : State) (m : Nat) : State :=
  s.each pipes8 (fun s p =>
    (s.each ((rideOrder s p m).take (max (rideLeast s p m) (Config.rideSheds s.free))) (fun s n => rideShed s p n)).freshen)

/-- A recovery of a memory channel begins: with two before it, and the lead of its port still short or the two still in hand or
waiting, layers are shed (R372). -/
def openLead (s : State) (m : Nat) : State :=
  let s := settleLeads s
  let runs := if s.fault.leadOpen = 0 then 0 else s.fault.leadRuns
  let open_ := s.fault.mcQueue.length + s.fault.mcHand.isSome.toNat
  let s := if 2 ≤ runs && (s.fault.leadOpen.getLsbD m || 2 ≤ open_) then ridePort s m else s
  s.mapFault (fun x => { x with leadOpen := x.leadOpen ||| BitVec.ofNat 4 (2 ^ m), leadRuns := runs + 1 })

/-- A read of a pipe's layers may be for the pipe's next frame: its commit deadline has come (R165). -/
def readsAhead (s : State) (p : Nat) : Bool := decide (deadlineLine s.reg p ≤ (s.pipe p).line)

/-- Class S bales that fell inside a recovery of their channel were read from the twin (R167): which they were, and their number, are
free values. -/
def twinReads (s : State) (m : Nat) : State :=
  s.each ((pipes8.flatMap (fun p => layersFrom s p m)).filter (fun n =>
      let l := planarOf s.scene.planar n
      l.clsS && l.twinEn && !onTwin s n && portAllows s (hwSlot n) l.twin))
    (fun s n =>
      let l := planarOf s.scene.planar n
      let b := Config.twinBales s.free
      let s := (countBytes s (hwSlot n) 0 l.twin (64 * b)).addFld F.layerTwinReadsCount b
      let s := if b = 0 then s else noteLead s (hwSlot n) l.twin
      (s.mapScene (fun x => { x with twinRuns := x.twinRuns ++ [(n, s.free, readsAhead s l.pipe)] })).freshen)

/-- A transient failure: the unit enters recovery, with a lane group the other one of its pair (R293), whose link it is. A DMA
channel with nothing in hand has nothing to restart: its recovery ends when its next descriptor completes (log 79). -/
def recoverUnit (s : State) (u cause : Nat) : State :=
  let s := if isMc u then openLead s u else s
  let inRec := s.setUnit u { s.unit u with recovery := true }
  if isMc u then nextRecovery (inRec.mapFault (fun x => { x with mcQueue := x.mcQueue ++ [u] }))
  else if isLg u then
    let inRec := match pairMate s (u - 0x30) with
      | some g => inRec.setUnit (0x30 + g) { s.unit (0x30 + g) with recovery := true }
      | none => inRec
    dropGroup inRec (u - 0x30) (cause - 0x10) false
  else if isDma u then restartDesc inRec (u - 0x40)
  else inRec

/-- A failure of a unit is counted and classified. -/
def unitFails (s : State) (u cause : Nat) : State :=
  let asleep := isLink u && linkAsleep s (unitLink u)
  if (s.unit u).retired || s.fault.retest = some u || asleep then s
  else
    let recent := recentFails s u ++ [s.time.uptime]
    let s := s.setUnit u { s.unit u with fails := recent }
    let s := raise ((s.addFld F.faultFailuresCount 1).mapBarn (fun b => countSummary b 0)) 27
    if 4 ≤ recent.length || (s.unit u).recovery then nextRecovery (retireUnit s u cause recent.length)
    else
      let s := (s.setFld F.faultLastKind 1).setFld F.faultLastFails recent.length
      recoverUnit ((s.setFld F.faultLastCause cause).setFld F.faultLastUnit u) u cause

/-- A link fails (R95): it is counted, and the module leaves it if it sends on it. A link that is asleep has not failed (R344). -/
def linkFailed (s : State) (l : Link) (cause : Nat) : State :=
  if linkAsleep s l then s else
  let was := linkRetired s l
  let s := unitFails s (linkUnit l) cause
  settle (if !was && linkRetired s l then s else if activeLink s = l then failover s else s)

/-- A channel has a write to device memory under way, to a port that is in no recovery (R367). -/
def dmaWrites (s : State) (c : Nat) : Bool :=
  match (s.chan c).inHand with
  | some x => !dmaDstHost x.d.body && (channelOf (dmaDst x.d.body)).any (portServes s)
  | none => false

/-- The causes that UNIT_FAILURE reports of a unit in service (R367): VERIFY in a recovery, WRITE_TIMEOUT of a write. -/
def failureKnown (s : State) (u cause : Nat) : Bool :=
  (isMc u && u < profileChannels s && ([1, 2, 3, 4].contains cause || (cause == 6 && s.fault.mcHand == some u))) ||
  (isLg u && 0x11 ≤ cause && cause ≤ 0x16 && groupEn s (linkHead s (u - 0x30)) && (!isInput s (linkHead s (u - 0x30)) || cause == 0x11 || cause == 0x16)) ||
  (isDma u && (cause == 4 || (cause == 8 && dmaWrites s (u - 0x40)))) || (isLink u && [9, 10].contains cause)

/-- UNIT_FAILURE. A blend lane's failures arrive as LBIST_RESULT. -/
def unitFailure (s : State) (u cause : Nat) : State :=
  if !failureKnown s u cause then s
  else if isLink u then linkFailed s (unitLink u) cause
  else settle (unitFails s u cause)

def execUnitFailure (unit : BitVec 8) (cause : BitVec 8) (s : State) : Answer :=
  whenUp s (fun s => unitFailure s unit.toNat cause.toNat)

/-- MC_RECOVERY_DONE: the recovery in hand ends. -/
def mcRecovered (s : State) : State :=
  match s.fault.mcHand with
  | none => s
  | some m =>
    let s := (twinReads s m).setUnit m { s.unit m with recovery := false }
    settle (nextRecovery (s.mapFault (fun x => { x with mcHand := none })))

def execMcRecoveryDone (s : State) : Answer := whenUp s mcRecovered

/-- LINK_RECOVERY_DONE: the link has stayed up for 100 ms, or carried a verified frame. -/
def linkRecovered (s : State) (l : Link) : State :=
  if (s.unit (linkUnit l)).recovery then s.setUnit (linkUnit l) { s.unit (linkUnit l) with recovery := false } else s

def execLinkRecoveryDone (l : Link) (s : State) : Answer :=
  whenUp s (fun s => if linkIsUp s l then linkRecovered s l else s)

/-- REPROOF_DONE. -/
def execReproofDone (s : State) : Answer := whenUp s (fun s => settle (reproofDone s))

/-! ECC errors (R370). -/

/-- The form of a slot that reads an address: one that is leaving a pipe, or the slot itself. -/
def readerOf (s : State) (n addr : Nat) : Nat :=
  ((pipes8.map (fun p => leaverCode p n)).find? (fun c =>
    let l := planarOf s.scene.planar c
    l.en && l.regions.any (fun r => r.2.1 ≤ addr && addr < r.2.1 + r.2.2))).getD n

/-- The twin of a class S slot is asked for a bale whose primary read failed (R167). -/
def readTwin (s : State) (n addr : Nat) : State :=
  let c := readerOf s n addr
  let l := planarOf s.scene.planar c
  let a := twinPlace l addr
  if l.en && l.clsS && l.twinEn && !onTwin s c && portAllows s n a then
    (noteLead s n a).mapScene (fun x => { x with twinAsks := x.twinAsks ++ [(c, addr / 64, readsAhead s l.pipe)] })
  else s

/-- ECC_UNCORRECTABLE: the bale is re-read once. -/
def eccError (s : State) (addr : Nat) (user : EccUser) : State :=
  match channelOf addr with
  | none => s
  | some m =>
    if !mcInService s m then s
    else
      let s := s.mapFault (fun x => { x with reread := x.reread ++ [(m, user, addr)] })
      match user with
      | .fetch n => servePorts (readTwin s n addr)
      | .dma c => listLost s c addr
      | _ => s

def execEccUncorrectable (addr : Nat) (user : EccUser) (s : State) : Answer := whenUp s (fun s => eccError s addr user)

/-- A loft load whose bale is lost does not finish: the oldest load of the pipe that reads the bale (R192). -/
def loseLoad (s : State) (p addr : Nat) : State :=
  match s.scene.running.find? (fun e => e.1.pipe.val == p && overlaps (e.1.src, e.1.len) (addr / 64 * 64, 64)) with
  | none => s
  | some e => s.mapScene (fun x => { x with running := x.running.map (fun y =>
      if y == e then ({ y.1 with abandoned := true }, y.2) else y) })

/-- A bale of a fetch unit that cannot be read counts as not arrived, unless the twin served it (R167, R172). -/
def loseBale (s : State) (n addr : Nat) : State :=
  let c := readerOf s n addr
  if (s.scene.twinBales ++ s.scene.twinAsks).any (fun e => e.1 == c && e.2.1 == addr / 64) then s
  else s.mapScene (fun x => { x with lostBales := x.lostBales ++ [(c, addr / 64, readsAhead s (planarOf s.scene.planar c).pipe)] })

/-- ECC_REREAD_DONE: a correct re-read makes the error soft, a second error is a failure of the channel. -/
def rereadDone (s : State) (m : Nat) (correct : Bool) : State :=
  match s.fault.reread.find? (fun e => e.1 == m) with
  | none => s
  | some e =>
    let s := s.mapFault (fun x => { x with reread := x.reread.erase e })
    if correct then settle (raise ((s.addFld F.faultMcSoftCount 1).mapBarn (fun b => countSummary b 4)) 34)
    else
      let s := match e.2.1 with | .loft p => loseLoad s p e.2.2 | .fetch n => loseBale s n e.2.2 | _ => s
      settle (unitFails s m 1)

def execEccRereadDone (chan : Fin 4) (correct : Bool) (s : State) : Answer := whenUp s (fun s => rereadDone s chan correct)

/-! Re-admission (R381). -/

/-- A unit returns to service. -/
def readmitUnit (s : State) (u : Nat) : State :=
  let s := s.setUnit u { unitInit with fails := (s.unit u).fails }
  let s := raise (writtenIfOff (pushRecord s u 2 0 0)) 30
  let s := journalMap (flogEntry s 2 u 0 0)
  if isMc u || isLane u then oweReproof s none
  else if isLg u then
    let g := u - 0x30
    let s := setGroupState s g 0
    let s := if isInput s g || !groupEn s g then s
      else s.setPipe (groupTarget s g) { s.pipe (groupTarget s g) with stookChange := true }
    startGroup (s.setGroup g { s.group g with lateIn := 3 }) g
  else if isLink u then
    match unitLink u with
    | .a => s.setFld F.ringLinkStatARetired 0
    | .b => s.setFld F.ringLinkStatBRetired 0
  else s

/-- The lowest-numbered running pipe. -/
def lowestRunning (s : State) : Option Nat := pipes8.find? (generatorRuns s)

/-- A retested DMA channel or link returns, at once while no pipe runs, else at a frame start. -/
def returnTested (s : State) : State :=
  s.each (channels32.map dmaUnit ++ [0x60, 0x61]) (fun s u =>
    if (s.unit u).retired && (s.unit u).ready then settle (readmitUnit s u) else s)

/-- READMIT at a commit deadline (R134): the units of admitted COMMITs that wait for one of these stooks, or for any. None returns
without a passed retest (R381). -/
def runReadmits (s : State) (due : List Nat → Bool) : State :=
  let mine := s.scene.readmit.filter (fun e => due e.1)
  let s := s.mapScene (fun x => { x with readmit := x.readmit.filter (fun e => !due e.1) })
  s.each mine (fun s e =>
    let s := s.each (setBitsBelow 4 e.2.1.toNat) (fun s m => if (s.unit m).retired && (s.unit m).ready then readmitUnit s m else s)
    s.each (setBitsBelow 8 e.2.2.toNat) (fun s g =>
      if (s.unit (0x30 + g)).retired && (s.unit (0x30 + g)).ready then readmitUnit s (0x30 + g) else s))

/-- While no pipe runs there is no deadline: the units of COMMITs that touch no pipe return at once (R134). -/
def readmitIdle (s : State) : State := if (lowestRunning s).isNone then runReadmits s (fun l => l.isEmpty) else s

/-- WINNOW_PROOF_END. -/
def execWinnowProofEnd (s : State) : Answer := whenUp s (fun s => settle (readmitIdle (sceneProved s)))

/-! Retests (R382). -/

/-- A unit that can be retested. -/
def retestable (s : State) (u : Nat) : Bool := (isMc u || isLg u || isDma u || isLink u) && (s.unit u).retired

/-- A write of FAULT.RETEST. -/
def retestWrite (s : State) (w : Word) : State :=
  let s := s.setFld F.faultRetestUnit (F.faultRetestUnit.of w)
  let u := F.faultRetestUnit.of w
  if !w.getLsbD 31 then s
  else if s.fault.retest.isSome then s.setFld F.faultRetestStatResult 4
  else if !retestable s u then (s.setFld F.faultRetestStatResult 4).setFld F.faultRetestStatUnit u
  else
    let s := (s.setFld F.faultRetestStatBusy 1).setFld F.faultRetestStatUnit u
    (s.setUnit u { s.unit u with ready := false }).mapFault (fun x => { x with retest := some u })

def execRetestGo (path : Path) (w : Word) (s : State) : Answer := whenServed s path (fun s => retestWrite s w)

/-- RETEST_DONE. -/
def retestEnds (s : State) (r : Lbist) : State :=
  match s.fault.retest with
  | none => s
  | some u =>
    let s := (s.setFld F.faultRetestStatBusy 0).mapFault (fun x => { x with retest := none })
    match r with
    | .pass =>
      let s := (s.setUnit u { s.unit u with ready := true }).setFld F.faultRetestStatResult 1
      let s := raise s 29
      if (lowestRunning s).isNone then returnTested s else s
    | .fail => raise (s.setFld F.faultRetestStatResult 2) 31
    | .notRun => raise (s.setFld F.faultRetestStatResult 3) 31

def execRetestDone (result : Lbist) (s : State) : Answer := whenUp s (fun s => retestEnds s result)

/-! The lane rotation (R205 to R209). -/

/-- The next lane of the profile in rotation order. -/
def nextLane (s : State) (l : Nat) : Nat := if profileLanes s ≤ l then 0 else l + 1

/-- A slot begins: its lane is isolated and tested. -/
def beginSlot (s : State) (l : Nat) : State :=
  let us := max 500 (min 5000 (s.fld F.blendRotCfgSlotUs))
  s.mapFault (fun x => { x with lane := some l, testing := true, notRun := 0, slotAt := s.time.uptime, slotUs := us })

/-- The retired lanes whose return is due at a swap: they have passed three tests, and a frame start since. -/
def lanesDue (s : State) : List Nat :=
  (List.range 17).filter (fun l =>
    let u := s.unit (0x10 + l)
    u.retired && u.pendingIn && (u.ready || (lowestRunning s).isNone))

/-- A swap (R207): the lane that was tested rejoins, the next one leaves for its test; a retired next lane is only isolated,
and the lane whose slot has ended waits out. -/
def swapLanes (s : State) (l : Nat) : State :=
  let s := s.each (lanesDue s) (fun s k => readmitUnit s (0x10 + k))
  let n := nextLane s l
  let waits := (s.unit (0x10 + n)).retired
  let wait := if waits then (if (s.unit (0x10 + l)).retired then s.fault.waitLane else some l) else none
  let s := (beginSlot s n).mapFault (fun x => { x with waitLane := wait })
  checkLanes (s.addFld F.blendSwapsCount 1)

/-- ROTATION_SWAP: a slot ends. -/
def rotationSwap (s : State) : State :=
  match s.fault.lane with
  | none => s
  | some l =>
    let again := fun (s : State) => s.mapFault (fun x => { x with testing := true, slotAt := s.time.uptime })
    if s.fault.testing then s
    else if s.fault.hold then
      match s.fault.holdDone with
      | none => again s
      | some ok =>
        if s.fault.reproof || !s.fault.holdFrames.isEmpty then s
        else
          let s := s.mapFault (fun x => { x with hold := false, holdFail := false, holdDone := none })
          let s := if ok then
              oweReproof (s.setUnit (0x10 + l) { s.unit (0x10 + l) with recovery := false }) none else s
          swapLanes s l
    else if s.fault.notRun = 1 then again s
    else swapLanes s l

def execRotationSwap (s : State) : Answer := whenUp s (fun s => settle (rotationSwap s))

/-- A lane in service fails its test (R208, R209): the swap is held, until its retest, or for a lane that is retired at once until
every running pipe has passed a frame start after the re-proof. -/
def laneFails (s : State) (l : Nat) : State :=
  let s := unitFails s (0x10 + l) 7
  let gone := (s.unit (0x10 + l)).retired
  let s := s.mapFault (fun x =>
    if gone && x.lane.isNone then x
    else { x with hold := true, holdFail := !gone, holdDone := if gone then some false else none, holdFrames := pipesRunning s, notRun := 0 })
  if gone then s else oweReproof s none

/-- The retest of a held lane has failed for good: the lane is retired. -/
def laneLost (s : State) (l : Nat) : State :=
  let s := unitFails s (0x10 + l) 7
  s.mapFault (fun x => { x with holdDone := if x.hold then some false else none })

/-- A third pass in a row brings a retired lane back (R381). -/
def lanePass (s : State) (l : Nat) : State :=
  let u := s.unit (0x10 + l)
  if u.retired then s.setUnit (0x10 + l) { u with passes := u.passes + 1, pendingIn := u.pendingIn || 3 ≤ u.passes + 1 } else s

/-- LBIST_RESULT of the lane under test. -/
def lbistResult (s : State) (r : Lbist) : State :=
  match s.fault.lane with
  | none => s
  | some l =>
    if !s.fault.testing then s
    else
      let s := s.mapFault (fun x => { x with testing := false, lateFired := x.lateFired.filter (· != l) })
      let retired := (s.unit (0x10 + l)).retired
      match r with
      | .pass =>
        let s := (s.setFld (F.blendLaneStatResult l) 1).addFld (F.blendLaneStatPasses l) 1
        let s := s.mapFault (fun x => { x with notRun := 0 })
        if s.fault.hold then s.mapFault (fun x => { x with holdDone := some true }) else lanePass s l
      | .fail =>
        let s := (s.setFld (F.blendLaneStatResult l) 2).addFld F.blendTestFailsCount 1
        let s := s.mapFault (fun x => { x with notRun := 0 })
        if s.fault.hold then laneLost s l
        else if retired then s.setUnit (0x10 + l) { s.unit (0x10 + l) with passes := 0, pendingIn := false, ready := false }
        else laneFails s l
      | .notRun =>
        let s := (s.setFld (F.blendLaneStatResult l) 3).addFld F.blendTestNotRunCount 1
        let n := s.fault.notRun + 1
        let s := s.mapFault (fun x => { x with notRun := n })
        if s.fault.hold then (if 3 ≤ n then laneLost s l else s)
        else if 2 ≤ n then raise s 3 else s

def execLbistResult (result : Lbist) (s : State) : Answer := whenUp s (fun s => settle (lbistResult s result))

/-- ROTATION_LATE: once for a lane of the profile, until its next result. -/
def rotationLate (s : State) (l : Nat) : State :=
  if profileLanes s < l || s.fault.lane.isNone || s.fault.lateFired.contains l || (s.fault.lane = some l && s.fault.testing) then s
  else raise (s.mapFault (fun x => { x with lateFired := x.lateFired ++ [l] })) 7

def execRotationLate (lane : Fin 17) (s : State) : Answer := whenUp s (fun s => rotationLate s lane)

/-- What the fault manager does at a frame start of a pipe (R209, R381). -/
def faultFrameStart (s : State) (p : Nat) : State :=
  let s := if s.fault.reproof then s else s.mapFault (fun x => { x with holdFrames := x.holdFrames.filter (· != p) })
  if lowestRunning s = some p then
    let s := s.each (List.range 17) (fun s l =>
      let u := s.unit (0x10 + l)
      if u.retired && u.pendingIn then s.setUnit (0x10 + l) { u with ready := true } else s)
    returnTested s
  else s

/-! Panel failures that the lane field detects (R291, R292). -/

/-- HPD_HIGH: an eDP group in bring-up reads its sink; a sink that cannot carry the link fails it. -/
def hpdHigh (s : State) (g : Nat) (sinkOk : Bool) : State :=
  let x := s.group g
  if !x.waitHpd then s
  else
    let s := s.setGroup g { x with waitHpd := false }
    if sinkOk then s else settle (unitFails s (0x30 + g) 0x12)

def execHpdHigh (group : Fin 8) (sinkOk : Bool) (s : State) : Answer := whenUp s (fun s => hpdHigh s group sinkOk)

/-- An eDP link that has seen its HPD: in training, or ready. -/
def edpUp (s : State) (g : Nat) : Bool :=
  groupEn s g && groupIf s g == 1 && 1 ≤ groupState s g && groupState s g ≤ 3 && !(s.group g).waitHpd

def execHpdLowTimeout (group : Fin 8) (s : State) : Answer :=
  whenUp s (fun s => if edpUp s group then settle (unitFails s (0x30 + group.val) 0x13) else s)

def execHpdPulse (group : Fin 8) (lanesLocked : Bool) (s : State) : Answer :=
  whenUp s (fun s => if edpUp s group && !lanesLocked then settle (unitFails s (0x30 + group.val) 0x12) else s)

def execHpdWaitTimeout (group : Fin 8) (s : State) : Answer :=
  whenUp s (fun s => if (s.group group).waitHpd then settle (unitFails s (0x30 + group.val) 0x12) else s)

/-- PKT_DONE; an error report from a DSI panel fails its group with ACK_ERR. -/
def packetEnds (s : State) (g : Fin 8) (ok : Bool) (resp : List Byte) : State :=
  let t := packetDone s g ok resp
  if ackError s g ok resp then settle (unitFails t (0x30 + g.val) 0x15) else t

def execPktDone (group : Fin 8) (ok : Bool) (resp : List Byte) (s : State) : Answer :=
  whenStarted s (fun s => packetEnds s group ok resp)

/-! Status words. -/

/-- The units of a range whose flag is set, as a bit mask. -/
def unitMask (s : State) (base n : Nat) (f : FUnit → Bool) : Nat :=
  (List.range n).foldl (fun m i => if f (s.unit (base + i)) then m + 2 ^ i else m) 0

/-- FAULT.MC as it reads (R383). -/
def faultMcWord (s : State) : Word :=
  let fails := [0, 1, 2, 3].foldl (fun m i => m + min 3 (recentFails s i).length * 4 ^ i) 0
  BitVec.ofNat 32 (unitMask s 0 4 (·.retired) + 2 ^ 4 * unitMask s 0 4 (·.recovery) + 2 ^ 8 * unitMask s 0 4 (·.ready) +
    2 ^ 16 * fails)

/-- The recovery fields of FAULT.STATE. -/
def faultStateWord (s : State) (w : Word) : Word :=
  let w := setBits w 20 17 s.fault.leadOpen.toNat
  let w := setBits (setBits w 6 0 s.fault.mcQueue.length) 16 16 s.fault.mcHand.isSome.toNat
  setBits w 15 8 (s.fault.mcHand.getD 0)

/-- BLEND.LANES and the states of lanes (R228). -/
def lanesWord (s : State) : Word :=
  if !s.pow.started then 0
  else
    let inService := (List.range 17).foldl (fun m l =>
      if l ≤ profileLanes s && !(s.unit (0x10 + l)).retired then m + 2 ^ l else m) 0
    BitVec.ofNat 32 (inService + 2 ^ 24 * lanesLoaded s)

def laneState (s : State) (l : Nat) : Nat :=
  if !s.pow.started then 4
  else if profileLanes s < l then 3
  else if s.fault.lane = some l then 1
  else if (s.unit (0x10 + l)).retired then 2
  else if s.fault.waitLane = some l then 1 else 0

/-- BLEND.ROT_STAT as it reads. -/
def rotStatWord (s : State) : Word :=
  let left := match s.fault.lane with
    | some _ => s.fault.slotUs - (s.time.uptime - s.fault.slotAt) / 1000
    | none => 0
  BitVec.ofNat 32 (left + 2 ^ 16 * (s.fault.lane.getD 0x1F) + 2 ^ 21 * s.fault.hold.toNat)

end Sys2Proof.Machine
end

