-- ==== Sys2Proof/Machine/Perf.lean ====
section
/-! DEFINITION. Performance counters and their windows (spec 17, R406 to R415), and what the module does in a step without a
command. -/

namespace Sys2Proof.Machine

/-- Every counter starts at its neutral value (R406). -/
def clearCounters (s : State) : State := { s with perf := { s.perf with counters := [] } }

/-- WIN_CFG is read: at START and at each window's end (R408). -/
def readWinCfg (s : State) : State := { s with perf := { s.perf with cfg := s.reg A.perfWinCfg } }

/-- A window begins now, under WIN_CFG as it was read. -/
def beginWindow (s : State) : State :=
  { s with perf := { s.perf with startAt := some s.time.uptime, turnAt := s.time.uptime, frames := 0, armed := false } }

/-- The snapshot is taken (R409, R410, R411). -/
def takeSnapshot (s : State) (start : Nat) (part : Bool) : State :=
  let s := { s with perf := { s.perf with snap := s.perf.counters } }
  let s := s.setReg64 A.perfWinNsLo (s.time.uptime - start)
  let s := s.setReg64 A.perfSnapTimeLo s.time.base.toNat
  let s := s.setReg A.perfSnapFrame (s.reg (A.pipeFrame (F.perfWinCfgRefPipe.of s.perf.cfg)))
  let s := s.setFld F.perfSnapStatSeq (s.fld F.perfSnapStatSeq + 1)
  raise ((s.setFld F.perfSnapStatReady 1).setFld F.perfSnapStatPartial part.toNat) 935

/-- The window in hand ends: it is copied and the counters restart; with HOLD at 1 and a snapshot unread it runs on (R411). -/
def endWindow (s : State) (part : Bool) : State :=
  match s.perf.startAt with
  | none => s
  | some t =>
    if F.perfWinCfgHold.of s.perf.cfg ≠ 0 && s.flag F.perfSnapStatReady then
      let s := raise (s.addFld F.perfMergedCount 1) 936
      readWinCfg { s with perf := { s.perf with frames := 0, turnAt := s.time.uptime } }
    else beginWindow (readWinCfg (clearCounters (takeSnapshot s t part)))

/-- Windows are over: RUN reads 0. -/
def haltWindows (s : State) : State :=
  { s with perf := { s.perf with startAt := none, armed := false } }.setFld F.perfCtlRun 0

/-- START (R408): a window begins at once in US mode, at the next frame start of REF_PIPE in FRAMES mode. -/
def startWindows (s : State) : State :=
  if s.flag F.perfCtlRun then s
  else if profilePipes s ≤ s.fld F.perfWinCfgRefPipe then s.setFld F.perfSnapStatErr 1
  else
    let s := readWinCfg (s.setFld F.perfCtlRun 1)
    if s.flag F.perfWinCfgMode then beginWindow (clearCounters s)
    else { s with perf := { s.perf with armed := true } }

/-- STOP (R412). -/
def stopWindows (s : State) : State := if s.flag F.perfCtlRun then haltWindows (endWindow s true) else s

/-- The length of a window of US mode in ns; N below 100 is taken as 100 (R414). -/
def windowNs (s : State) : Nat := 1000 * max 100 (F.perfWinCfgN.of s.perf.cfg)

/-- A window of US mode ends once its N µs have passed (R408); before that the command finds nothing to end (log 82). -/
def windowTimeUp (s : State) : State :=
  if F.perfWinCfgMode.of s.perf.cfg ≠ 0 && s.flag F.perfCtlRun && decide (s.perf.turnAt + windowNs s ≤ s.time.uptime) then
    endWindow s false
  else s

def execPerfStart (path : Path) (s : State) : Answer := whenServed s path startWindows
def execPerfStop (path : Path) (s : State) : Answer := whenServed s path stopWindows
def execPerfWindowEnd (s : State) : Answer := whenUp s windowTimeUp

/-- A frame start of a pipe, for windows of FRAMES mode (R408, R409). -/
def perfFrameStart (s : State) (p : Nat) : State :=
  if F.perfWinCfgMode.of s.perf.cfg ≠ 0 || F.perfWinCfgRefPipe.of s.perf.cfg ≠ p || !s.flag F.perfCtlRun then s
  else if s.perf.armed then beginWindow (clearCounters s)
  else
    let n := max 1 (F.perfWinCfgN.of s.perf.cfg)
    let k := s.perf.frames + 1
    if n ≤ k then endWindow s false else { s with perf := { s.perf with frames := k } }

/-- The entry of the snapshot that a word of SNAP_INDEX names (R413): its two words. -/
def snapEntry (s : State) (k : Nat) : List Word :=
  let used := decide (k < 58) || (64 ≤ k && k < 256) || (256 ≤ k && k < 512)
  let v := if used then smGet (perfNeutral k) s.perf.snap k else 0
  [BitVec.ofNat 32 v, BitVec.ofNat 32 (v / 2 ^ 32)]

/-- What counters gain in one REFCLK period: recovery time of each channel, and lane cycles of CCLK (R407). -/
def countPeriod (s : State) : State :=
  let s := s.each [0, 1, 2, 3] (fun s m => if (s.unit m).recovery then s.perfAdd (24 + m) 40 else s)
  s.perfAdd 57 (40 * lanesLoaded s)

end Sys2Proof.Machine
end

