-- ==== Sys2Proof/Machine/Sampling.lean ====
section
/-! DEFINITION. Source conversion (spec 06, R154 to R160; spec 07, R185, R186, R194 to R196): from the bytes of a planar layer or of
the loft to the pixel that enters the blend array. -/

namespace Sys2Proof.Machine

/-- A pixel with its alpha: 8-bit alpha; colours of 10 bits in class I, of 8 bits in class S. -/
structure Px where
  a : Nat
  r : Nat
  g : Nat
  b : Nat
deriving DecidableEq, Repr

def pxClear : Px := { a := 0, r := 0, g := 0, b := 0 }

/-- The alpha of a format without alpha. -/
def opaqueAlpha : Nat × Nat := (0xFF, 8)

/-- Widening by bit replication (R155): class I colours to 10 bits, class S colours and every alpha to 8. -/
def widePx (clsS : Bool) (a r g b : Nat × Nat) : Px :=
  let c := fun (x : Nat × Nat) => widen x.2 (if clsS then 8 else 10) x.1
  { a := widen a.2 8 a.1, r := c r, g := c g, b := c b }

/-- A field of a raw pixel, shifted down. -/
def rawField' (raw hi lo : Nat) : Nat × Nat := ((raw >>> lo) % 2 ^ (hi - lo + 1), hi - lo + 1)

/-- The RGB formats of R154. -/
def unpackPx (clsS : Bool) (fmt raw : Nat) : Px :=
  let f := rawField' raw
  match fmt with
  | 0 => widePx clsS (f 31 24) (f 23 16) (f 15 8) (f 7 0)
  | 1 => widePx clsS opaqueAlpha (f 23 16) (f 15 8) (f 7 0)
  | 2 => widePx clsS opaqueAlpha (f 15 11) (f 10 5) (f 4 0)
  | 3 => widePx clsS (f 15 15) (f 14 10) (f 9 5) (f 4 0)
  | 4 => widePx clsS (f 15 12) (f 11 8) (f 7 4) (f 3 0)
  | 5 => widePx clsS (f 31 30) (f 29 20) (f 19 10) (f 9 0)
  | _ => pxClear

/-! Planar sources. -/

/-- A bale of a slot's primary is served by the twin in this frame: the read of it failed, or fell into a recovery of its channel
(R167). -/
def servedByTwin (s : State) (n a : Nat) : Bool :=
  s.scene.twinBales.any (fun e => e.1 == n && e.2.1 == a / 64) ||
  s.scene.twinRuns.any (fun e => e.1 == n && Config.fromTwin e.2.1 (a / 64))

/-- A byte of a region of a slot, from its primary or its twin. -/
def regionByte (s : State) (n primary twin off : Nat) : Byte :=
  s.memByte ((if onTwin s n || servedByTwin s n (primary + off) then twin else primary) + off)

/-- A byte of a source line, `off` bytes from the line's first: from the primary, the twin, or the camera slot that the frame
reads the line from (R168, R170). A camera line that was never written is free (log 32). -/
def lineByte (s : State) (n : Nat) (l : Planar) (line off : Nat) : Byte :=
  if l.camEn then
    match smFind s.camLines (65536 * n + line) with
    | some (slot, _, true) => s.memByte (l.buf + (slot * l.camLines + line) * l.stride + off)
    | some (k, _, false) => Config.undefByte k (line * l.stride + off)
    | none => Config.undefByte 0 (line * l.stride + off)
  else regionByte s n l.buf l.twin (line * l.stride + off)

/-- A byte of plane 2 or of the palette. -/
def plane2Byte (s : State) (n : Nat) (l : Planar) (off : Nat) : Byte :=
  regionByte s n l.plane2 l.twin2 off

/-- A little-endian number of `k` bytes of a line. -/
def lineRaw (s : State) (n : Nat) (l : Planar) (line off k : Nat) : Nat :=
  leNat ((List.range k).map (fun i => lineByte s n l line (off + i)))

/-- Chroma along a line (R156): co-sited with even pixels; odd pixels take the mean, the last odd pixel repeats. -/
def upsampleH (c : Nat → Nat) (x last : Nat) : Nat :=
  if x % 2 = 0 || x = last then c (x / 2) else (c (x / 2) + c (x / 2 + 1) + 1) >>> 1

/-- Chroma of format 0x9 between lines (R156), clamped to the chroma lines of the source rectangle. -/
def upsampleV (l : Planar) (c : Nat → Nat) (y : Nat) : Nat :=
  let lo := l.sy / 2
  let hi := (l.sy + l.sh) / 2 - 1
  let j := y / 2
  let k := if y % 2 = 0 then max lo (j - 1) else min hi (j + 1)
  (3 * c j + c k + 2) >>> 2

/-- Luma and chroma of a pixel. -/
def yccAt (s : State) (n : Nat) (l : Planar) (x y : Nat) : Nat × Nat × Nat :=
  let last := l.sx + l.sw - 1
  if l.fmt = 8 then
    let c := fun o k => (lineByte s n l y (4 * k + o)).toNat
    ((lineByte s n l y (2 * x)).toNat, upsampleH (c 1) x last, upsampleH (c 3) x last)
  else
    let c := fun o k => upsampleV l (fun j => (plane2Byte s n l (j * l.stride + 2 * k + o)).toNat) y
    ((lineByte s n l y x).toNat, upsampleH (c 0) x last, upsampleH (c 1) x last)

/-- One row of the colour matrix (R157). -/
def matrixRow (s : State) (n row x0 x1 x2 : Nat) : Nat :=
  let c := fun k => signed 16 (smGet (0 : BitVec 16) s.scene.matrix (n * 12 + 4 * row + k)).toNat
  clampNat 0 1023 ((c 0 * x0 + c 1 * x1 + c 2 * x2 + c 3 * 1024 + 2048) / 4096)

/-- The matrix on three components of 10 bits. -/
def matrixPx (s : State) (n a x0 x1 x2 : Nat) : Px :=
  { a := a, r := matrixRow s n 0 x0 x1 x2, g := matrixRow s n 1 x0 x1 x2, b := matrixRow s n 2 x0 x1 x2 }

/-- A source pixel in its class, unpacked, widened, upsampled and passed through the matrix. -/
def sourcePx (s : State) (n : Nat) (l : Planar) (x y : Nat) : Px :=
  if l.fmt = 8 || l.fmt = 9 then
    let (yy, cb, cr) := yccAt s n l x y
    let w := widen 8 10
    if l.matrix then matrixPx s n 0xFF (w yy) (w cb) (w cr) else { a := 0xFF, r := w yy, g := w cb, b := w cr }
  else
    let bpp := bppOf l.fmt
    let raw := lineRaw s n l y (x * bpp) bpp
    let p := if l.fmt = 6 then
        unpackPx l.clsS 0 (leNat ((List.range 4).map (fun i => plane2Byte s n l (4 * raw + i))))
      else unpackPx l.clsS l.fmt raw
    if l.matrix && !l.clsS then matrixPx s n p.a p.r p.g p.b else p

/-! The scaler (R158 to R160). The polyphase coefficients are computed in fixed point with 45 decimal places. -/

def fixOne : Int := 10 ^ 45
def fixPi : Int := 3141592653589793238462643383279502884197169399

/-- sin x of a fixed-point x from 0 to π/2, by its series. -/
def fixSin (x : Int) : Int :=
  ((List.range 28).foldl (fun (acc : Int × Int) k =>
    let t := acc.2
    (acc.1 + t, -(t * x / fixOne * x / fixOne) / ((2 * k + 2) * (2 * k + 3) : Nat))) (0, x)).1

/-- sin(π a / b) for a natural number a and a positive b. -/
def fixSinPi (a b : Nat) : Int :=
  let r := a % (2 * b)
  let neg := decide (b ≤ r)
  let r := if neg then r - b else r
  let r := if b < 2 * r then b - r else r
  let v := fixSin (fixPi * r / b)
  if neg then -v else v

/-- sinc(a / b), with sinc(0) = 1; it is even. -/
def fixSinc (a : Int) (b : Nat) : Int :=
  if a = 0 then fixOne else fixSinPi a.natAbs b * b * fixOne / (fixPi * a.natAbs)

/-- The weights of the polyphase taps: the first offset is `first`, `h` taps lie on each side. -/
def polyWeights (step phase : Nat) (first : Int) (h : Nat) : List Int :=
  let den := 64 * max 65536 step
  (List.range (2 * h)).map (fun (i : Nat) =>
    let num : Int := (64 * (first + i) - phase) * 65536
    fixSinc num den * fixSinc num (h * den) / fixOne)

/-- The polyphase coefficients: rounded, the residue on the largest (on one of them, where several are largest). -/
def polyCoefs (step phase : Nat) (first : Int) (h : Nat) : List Int :=
  let ws := polyWeights step phase first h
  let sum := ws.sum
  let cs := ws.map (fun w => (2 * 1024 * w + sum) / (2 * sum))
  let top := cs.foldl max (-1024)
  let tops := (List.range cs.length).filter (fun i => nth 0 cs i == top)
  let at_ := nth 0 tops (Config.residueTap step phase % tops.length)
  (indexed cs).map (fun (i, c) => if i = at_ then c + (1024 - cs.sum) else c)

/-- The taps of a position: source offsets from its integer pixel, with their coefficients. A direction in bypass passes its pixel
unfiltered. -/
def tapsAt (filter step init phase : Nat) (first : Int) (h : Nat) : List (Int × Int) :=
  if step = 65536 && init = 0 then [(0, 1024)]
  else match filter with
    | 0 => ((indexed (polyCoefs step phase first h)).map (fun (i, c) => (first + (i : Int), c)))
    | 1 => [(0, 16 * (64 - (phase : Int))), (1, 16 * (phase : Int))]
    | _ => if phase < 32 then [(0, 1024)] else [(1, 1024)]

/-- One pass on one component. -/
def filterSum (most : Nat) (xs : List (Int × Nat)) : Nat :=
  clampNat 0 most ((xs.foldl (fun (n : Int) (e : Int × Nat) => n + e.1 * e.2) 0 + 512) / 1024)

/-- One pass on pixels: alpha is a component of 8 bits, colours of 10. -/
def filterPx (xs : List (Int × Px)) : Px :=
  { a := filterSum 255 (xs.map (fun (c, p) => (c, p.a))), r := filterSum 1023 (xs.map (fun (c, p) => (c, p.r))),
    g := filterSum 1023 (xs.map (fun (c, p) => (c, p.g))), b := filterSum 1023 (xs.map (fun (c, p) => (c, p.b))) }

/-- A tap clamped to the source rectangle. -/
def tapPos (i : Nat) (o : Int) (n : Nat) : Nat := clampNat 0 ((n : Int) - 1) ((i : Int) + o)

/-- A planar layer's pixel at column `kx` and line `ky` of its destination rectangle. -/
def planarPx (s : State) (n : Nat) (l : Planar) (kx ky : Nat) : Px :=
  if l.clsS then sourcePx s n l (l.sx + kx) (l.sy + ky)
  else
    let px := l.hinit + kx * l.hstep
    let py := l.vinit + ky * l.vstep
    let hs := tapsAt l.filter l.hstep l.hinit (px / 1024 % 64) (-3) 4
    let vs := tapsAt l.filter l.vstep l.vinit (py / 1024 % 64) (-1) 2
    let row := fun (y : Nat) =>
      filterPx (hs.map (fun (o, c) => (c, sourcePx s n l (l.sx + tapPos (px / 65536) o l.sw) (l.sy + y))))
    filterPx (vs.map (fun (o, c) => (c, row (tapPos (py / 65536) o l.sh))))

/-! Objects. -/

/-- A texel of the loft (R186): straight art of A8 is marked. A texel outside the cell is transparent. -/
def texel (s : State) (a : Atlas) (clsS : Bool) (i j : Int) : Option (Px × Bool) :=
  if i < 0 || j < 0 || (a.cw : Int) ≤ i || (a.ch : Int) ≤ j then none
  else
    let bpp := atlasBpp a.fmt
    let bit := i.toNat * bpp
    let row := a.base + j.toNat * a.pitch
    let entry := fun k => unpackPx clsS 0 (leNat (memBytes s.loft (a.pal * 1024 + 4 * k) 4))
    if a.fmt = 4 then
      let p := entry 0
      some ({ p with a := (memGet s.loft (row + i.toNat)).toNat }, true)
    else if a.fmt < 4 then
      let v := ((memGet s.loft (row + bit / 8)).toNat >>> (bit % 8)) % 2 ^ bpp
      some (entry v, false)
    else
      let raw := leNat (memBytes s.loft (row + bit / 8) (bpp / 8))
      some (unpackPx clsS (if a.fmt = 5 then 4 else 0) raw, false)

/-- The sampling position of a box pixel (R194); outside the range of s15.16 there is none. -/
def samplePos (c : Ctx) (dx dy : Int) : Option (Int × Int) :=
  let u := c.m02 + c.m00 * dx + c.m01 * dy
  let v := c.m12 + c.m10 * dx + c.m11 * dy
  let ok := fun (x : Int) => decide (-(2 ^ 31 : Int) ≤ x) && decide (x < 2 ^ 31)
  if ok u && ok v then some (u, v) else none

/-- A texel as a class I sample: premultiplied. -/
def premulTexel (s : State) (a : Atlas) (premult : Bool) (i j : Int) : Px :=
  match texel s a false i j with
  | none => pxClear
  | some (p, straight) =>
    if premult && !straight then p
    else
      let m := fun c => (c * p.a + 127) / 255
      { a := p.a, r := m p.r, g := m p.g, b := m p.b }

/-- A class I object's pixel (R195), premultiplied. -/
def objectPxI (s : State) (a : Atlas) (c : Ctx) (premult : Bool) (dx dy : Int) : Px :=
  match samplePos c dx dy with
  | none => pxClear
  | some (u, v) =>
    if a.nearest then premulTexel s a premult (u / 65536) (v / 65536)
    else
      let u' := u - 0x8000
      let v' := v - 0x8000
      let i := u' / 65536
      let j := v' / 65536
      let fu := (u' / 256 % 256).toNat
      let fv := (v' / 256 % 256).toNat
      let t := premulTexel s a premult
      let taps := [((256 - fu) * (256 - fv), t i j), (fu * (256 - fv), t (i + 1) j), ((256 - fu) * fv, t i (j + 1)),
                   (fu * fv, t (i + 1) (j + 1))]
      let sum := fun (g : Px → Nat) => ((taps.map (fun (w, p) => w * g p)).sum + 32768) >>> 16
      { a := sum (·.a), r := sum (·.r), g := sum (·.g), b := sum (·.b) }

/-- A class S object's pixel (R196): its own art, and whether it is straight. -/
def objectPxS (s : State) (a : Atlas) (c : Ctx) (dx dy : Int) : Px × Bool :=
  match samplePos c dx dy with
  | none => (pxClear, true)
  | some (u, v) =>
    match texel s a true (u / 65536) (v / 65536) with
    | none => (pxClear, true)
    | some x => x

end Sys2Proof.Machine
end

