-- ==== Sys2Proof/Machine/Compose.lean ====
section
/-! DEFINITION. The blend array and the colour path (spec 08, R211 to R227): from the layers of a pipe to the pixels of a line; and
the source CRC (spec 06, R169). -/

namespace Sys2Proof.Machine

/-! Arithmetic. -/

/-- The linear value of a 10-bit component without a LUT (R212). -/
def lin10 (c : Nat) : Nat := (c * 32768 + 511) / 1023

/-- A class I blend of one channel (R213). -/
def blendI (d c a8 al : Nat) (premult : Bool) : Nat :=
  let a := ((a8 * 32768 + 127) / 255 * al + 127) / 255
  let cs := if premult then (c * al + 127) / 255 else (c * a + 16384) >>> 15
  min (cs + ((d * (32768 - a) + 16384) >>> 15)) 32768

/-- Zone gain (R216). -/
def applyGain (d g : Nat) : Nat := min ((d * g + 2048) >>> 12) 32768

/-- A regamma entry of a pipe, and its output controls (R218). -/
def regammaEntry (s : State) (p i : Nat) : Word := smGet 0 s.scene.regamma (p * 1024 + i)
def regammaEn (s : State) (p : Nat) : Bool := (regammaEntry s p 0).getLsbD 12
def ditherEn (s : State) (p : Nat) : Bool := (regammaEntry s p 0).getLsbD 13
def ditherTemporal (s : State) (p : Nat) : Bool := (regammaEntry s p 0).getLsbD 14

/-- A knot of the regamma curve; E[1,024] is fixed. -/
def knot (s : State) (p i : Nat) : Nat := if 1024 ≤ i then 4095 else bits (regammaEntry s p i) 11 0

/-- Regamma (R217). -/
def regamma (s : State) (p d : Nat) : Nat :=
  if regammaEn s p then
    if 32768 ≤ d then 4095
    else (knot s p (d / 32) * (32 - d % 32) + knot s p (d / 32 + 1) * (d % 32) + 16) >>> 5
  else (d * 4095 + 16384) >>> 15

/-- The tap of an uncovered pixel and the destination of class S (R220, R222). -/
def tapOf (v : Nat) : Nat := (v * 255 + 2048) >>> 12

/-- A class S blend of one component (R221). -/
def blendS (cd cs ap al : Nat) (premult : Bool) : Nat :=
  let a := div255 (ap * al)
  if premult then min (div255 (cs * al) + div255 ((255 - a) * cd)) 255 else div255 (a * cs + (255 - a) * cd)

/-- The dither matrix (R223). -/
def ditherB (y x : Nat) : Nat := nth 0 [0, 8, 2, 10, 12, 4, 14, 6, 3, 11, 1, 9, 15, 7, 13, 5] (y % 4 * 4 + x % 4)

/-- The output of an uncovered pixel's component at depth `dep` (R223). -/
def outI (v dep : Nat) (dither temporal : Bool) (x y frame : Nat) : Nat :=
  let m := 2 ^ dep - 1
  if !dither then (v * m + 2048) >>> 12
  else
    let ox := if temporal then frame % 4 else 0
    let oy := if temporal then frame / 4 % 4 else 0
    min ((v * m + 256 * ditherB (y + oy) (x + ox) + 128) >>> 12) m

/-- The output of a covered pixel's component (R224). -/
def outS (c dep : Nat) : Nat := if dep = 10 then c <<< 2 ||| c >>> 6 else if dep = 6 then c >>> 2 else c

/-- The depth of a pipe's panel link (R223); 8 for a pipe without one. -/
def depthOf (s : State) (p : Nat) : Nat :=
  match outGroupOf s p with
  | some g => nth 8 [6, 8, 10] (s.fld (F.laneCfgDepth g))
  | none => 8

/-! The layers of a furrow. -/

/-- A layer as a furrow draws it: its stacking position, class, and colour parameters; a planar slot, or the objects that stand in
the bin of the furrow: context, descriptor, span; whether it is FLp. -/
structure Drawn where
  stack   : Nat
  clsS    : Bool
  premult : Bool
  alpha   : Nat
  lut     : Option Nat
  planar  : Option (Nat × Planar)
  objs    : List (Ctx × Atlas × Span)
  fl      : Bool

/-- The key of a bin: of FLp or of the host, of a pipe, drawn or being built, of a furrow (R197, R317). -/
def binKey (fl : Bool) (p : Nat) (built : Bool) (f : Nat) : Nat := ((fl.toNat * 8 + p) * 2 + built.toNat) * 1024 + f
def binOf (s : State) (fl : Bool) (p : Nat) (built : Bool) (f : Nat) : List Span := smGet [] s.bins (binKey fl p built f)

/-- The code under which a context is out for the rest of a frame. -/
def ctxCode (c : Nat) : Nat := 0x1000 + c

/-- The objects of a bin that a test selects, lowest first: the binner enters them from the top (R198). -/
def binObjects (s : State) (p : Nat) (l : List Span) (mine : Ctx → Bool) : List (Ctx × Atlas × Span) :=
  let v := drawView s p
  l.reverse.filterMap (fun sp =>
    let c := ctxOf v.ctx sp.ctx
    let r := s.pipe p
    if c.en && mine c && !r.leftOut.contains sp.ctx && !r.offFrame.contains (ctxCode sp.ctx) then
      some (c, atlasOf s.loft (c.atlas + (if c.isMap then smGet 0 v.glyph sp.ctx else 0)), sp)
    else none)

/-- A layer is out of a furrow: switched off, held off, or shed there (R226). -/
def outOf (s : State) (p f code : Nat) (clsS : Bool) : Bool :=
  (s.pipe p).furrowOut.contains code || (!clsS && (s.pipe p).shedNow.contains (code, f))

/-- A layer put into a list in rising STACK. -/
def stackIn (d : Drawn) : List Drawn → List Drawn
  | [] => [d]
  | x :: r => if d.stack < x.stack then d :: x :: r else x :: stackIn d r

/-- The layers that a furrow draws, bottom to top. FLp stands above all others (log 33). -/
def drawnIn (s : State) (p f : Nat) : List Drawn :=
  let planars := (planarOn s.scene.planar p).filterMap (fun n =>
    let l := planarOf s.scene.planar n
    if outOf s p f n l.clsS then none
    else some { stack := l.stack, clsS := l.clsS, premult := l.premult, alpha := l.alpha,
                lut := if l.degamma then some n else none, planar := some (n, l), objs := [], fl := false })
  let host := binOf s false p false f
  let v := drawView s p
  let objs := (objOn v.obj p).filterMap (fun k =>
    let l := objLayerOf v.obj k
    if outOf s p f (0x80 + k) l.clsS then none
    else some { stack := l.stack, clsS := l.clsS, premult := l.premult, alpha := l.alpha,
                lut := if l.degamma then some l.degammaSlot else none, planar := none,
                objs := binObjects s p host (fun c => c.layer == k), fl := false })
  let fl := if drawsFl s p then
      [{ stack := 64, clsS := true, premult := false, alpha := 0xFF, lut := none, planar := none,
         objs := binObjects (artOf s p) p (binOf s true p false f) (fun c => c.layer == p), fl := true }]
    else []
  (planars ++ objs ++ fl).foldl (fun l d => stackIn d l) []

/-- A span holds a pixel. -/
def Span.has (sp : Span) (x y : Nat) : Bool := sp.x ≤ x && x < sp.x + sp.w && sp.y ≤ y && y < sp.y + sp.h

/-- The samples that a layer gives a pixel, bottom to top: the sample, its layer alpha, and whether it is premultiplied. -/
def samplesAt (s : State) (p : Nat) (d : Drawn) (x y : Nat) : List (Px × Nat × Bool) :=
  match d.planar with
  | some (n, l) =>
    if l.dx ≤ x && x < l.dx + l.dw && l.dy ≤ y && y < l.dy + l.dh then
      [(planarPx s n l (x - l.dx) (y - l.dy), d.alpha, d.premult)]
    else []
  | none =>
    let s := if d.fl then artOf s p else s
    (d.objs.filter (fun e => e.2.2.has x y)).map (fun (c, a, _) =>
      let al := div255 (c.alpha * d.alpha)
      let dx : Int := x - c.x
      let dy : Int := y - c.y
      if d.clsS then
        let (px, straight) := objectPxS s a c dx dy
        (px, al, d.premult && !straight)
      else (objectPxI s a c d.premult dx dy, al, true))

/-- A black pixel. -/
def blackPixel : Composed := { tap := (0, 0, 0), out := (0, 0, 0), covered := false, demand := 0, blends := 0 }

/-- The three components of a map. -/
def map3 (f : Nat → Nat) (x : Nat × Nat × Nat) : Nat × Nat × Nat := (f x.1, f x.2.1, f x.2.2)
def max3 (x : Nat × Nat × Nat) : Nat := max x.1 (max x.2.1 x.2.2)

/-- The class I destination before any blend: black, or the solid background of a boot or fallback scene, taken as an opaque base
(R213, R317; log 33). -/
def baseColour (s : State) (p : Nat) : Nat × Nat × Nat :=
  if showsFallback s p then
    let w := (s.pipe p).bg.toNat
    map3 (fun c => lin10 (widen 8 10 c)) (w / 65536 % 256, w / 256 % 256, w % 256)
  else (0, 0, 0)

/-- One class I sample over a destination. -/
def overI (s : State) (lut : Option Nat) (d : Nat × Nat × Nat) (e : Px × Nat × Bool) : Nat × Nat × Nat :=
  let c := fun v => match lut with
    | some n => (smGet (0 : Word) s.scene.degamma (n * 1024 + v)).toNat % 65536
    | none => lin10 v
  let one := fun d v => blendI d (c v) e.1.a e.2.1 e.2.2
  (one d.1 e.1.r, one d.2.1 e.1.g, one d.2.2 e.1.b)

/-- One class S sample over a destination. -/
def overS (d : Nat × Nat × Nat) (e : Px × Nat × Bool) : Nat × Nat × Nat :=
  let one := fun d v => blendS d v e.1.a e.2.1 e.2.2
  (one d.1 e.1.r, one d.2.1 e.1.g, one d.2.2 e.1.b)

/-- The gain of a pixel (R216). -/
def gainAt (s : State) (p x y : Nat) : Nat := match zoneAt s p x y with | some i => (s.zone i).gain | none => 0x1000

/-- One pixel of a pipe (R211 to R224). -/
def pixelAt (s : State) (p dep : Nat) (layers : List Drawn) (x y : Nat) : Composed :=
  let lower := layers.filter (fun d => !d.clsS)
  let d := lower.foldl (fun c l => (samplesAt s p l x y).foldl (overI s l.lut) c) (baseColour s p)
  let upper := (layers.filter (·.clsS)).flatMap (fun l => samplesAt s p l x y)
  let n := (lower.map (fun l => (samplesAt s p l x y).length)).sum + upper.length
  let cover := upper.filter (fun e => div255 (e.1.a * e.2.1) != 0)
  if !cover.isEmpty then
    let c := cover.foldl overS (map3 (fun v => tapOf (regamma s p v)) d)
    { tap := c, out := map3 (fun v => outS v dep) c, covered := true, demand := max3 c, blends := n }
  else
    let g := gainAt s p x y
    let v := map3 (fun v => regamma s p (applyGain v g)) d
    { tap := map3 tapOf v,
      out := map3 (fun v => outI v dep (ditherEn s p) (ditherTemporal s p) x y (frameOf s p).toNat) v,
      covered := false, demand := max3 (map3 (fun v => tapOf (regamma s p v)) d), blends := n }

/-- A line of a pipe as it is composed. -/
def lineOf (s : State) (p y : Nat) : List Composed :=
  let layers := drawnIn s p (y / 8)
  let dep := depthOf s p
  (List.range (hActive s.reg p)).map (fun x => pixelAt s p dep layers x y)

/-- A line with the pixels that a faulty lane composed wrong, which are sent as composed (R2, R209). -/
def faultyLine (wrong : List LanePixel) (i : Nat) (l : List Composed) : List Composed :=
  (indexed l).map (fun (x, c) =>
    match wrong.find? (fun w => w.line.val == i && w.x == x) with
    | some w => { c with tap := (w.tap.1.toNat, w.tap.2.1.toNat, w.tap.2.2.toNat), out := (w.out.1.toNat, w.out.2.1.toNat, w.out.2.2.toNat) }
    | none => c)

/-- The furrow store holds two furrows of a pipe: furrow `f` takes the place of furrow `f - 2` (R204). -/
def storeFurrow (s : State) (p f : Nat) (wrong : List LanePixel) : State :=
  let lines := (List.range (min 8 (vActive s.reg p - 8 * f))).map (fun i => faultyLine wrong i (lineOf s p (8 * f + i)))
  { s with furrowStore := smSet [] s.furrowStore (2 * p + f % 2) lines }

/-- A line of a pipe from the furrow store. -/
def storedLine (s : State) (p y : Nat) : List Composed := nth [] (smGet [] s.furrowStore (2 * p + y / 8 % 2)) (y % 8)

/-- The pixels of a sheaf: from a column on, 64 at most. -/
def inSheaf (e : Nat × Nat) (x : Nat) : Bool := e.1 ≤ x && x < e.1 + min 64 e.2

/-- The pixels of late sheaves are black (R227). -/
def lateSheaves (late : List (Nat × Nat)) (l : List Composed) : List Composed :=
  (indexed l).map (fun (x, c) => if late.any (fun e => inSheaf e x) then blackPixel else c)

/-- A pixel as it leaves on the link: R, G and B of ten bits each. -/
def pixelCode (c : Composed) : Word := BitVec.ofNat 32 (c.out.1 * 2 ^ 20 + c.out.2.1 * 2 ^ 10 + c.out.2.2)

/-! The source CRC (R169). -/

/-- The bytes that the source CRC of a slot runs over: the palette, then the lines of the source rectangle. -/
def sourceBytes (s : State) (n : Nat) : List Byte :=
  let l := planarOf s.scene.planar n
  let k := bppOf l.fmt
  (if l.fmt = 6 then (List.range 1024).map (plane2Byte s n l) else []) ++
  (List.range l.sh).flatMap (fun j => (List.range (l.sw * k)).map (fun i => lineByte s n l (l.sy + j) (l.sx * k + i)))

/-- The CRC of a slot is stored and compared. -/
def checkSource (s : State) (n : Nat) : State :=
  let l := planarOf s.scene.planar n
  let v := crc32c (sourceBytes s n)
  let s := s.setReg (A.layerSlotCrc (hwSlot n)) (BitVec.ofNat 32 v)
  if !l.crcEn || v = l.srcCrc.toNat then s
  else
    let s := slotFault (s.addFld F.layerCrcFailsCount 1) n 3
    if l.clsS then holdOffPlanar s l.pipe n else s

/-- LAST_BALE_FETCHED: the last bale of a slot's buffer for the frame in hand has been fetched; once in a frame. -/
def lastBale (s : State) (n : Nat) : State :=
  let l := planarOf s.scene.planar n
  let r := s.pipe l.pipe
  if !l.en || !generatorRuns s l.pipe || r.fetched.contains n || r.offFrame.contains n || r.heldOff.contains n then s
  else baleFetched (checkSource s n) n

def execLastBaleFetched (slot : Fin 96) (s : State) : Answer := whenUp s (fun s => settle (lastBale s (fetchCode s slot)))

end Sys2Proof.Machine
end

