-- ==== Sys2Proof/Machine/Windows.lean ====
section
/-! DEFINITION. The output check windows (spec 14, R360 to R363). -/

namespace Sys2Proof.Machine

/-- STATUS of a window: 0 OFF, 1 MATCH, 2 MISMATCH, 3 UNCHECKED, 4 SKIPPED, 5 RANGE. -/
def winStatus (s : State) (w v : Nat) : State := s.setFld (F.chkWinStatStatus w) v

/-- The windows whose configuration is not at its reset value, and those that a frame holds. -/
def knownWindows (s : State) : List Nat :=
  let live := s.regs.live.filterMap (fun (e : Nat × Word) =>
    if A.chkWinCfg 0 ≤ e.1 && e.1 < A.chkWinCfg 256 && e.1 % 32 = 0 then some ((e.1 - A.chkWinCfg 0) / 32) else none)
  (live ++ (s.wins.map (fun (e : Nat × Window) => e.1)).filter (fun w => !live.contains w))

/-- The key of a window in the frame that starts (R362): bits [32:6] of BUF as the window's pipe shows the slot, or ATLAS of the
drawing copy. -/
def windowKey (s : State) (w : Nat) (cfg : Word) : Option (BitVec 27) :=
  let src := s.fld (F.chkWinKeyKeySrc w)
  match (F.chkWinCfgKeyKind 0).of cfg with
  | 2 => if src < 96 then some (BitVec.ofNat 27 ((planarOf s.scene.planar (codeAt s.scene.planar ((F.chkWinCfgPipe 0).of cfg) src)).buf / 64)) else none
  | 3 => some (BitVec.ofNat 27 (ctxOf (drawView s ((F.chkWinCfgPipe 0).of cfg)).ctx src).atlas)
  | _ => none

/-- A window at a frame start of its pipe: configuration and entries are held for the frame (R360, R361). -/
def latchWindow (s : State) (p : Nat) (showing : Bool) (w : Nat) : State :=
  let cfg := s.reg (A.chkWinCfg w)
  let old := s.window w
  if (F.chkWinCfgPipe 0).of cfg ≠ p then
    if (F.chkWinCfgPipe 0).of old.cfg = p then s.setWindow w windowInit else s
  else if (F.chkWinCfgEn 0).of cfg = 0 then winStatus (s.setWindow w windowInit) w 0
  else
    let xs := s.reg (A.chkWinX w)
    let ys := s.reg (A.chkWinY w)
    let x0 := (F.chkWinXXFirst 0).of xs
    let x1 := (F.chkWinXXLast 0).of xs
    let y0 := (F.chkWinYYFirst 0).of ys
    let y1 := (F.chkWinYYLast 0).of ys
    let inside := x0 ≤ x1 && y0 ≤ y1 && x1 < hActive s.reg p && y1 < vActive s.reg p
    let win : Window :=
      { opened := false, crc := 0, cfg := cfg, xs := xs, ys := ys,
        expect := (List.range 4).map (fun i => (s.reg (A.chkExpKey w i), s.reg (A.chkExpVal w i))),
        key := windowKey s w cfg, inRange := showing && inside }
    let was := s.fld (F.chkWinStatStatus w)
    let s := s.setWindow w win
    if !showing then winStatus s w 4
    else if inside then s
    else if was = 5 then s else raise (winStatus s w 5) (768 + w / 4)

def latchWindows (s : State) (p : Nat) (showing : Bool) : State := s.each (knownWindows s) (fun s w => latchWindow s p showing w)

/-- The entry that applies to a window (R362): entry 0 for FIXED; for BUF and ATLAS the first valid one with the key. -/
def entryFor (win : Window) : Option Nat :=
  let kind := (F.chkWinCfgKeyKind 0).of win.cfg
  if kind = 1 then some 0
  else match win.key with
    | none => none
    | some k => (List.range 4).find? (fun i =>
        let e := (nth ((0 : Word), (0 : Word)) win.expect i).1
        let v := bits e 26 0
        e.getLsbD 31 && (if kind = 3 then v % 4096 else v) == k.toNat)

/-- LAYER_OFF (R363): an enabled class S layer of the pipe in the frame is held off; its fault event is raised as R144 says, which
gives no cause for it (log 34). -/
def windowAction (s : State) (p code : Nat) : State :=
  if code < 96 then
    let n := codeAt s.scene.planar p code
    let l := planarOf s.scene.planar n
    if l.en && l.clsS && l.pipe == p then raise (holdOffPlanar s p n) (320 + 2 * code) else s
  else if 0x80 ≤ code && code < 0xA0 then
    let l := objLayerOf (drawView s p).obj (code - 0x80)
    if l.en && l.clsS && l.pipe == p then holdOffObject s p code else s
  else s

/-- A result that matches no entry is counted, flagged and reported (R361, R362). -/
def windowMiss (s : State) (w : Nat) : State :=
  let s := ((winStatus s w 2).setFld (F.chkWinStatMatchIdx w) 7).addFld (F.chkWinStatMisses w) 1
  raise ((s.addFld F.chkMismatchesCount 1).setFbit (F.chkWinMismatchFlag (w / 32)) (w % 32) true) (768 + w / 4)

/-- At MISS_LIMIT misses in a row the count starts again and the action is taken (R363). -/
def windowLimit (s : State) (p w : Nat) (cfg : Word) : State :=
  if max 1 ((F.chkWinCfgMissLimit 0).of cfg) ≤ s.fld (F.chkWinStatMisses w) then
    let s := s.setFld (F.chkWinStatMisses w) 0
    if (F.chkWinCfgAction 0).of cfg = 1 then windowAction s p ((F.chkWinCfgTarget 0).of cfg) else s
  else s

/-- The verdict of a closed window with result `v` (R361 to R363). -/
def windowVerdict (s : State) (p w : Nat) (win : Window) (v : Word) : State :=
  if (F.chkWinCfgKeyKind 0).of win.cfg = 0 then (winStatus s w 3).setFld (F.chkWinStatMatchIdx w) 7
  else match (entryFor win).filter (fun i => (nth ((0 : Word), (0 : Word)) win.expect i).2 == v) with
    | some i => ((winStatus s w 1).setFld (F.chkWinStatMatchIdx w) i).setFld (F.chkWinStatMisses w) 0
    | none => windowLimit (windowMiss s w) p w win.cfg

/-- A window closes (R361 to R363). -/
def closeWindow (s : State) (p w : Nat) : State :=
  let win := s.window w
  let t := s.setWindow w { win with opened := false }
  windowVerdict ((t.setReg (A.chkWinResult w) (~~~win.crc)).setReg (A.chkWinFrame w) (frameOf s p)) p w win (~~~win.crc)

/-- The windows that a frame of a pipe holds. -/
def windowsOf (s : State) (p : Nat) : List Nat :=
  (List.range 256).filter (fun w => (s.window w).inRange && (F.chkWinCfgPipe 0).of (s.window w).cfg == p)

/-- The bus enters unit 0 of a line: windows close, and windows open. -/
def windowsAt (s : State) (p line : Nat) : State :=
  s.each (windowsOf s p) (fun s w =>
    let win := s.window w
    if win.opened && line = (F.chkWinYYLast 0).of win.ys + 1 then closeWindow s p w
    else if line = (F.chkWinYYFirst 0).of win.ys then s.setWindow w { win with opened := true, crc := 0xFFFFFFFF }
    else s)

/-- The tap bytes of a line's columns. -/
def tapBytes (l : List Composed) (x0 x1 : Nat) : List Byte :=
  ((l.drop x0).take (x1 + 1 - x0)).flatMap (fun c =>
    [BitVec.ofNat 8 c.tap.1, BitVec.ofNat 8 c.tap.2.1, BitVec.ofNat 8 c.tap.2.2])

/-- A composed line feeds the open windows of its pipe (R360). -/
def feedWindows (s : State) (p : Nat) (l : List Composed) : State :=
  s.each (windowsOf s p) (fun s w =>
    let win := s.window w
    if win.opened then
      let bs := tapBytes l ((F.chkWinXXFirst 0).of win.xs) ((F.chkWinXXLast 0).of win.xs)
      s.setWindow w { win with crc := BitVec.ofNat 32 (crc32Feed win.crc.toNat bs) }
    else s)

/-- A composed line enters the statistics of its pipe's zones (R300). -/
def feedZones (s : State) (p y : Nat) (l : List Composed) : State :=
  s.each (indexed l) (fun s (x, c) =>
    match zoneAt s p x y with
    | some i => zoneCount s i c.demand c.covered
    | none => s)

end Sys2Proof.Machine
end

