-- ==== Sys2Proof/Machine/Strobe.lean ====
section
/-! DEFINITION. Strobes (spec 03, R67 to R71; spec 10, R258 to R261; spec 11, R279, R295): the shadow state of the named blocks, the
parts that wait for a frame start, and what applying them changes at once. -/

namespace Sys2Proof.Machine

/-! Shadow and active copies (R67). -/

/-- The bits of a register that have a shadow copy. -/
def srwMask (a : Nat) : Word := match findReg a with | some (r, _) => r.srw | none => 0

/-- The live word of a register with its shadowed bits taken from another word. -/
def activeMerge (s : State) (a : Nat) (w : Word) : Word := (s.reg a &&& ~~~srwMask a) ||| (w &&& srwMask a)

/-- Words take force in the active copy. -/
def applyWords (s : State) (ws : SMap Word) : State := s.each ws (fun s (e : Nat × Word) => s.setReg e.1 (activeMerge s e.1 e.2))

/-- The words that a strobe before the winnow carries. -/
def strobeWords : WItem → SMap Word
  | .strobe _ _ words _ => words
  | .scene _ => []

/-- The strobes that wait for their proof or are in it. -/
def waitingStrobes (s : State) : List WItem := (s.scene.inHand.map (·.1)).toList ++ s.scene.queue

/-- The addresses of a block whose shadow copy, active copy or pending set, proved or not, is not at reset. -/
def blockKeys (s : State) (b : Nat) : List Nat :=
  (((s.regs.live ++ s.regs.shadow ++ s.regs.pend.flatMap (·.words) ++ (waitingStrobes s).flatMap strobeWords).map (fun (e : Nat × Word) => e.1)).filter
    (fun a => a / 0x10000 == b && srwMask a != 0)).eraseDups

/-- The whole shadow state of a block (R68). -/
def shadowWords (s : State) (b : Nat) : SMap Word :=
  (blockKeys s b).foldl (fun m a => smPut m a (activeMerge s a (s.shadowReg a))) []

/-- Words differ from what is active. -/
def differs (s : State) (ws : SMap Word) : Bool := ws.any (fun (e : Nat × Word) => activeMerge s e.1 e.2 != s.reg e.1)

/-! The items that wait for a frame start (R68, R69, R279). -/

def pipeAddrs (p : Nat) : List Nat := (List.range 13).map (fun i => A.pipeCtl p + 4 * i)
def pllAddrs (n : Nat) : List Nat := [A.pipePllCtl n, A.pipePllNum n, A.pipePllDen n]
def listAddrs (m : Nat) : List Nat := [A.schedPortCfg m, A.schedBaseFrame m, A.schedBaseLine m]

/-- The addresses of a LANE item: group 0 to 7, or camera port 8 + c. -/
def laneAddrs (i : Nat) : List Nat :=
  if i < 8 then [A.laneCfg i, A.laneRate i]
  else [A.laneCamCfg (i - 8), A.laneCamSize (i - 8), A.laneCamBufLo (i - 8), A.laneCamBufHi (i - 8), A.laneCamStride (i - 8)]
def laneItems : List Nat := List.range 14

/-- A camera that has sent no frame-start packet for 2 of its frames (R279); the frame of one that has sent a single packet is a free
value. -/
def camSilent (s : State) (c : Nat) : Bool :=
  let x := s.cam c
  x.lastStart.any (fun t => decide (t + 2 * x.period.getD (Config.camPeriod c) < s.time.uptime))

/-- A camera port whose part waits for its next frame-start packet. -/
def camWaits (s : State) (c : Nat) : Bool :=
  decide (c < 6) && s.flag (F.laneCamCfgEn c) && (s.cam c).lastStart.isSome && !camSilent s c

/-- The pipe or the camera port that a LANE item waits for under a view, if it waits. -/
def laneHost (s : State) (v : View) (i : Nat) : Option (Option (Fin 8) × Option (Fin 6)) :=
  let cam := fun (c : Nat) => if camWaits s c then some (none, some (Fin.ofNat 6 c)) else none
  if 8 ≤ i then cam (i - 8)
  else
    let b := groupCfg v i
    let c := if b.en then b else groupCfg s.reg i
    if !c.en then none
    else if c.itf = 4 then cam c.target
    else if generatorRuns s c.target then some (some (Fin.ofNat 8 c.target), none)
    else none

/-- A running pipe is fed by a PLL. -/
def pllFeeds (s : State) (n : Nat) : Bool := pipes8.any (fun p => generatorRuns s p && pllOf s.reg p == n)

/-- A word of a strobe applies at once, if it is of no item that waits. -/
def atOnce (s : State) (v : View) (a : Nat) : Bool :=
  match a / 0x10000 with
  | 6 => ports4.all (fun m => !(listAddrs m).contains a)
  | 7 => pipes8.all (fun p => !((pipeAddrs p).contains a && generatorRuns s p)) &&
      ports4.all (fun n => !((pllAddrs n).contains a && pllFeeds s n))
  | 8 => laneItems.all (fun i => !((laneAddrs i).contains a && (laneHost s v i).isSome))
  | _ => true

/-- Words of some addresses. -/
def wordsAt (ws : SMap Word) (l : List Nat) : SMap Word := ws.filter (fun (e : Nat × Word) => l.contains e.1)

/-- An item is pending already. -/
def itemPending (s : State) (b a : Nat) : Bool := s.regs.pend.any (fun x => x.block == b && (smFind x.words a).isSome)

/-- The part of a running pipe: its own registers and the PLLs it is and will be fed by (R260). -/
def pipePart (s : State) (v : View) (ws : SMap Word) (p : Nat) : Option PendPart :=
  let mine := wordsAt ws (pipeAddrs p ++ pllAddrs (pllOf s.reg p) ++ pllAddrs (pllOf v p))
  let waits := s.regs.pend.any (fun x => x.block == 7 && x.pipe == some (Fin.ofNat 8 p))
  if generatorRuns s p && (differs s mine || waits) then
    some { block := 7, pipe := some (Fin.ofNat 8 p), cam := none, words := mine, gcl := [], fixed := false }
  else none

/-- The part of a port's gate list, if the list changes (log 35). -/
def listPart (s : State) (v : View) (gcl : SMap Word) (m : Nat) : Option PendPart :=
  let ws := (listAddrs m).map (fun a => (a, v a))
  let mine := gcl.filter (fun (e : Nat × Word) => e.1 / 128 == m)
  let live := s.gcl.filter (fun (e : Nat × Word) => e.1 / 128 == m)
  if differs s ws || mine != live || itemPending s 6 (A.schedPortCfg m) then
    some { block := 6, pipe := some (Fin.ofNat 8 (vf v (F.schedPortCfgRefPipe m))), cam := none, words := ws, gcl := mine, fixed := false }
  else none

/-- The part of a LANE item that waits. -/
def lanePart (s : State) (v : View) (ws : SMap Word) (i : Nat) : Option PendPart :=
  match laneHost s v i with
  | none => none
  | some (p, c) =>
    let mine := (laneAddrs i).map (fun a => (a, (smFind ws a).getD (s.reg a)))
    if differs s mine || itemPending s 8 (nth 0 (laneAddrs i) 0) then
      some { block := 8, pipe := p, cam := c, words := mine, gcl := [], fixed := false }
    else none

/-! What applying changes. -/

/-- The link of a lane group after its registers changed (R295): a change of depth, map, edge, packing or swap alone is without a
break; any other restarts the link; a group that is disabled is off. Before step 6 none starts (R48, R59). -/
def groupChanged (old s : State) (g : Nat) : State :=
  let a := groupCfg old.reg g
  let b := groupCfg s.reg g
  let seamless : GroupCfg := { a with depth := b.depth, pnswap := b.pnswap, pack18 := b.pack18, mode := if a.itf = 2 || a.itf = 3 then b.mode else a.mode }
  if a = b || (!a.en && !b.en) then s
  else
    let s := if !b.en then
        (if groupState s g = 4 then s else setGroupState (s.setGroup g { s.group g with waitHpd := false, atBoot := false }) g 0)
      else if groupState s g = 3 then
        (let s := bringUp s g 3
         if isInput s g then s else waitLink s b.target)
      else if (a.en && seamless = b) || !s.pow.started then s
      else startGroup s g
    if a.isOut then recheckLink s a.target else s

/-- A camera port after its registers changed: STORE shows the stored format (R287); a port that is disabled closes its frame; lines
of another buffer are no lines of this one. -/
def camChanged (old s : State) (c : Nat) : State :=
  let s := s.setFld (F.laneCamCfgStore c) (camStore (s.fld (F.laneCamCfgDt c)))
  let moved := [A.laneCamBufLo c, A.laneCamBufHi c, A.laneCamStride c, A.laneCamSize c].any (fun a => old.reg a != s.reg a) ||
    old.fld (F.laneCamCfgDt c) != s.fld (F.laneCamCfgDt c)
  let s := if moved then s.setCam c { s.cam c with copies := [] } else s
  if old.flag (F.laneCamCfgEn c) && !s.flag (F.laneCamCfgEn c) then camClose s c else s

/-- LANE items have taken force. -/
def laneChanged (old s : State) (l : List Nat) : State :=
  s.each l (fun s i => if i < 8 then groupChanged old s i else camChanged old s (i - 8))

/-- The LANE items that a set of words names. -/
def itemsOf (ws : SMap Word) : List Nat := laneItems.filter (fun i => (laneAddrs i).any (fun a => (smFind ws a).isSome))

/-- A PLL's settings changed: it is not locked, and every running pipe it feeds relocks at its frame start (R260, R261). -/
def pllsChanged (old s : State) : State :=
  s.each ports4 (fun s n =>
    if pllSettings old.reg n = pllSettings s.reg n then s
    else (s.setFld (F.pipePllStatLocked n) 0).each pipes8 (fun s p =>
      if generatorRuns s p && pllOf s.reg p == n then s.setPipe p { s.pipe p with relockDue := true } else s))

/-- A stopped pipe whose RUN is set starts: its lead-in begins (R259), black while its link is not ready (R291). A boot scene of the
fallback kind is the fallback scene from the first frame start on (R319). One whose lane group was re-admitted while it stood still
resynchronises from that frame start (R134). A hold of the lane rotation waits for its frame start too (R209). -/
def startPipe (s : State) (p : Nat) : State :=
  if generatorRuns s p || !pipeRuns s.reg p then s
  else
    let s := s.setPipe p { s.pipe p with
      gen := .leadIn, black := if linkReady s p then .none else .waitLink, line := deadlineLine s.reg p, unitAt := s.time.uptime, unit := 0,
      relockDue := false, locked := false, lockedByDeadline := false, aligned := true, offFrame := [], rideOut := [], fetched := [],
      camGood := 0, extra := 0, teDue := none, repeats := 0, furrowOut := [], showFirst := true,
      wantFallback := (s.pipe p).wantFallback || ((s.pipe p).boot && s.pow.bootFallback) }
    let s := { s with fault := { s.fault with holdFrames := if s.fault.hold then s.fault.holdFrames ++ [p] else s.fault.holdFrames } }
    blackLine (recheckLink (forceHold s 2 p false) p) (Fin.ofNat 8 p) (deadlineLine s.reg p)

/-- Gate lists take force on their ports, to run from their bases (R245, R246). -/
def listsChanged (s : State) (ms : List Nat) : State := s.each ms (fun s m => armGate s m (listOf s.reg s.gcl m))

/-- A part's words and lists take force. -/
def applyPend (s : State) (x : PendPart) : State :=
  let ms := if x.block = 6 then listsOf x else []
  let t := applyWords { s with gcl := putLists s.gcl x.gcl ms } x.words
  let t := if x.block = 7 then pllsChanged s t else if x.block = 8 then laneChanged s t (itemsOf x.words) else t
  listsChanged t ms

/-- A LANE part that waits for a camera port: at its frame-start packet, or once the camera is silent or off (R279). -/
def applyCamParts (s : State) (c : Nat) : State :=
  let mine := s.regs.pend.filter (fun x => x.cam == some (Fin.ofNat 6 c))
  ({ s with regs := { s.regs with pend := s.regs.pend.filter (fun x => x.cam != some (Fin.ofNat 6 c)) } }).each mine applyPend

def releaseSilentCams (s : State) : State :=
  if s.regs.pend.any (fun x => x.cam.isSome) then
    s.each [0, 1, 2, 3, 4, 5] (fun s c => if camWaits s c then s else applyCamParts s c)
  else s

/-! The fallback proof (R318). -/

/-- The demand of FLp alone on a pipe. -/
def flDemand (s : State) (v : View) (p : Nat) : List Dem :=
  let (ha, va) := areaOf v p
  boxesDemand (fbBoxes s (binView s p).ctx p ha va) (fun _ => false) (furrows v p)

/-- The rows of the pipes that run, with FLp or without it. -/
def flRows (s : State) (v : View) (out : List Nat) : List Row :=
  ((runningPipes v).filter (fun p => timed v p && p < profilePipes s)).map (fun p =>
    rowOf v p (if out.contains p then [] else [flDemand s v p]))

/-- Pipes are taken out until R130 holds with one lane: the largest share first, the lowest number on a tie. -/
def flTake (s : State) (v : View) : Nat → List Nat → List Nat
  | 0, out => out
  | k + 1, out =>
    let rows := flRows s v out
    if (blendFails 1 [rows]).isEmpty then out
    else
      let worst := rows.foldl (fun (b : Option (Nat × Nat)) r =>
        if out.contains r.pipe then b
        else match b with
          | none => some (r.pipe, r.share)
          | some x => if x.2 < r.share then some (r.pipe, r.share) else b) none
      match worst with
      | none => out
      | some (p, _) => flTake s v k (out ++ [p])

/-- The fallback proof: the pipes that fall back to their background alone; FALLBACK_BAD fires once for each. Its figures stand for
FLp in every later proof (R420). -/
def fallbackProof (s : State) : State :=
  let v := s.reg
  let bad := ((flRows s v []).filter (fun r => r.dem.any (fun d => decide (512 < d.spans)))).map (·.pipe)
  let out := flTake s v 8 bad
  let s := s.each pipes8 (fun s p => s.setPipe p { s.pipe p with
    flOut := out.contains p,
    flProved := if pipeRuns v p then some (areaOf v p, (flDemand s v p).map (fun d => (d.spans, d.blends))) else none })
  s.each out (fun s _ => raise s 668)

/-! Distribution (R68 to R71). -/

/-- The gate lists of a strobe that names SCHED. -/
def strobeLists (s : State) (blocks : BitVec 16) (words gcl : SMap Word) : List PendPart :=
  if blocks.getLsbD 6 then ports4.filterMap (listPart s (strobeView s words) gcl) else []

/-- A part is bound to no pipe that runs. -/
def stillPart (s : State) (x : PendPart) : Bool := x.pipe.all (fun p => !generatorRuns s p)

/-- The parts of a strobe that wait for a frame start or a camera port (R69). -/
def waitingParts (s : State) (blocks : BitVec 16) (words gcl : SMap Word) : List PendPart :=
  let v := strobeView s words
  (if blocks.getLsbD 7 then pipes8.filterMap (pipePart s v words) else []) ++
    (strobeLists s blocks words gcl).filter (fun x => !stillPart s x) ++
    (if blocks.getLsbD 8 then laneItems.filterMap (lanePart s v words) else [])

/-- The parts that a strobe before the winnow would leave waiting. -/
def itemParts (s : State) : WItem → List PendPart
  | .strobe _ blocks words gcl => waitingParts s blocks words gcl
  | .scene _ => []

/-- A strobe applies: what is bound to no pipe, and what is bound to a stopped one, at once; the rest waits in parts, which take
the place of parts that have not reached their deadline (R70). -/
def distribute (s : State) (blocks : BitVec 16) (words gcl : SMap Word) : State :=
  let v := strobeView s words
  let on := fun (b : Nat) => blocks.getLsbD b
  let nowLists := (strobeLists s blocks words gcl).filter (stillPart s)
  let parts := waitingParts s blocks words gcl
  let kept := s.regs.pend.filter (fun x => x.fixed || !on x.block)
  let once := words.filter (fun (e : Nat × Word) => on (e.1 / 0x10000) && atOnce s v e.1)
  let t := applyWords { s with regs := { s.regs with pend := kept ++ parts } } once
  let t := if on 6 then (dropCamLines (shaperChange s t)).each nowLists applyPend else t
  let t := if on 8 then laneChanged s t (laneItems.filter (fun i => (laneHost s v i).isNone)) else t
  let t := if on 10 then evtStrobed s t else t
  if on 7 then
    let t := pllsChanged s t
    let t := if t.pow.started then t.each pipes8 startPipe else t
    if parts.any (fun x => x.block == 7) && !(once.any (fun e => e.1 / 0x10000 == 7)) then t else fallbackProof t
  else t

/-- A strobe is refused: REFUSED takes the bit of every block that it names (R71, R81). -/
def refuseStrobe (s : State) (reason mask : Nat) : State :=
  raise ((s.setFld F.sysStrobeStatReason reason).setFld F.sysStrobeStatRefused (s.fld F.sysStrobeStatRefused ||| mask)) 5

/-- A strobe before the winnow whose sets of some blocks a later strobe has replaced (R70). -/
def replaceBlocks (blocks : BitVec 16) : WItem → WItem
  | .strobe named b words gcl => .strobe named (b &&& ~~~blocks) (words.filter (fun (e : Nat × Word) => !blocks.getLsbD (e.1 / 0x10000))) gcl
  | .scene c => .scene c

/-- The sets of some blocks that still wait for a proof are replaced (R70). -/
def replaceWaiting (s : State) (blocks : BitVec 16) : State :=
  s.mapScene (fun x => { x with inHand := x.inHand.map (fun i => (replaceBlocks blocks i.1, i.2)),
                                queue := x.queue.map (replaceBlocks blocks) })

/-- A write of SYS.STROBE. A strobe that needs no proof takes the place of the sets of its blocks that wait for one. -/
def strobe (s : State) (w : Word) : State :=
  let blocks : BitVec 16 := w.setWidth 16
  if blocks = 0 then s
  else
    let words := (setBitsBelow 16 blocks.toNat).flatMap (shadowWords s)
    let gcl := if blocks.getLsbD 6 then s.regs.gclShadow else []
    if blocks.getLsbD 6 || blocks.getLsbD 7 then submit s (.strobe blocks blocks words gcl)
    else match otherOwn s blocks (strobeView s words) with
      | r :: _ => refuseStrobe s r.reason.toNat blocks.toNat
      | [] => settle (distribute (replaceWaiting s blocks) blocks words gcl)

def execStrobe (path : Path) (w : Word) (s : State) : Answer := whenServed s path (fun s => strobe s w)

/-- STROBE_PROOF_DONE: the strobe in proof is refused, or distributed; S4 and S5 holds that its proof lifts end with it (R426). -/
def strobeProved (s : State) : State :=
  match s.scene.inHand with
  | some (.strobe named blocks words gcl, v) =>
    let s := s.mapScene (fun x => { x with inHand := none, proofDep := none })
    let s := if v.reason = 0 then
        (let s := distribute s blocks words gcl
         if blocks.getLsbD 6 then liftHolds s v.lift else s)
      else refuseStrobe s v.reason.toNat named.toNat
    settle (startProof s)
  | _ => s

def execStrobeProofDone (s : State) : Answer := whenUp s strobeProved

end Sys2Proof.Machine
end

