-- ==== Sys2Proof/Machine/Raster.lean ====
section
/-! DEFINITION. The raster of a pipe as commands drive it (spec 05, R135 to R143; spec 06, R170 to R173; spec 07, R181, R183, R192, R197,
R198; spec 10, R253 to R273; spec 12, R299, R319): commit deadlines, frame starts, and the steps of the line-position bus. -/

namespace Sys2Proof.Machine

/-! Object copies and bins. -/

/-- A context belongs to a pipe in a copy. -/
def ctxOfPipe (s : State) (v : ObjView) (p c : Nat) : Bool :=
  let x := ctxOf v.ctx c
  x.en && (if inFbRange s c then x.layer == p else (objLayerOf v.obj x.layer).pipe == p)

/-- A glyph value of a context is a pipe's: the context belongs to it in a copy, or in the art of its boot scene (R199, R419). -/
def glyphOfPipe (s : State) (v : ObjView) (p c : Nat) : Bool := ctxOfPipe s v p c || (artCtxs s p).contains c

/-- The contexts and the object layers of a pipe in either copy. -/
def ctxsOfPipe (s : State) (p : Nat) : List Nat :=
  let b := binView s p
  let d := drawView s p
  ((ctxOn b.ctx).filter (ctxOfPipe s b p) ++ (ctxOn d.ctx).filter (ctxOfPipe s d p)).eraseDups
def layersOfPipe (s : State) (p : Nat) : List Nat :=
  let b := binView s p
  let d := drawView s p
  ((slotsOf b.obj ++ slotsOf d.obj).filter (fun k => (objLayerOf b.obj k).pipe == p || (objLayerOf d.obj k).pipe == p)).eraseDups

/-- What some groups of `n` keys of a table are to hold so that they are as in another. -/
def groupsFrom {α : Type} (d : α) (n : Nat) (ks : List Nat) (src dst : SMap α) : SMap α :=
  let mine := fun (e : Nat × α) => ks.contains (e.1 / n)
  src.filter mine ++ ((dst.filter mine).filter (fun e => (smFind src e.1).isNone)).map (fun e => (e.1, d))

/-- R181, step 1: the drawing copies of a pipe take the binning copies. A pipe that draws such a layer or context itself, or is to,
takes what its own binning copy holds at its own frame start (R136). -/
def moveObjects (s : State) (p : Nat) : State :=
  let cs := ctxsOfPipe s p
  let ks := layersOfPipe s p
  let b := binView s p
  let d := drawView s p
  let running := pipes8.filter (fun q => q != p && generatorRuns s q)
  let rule : CopyRule :=
    { laterObj := fun _ => false, laterCtx := fun _ => false,
      othersObj := fun k => running.filter (fun q =>
        (objLayerOf (drawView s q).obj (k / 32)).pipe == q || (objLayerOf b.obj (k / 32)).pipe == q),
      othersCtx := fun k => running.filter (fun q => glyphOfPipe s (drawView s q) q (k / 8) || ctxOfPipe s b q (k / 8)) }
  setDraw s (writeCopy p rule (drawShared s) s.scene.drawHeld
    { obj := groupsFrom 0 32 ks b.obj d.obj, ctx := groupsFrom 0 8 cs b.ctx d.ctx,
      glyph := groupsFrom 0 1 (cs ++ artCtxs s p) b.glyph d.glyph })

/-- R181, step 3: the glyph values of a pipe's digit objects are latched. -/
def latchGlyphs (s : State) (p : Nat) : State :=
  let v := binView s p
  let cs := (ctxOn v.ctx).filter (fun c => ctxOfPipe s v p c && (ctxOf v.ctx c).isMap) ++
    (artCtxs s p).filter (fun c => (ctxOf s.scene.bootCtx c).isMap)
  let running := pipes8.filter (fun q => q != p && generatorRuns s q)
  let rule : CopyRule :=
    { laterObj := fun _ => false, laterCtx := fun _ => false, othersObj := fun _ => [],
      othersCtx := fun k => running.filter (fun q => glyphOfPipe s (binView s q) q (k / 8)) }
  setBin s (writeCopy p rule (binShared s) s.scene.binHeld { obj := [], ctx := [], glyph := cs.map (fun c => (c, glyphOf s c)) })

/-- The spans of a clipped box in a furrow, left to right (R197). -/
def spansOf (c : Nat) (r : Rect) (f : Nat) : List Span :=
  let y0 := (max r.y0 (8 * f)).toNat
  (List.range (r.spansIn f)).map (fun i =>
    { ctx := c, x := r.x0.toNat + 256 * i, w := min 256 (r.width - 256 * i), y := y0, h := r.linesIn f })

/-- The enabled object layers of a pipe in falling STACK. -/
def fallingLayers (m : SMap Word) (p : Nat) : List Nat :=
  ((List.range 64).reverse).flatMap (fun st => (objOn m p).filter (fun k => (objLayerOf m k).stack == st))

/-- The spans of a furrow of the host's layers, and of FLp, in the order of R198, but for the contexts that cannot be read. -/
def hostSpans (s : State) (p : Nat) (ecc : List Nat) (f : Nat) : List Span :=
  let ha := hActive s.reg p
  let va := vActive s.reg p
  let v := binView s p
  (fallingLayers v.obj p).flatMap (fun k =>
    (((ctxOfLayer s v.ctx k).filter (fun c => !ecc.contains c)).reverse).flatMap (fun c =>
      spansOf c (clippedBox s.loft (ctxOf v.ctx c) (objLayerOf v.obj k).clips ha va) f))
def flSpans (s : State) (p : Nat) (ecc : List Nat) (f : Nat) : List Span :=
  let s := artOf s p
  let m := (binView s p).ctx
  (((fbCtx s m p).filter (fun c => !ecc.contains c)).reverse).flatMap (fun c =>
    spansOf c (clippedBox s.loft (ctxOf m c) [] (hActive s.reg p) (vActive s.reg p)) f)

/-- The bins of a pipe that were built are drawn from now on. -/
def swapBins (s : State) (p : Nat) : State :=
  let mine := fun (e : Nat × List Span) => e.1 / 2048 % 8 == p
  let built := (s.bins.filter (fun e => mine e && e.1 / 1024 % 2 == 1)).map (fun e => (e.1 - 1024, e.2))
  { s with bins := built.foldl (fun m e => smPut m e.1 e.2) (s.bins.filter (fun e => !mine e)) }

/-- PEAK_SPANS and PEAK_FURROW of the frame that ends, of the host's spans and of FLp's (R201). -/
def notePeak (s : State) (p : Nat) : State :=
  let (f, n) := (List.range (furrows s.reg p)).foldl (fun (b : Nat × Nat) f =>
    let k := (binOf s false p false f).length + (if drawsFl s p then (binOf s true p false f).length else 0)
    if b.2 < k then (f, k) else b) (0, 0)
  (s.setFld (F.objPipeStatPeakFurrow p) f).setFld (F.objPipeStatPeakSpans p) (min n 1023)

/-- One bin is built; a bin holds 512 spans (R198). -/
def putBin (s : State) (p : Nat) (fl : Bool) (f : Nat) (l : List Span) : State :=
  let kept := l.take 512
  let s := { s with bins := smSet [] s.bins (binKey fl p true f) kept }
  let s := (s.perfAdd (67 + 8 * p) kept.length).perfMax (69 + 8 * p) kept.length
  if 512 < l.length then objectFault s p 5 else s

/-- The binner builds the bins for the next frame (R197). -/
def buildBins (s : State) (p : Nat) (ecc : List Nat) : State :=
  s.each (List.range (furrows s.reg p)) (fun s f => putBin (putBin s p false f (hostSpans s p ecc f)) p true f (flSpans s p ecc f))

/-- A context of a pipe whose words cannot be read is left out of the bins (R183). -/
def granFault (s : State) (p c : Nat) : State :=
  let a := artFor s p c
  if ctxOfPipe a (binView a p) p c then
    let s := objectFault s p 1
    if (ctxOf (binView a p).ctx c).clsS then forceFrame s 0 p else s
  else s

/-! Loft loads that are late (R192). -/

/-- The objects that unfinished bytes of any load leave out of the frame that starts (R192). -/
def loftCheck (s : State) (p : Nat) : State :=
  let open_ := (s.scene.running.filter (·.1.late)).map (·.1) ++ s.scene.unfinished
  let out := (open_.flatMap (fun l => l.bytes.flatMap (ctxUsing s p))).eraseDups
  let s := s.setPipe p { s.pipe p with leftOut := out }
  if classSHeld s p then forceHold s 0 p true else forceHold s 0 p false

/-! Stopping (R259, R261). -/

/-- What a pipe has fetched and composed is gone: bins, furrow store, camera lines, slots that were leaving it, bales from twins. -/
def dropFetched (s : State) (p : Nat) : State :=
  let ours := ownCode s p
  let s := s.each ((slotsOf s.scene.planar).filter (fun c => isLeaver c && c / 0x100 - 1 == p)) dropLeaver
  let s := s.mapScene (onBales (fun l => l.filter (fun e => !ours e.1)))
  { s with bins := s.bins.filter (fun (e : Nat × List Span) => e.1 / 2048 % 8 != p),
           furrowStore := s.furrowStore.filter (fun e => e.1 / 2 != p),
           fetches := s.fetches.filter (fun e => !ours (e.1 / 2)),
           camLines := s.camLines.filter (fun (e : Nat × (Nat × Nat × Bool)) => !ours (e.1 / 65536)),
           camEarly := s.camEarly.filter (fun (e : Nat × (Nat × Nat × Nat)) => !ours (e.1 / 131072)) }

/-- A pipe's generator stops: its camera lock ends (DEDUCED, log 68), what waits for its frame start applies now, releases fall due,
committed parts apply. -/
def haltPipe (s : State) (p : Nat) : State :=
  let mine := s.regs.pend.filter (fun x => x.pipe == some (Fin.ofNat 8 p))
  let s := { s with regs := { s.regs with pend := s.regs.pend.filter (fun x => x.pipe != some (Fin.ofNat 8 p)) } }
  let s := s.setPipe p { s.pipe p with gen := .stopped, black := .none, relockDue := false, fresh := false, again := false,
                                       shedNow := [], offFrame := [], rideOut := [], furrowOut := [] }
  let s := (dropFetched ((endLock s p).setFld (F.pipeCtlRun p) 0) p).each mine applyPend
  let s := s.mapFault (fun x => { x with holdFrames := x.holdFrames.filter (· != p) })
  let s := { s with wins := s.wins.map (fun (e : Nat × Window) =>
                      if (F.chkWinCfgPipe 0).of e.2.cfg = p then (e.1, { e.2 with opened := false, inRange := false }) else e) }
  let s := forceFrameEnd (drainReleases s) p
  let parts := (s.scene.armed.filter (fun a => a.pipes.any (fun q => q.val == p))).map (·.serial)
  let s := (servePorts (s.each parts askStopped)).each parts (fun s k => applyToStopped (applyStopped s k) k)
  let s := startPipe (zonesStart (recheckLink (gateRecheck s p) p) p false false []) p
  let s := if mine.any (fun x => x.block == 7) then fallbackProof s else s
  readmitIdle (refreshState s)

/-- Pipes have stopped: with none that runs, units that wait for a frame start return, and what waited goes on. -/
def afterHalt (s : State) : State := settle (if (lowestRunning s).isNone then returnTested s else s)

/-- A pipe stops. -/
def stopPipe (s : State) (p : Nat) : State := afterHalt (haltPipe s p)

/-! Frame starts. -/

/-- The class S rectangles of the state that a pipe draws (R303). -/
def classSRects (s : State) (p : Nat) : List Rect :=
  let ha := hActive s.reg p
  let va := vActive s.reg p
  let c : Comp := { planar := s.scene.planar, obj := (drawView s p).obj, ctx := (drawView s p).ctx }
  (((planarOn c.planar p).map (planarOf c.planar)).filter (·.clsS)).map (fun l =>
    ({ x0 := l.dx, y0 := l.dy, x1 := l.dx + l.dw, y1 := l.dy + l.dh } : Rect)) ++
  ((objOn c.obj p).filter (fun k => (objLayerOf c.obj k).clsS)).flatMap (fun k => layerBoxes s c k ha va) ++
  (if drawsFl s p then fbBoxes (artOf s p) (drawView (artOf s p) p).ctx p ha va else [])

/-- The pending parts of a pipe that have reached their deadline. -/
def dueParts (s : State) (p : Nat) : List PendPart :=
  s.regs.pend.filter (fun x => x.fixed && x.pipe == some (Fin.ofNat 8 p))

/-- The registers of a pipe as its due parts will leave them. -/
def dueView (s : State) (p : Nat) : View := layView s.reg ((dueParts s p).flatMap (·.words))

/-- The other running pipes of a pipe's stook stand at a frame start: they have just begun line 0 or are about to (R258). -/
def stookStarts (s : State) (p : Nat) : Bool :=
  pipes8.all (fun q =>
    let r := s.pipe q
    q == p || r.gen != .running || stookOf s.reg q != stookOf s.reg p ||
    r.fresh || (r.line == 0 && r.unit == 0) || (r.unit == 63 && decide (vTotal s.reg q + r.extra ≤ r.line + 1)))

/-- What a frame shows after the due parts of its pipe applied: black for a relock or a resynchronisation until a deadline has
passed after lock, for want of lanes, or while the link is not ready (R258, R261, R291). A pipe that changes its stook while it
relocks goes on relocking, and aligns as well. `old` is the state before the parts. -/
def nextBlack (old s : State) (p : Nat) : Black :=
  let r := s.pipe p
  if relocking old.reg s.reg p || r.relockDue then .relock
  else if stookOf old.reg p != stookOf s.reg p || r.stookChange then (if r.black == .relock then .relock else .resync)
  else if (r.black == .relock || r.black == .resync) && !r.lockedByDeadline then r.black
  else if lanesIn s = 0 then .noLanes
  else if linkReady s p then .none
  else .waitLink

/-- The due parts apply and the pipe's frame gets its kind. -/
def applyDue (s : State) (p : Nat) : State :=
  let due := dueParts s p
  let was := s.pipe p
  let t := { s with regs := { s.regs with pend := s.regs.pend.filter (fun x => !(x.fixed && x.pipe == some (Fin.ofNat 8 p))) } }
  let t := t.each due applyPend
  let b := nextBlack s t p
  let fresh := relocking s.reg t.reg p || (t.pipe p).relockDue || stookOf s.reg p != stookOf t.reg p || was.stookChange
  let t := t.setPipe p { t.pipe p with
    black := b, relockDue := false, stookChange := false,
    aligned := if stookOf s.reg p != stookOf t.reg p || was.stookChange then false else was.aligned || stookStarts s p,
    locked := if fresh then t.flag (F.pipePllStatLocked (pllOf t.reg p)) else (t.pipe p).locked,
    lockedByDeadline := if fresh then false else (t.pipe p).lockedByDeadline && (b == .relock || b == .resync) }
  let t := if was.black == .relock && b != .relock && b != .resync then raise t (64 + 16 * p + 8) else t
  if due.any (fun x => x.block == 7) then fallbackProof t else t

/-- Scene parts that are committed apply at a frame that is no black frame of a relock or resynchronisation (R137). -/
def applyScenes (s : State) (p : Nat) : State :=
  let b := (s.pipe p).black
  if b == .relock || b == .resync then s
  else
    let mine := s.scene.armed.filter (fun a => a.committed && a.pipes.any (fun q => q.val == p))
    s.each (mine.map (·.serial)) (fun s k => applyPart s k p (frameOf s p) true)

/-- A degraded form that waits comes into force (R29, step 7). -/
def shedStart (s : State) (p : Nat) : State :=
  let r := s.pipe p
  let s := s.setPipe p { r with shedNow := r.shedNext }
  if r.shedNext != r.shedNow && !r.shedNext.isEmpty then pipeEvent s p 3 else s

/-- Frames left before a re-admitted link is late (R294). -/
def lateLink (s : State) (p : Nat) : State :=
  match outGroupOf s p with
  | none => s
  | some g =>
    let x := s.group g
    if x.lateIn = 0 then s
    else if linkReady s p then s.setGroup g { x with lateIn := 0 }
    else
      let s := s.setGroup g { x with lateIn := x.lateIn - 1 }
      if x.lateIn = 1 then raise s (64 + 16 * p + 9) else s

/-- Frames as the performance counters see them. -/
def countFrame (s : State) (p : Nat) : State :=
  if shows s p then
    let s := s.perfAdd (64 + 8 * p) 1
    match outGroupOf s p with
    | some g => if isPair s g then (s.perfAdd (41 + 2 * g) 1).perfAdd (43 + 2 * g) 1 else s.perfAdd (41 + 2 * g) 1
    | none => s
  else s.perfAdd (65 + 8 * p) 1

/-- A table by 2 × something, plus 1 for the next frame, as that frame begins: of the keys that a test names. -/
def nextToNow {α : Type} (mine : Nat → Bool) (m : SMap α) : SMap α :=
  (m.filter (fun e => !mine e.1 || e.1 % 2 == 1)).map (fun e => if mine e.1 then (e.1 - 1, e.2) else e)

/-- Bales of the frame that ends are forgotten, and those of the next one are its own, of the slot codes that a test names. -/
def turnBales (ours : Nat → Bool) (l : List (Nat × Nat × Bool)) : List (Nat × Nat × Bool) :=
  (l.filter (fun e => !ours e.1 || e.2.2)).map (fun e => if ours e.1 then (e.1, e.2.1, false) else e)

/-- What belongs to the frame that ends, and what was fetched for the next one becomes the frame's: releases that waited for it,
bales that a twin served, the lines of its fetch units (R143, R165, R167, R170). -/
def turnFrame (s : State) (p : Nat) : State :=
  let ours := fun (c : Nat) => (planarOf s.scene.planar c).pipe == p
  let s := s.mapScene (fun x =>
    { onBales (turnBales ours) x with
        releases := x.releases.map (fun r => if r.pipe.val = p && r.slot != 0xFF then { r with past := true } else r) })
  { s with fetches := nextToNow (fun k => ownCode s p (k / 2)) s.fetches, camEarly := nextToNow (fun k => ownCode s p (k / 131072)) s.camEarly }

/-- FRAME_START: the frame begins. `ecc` lists the contexts that the binner cannot read. -/
def beginFrame (s : State) (p : Nat) (ecc : List Nat) : State :=
  let frame := nextFrame s p
  let s := (if (s.pipe p).gen == .running then notePeak s p else s).setReg (A.pipeFrame p) frame
  let r := noteFrame (s.pipe p) frame.toNat
  let s := s.setPipe p { r with flGone := if r.gen == .leadIn && r.boot then r.flOut else r.flGone,
                                gen := .running, line := 0, unitAt := s.time.uptime, unit := 0, fresh := true, again := false, teDue := none, repeats := 0, extra := longerBy s p,
                                offFrame := [], rideOut := [], fetched := [], furrowOut := [], flUntilNext := false }
  let s := perfFrameStart s p
  let late := s.scene.armed.filter (fun a => a.due && a.pipes.any (fun q => q.val == p))
  let s := s.each late endWait
  let s := forceFrameEnd (drainReleases (turnFrame s p)) p
  let s := applyDue (moveObjects (lateLoads s p) p) p
  let s := dropStrays (applyScenes (shedStart s p) p) p
  let s := s.setPipe p { s.pipe p with hostShown := (s.pipe p).hostShown || !showsFallback s p }
  let s := if (s.pipe p).wantFallback then enterFallback s p (frame - 1) else s
  let s := latchGlyphs s p
  let s := loftCheck (refreshState s) p
  let s := s.each ecc (fun s c => granFault s p c)
  let s := buildBins (swapBins s p) p ecc
  let stamp := s.time.base.setWidth 48
  let s := s.mapScene (fun x => { x with flips := x.flips.map (fun f =>
    if f.pipe.val = p && f.frame = frame then { f with stamp := stamp } else f) })
  let showing := shows s p
  let s := latchWindows s p (checks s p)
  let s := zonesStart s p showing (s.pipe p).showFirst (classSRects s p)
  let s := s.setPipe p { s.pipe p with showFirst := !showing }
  let s := lockStep (faultFrameStart (countFrame s p) p) p
  let s := gateRecheck (recheckLink (lateLink s p) p) p
  settle s

/-- A frame start comes: with RUN cleared by a part that is due the pipe stops (R259). -/
def frameBegins (s : State) (p : Nat) (ecc : List Nat) : State :=
  let s := releaseSilentCams s
  if pipeRuns (dueView s p) p then beginFrame s p ecc
  else stopPipe (if (s.pipe p).gen == .running then notePeak s p else s) p

/-- A pipe reaches its frame start, which a command-mode panel may still hold back (R272). -/
def frameStart (s : State) (p : Nat) (ecc : List Nat) : State :=
  if !generatorRuns s p || !startDue s p then s
  else frameBegins s p ecc

def execFrameStart (pipe : Fin 8) (granEcc : List Nat) (s : State) : Answer := whenUp s (fun s => frameStart s pipe granEcc)

/-- TE_MISSING: no edge came in time, and the pipe starts the frame on its own (R273). -/
def teMissing (s : State) (p : Nat) : State :=
  if teTimedOut s p then frameBegins (raise s (64 + 16 * p + 12)) p [] else s

def execTeMissing (pipe : Fin 8) (s : State) : Answer := whenUp s (fun s => teMissing s pipe)

/-- PLL_LOCK_TIMEOUT: the pipes that a PLL without lock feeds stop, all of them (R261, step 3). -/
def pllLockTimeout (s : State) (n : Nat) : State :=
  let hit := if s.flag (F.pipePllStatLocked n) then [] else pipes8.filter (fun p => generatorRuns s p && pllOf s.reg p == n)
  if hit.isEmpty then s
  else
    afterHalt ((s.setFld (F.pipePllStatLockFail n) 1).each hit (fun s p =>
      let s := if hasClassS s p then forceHold s 2 p true else s
      haltPipe (pipeFault s p 1) p))

def execPllLockTimeout (pll : Fin 4) (s : State) : Answer := whenUp s (fun s => pllLockTimeout s pll)

/-! Camera lines (R170, R171). -/

/-- The source lines, counted in the source rectangle, that a furrow of a layer needs first. -/
def newLines (l : Planar) (f : Nat) : List Nat :=
  let (k, n) := l.destLines f
  if n = 0 then []
  else
    let lo := if k = 0 then l.firstTap 0 else max (l.firstTap k) (l.lastTap (k - 1) + 1)
    (List.range (l.lastTap (k + n - 1) + 1 - lo)).map (· + lo)

/-- The output lines from the start of a furrow to the first that shows a source line. -/
def showOffset (l : Planar) (f t : Nat) : Nat :=
  let (k, n) := l.destLines f
  match (List.range n).find? (fun i => t ≤ l.lastTap (k + i)) with
  | some i => l.dy + k + i - 8 * f
  | none => 0

/-- A camera line is read at its deadline: whether the copy is of an older camera frame or of none, and its lag in lines. The slot's
CAM_LAG fires once in a frame (R170, R171). -/
def noteLag (s : State) (n : Nat) (stale : Bool) (lag : Nat) : State :=
  let (st, mx, fired) := smGet (0, 0, false) s.camLags n
  let late := stale || 46 < lag
  let s := { s with camLags := smSet (0, 0, false) s.camLags n (if stale then st + 1 else st, max mx lag, fired || late) }
  if late && !fired then raise s (321 + 2 * hwSlot n) else s

/-- The newest complete copy of a line of a camera's buffer: slot, camera frame, time. A copy that the receiver writes anew is none
(R170). -/
def newestCopy (x : Cam) (line : Nat) : Option (Nat × Nat × Nat) :=
  match smFind x.copies (2 * line), smFind x.copies (2 * line + 1) with
  | some a, some b => if a.1 < b.1 then some (1, b) else some (0, a)
  | some a, none => some (0, a)
  | none, some b => some (1, b)
  | none, none => none

/-- A fetch unit reads a line of a camera slot: it asks its port for the line's bales. A copy of the line that it has not got yet it
does not need any more. -/
def readCamLine (s : State) (key : Nat) (l : Planar) (slot t f : Nat) : State :=
  let cls := if l.clsS then 0 else 1
  let x := smGet (fetchInit cls) s.fetches key
  let addr := (l.buf + (slot * l.camLines + l.sy + t) * l.stride + l.sx * bppOf l.fmt) / 64 * 64
  let line : FetchLine := { row := t, furrow := f, addr := addr, left := 64 * l.lineBales }
  { s with fetches := smPut s.fetches key { x with cls := cls, lines := x.lines.filter (fun y => y.row != t) ++ [line] } }

/-- The read deadline of one source line of a camera layer, kept under code `n`: the copy that has been fetched early, or a newer
one that is complete by now (log 77); a line that was never written is free (R36, R170). A copy of an older camera frame than the
one in hand is stale (R171). -/
def latchLine (s : State) (p n : Nat) (l : Planar) (next : Bool) (f t : Nat) : State :=
  let line := l.sy + t
  let key := 65536 * n + line
  let x := s.cam l.cam
  let lag := fun (at_ : Nat) => (s.time.uptime - at_) * 1000 / max 1 (linePs s p) + 2 + showOffset l f t
  let take := fun (s : State) (c : Nat × Nat × Nat) =>
    noteLag { s with camLines := smPut s.camLines key (c.1, c.2.2, true) } n (c.2.1 != x.frame) (lag c.2.2)
  let read := fun (c : Nat × Nat × Nat) =>
    take (readCamLine s (2 * n + next.toNat) l c.1 t f) c
  match smFind s.camEarly (2 * key + next.toNat), newestCopy x line with
  | some c, some d => if c.2.1 < d.2.1 then read d else take s c
  | some c, none => take s c
  | none, some d => read d
  | none, none => noteLag ({ s with camLines := smPut s.camLines key (s.free, 0, false) }.freshen) n true 0

/-- The code under which a pipe keeps the camera lines of a slot that it shows in a planar state of its own. -/
def keepCode (s : State) (p n : Nat) : Nat :=
  if isLeaver n || (planarOf s.scene.planar n).pipe == p then n else arriverCode p n

/-- The camera layers of a pipe in a planar state. -/
def camLayers (m : SMap Word) (p : Nat) : List Nat := (planarOn m p).filter (fun n => (planarOf m n).camEn)

/-- The camera layers that the frame in hand of a pipe fetches: a layer that is out of it reads no further (R173). -/
def camFetched (s : State) (p : Nat) : List Nat :=
  (camLayers s.scene.planar p).filter (fun n => !(s.pipe p).offFrame.contains n && !(s.pipe p).heldOff.contains n)

/-- The read deadline of a furrow of some layers of a pipe, in a planar state: of the frame in hand or of the next. -/
def latchFurrow (s : State) (m : SMap Word) (ns : List Nat) (p : Nat) (next : Bool) (f : Nat) : State :=
  s.each ns (fun s n =>
    let l := planarOf m n
    s.each (newLines l f) (fun s t => latchLine s p (keepCode s p n) l next f t))

/-- CAM_STAT of a slot reports the frame that ends, and the next one starts afresh. -/
def reportLag (s : State) (n : Nat) : State :=
  let (st, mx, _) := smGet (0, 0, false) s.camLags n
  let s := (s.setFld (F.layerCamStatStaleLines (hwSlot n)) (min st 65535)).setFld (F.layerCamStatLagMax (hwSlot n)) (min mx 255)
  { s with camLags := smDel s.camLags n, camLines := dropGroupOf s.camLines 65536 n,
           camEarly := s.camEarly.filter (fun (e : Nat × (Nat × Nat × Nat)) => e.1 / 131072 != n || e.1 % 2 == 1) }

/-- The frame composes: it is black for no relock or resynchronisation (R261, R291). -/
def composes (s : State) (p : Nat) : Bool :=
  let b := (s.pipe p).black
  b != .relock && b != .resync

/-- The next frame of a pipe is fetched: it will be black for no relock or resynchronisation (R261). -/
def nextFetched (s : State) (p : Nat) : Bool :=
  let r := s.pipe p
  let v := dueView s p
  (composes s p || r.lockedByDeadline) && !relocking s.reg v p && !r.relockDue && stookOf s.reg p == stookOf v p && !r.stookChange

/-- The camera deadlines that fall on a line (R170): of furrow f at line 8f − 2, of furrow 0 two lines before the frame. -/
def camDeadline (s : State) (p y : Nat) : State :=
  let vt := vTotal s.reg p + (s.pipe p).extra
  if y + 2 = vt then
    let s := s.each ((slotsOf s.scene.planar).filter (fun n => (planarOf s.scene.planar n).pipe == p)) reportLag
    if nextFetched s p then latchFurrow s (nextPlanar s p) (camLayers (nextPlanar s p) p) p true 0 else s
  else if (y + 2) % 8 = 0 && y + 2 < vActive s.reg p && (s.pipe p).gen == .running && composes s p then
    latchFurrow s s.scene.planar (camFetched s p) p false ((y + 2) / 8)
  else s

/-- The source lines from the first that furrow `f` or a later one taps to the layer's last, counted in the source rectangle. -/
def linesLeft (l : Planar) (f : Nat) : List Nat :=
  let k := max l.dy (8 * f) - l.dy
  if l.dh ≤ k then [] else (List.range (l.lastTap (l.dh - 1) + 1 - l.firstTap k)).map (· + l.firstTap k)

/-- The furrow that needs a source line first. -/
def furrowOf (l : Planar) (nf t : Nat) : Nat :=
  ((List.range nf).find? (fun f => let (k, n) := l.destLines f; 0 < n && t ≤ l.lastTap (k + n - 1))).getD 0

/-- What a pipe's fetch units go by, in the frame in hand or the next. -/
def unitPlan (s : State) (p n : Nat) (l : Planar) (twin next : Bool) : Plan1 :=
  let r := s.pipe p
  { l := l, a := if twin then l.twin else l.buf, a2 := if twin then l.twin2 else l.plane2, nf := furrows s.reg p,
    shed := fun f => !l.clsS && (if next then r.shedNext else r.shedNow).contains (n, f) }

/-- A layer fetches camera lines in their order, each as soon as the copy of the current camera frame is complete (R165, R170); one
that it fetched from an older camera frame it fetches again (log 77). `read` says that lines of the frame in question may have
passed their deadlines. -/
def fetchLines (s : State) (p n : Nat) (l : Planar) (next read : Bool) : List Nat → State
  | [] => s
  | t :: r =>
    let key := 65536 * n + l.sy + t
    let x := s.cam l.cam
    let had := smFind s.camEarly (2 * key + next.toNat)
    if read && (smFind s.camLines key).isSome then fetchLines s p n l next read r
    else
      match newestCopy x (l.sy + t) with
      | some c =>
        if c.2.1 = x.frame && had != some c then
          let f := furrowOf l (furrows s.reg p) t
          let s := { s with camEarly := smPut s.camEarly (2 * key + next.toNat) c }
          fetchLines (readCamLine s (2 * n + next.toNat) l c.1 t f) p n l next read r
        else if had.isSome then fetchLines s p n l next read r else s
      | none => if had.isSome then fetchLines s p n l next read r else s

/-- A fetch unit names the lines before source line `top`: they have their place in the slot's allocation (R165). -/
def grantLines (s : State) (key top : Nat) (pl : Plan1) : State :=
  let x := smGet (fetchInit (if pl.l.clsS then 0 else 1)) s.fetches key
  { s with fetches := smPut s.fetches key (Fetch.grant pl top (pl.nf + 1 - x.furrow) x) }

/-- The layers that the frame in hand of a pipe fetches, of those that have a buffer (R173). -/
def nowFetched (s : State) (p : Nat) : List Nat :=
  (planarOn s.scene.planar p).filter (fun n =>
    !(planarOf s.scene.planar n).camEn && !(s.pipe p).offFrame.contains n && !(s.pipe p).heldOff.contains n)

/-- The lines of the next frame that a slot's allocation holds beside what is left of the frame in hand from furrow `f` on: of a
slot that is enabled now, within the smaller of its old and new allocation (R28, R164). -/
def nextWindow (s : State) (p n f : Nat) (l : Planar) : Nat :=
  let c := codeAt s.scene.planar p n
  let o := planarOf s.scene.planar (if (planarOf s.scene.planar c).pipe = p then c else n)
  let r := s.pipe p
  let reads := o.en && o.pipe == p && r.gen == .running && composes s p && !r.offFrame.contains c && !r.heldOff.contains c
  let held := if reads then (linesLeft o f).length * o.lineBytes else 0
  let units := if o.en then min o.silo l.silo else l.silo
  if l.lineBytes = 0 then 0 else (units * 4096 - held) / l.lineBytes

/-- The fetch units of a pipe read ahead of the raster as far as the allocations of their slots hold lines; the lines of the next
frame, and those of frame 0 from the lead-in on, only after the commit deadline (R165, R170, R259). -/
def fetchAhead (s : State) (p : Nat) : State :=
  let r := s.pipe p
  let f := r.line / 8 + 1
  let s := if r.gen == .running && composes s p then
      let s := s.each (camFetched s p) (fun s n =>
        let l := planarOf s.scene.planar n
        fetchLines s p n l false true ((linesLeft l f).take l.window))
      s.each (nowFetched s p) (fun s n =>
        let l := planarOf s.scene.planar n
        grantLines s (2 * n) (firstLeft l f + l.window) (unitPlan s p n l (onTwin s n) false))
    else s
  if r.gen != .stopped && readsAhead s p && nextFetched s p then
    let m := nextPlanar s p
    let rewritten := fun n => s.scene.armed.any (fun a => a.committed && a.pipes.any (fun q => q.val == p) && bufWritten a.writes n)
    s.each (planarOn m p) (fun s n =>
      let l := planarOf m n
      let c := codeAt s.scene.planar p n
      let now := planarOf s.scene.planar c
      let k := keepCode s p n
      let w := nextWindow s p n f l
      if l.camEn then
        fetchLines s p k l true (vTotal s.reg p + r.extra ≤ r.line + 2) ((linesLeft l 0).take w)
      else if r.heldOff.contains c && !rewritten n then s
      else grantLines s (2 * k + 1) (firstLeft l 0 + w) (unitPlan s p n l (onTwin s c && now.buf == l.buf && now.twin == l.twin) true))
  else s

/-- CAM_LINE_WRITTEN: a line stands in device memory, and the fetch units that wait for it read it. -/
def execCamLineWritten (cam : Fin 6) (s : State) : Answer := whenUp s (fun s => (camWritten s cam).each pipes8 fetchAhead)

/-! Commit deadlines. -/

/-- COMMIT_DEADLINE of a stook: its armed parts are decided, READMIT units return, its pending sets are fixed, and a pipe that
relocks or resynchronises is to show pixels from its next frame start if lock, and the common frame start of its stook, came
before (R258, step 3; R261, step 4). -/
def commitDeadline (s : State) (k : Nat) : State :=
  let ps := (stookPipes s.reg k).filter (generatorRuns s)
  if ps.isEmpty then s
  else
    let s := deadlineParts s k
    let s := runReadmits s (fun l => l.isEmpty || l.contains k)
    let s : State := { s with regs := { s.regs with pend := s.regs.pend.map (fun (x : PendPart) =>
      if x.pipe.any (fun (p : Fin 8) => ps.contains p.val) then { x with fixed := true } else x) } }
    let s := s.each ps (fun s p =>
      let r := s.pipe p
      let s := if r.aligned && (r.black == .resync || (r.black == .relock && r.locked)) then s.setPipe p { r with lockedByDeadline := true } else s
      fetchAhead s p)
    settle s

def execCommitDeadline (stook : Fin 8) (s : State) : Answer := whenUp s (fun s => commitDeadline s stook)

/-! The steps of the line-position bus. -/

/-- A layer is out for the rest of the frame, with its fault (R145, R172). -/
def loseInFrame (s : State) (p f cause slot : Nat) : State :=
  let n := codeAt s.scene.planar p slot
  let l := planarOf s.scene.planar n
  let r := s.pipe p
  if !l.en || l.pipe != p || (l.destLines f).2 = 0 || r.offFrame.contains n || r.heldOff.contains n ||
    (!l.clsS && r.shedNow.contains (n, f)) then s
  else
    let s := slotFault (offFrame s p n) n cause
    let s := if cause = 1 then (s.addFld F.layerUnderrunsCount 1).perfAdd (71 + 8 * p) 1 else s
    if l.clsS then forceFrame s 0 p else s

/-- An object is out for the rest of the frame: a loft word that it reads cannot be corrected (R183). -/
def loseObject (s : State) (p f c : Nat) : State :=
  let drawn := (binOf s false p false f).any (fun x => x.ctx == c) || (drawsFl s p && (binOf s true p false f).any (fun x => x.ctx == c))
  if !drawn || (s.pipe p).offFrame.contains (ctxCode c) then s
  else
    let a := artFor s p c
    let s := objectFault (offFrame s p (ctxCode c)) p 2
    if (ctxOf (drawView a p).ctx c).clsS then forceFrame s 0 p else s

/-- The blends of a furrow (R130). -/
def furrowBlends (s : State) (p f : Nat) : Nat :=
  ((drawnIn s p f).map (fun d =>
    match d.planar with
    | some (_, l) => l.dw * (l.destLines f).2
    | none => (d.objs.map (fun e => e.2.2.w * e.2.2.h)).sum)).sum

/-- The lines of a furrow of a planar layer have come, as its first line starts (R204, R234): what no burst took of them is counted,
and the next ones go on as places come free. -/
def countFetch (s : State) (p f n : Nat) : State :=
  let l := planarOf s.scene.planar n
  let key := 2 * n
  if (s.pipe p).furrowOut.contains n then { s with fetches := smDel s.fetches key }
  else
    let pl := unitPlan s p n l (onTwin s n) false
    let x := smGet (fetchInit (if l.clsS then 0 else 1)) s.fetches key
    let s := fetchEnds (twinEnds s n f) key f (if l.camEn then x else Fetch.through pl f (f + 1) x)
    if pl.shed f || (newLines l f).isEmpty || !(channelOf pl.a).any (mcInService s) then s else noteLead s (hwSlot n) pl.a

/-- The layers of a pipe that a furrow finds without a bale that it needs (R172, R370). -/
def lostIn (s : State) (p f : Nat) : List Nat :=
  (planarOn s.scene.planar p).filter (fun n => s.scene.lostBales.any (fun e => e.1 == n && !e.2.2 && needsBale s n f e.2.1))

/-- The array composes a furrow into the furrow store (R172, R183, R204, R226). -/
def beginFurrow (s : State) (p f : Nat) (rep : StepReport) : State :=
  let s := s.each (rep.missing.map (·.val) ++ (lostIn s p f).map hwSlot) (fun s n => loseInFrame s p f 1 n)
  let s := s.each (rep.badAddr.map (·.val)) (fun s n => loseInFrame s p f 2 n)
  let r := s.pipe p
  let s := s.setPipe p { r with furrowOut := r.heldOff ++ r.heldObj ++ r.offFrame }
  let s := s.each rep.loftEcc (fun s c => loseObject s p f c)
  let s := s.each (planarOn s.scene.planar p) (fun s n => countFetch s p f n)
  let v := drawView s p
  let s := s.each (objOn v.obj p) (fun s k =>
    if outOf s p f (0x80 + k) (objLayerOf v.obj k).clsS || (s.pipe p).black == .noLanes then s
    else s.perfAdd (224 + k) (binObjects s p (binOf s false p false f) (fun c => c.layer == k)).length)
  storeFurrow (s.perfMax (68 + 8 * p) (furrowBlends s p f)) p f rep.wrong

/-- Pixel bytes that the link of a pipe has sent with a line: of a dual link the even pixels on one group and the odd ones on the
next (R285, R407); a parallel pair's count on its even group (log 78). -/
def countPixels (s : State) (p y : Nat) : State :=
  let sent := fun (n : Nat) => (y + 1) * (n * 3 * depthOf s p) / 8 - y * (n * 3 * depthOf s p) / 8
  let ha := hActive s.reg p
  match outGroupOf s p with
  | none => s
  | some g =>
    if isPair s g && groupIf s g = 2 then (s.perfAdd (40 + 2 * g) (sent ((ha + 1) / 2))).perfAdd (42 + 2 * g) (sent (ha / 2))
    else s.perfAdd (40 + 2 * g) (sent ha)

/-- A composed line reaches the tap, the light block, and the panel of a pipe that has one (R227, R276, R300, R360). -/
def composeLine (s : State) (p : Fin 8) (y : Nat) (rep : StepReport) : State :=
  let dark := (s.pipe p).black == .noLanes
  let whole := if dark then List.replicate (hActive s.reg p) blackPixel else storedLine s p y
  let l := lateSheaves rep.late whole
  let s := s.each (if dark then [] else rep.late) (fun s e =>
    let s := pipeFault s p 2
    if (indexed whole).any (fun x => inSheaf e x.1 && x.2.covered) then forceFrame s 0 p else s)
  let n := (whole.map (·.blends)).sum
  let s := (s.perfAdd 56 n).perfAdd (66 + 8 * p.val) n
  let s := if (s.pipe p).black != .none then blackLine s p y
    else countPixels (if hasOutput s p then s.emit (.pixels p y (l.map pixelCode)) else s) p y
  feedZones (feedWindows s p l) p y l

/-- Line-position events (R268). -/
def lineEvents (s : State) (p y u : Nat) : State :=
  s.each [0, 1, 2, 3] (fun s k =>
    if s.flag (F.pipeLpeEn p k) && s.fld (F.pipeLpeLine p k) = y && s.fld (F.pipeLpeUnit p k) = u then
      raise s (64 + 16 * p + 4 + k) else s)

/-- Line 1 of a frame: its flip-done records fall due (R142). -/
def writeFlips (s : State) (p : Nat) : State :=
  drainReleases (s.mapScene (fun x =>
    { x with flips := x.flips.map (fun f => if f.pipe.val = p && f.frame = frameOf s p then { f with due := true } else f) }))

/-- A line begins: what the module decides there, before its events (R267). -/
def beginLine (s : State) (p : Fin 8) (y : Nat) : State := if y = 1 then writeFlips s p else s

/-- The furrow that begins with a line, after the windows that close there (R363). -/
def lineFurrow (s : State) (p : Fin 8) (y : Nat) (rep : StepReport) : State :=
  if composes s p && y < vActive s.reg p && y % 8 = 0 then beginFurrow s p (y / 8) rep else s

/-- The first active pixel of a boot scene (R416). -/
def bootShown (s : State) (p y : Nat) : State :=
  if y = 0 && shows s p && showsFallback s p && s.fld F.sysStateState = 0 then s.setFld F.sysStateState 1 else s

/-- The position that the bus enters next, if the raster has one: line, unit, and whether a last line is repeated (R272). -/
def nextPosition (s : State) (p : Nat) : Option (Nat × Nat × Bool) :=
  let r := s.pipe p
  if r.fresh then some (0, 0, false)
  else if r.unit < 63 then some (r.line, r.unit + 1, r.again)
  else if r.line + 1 < vTotal s.reg p + r.extra then some (r.line + 1, 0, false)
  else if s.flag (F.pipeTeEn p) && r.gen == .running && r.teDue != some 0 then some (r.line, 0, true)
  else none

/-- LINE_POSITION_STEP: the bus of a pipe enters its next unit (R267). -/
def lineStep (s : State) (p : Fin 8) (rep : StepReport) : State :=
  match (s.pipe p).gen, nextPosition s p with
  | .stopped, _ => s
  | _, none => s
  | g, some (y, u, again) =>
    let r := s.pipe p
    let due := if u = 0 && !r.fresh then r.teDue.map (· - 1) else r.teDue
    let s := s.setPipe p { r with fresh := false, line := y, unit := u, again := again, teDue := due,
                                  unitAt := s.time.uptime,
                                  repeats := if u = 0 && again then r.repeats + 1 else r.repeats }
    let s := if u = 0 && !again then fetchAhead (camDeadline s p y) p else s
    if g = .leadIn then
      let s := if u = 0 && !again then blackLine s p y else s
      settle (s.setPipe p { s.pipe p with steps := (s.pipe p).steps + 1 })
    else
      let first := u = 0 && !again
      let s := if first then beginLine (bootShown s p y) p y else s
      let s := if again then s else posTriggers (lineEvents s p y u) p y u
      let s := if first then lineFurrow (windowsAt s p y) p y rep else s
      let s := if !first || vActive s.reg p ≤ y then s else if composes s p then composeLine s p y rep else blackLine s p y
      let s := gateStep s p
      settle (s.setPipe p { s.pipe p with steps := (s.pipe p).steps + 1 })

def execLinePositionStep (pipe : Fin 8) (rep : StepReport) (s : State) : Answer := whenUp s (fun s => lineStep s pipe rep)

/-- Errors that ECC has corrected without notice are counted per channel in service; how many is a free value (R370, log 68). -/
def countCorrected (s : State) : State :=
  s.each [0, 1, 2, 3] (fun s m => if mcInService s m then (s.addFld (F.faultMcCeCount m) (Config.corrected s.free)).freshen else s)

/-- What the module does in a step without a command: a powered module's clocks advance, corrected errors are counted, its ports
serve what waits, and LANE parts that wait for a camera that has fallen silent apply; another waits (R279, log 2). -/
def idle (s : State) : Answer := whenUp s (fun s => portsGoOn (releaseSilentCams (countCorrected (countPeriod (refclkTick s)))))

/-- CAM_FRAME_START: a part that waits for the port applies, and the frame opens in the other slot (R279, R288). -/
def camFrameStart (s : State) (c : Nat) : State :=
  if !camReceives s c then s
  else
    let s := applyCamParts s c
    if camReceives s c then camOpen s c else s

def execCamFrameStart (cam : Fin 6) (s : State) : Answer := whenUp s (fun s => camFrameStart s cam)

end Sys2Proof.Machine
end

