-- ==== Sys2Proof/Machine/RegRead.lean ====
section
/-! DEFINITION. What a register reads as (spec 03, R62, R66, R67, R72): fields that other state decides, the copy that
SYS.VIEW selects, and the reserved bits. -/

namespace Sys2Proof.Machine

/-- A word with a field replaced. -/
def putFld (w : Word) (f : Fld) (v : Nat) : Word := setBits w f.hi f.lo v

/-- The number whose bit i is set where `f i` holds, for i below `n`. -/
def maskOf (n : Nat) (f : Nat → Bool) : Nat := (List.range n).foldl (fun m i => if f i then m + 2 ^ i else m) 0

/-- The blocks of strobes that wait for their proof (R68, R71). -/
def strobesWaiting (s : State) : BitVec 16 :=
  let one := fun (m : BitVec 16) (i : WItem) => match i with
    | .strobe _ b _ _ => m ||| b
    | .scene _ => m
  s.scene.queue.foldl one (match s.scene.inHand with | some (i, _) => one 0 i | none => 0)

/-- SYS.STROBE_PEND (R69): the parts that wait, of proved strobes and of those still before the winnow. -/
def strobePendWord (s : State) : Word :=
  let blocks := maskOf 16 (fun b => s.regs.pend.any (fun x => x.block == b) || (strobesWaiting s).getLsbD b)
  let parts := s.regs.pend ++ (waitingStrobes s).flatMap (itemParts s)
  let pipes := maskOf 8 (fun p => parts.any (fun x => x.pipe.any (fun q => q.val == p)))
  BitVec.ofNat 32 (blocks + 2 ^ 16 * pipes)

/-- SYS.LOCKS (R78, R81). -/
def locksWord (s : State) : Word :=
  BitVec.ofNat 32 ((s.flag F.sysProfileLock).toNat + 2 * (s.flag F.sysPodlStatLock).toNat +
    4 * (s.flag F.lightTtCfgLock).toNat + 8 * (keyComplete s).toNat)

/-- Registers of SYS that other state decides. -/
def derivedSys (s : State) (a : Nat) (w : Word) : Word :=
  if a = A.sysUidLo then Config.uid.setWidth 32
  else if a = A.sysUidHi then (Config.uid >>> 32).setWidth 32
  else if a = A.sysState then
    putFld (putFld w F.sysStatePipeRun (maskOf 8 (generatorRuns s))) F.sysStateMcInService (maskOf 4 (mcInService s))
  else if a = A.sysStrobePend then strobePendWord s
  else if a = A.sysLocks then locksWord s
  else w

/-- Failures of a link in its window, as LINK_STAT shows them. -/
def linkFails (s : State) (l : Link) : Nat := min 15 (recentFails s (linkUnit l)).length

/-- Registers of RING that other state decides. -/
def derivedRing (s : State) (a : Nat) (w : Word) : Word :=
  if a = A.ringLinkStat then putFld (putFld w F.ringLinkStatAFails (linkFails s .a)) F.ringLinkStatBFails (linkFails s .b)
  else w

/-- Registers of SCENE that other state decides. -/
def derivedScene (s : State) (a : Nat) (w : Word) : Word :=
  if a = A.sceneWinnowStat then
    putFld (putFld w F.sceneWinnowStatBusy s.scene.inHand.isSome.toNat) F.sceneWinnowStatQueued (min 15 s.scene.queue.length)
  else if a = A.sceneArmed then
    let touched := fun (late : Bool) => maskOf 8 (fun p =>
      s.scene.armed.any (fun x => x.written && (!late || x.slips != 0) && x.pipes.any (fun q => q.val == p)))
    BitVec.ofNat 32 (touched false + 2 ^ 16 * touched true)
  else w

/-- Silo units of the slots that name a pipe, enabled or not (R164). -/
def unitsOn (m : SMap Word) (out : List Nat) (p : Nat) : Nat :=
  (((slotsOf m).filter (fun n => (planarOf m n).pipe == p && !out.contains n)).map (fun n => (planarOf m n).silo)).sum

/-- Silo units in force on some pipes (R164). A pipe in its boot or fallback scene holds none, until the commit deadline that commits
a scene to it: there the new allocation takes effect (R420). -/
def siloUnits (s : State) (ps : List Nat) : Nat :=
  (ps.map (fun p =>
    if !showsFallback s p then unitsOn s.scene.planar s.scene.givenUp p
    else if s.scene.armed.any (fun a => a.committed && a.pipes.any (fun q => q.val == p)) then unitsOn (nextPlanar s p) [] p
    else 0)).sum

/-- Registers of LAYER that other state decides; `i` is the instance. -/
def derivedLayer (s : State) (a i : Nat) (w : Word) : Word :=
  if a = A.layerSiloUsed then BitVec.ofNat 32 (siloUnits s pipes8)
  else if a = A.layerSiloPipe i then BitVec.ofNat 32 (siloUnits s [i])
  else if a = A.layerSlotStat i then
    let l := planarOf s.scene.planar i
    let r := s.pipe l.pipe
    let w := putFld w (F.layerSlotStatActive i) l.en.toNat
    let w := putFld w (F.layerSlotStatHeldOff i) (l.en && r.heldOff.contains i).toNat
    putFld w (F.layerSlotStatOffFrame i) (l.en && r.offFrame.contains i).toNat
  else w

/-- Registers of BLEND that other state decides. -/
def derivedBlend (s : State) (a i : Nat) (w : Word) : Word :=
  if a = A.blendLanes then lanesWord s
  else if a = A.blendRotStat then rotStatWord s
  else if a = A.blendShed then BitVec.ofNat 32 (maskOf 8 (fun p => !(s.pipe p).shedNow.isEmpty || !(s.pipe p).rideOut.isEmpty))
  else if a = A.blendLaneStat i then putFld w (F.blendLaneStatState i) (laneState s i)
  else w

/-- SUB_CFG of a planar subscriber: the class of the layer in force and the port of its primary buffer (R230, R251). -/
def planarSubWord (s : State) (k : Nat) : Word :=
  let l := planarOf s.scene.planar k
  let cls := if l.en && l.clsS then 0 else 1
  let port := if l.en then (match channelOf l.buf with | some m => 2 ^ m | none => 0) else 0xF
  BitVec.ofNat 32 (port * 256 + cls * 16 + 1)

/-- Registers of SCHED that other state decides; RATE and DEPTH of subscribers 0 to 95 read 0 (R251). -/
def derivedSched (s : State) (a i : Nat) (w : Word) : Word :=
  if a = A.schedPortStat i && decide (i < 4) then portStatWord s i
  else if a = A.schedSubLevel i then subLevelWord s i
  else if a = A.schedSubCfg i then (if i < 96 then planarSubWord s i else w)
  else if a = A.schedSubRate i then (if i < 96 then w &&& ~~~0x1FFF else w)
  else if a = A.schedSubDepth i then (if i < 96 then w &&& ~~~0x7FF else w)
  else w

/-- Registers of PIPE that other state decides. -/
def derivedPipe (s : State) (a i : Nat) (w : Word) : Word :=
  if a = A.pipeTimeLo then s.time.base.setWidth 32
  else if a = A.pipeTimeHi then (s.time.base >>> 32).setWidth 32
  else if a = A.pipePos i then posWord s i
  else if a = A.pipeStat i then putFld w (F.pipeStatState i) (pipeStatState (s.pipe i) (hasOutput s i) (linkFailing s i))
  else w

/-- Registers of LANE that other state decides. -/
def derivedLane (s : State) (a i : Nat) (w : Word) : Word :=
  if a = A.laneGroups then groupsWord s
  else if a = A.laneStat i then putFld w (F.laneStatFails i) (min 3 (recentFails s (0x30 + i)).length)
  else if a = A.laneCamCfg i then putFld w (F.laneCamCfgStore i) (camStore (s.fld (F.laneCamCfgDt i)))
  else w

/-- Registers of LIGHT that other state decides. -/
def derivedLight (s : State) (a i : Nat) (w : Word) : Word :=
  if a = A.lightForce then forceWord s
  else if a = A.lightTtStat i then putFld (putFld w (F.lightTtStatState i) (ttStateCode s i)) (F.lightTtStatLit i) (ttLit s i).toNat
  else if a = A.lightCanStat i then putFld w (F.lightCanStatState i) (canState s i)
  else w

/-- The lowest source whose SPI_FLAG is set (R345). -/
def spiFirst (s : State) : Nat :=
  (knownSources s).foldl (fun m k => if s.flag (F.evtSrcStatSpiFlag k) then min m k else m) 0xFFFF

/-- Registers of EVT that other state decides. -/
def derivedEvt (s : State) (a i : Nat) (w : Word) : Word :=
  if a = A.evtQueues then
    BitVec.ofNat 32 (maskOf 8 (queueNonempty s) + 2 ^ 8 * maskOf 8 (fun q => s.fld (F.evtQctlState q) != 0) +
      2 ^ 16 * maskOf 8 (queueFull s))
  else if a = A.evtSpiFirst then BitVec.ofNat 32 (spiFirst s)
  else if a = A.evtQctl i then
    putFld (putFld w (F.evtQctlAgValid i) (activeGroup s i).isSome.toNat) (F.evtQctlAgroup i) ((activeGroup s i).getD 0)
  else if a = A.evtSrcCfg i then putFld w (F.evtSrcCfgLevel i) (isLevel s i).toNat
  else w

/-- Registers of DMA that other state decides. -/
def derivedDma (s : State) (a i : Nat) (w : Word) : Word :=
  if a = A.dmaBufUsed then BitVec.ofNat 32 (bufUsed s)
  else if a = A.dmaChCfg i then (if 28 ≤ i then 0x10 else w)
  else if a = A.dmaChStat i then putFld w (F.dmaChStatState i) (chanState s i)
  else w

/-- Registers of FAULT that other state decides. -/
def derivedFault (s : State) (a : Nat) (w : Word) : Word :=
  if a = A.faultState then faultStateWord s w
  else if a = A.faultMc then faultMcWord s
  else if a = A.faultLanes then BitVec.ofNat 32 (unitMask s 0x10 17 (·.retired))
  else if a = A.faultLg then BitVec.ofNat 32 (unitMask s 0x30 8 (·.ready))
  else if a = A.faultDmaRetired then BitVec.ofNat 32 (unitMask s 0x40 32 (·.retired))
  else if a = A.faultDmaReady then BitVec.ofNat 32 (unitMask s 0x40 32 (·.ready))
  else if a = A.faultLinks then
    let links := fun (f : FUnit → Bool) => (f (s.unit (linkUnit .a))).toNat + 2 * (f (s.unit (linkUnit .b))).toNat
    BitVec.ofNat 32 (links (·.recovery) + 4 * links (·.ready))
  else w

/-- Registers of BARN that other state decides, from the reading of the journal in step 2 on (R401, R404). -/
def derivedBarn (s : State) (a : Nat) (w : Word) : Word :=
  let b := s.barn
  if !b.indexed then w
  else if a = A.barnJournal then
    BitVec.ofNat 32 ((erasedSectors b).length +
      2 ^ 8 * (sectors.filter (fun j => sectorState b j == 8)).length +
      2 ^ 16 * (gleaningNow b).toNat + 2 ^ 17 * (decide (sectorsInUse b < 32)).toNat)
  else if a = A.barnLive then BitVec.ofNat 32 (liveBytes b)
  else if a = A.barnErasesMax then BitVec.ofNat 32 (topErases b)
  else w

/-- A register's word with the fields that other state decides; `i` is its instance. -/
def derivedWord (s : State) (a i : Nat) (w : Word) : Word :=
  match a / 0x10000 with
  | 0 => derivedSys s a w
  | 1 => derivedRing s a w
  | 2 => derivedScene s a w
  | 3 => derivedLayer s a i w
  | 5 => derivedBlend s a i w
  | 6 => derivedSched s a i w
  | 7 => derivedPipe s a i w
  | 8 => derivedLane s a i w
  | 9 => derivedLight s a i w
  | 10 => derivedEvt s a i w
  | 11 => derivedDma s a i w
  | 13 => derivedFault s a w
  | 14 => derivedBarn s a w
  | _ => w

/-- A path's SYS.VIEW (R67, R81): 1 selects the active copy. -/
def viewActive (s : State) (path : Path) : Bool := s.regs.view.getLsbD (pathCode path)

/-- The word of a register as a path sees it: SRW fields from the copy that VIEW selects, reserved bits from the trim. -/
def plainRead (s : State) (path : Path) (r : RegRow) (i a : Nat) : Word :=
  let w := if viewActive s path then s.reg a else (s.reg a &&& ~~~r.srw) ||| (s.shadowReg a &&& r.srw)
  let w := if a = A.sysView then BitVec.ofNat 32 (viewActive s path).toNat else derivedWord s a i w
  (w &&& r.defined) ||| (Config.trim a &&& ~~~r.defined)

end Sys2Proof.Machine
end

