-- ==== Sys2Proof/Machine/Indirect.lean ====
section
/-! DEFINITION. The INDEX/DATA pairs (spec 03, R75 to R77): a bank per access path, the entry latch, the write buffer. Pairs are
numbered in the order of R75. -/

namespace Sys2Proof.Machine

/-- A bank at reset: AUTO_INC 1, WORD 0. -/
def bankInit : IndexBank := { index := 0x10000000, latch := none, buf := none }

/-- A path's bank of a pair. -/
def bankOf (s : State) (path : Path) (k : Nat) : IndexBank := smGet bankInit s.regs.banks (pathCode path * 16 + k)

/-- The state with a path's bank of a pair set. -/
def setBank (s : State) (path : Path) (k : Nat) (b : IndexBank) : State :=
  { s with regs := { s.regs with banks := smSet bankInit s.regs.banks (pathCode path * 16 + k) b } }

/-- The pair whose INDEX register an address is. -/
def indexPair (a : Nat) : Option Nat :=
  [A.objGranIndex, A.objLoftIndex, A.layerLutIndex, A.pipeLutIndex, A.schedGclIndex, A.barnIndex, A.perfSnapIndex].findIdx?
    (· == a)

/-- The pair whose DATA register an address is; DATA lies at INDEX + 4. -/
def dataPair (a : Nat) : Option Nat := if a < 4 then none else indexPair (a - 4)

/-- Words of the table that a pair serves (R75). -/
def pairWords (k table : Nat) : Nat :=
  match k with
  | 0 => 327680
  | 1 => 2097152
  | 2 => 98304
  | 3 => 8192
  | 4 => 512
  | 5 => barnTableWords table
  | _ => 1024

/-- Words of an entry (R75). -/
def pairEntry (k : Nat) : Nat := match k with | 0 => 8 | 4 => 2 | 6 => 2 | _ => 1

/-- A TABLE value that the pair serves (R76, R182, R390). -/
def pairTable (k table : Nat) : Bool := match k with | 0 => decide (table ≤ 1) | 5 => decide (table ≤ 2) | _ => table == 0

/-- The set-up window is open: SYS.STATE.STATE is START or BOOT_SCENE (R75). -/
def setupOpen (s : State) : Bool := decide (s.fld F.sysStateState ≤ 1)

/-- A context is drawn from the art of a bulb-check boot scene (R419). -/
def bootDraws (s : State) (c : Nat) : Bool :=
  let x := ctxOf s.scene.bootCtx c
  inFbRange s c && x.en && x.layer < 8 && (s.pipe x.layer).bootArt && drawsFl s x.layer

/-- One word of a table in its applied state, and whether the read fails. GCL reads follow SYS.VIEW (R251). -/
def tableWord (s : State) (path : Path) (k table w : Nat) : Word × Bool :=
  match k with
  | 0 => (smGet 0 (if bootDraws s (w / 8) then s.scene.bootCtx else if table = 0 then s.scene.ctxBin else s.scene.ctxDraw) w, false)
  | 1 => (leWord (memBytes s.loft (4 * w) 4), false)
  | 2 => (smGet 0 s.scene.degamma w, false)
  | 3 => (smGet 0 s.scene.regamma w, false)
  | 4 => (smGet 0 (if viewActive s path then s.gcl else s.regs.gclShadow) w, false)
  | 5 => barnRead s table w
  | _ => (nth 0 (snapEntry s (w / 2)) (w % 2), false)

/-- A word written to a table; of the granary and the loft in the art of the boot scene too (R182, R184, R419; log 86). -/
def putTableWord (k table : Nat) (s : State) (w : Nat) (v : Word) : State :=
  match k with
  | 0 => (putCtxWords s [(w, v)]).mapScene (fun x => { x with bootCtx := smSet 0 x.bootCtx w v })
  | 1 => { s with loft := memWrite s.loft (4 * w) (leBytes 4 v.toNat) }.mapScene (fun x =>
      { x with bootLoft := memWrite x.bootLoft (4 * w) (leBytes 4 v.toNat) })
  | 2 => s.mapScene (fun x => { x with degamma := smSet 0 x.degamma w v })
  | 3 => s.mapScene (fun x => { x with regamma := smSet 0 x.regamma w v })
  | 4 => { s with regs := { s.regs with gclShadow := smSet 0 s.regs.gclShadow w v } }
  | 5 => barnWrite s table w v
  | _ => s

/-- A table accepts a write now (R75, R390). -/
def tableAccepts (s : State) (k table w : Nat) : Bool :=
  match k with
  | 4 => true
  | 5 => barnWritable s table w
  | 6 => false
  | _ => setupOpen s

/-- ERR of a bank is set. -/
def IndexBank.fail (b : IndexBank) : IndexBank := { b with index := b.index ||| 0x20000000 }

/-- WORD advances under AUTO_INC. -/
def IndexBank.advance (b : IndexBank) : IndexBank :=
  if b.index.getLsbD 28 then { b with index := setBits b.index 23 0 (bits b.index 23 0 + 1) } else b

/-- A read of DATA: the word, from the latch where its entry is latched, and whether it set ERR. A TABLE value that the pair does not
serve refuses the access (log 56). -/
def readData (s : State) (path : Path) (k : Nat) : State × Word × Bool :=
  let b := bankOf s path k
  let w := bits b.index 23 0
  let table := bits b.index 27 24
  let n := pairEntry k
  let first := w / n * n
  if pairWords k table ≤ w then (setBank s path k b.fail, 0, true)
  else if !pairTable k table then (setBank s path k b.fail.advance, 0, true)
  else
    let whole := (List.range n).map (fun i => (tableWord s path k table (first + i)).1)
    let one := tableWord s path k table w
    if one.2 then (setBank s path k b.fail.advance, 0, true)
    else if w = first then (setBank s path k { b with latch := some (table, first, whole) }.advance, one.1, false)
    else
      match b.latch with
      | some (t, f, l) => (setBank s path k b.advance, if t = table ∧ f = first then nth 0 l (w - first) else one.1, false)
      | none => (setBank s path k b.advance, one.1, false)

/-- A write of DATA: words of an entry are buffered, and the entry is written with its last word; whether it set ERR. Words of the
entry that were not buffered stay as they stand (log 57). -/
def writeData (s : State) (path : Path) (k : Nat) (v : Word) : State × Bool :=
  let b := { bankOf s path k with latch := none }
  let w := bits b.index 23 0
  let table := bits b.index 27 24
  let n := pairEntry k
  let first := w / n * n
  if pairWords k table ≤ w then (setBank s path k b.fail, true)
  else if !pairTable k table || !tableAccepts s k table w then (setBank s path k { b with buf := none }.fail.advance, true)
  else
    let old := match b.buf with
      | some (t, f, m) => if t = table ∧ f = first then m else []
      | none => []
    let m := smPut old (w - first) v
    if w + 1 = first + n then
      let t := s.each m (fun s (e : Nat × Word) => putTableWord k table s (first + e.1) e.2)
      (setBank t path k { b with buf := none }.advance, false)
    else (setBank s path k { b with buf := some (table, first, m) }.advance, false)

/-- A write of INDEX, of the bits in `m`: a partly written entry is discarded; ERR clears where 1 is written (R76, R77). -/
def writeIndex (s : State) (path : Path) (k : Nat) (v m : Word) : State :=
  let b := bankOf s path k
  let rw : Word := 0x1FFFFFFF &&& m
  let idx := ((b.index &&& ~~~rw) ||| (v &&& rw)) &&& ~~~(v &&& m &&& 0x20000000)
  setBank s path k { b with index := idx, buf := none }

/-- INDEX as it reads: BUSY 0, the reserved bit from the trim. -/
def indexWord (s : State) (path : Path) (k a : Nat) : Word :=
  ((bankOf s path k).index &&& 0xBFFFFFFF) ||| (Config.trim a &&& 0x40000000)

end Sys2Proof.Machine
end

