-- ==== Sys2Proof/Machine/Session.lean ====
section
/-! DEFINITION. The end of a session (spec 04, R92), by a CLOSE frame or by RING.SESSION.CLOSE. -/

namespace Sys2Proof.Machine

/-- The slot whose reads a CLOSE cuts off: content is being read for it, or its chain goes on. A chain whose LAST descriptor waits as
a COMMIT has no read to come. -/
def slotCut (s : State) (n : Nat) : Option (BitVec 32) :=
  let r := s.ring n
  match r.inHand, r.chain with
  | some c, _ => some c.index
  | none, some (_, slot) => if r.waitCommit.any (fun d => d.chain && d.h.last) then none else some slot
  | none, none => none

/-- RUN of a ring is cleared at a CLOSE (R92). A slot whose descriptor or content read is abandoned, or whose chain still has
reads to come, is not carried out: what it staged is taken back and the ring stands before it. Another slot in hand ends as at
a HOST_STOP. -/
def closeRing (s : State) (n : Nat) : State :=
  if !(ringState s n == 1 || ringState s n == 2) then s
  else
    match slotCut s n with
    | some slot =>
      let s := s.setFld (F.ringCtlRun n) 0
      endRing (if ringKind s n = 1 then backToBefore s n else dropSlot s n slot) n 3 (slot - 1)
    | none => stopRing (s.setRing n { s.ring n with reading := none }) n

/-- The session ends, and HOST telltale channels follow the mapper (R307): unacknowledged frames and outstanding reads go, rings
stop, and records not yet issued are held for the next session. A session that is being opened stays so. The module sends no CLOSE
of its own (log 58). A source then eligible for an ASLEEP queue wakes it (R342). -/
def closeSession (s : State) : State :=
  if !sessionOpen s then s
  else
    let s := { s with hw := { s.hw with cur := none, unacked := [], waiting := [], reads := [], ackOwed := false,
                                        rxLast := 0, txNext := 1 } }
    let s := s.setFld F.ringSessionState (if s.hw.opening.isSome then 1 else 0)
    wakeAll ((noteHeld (refreshTelltales (s.each channels32 abandonDma))).each rings32 closeRing)

end Sys2Proof.Machine
end

