-- ==== Sys2Proof/Machine/RegWrite.lean ====
section
/-! DEFINITION. Writes of registers (spec 00, R16, R17; spec 03, R61 to R68, R72 to R79): how each access code takes a word, locks
and write-once words, and what a write sets off in the block that owns the register. A write acts on the bits of a mask: all 32
for a word, one for a bit alias. The RW fields of a word are stored before its trigger bits act (log 36). -/

namespace Sys2Proof.Machine

/-- What an access answers (R99): 0 OK, 1 LOCKED, 2 UNMAPPED, 3 DENIED, 4 INDEX_ERR. -/
structure Written where
  s      : State
  status : Nat
  reset  : Bool
deriving DecidableEq, Repr

/-- An access that succeeds. -/
def wrote (s : State) : Written := { s := s, status := 0, reset := false }

/-! Storing. -/

/-- The bits of a word taken from another where the mask has ones. -/
def mergeBits (old v m : Word) : Word := (old &&& ~~~m) ||| (v &&& m)

/-- A field stored at the nearer bound of its range. -/
def clampFld (w : Word) (f : Fld) (lo hi : Nat) : Word := putFld w f (max lo (min hi (f.of w)))

/-- The current codes of a telltale channel as they are stored: 1 to 3 as 4, above 160 as 160 (R306). -/
def lampWord (w : Word) (i : Nat) : Word :=
  putFld (putFld w (F.lightTtChDayCode i) (ttCode ((F.lightTtChDayCode i).of w)))
    (F.lightTtChNightCode i) (ttCode ((F.lightTtChNightCode i).of w))

/-- Fields whose values are stored at the nearer bound (R46, R207, R304, R301, R306, R312, R364). -/
def clampWord (a i : Nat) (w : Word) : Word :=
  if a = A.sysStagger then clampFld w F.sysStaggerStep 0x14 0xFF
  else if a = A.blendRotCfg then clampFld w F.blendRotCfgSlotUs 500 5000
  else if a = A.lightDimCfg then clampFld w F.lightDimCfgPeriod 6250 250000
  else if a = A.lightDimStart then clampFld w F.lightDimStartGainMax 0x1000 0xFFFF
  else if a = A.lightCanCtl i then clampFld w (F.lightCanCtlTxPeriod i) 10 10000
  else if a = A.lightTtCh i then lampWord w i
  else if a = A.dmaChCfg i then clampFld w (F.dmaChCfgBufMax i) 1 64
  else if a = A.dmaTchPeriod i then clampFld w (F.dmaTchPeriodPeriod i) 10 1000000
  else w

/-- Bits of W1S that hold their 1: the lock bits (R78). Every other W1S bit reads 0. -/
def lockBits (a : Nat) : Word :=
  if a = A.sysProfile || a = A.sysPodlStat || a = A.lightTtCfg then 0x80000000 else 0

/-- SRW fields that ignore writes: shapers of planar subscribers (R251), buffers of triggered channels (R364), FILTER of a
sense input (R346). -/
def fixedBits (a i : Nat) : Word :=
  if a = A.schedSubCfg i || a = A.schedSubDepth i then (if i < 96 then 0xFFFFFFFF else 0)
  else if a = A.schedSubRate i then (if i < 96 then 0x1FFF else 0)
  else if a = A.dmaChCfg i then (if 28 ≤ i then 0xFFFFFFFF else 0)
  else if a = A.evtSrcCfg i then (if snsSource i then 0x3FF else 0)
  else 0

/-- A word is stored under the access codes of its bits (R16). -/
def storeBits (s : State) (r : RegRow) (i a : Nat) (v m : Word) : State :=
  let live := mergeBits (s.reg a) v (m &&& (r.rw ||| r.lkw))
  let live := (live &&& ~~~(v &&& m &&& r.w1c)) ||| (v &&& m &&& r.w1s &&& lockBits a)
  let s := s.setReg a (clampWord a i live)
  if r.srw = 0 then s
  else s.setShadow a (clampWord a i (mergeBits (s.shadowReg a) v (m &&& r.srw &&& ~~~(fixedBits a i))))

/-! 64-bit values (R74). -/

/-- The LO registers of writable 64-bit values; HI lies at LO + 4. -/
def isLo (a i : Nat) : Bool :=
  a == A.ringMacLo || a == A.ringHostMacLo || a == A.ringSqLo i || a == A.ringCqLo i || a == A.ringPollLo i ||
  a == A.ringPrecLo i || a == A.laneCamBufLo i || a == A.dmaTchBaseLo i || a == A.evtQbaseLo i || a == A.evtQnotifyLo i ||
  a == A.chkStartLo i || a == A.faultRrecLo

/-- The HI registers. -/
def isHi (a i : Nat) : Bool := decide (4 ≤ a) && isLo (a - 4) i

/-- What a LO register was last written with, or its value. -/
def loWord (s : State) (r : RegRow) (a : Nat) : Word :=
  (smFind s.regs.loHeld a).getD (if r.srw = 0 then s.reg a else s.shadowReg a)

/-- A LO word is held until the HI write. -/
def holdLo (s : State) (r : RegRow) (a : Nat) (v m : Word) : State :=
  { s with regs := { s.regs with loHeld := smPut s.regs.loHeld a (mergeBits (loWord s r a) v m) } }

/-- At the HI write the pair takes effect. -/
def takeHi (s : State) (r : RegRow) (i a : Nat) (v m : Word) : State :=
  let s := match findReg (a - 4), smFind s.regs.loHeld (a - 4) with
    | some (rl, _), some w => storeBits s rl i (a - 4) w 0xFFFFFFFF
    | _, _ => s
  storeBits { s with regs := { s.regs with loHeld := smDel s.regs.loHeld (a - 4) } } r i a v m

/-! Locks (R17, R78, R89, R357). -/

/-- A register holds LKW fields and its lock bit is set. -/
def isLocked (s : State) (r : RegRow) (a : Nat) : Bool :=
  r.lkw != 0 &&
  (if a = A.sysProfile then s.flag F.sysProfileLock
   else if a = A.sysPodlStat then s.flag F.sysPodlStatLock
   else s.flag F.lightTtCfgLock)

/-- A register of a triggered channel. -/
def isTriggerReg (a : Nat) : Bool := decide (A.dmaTchCfg 0 ≤ a) && decide (a ≤ A.dmaTchRuns 3)

/-- A key word. -/
def isKey (a : Nat) : Bool := decide (A.ringKey 0 ≤ a) && decide (a ≤ A.ringKey 3)

/-- A word that Haywain may not write at all. -/
def haywainDenied (path : Path) (a : Nat) : Bool := path == .haywain && (isKey a || isTriggerReg a)

/-- A refused write: counted under the address that was accessed, with its status. -/
def refuse (s : State) (path : Path) (at_ status : Nat) : Written := { s := lockedWrite s path at_, status := status, reset := false }

/-! What a write sets off. -/

/-- A counter with CLR in bit 31. -/
def isCounter (r : RegRow) : Bool := r.w1s == 0x80000000 && r.rw == 0 && r.lkw == 0 && r.w1c == 0

/-- CAUSE_CLR of the status registers that have it: the field that it clears. -/
def causeField (a i : Nat) : Option (Nat × Fld) :=
  if a = A.layerSlotStat i then some (12, F.layerSlotStatCause i)
  else if a = A.objPipeStat i then some (28, F.objPipeStatCause i)
  else if a = A.pipeStat i then some (12, F.pipeStatCause i)
  else if a = A.laneStat i then some (12, F.laneStatCause i)
  else none

/-- A wake-up that software asks for (R344): a link that sleeps is woken; LINK_B is driven only once the module has started (R59). -/
def wakeAsked (s : State) (l : Link) : State :=
  if linkAsleep s l && (l == .a || s.pow.started) then wakeLink s l else s

/-- The profile in force: the lower of SEL and the class profile; SEL 3 is Commuter (R42, R81). -/
def takeProfile (s : State) : State :=
  s.setFld F.sysProfileActive (max (min 2 (s.fld F.sysProfileSel)) (s.fld F.sysProfileClassProfile))

/-- SNS_CFG is written: a level input's condition follows its MODE (R329). -/
def senseConfig (s : State) (i : Nat) : State := setCond s (760 + i) (snsCond s i)

/-- A window that is disabled while its pipe is stopped reads OFF at once. -/
def windowConfig (s : State) (w : Nat) : State :=
  let cfg := s.reg (A.chkWinCfg w)
  if (F.chkWinCfgEn 0).of cfg = 0 && !generatorRuns s ((F.chkWinCfgPipe 0).of cfg) then
    winStatus (s.setWindow w windowInit) w 0
  else s

/-- Trigger bits (W1S that read 0); `t` holds the ones written. -/
def trigger (s : State) (path : Path) (a i : Nat) (t : Word) : State :=
  if a = A.sysStrobe then (if t = 0 then s else strobe s t)
  else if a = A.ringSession then (if t.getLsbD 24 then settle (closeSession s) else s)
  else if a = A.evtLinkSleep then
    let s := if t.getLsbD 8 then wakeAsked s .a else s
    if t.getLsbD 9 then wakeAsked s .b else s
  else if a = A.dmaEngine then (if t.getLsbD 1 then settle ((restartEngine s).each channels32 startDma) else s)
  else if a = A.chkScanCfg i then
    let s := if t.getLsbD 30 then scanStop s i else s
    if t.getLsbD 31 then scanGo s i else s
  else if a = A.lanePktCtl i then (if t.getLsbD 31 then packetGo s i else s)
  else if a = A.barnRawCtl then
    if !t.getLsbD 31 then s
    else if s.fld F.barnRawCtlOp = 0 then rawFlush s
    else if s.fld F.barnRawCtlOp = 1 then rawErase s path
    else s
  else if a = A.barnJwCtl then (if t.getLsbD 31 then journalGo s else s)
  else if a = A.barnJrCtl then (if t.getLsbD 31 then journalRead s else s)
  else if a = A.perfCtl then
    let s := if t.getLsbD 1 then stopWindows s else s
    if t.getLsbD 0 then startWindows s else s
  else s

/-- What the write of a stored field brings at once. -/
def followUp (s : State) (a i : Nat) : State :=
  if a = A.evtSnsCfg i then senseConfig s i
  else if a = A.chkWinCfg i then windowConfig s i
  else if a = A.sysProfile then takeProfile s
  else if a / 0x10000 = 9 then refreshTelltales s
  else s

/-- A write whose owner takes the whole of it. -/
def ownWrite (s : State) (a i : Nat) (v m : Word) : Option State :=
  let whole := mergeBits (s.reg a) v m
  if a = A.ringCtl i then some (writeRingCtl s i whole)
  else if a = A.ringPrecCfg i then some (enablePrec s i whole)
  else if a = A.faultRetest then some (retestWrite s whole)
  else if a = A.faultRrecCfg then some (enableRecords s whole)
  else if a = A.faultRrecHostCi then some (consumeRecords s whole)
  else if a = A.lanePktData i then some (packetPush s i v)
  else if a = A.lightForce then some (if m.getLsbD 15 then forceSw s (v.getLsbD 15 || s.light.swHeld) else s)
  else if a = A.evtQctl i then
    let s := if m.getLsbD 1 then writeQmask s i (v.getLsbD 1) else s
    some (if !m.getLsbD 0 then s else if v.getLsbD 0 then sleepQueue s i else awakeQueue s i)
  else if a = A.evtSrcStat i then
    let t := v &&& m
    let s := if t.getLsbD 29 then clearSpi s i else s
    some (if t.getLsbD 31 then completeSource s i else s)
  else none

/-- SYS.VIEW is banked per path (R67). -/
def writeView (s : State) (path : Path) (v m : Word) : State :=
  if !m.getLsbD 0 then s
  else
    let b := BitVec.ofNat 4 (2 ^ pathCode path)
    { s with regs := { s.regs with view := if v.getLsbD 0 then s.regs.view ||| b else s.regs.view &&& ~~~b } }

/-- RESET_CTL: a write without SOFT stores KEY; one with SOFT asks for the reset where KEY holds 0xC0DE already, and is ignored as a
locked write elsewhere (R79). -/
def writeResetCtl (s : State) (r : RegRow) (path : Path) (at_ : Nat) (v m : Word) : Written :=
  if !(v &&& m).getLsbD 16 then wrote (storeBits s r 0 A.sysResetCtl v m)
  else if s.fld F.sysResetCtlKey = 0xC0DE then { s := s, status := 0, reset := true }
  else refuse s path at_ 1

/-- A write of a mapped register that is no INDEX or DATA register and is not refused. -/
def writePlain (s : State) (path : Path) (r : RegRow) (i a : Nat) (v m : Word) : State :=
  if a = A.sysView then writeView s path v m
  else if isLo a i then holdLo s r a v m
  else if isHi a i then takeHi s r i a v m
  else if isCounter r then (if (v &&& m).getLsbD 31 then s.setReg a (s.reg a &&& ~~~r.ro) else s)
  else
    match ownWrite s a i v m, causeField a i with
    | some t, _ => t
    | none, some (b, f) => if (v &&& m).getLsbD b then s.setFld f 0 else s
    | none, none =>
      let held := if a = A.evtSrcCfg i && m.getLsbD 30 then maskSource s i (v.getLsbD 30) else s
      let t := followUp (storeBits held r i a v m) a i
      trigger t path a i (v &&& m &&& r.w1s)

/-- A key word is taken at its first write (R78, R89). -/
def writeKey (s : State) (path : Path) (at_ a : Nat) (v m : Word) : Written :=
  if (smFind s.regs.keys a).isSome then refuse s path at_ 1
  else wrote { s with regs := { s.regs with keys := smPut s.regs.keys a (v &&& m) } }

/-- A write of a register at a byte address of the 16 blocks, of the bits in a mask; `at_` is the address that was accessed. An alias
write to a bit of a locked register that is no LKW bit is judged by that bit (R73) and not counted (log 55). -/
def writeAt (s : State) (path : Path) (at_ a : Nat) (v m : Word) : Written :=
  match findReg a with
  | none => { s := unmapped s, status := 2, reset := false }
  | some (r, i) =>
    if haywainDenied path a then refuse s path at_ 3
    else if isKey a then writeKey s path at_ a v m
    else if isLocked s r a && ((m == 0xFFFFFFFF) || (m &&& r.lkw) != 0) then refuse s path at_ 1
    else if a = A.sysResetCtl then writeResetCtl s r path at_ v m
    else
      match indexPair a, dataPair a with
      | some k, _ => wrote (writeIndex s path k v m)
      | none, some k =>
        let t := writeData s path k v
        { s := t.1, status := if t.2 then 4 else 0, reset := false }
      | none, none => wrote (writePlain s path r i a v m)

/-! Accesses by address (R62, R64, R72, R73). -/

/-- The bit-alias region. -/
def isAlias (a : Nat) : Bool := decide (0x100000 ≤ a) && decide (a < 0x120000)

/-- The register and the bit of an alias word. -/
def aliasReg (a : Nat) : Nat := (a / 0x2000 - 0x80) * 0x10000 + a % 0x2000 / 128 * 4
def aliasBit (a : Nat) : Nat := a % 128 / 4

/-- ERR of a path's bank of a pair is set. -/
def failBank (s : State) (path : Path) (k : Nat) : State := setBank s path k (bankOf s path k).fail

/-- A write of an alias word: it acts on the one bit (R73). -/
def aliasWrite (s : State) (path : Path) (a : Nat) (v : Word) : Written :=
  match dataPair (aliasReg a) with
  | some k => { s := failBank s path k, status := 4, reset := false }
  | none =>
    let m := BitVec.ofNat 32 (2 ^ aliasBit a)
    writeAt s path a (aliasReg a) (if v.getLsbD 0 then m else 0) m

/-- A write of one word at any address. -/
def accessWrite (s : State) (path : Path) (addr v : Word) : Written :=
  let a := addr.toNat
  if a % 4 ≠ 0 then { s := unmapped s, status := 2, reset := false }
  else if isAlias a then aliasWrite s path a v
  else if a < 0x100000 then writeAt s path a a v 0xFFFFFFFF
  else { s := unmapped s, status := 2, reset := false }

/-- What a register reads as without an effect of the read. -/
def peek (s : State) (path : Path) (r : RegRow) (i a : Nat) : Word :=
  match indexPair a with
  | some k => indexWord s path k a
  | none => plainRead s path r i a

/-- What a read of a register settles: FAULT.STATE shows each port's lead as it is now (R372). -/
def readSettled (s : State) (a : Nat) : State := if a = A.faultState then settleLeads s else s

/-- A read of a register of the 16 blocks: the state after it, the word, the status. -/
def readAt (s : State) (path : Path) (a : Nat) : State × Word × Nat :=
  match findReg a with
  | none => (unmapped s, 0, 2)
  | some (r, i) =>
    match dataPair a with
    | some k =>
      let t := readData s path k
      (t.1, t.2.1, if t.2.2 then 4 else 0)
    | none =>
      if a = A.lanePktData i then ((packetPop s i).1, (packetPop s i).2, 0)
      else
        (readSettled s a, peek (readSettled s a) path r i a, 0)

/-- A read of one bit of the register at `b` through its alias word. -/
def aliasReadBit (s : State) (path : Path) (b bit : Nat) : State × Word × Nat :=
  match findReg b, dataPair b with
  | none, _ => (unmapped s, 0, 2)
  | some _, some k => (failBank s path k, 0, 4)
  | some (r, i), none =>
    (readSettled s b, BitVec.ofNat 32 ((peek (readSettled s b) path r i b).getLsbD bit).toNat, 0)

/-- A read of an alias word (R72, R73). -/
def aliasRead (s : State) (path : Path) (a : Nat) : State × Word × Nat := aliasReadBit s path (aliasReg a) (aliasBit a)

/-- A read of one word at any address: the state after it, the word, the status (R62, R99). -/
def accessRead (s : State) (path : Path) (addr : Word) : State × Word × Nat :=
  let a := addr.toNat
  if a % 4 ≠ 0 then (unmapped s, 0, 2)
  else if isAlias a then aliasRead s path a
  else if a < 0x100000 then readAt s path a
  else (unmapped s, 0, 2)

end Sys2Proof.Machine
end

