-- ==== Sys2Proof/Machine/Power.lean ====
section
/-! DEFINITION. Power, resets and the start sequence (spec 02, R41 to R60; spec 03, R79, R80; spec 15, R380; spec 16, R386 to R389,
R401; spec 18, R416 to R420). A whole start sequence is one command's effect; its durations are not modelled (log 37). -/

namespace Sys2Proof.Machine

/-! The front end and the profile (R41, R42). -/

/-- The profile that the available power selects: 0 Full, 1 Touring, 2 Commuter; none below 8 W. Without SCCP it is Commuter. -/
def classProfile (s : State) (reserve : Nat) : Option Nat :=
  if s.pow.noclass then some 2
  else if 30 + reserve ≤ s.pow.podlWatts then some 0
  else if 16 + reserve ≤ s.pow.podlWatts then some 1
  else if 8 + reserve ≤ s.pow.podlWatts then some 2
  else none

/-- SYS.PODL_STAT as the front end gives it, with its lock. -/
def showFrontEnd (s : State) (locked : Bool) : State :=
  let s := (s.setFld F.sysPodlStatClass s.pow.podlClass.toNat).setFld F.sysPodlStatNoclass s.pow.noclass.toNat
  s.setFld F.sysPodlStatLock locked.toNat

/-- P_AV, BOARD_RESERVE and CLASS_PROFILE. Power that came without SCCP has no class, and P_AV reads 0 (DESIGN CHOICE, log 87). -/
def showPower (s : State) (reserve cls : Nat) : State :=
  let pav := if s.pow.noclass then 0 else min 63 (s.pow.podlWatts - reserve)
  takeProfile (((s.setFld F.sysPodlStatPAv pav).setFld F.sysPodlStatBoardReserve reserve).setFld F.sysProfileClassProfile cls)

/-- PODL_CLASSIFIED: SCCP completes, or power is applied without it (R41, R78). Once the module has started it has no effect. -/
def classify (s : State) (cls : BitVec 6) (watts : Nat) (noclass : Bool) : State :=
  if s.pow.power = .up && s.pow.started then s
  else
    let pow : PowerState := { s.pow with classified := true, podlClass := cls, podlWatts := watts, noclass := noclass }
    showFrontEnd { s with pow := pow } true

def execPodlClassified (cls : BitVec 6) (watts : Nat) (noclass : Bool) (s : State) : Answer := answer s (classify s cls watts noclass)

/-! What a reset leaves (R44, R79, R80). -/

/-- The power state as a reset leaves it: the front end keeps its class; the switch closes at step 1, and a latched-open one at the
start of step 2 (R44). One that is open and waits for its retry stays open and keeps its count (log 51). A module that starts again
without a new classification keeps the class of the run before, after a line loss too (log 71). VLED falls until step 8 comes again,
also where the rails stay on (DESIGN CHOICE, log 87). -/
def powerAfter (p : PowerState) (step1 : Bool) : PowerState :=
  { powerReset with
    classified := true, podlClass := p.podlClass, podlWatts := p.podlWatts, noclass := p.noclass || !p.classified,
    vbusClosed := step1 || p.vbusClosed || p.vbusLatched,
    vbusRetries := if step1 || p.vbusLatched then 0 else p.vbusRetries }

/-- WAKE_OUT is low from a reset on (R59). -/
def lowerWake (s : State) : State :=
  if s.pow.wakeOut then ({ s with pow := { s.pow with wakeOut := false } }).emit (.wakePin false) else s

/-- Every register and every unit at reset. The NOR keeps its content, device memory keeps it while the rails stay on (log 41), and
the pins keep their levels. The uptime starts again, and with it the 200 ms of LINK_LATE (log 52). -/
def resetBase (s : State) (step1 : Bool) : State :=
  let t : State := { State.reset with
    pending := s.pending, free := s.free, out := s.out, pow := powerAfter s.pow step1,
    mem := if step1 then [] else s.mem, lost := if step1 then [] else s.lost, barn := { barnReset with nor := s.barn.nor } }
  t.each pipes8 (fun t i => setCond (t.setFld (F.evtSnsCfgLevelNow i) (snsLevel s i).toNat) (760 + i) (snsLevel s i))

/-! Step 2: the boot image (R386, R388, R389). -/

/-- A strobe of the boot image applies at once: nothing runs yet. Groups and pipes start at step 6 (R48). -/
def bootApply (s : State) (blocks : BitVec 16) (words gcl : SMap Word) : State :=
  let v := strobeView s words
  let on := fun (b : Nat) => blocks.getLsbD b
  let lists := if on 6 then ports4.filterMap (listPart s v gcl) else []
  let t := applyWords s words
  let t := if on 6 then (shaperChange s t).each lists applyPend else t
  let t := if on 8 then laneChanged s t [8, 9, 10, 11, 12, 13] else t
  let t := if on 10 then evtStrobed s t else t
  if on 7 then pllsChanged s t else t

/-- Why a strobe of the boot image is refused, if it is: reason and mask (R71). -/
def bootRefusal (s : State) (blocks : BitVec 16) (words gcl : SMap Word) : Option Verdict :=
  if blocks.getLsbD 6 || blocks.getLsbD 7 then
    (let v := strobeVerdict s blocks words gcl
     if v.reason = 0 then none else some v)
  else (otherOwn s blocks (strobeView s words)).head?

/-- A write of SYS.STROBE by the boot image. -/
def bootStrobe (s : State) (w : Word) : State :=
  let blocks : BitVec 16 := w.setWidth 16
  let words := (setBitsBelow 16 blocks.toNat).flatMap (shadowWords s)
  let gcl := if blocks.getLsbD 6 then s.regs.gclShadow else []
  match bootRefusal s blocks words gcl with
  | some v => refuseStrobe s v.reason.toNat blocks.toNat
  | none => bootApply s blocks words gcl

/-- The register and the word that an entry stands for, and whether it is an alias word, which stands for one bit. -/
def bootTarget (a : Nat) (v : Word) : Nat × Word × Bool :=
  if a % 4 = 0 && isAlias a then (aliasReg a, BitVec.ofNat 32 (2 ^ aliasBit a * (v.getLsbD 0).toNat), true) else (a, v, false)

/-- One write on the boot-image path; the second part says that a write of LIGHT.TT_CFG.LOCK is held (R389). The start sequence runs
on where the image asks for a soft reset (log 72). -/
def bootWrite (x : State × Bool) (e : Word × Word) : State × Bool :=
  let (a, v, one) := bootTarget e.1.toNat e.2
  if a = A.sysStrobe then (if v.setWidth 16 = (0 : BitVec 16) then x.1 else bootStrobe x.1 v, x.2)
  else if a = A.lightTtCfg && v.getLsbD 31 then
    (if one then x.1 else (accessWrite x.1 .boot (BitVec.ofNat 32 a) (v &&& 0x7FFFFFFF)).s, true)
  else ((accessWrite x.1 .boot e.1 e.2).s, x.2)

/-- Writes on the boot-image path in order. -/
def bootWrites (x : State × Bool) (l : List (Word × Word)) : State × Bool := l.foldl bootWrite x

/-- The entries of a boot scene or of fallback tables (R386). -/
def entriesOf (bs : List Byte) : List (Word × Word) :=
  (List.range (bs.length / 8)).map (fun i => (leWord (bs.drop (8 * i)), leWord (bs.drop (8 * i + 4))))

/-- BARN.BANK once a bank is selected. -/
def showBank (s : State) (b : Nat) : State :=
  (s.setFld F.barnBankSel b).setFld F.barnBankOtherValid (bankValid s.barn (1 - b)).toNat

/-- What the boot image carries beside its writes (R81, R184, R291, R317, R42, R49). -/
def imageFields (s : State) (img : Config.BootImage) : State :=
  let s := (s.setReg A.sysBootVer img.version).setFld F.objLoftFloorFloor (max 0x10000 img.loftFloor.toNat)
  let s := ((s.setFld F.lightFbCtxBase img.fbBase.toNat).setFld F.lightFbCtxCount img.fbCount.toNat).setFld F.sysProfileSel
    img.profileMax.toNat
  { s with pow := { s.pow with bootFallback := img.fallbackKind, panels := img.panels, powerDelay := img.powerDelay } }

/-- The boot image runs; at its end the profile and the class are locked (R42, R78). -/
def loadImage (s : State) (img : Config.BootImage) : State × Bool :=
  let x := bootWrites (takeProfile (imageFields s img), false) img.regs
  (showFrontEnd (x.1.setFld F.sysProfileLock 1) true, x.2)

/-! Steps 3 and 4 (R50, R380, R401). -/

/-- The units of R367. -/
def allUnits : List Nat :=
  List.range 4 ++ (List.range 17).map (0x10 + ·) ++ (List.range 8).map (0x30 + ·) ++ (List.range 32).map (0x40 + ·) ++ [0x60, 0x61]

/-- A unit of the retired-unit map (R377). -/
def mapHolds (p : List Byte) (u : Nat) : Bool :=
  if isMc u then (leAt p 0 1).testBit u
  else if isLane u then (leAt p 1 3).testBit (u - 0x10)
  else if isLg u then (leAt p 4 1).testBit (u - 0x30)
  else isDma u && (leAt p 5 4).testBit (u - 0x40)

/-- A unit is out from the start on; a channel's content is undefined (R374). -/
def leaveOut (s : State) (u cause : Nat) : State :=
  let s := s.setUnit u { unitInit with cause := cause, retired := true }
  if isMc u then s.loseMemory u
  else if isLg u then setGroupState s (u - 0x30) 4
  else if u = 0x60 then s.setFld F.ringLinkStatARetired 1
  else if u = 0x61 then s.setFld F.ringLinkStatBRetired 1
  else s

/-- The map of the journal is written into the units' states. -/
def retireFromMap (s : State) : State :=
  let p := (smGet (0, [], 0) s.barn.cur 4096).2.1
  s.each allUnits (fun s u => if mapHolds p u then leaveOut s u (if isLg u then 0x11 else 0) else s)

/-- A unit fails training or LBIST: it is retired and recorded (R50, R293, R373, R375). `counted` says that it has failed itself,
now and for the first time since the start. -/
def startFails (s : State) (u cause : Nat) (counted : Bool) : State :=
  if (s.unit u).retired then s
  else
    let s := if counted then raise ((s.addFld F.faultFailuresCount 1).mapBarn (fun b => countSummary b 0)) 27 else s
    let s := if isLg u && counted then linkFault s (u - 0x30) (cause - 0x10) else s
    let fails := if counted then 1 else (recentFails s u).length
    let s := (pushRecord (leaveOut s u cause) u 1 cause fails).addFld F.faultRetirementsCount 1
    let s := flogEntry (raise (writtenIfOff s) 28) 1 u cause fails
    let s := if isLink u && linkRetired s .a && linkRetired s .b then loseHost s else s
    journalMap (s.mapBarn (fun b => summaryRecord (countSummary b 1)))

/-- The other group of a pair is retired with it (R293). -/
def startRetires (s : State) (u cause : Nat) : State :=
  let mate := if isLg u then pairMate s (u - 0x30) else none
  let s := startFails s u cause true
  match mate with | some g => startFails s (0x30 + g) cause false | none => s

/-- Step 3: the channels of the profile are trained. -/
def trainChannels (s : State) (bad : BitVec 4) : State :=
  s.each (List.range (profileChannels s)) (fun s m =>
    if (s.unit m).retired then s
    else if bad.getLsbD m then startRetires s m 5
    else { s with pow := { s.pow with mcTrained := s.pow.mcTrained ||| BitVec.ofNat 4 (2 ^ m) } })

/-- What an LBIST report says of a unit. -/
def lbistOf (l : List (Nat × Lbist)) (u : Nat) : Lbist := ((l.find? (fun e => e.1 == u)).map (·.2)).getD .pass

/-- The cause of a unit's retirement by LBIST (R375). -/
def lbistCause (u : Nat) : Nat := if isLg u then 0x16 else 7

/-- Step 4: LBIST of every unit; one that returns NOT_RUN is tested once more at the end of the step (R50). -/
def testUnits (s : State) (rep : StartReport) : State :=
  let s := s.each allUnits (fun s u => if lbistOf rep.first u = .fail then startRetires s u (lbistCause u) else s)
  s.each allUnits (fun s u =>
    if (s.unit u).retired || lbistOf rep.first u ≠ .notRun then s
    else match lbistOf rep.second u with
      | .pass => s
      | .fail => startRetires s u (lbistCause u)
      | .notRun => raise s 3)

/-- The fallback telltale channels are forced on with cause SW until reset (R380, R388). -/
def forceUntilReset (s : State) : State := forceSw { s with light := { s.light with swHeld := true } } true

/-- Core logic fails its test (R380). -/
def coreFails (s : State) : State :=
  forceUntilReset (flogEntry (raise (s.setFld F.faultStateCoreFail 1) 33) 6 0xFF 0 0)

/-! Step 5: the parts of the bank (R388, R389, R419). -/

/-- A part: from the selected bank, else from the other one where that is valid, else skipped. IMAGE_BAD fires unless the first
holds. -/
def takePart (s : State) (b i : Nat) : State × Option (List Byte) :=
  if partGood s.barn b i then (s, some (partBytes s.barn b i))
  else if bankValid s.barn (1 - b) && partGood s.barn (1 - b) i then
    (raise (s.setFld F.barnBankOther (s.fld F.barnBankOther ||| 2 ^ (i - 1))) 933, some (partBytes s.barn (1 - b) i))
  else (raise (s.setFld F.barnBankNone 1) 933, none)

/-- The background that a part gives a pipe: what its bytes say (log 13), black where the part was skipped. -/
def partGround (part : Option (List Byte)) (p : Nat) : BitVec 24 := match part with | some bs => Config.background bs p | none => 0

/-- The backgrounds of the pipes: of the boot scene, from part 2, or from part 3 where it is of the fallback kind, and of the
fallback scene, from part 3 (R317, R419). -/
def loadGrounds (s : State) (scene tables : Option (List Byte)) : State :=
  s.each pipes8 (fun s p =>
    s.setPipe p { s.pipe p with bg := partGround (if s.pow.bootFallback then tables else scene) p, ground := partGround tables p })

/-- The art of the boot scene is set apart, and the granary and the loft are as they were before it: the fallback tables bring their
own (R419). -/
def keepBootArt (s : State) (loft : List Host.Cell) (before : SceneState) : State :=
  ({ s with loft := loft }).mapScene (fun x => { x with
    bootCtx := x.ctxBin, bootLoft := s.loft, ctxBin := before.ctxBin, ctxDraw := before.ctxDraw })

/-- Step 5: loft image, boot scene and fallback tables, then the held lock, then the proof of the fallback scenes (R318). -/
def loadParts (s : State) (b : Nat) (held : Bool) : State :=
  let (s, loft) := takePart s b 1
  let s := { s with loft := memWrite [] 0 (loft.getD []) }
  let (s, scene) := takePart s b 2
  let x := bootWrites (s, held) (entriesOf (scene.getD []))
  let (s, tables) := takePart (keepBootArt x.1 s.loft s.scene) b 3
  let x := bootWrites (loadGrounds s scene tables, x.2) (entriesOf (tables.getD []))
  let s := if tables.isNone then forceUntilReset x.1 else x.1
  let s := if x.2 then s.setFld F.lightTtCfgLock 1 else s
  fallbackProof s

/-! Steps 6 to 8 (R48, R49, R307, R319). -/

/-- Step 6: the configured groups and pipes start. -/
def startOutputs (s : State) : State :=
  if s.flag F.faultStateCoreFail then s
  else
    let s := s.each groups8 (fun s g =>
      let s := startGroup s g
      s.setGroup g { s.group g with atBoot := groupState s g == 1 })
    s.each (List.range (profilePipes s)) startPipe

/-- Steps 7 and 8: the lanes enter service and their rotation begins; VLED rises (R45) and the telltale sinks turn on; the re-sample
phase of the level sources ends (R328); the barn resumes (R401); a wake request that fell due in the sequence is made (R342, R59). -/
def enterService (s : State) : State :=
  let s := checkLanes (beginSlot s 0)
  let pow : PowerState := { s.pow with started := true, vled := true, bulb := !s.pow.bootFallback }
  let s : State := { s with pow := pow, sampleDue := (List.range 1024).filter levelSource }
  wakeAll (settle (resumeBarn (refreshTelltales s)))

/-- The start sequence from step 2 on. Without a valid bank the module stays in step 2 (R388); below 8 W it does not start its rails
(R41): step 1 does not close VBUS_OUT (R44), and after a RESET_N or a soft reset the switch stays as it is, but the module goes off
(log 69). -/
def startSequence (s : State) (step1 : Bool) (rep : StartReport) : State :=
  let bank := selectBank s.barn
  let img := bank.map (fun b => Config.bootImage (partBytes s.barn b 0))
  let reserve := match img with | some i => min 40 i.boardReserve | none => 0
  match classProfile s reserve with
  | none => { s with pow := { s.pow with power := .off, vbusClosed := s.pow.vbusClosed && !step1 } }
  | some cls =>
    let s := startBarn (showPower (showFrontEnd s step1) reserve cls)
    match bank, img with
    | some b, some i =>
      let x := loadImage (showBank s b) i
      let s := testUnits (trainChannels (retireFromMap x.1) rep.trainFail) rep
      let s := if rep.coreFail then coreFails s else s
      enterService (startOutputs (loadParts s b x.2))
    | _, _ => s

/-- A reset and the start sequence after it. `cause` holds the bits of SYS.RESET_CAUSE. A line loss before it is counted in the fault
summary (R395). -/
def restart (s : State) (step1 : Bool) (cause : Nat) (rep : StartReport) : State :=
  let lineLoss := s.pow.power == .down
  let s := lowerWake (if s.pow.power = .up then stopBarn s true else s)
  let s := (resetBase s step1).setReg A.sysResetCause (BitVec.ofNat 32 (cause + 8 * lineLoss.toNat))
  let s := startSequence s step1 rep
  if lineLoss then s.mapBarn (fun b => countSummary b 2) else s

/-- POWER_GOOD: the line rises above its threshold, and the module starts from step 1 (R48, R52). -/
def powerGood (s : State) (rep : StartReport) : State :=
  if s.pow.power = .up && s.pow.started then s else restart s true 1 rep

def execPowerGood (rep : StartReport) (s : State) : Answer := answer s (powerGood s rep)

/-- RESET_N: asserted for at least 10 µs (R79). -/
def execResetN (rep : StartReport) (s : State) : Answer := whenUp s (fun s => restart s false 2 rep)

/-- The soft reset that a write of SYS.RESET_CTL asks for (R79). -/
def softReset (s : State) (rep : StartReport) : State := restart s false 4 rep

/-! Line loss (R51, R402). -/

/-- LINE_LOSS: the outputs are blanked, memory goes into self-refresh, the barn writer ends, and the module stays down (R52).
`finished` says that the record in hand, if there is one, was written within the hold-up: one that fails leaves no LINE_LOSS entry.
VLED is held through the hold-up with the sinks off (R45; log 53). -/
def loseLine (s : State) (finished : Bool) : State :=
  let inHand := handBegun s.barn
  let s := if s.pow.vbusClosed then raise s 2 else s
  let s := stopBarn (lowerWake s) finished
  let s := if inHand && !finished then s else flogEntry s 3 0xFF 0 0
  let s := s.setFld F.sysStateState 4
  let s := s.each groups8 (fun s g => if groupState s g = 4 then s else setGroupState s g 0)
  let refresh := BitVec.ofNat 4 ([0, 1, 2, 3].foldl (fun n m => if mcInService s m then n + 2 ^ m else n) 0)
  { s with
    pow := { s.pow with power := .down, started := false, bulb := false, wakeOut := false, vbusClosed := false,
                        selfRefresh := refresh },
    pipes := s.pipes.map (fun (e : Nat × PipeRt) => (e.1, { e.2 with gen := .stopped, black := .none })),
    light := { s.light with zones := [], blinkA := false, blinkB := false, busyA := false, busyB := false } }

/-- LINE_LOSS. Whether the record in hand is finished within the hold-up is a free value (log 42). -/
def execLineLoss (s : State) : Answer := whenUp s (fun s => loseLine s (Config.recordFinished s.free))

/-! Temperature (R60). -/

/-- A junction temperature in units of 0.25 °C. -/
def quarters (tj : BitVec 12) : Int := tj.toInt

/-- A thermal trip: every pipe changes to its fallback scene, no part that is armed now ends it, memory goes into self-refresh,
THERM_TRIP and a fault-log entry. What a channel in self-refresh is asked meanwhile it still serves (log 54). -/
def thermTrip (s : State) : State :=
  let s := (s.setFld F.sysTempTrip 1).each (List.range (profilePipes s)) requestFallback
  let s := s.mapScene (fun x => { x with armed := x.armed.map (fun a => { a with preTrip := true }) })
  let s := flogEntry (raise s 1) 4 0xFF 0 0
  let refresh := BitVec.ofNat 4 ([0, 1, 2, 3].foldl (fun n m => if mcInService s m then n + 2 ^ m else n) 0)
  let s := s.mapBarn (fun b => summaryRecord (countSummary b 3))
  { s with pow := { s.pow with selfRefresh := refresh } }

/-- TEMP_SAMPLE: the 1 ms update of SYS.TEMP. The channels leave self-refresh with the trip, below 115 °C (log 54). -/
def tempSample (s : State) (tj : BitVec 12) : State :=
  let t := quarters tj
  let s := (s.setFld F.sysTempTj tj.toNat).setFld F.sysTempWarn (decide (480 ≤ t)).toNat
  let s := reportCond s 0 (decide (480 ≤ t))
  if 540 ≤ t && !s.flag F.sysTempTrip then thermTrip s
  else if t < 460 && s.flag F.sysTempTrip then
    { s.setFld F.sysTempTrip 0 with pow := { s.pow with selfRefresh := 0 } }
  else s

def execTempSample (tj : BitVec 12) (s : State) : Answer := whenUp s (fun s => tempSample s tj)

/-! VBUS_OUT (R44). -/

/-- The switch opens; each opening raises VBUS_OVERCURRENT. -/
def openVbus (s : State) (retries : Nat) : State :=
  raise { s with pow := { s.pow with vbusClosed := false, vbusRetries := retries, vbusLatched := decide (3 ≤ retries) } } 2

def execVbusOvercurrent (s : State) : Answer := whenUp s (fun s => if s.pow.vbusClosed then openVbus s 0 else s)

/-- VBUS_RETRY: 100 ms after an opening the switch closes; with the overcurrent still there it opens again, the third time for good.
-/
def vbusRetry (s : State) (overcurrent : Bool) : State :=
  if s.pow.vbusClosed || s.pow.vbusLatched then s
  else if overcurrent then openVbus s (s.pow.vbusRetries + 1)
  else { s with pow := { s.pow with vbusClosed := true, vbusRetries := 0 } }

def execVbusRetry (overcurrent : Bool) (s : State) : Answer := whenUp s (fun s => vbusRetry s overcurrent)

end Sys2Proof.Machine
end

