-- ==== Sys2Proof/Machine/Access.lean ====
section
/-! DEFINITION. Register accesses as commands (spec 03, R61 to R63, R72 to R79): one word on a path, and the transfers of the SPI
target. Every row writes through the one operation `accessWrite`, whatever address it is given. -/

namespace Sys2Proof.Machine

/-- A write has ended; where it asked for the soft reset, the reset follows (R79). What its tests return is a free value. -/
def finishWrite (x : Written) : State := if x.reset then softReset x.s.freshen (Config.startReport x.s.free) else x.s

/-- One word written. -/
def writeWord (s : State) (path : Path) (addr w : Word) : State := finishWrite (accessWrite s path addr w)

/-- REG_WRITE. -/
def execRegWrite (path : Path) (addr w : Word) (s : State) : Answer := whenServed s path (fun s => writeWord s path addr w)

/-- COUNTER_CLEAR: CLR is bit 31. -/
def execCounterClear (path : Path) (addr : Word) (s : State) : Answer := whenServed s path (fun s => writeWord s path addr 0x80000000)

/-- ALIAS_WRITE. -/
def execAliasWrite (path : Path) (addr w : Word) (s : State) : Answer := whenServed s path (fun s => writeWord s path addr w)

/-- WRITE_LO. -/
def execWriteLo (path : Path) (addr w : Word) (s : State) : Answer := whenServed s path (fun s => writeWord s path addr w)

/-- WRITE_HI. -/
def execWriteHi (path : Path) (addr w : Word) (s : State) : Answer := whenServed s path (fun s => writeWord s path addr w)

/-- INDEX_WRITE. -/
def execIndexWrite (path : Path) (addr w : Word) (s : State) : Answer := whenServed s path (fun s => writeWord s path addr w)

/-- DATA_WRITE. -/
def execDataWrite (path : Path) (addr w : Word) (s : State) : Answer := whenServed s path (fun s => writeWord s path addr w)

/-- One word read. -/
def readWord (s : State) (path : Path) (addr : Word) : State :=
  let t := accessRead s path addr
  t.1.emit (.read path addr t.2.1)

/-- DATA_READ. -/
def execDataRead (path : Path) (addr : Word) (s : State) : Answer := whenServed s path (fun s => readWord s path addr)

/-- SOFT_RESET: a write of SYS.RESET_CTL, with what the tests of the start sequence return. -/
def resetWrite (s : State) (path : Path) (w : Word) (rep : StartReport) : State :=
  let x := accessWrite s path (BitVec.ofNat 32 A.sysResetCtl) w
  if x.reset then softReset x.s rep else x.s

def execSoftReset (path : Path) (w : Word) (rep : StartReport) (s : State) : Answer := whenServed s path (fun s => resetWrite s path w rep)

/-! The SPI target (R63). -/

/-- The address of the next word. -/
def spiNext (inc : Bool) (a : BitVec 24) : BitVec 24 := if inc then a + 4 else a

/-- Words read, each least significant byte first. -/
def spiLoad (inc : Bool) : Nat → BitVec 24 → State → State × List Byte
  | 0, _, s => (s, [])
  | n + 1, a, s =>
    let t := accessRead s .spi (a.setWidth 32)
    let r := spiLoad inc n (spiNext inc a) t.1
    (r.1, leBytes 4 t.2.1.toNat ++ r.2)

/-- Words written; a soft reset cuts the transfer. -/
def spiStore (inc : Bool) : List Word → BitVec 24 → State → State
  | [], _, s => s
  | w :: ws, a, s =>
    let x := accessWrite s .spi (a.setWidth 32) w
    if x.reset then finishWrite x else spiStore inc ws (spiNext inc a) x.s

/-- The whole words of a transfer: one that is cut short is discarded. -/
def spiWords (bs : List Byte) : List Word := (List.range (bs.length / 4)).map (fun i => leWord (bs.drop (4 * i)))

/-- The bytes that a read returns on SPI_MISO after the address: four dummy bytes of low level, then the words. -/
def spiRead (s : State) (inc : Bool) (addr : BitVec 24) (count : Nat) : State :=
  let r := spiLoad inc count addr s
  r.1.emit (.spiData (List.replicate 4 0 ++ r.2))

/-- The command that the bytes of one transfer on SPI_MOSI spell: opcode, address with its most significant byte first, for a read
four dummy bytes and the clocked bytes, for a write the data. Any other opcode is ignored until SPI_CS_N rises. -/
def spiTransfer : List Byte → Option Instr
  | op :: a2 :: a1 :: a0 :: rest =>
    let addr : BitVec 24 := a2 ++ a1 ++ a0
    match op.toNat with
    | 0x0B => some (.spiReadInc addr ((rest.length - 4) / 4))
    | 0x0D => some (.spiReadFixed addr ((rest.length - 4) / 4))
    | 0x02 => some (.spiWriteInc addr rest)
    | 0x0A => some (.spiWriteFixed addr rest)
    | _ => none
  | _ => none

def execSpiReadInc (addr : BitVec 24) (count : Nat) (s : State) : Answer := whenUp s (fun s => spiRead s true addr count)
def execSpiReadFixed (addr : BitVec 24) (count : Nat) (s : State) : Answer := whenUp s (fun s => spiRead s false addr count)
def execSpiWriteInc (addr : BitVec 24) (bytes : List Byte) (s : State) : Answer :=
  whenUp s (fun s => spiStore true (spiWords bytes) addr s)
def execSpiWriteFixed (addr : BitVec 24) (bytes : List Byte) (s : State) : Answer :=
  whenUp s (fun s => spiStore false (spiWords bytes) addr s)

/-! Trigger bits with a row of their own. -/

/-- SESSION_CLOSE_REG: RING.SESSION.CLOSE (R92). -/
def execSessionCloseReg (path : Path) (s : State) : Answer := whenServed s path (fun s => settle (closeSession s))

/-- LINK_WAKE_REQUEST: A_WAKE or B_WAKE of EVT.LINK_SLEEP (R344). -/
def execLinkWakeRequest (path : Path) (l : Link) (s : State) : Answer := whenServed s path (fun s => wakeAsked s l)

end Sys2Proof.Machine
end

