-- ==== Sys2Proof/Machine/Links.lean ====
section
/-! DEFINITION. The Haywain transport (spec 04, R83 to R99, R425; spec 13, R343, R344; spec 18, R417): received frames, sessions,
acknowledgement and retransmission, the two links, register access by frames. -/

namespace Sys2Proof.Machine

/-! What a received frame is checked against (R84, R85). -/

/-- The control page that a frame is checked against: of the session that it names, else of the session in hand, else as the
registers stand. -/
def rxConfig (s : State) (id : BitVec 16) : Sess :=
  let named := (s.hw.cur.filter (fun c => c.id == id)).or (s.hw.opening.filter (fun c => c.id == id))
  (named.or (s.hw.cur.or s.hw.opening)).getD (sessAtOpen s 0 0 0 .a)

/-- The encapsulation of a control page. -/
def transportOf (c : Sess) : Nat := F.ringHwCtlTransport.of c.hwCtl

/-- The frame is no longer than 1,518 bytes, or 1,522 with a tag (R83): 1,500 bytes lie between the Ethernet header and the FCS. -/
def fits (f : RxFrame) : Bool :=
  let net := match f.encap with | .udp4 _ _ _ _ => 28 | .udp6 _ _ _ _ => 48 | .raw => 0
  decide (net + 16 + f.room + 8 ≤ 1500)

/-- A control page enables the link, and the frame is untagged or in the module's VLAN. -/
def onLink (c : Sess) (l : Link) (vlan : Option (BitVec 12)) : Bool :=
  (match l with
   | .a => F.ringHwCtlLinkaEn.of c.hwCtl != 0
   | .b => F.ringHwCtlLinkbEn.of c.hwCtl != 0) &&
  (match vlan with
   | none => true
   | some v => F.ringHwCtlVlanEn.of c.hwCtl != 0 && F.ringHwCtlVid.of c.hwCtl == v.toNat)

/-- The frame comes over an enabled link, untagged or in the module's VLAN, in the module's encapsulation and to its port: any other
is no Haywain frame for the module, nor is one longer than the links carry (log 19). TRANSPORT 3 selects none. -/
def listens (c : Sess) (f : RxFrame) : Bool :=
  fits f && onLink c f.link f.vlan &&
  (transportOf c == 3 ||
   (match f.encap with
    | .udp4 _ p _ _ => transportOf c == 0 && p == c.port
    | .udp6 _ p _ _ => transportOf c == 1 && p == c.port
    | .raw => transportOf c == 2))

/-- The UDP and IP checks of R84 and R85. -/
def encapOk (c : Sess) : Encap → Bool
  | .udp4 src _ plain sum => src == c.ip4Host && plain && sum != some false
  | .udp6 src _ plain sum => src == c.ip6Host && plain && sum == some true
  | .raw => true

/-- The checks of R85 that come before SESSION and the tag. A TYPE that is not the row's is one that no row has: unknown. -/
def frameSound (c : Sess) (f : RxFrame) (kind : Nat) : Bool :=
  f.fcsOk && f.dstMac == c.mac && encapOk c f.encap && f.version == 1 && f.kind.toNat == kind && decide (f.length.toNat ≤ f.room)

/-- A frame is dropped and counted. -/
def rejectFrame (s : State) : State := s.addFld F.ringRxRejectCount 1

/-- A tag fails: TAG_FAIL is raised at most once per millisecond (R115). -/
def tagFails (s : State) : State :=
  let s := rejectFrame s
  let due := match s.hw.tagFailAt with
    | none => true
    | some t => decide (t + 1000000 ≤ s.time.uptime)
  if due then raise { s with hw := { s.hw with tagFailAt := some s.time.uptime } } 234 else s

/-- The header of a received frame. -/
def rxHeader (f : RxFrame) (kind : Nat) : List Byte :=
  headerBytes f.version.toNat kind f.session.toNat f.seq.toNat f.ack.toNat f.length.toNat f.retx

/-- The body: the first LENGTH of the bytes that the operands spell; none where they spell fewer. -/
def rxBody (f : RxFrame) (bytes : List Byte) : Option (List Byte) :=
  if f.length.toNat ≤ bytes.length then some (bytes.take f.length.toNat) else none

/-! Sequence and acknowledgement (R93 to R97). -/

/-- An ACK value acknowledges every frame up to it; a READ_REQ waits for its READ_RESP (R95). -/
def takeAck (s : State) (ack : BitVec 32) : State :=
  { s with hw := { s.hw with unacked := s.hw.unacked.filter (fun f => f.readId.isSome || decide (2 ^ 31 ≤ dist ack f.seq)) } }

/-- A verified frame over LINK_A, up and not retired, brings the module's sending back to it, beginning with the oldest
unacknowledged frame (R97). -/
def backToA (s : State) (l : Link) : State :=
  if l == .a && activeLink s == .b && linkUsable s .a then resendAll (setActive (freshCounts s) .a) else s

/-- A pure ACK, on a link that carries frames; where none does, a link is woken and the ACK is owed until it is up (R94, R344). -/
def sendAck (s : State) : State :=
  let t := ontoUsable s
  if linkUsable t (activeLink t) then sendUnseq t tyAck [] else wakeSome { s with hw := { s.hw with ackOwed := true } }

/-- A sequenced frame is accepted. -/
def acceptSeq (s : State) (seq : BitVec 32) : State := { s with hw := { s.hw with rxLast := seq, ackOwed := true } }

/-- A frame counts in the counters of its link (R407). -/
def countRx (s : State) (f : RxFrame) : State :=
  (s.perfAdd (33 + 4 * linkIdx f.link) f.length.toNat).perfAdd (35 + 4 * linkIdx f.link) 1

/-- The session that is being opened is confirmed by its host's frame with SEQ 1 (R90, R91): WRITEs of an old one go first, its
READ_REQs are issued again. -/
def confirm (s : State) (c : Sess) : State :=
  let writes := (s.hw.unacked ++ s.hw.waiting).filter (fun f => f.kind.toNat == tyWrite)
  let hw := { s.hw with
    cur := some c, opening := none, txNext := 1, rxLast := 1, unacked := [], ackOwed := true,
    waiting := writes.map (fun f => { f with retx := false, sends := 0 }), reads := s.hw.reads.map (fun r => { r with sent := false }) }
  let s := ((({ s with hw := hw }).setFld F.ringSessionState 2).setFld F.ringSessionId c.id.toNat).setFld F.ringLinkStatHostLost 0
  settle (notifyAtConfirm (raise (pumpReads (pump (noteHeld (refreshTelltales (ontoUsable s))))) 236))

/-- A frame passes its checks and its tag under a session (second part: one that is still being opened). -/
def takeFrame (s : State) (c : Sess) (isNew : Bool) (f : RxFrame) (sequenced : Bool) (act : State → State) : State :=
  let s := linkRecovered (countRx s f) f.link
  let s := if isNew then backToA s f.link else pump (backToA (takeAck s f.ack) f.link)
  if !sequenced then settle s
  else if isNew then (if f.seq = 1 then act (confirm s c) else s)
  else if f.seq = s.hw.rxLast + 1 then act (acceptSeq s f.seq)
  else settle (if dist s.hw.rxLast f.seq < 2 ^ 31 then sendAck s else s)

/-- The session that a frame names. -/
def sessionOf (s : State) (id : BitVec 16) : Option (Sess × Bool) :=
  match s.hw.cur.filter (fun c => c.id == id), s.hw.opening.filter (fun c => c.id == id) with
  | some c, _ => some (c, false)
  | none, some c => some (c, true)
  | none, none => none

/-- A received frame other than OPEN: the checks of R85 and R417, then its effect. -/
def receive (s : State) (f : RxFrame) (kind : Nat) (bytes : List Byte) (sequenced : Bool) (act : State → State) : State :=
  if !listens (rxConfig s f.session) f then s
  else if !s.pow.started || !frameSound (rxConfig s f.session) f kind then rejectFrame s
  else
    match sessionOf s f.session, rxBody f bytes with
    | none, _ => rejectFrame s
    | some _, none => s
    | some (c, isNew), some body =>
      if tagOf s (some c.devNonce) (rxHeader f kind) body = f.tag then takeFrame s c isNew f sequenced act else tagFails s

/-! Sessions (R89 to R92). -/

/-- The OPEN_ACK of a session (R88): SESSION is its identifier, SEQ 1, ACK 0; the tag covers header and body. -/
def openAckBytes (s : State) (c : Sess) : List Byte :=
  let body := leBytes 8 c.hostNonce.toNat ++ leBytes 8 c.devNonce.toNat ++ leBytes 4 (s.reg A.sysId).toNat ++
    leBytes 1 (profileOf s) ++ leBytes 3 0
  let h := headerBytes 1 tyOpenAck c.id.toNat 1 0 24 false
  h ++ body ++ leBytes 8 (tagOf s none h body).toNat

/-- An OPEN is answered: the next identifier, a fresh nonce. A session that is open goes on. -/
def answerOpen (s : State) (f : RxFrame) (hostNonce : BitVec 64) : State :=
  let id := s.hw.nextId
  let c := sessAtOpen s id (Config.nonce s.free) hostNonce f.link
  let s := ({ s with hw := { s.hw with opening := some c, nextId := if id = 0xFFFF then 1 else id + 1 } }).freshen
  let s := if sessionOpen s then s else s.setFld F.ringSessionState 1
  countTx (s.emit (.openAck f.link (wrapOf c (openAckBytes s c)) (openAckBytes s c))) f.link 24

/-- OPEN. It is checked against the control page as it stands. A verified one without a whole HOST_NONCE is ignored (log 61). -/
def openFrame (s : State) (f : RxFrame) (hostNonce : BitVec 64) : State :=
  let c := sessAtOpen s 0 0 0 f.link
  if !listens c f then s
  else if !s.pow.started || !keyComplete s || transportOf c == 3 || !frameSound c f tyOpen then rejectFrame s
  else
    match rxBody f (leBytes 8 hostNonce.toNat) with
    | none => s
    | some body =>
      if tagOf s none (rxHeader f tyOpen) body ≠ f.tag then tagFails s
      else if f.length = 8 then answerOpen (countRx s f) f hostNonce
      else s

def execOpenSession (f : RxFrame) (hostNonce : BitVec 64) (s : State) : Answer := whenUp s (fun s => openFrame s f hostNonce)

/-- OPEN_TIMEOUT: a session not confirmed within 10 ms is abandoned (R90); SESSION.STATE then reads LOST where the host is lost,
else CLOSED (DESIGN CHOICE, log 73). -/
def openTimeout (s : State) : State :=
  if s.hw.opening.isNone then s
  else
    let s := { s with hw := { s.hw with opening := none } }
    if sessionOpen s then s else s.setFld F.ringSessionState (if s.flag F.ringLinkStatHostLost then 3 else 0)

def execOpenTimeout (s : State) : Answer := whenUp s openTimeout

/-- CLOSE: it is acknowledged, and the session ends. -/
def execClose (f : RxFrame) (s : State) : Answer :=
  whenUp s (fun s => receive s f tyClose [] true (fun s => settle (closeSession (sendAck s))))

/-- ACK. -/
def execAck (f : RxFrame) (s : State) : Answer := whenUp s (fun s => receive s f tyAck [] false id)

/-- KEEPALIVE. -/
def execKeepalive (f : RxFrame) (s : State) : Answer := whenUp s (fun s => receive s f tyKeepalive [] true settle)

/-- ACK_DUE: 20 µs after a sequenced frame was accepted whose ACK value nothing has carried. -/
def execAckDue (s : State) : Answer := whenUp s (fun s => if s.hw.ackOwed then sendAck s else s)

/-- KEEPALIVE_TIMER: not while no link carries frames, as where all sleep (R344), nor with an interval of 0. -/
def keepaliveDue (s : State) : State :=
  match s.hw.cur with
  | none => s
  | some c =>
    let t := ontoUsable s
    if c.keepalive ≠ 0 && linkUsable t (activeLink t) then sendSeq s tyKeepalive [] none else s

def execKeepaliveTimer (s : State) : Answer := whenUp s keepaliveDue

/-! Retransmission and the links (R95 to R98, R343, R344). -/

/-- The other link has been woken to take over from a sending link that has failed (R96). -/
def takeOverWaits (s : State) : Bool :=
  let now := activeLink s
  (s.unit (linkUnit now)).recovery && s.hw.waking.getLsbD (linkIdx (linkOther now))

/-- RETX_TIMEOUT: everything unacknowledged is sent again; once a frame has been so three times the link has failed. -/
def retxTimeout (s : State) : State :=
  if !sessionOpen s || s.hw.unacked.isEmpty || !linkUsable s (activeLink s) || takeOverWaits s then s
  else if s.hw.unacked.any (fun f => 3 ≤ f.sends) then linkFailed s (activeLink s) 9
  else resendAll { s with hw := { s.hw with unacked := s.hw.unacked.map (fun f => { f with sends := f.sends + 1 }) } }

def execRetxTimeout (s : State) : Answer := whenUp s retxTimeout

/-- UP of a link. -/
def setUp (s : State) (l : Link) (b : Bool) : State :=
  match l with
  | .a => s.setFld F.ringLinkStatAUp b.toNat
  | .b => s.setFld F.ringLinkStatBUp b.toNat

/-- A link is no longer on its way up. -/
def stopWaking (s : State) (l : Link) : State :=
  { s with hw := { s.hw with waking := s.hw.waking &&& ~~~(BitVec.ofNat 2 (1 <<< linkIdx l)) } }

/-- The sending link is out, and does not merely sleep. -/
def activeOut (s : State) : Bool :=
  let now := activeLink s
  !linkAsleep s now && (!linkUsable s now || (s.unit (linkUnit now)).recovery) && !s.hw.waking.getLsbD (linkIdx now)

/-- The module's sending waits for another link to come up: a session is OPEN, or the sending link has failed (R96). -/
def sendingWaits (s : State) : Bool :=
  let now := activeLink s
  activeOut s && (sessionOpen s || (s.unit (linkUnit now)).recovery || linkRetired s now)

/-- LINK_DOWN: the link fails at once; a woken link that was to take over fails too, and the module looks for another. gPTP
holds over without LINK_A (R264). -/
def linkDown (s : State) (l : Link) : State :=
  let wasWaking := s.hw.waking.getLsbD (linkIdx l)
  if linkAsleep s l || !(linkIsUp s l || wasWaking) then s
  else
    let s := linkFailed (stopWaking (setUp s l false) l) l 10
    let s := if wasWaking && activeLink s != l && sendingWaits s then settle (failover s) else s
    if l == .a then holdOver s else s

def execLinkDown (l : Link) (s : State) : Answer := whenUp s (fun s => linkDown s l)

/-- The PHY of a link as HW_CTL sets it (R83): role, auto-negotiation, speed. LINKA_SPEED 0 and 3 negotiate, 1 and 2 fix the speed;
negotiated, `partner1000` says whether the partner advertises 1000BASE-T1. -/
def phyMaster (w : Word) : Link → Bool
  | .a => F.ringHwCtlLinkaRole.of w != 0
  | .b => F.ringHwCtlLinkbRole.of w != 0
def phyNegotiates (w : Word) (l : Link) : Bool :=
  l == .a && (F.ringHwCtlLinkaSpeed.of w == 0 || F.ringHwCtlLinkaSpeed.of w == 3)
def phyAt1000 (w : Word) (l : Link) (partner1000 : Bool) : Bool :=
  l == .a && (F.ringHwCtlLinkaSpeed.of w == 1 || (phyNegotiates w l && partner1000))

/-- LINK_UP: a woken link takes over, and waiting frames go out, an owed ACK too. LINK_B comes up only once the module drives it
(R59). -/
def linkUp (s : State) (l : Link) (partner1000 : Bool) : State :=
  let w := hwCtlNow s
  let wasWaking := s.hw.waking.getLsbD (linkIdx l)
  let fast := phyAt1000 w l partner1000
  let s := (stopWaking (setAsleep (setUp s l true) l false) l).emit (.phyMode l (phyMaster w l) (phyNegotiates w l) fast)
  let s := if l == .a then s.setFld F.ringLinkStatA1000 fast.toNat else s
  let s := if activeLink s != l && (sessionOpen s || wasWaking) && sendingWaits s && linkUsable s l then switchOver s else pump s
  settle (if wasWaking && s.hw.ackOwed && sessionOpen s then sendAck s else s)

def execLinkUp (l : Link) (partner1000 : Bool) (s : State) : Answer :=
  whenUp s (fun s => if l == .a || s.pow.started then linkUp s l partner1000 else s)

/-- ACCEPT of a link. -/
def acceptsSleep (s : State) : Link → Bool
  | .a => s.flag F.evtLinkSleepAAccept
  | .b => s.flag F.evtLinkSleepBAccept

/-- LINK_SLEEP_REQUEST: accepted where ACCEPT is 1 and no sequenced frame waits or is unacknowledged on the link. -/
def sleepRequest (s : State) (l : Link) : State :=
  if !linkIsUp s l then s
  else if acceptsSleep s l && !(activeLink s == l && !(s.hw.unacked.isEmpty && s.hw.waiting.isEmpty)) then
    let s := setAsleep (setUp (s.emit (.tc10SleepAccept l)) l false) l true
    if l == .a then holdOver s else s
  else s.emit (.tc10SleepReject l)

def execLinkSleepRequest (l : Link) (s : State) : Answer := whenUp s (fun s => sleepRequest s l)

/-- LINK_WAKEUP: the partner wakes the link, which is then on its way up. -/
def partnerWakes (s : State) (l : Link) : State :=
  if linkAsleep s l then
    let s := setAsleep s l false
    { s with hw := { s.hw with waking := s.hw.waking ||| BitVec.ofNat 2 (1 <<< linkIdx l) } }
  else s

def execLinkWakeup (l : Link) (s : State) : Answer := whenUp s (fun s => partnerWakes s l)

/-! Address resolution (R85, R417): answered once step 2 has ended, for the addresses of the control page in force. -/

/-- The control page in force: as the session read it when it opened, else as the registers stand (R113). -/
def pageNow (s : State) : Sess := (s.hw.cur.or s.hw.opening).getD (sessAtOpen s 0 0 0 .a)

/-- The module hears a frame: it comes over an enabled link, untagged or in the module's VLAN (log 19). -/
def hears (s : State) (l : Link) (f : NetFrame) : Bool := s.pow.started && onLink (pageNow s) l f.vlan

/-- The MAC address that a neighbour solicitation of an IPv6 address is sent to: 33:33:FF and the address's last three bytes
(RFC 4861; log 81). -/
def solicitedMac (ip : BitVec 128) : BitVec 48 := BitVec.ofNat 48 (0xFF3333 + (ip.toNat >>> 104) * 2 ^ 24)

/-- A heard frame with a bad FCS, or sent to an address other than the module's own and the group `many`, is dropped and counted
(R85); one for the module's address is answered. -/
def answerAddress (s : State) (f : NetFrame) (many : BitVec 48) (mine : Bool) (reply : Out) : State :=
  if !(f.fcsOk && (f.dstMac == (pageNow s).mac || f.dstMac == many)) then rejectFrame s
  else if mine then s.emit reply
  else s

def execArpRequest (l : Link) (frame : NetFrame) (target senderIp : BitVec 32) (senderMac : BitVec 48) (s : State) : Answer :=
  whenStarted s (fun s =>
    let c := pageNow s
    if hears s l frame then
      answerAddress s frame (BitVec.allOnes 48) (target == c.ip4Local)
        (.arpReply l (tagOut c.hwCtl) c.mac target senderMac senderIp)
    else s)

def execNeighbourSolicitation (l : Link) (frame : NetFrame) (target senderIp : BitVec 128) (senderMac : BitVec 48) (s : State) :
    Answer :=
  whenStarted s (fun s =>
    let c := pageNow s
    if hears s l frame then
      answerAddress s frame (solicitedMac c.ip6Local) (target == c.ip6Local)
        (.neighbourAdvert l (tagOut c.hwCtl) c.mac target senderMac senderIp)
    else s)

/-! DOORBELL and READ_RESP (R104, R112). -/

/-- The bytes of a DOORBELL entry. -/
def doorBytes (e : DbEntry) : List Byte :=
  leBytes 1 e.kind.toNat ++ leBytes 1 e.target.toNat ++ leBytes 2 e.zero.toNat ++ leBytes 4 e.index.toNat

/-- A DOORBELL frame: its whole entries act in order, whatever their number (log 59). -/
def doorbell (s : State) (f : RxFrame) (es : List DbEntry) : State :=
  receive s f tyDoorbell (es.flatMap doorBytes) true (fun s => settle (s.each (es.take (f.length.toNat / 8)) doorEntry))

/-- The DOORBELL rows are named by the KIND of their first entry. -/
def execDoorbellSubmit (f : RxFrame) (target : BitVec 8) (index : BitVec 32) (rest : List DbEntry) (s : State) : Answer :=
  whenUp s (fun s => doorbell s f ({ kind := 0, target := target, zero := 0, index := index } :: rest))
def execDoorbellCplCi (f : RxFrame) (target : BitVec 8) (index : BitVec 32) (rest : List DbEntry) (s : State) : Answer :=
  whenUp s (fun s => doorbell s f ({ kind := 1, target := target, zero := 0, index := index } :: rest))
def execDoorbellPrecCi (f : RxFrame) (target : BitVec 8) (index : BitVec 32) (rest : List DbEntry) (s : State) : Answer :=
  whenUp s (fun s => doorbell s f ({ kind := 2, target := target, zero := 0, index := index } :: rest))
def execDoorbellEqCi (f : RxFrame) (target : BitVec 8) (index : BitVec 32) (rest : List DbEntry) (s : State) : Answer :=
  whenUp s (fun s => doorbell s f ({ kind := 3, target := target, zero := 0, index := index } :: rest))

/-- READ_RESP. -/
def readResponse (s : State) (f : RxFrame) (id : BitVec 16) (status : BitVec 8) (data : List Byte) : State :=
  receive s f tyReadResp (leBytes 2 id.toNat ++ leBytes 1 status.toNat ++ [0] ++ data) true
    (fun s => readAnswered s id status (data.take (f.length.toNat - 4)))

def execReadResp (f : RxFrame) (id : BitVec 16) (status : BitVec 8) (data : List Byte) (s : State) : Answer :=
  whenUp s (fun s => readResponse s f id status data)

/-! Register access by frames (R99). -/

/-- What a run of accesses has done: the words read, the first status that was not OK and its position; a soft reset in it. -/
structure RegRun where
  s      : State
  bytes  : List Byte
  status : Nat
  bad    : Nat
  reset  : Bool

/-- The outcome of one word. -/
def RegRun.note (x : RegRun) (s : State) (i status : Nat) (bytes : List Byte) : RegRun :=
  { s := s, bytes := x.bytes ++ bytes, status := if x.status = 0 then status else x.status,
    bad := if x.status = 0 && status ≠ 0 then i else x.bad, reset := x.reset }

/-- The address of word i. -/
def wordAddr (addr : Word) (fixed : Bool) (i : Nat) : Word := if fixed then addr else addr + BitVec.ofNat 32 (4 * i)

/-- A run that has done nothing. -/
def runInit (s : State) : RegRun := { s := s, bytes := [], status := 0, bad := 0, reset := false }

/-- One word of a REG_RD. -/
def readStep (addr : Word) (fixed : Bool) (x : RegRun) (i : Nat) : RegRun :=
  let t := accessRead x.s .haywain (wordAddr addr fixed i)
  x.note t.1 i t.2.2 (leBytes 4 t.2.1.toNat)

/-- The words of a REG_RD. -/
def readRun (s : State) (addr : Word) (count : Nat) (fixed : Bool) : RegRun :=
  (List.range count).foldl (readStep addr fixed) (runInit s)

/-- The words of a REG_WR; a soft reset ends the run. -/
def writeRun (s : State) (addr : Word) (fixed : Bool) (ws : List (Nat × Word)) : RegRun :=
  ws.foldl (fun x (e : Nat × Word) =>
    if x.reset then x
    else
      let t := accessWrite x.s .haywain (wordAddr addr fixed e.1) e.2
      { x.note (finishWrite t) e.1 t.status [] with reset := t.reset }) (runInit s)

/-- The first eight bytes of a request and of a response. -/
def regHead (addr : Word) (count : BitVec 8) (b5 b6 : Nat) : List Byte :=
  leBytes 4 addr.toNat ++ leBytes 1 count.toNat ++ leBytes 1 b5 ++ leBytes 1 b6 ++ [0]

/-- COUNT is 1 to 64. -/
def countOk (count : BitVec 8) : Bool := decide (1 ≤ count.toNat) && decide (count.toNat ≤ 64)

/-- The effect of an accepted REG_RD. -/
def regRead (s : State) (f : RxFrame) (addr : Word) (count : BitVec 8) (fixed : Bool) : State :=
  if !countOk count || f.length ≠ 8 then settle (sendSeq s tyRegRdResp (regHead addr count 5 0) none)
  else
    let x := readRun s addr count.toNat fixed
    settle (sendSeq x.s tyRegRdResp (regHead addr count x.status x.bad ++ x.bytes) none)

def execRegRd (f : RxFrame) (addr : Word) (count : BitVec 8) (fixed : Bool) (extra : List Byte) (s : State) : Answer :=
  whenUp s (fun s => receive s f tyRegRd (regHead addr count fixed.toNat 0 ++ extra) true
    (fun s => regRead s f addr count fixed))

/-- The words of a REG_WR's body. -/
def bodyWords (bs : List Byte) (count : Nat) : List (Nat × Word) :=
  (List.range count).map (fun i => (i, leWord (bs.drop (8 + 4 * i))))

/-- The effect of an accepted REG_WR; one that asks for the soft reset has nobody left to answer to. -/
def regWritten (s : State) (f : RxFrame) (addr : Word) (count : BitVec 8) (fixed : Bool) (bs : List Byte) : State :=
  if !countOk count || f.length.toNat ≠ 8 + 4 * count.toNat then
    settle (sendSeq s tyRegWrResp (regHead addr count 5 0) none)
  else
    let x := writeRun s addr fixed (bodyWords bs count.toNat)
    if x.reset then x.s else settle (sendSeq x.s tyRegWrResp (regHead addr count x.status x.bad) none)

def execRegWr (f : RxFrame) (addr : Word) (count : BitVec 8) (fixed : Bool) (words : List Word) (extra : List Byte) (s : State) :
    Answer :=
  let bs := regHead addr count fixed.toNat 0 ++ words.flatMap (fun w => leBytes 4 w.toNat) ++ extra
  whenUp s (fun s => receive s f tyRegWr bs true (fun s => regWritten s f addr count fixed bs))

end Sys2Proof.Machine
end

