-- ==== Sys2Proof/Machine/Dispatch.lean ====
section
/-! DEFINITION. The one place where a command is given to its meaning: one arm per row of the table of operations and events. -/

namespace Sys2Proof.Machine

/-- The effect of a command on everything but the queue. -/
def exec (i : Instr) (s : State) : Host.Outcome State Fault Refusal :=
  match i with
  | .powerGood rep => Sys2Proof.Machine.execPowerGood rep s
  | .podlClassified cls watts noclass => Sys2Proof.Machine.execPodlClassified cls watts noclass s
  | .resetN rep => Sys2Proof.Machine.execResetN rep s
  | .softReset path w rep => Sys2Proof.Machine.execSoftReset path w rep s
  | .lineLoss => Sys2Proof.Machine.execLineLoss s
  | .tempSample tj => Sys2Proof.Machine.execTempSample tj s
  | .vbusOvercurrent => Sys2Proof.Machine.execVbusOvercurrent s
  | .vbusRetry overcurrent => Sys2Proof.Machine.execVbusRetry overcurrent s
  | .regWrite path addr w => Sys2Proof.Machine.execRegWrite path addr w s
  | .counterClear path addr => Sys2Proof.Machine.execCounterClear path addr s
  | .aliasWrite path addr w => Sys2Proof.Machine.execAliasWrite path addr w s
  | .writeLo path addr w => Sys2Proof.Machine.execWriteLo path addr w s
  | .writeHi path addr w => Sys2Proof.Machine.execWriteHi path addr w s
  | .indexWrite path addr w => Sys2Proof.Machine.execIndexWrite path addr w s
  | .dataRead path addr => Sys2Proof.Machine.execDataRead path addr s
  | .dataWrite path addr w => Sys2Proof.Machine.execDataWrite path addr w s
  | .spiReadInc addr count => Sys2Proof.Machine.execSpiReadInc addr count s
  | .spiReadFixed addr count => Sys2Proof.Machine.execSpiReadFixed addr count s
  | .spiWriteInc addr bytes => Sys2Proof.Machine.execSpiWriteInc addr bytes s
  | .spiWriteFixed addr bytes => Sys2Proof.Machine.execSpiWriteFixed addr bytes s
  | .strobe path w => Sys2Proof.Machine.execStrobe path w s
  | .strobeProofDone => Sys2Proof.Machine.execStrobeProofDone s
  | .openSession f hostNonce => Sys2Proof.Machine.execOpenSession f hostNonce s
  | .openTimeout => Sys2Proof.Machine.execOpenTimeout s
  | .close f => Sys2Proof.Machine.execClose f s
  | .sessionCloseReg path => Sys2Proof.Machine.execSessionCloseReg path s
  | .ack f => Sys2Proof.Machine.execAck f s
  | .keepalive f => Sys2Proof.Machine.execKeepalive f s
  | .ackDue => Sys2Proof.Machine.execAckDue s
  | .keepaliveTimer => Sys2Proof.Machine.execKeepaliveTimer s
  | .retxTimeout => Sys2Proof.Machine.execRetxTimeout s
  | .linkDown l => Sys2Proof.Machine.execLinkDown l s
  | .linkUp l partner1000 => Sys2Proof.Machine.execLinkUp l partner1000 s
  | .linkSleepRequest l => Sys2Proof.Machine.execLinkSleepRequest l s
  | .linkWakeup l => Sys2Proof.Machine.execLinkWakeup l s
  | .linkWakeRequest path l => Sys2Proof.Machine.execLinkWakeRequest path l s
  | .arpRequest l frame target senderIp senderMac => Sys2Proof.Machine.execArpRequest l frame target senderIp senderMac s
  | .neighbourSolicitation l frame target senderIp senderMac => Sys2Proof.Machine.execNeighbourSolicitation l frame target senderIp senderMac s
  | .doorbellSubmit f target index rest => Sys2Proof.Machine.execDoorbellSubmit f target index rest s
  | .doorbellCplCi f target index rest => Sys2Proof.Machine.execDoorbellCplCi f target index rest s
  | .doorbellPrecCi f target index rest => Sys2Proof.Machine.execDoorbellPrecCi f target index rest s
  | .doorbellEqCi f target index rest => Sys2Proof.Machine.execDoorbellEqCi f target index rest s
  | .ringPoll ring => Sys2Proof.Machine.execRingPoll ring s
  | .readResp f id status data => Sys2Proof.Machine.execReadResp f id status data s
  | .regRd f addr count fixed extra => Sys2Proof.Machine.execRegRd f addr count fixed extra s
  | .regWr f addr count fixed words extra => Sys2Proof.Machine.execRegWr f addr count fixed words extra s
  | .ringRun path ring => Sys2Proof.Machine.execRingRun path ring s
  | .ringStop path ring => Sys2Proof.Machine.execRingStop path ring s
  | .ringReset path ring => Sys2Proof.Machine.execRingReset path ring s
  | .ringResume path ring => Sys2Proof.Machine.execRingResume path ring s
  | .precEnable path pipe w => Sys2Proof.Machine.execPrecEnable path pipe w s
  | .nop ring h body => Sys2Proof.Machine.execNop ring h body s
  | .jump ring h body => Sys2Proof.Machine.execJump ring h body s
  | .layerWords ring h body => Sys2Proof.Machine.execLayerWords ring h body s
  | .layerBlock ring h body => Sys2Proof.Machine.execLayerBlock ring h body s
  | .objWords ring h body => Sys2Proof.Machine.execObjWords ring h body s
  | .objBlock ring h body => Sys2Proof.Machine.execObjBlock ring h body s
  | .lutLoad ring h body => Sys2Proof.Machine.execLutLoad ring h body s
  | .matrix ring h body => Sys2Proof.Machine.execMatrix ring h body s
  | .loftLoad ring h body => Sys2Proof.Machine.execLoftLoad ring h body s
  | .fenceAcq ring h body => Sys2Proof.Machine.execFenceAcq ring h body s
  | .commit ring h body => Sys2Proof.Machine.execCommit ring h body s
  | .winnowProofEnd => Sys2Proof.Machine.execWinnowProofEnd s
  | .copy ring h body => Sys2Proof.Machine.execCopy ring h body s
  | .fill ring h body => Sys2Proof.Machine.execFill ring h body s
  | .write32 ring h body => Sys2Proof.Machine.execWrite32 ring h body s
  | .dmaDescDone chan rep => Sys2Proof.Machine.execDmaDescDone chan rep s
  | .triggerTimer chan => Sys2Proof.Machine.execTriggerTimer chan s
  | .engineHalt => Sys2Proof.Machine.execEngineHalt s
  | .engineRestart path => Sys2Proof.Machine.execEngineRestart path s
  | .scanGo path engine => Sys2Proof.Machine.execScanGo path engine s
  | .scanStop path engine => Sys2Proof.Machine.execScanStop path engine s
  | .scanDone engine how => Sys2Proof.Machine.execScanDone engine how s
  | .frameStart pipe granEcc => Sys2Proof.Machine.execFrameStart pipe granEcc s
  | .commitDeadline stook => Sys2Proof.Machine.execCommitDeadline stook s
  | .fencePoll => Sys2Proof.Machine.execFencePoll s
  | .linePositionStep pipe rep => Sys2Proof.Machine.execLinePositionStep pipe rep s
  | .lastBaleFetched slot => Sys2Proof.Machine.execLastBaleFetched slot s
  | .loftLoadDone pipe => Sys2Proof.Machine.execLoftLoadDone pipe s
  | .eccUncorrectable addr user => Sys2Proof.Machine.execEccUncorrectable addr user s
  | .eccRereadDone chan correct => Sys2Proof.Machine.execEccRereadDone chan correct s
  | .unitFailure unit cause => Sys2Proof.Machine.execUnitFailure unit cause s
  | .mcRecoveryDone => Sys2Proof.Machine.execMcRecoveryDone s
  | .reproofDone => Sys2Proof.Machine.execReproofDone s
  | .linkRecoveryDone l => Sys2Proof.Machine.execLinkRecoveryDone l s
  | .retirementRecord => Sys2Proof.Machine.execRetirementRecord s
  | .rrecConsume path w => Sys2Proof.Machine.execRrecConsume path w s
  | .rrecEnable path w => Sys2Proof.Machine.execRrecEnable path w s
  | .retestGo path w => Sys2Proof.Machine.execRetestGo path w s
  | .retestDone result => Sys2Proof.Machine.execRetestDone result s
  | .rotationSwap => Sys2Proof.Machine.execRotationSwap s
  | .lbistResult result => Sys2Proof.Machine.execLbistResult result s
  | .rotationLate lane => Sys2Proof.Machine.execRotationLate lane s
  | .pllLocked pll => Sys2Proof.Machine.execPllLocked pll s
  | .pllLockTimeout pll => Sys2Proof.Machine.execPllLockTimeout pll s
  | .teEdge pipe => Sys2Proof.Machine.execTeEdge pipe s
  | .teMissing pipe => Sys2Proof.Machine.execTeMissing pipe s
  | .camLockLost pipe => Sys2Proof.Machine.execCamLockLost pipe s
  | .hpdHigh group sinkOk => Sys2Proof.Machine.execHpdHigh group sinkOk s
  | .hpdLowTimeout group => Sys2Proof.Machine.execHpdLowTimeout group s
  | .hpdPulse group lanesLocked => Sys2Proof.Machine.execHpdPulse group lanesLocked s
  | .hpdWaitTimeout group => Sys2Proof.Machine.execHpdWaitTimeout group s
  | .linkReady group => Sys2Proof.Machine.execLinkReady group s
  | .pktGo path group => Sys2Proof.Machine.execPktGo path group s
  | .pktDone group ok resp => Sys2Proof.Machine.execPktDone group ok resp s
  | .pktDataPush path group w => Sys2Proof.Machine.execPktDataPush path group w s
  | .pktDataPop path group => Sys2Proof.Machine.execPktDataPop path group s
  | .camFrameStart cam => Sys2Proof.Machine.execCamFrameStart cam s
  | .camLine cam headerOk crcOk bytes => Sys2Proof.Machine.execCamLine cam headerOk crcOk bytes s
  | .camLineWritten cam => Sys2Proof.Machine.execCamLineWritten cam s
  | .camFrameEnd cam => Sys2Proof.Machine.execCamFrameEnd cam s
  | .ptpSync domain offset ratePpb => Sys2Proof.Machine.execPtpSync domain offset ratePpb s
  | .ptpPdelayReq domain seqId => Sys2Proof.Machine.execPtpPdelayReq domain seqId s
  | .ptpPdelayTimer => Sys2Proof.Machine.execPtpPdelayTimer s
  | .timeHoldover => Sys2Proof.Machine.execTimeHoldover s
  | .zoneUpdate pipe => Sys2Proof.Machine.execZoneUpdate pipe s
  | .blinkPhase genB => Sys2Proof.Machine.execBlinkPhase genB s
  | .bulbCheckEnd => Sys2Proof.Machine.execBulbCheckEnd s
  | .ttOpenLoad ch => Sys2Proof.Machine.execTtOpenLoad ch s
  | .ttOffTest ch isOpen => Sys2Proof.Machine.execTtOffTest ch isOpen s
  | .ttShort ch => Sys2Proof.Machine.execTtShort ch s
  | .ttShortRetry ch stillShort => Sys2Proof.Machine.execTtShortRetry ch stillShort s
  | .canFrameReceived bus ide id remote data => Sys2Proof.Machine.execCanFrameReceived bus ide id remote data s
  | .mapperTimeout entry => Sys2Proof.Machine.execMapperTimeout entry s
  | .canStatusTx bus => Sys2Proof.Machine.execCanStatusTx bus s
  | .busOff bus => Sys2Proof.Machine.execBusOff bus s
  | .snsChange pin level => Sys2Proof.Machine.execSnsChange pin level s
  | .eventOccurrence source level => Sys2Proof.Machine.execEventOccurrence source level s
  | .resample source => Sys2Proof.Machine.execResample source s
  | .eventRecordIssue => Sys2Proof.Machine.execEventRecordIssue s
  | .sourceComplete path source => Sys2Proof.Machine.execSourceComplete path source s
  | .sourceMask path source mask => Sys2Proof.Machine.execSourceMask path source mask s
  | .queueSleep path queue => Sys2Proof.Machine.execQueueSleep path queue s
  | .queueAwake path queue => Sys2Proof.Machine.execQueueAwake path queue s
  | .qmaskClear path queue => Sys2Proof.Machine.execQmaskClear path queue s
  | .spiFlagClear path source => Sys2Proof.Machine.execSpiFlagClear path source s
  | .rawFlush path => Sys2Proof.Machine.execRawFlush path s
  | .rawErase path => Sys2Proof.Machine.execRawErase path s
  | .rawDone ok => Sys2Proof.Machine.execRawDone ok s
  | .journalWrite path => Sys2Proof.Machine.execJournalWrite path s
  | .jwDone => Sys2Proof.Machine.execJwDone s
  | .journalRead path => Sys2Proof.Machine.execJournalRead path s
  | .jrDone => Sys2Proof.Machine.execJrDone s
  | .gleanerRun => Sys2Proof.Machine.execGleanerRun s
  | .sectorRetired sector erase => Sys2Proof.Machine.execSectorRetired sector erase s
  | .faultSummaryWrite => Sys2Proof.Machine.execFaultSummaryWrite s
  | .perfStart path => Sys2Proof.Machine.execPerfStart path s
  | .perfStop path => Sys2Proof.Machine.execPerfStop path s
  | .perfWindowEnd => Sys2Proof.Machine.execPerfWindowEnd s
  | .pwmPeriodBoundary => Sys2Proof.Machine.execPwmPeriodBoundary s
  | .wakePulseEnd => Sys2Proof.Machine.execWakePulseEnd s
  | .busOffRecovery bus => Sys2Proof.Machine.execBusOffRecovery bus s
  | .canBusError bus tec rec => Sys2Proof.Machine.execCanBusError bus tec rec s
  | .ttCheckPass ch => Sys2Proof.Machine.execTtCheckPass ch s
  | .sectorEraseDone sector => Sys2Proof.Machine.execSectorEraseDone sector s
  | .ptpPdelayResp domain seqId delayNs => Sys2Proof.Machine.execPtpPdelayResp domain seqId delayNs s

end Sys2Proof.Machine
end

