-- ==== Sys2Proof/WellFormed.lean ====
section
/-! DEFINITION. Which commands are well-formed: the bounds that the manual sets on what reaches the module from outside, and that
the types of the operands do not carry. The machine is total on every command; these bounds say which the manual can send. -/

namespace Sys2Proof

/-! How a command reaches the module. -/

/-- The frame that a command is, if it is one (spec 04). -/
def Instr.frame : Instr → Option RxFrame
  | .openSession f _ => some f
  | .close f => some f
  | .ack f => some f
  | .keepalive f => some f
  | .doorbellSubmit f _ _ _ => some f
  | .doorbellCplCi f _ _ _ => some f
  | .doorbellPrecCi f _ _ _ => some f
  | .doorbellEqCi f _ _ _ => some f
  | .readResp f _ _ _ => some f
  | .regRd f _ _ _ _ => some f
  | .regWr f _ _ _ _ _ => some f
  | _ => none

/-- The access path of a command that is a register access (spec 03, R61). -/
def Instr.path : Instr → Option Path
  | .softReset p _ _ => some p
  | .regWrite p _ _ => some p
  | .counterClear p _ => some p
  | .aliasWrite p _ _ => some p
  | .writeLo p _ _ => some p
  | .writeHi p _ _ => some p
  | .indexWrite p _ _ => some p
  | .dataRead p _ => some p
  | .dataWrite p _ _ => some p
  | .spiReadInc _ _ => some .spi
  | .spiReadFixed _ _ => some .spi
  | .spiWriteInc _ _ => some .spi
  | .spiWriteFixed _ _ => some .spi
  | .strobe p _ => some p
  | .sessionCloseReg p => some p
  | .linkWakeRequest p _ => some p
  | .ringRun p _ => some p
  | .ringStop p _ => some p
  | .ringReset p _ => some p
  | .ringResume p _ => some p
  | .precEnable p _ _ => some p
  | .engineRestart p => some p
  | .scanGo p _ => some p
  | .scanStop p _ => some p
  | .rrecConsume p _ => some p
  | .rrecEnable p _ => some p
  | .retestGo p _ => some p
  | .pktGo p _ => some p
  | .pktDataPush p _ _ => some p
  | .pktDataPop p _ => some p
  | .sourceComplete p _ => some p
  | .sourceMask p _ _ => some p
  | .queueSleep p _ => some p
  | .queueAwake p _ => some p
  | .qmaskClear p _ => some p
  | .spiFlagClear p _ => some p
  | .rawFlush p => some p
  | .rawErase p => some p
  | .journalWrite p => some p
  | .journalRead p => some p
  | .perfStart p => some p
  | .perfStop p => some p
  | _ => none

/-- The ring of a command that is a descriptor (spec 04, R101). -/
def Instr.descriptor : Instr → Option (Fin 32)
  | .nop r _ _ => some r
  | .jump r _ _ => some r
  | .layerWords r _ _ => some r
  | .layerBlock r _ _ => some r
  | .objWords r _ _ => some r
  | .objBlock r _ _ => some r
  | .lutLoad r _ _ => some r
  | .matrix r _ _ => some r
  | .loftLoad r _ _ => some r
  | .fenceAcq r _ _ => some r
  | .commit r _ _ => some r
  | .copy r _ _ => some r
  | .fill r _ _ => some r
  | .write32 r _ _ => some r
  | _ => none

/-! The checks. -/

/-- A frame's body is at most 1,056 bytes and lies in the frame (R85, R86). -/
def RxFrame.bodyFits (f : RxFrame) : Bool := decide (f.length.toNat ≤ 1056) && decide (f.length.toNat ≤ f.room)

/-- A DOORBELL carries 1 to 16 entries (R88). -/
def doorEntriesOk (rest : List DbEntry) : Bool := decide (rest.length ≤ 15)

/-- A READ_RESP carries at most 1,024 bytes (R88, R112). -/
def respDataOk (data : List Byte) : Bool := decide (data.length ≤ 1024)

/-- A REG_WR carries at most 64 words (R88). -/
def regWordsOk (words : List Word) : Bool := decide (words.length ≤ 64)

/-- A CAN frame carries at most 64 bytes (spec 12, R311; ISO 11898-1). -/
def canDataOk (data : List Byte) : Bool := decide (data.length ≤ 64)

/-- A panel's response fits the packet buffer of 64 bytes (R296). -/
def packetRespOk (resp : List Byte) : Bool := decide (resp.length ≤ 64)

/-- A CSI-2 long packet carries at most 65,535 bytes (R287). -/
def camBytesOk (bytes : List Byte) : Bool := decide (bytes.length ≤ 65535)

/-- A sector that can be erased: of the journal (0 to 127) or of the fault log (128 to 191) (R385). -/
def sectorOk (sector : Nat) : Bool := decide (sector < 192)

/-- A class's PD power is at most 63 W, what P_AV can show (R81). -/
def wattsOk (watts : Nat) : Bool := decide (watts ≤ 63)

/-- A re-read belongs to one of the memory addresses that exist (R149). -/
def addressOk (addr : Nat) : Bool := decide (addr < 4 * 0x70000000)

/-- Well-formed commands. -/
def Instr.wf : Instr → Bool
  | .podlClassified _ watts _ => wattsOk watts
  | .openSession f _ => f.bodyFits
  | .close f => f.bodyFits
  | .ack f => f.bodyFits
  | .keepalive f => f.bodyFits
  | .doorbellSubmit f _ _ rest => f.bodyFits && doorEntriesOk rest
  | .doorbellCplCi f _ _ rest => f.bodyFits && doorEntriesOk rest
  | .doorbellPrecCi f _ _ rest => f.bodyFits && doorEntriesOk rest
  | .doorbellEqCi f _ _ rest => f.bodyFits && doorEntriesOk rest
  | .readResp f _ _ data => f.bodyFits && respDataOk data
  | .regRd f _ _ _ _ => f.bodyFits
  | .regWr f _ _ _ words _ => f.bodyFits && regWordsOk words
  | .canFrameReceived _ _ _ _ data => canDataOk data
  | .pktDone _ _ resp => packetRespOk resp
  | .camLine _ _ _ bytes => camBytesOk bytes
  | .sectorEraseDone sector => sectorOk sector
  | .eccUncorrectable addr _ => addressOk addr
  | _ => true

end Sys2Proof
end

