-- ==== Sys2Proof/Safety.lean ====
section
/-! DEFINITION. What statements about the machine are said in: a command that completes, what two states share, and the
conditions of the manual that a run keeps. -/

namespace Sys2Proof.Machine

/-- What word `i` of a REG_RD answers, value and status: it is read from the state that the words before it left (R99). -/
def wordRead (s : State) (addr : Word) (fixed : Bool) (i : Nat) : Word × Nat :=
  (accessRead (readRun s addr i fixed).s .haywain (wordAddr addr fixed i)).2

/-- The command completes and leaves state `t`; the queue of waiting commands is the step's own. -/
def Leaves (c : Instr) (s t : State) : Prop := exec c s = .next { t with pending := s.pending }

/-- The command completes, and `P` holds of the state that it leaves. -/
def Ends (c : Instr) (s : State) (P : State → Prop) : Prop := ∃ t, exec c s = .next t ∧ P t

/-- The command completes, and `P` holds of the state that it leaves before what waited goes on: rings, reads and the ports (R92,
R111, R234). -/
def Settles (c : Instr) (s : State) (P : State → Prop) : Prop := ∃ u, exec c s = .next { settle u with pending := s.pending } ∧ P u

/-- A powered module: the rails are up (R49). -/
def State.isUp (s : State) : Prop := s.pow.power = .up

/-- A powered module that answers register accesses on a path: all of them once it has started, JTAG and the SPI target while it is
held in step 2 (R388). -/
def State.takes (s : State) (path : Path) : Prop := s.isUp ∧ s.serves path = true

/-- The two states hold the same bytes of device memory at every address. -/
def SameMemory (s t : State) : Prop := ∀ a, t.memByte a = s.memByte a

/-- The two states hold the same bytes of device memory outside `n` bytes from `a`. -/
def SameMemoryBut (a n : Nat) (s t : State) : Prop := ∀ x, x < a ∨ a + n ≤ x → t.memByte x = s.memByte x

/-- The two states agree on every register but those whose addresses satisfy `P`. -/
def SameRegsBut (P : Nat → Prop) (s t : State) : Prop := ∀ a, ¬P a → t.reg a = s.reg a

/-- The parts of the state beside the queue. -/
inductive Part where
  | free | regs | pow | time | hw | out | rings | precHeld | precSize | queueSizes | scene | mem | lost | loft | pipes
  | bins | camLines | camLags | camEarly | furrowStore | gates | gcl | levels | fetches | src | sampleDue | wins | dma
  | dmaHalted | scans | cams | groups | light | fault | barn | perf
deriving DecidableEq, Repr

/-- Two states agree in a part. -/
def Part.same (s t : State) : Part → Prop
  | .free => t.free = s.free
  | .regs => t.regs = s.regs
  | .pow => t.pow = s.pow
  | .time => t.time = s.time
  | .hw => t.hw = s.hw
  | .out => t.out = s.out
  | .rings => t.rings = s.rings
  | .precHeld => t.precHeld = s.precHeld
  | .precSize => t.precSize = s.precSize
  | .queueSizes => t.queueSizes = s.queueSizes
  | .scene => t.scene = s.scene
  | .mem => t.mem = s.mem
  | .lost => t.lost = s.lost
  | .loft => t.loft = s.loft
  | .pipes => t.pipes = s.pipes
  | .bins => t.bins = s.bins
  | .camLines => t.camLines = s.camLines
  | .camLags => t.camLags = s.camLags
  | .camEarly => t.camEarly = s.camEarly
  | .furrowStore => t.furrowStore = s.furrowStore
  | .gates => t.gates = s.gates
  | .gcl => t.gcl = s.gcl
  | .levels => t.levels = s.levels
  | .fetches => t.fetches = s.fetches
  | .src => t.src = s.src
  | .sampleDue => t.sampleDue = s.sampleDue
  | .wins => t.wins = s.wins
  | .dma => t.dma = s.dma
  | .dmaHalted => t.dmaHalted = s.dmaHalted
  | .scans => t.scans = s.scans
  | .cams => t.cams = s.cams
  | .groups => t.groups = s.groups
  | .light => t.light = s.light
  | .fault => t.fault = s.fault
  | .barn => t.barn = s.barn
  | .perf => t.perf = s.perf

/-- Outside the parts listed, the two states are the same. -/
def TouchesOnly (l : List Part) (s t : State) : Prop := ∀ p, p ∉ l → p.same s t

/-- The parts that raising an event or sending a frame can touch: registers, WAKE_OUT, transport state, the output log and the
event sources; and the counter of free values. -/
def Part.shared : List Part := [.free, .regs, .pow, .hw, .out, .src]

/-- The two states agree on every register outside block EVT but those whose addresses satisfy `P`. -/
def OnlyRegs (P : Nat → Prop) (s t : State) : Prop := ∀ a, ¬P a → (a < 0xA0000 ∨ 0xB0000 ≤ a) → t.reg a = s.reg a

/-- A locked write at an address: it is LOCK_VIOLATION's, source 4, once, from a state in which no source has occurred (R17, R82). -/
def FiresLockViolation (s : State) (path : Path) (a : Nat) : Prop :=
  ∃ u : State, lockedWrite s path a = raise u 4 ∧ u.src = s.src ∧ ∀ k : Fin 1024, u.reg (A.evtSrcStat k) = s.reg (A.evtSrcStat k)

/-- A write of a word is answered as a locked one, with a status, and fires LOCK_VIOLATION (R17, R82, R99). -/
def LockedOut (s : State) (path : Path) (addr w : Word) (st : Nat) : Prop :=
  accessWrite s path addr w = refuse s path addr.toNat st ∧ (refuse s path addr.toNat st).s = lockedWrite s path addr.toNat ∧
  FiresLockViolation s path addr.toNat

/-- The sequenced frames in send order, type and body: those that await their acknowledgement, then those that wait to go (R94). -/
def State.sendOrder (s : State) : List (BitVec 8 × List Byte) := (s.hw.unacked ++ s.hw.waiting).map (fun f => (f.kind, f.body))

/-- The record that source `k` issues to its queue now, byte by byte as R335 lays it out. -/
def recordOf (s : State) (k : Nat) : List Byte :=
  let q := s.fld (F.evtSrcCfgQueue k)
  leBytes 2 k ++ leBytes 1 (s.fld (F.evtSrcStatCount k)) ++
  leBytes 1 (((s.reg (A.evtQpi q)).toNat / queueSize s q + 1) % 2 + 2 * (s.source k).saturated.toNat +
    4 * (s.source k).resampled.toNat + 8 * (s.source k).moved.toNat + 16 * s.fld (F.evtSrcCfgExplicit k) +
    32 * (isLevel s k && s.flag (F.evtSrcStatAsserted k)).toNat) ++
  leBytes 4 (s.source k).detail.toNat ++ leBytes 6 (s.source k).stamp.toNat ++ leBytes 2 0

/-- No POWER_GOOD waits in the queue. -/
def NoPowerGood (l : List Instr) : Prop := ∀ c ∈ l, ∀ rep, c ≠ .powerGood rep

/-- The module has lost its line and no power comes back (R51, R52). -/
def State.dark (s : State) : Prop := s.pow.power = .down ∧ NoPowerGood s.pending

/-- Every waiting command is one that the manual can send. -/
def State.queueOk (s : State) : Prop := ∀ c ∈ s.pending, c.wf = true

/-! Tables behind INDEX and DATA (R75 to R77). Pairs are numbered in the order of R75. -/

/-- The INDEX register of a pair. -/
def pairIndex (k : Fin 7) : Nat :=
  nth 0 [A.objGranIndex, A.objLoftIndex, A.layerLutIndex, A.pipeLutIndex, A.schedGclIndex, A.barnIndex, A.perfSnapIndex] k

/-- The DATA register of a pair, as an access names it. -/
def pairData (k : Fin 7) : Word := BitVec.ofNat 32 (pairIndex k + 4)

/-- A path's INDEX of a pair holds TABLE and WORD. -/
def Selects (s : State) (path : Path) (k table w : Nat) : Prop :=
  bits (bankOf s path k).index 27 24 = table ∧ bits (bankOf s path k).index 23 0 = w

/-- A DATA access within the table: WORD has stepped on under AUTO_INC, ERR is set where `err` says so, and no other bank has
changed. -/
def Stepped (s t : State) (path : Path) (k : Fin 7) (err : Word) : Prop :=
  bits (bankOf t path k).index 23 0 = (bits (bankOf s path k).index 23 0 + ((bankOf s path k).index.getLsbD 28).toNat) % 16777216 ∧
  bits (bankOf t path k).index 31 24 = bits ((bankOf s path k).index ||| err) 31 24 ∧
  ∀ q (j : Fin 7), q ≠ path ∨ j ≠ k → bankOf t q j = bankOf s q j

/-- The words that a path has buffered of the entry of word `w`. -/
def bufferedWords (s : State) (path : Path) (k table w : Nat) : SMap Word :=
  match (bankOf s path k).buf with
  | some (t, f, m) => if t = table ∧ f = w / pairEntry k * pairEntry k then m else []
  | none => []

/-- Word `x` of a table once word `w`, the last of its entry, has been written with `v`: `v` there, in the entry's other words what
was buffered, and `old` everywhere else. -/
def writtenWord (s : State) (path : Path) (k table w : Nat) (v : Word) (x : Nat) (old : Word) : Word :=
  if x = w then v
  else if x / pairEntry k = w / pairEntry k then (smFind (bufferedWords s path k table w) (x % pairEntry k)).getD old
  else old

/-! Frames of a session (R85 to R97). -/

/-- The frame that a command is, other than an OPEN: header, type and the bytes that its operands spell. -/
def messageOf : Instr → Option (RxFrame × Nat × List Byte)
  | .close f => some (f, tyClose, [])
  | .ack f => some (f, tyAck, [])
  | .keepalive f => some (f, tyKeepalive, [])
  | .doorbellSubmit f t i r => some (f, tyDoorbell, (DbEntry.mk 0 t 0 i :: r).flatMap doorBytes)
  | .doorbellCplCi f t i r => some (f, tyDoorbell, (DbEntry.mk 1 t 0 i :: r).flatMap doorBytes)
  | .doorbellPrecCi f t i r => some (f, tyDoorbell, (DbEntry.mk 2 t 0 i :: r).flatMap doorBytes)
  | .doorbellEqCi f t i r => some (f, tyDoorbell, (DbEntry.mk 3 t 0 i :: r).flatMap doorBytes)
  | .readResp f id st d => some (f, tyReadResp, leBytes 2 id.toNat ++ leBytes 1 st.toNat ++ [0] ++ d)
  | .regRd f a n x e => some (f, tyRegRd, regHead a n x.toNat 0 ++ e)
  | .regWr f a n x ws e => some (f, tyRegWr, regHead a n x.toNat 0 ++ ws.flatMap (fun w => leBytes 4 w.toNat) ++ e)
  | _ => none

/-- A frame of the session in hand that passes every check of R85 and its tag. -/
def Verified (s : State) (f : RxFrame) (kind : Nat) (bytes : List Byte) : Prop :=
  listens (rxConfig s f.session) f = true ∧ s.pow.started = true ∧ frameSound (rxConfig s f.session) f kind = true ∧
  ∃ c body, sessionOf s f.session = some (c, false) ∧ rxBody f bytes = some body ∧
    tagOf s (some c.devNonce) (rxHeader f kind) body = f.tag

/-- What the header of a verified frame brings: counters of its link, its ACK value, the return to LINK_A, and
frames that have waited for room. -/
def received (s : State) (f : RxFrame) : State := pump (backToA (takeAck (linkRecovered (countRx s f) f.link) f.ack) f.link)

/-- A verified frame that is the next in sequence. -/
def InSequence (s : State) (f : RxFrame) (kind : Nat) (bytes : List Byte) : Prop :=
  Verified s f kind bytes ∧ f.seq = (received s f).hw.rxLast + 1

/-- The state in which a frame in sequence acts. -/
def accepted (s : State) (f : RxFrame) : State := acceptSeq (received s f) f.seq

/-! Descriptors (R101 to R103). -/

/-- A ring that serves a descriptor now: it runs and is not about to stop, nothing is in hand, and its chain goes on or the host has
submitted the slot. -/
def Serves (s : State) (n : Nat) : Prop :=
  ringRuns s n = true ∧ ringKind s n ≠ 0 ∧ (s.ring n).inHand = none ∧ (s.ring n).waitCommit = none ∧ (s.ring n).buf = [] ∧
  (s.ring n).halt = none ∧ ((s.ring n).chain ≠ none ∨ ((s.ring n).stopping = false ∧ s.reg (A.ringPi n) ≠ s.reg (A.ringCi n)))

/-- The state in which the rings go on once a descriptor has reached its ring: from the chain, or from the slot at CI. -/
def fetched (s : State) (n : Nat) (kind : BitVec 8) (h : DescHdr) (body : DescBody) : State :=
  match (s.ring n).chain with
  | some (_, slot) =>
    s.setRing n { s.ring n with reading := none, buf := [{ kind := kind, h := h, body := body, index := slot, chain := true }] }
  | none =>
    (s.setRing n { s.ring n with reading := none, buf :=
      [{ kind := kind, h := h, body := body, index := s.reg (A.ringCi n), chain := false }] }).setReg (A.ringCi n)
        (s.reg (A.ringCi n) + 1)

/-- The slot of the descriptor that ring `n` serves next: its chain's, or the slot at CI. -/
def servedSlot (s : State) (n : Nat) : BitVec 32 :=
  match (s.ring n).chain with
  | some (_, slot) => slot
  | none => s.reg (A.ringCi n)

/-- Ring `n` is a SCENE ring that serves a descriptor within its batch, and the module's only ring. -/
def ServesScene (s : State) (n : Nat) : Prop :=
  s.isUp ∧ Serves s n ∧ ringKind s n = 1 ∧ s.rings.map (·.1) = [n] ∧ (s.ring n).batch + 1 ≤ hopLimit s

/-- The staging set of ring `n` once the descriptor that it serves next has proved bad: poisoned, and else as it was (R120). -/
def poisonedSet (s : State) (n : Nat) : Scene :=
  { stagingOf s n with poison := (stagingOf s n).poison.or (some (servedSlot s n)) }

/-- Ring `n` is a DMA ring that serves a descriptor within its batch, the module's only ring, and its channel `c` is idle and in
service. -/
def ServesDma (s : State) (n c : Nat) : Prop :=
  s.isUp ∧ Serves s n ∧ ringKind s n = 2 ∧ ringChannel s n = c ∧ c < 28 ∧ s.rings.map (·.1) = [n] ∧
  (s.ring n).batch + 1 ≤ hopLimit s ∧ s.dmaHalted = false ∧ prefetched s < 64 ∧ (s.chan c).inHand = none ∧ (s.chan c).queue = [] ∧
  (s.unit (dmaUnit c)).retired = false

/-- A READ_REQ of some bytes at a host address is wanted. -/
def Asks (s : State) (addr len : Nat) : Prop := ∃ r ∈ s.hw.reads, r.addr = addr ∧ r.len = len

/-- SPI_FLAG of a source after an occurrence of it (R345; log 67). -/
def SpiMarked (s t : State) (k : Nat) : Prop :=
  t.fld (F.evtSrcStatSpiFlag k) = if s.flag (F.evtSrcCfgSpi k) then 1 else s.fld (F.evtSrcStatSpiFlag k)

/-! What resets, frame starts and failures leave. -/

/-- What a reset leaves on a module without a valid bank, which it holds in step 2 (R388): the causes in RESET_CAUSE, no session, no
ring, no scene staged or armed, the clocks at 0 and the rails up. Where the rails stayed on, device memory keeps its bytes. -/
def ResetHolds (s t : State) (cause : Nat) (memory : Bool) : Prop :=
  t.reg A.sysResetCause = BitVec.ofNat 32 cause ∧ t.isUp ∧ t.pow.started = false ∧ t.hw.cur = none ∧ t.rings = [] ∧
  t.scene = sceneReset ∧ t.time = timeReset ∧ (memory = true → SameMemory s t)

/-- The bank that a reset from state `s` selects: the barn's work in hand is ended first (log 17). -/
def bankAfter (s : State) : Option Nat := selectBank (if s.pow.power = .up then stopBarn s true else s).barn

/-- What BOARD_RESERVE is after a reset: the boot image's, or 0 without a valid bank. -/
def reserveAfter (s : State) : Nat :=
  match bankAfter s with
  | some b => min 40 (Config.bootImage (partBytes (if s.pow.power = .up then stopBarn s true else s).barn b 0)).boardReserve
  | none => 0

/-- The profile that the power then available selects; none below 8 W (R41, log 8). -/
def classAfter (s : State) (step1 : Bool) : Option Nat := classProfile { s with pow := powerAfter s.pow step1 } (reserveAfter s)

/-- What a start sequence from a valid bank leaves: the module runs from that bank, its lanes rotate, VLED is up, and no session is
open. -/
def StartedWith (t : State) (b : Nat) : Prop :=
  t.isUp ∧ t.pow.started = true ∧ t.pow.vled = true ∧ t.hw.cur = none ∧ t.hw.opening = none ∧ t.fld F.barnBankSel = b

/-- A unit that may fail without being retired: in service and in no recovery or retest, with fewer than three failures in 10 ms. -/
def FailsFirst (s : State) (u : Nat) : Prop :=
  (s.unit u).retired = false ∧ (s.unit u).recovery = false ∧ s.fault.retest ≠ some u ∧ (recentFails s u).length ≤ 2

/-- A failure of a unit that it recovers from: FAILURES counts it and LAST shows it. -/
def FailureShown (s t : State) (u cause : Nat) : Prop :=
  t.fld F.faultFailuresCount = min 16777215 (s.fld F.faultFailuresCount + 1) ∧ t.fld F.faultLastKind = 1 ∧
  t.fld F.faultLastUnit = u ∧ t.fld F.faultLastCause = cause ∧ t.fld F.faultLastFails = (recentFails s u).length + 1

/-- A unit recovers from a failure: it is in recovery, and no other unit changes. -/
def Recovers (s t : State) (u cause : Nat) : Prop :=
  t.unit u = { s.unit u with fails := recentFails s u ++ [s.time.uptime], recovery := true } ∧ (∀ v, v ≠ u → t.unit v = s.unit v) ∧
  FailureShown s t u cause

/-- The frame that a pipe begins: FRAME has its number, the generator runs, and the bus stands before line 0. -/
def FrameBegun (s t : State) (p : Nat) : Prop :=
  t.reg (A.pipeFrame p) = nextFrame s p ∧ (t.pipe p).gen = .running ∧ (t.pipe p).line = 0 ∧ (t.pipe p).unit = 0 ∧
  (t.pipe p).fresh = true ∧ (t.pipe p).teDue = none

/-- The bus of a pipe enters unit 0 of a line that it has not been in. -/
def EntersLine (s : State) (p y : Nat) : Prop := nextPosition s p = some (y, 0, false)

/-- A line of pixels on a link. -/
def isPixels : Out → Bool
  | .pixels _ _ _ => true
  | _ => false

/-- The lines of pixels that have gone out since are just these. -/
def NewPixels (s t : State) (l : List Out) : Prop := ∃ r, t.out = s.out ++ r ∧ r.filter isPixels = l

/-- A lane group's failure that its link recovers from: the group is in recovery, with the other of its pair, whose link it is
(R293), its head is in RECOVERY, its own CAUSE shows it and LINK_FAILS counts it. -/
def GroupRecovers (s t : State) (g cause : Nat) : Prop :=
  t.unit (0x30 + g) = { s.unit (0x30 + g) with fails := recentFails s (0x30 + g) ++ [s.time.uptime], recovery := true } ∧
  (∀ k, pairMate s g = some k → t.unit (0x30 + k) = { s.unit (0x30 + k) with recovery := true }) ∧
  (∀ v, v ≠ 0x30 + g → (∀ k, pairMate s g = some k → v ≠ 0x30 + k) → t.unit v = s.unit v) ∧
  FailureShown s t (0x30 + g) cause ∧ groupState t (linkHead s g) = 3 ∧ t.fld (F.laneStatCause g) = cause - 0x10 ∧
  t.fld F.laneLinkFailsCount = min 65535 (s.fld F.laneLinkFailsCount + 1)

/-- What the current record of a key holds: its SEQ and its payload (R394). -/
def keyHolds (b : BarnState) (key : Nat) : Nat × List Byte := ((smGet (0, [], 0) b.cur key).1, (smGet (0, [], 0) b.cur key).2.1)

/-- A byte of the NOR is one of the four of a word of a page. -/
def wordAt (page i x : Nat) : Bool := decide (256 * page + 4 * i ≤ x ∧ x < 256 * page + 4 * i + 4)

/-- Where a sector that can be erased begins: one of the journal, or from 128 on one of the fault log. -/
def eraseAddr (j : Nat) : Nat := if j < 128 then sectorAddr j else flogBase + 4096 * (j - 128)

/-- The raw operation in hand is over: a full page in the buffer is programmed next, and otherwise BUSY is 0 (R391). -/
def RawOver (s t : State) : Prop :=
  (∀ page ws, s.barn.page = some (page, ws) → (smFind ws 63).isSome = true →
    t.barn.rawBusy = some (false, page, ws) ∧ t.barn.page = none ∧ t.fld F.barnRawCtlBusy = 1) ∧
  ((∀ page ws, s.barn.page = some (page, ws) → smFind ws 63 = none) →
    t.barn.rawBusy = none ∧ t.barn.page = s.barn.page ∧ t.fld F.barnRawCtlBusy = 0) ∧
  OnlyRegs (· = A.barnRawCtl) s t ∧ TouchesOnly (Part.shared ++ [.barn, .free]) s t

/-- The compaction of a sector: while a record that is still current has found no room the sector waits; once all have moved its
erase starts, or it is RETIRED where a program failed in it, and COMPACTIONS counts it (R399, R400). -/
def Compacted (s t : State) (j : Nat) : Prop :=
  (t.barn.copies.any (copyNeeded t.barn j) = true → t.barn.erasing = s.barn.erasing ∧
    t.fld F.barnCompactionsCount = s.fld F.barnCompactionsCount) ∧
  (t.barn.copies.any (copyNeeded t.barn j) = false →
    t.fld F.barnCompactionsCount = min 16777215 (s.fld F.barnCompactionsCount + 1) ∧
    (s.barn.failed.contains j = false → t.barn.erasing = s.barn.erasing ++ [j]) ∧
    (s.barn.failed.contains j = true → j < 128 → sectorState t.barn j = 8 ∧ t.barn.failed.contains j = false))

/-! What a command can touch. -/

/-- Every part: what the commands that start the module, or write a register of any kind, can touch. -/
def Part.all : List Part :=
  [.free, .regs, .pow, .time, .hw, .out, .rings, .precHeld, .precSize, .queueSizes, .scene, .mem, .lost, .loft, .pipes,
   .bins, .camLines, .camLags, .camEarly, .furrowStore, .gates, .gcl, .levels, .fetches, .src, .sampleDue, .wins, .dma,
   .dmaHalted, .scans, .cams, .groups, .light, .fault, .barn, .perf]

/-- The parts that raising an event can touch. -/
def Part.events : List Part := [.regs, .pow, .hw, .out, .src]

/-- The parts that can change where the rings go on, transfers are served and frames are sent. -/
def Part.settled : List Part :=
  [.free, .regs, .pow, .hw, .out, .rings, .precHeld, .scene, .pipes, .camLines, .camLags, .camEarly, .gates, .levels,
   .fetches, .src, .dma, .scans, .cams, .light, .fault, .perf]

/-- The parts of the state that a command can touch; it leaves every other part as it was. -/
def footprint : Instr → List Part
  | .powerGood _ | .resetN _ | .softReset _ _ _ | .regWrite _ _ _ | .counterClear _ _ | .aliasWrite _ _ _ | .writeLo _ _ _ |
    .writeHi _ _ _ | .indexWrite _ _ _ | .dataWrite _ _ _ | .spiWriteInc _ _ | .spiWriteFixed _ _ | .regWr _ _ _ _ _ _ =>
    Part.all
  | .podlClassified _ _ _ =>
    [.regs, .pow]
  | .lineLoss =>
    Part.events ++ [.free, .pipes, .light, .barn]
  | .tempSample _ =>
    Part.events ++ [.scene, .pipes, .barn]
  | .vbusOvercurrent | .vbusRetry _ | .rrecConsume _ _ | .ttOpenLoad _ | .busOff _ | .snsChange _ _ | .eventOccurrence _ _ |
    .sourceComplete _ _ =>
    Part.events
  | .dataRead _ _ | .spiReadInc _ _ | .spiReadFixed _ _ =>
    [.free, .regs, .out, .groups, .fault]
  | .strobe _ _ | .strobeProofDone =>
    Part.settled ++ [.queueSizes, .gcl, .groups]
  | .openSession _ _ =>
    Part.events ++ [.free, .perf]
  | .openTimeout | .linkWakeup _ =>
    [.regs, .hw]
  | .close _ | .sessionCloseReg _ | .ack _ | .keepalive _ | .linkUp _ _ | .doorbellSubmit _ _ _ _ | .doorbellCplCi _ _ _ _ |
    .doorbellPrecCi _ _ _ _ | .doorbellEqCi _ _ _ _ | .nop _ _ _ | .jump _ _ _ | .layerWords _ _ _ | .layerBlock _ _ _ |
    .objWords _ _ _ | .objBlock _ _ _ | .lutLoad _ _ _ | .matrix _ _ _ | .loftLoad _ _ _ | .fenceAcq _ _ _ | .commit _ _ _ |
    .copy _ _ _ | .fill _ _ _ | .write32 _ _ _ | .fencePoll | .lastBaleFetched _ | .mcRecoveryDone | .reproofDone |
    .retirementRecord | .rrecEnable _ _ =>
    Part.settled
  | .ackDue | .keepaliveTimer | .ringPoll _ | .queueAwake _ _ | .qmaskClear _ _ =>
    [.regs, .hw, .out, .perf]
  | .retxTimeout | .eccRereadDone _ _ | .unitFailure _ _ | .lbistResult _ | .hpdHigh _ _ | .hpdLowTimeout _ | .hpdPulse _ _ |
    .hpdWaitTimeout _ | .pktDone _ _ _ =>
    Part.settled ++ [.mem, .lost, .groups, .barn]
  | .linkDown _ =>
    Part.settled ++ [.time, .mem, .lost, .groups, .barn]
  | .linkSleepRequest _ | .ptpSync _ _ _ | .timeHoldover =>
    Part.events ++ [.time]
  | .linkWakeRequest _ _ =>
    [.regs, .hw, .out]
  | .arpRequest _ _ _ _ _ | .neighbourSolicitation _ _ _ _ _ =>
    [.regs, .out]
  | .readResp _ _ _ _ | .dmaDescDone _ _ =>
    Part.settled ++ [.mem]
  | .regRd _ _ _ _ _ =>
    Part.settled ++ [.groups]
  | .ringRun _ _ | .ringStop _ _ | .ringResume _ _ =>
    Part.events ++ [.rings, .scene, .dma, .fault, .perf]
  | .ringReset _ _ =>
    [.regs, .rings, .scene]
  | .precEnable _ _ _ =>
    Part.settled ++ [.precSize]
  | .winnowProofEnd | .commitDeadline _ | .retestDone _ | .rotationSwap =>
    Part.settled ++ [.groups, .barn]
  | .triggerTimer _ | .scanDone _ _ =>
    Part.events ++ [.free, .scene, .gates, .levels, .fetches, .dma, .scans, .cams, .perf]
  | .engineHalt | .engineRestart _ =>
    Part.settled ++ [.dmaHalted]
  | .scanGo _ _ | .scanStop _ _ =>
    Part.events ++ [.scans]
  | .frameStart _ _ | .teMissing _ =>
    Part.settled ++ [.loft, .bins, .furrowStore, .gcl, .wins, .groups, .barn]
  | .linePositionStep _ _ =>
    Part.settled ++ [.loft, .furrowStore, .wins]
  | .loftLoadDone _ =>
    Part.events ++ [.free, .precHeld, .scene, .loft, .gates, .levels, .fetches, .dma, .scans, .cams, .perf]
  | .eccUncorrectable _ _ =>
    Part.events ++ [.free, .scene, .gates, .levels, .fetches, .dma, .scans, .cams, .fault, .perf]
  | .linkRecoveryDone _ =>
    [.fault]
  | .retestGo _ _ =>
    [.regs, .fault]
  | .rotationLate _ =>
    Part.events ++ [.fault]
  | .pllLocked _ =>
    [.regs, .pipes]
  | .pllLockTimeout _ =>
    Part.settled ++ [.bins, .furrowStore, .gcl, .wins, .groups, .barn]
  | .teEdge _ =>
    [.pipes]
  | .camLockLost _ =>
    Part.events ++ [.pipes]
  | .linkReady _ =>
    Part.events ++ [.groups, .fault]
  | .pktGo _ _ | .spiFlagClear _ _ | .busOffRecovery _ | .canBusError _ _ _ =>
    [.regs]
  | .pktDataPush _ _ _ =>
    [.groups]
  | .pktDataPop _ _ =>
    [.out, .groups]
  | .camFrameStart _ =>
    Part.events ++ [.pipes, .gates, .gcl, .cams, .groups, .light, .perf]
  | .camLine _ _ _ _ =>
    Part.events ++ [.levels, .cams, .perf]
  | .camLineWritten _ =>
    [.free, .regs, .scene, .mem, .camEarly, .gates, .levels, .fetches, .dma, .scans, .cams, .perf]
  | .camFrameEnd _ =>
    [.regs, .cams]
  | .ptpPdelayReq _ _ | .canStatusTx _ =>
    [.out]
  | .ptpPdelayTimer =>
    [.time, .out]
  | .zoneUpdate _ | .ttOffTest _ _ | .ttShort _ | .ttShortRetry _ _ | .mapperTimeout _ | .ttCheckPass _ =>
    Part.events ++ [.light]
  | .blinkPhase _ | .canFrameReceived _ _ _ _ _ | .pwmPeriodBoundary =>
    [.light]
  | .bulbCheckEnd =>
    [.pow, .light]
  | .resample _ =>
    Part.events ++ [.sampleDue]
  | .eventRecordIssue | .perfStop _ | .perfWindowEnd =>
    Part.events ++ [.perf]
  | .sourceMask _ _ _ | .queueSleep _ _ =>
    [.regs, .pow, .hw, .out]
  | .rawFlush _ | .rawErase _ | .journalRead _ =>
    [.regs, .barn]
  | .rawDone _ | .sectorRetired _ _ =>
    Part.events ++ [.free, .barn]
  | .journalWrite _ | .jwDone | .jrDone | .gleanerRun | .sectorEraseDone _ =>
    Part.events ++ [.barn]
  | .faultSummaryWrite =>
    [.barn]
  | .perfStart _ =>
    [.regs, .perf]
  | .wakePulseEnd =>
    [.pow, .out]
  | .ptpPdelayResp _ _ _ =>
    [.time]

end Sys2Proof.Machine
end

