-- ==== Sys2Proof/Certificates/Slice0/Obligations.lean ====
section
/-! DEFINITION. What the provers are to prove: the statements about the machine, from the rules of spec/. A statement that rests on a
choice of the model, and not on a rule, names its log entry. -/

open Sys2Proof Sys2Proof.Machine

/-- A step takes the command at the front of the queue and runs it with the queue's rest. The queue is the model's, filled from
outside the machine (log 1), and its order is the order of the events (log 50). -/
def Obligations.StepRunsFront : Prop :=
  (∀ (c : Instr) (rest : List Instr) (s : State), s.pending = c :: rest → step s = exec c { s with pending := rest }) ∧
  ∀ (c : Instr) (s : State), step (s.withCommand c) = exec c s

/-- Every command completes, and it leaves the commands that wait as they were: they are taken first in, first out, and waiting
commands stay well-formed. No latency is enforced: a command for which nothing waits completes without effect (log 50). -/
def Obligations.CommandsKeepQueue : Prop :=
  (∀ (c : Instr) (s : State), ∃ t, exec c s = .next t ∧ t.pending = s.pending) ∧
  (∀ (c : Instr) (rest : List Instr) (s : State), s.pending = c :: rest → ∃ t, step s = .next t ∧ t.pending = rest) ∧
  ∀ s t : State, s.queueOk → step s = .next t → t.queueOk

/-- With an empty queue a powered module lets one period of REFCLK, 40 ns, go by (log 2): the uptime gains 40 ns, and no ring, no
byte of device memory and no unit's state changes. Where no transfer asks a port, no DMA channel is at work, no part is armed and no
LANE part waits for a camera, only the clocks, the performance counters and the counts of corrected errors (log 68) change. A module
without power does nothing. -/
def Obligations.IdlePeriod : Prop :=
  (∀ s : State, s.pending = [] → s.isUp → ∃ t, step s = .next t ∧ t.time.uptime = s.time.uptime + 40 ∧ t.rings = s.rings ∧
    SameMemory s t ∧ t.fault = s.fault) ∧
  (∀ s : State, s.pending = [] → s.isUp → requests s = [] → s.dma = [] → s.scene.armed = [] → (∀ x ∈ s.regs.pend, x.cam = none) →
    ∃ t, step s = .next t ∧ t.time.uptime = s.time.uptime + 40 ∧
      SameRegsBut (fun a => ∃ m : Fin 4, a = A.faultMcCe m) s t ∧ TouchesOnly [.free, .regs, .time, .perf] s t) ∧
  ∀ s : State, s.pending = [] → ¬s.isUp → step s = .next s

/-- Once a line loss is under way and no power-good waits, no step leads out of it, and no command but POWER_GOOD has an effect on
anything but the front end's class and the pins' levels, which it holds for the next start (log 45). POWER_GOOD then runs the start
sequence from step 1. -/
def Obligations.DownUntilPowerGood : Prop :=
  (∀ s t : State, s.dark → step s = .next t → t.dark) ∧
  (∀ (c : Instr) (s t : State), s.pow.power = .down → (∀ rep, c ≠ .powerGood rep) → exec c s = .next t →
    t.pow.power = .down ∧ TouchesOnly [.regs, .pow] s t ∧
    SameRegsBut (fun a => a = A.sysPodlStat ∨ ∃ i : Fin 8, a = A.evtSnsCfg i) s t) ∧
  ∀ rep (s : State), s.pow.power = .down → Leaves (.powerGood rep) s (restart s true 1 rep)

/-- A module without its rails does nothing on any command but POWER_GOOD, which starts it, PODL_CLASSIFIED and SNS_CHANGE: the PoDL
front end and the pins work before the rails do (log 45). -/
def Obligations.NothingWithoutPower : Prop :=
  ∀ (c : Instr) (s : State), ¬s.isUp → (∀ rep, c ≠ .powerGood rep) → (∀ a b n, c ≠ .podlClassified a b n) →
    (∀ p l, c ≠ .snsChange p l) → exec c s = .next s

/-- LINE_LOSS, whether the record in hand was finished or not: the module is down, in state POWER_DOWN, with VBUS_OUT open, WAKE_OUT
low, every timing generator stopped and the dimming outputs dark; device memory keeps its bytes; and where no power-good waits it is
a state that only power-good ends. -/
def Obligations.LineLoss : Prop :=
  ∀ s : State, s.isUp → Ends .lineLoss s fun t =>
    t.pow.power = .down ∧ t.pow.started = false ∧ t.pow.vbusClosed = false ∧ t.pow.wakeOut = false ∧ t.fld F.sysStateState = 4 ∧
    (∀ p, (t.pipe p).gen = .stopped) ∧ t.light.zones = [] ∧ SameMemory s t ∧
    (NoPowerGood s.pending → t.dark) ∧
    TouchesOnly (Part.events ++ [.free, .pipes, .light, .barn]) s t

/-- What reset leaves: every register at the reset word of its row, an empty queue, no session, no scene staged or armed, generators
stopped, memory with nothing listed. The rails are up and the start sequence has not run (log 1). -/
def Obligations.ResetState : Prop :=
  State.reset.pending = [] ∧ State.reset.isUp ∧ State.reset.pow.started = false ∧
  State.reset.reg A.sysId = 0x1440A246 ∧ State.reset.fld F.sysStateState = 0 ∧ State.reset.fld F.sysStaggerStep = 0x32 ∧
  State.reset.fld F.lightDimCfgPeriod = 0x3D090 ∧ State.reset.fld F.blendRotCfgSlotUs = 0xDAC ∧
  State.reset.hw.cur = none ∧ State.reset.scene.staging = [] ∧ State.reset.scene.armed = [] ∧
  (∀ p, (State.reset.pipe p).gen = .stopped) ∧ State.reset.mem = [] ∧ State.reset.lost = [] ∧ State.reset.memOk = true ∧
  (∀ a r i, findReg a = some (r, i) → State.reset.reg a = r.reset i &&& r.defined ∧ State.reset.shadowReg a = r.reset i &&& r.defined) ∧
  State.reset.queueOk

/-- POWER_GOOD runs the start sequence from step 1 on every module that is not started; a started module takes no notice. RESET_N,
and a write of RESET_CTL with SOFT where KEY holds 0xC0DE, run it from step 2, whatever the barn has in hand. The sequence is one
command's effect (log 37). Where no bank is valid (R388), RESET_CAUSE then shows 1 for power-good, 9 for power-good after a line
loss, 2 for RESET_N and 4 for the soft reset, and the reset has cleared what ResetHolds lists, with device memory as it was where
the rails stayed on (log 41). Where a bank is valid the module has started with it; a boot image writes registers of its own choice.
Below 8 W, which the class held decides (log 8), the module goes off, and RESET_N leaves VBUS_OUT as it is (log 69). A write with
SOFT where KEY holds another value is a locked write and resets nothing. -/
def Obligations.Resets : Prop :=
  (∀ rep (s : State), ¬(s.isUp ∧ s.pow.started = true) → Leaves (.powerGood rep) s (restart s true 1 rep)) ∧
  (∀ rep (s : State), s.isUp → s.pow.started = true → exec (.powerGood rep) s = .next s) ∧
  (∀ rep (s : State), s.isUp → Leaves (.resetN rep) s (restart s false 2 rep)) ∧
  (∀ path (w : Word) rep (s : State), s.takes path → s.fld F.sysResetCtlKey = 0xC0DE → w.getLsbD 16 = true →
    Leaves (.softReset path w rep) s (restart s false 4 rep)) ∧
  (∀ rep (s : State), ¬(s.isUp ∧ s.pow.started = true) → bankAfter s = none → classAfter s true ≠ none →
    Ends (.powerGood rep) s fun t => ResetHolds s t (if s.pow.power = .down then 9 else 1) false) ∧
  (∀ rep (s : State), s.isUp → bankAfter s = none → classAfter s false ≠ none →
    Ends (.resetN rep) s fun t => ResetHolds s t 2 true) ∧
  (∀ path (w : Word) rep (s : State), s.takes path → s.fld F.sysResetCtlKey = 0xC0DE → w.getLsbD 16 = true → bankAfter s = none →
    classAfter s false ≠ none → Ends (.softReset path w rep) s fun t => ResetHolds s t 4 true) ∧
  (∀ rep b (s : State), ¬(s.isUp ∧ s.pow.started = true) → bankAfter s = some b → classAfter s true ≠ none →
    Ends (.powerGood rep) s fun t => StartedWith t b) ∧
  (∀ rep b (s : State), s.isUp → bankAfter s = some b → classAfter s false ≠ none →
    Ends (.resetN rep) s fun t => StartedWith t b) ∧
  (∀ path (w : Word) rep b (s : State), s.takes path → s.fld F.sysResetCtlKey = 0xC0DE → w.getLsbD 16 = true → bankAfter s = some b →
    classAfter s false ≠ none → Ends (.softReset path w rep) s fun t => StartedWith t b) ∧
  (∀ rep (s : State), ¬(s.isUp ∧ s.pow.started = true) → classAfter s true = none →
    Ends (.powerGood rep) s fun t => t.pow.power = .off ∧ t.pow.vbusClosed = false) ∧
  (∀ rep (s : State), s.isUp → classAfter s false = none → Ends (.resetN rep) s fun t =>
    t.pow.power = .off ∧ t.pow.vbusClosed = (s.pow.vbusClosed || s.pow.vbusLatched)) ∧
  ∀ path (w : Word) rep (s : State), s.takes path → s.fld F.sysResetCtlKey ≠ 0xC0DE → w.getLsbD 16 = true →
    Leaves (.softReset path w rep) s (lockedWrite s path A.sysResetCtl)

/-- TEMP_SAMPLE: the register follows the junction; at 120 °C and above TEMP_WARN stands, at 135 °C a trip begins and below 115 °C
it ends, and between those nothing but the register and the warning's source changes. -/
def Obligations.Temperature : Prop :=
  (∀ tj (s : State), s.isUp → Ends (.tempSample tj) s fun t =>
    t.fld F.sysTempTj = tj.toNat ∧ t.fld F.sysTempWarn = (decide (480 ≤ tj.toInt)).toNat) ∧
  (∀ tj (s : State), s.isUp → 540 ≤ tj.toInt → Ends (.tempSample tj) s fun t => t.fld F.sysTempTrip = 1) ∧
  (∀ tj (s : State), s.isUp → tj.toInt < 460 → Ends (.tempSample tj) s fun t =>
    t.fld F.sysTempTrip = 0 ∧ TouchesOnly Part.shared s t) ∧
  ∀ tj (s : State), s.isUp → 460 ≤ tj.toInt → tj.toInt < 540 → Ends (.tempSample tj) s fun t =>
    t.fld F.sysTempTrip = s.fld F.sysTempTrip ∧ TouchesOnly Part.shared s t ∧ OnlyRegs (· = A.sysTemp) s t

/-- PODL_CLASSIFIED before the start: the front end holds the class and its power; after it, nothing. VBUS_OUT: an overcurrent opens
the closed switch; a retry closes it or, with the overcurrent still there, opens it again, the third time for good, and then no
retry closes it. -/
def Obligations.PowerFrontEnd : Prop :=
  (∀ cls watts noclass (s : State), ¬(s.isUp ∧ s.pow.started = true) → Ends (.podlClassified cls watts noclass) s fun t =>
    t.pow = { s.pow with classified := true, podlClass := cls, podlWatts := watts, noclass := noclass } ∧
    t.fld F.sysPodlStatClass = cls.toNat ∧ t.fld F.sysPodlStatNoclass = noclass.toNat ∧
    TouchesOnly [.regs, .pow] s t ∧ SameRegsBut (· = A.sysPodlStat) s t) ∧
  (∀ cls watts noclass (s : State), s.isUp → s.pow.started = true → exec (.podlClassified cls watts noclass) s = .next s) ∧
  (∀ s : State, s.isUp → s.pow.vbusClosed = true → Ends .vbusOvercurrent s fun t =>
    t.pow.vbusClosed = false ∧ t.pow.vbusLatched = false ∧ t.pow.vbusRetries = 0 ∧
    TouchesOnly Part.shared s t ∧ OnlyRegs (fun _ => False) s t) ∧
  (∀ s : State, s.isUp → s.pow.vbusClosed = false → s.pow.vbusLatched = false →
    Leaves (.vbusRetry false) s { s with pow := { s.pow with vbusClosed := true, vbusRetries := 0 } }) ∧
  (∀ s : State, s.isUp → s.pow.vbusClosed = false → s.pow.vbusLatched = false → Ends (.vbusRetry true) s fun t =>
    t.pow.vbusClosed = false ∧ t.pow.vbusRetries = s.pow.vbusRetries + 1 ∧
    (t.pow.vbusLatched = true ↔ 3 ≤ s.pow.vbusRetries + 1) ∧
    TouchesOnly Part.shared s t ∧ OnlyRegs (fun _ => False) s t) ∧
  ∀ overcurrent (s : State), s.isUp → s.pow.vbusLatched = true → exec (.vbusRetry overcurrent) s = .next s

/-- REG_WRITE of registers without a trigger: RW bits take the word and reserved bits ignore it (HOP_LIMIT; log 3), W1C bits clear
where 1 is written (RESET_CAUSE), SLOT_US and STEP are stored at the nearer bound of their ranges, and an SRW field goes to the
shadow copy (STAGGER). A read-only register (ID) takes nothing. No other register and no other part of the state changes. -/
def Obligations.RegisterWrite : Prop :=
  (∀ path w (s : State), s.takes path → Ends (.regWrite path 0x10058 w) s fun t =>
    t.reg A.ringHopLimit = ((s.reg A.ringHopLimit &&& 0xFFFF0000) ||| (w &&& 0xFFFF)) ∧
    SameRegsBut (· = A.ringHopLimit) s t ∧ TouchesOnly [.regs] s t) ∧
  (∀ path w (s : State), s.takes path → Ends (.regWrite path 0x14 w) s fun t =>
    t.reg A.sysResetCause = s.reg A.sysResetCause &&& ~~~(w &&& 0xF) ∧
    SameRegsBut (· = A.sysResetCause) s t ∧ TouchesOnly [.regs] s t) ∧
  (∀ path w (s : State), s.takes path → Ends (.regWrite path 0x50004 w) s fun t =>
    t.fld F.blendRotCfgSlotUs = max 500 (min 5000 (w.toNat % 65536)) ∧
    SameRegsBut (· = A.blendRotCfg) s t ∧ TouchesOnly [.regs] s t) ∧
  (∀ path w (s : State), s.takes path → Ends (.regWrite path 0x28 w) s fun t =>
    F.sysStaggerStep.of (t.shadowReg A.sysStagger) = max 20 (min 255 (w.toNat % 256)) ∧
    (∀ a, a ≠ A.sysStagger → t.shadowReg a = s.shadowReg a) ∧ SameRegsBut (fun _ => False) s t ∧ TouchesOnly [.regs] s t) ∧
  ∀ path w (s : State), s.takes path → Ends (.regWrite path 0 w) s fun t =>
    SameRegsBut (fun _ => False) s t ∧ TouchesOnly [.regs] s t

/-- An address that maps to no register, or that is not a multiple of 4, is unmapped: a read answers 0, a write is ignored, either
adds 1 to UNMAPPED.COUNT, which saturates, and changes nothing else; the status that a Haywain response carries is UNMAPPED (2). -/
def Obligations.UnmappedAccess : Prop :=
  ∀ path (addr w : Word) (s : State),
    (addr.toNat % 4 ≠ 0 ∨ 0x120000 ≤ addr.toNat ∨ (addr.toNat < 0x100000 ∧ findReg addr.toNat = none) ∨
     (isAlias addr.toNat = true ∧ findReg (aliasReg addr.toNat) = none)) →
    (accessRead s path addr).2 = (0, 2) ∧ (accessWrite s path addr w).status = 2 ∧
    (accessRead s path addr).1 = (accessWrite s path addr w).s ∧
    (s.takes path → Ends (.regWrite path addr w) s fun t =>
      t.fld F.sysUnmappedCount = min 65535 (s.fld F.sysUnmappedCount + 1) ∧
      SameRegsBut (· = A.sysUnmapped) s t ∧ TouchesOnly [.regs] s t) ∧
    (s.takes path → Ends (.dataRead path addr) s fun t =>
      t.fld F.sysUnmappedCount = min 65535 (s.fld F.sysUnmappedCount + 1) ∧ t.out = s.out ++ [.read path addr 0] ∧
      SameRegsBut (· = A.sysUnmapped) s t ∧ TouchesOnly [.regs, .out] s t)

/-- A write to a locked register, or over Haywain to a key word or a register of a triggered channel, leaves it as it was, adds 1 to
LOCK_VIOL, shows path and address in LOCK_VIOL_ADDR, and fires LOCK_VIOLATION: source 4 occurs once. -/
def Obligations.LockedWrite : Prop :=
  (∀ path (addr w : Word) (s : State), s.takes path →
    ((addr = 0x20 ∧ s.flag F.sysProfileLock = true) ∨ (addr = 0x24 ∧ s.flag F.sysPodlStatLock = true) ∨
     ((addr = 0x90000 ∨ addr = 0x90004 ∨ addr = 0x91000 ∨ addr = 0x92000) ∧ s.flag F.lightTtCfgLock = true)) →
    LockedOut s path addr w 1 ∧ Ends (.regWrite path addr w) s fun t =>
      t.reg addr.toNat = s.reg addr.toNat ∧ t.fld F.sysLockViolCount = min 65535 (s.fld F.sysLockViolCount + 1) ∧
      t.fld F.sysLockViolAddrPath = pathCode path ∧ t.fld F.sysLockViolAddrAddr = addr.toNat ∧
      OnlyRegs (fun a => a = A.sysLockViol ∨ a = A.sysLockViolAddr) s t ∧ TouchesOnly Part.shared s t) ∧
  ∀ (addr w : Word) (s : State), s.takes .haywain →
    (addr = 0x10040 ∨ addr = 0x10044 ∨ addr = 0x10048 ∨ addr = 0x1004C ∨ addr = 0xB2000 ∨ addr = 0xB2070) →
    LockedOut s .haywain addr w 3 ∧ Ends (.regWrite .haywain addr w) s fun t =>
      t.fld F.sysLockViolCount = min 65535 (s.fld F.sysLockViolCount + 1) ∧ t.fld F.sysLockViolAddrPath = 0 ∧
      t.fld F.sysLockViolAddrAddr = addr.toNat ∧ t.regs.keys = s.regs.keys ∧ t.regs.shadow = s.regs.shadow ∧
      OnlyRegs (fun a => a = A.sysLockViol ∨ a = A.sysLockViolAddr) s t ∧ TouchesOnly Part.shared s t

/-- A locked write ends with one occurrence of source 4 and no other, and a strobe that its proof refuses with one of source 5 and
no other; both lie in the system range 0 to 35 of the sources. Locked writes are those of a word of a register whose lock is set, of
a key word that has been written, of a word that Haywain may not write, of RESET_CTL with SOFT where KEY does not hold 0xC0DE, and
of the alias word of a bit of one of these that the lock covers. -/
def Obligations.LockAndStrobeEvents : Prop :=
  assignedSource 4 = true ∧ assignedSource 5 = true ∧ levelSource 4 = false ∧ levelSource 5 = false ∧
  (∀ (s : State) path a, FiresLockViolation s path a) ∧
  (∀ path (addr w : Word) (s : State) r i, findReg addr.toNat = some (r, i) → addr.toNat < 0x100000 →
    (haywainDenied path addr.toNat = true → LockedOut s path addr w 3) ∧
    (haywainDenied path addr.toNat = false → isKey addr.toNat = true → smFind s.regs.keys addr.toNat ≠ none → LockedOut s path addr w 1) ∧
    (haywainDenied path addr.toNat = false → isKey addr.toNat = false → isLocked s r addr.toNat = true → LockedOut s path addr w 1) ∧
    (addr.toNat = A.sysResetCtl → s.fld F.sysResetCtlKey ≠ 0xC0DE → w.getLsbD 16 = true → LockedOut s path addr w 1)) ∧
  (∀ path (addr w : Word) (s : State) r i, isAlias addr.toNat = true → addr.toNat % 4 = 0 → dataPair (aliasReg addr.toNat) = none →
    findReg (aliasReg addr.toNat) = some (r, i) →
    (haywainDenied path (aliasReg addr.toNat) = true → LockedOut s path addr w 3) ∧
    (haywainDenied path (aliasReg addr.toNat) = false → isKey (aliasReg addr.toNat) = true →
      smFind s.regs.keys (aliasReg addr.toNat) ≠ none → LockedOut s path addr w 1) ∧
    (haywainDenied path (aliasReg addr.toNat) = false → isKey (aliasReg addr.toNat) = false →
      isLocked s r (aliasReg addr.toNat) = true → r.lkw.getLsbD (aliasBit addr.toNat) = true → LockedOut s path addr w 1) ∧
    (aliasReg addr.toNat = A.sysResetCtl → aliasBit addr.toNat = 16 → s.fld F.sysResetCtlKey ≠ 0xC0DE → w.getLsbD 0 = true →
      LockedOut s path addr w 1)) ∧
  (∀ path (w : Word) rep (s : State), s.takes path → s.fld F.sysResetCtlKey ≠ 0xC0DE → w.getLsbD 16 = true →
    Leaves (.softReset path w rep) s (lockedWrite s path A.sysResetCtl)) ∧
  (∀ (s : State) reason mask, ∃ u : State, refuseStrobe s reason mask = raise u 5 ∧ u.src = s.src ∧
    ∀ k : Fin 1024, u.reg (A.evtSrcStat k) = s.reg (A.evtSrcStat k)) ∧
  (∀ named blocks words gcl v (s : State), s.isUp → s.scene.inHand = some (.strobe named blocks words gcl, v) → v.reason ≠ 0 →
    Leaves .strobeProofDone s (settle (startProof
      (refuseStrobe (s.mapScene fun x => { x with inHand := none, proofDep := none }) v.reason.toNat named.toNat)))) ∧
  ∀ path (w : Word) (s : State), s.takes path → w.setWidth 16 ≠ (0 : BitVec 16) → w.getLsbD 6 = false → w.getLsbD 7 = false →
    ∀ x ∈ (otherOwn s (w.setWidth 16) (strobeView s ((setBitsBelow 16 (w.setWidth 16 : BitVec 16).toNat).flatMap (shadowWords s)))).head?,
      Leaves (.strobe path w) s (refuseStrobe s x.reason.toNat (w.setWidth 16 : BitVec 16).toNat)

/-- A key word is taken at its first write over another path than Haywain, whole; a later write is a locked write and leaves it; and
it never reads back: on any path a read answers 0x00000000, whatever the key, since the register behind it is 0 after reset and
neither write changes it. -/
def Obligations.KeyWords : Prop :=
  (∀ path (i : Fin 4) (w : Word) (s : State), s.takes path → path ≠ .haywain → smFind s.regs.keys (A.ringKey i) = none →
    Ends (.regWrite path (BitVec.ofNat 32 (A.ringKey i)) w) s fun t =>
      smFind t.regs.keys (A.ringKey i) = some w ∧ (∀ a, a ≠ A.ringKey i → smFind t.regs.keys a = smFind s.regs.keys a) ∧
      SameRegsBut (fun _ => False) s t ∧ TouchesOnly [.regs] s t) ∧
  (∀ path (i : Fin 4) (w : Word) (s : State), s.takes path → path ≠ .haywain → smFind s.regs.keys (A.ringKey i) ≠ none →
    Ends (.regWrite path (BitVec.ofNat 32 (A.ringKey i)) w) s fun t =>
      t.regs.keys = s.regs.keys ∧ t.reg (A.ringKey i) = s.reg (A.ringKey i) ∧
      t.fld F.sysLockViolCount = min 65535 (s.fld F.sysLockViolCount + 1)) ∧
  (∀ path (i : Fin 4) (s : State), s.reg (A.ringKey i) = 0 → (accessRead s path (BitVec.ofNat 32 (A.ringKey i))).2 = (0, 0)) ∧
  ∀ i : Fin 4, State.reset.reg (A.ringKey i) = 0

/-- WRITE_LO holds its word and changes no register. WRITE_HI then sets both halves at once; without a LO write since the last HI
write LO keeps its word. Shown on the module's MAC address, whose HI has 16 bits. -/
def Obligations.WordPairs : Prop :=
  (∀ path w (s : State), s.takes path → Ends (.writeLo path 0x10008 w) s fun t =>
    smFind t.regs.loHeld A.ringMacLo = some w ∧ SameRegsBut (fun _ => False) s t ∧ TouchesOnly [.regs] s t) ∧
  (∀ path w lo (s : State), s.takes path → smFind s.regs.loHeld A.ringMacLo = some lo → Ends (.writeHi path 0x1000C w) s fun t =>
    t.reg A.ringMacLo = lo ∧ t.reg A.ringMacHi = ((s.reg A.ringMacHi &&& 0xFFFF0000) ||| (w &&& 0xFFFF)) ∧
    smFind t.regs.loHeld A.ringMacLo = none ∧
    SameRegsBut (fun a => a = A.ringMacLo ∨ a = A.ringMacHi) s t ∧ TouchesOnly [.regs] s t) ∧
  ∀ path w (s : State), s.takes path → smFind s.regs.loHeld A.ringMacLo = none → Ends (.writeHi path 0x1000C w) s fun t =>
    t.reg A.ringMacHi = ((s.reg A.ringMacHi &&& 0xFFFF0000) ||| (w &&& 0xFFFF)) ∧
    SameRegsBut (· = A.ringMacHi) s t ∧ TouchesOnly [.regs] s t

/-- ALIAS_WRITE of the alias word of bit i of RING.HW_CTL sets that bit to bit 0 of the word and leaves the other 31; an alias word
of a reserved bit changes nothing. COUNTER_CLEAR of a counter clears it; no other register changes. -/
def Obligations.AliasAndClear : Prop :=
  (∀ path (i : Fin 32) (w : Word) (s : State), s.takes path →
    Ends (.aliasWrite path (BitVec.ofNat 32 (0x102000 + 4 * i.val)) w) s fun t =>
      (∀ j, (t.reg A.ringHwCtl).getLsbD j = if j = i.val ∧ i.val < 30 then w.getLsbD 0 else (s.reg A.ringHwCtl).getLsbD j) ∧
      SameRegsBut (· = A.ringHwCtl) s t ∧ TouchesOnly [.regs] s t) ∧
  ∀ path (s : State), s.takes path →
    ∀ f ∈ [F.sysLockViolCount, F.sysUnmappedCount, F.ringRxRejectCount, F.ringBadDbCount, F.sceneRejectCntCount,
           F.layerUnderrunsCount, F.blendSwapsCount, F.schedGclLateCount, F.laneLinkFailsCount, F.evtStrayCplCount,
           F.dmaBadDescCount, F.chkMismatchesCount, F.faultFailuresCount, F.barnCompactionsCount],
    Ends (.counterClear path (BitVec.ofNat 32 f.addr)) s fun t =>
      t.fld f = 0 ∧ SameRegsBut (· = f.addr) s t ∧ TouchesOnly [.regs] s t

/-- Every command that writes a word makes the same access: what it does depends on path, address and word alone. A module held in
step 2 answers JTAG and the SPI target only: over Haywain none of these commands does anything before the start. A SPI transfer of
four bytes writes one word, least significant byte first (shown for RESET_CAUSE), and one of fewer bytes writes none; a longer one
goes on at the next address, or at the same one. -/
def Obligations.OneAccess : Prop :=
  (∀ path addr w (s : State), s.takes path → Leaves (.regWrite path addr w) s (writeWord s path addr w)) ∧
  (∀ path addr w (s : State), exec (.aliasWrite path addr w) s = exec (.regWrite path addr w) s ∧
    exec (.writeLo path addr w) s = exec (.regWrite path addr w) s ∧
    exec (.writeHi path addr w) s = exec (.regWrite path addr w) s ∧
    exec (.indexWrite path addr w) s = exec (.regWrite path addr w) s ∧
    exec (.dataWrite path addr w) s = exec (.regWrite path addr w) s ∧
    exec (.counterClear path addr) s = exec (.regWrite path addr 0x80000000) s) ∧
  (∀ addr w (s : State), s.pow.started = false → exec (.regWrite .haywain addr w) s = .next s ∧
    exec (.dataRead .haywain addr) s = .next s) ∧
  (∀ addr (bytes : List Byte) (s : State), bytes.length = 4 →
    exec (.spiWriteInc addr bytes) s = exec (.regWrite .spi (addr.setWidth 32) (leWord bytes)) s ∧
    exec (.spiWriteFixed addr bytes) s = exec (.regWrite .spi (addr.setWidth 32) (leWord bytes)) s) ∧
  (∀ (bytes : List Byte) (s : State), s.isUp → bytes.length = 4 →
    Ends (.spiWriteInc 0x14 bytes) s (fun t => t.reg A.sysResetCause = s.reg A.sysResetCause &&& ~~~(leWord bytes &&& 0xF) ∧
      SameRegsBut (· = A.sysResetCause) s t ∧ TouchesOnly [.regs] s t) ∧
    Ends (.spiWriteFixed 0x14 bytes) s (fun t => t.reg A.sysResetCause = s.reg A.sysResetCause &&& ~~~(leWord bytes &&& 0xF) ∧
      SameRegsBut (· = A.sysResetCause) s t ∧ TouchesOnly [.regs] s t)) ∧
  (∀ addr (bytes : List Byte) (s : State), bytes.length < 4 →
    exec (.spiWriteInc addr bytes) s = .next s ∧ exec (.spiWriteFixed addr bytes) s = .next s) ∧
  ∀ (addr : BitVec 24) (bytes : List Byte) (s : State), s.isUp → 4 ≤ bytes.length →
    (accessWrite s .spi (addr.setWidth 32) (leWord bytes)).reset = false →
    Leaves (.spiWriteInc addr bytes) s
      (spiStore true (spiWords (bytes.drop 4)) (addr + 4) (accessWrite s .spi (addr.setWidth 32) (leWord bytes)).s) ∧
    Leaves (.spiWriteFixed addr bytes) s
      (spiStore false (spiWords (bytes.drop 4)) addr (accessWrite s .spi (addr.setWidth 32) (leWord bytes)).s)

/-- SPI_READ_INC and SPI_READ_FIXED answer four dummy bytes of low level and then 4 bytes a word, least significant byte first, and
leave device memory as it was; the one word read at an address is the word that the SPI path reads there. The bytes of a transfer
spell the command: opcode, address most significant byte first, for a read four dummy bytes and the bytes clocked; any other opcode
spells none. -/
def Obligations.SpiReads : Prop :=
  (∀ addr count (s : State), s.isUp → Ends (.spiReadInc addr count) s fun t =>
    (∃ bytes, bytes.length = 4 * count ∧ t.out = s.out ++ [.spiData ([0, 0, 0, 0] ++ bytes)]) ∧ SameMemory s t) ∧
  (∀ addr count (s : State), s.isUp → Ends (.spiReadFixed addr count) s fun t =>
    (∃ bytes, bytes.length = 4 * count ∧ t.out = s.out ++ [.spiData ([0, 0, 0, 0] ++ bytes)]) ∧ SameMemory s t) ∧
  (∀ (addr : BitVec 24) (s : State), s.isUp →
    Leaves (.spiReadInc addr 1) s ((accessRead s .spi (addr.setWidth 32)).1.emit
      (.spiData ([0, 0, 0, 0] ++ leBytes 4 (accessRead s .spi (addr.setWidth 32)).2.1.toNat))) ∧
    exec (.spiReadFixed addr 1) s = exec (.spiReadInc addr 1) s) ∧
  (∀ (a b c : Byte) (rest : List Byte),
    spiTransfer (0x0B :: a :: b :: c :: rest) = some (.spiReadInc (a ++ b ++ c) ((rest.length - 4) / 4)) ∧
    spiTransfer (0x0D :: a :: b :: c :: rest) = some (.spiReadFixed (a ++ b ++ c) ((rest.length - 4) / 4)) ∧
    spiTransfer (0x02 :: a :: b :: c :: rest) = some (.spiWriteInc (a ++ b ++ c) rest) ∧
    spiTransfer (0x0A :: a :: b :: c :: rest) = some (.spiWriteFixed (a ++ b ++ c) rest)) ∧
  ∀ (op : Byte) (rest : List Byte), op ≠ 0x0B → op ≠ 0x0D → op ≠ 0x02 → op ≠ 0x0A → spiTransfer (op :: rest) = none

/-- INDEX_WRITE of the seven pairs: bits 28 to 0 take the word, ERR clears where 1 is written, a partly written entry is discarded;
the banks of other paths and pairs, and all else, stay. -/
def Obligations.IndexWrites : Prop :=
  ∀ path w (s : State), s.takes path →
    ∀ e ∈ [((0 : Fin 7), A.objGranIndex), (1, A.objLoftIndex), (2, A.layerLutIndex), (3, A.pipeLutIndex), (4, A.schedGclIndex),
           (5, A.barnIndex), (6, A.perfSnapIndex)],
    Ends (.indexWrite path (BitVec.ofNat 32 e.2) w) s fun t =>
      bankOf t path e.1 = { bankOf s path e.1 with
        index := (((bankOf s path e.1).index &&& 0xE0000000) ||| (w &&& 0x1FFFFFFF)) &&& ~~~(w &&& 0x20000000), buf := none } ∧
      (∀ q (j : Fin 7), q ≠ path ∨ j ≠ e.1 → bankOf t q j = bankOf s q j) ∧
      SameRegsBut (fun _ => False) s t ∧ TouchesOnly [.regs] s t

/-- DATA_READ answers the word at WORD of the table that TABLE selects, in its applied state (the gate lists by SYS.VIEW), and steps
WORD on under AUTO_INC; a later word of a latched entry comes from the latch, which the read of an entry's first word fills.
DATA_WRITE buffers the words of an entry, and its last word stores them all, in no other word than theirs, where the table accepts
writes: loft, LUTs and granary in the set-up window, the gate lists in their shadow copy and the journal's write buffer always. Past
the end both set ERR and hold WORD; a refused write, a read of a busy plane of the NOR and a TABLE that a pair does not serve (log
56) set ERR and step on. Words of an entry that were not buffered stay as they were (log 57). -/
def Obligations.TableData : Prop :=
  (∀ path w (s : State), s.takes path →
    ∀ e ∈ ([(0, 0, 327680, smGet 0 s.scene.ctxBin w), (0, 1, 327680, smGet 0 s.scene.ctxDraw w),
            (1, 0, 2097152, leWord (memBytes s.loft (4 * w) 4)), (2, 0, 98304, smGet 0 s.scene.degamma w),
            (3, 0, 8192, smGet 0 s.scene.regamma w),
            (4, 0, 512, smGet 0 (if s.regs.view.getLsbD (pathCode path) then s.gcl else s.regs.gclShadow) w),
            (5, 1, 60, smGet 0 s.barn.table1 w), (5, 2, 60, smGet 0 s.barn.table2 w), (6, 0, 1024, nth 0 (snapEntry s (w / 2)) (w % 2))]
           : List (Fin 7 × Nat × Nat × Word)),
    w < e.2.2.1 → Selects s path e.1 e.2.1 w → (∀ l, w % pairEntry e.1 ≠ 0 → (bankOf s path e.1).latch ≠ some (e.2.1, w / pairEntry e.1 * pairEntry e.1, l)) →
    Ends (.dataRead path (pairData e.1)) s fun t =>
      t.out = s.out ++ [.read path (pairData e.1) e.2.2.2] ∧ Stepped s t path e.1 0 ∧
      SameRegsBut (fun _ => False) s t ∧ TouchesOnly [.regs, .out] s t) ∧
  (∀ path w (s : State), s.takes path → Selects s path 5 0 w → planeBusy s (norPlane (4 * w)) = false →
    Ends (.dataRead path (pairData 5)) s fun t =>
      t.out = s.out ++ [.read path (pairData 5) (leWord (norBytes s.barn (4 * w) 4))] ∧ Stepped s t path 5 0 ∧ TouchesOnly [.regs, .out] s t) ∧
  (∀ path w (s : State), s.takes path → Selects s path 5 0 w → planeBusy s (norPlane (4 * w)) = true →
    Ends (.dataRead path (pairData 5)) s fun t =>
      t.out = s.out ++ [.read path (pairData 5) 0] ∧ Stepped s t path 5 0x20000000 ∧ TouchesOnly [.regs, .out] s t) ∧
  (∀ path (k : Fin 7) table w (s : State), s.takes path → Selects s path k table w → w < pairWords k table → pairTable k table = true →
    ¬(k = 5 ∧ table = 0) → w % pairEntry k = 0 → Ends (.dataRead path (pairData k)) s fun t =>
      (bankOf t path k).latch = some (table, w, (List.range (pairEntry k)).map (fun i => (tableWord s path k table (w + i)).1))) ∧
  (∀ path (k : Fin 7) table w l (s : State), s.takes path → Selects s path k table w → w < pairWords k table → pairTable k table = true →
    w % pairEntry k ≠ 0 → (bankOf s path k).latch = some (table, w / pairEntry k * pairEntry k, l) →
    Ends (.dataRead path (pairData k)) s fun t =>
      t.out = s.out ++ [.read path (pairData k) (nth 0 l (w % pairEntry k))] ∧ Stepped s t path k 0 ∧ TouchesOnly [.regs, .out] s t) ∧
  (∀ path (k : Fin 7) table w (s : State), s.takes path → Selects s path k table w → pairWords k table ≤ w →
    Ends (.dataRead path (pairData k)) s (fun t => t.out = s.out ++ [.read path (pairData k) 0] ∧
      bankOf t path k = (bankOf s path k).fail ∧ TouchesOnly [.regs, .out] s t) ∧
    ∀ v, Ends (.dataWrite path (pairData k) v) s fun t =>
      (bankOf t path k).index = (bankOf s path k).index ||| 0x20000000 ∧ (bankOf t path k).latch = none ∧
      SameRegsBut (fun _ => False) s t ∧ TouchesOnly [.regs] s t) ∧
  (∀ path (k : Fin 7) table w (s : State), s.takes path → Selects s path k table w → w < pairWords k table → pairTable k table = false →
    Ends (.dataRead path (pairData k)) s fun t =>
      t.out = s.out ++ [.read path (pairData k) 0] ∧ Stepped s t path k 0x20000000 ∧ TouchesOnly [.regs, .out] s t) ∧
  (∀ path (k : Fin 7) table w v (s : State), s.takes path → Selects s path k table w → w < pairWords k table →
    pairTable k table = false ∨ (k.val ≤ 3 ∧ 1 < s.fld F.sysStateState) ∨ (k = 5 ∧ table = 2) ∨
      (k = 5 ∧ table = 0 ∧ (rawWritable s (4 * w) = false ∨ ∃ p m, s.barn.rawBusy = some (false, p, m) ∧ p ≠ w / 64)) ∨ k = 6 →
    Ends (.dataWrite path (pairData k) v) s fun t => Stepped s t path k 0x20000000 ∧ (bankOf t path k).buf = none ∧
      (bankOf t path k).latch = none ∧ SameRegsBut (fun _ => False) s t ∧ TouchesOnly [.regs] s t) ∧
  (∀ path w (v : Word) (s : State), s.takes path → s.fld F.sysStateState ≤ 1 → w < 2097152 → Selects s path 1 0 w →
    Ends (.dataWrite path (pairData 1) v) s fun t => memBytes t.loft (4 * w) 4 = leBytes 4 v.toNat ∧
      (∀ x, x / 4 ≠ w → memGet t.loft x = memGet s.loft x) ∧ Stepped s t path 1 0 ∧
      SameRegsBut (fun _ => False) s t ∧ TouchesOnly [.regs, .loft] s t) ∧
  (∀ path w v (s : State), s.takes path → s.fld F.sysStateState ≤ 1 → w < 98304 → Selects s path 2 0 w →
    Ends (.dataWrite path (pairData 2) v) s fun t => t.scene = { s.scene with degamma := smSet 0 s.scene.degamma w v } ∧
      Stepped s t path 2 0 ∧ SameRegsBut (fun _ => False) s t ∧ TouchesOnly [.regs, .scene] s t) ∧
  (∀ path w v (s : State), s.takes path → s.fld F.sysStateState ≤ 1 → w < 8192 → Selects s path 3 0 w →
    Ends (.dataWrite path (pairData 3) v) s fun t => t.scene = { s.scene with regamma := smSet 0 s.scene.regamma w v } ∧
      Stepped s t path 3 0 ∧ SameRegsBut (fun _ => False) s t ∧ TouchesOnly [.regs, .scene] s t) ∧
  (∀ path w v (s : State), s.takes path → w < 60 → Selects s path 5 1 w →
    Ends (.dataWrite path (pairData 5) v) s fun t => t.barn = { s.barn with table1 := smSet 0 s.barn.table1 w v } ∧
      Stepped s t path 5 0 ∧ SameRegsBut (fun _ => False) s t ∧ TouchesOnly [.regs, .barn] s t) ∧
  (∀ path (k : Fin 7) table w v (s : State), s.takes path → k = 4 ∨ (k = 0 ∧ s.fld F.sysStateState ≤ 1) → Selects s path k table w →
    w < pairWords k table → pairTable k table = true → w % pairEntry k + 1 < pairEntry k →
    Ends (.dataWrite path (pairData k) v) s fun t => Stepped s t path k 0 ∧
      (bankOf t path k).buf = some (table, w / pairEntry k * pairEntry k, smPut (bufferedWords s path k table w) (w % pairEntry k) v) ∧
      t.regs.gclShadow = s.regs.gclShadow ∧ SameRegsBut (fun _ => False) s t ∧ TouchesOnly [.regs] s t) ∧
  (∀ path w v (s : State), s.takes path → w < 512 → Selects s path 4 0 w → w % 2 = 1 →
    (∀ e ∈ bufferedWords s path 4 0 w, e.1 = 0) → (bufferedWords s path 4 0 w).length ≤ 1 →
    Ends (.dataWrite path (pairData 4) v) s fun t => Stepped s t path 4 0 ∧ (bankOf t path 4).buf = none ∧
      (∀ x, smGet 0 t.regs.gclShadow x = writtenWord s path 4 0 w v x (smGet 0 s.regs.gclShadow x)) ∧
      SameRegsBut (fun _ => False) s t ∧ TouchesOnly [.regs] s t) ∧
  ∀ path table w v (s : State), s.takes path → s.fld F.sysStateState ≤ 1 → table ≤ 1 → w < 327680 → Selects s path 0 table w →
    w % 8 = 7 → (∀ e ∈ bufferedWords s path 0 table w, e.1 < 7) → ((bufferedWords s path 0 table w).map (·.1)).Nodup →
    Ends (.dataWrite path (pairData 0) v) s fun t => Stepped s t path 0 0 ∧ (bankOf t path 0).buf = none ∧
      (∀ x, smGet 0 t.scene.ctxBin x = writtenWord s path 0 table w v x (smGet 0 s.scene.ctxBin x) ∧
        smGet 0 t.scene.ctxDraw x = writtenWord s path 0 table w v x (smGet 0 s.scene.ctxDraw x)) ∧
      SameRegsBut (fun _ => False) s t ∧ TouchesOnly [.regs, .scene] s t

/-- STROBE of blocks without SCHED and PIPE that passes their checks is distributed at once: a shadow bit does not change; of blocks
other than LANE and EVT every SRW bit takes its shadow bit and no other register changes; the SRW bits of EVT take theirs, and no
register of another block changes; those of LANE take theirs where no item of it waits for a pipe or a camera, and else wait in the
parts that `waitingParts` lists. One that its checks refuse shows the reason. A strobe that names SCHED or PIPE goes to the winnow
first with the whole shadow state of its blocks, and one that names no block does nothing. STROBE_PROOF_DONE of a refused one shows
the verdict's reason and the named blocks in STROBE_STAT; of a good one the blocks are distributed, and holds that its proof lifts
end. With no pipe running a good strobe of PIPE alone gives every word of its set to the active copy. Without a strobe in proof the
command does nothing. -/
def Obligations.Strobes : Prop :=
  (∀ path (w : Word) (s : State), s.takes path → w.setWidth 16 ≠ (0 : BitVec 16) → w.getLsbD 6 = false → w.getLsbD 7 = false →
    otherOwn s (w.setWidth 16) (strobeView s ((setBitsBelow 16 (w.setWidth 16 : BitVec 16).toNat).flatMap (shadowWords s))) = [] →
    Leaves (.strobe path w) s (settle (distribute (replaceWaiting s (w.setWidth 16)) (w.setWidth 16)
      ((setBitsBelow 16 (w.setWidth 16 : BitVec 16).toNat).flatMap (shadowWords s)) []))) ∧
  (∀ path (w : Word) (s : State), s.takes path → w.setWidth 16 ≠ (0 : BitVec 16) → w.getLsbD 6 = false → w.getLsbD 7 = false →
    ∀ x ∈ (otherOwn s (w.setWidth 16) (strobeView s ((setBitsBelow 16 (w.setWidth 16 : BitVec 16).toNat).flatMap (shadowWords s)))).head?,
      Ends (.strobe path w) s fun t => t.fld F.sysStrobeStatReason = x.reason.toNat ∧
        t.fld F.sysStrobeStatRefused = s.fld F.sysStrobeStatRefused ||| (w.setWidth 16 : BitVec 16).toNat ∧
        OnlyRegs (· = A.sysStrobeStat) s t ∧ TouchesOnly Part.events s t) ∧
  (∀ path (w : Word) (s : State), s.takes path → w.setWidth 16 ≠ (0 : BitVec 16) → (∀ i ∈ [6, 7, 8, 10], w.getLsbD i = false) →
    otherOwn s (w.setWidth 16) (strobeView s ((setBitsBelow 16 (w.setWidth 16 : BitVec 16).toNat).flatMap (shadowWords s))) = [] →
    Settles (.strobe path w) s fun u =>
      (∀ a, u.reg a = if (w.setWidth 16 : BitVec 16).getLsbD (a / 0x10000) then (s.reg a &&& ~~~srwMask a) ||| (s.shadowReg a &&& srwMask a)
        else s.reg a) ∧
      u.regs.shadow = s.regs.shadow ∧ TouchesOnly [.regs, .scene] s u) ∧
  (∀ path (s : State), s.takes path → Settles (.strobe path 0x400) s fun u =>
    (∀ a, a / 0x10000 = 10 → u.reg a &&& srwMask a = s.shadowReg a &&& srwMask a) ∧ u.regs.shadow = s.regs.shadow ∧
    OnlyRegs (fun _ => False) s u ∧ TouchesOnly (Part.events ++ [.scene, .queueSizes]) s u) ∧
  (∀ path (s : State), s.takes path → otherOwn s 0x100 (strobeView s (shadowWords s 8)) = [] →
    Settles (.strobe path 0x100) s fun u => u.regs.shadow = s.regs.shadow ∧
      u.regs.pend = s.regs.pend.filter (fun x => x.fixed || x.block != 8) ++ waitingParts (replaceWaiting s 0x100) 0x100 (shadowWords s 8) []) ∧
  (∀ path (s : State), s.takes path → otherOwn s 0x100 (strobeView s (shadowWords s 8)) = [] →
    (∀ i ∈ laneItems, laneHost s (strobeView s (shadowWords s 8)) i = none) → Settles (.strobe path 0x100) s fun u =>
      ∀ a, a / 0x10000 = 8 → u.reg a &&& srwMask a = s.shadowReg a &&& srwMask a) ∧
  (∀ path (w : Word) (s : State), s.takes path → w.getLsbD 6 || w.getLsbD 7 → Leaves (.strobe path w) s
    (submit s (.strobe (w.setWidth 16) (w.setWidth 16) ((setBitsBelow 16 (w.setWidth 16 : BitVec 16).toNat).flatMap (shadowWords s))
      (if w.getLsbD 6 then s.regs.gclShadow else [])))) ∧
  (∀ path (w : Word) (s : State), w.setWidth 16 = (0 : BitVec 16) → exec (.strobe path w) s = .next s) ∧
  (∀ named blocks words gcl v (s : State), s.isUp → s.scene.inHand = some (.strobe named blocks words gcl, v) → v.reason ≠ 0 →
    Settles .strobeProofDone s fun u =>
      u.fld F.sysStrobeStatReason = v.reason.toNat ∧
      u.fld F.sysStrobeStatRefused = s.fld F.sysStrobeStatRefused ||| named.toNat ∧
      OnlyRegs (· = A.sysStrobeStat) s u ∧ TouchesOnly (Part.events ++ [.scene]) s u) ∧
  (∀ named blocks words gcl v (s : State), s.isUp → s.scene.inHand = some (.strobe named blocks words gcl, v) → v.reason = 0 →
    Leaves .strobeProofDone s (settle (startProof (
      let t := distribute (s.mapScene fun x => { x with inHand := none, proofDep := none }) blocks words gcl
      if blocks.getLsbD 6 then liftHolds t v.lift else t)))) ∧
  (∀ named words gcl v (s : State), s.isUp → s.scene.inHand = some (.strobe named 0x80 words gcl, v) → v.reason = 0 →
    (∀ p, (s.pipe p).gen = .stopped) → (words.map (·.1)).Nodup → Settles .strobeProofDone s fun u =>
      ∀ e ∈ words, e.1 / 0x10000 = 7 → u.reg e.1 &&& srwMask e.1 = e.2 &&& srwMask e.1) ∧
  ∀ (s : State), (∀ n b w g v, s.scene.inHand ≠ some (.strobe n b w g, v)) → exec .strobeProofDone s = .next s

/-- For every frame of a session: one that the module does not listen to is no frame for it and does nothing, uncounted (log 19);
one that fails a check of R85, that comes before the start sequence has ended (R417), or that names no session, is dropped and
counted in RX_REJECT, and so is one whose tag is wrong. A sequenced frame that passes but is ahead of the sequence acts only through
its header, and one that was accepted before is acknowledged again. -/
def Obligations.FrameChecks : Prop :=
  (∀ c f kind bytes (s : State), messageOf c = some (f, kind, bytes) → listens (rxConfig s f.session) f = false → exec c s = .next s) ∧
  (∀ c f kind bytes (s : State), s.isUp → messageOf c = some (f, kind, bytes) → listens (rxConfig s f.session) f = true →
    s.pow.started = false ∨ frameSound (rxConfig s f.session) f kind = false ∨ sessionOf s f.session = none →
    Ends c s fun t => t.fld F.ringRxRejectCount = min 65535 (s.fld F.ringRxRejectCount + 1) ∧
      SameRegsBut (· = A.ringRxReject) s t ∧ TouchesOnly [.regs] s t) ∧
  (∀ c f kind bytes x body (s : State), s.isUp → messageOf c = some (f, kind, bytes) → listens (rxConfig s f.session) f = true →
    s.pow.started = true → frameSound (rxConfig s f.session) f kind = true → sessionOf s f.session = some x → rxBody f bytes = some body →
    tagOf s (some x.1.devNonce) (rxHeader f kind) body ≠ f.tag →
    Ends c s fun t => t.fld F.ringRxRejectCount = min 65535 (s.fld F.ringRxRejectCount + 1) ∧
      OnlyRegs (· = A.ringRxReject) s t ∧ TouchesOnly Part.events s t) ∧
  (∀ c f kind bytes (s : State), s.isUp → messageOf c = some (f, kind, bytes) → kind ≠ tyAck → Verified s f kind bytes →
    f.seq ≠ (received s f).hw.rxLast + 1 → 2 ^ 31 ≤ dist (received s f).hw.rxLast f.seq → Leaves c s (settle (received s f))) ∧
  ∀ c f kind bytes (s : State), s.isUp → messageOf c = some (f, kind, bytes) → kind ≠ tyAck → Verified s f kind bytes →
    f.seq ≠ (received s f).hw.rxLast + 1 → dist (received s f).hw.rxLast f.seq < 2 ^ 31 →
    Leaves c s (settle (sendAck (received s f)))

/-- A good OPEN starts a session with the next identifier, the next one is never 0, and OPEN_ACK answers it; the session in hand
goes on. Before the start sequence has ended, or without all four key words, the OPEN is dropped and counted. A KEEPALIVE with SEQ 1
confirms the new session: it is the session in hand, SESSION shows OPEN and its identifier, and frames are numbered from it. A
session not confirmed in time is abandoned; SESSION then shows the session in hand, OPEN where one is confirmed, and else LOST with
HOST_LOST set and CLOSED without (log 73: the model's choice). -/
def Obligations.OpenSession : Prop :=
  (∀ (f : RxFrame) n (s : State), s.isUp → listens (sessAtOpen s 0 0 0 f.link) f = true → s.pow.started = true → keyComplete s = true →
    transportOf (sessAtOpen s 0 0 0 f.link) ≠ 3 → frameSound (sessAtOpen s 0 0 0 f.link) f tyOpen = true → f.length = 8 →
    tagOf s none (rxHeader f tyOpen) (leBytes 8 n.toNat) = f.tag →
    Ends (.openSession f n) s fun t =>
      t.hw.cur = s.hw.cur ∧ t.hw.opening.map (·.id) = some s.hw.nextId ∧ t.hw.opening.map (·.hostNonce) = some n ∧
      t.hw.opening.map (·.link) = some f.link ∧
      t.hw.nextId = (if s.hw.nextId = 0xFFFF then 1 else s.hw.nextId + 1) ∧
      (s.hw.cur = none → t.fld F.ringSessionState = 1) ∧
      (∃ w bs, t.out = s.out ++ [.openAck f.link w bs] ∧ bs.length = 48) ∧
      TouchesOnly [.free, .regs, .hw, .out, .perf] s t) ∧
  (∀ (f : RxFrame) n (s : State), s.isUp → listens (sessAtOpen s 0 0 0 f.link) f = true →
    s.pow.started = false ∨ keyComplete s = false →
    Ends (.openSession f n) s fun t => t.fld F.ringRxRejectCount = min 65535 (s.fld F.ringRxRejectCount + 1) ∧
      SameRegsBut (· = A.ringRxReject) s t ∧ TouchesOnly [.regs] s t) ∧
  (∀ (f : RxFrame) c body (s : State), s.isUp → listens (rxConfig s f.session) f = true → s.pow.started = true →
    frameSound (rxConfig s f.session) f tyKeepalive = true → sessionOf s f.session = some (c, true) → rxBody f [] = some body →
    tagOf s (some c.devNonce) (rxHeader f tyKeepalive) body = f.tag → f.seq = 1 →
    Leaves (.keepalive f) s (settle (confirm (backToA (linkRecovered (countRx s f) f.link) f.link) c)) ∧
    Ends (.keepalive f) s fun t => t.hw.cur = some c ∧ t.hw.opening = none ∧ t.hw.rxLast = 1 ∧ t.fld F.ringSessionState = 2 ∧
      t.fld F.ringSessionId = c.id.toNat) ∧
  (∀ s : State, s.isUp → s.hw.opening ≠ none → Ends .openTimeout s fun t =>
    t.hw = { s.hw with opening := none } ∧
    t.fld F.ringSessionState = (if s.hw.cur ≠ none then s.fld F.ringSessionState
      else if s.flag F.ringLinkStatHostLost then 3 else 0) ∧
    SameRegsBut (· = A.ringSession) s t ∧ TouchesOnly [.regs, .hw] s t) ∧
  ∀ s : State, s.hw.opening = none → exec .openTimeout s = .next s

/-- An ACK frame acts through its header alone: the frames up to its ACK value are acknowledged, but for READ_REQs, which wait for
their READ_RESP. Every other verified frame that is next in sequence is accepted, an acknowledgement is owed, and it has its own
effect: CLOSE is acknowledged and ends the session; KEEPALIVE does nothing more; DOORBELL advances indices; READ_RESP brings the
data of a read, as a read of slots its descriptors and their place in the ring; REG_RD and REG_WR access registers and answer. After
each, the rings go on. A body is the first LENGTH bytes that the operands spell (log 20), and a DOORBELL of any LENGTH is taken for
its whole entries (log 59). -/
def Obligations.SessionFrames : Prop :=
  (∀ f (s : State), s.isUp → Verified s f tyAck [] → Leaves (.ack f) s (settle (received s f))) ∧
  (∀ f (s : State), s.isUp → Verified s f tyAck [] → s.hw.waiting = [] → Settles (.ack f) s fun u =>
    u.hw.unacked.map (·.seq) =
      (s.hw.unacked.filter (fun g => g.readId.isSome || decide (2 ^ 31 ≤ dist f.ack g.seq))).map (·.seq) ∧
    u.hw.rxLast = s.hw.rxLast) ∧
  (∀ f (s : State), s.isUp → InSequence s f tyKeepalive [] → Leaves (.keepalive f) s (settle (accepted s f))) ∧
  (∀ f (s : State), s.isUp → InSequence s f tyClose [] →
    Leaves (.close f) s (settle (closeSession (sendAck (accepted s f))))) ∧
  (∀ f (s : State), s.isUp → InSequence s f tyClose [] → Settles (.close f) s fun u =>
    u.hw.cur = none ∧ u.hw.unacked = [] ∧ u.hw.waiting = [] ∧ u.hw.rxLast = 0 ∧ u.hw.txNext = 1 ∧ u.hw.ackOwed = false ∧
    u.fld F.ringSessionState = (if s.hw.opening = none then 0 else 1)) ∧
  (∀ f t i r (s : State), s.isUp → InSequence s f tyDoorbell ((DbEntry.mk 0 t 0 i :: r).flatMap doorBytes) →
    Leaves (.doorbellSubmit f t i r) s
      (settle ((accepted s f).each ((DbEntry.mk 0 t 0 i :: r).take (f.length.toNat / 8)) doorEntry))) ∧
  (∀ f t i r (s : State), s.isUp → InSequence s f tyDoorbell ((DbEntry.mk 1 t 0 i :: r).flatMap doorBytes) →
    Leaves (.doorbellCplCi f t i r) s
      (settle ((accepted s f).each ((DbEntry.mk 1 t 0 i :: r).take (f.length.toNat / 8)) doorEntry))) ∧
  (∀ f t i r (s : State), s.isUp → InSequence s f tyDoorbell ((DbEntry.mk 2 t 0 i :: r).flatMap doorBytes) →
    Leaves (.doorbellPrecCi f t i r) s
      (settle ((accepted s f).each ((DbEntry.mk 2 t 0 i :: r).take (f.length.toNat / 8)) doorEntry))) ∧
  (∀ f t i r (s : State), s.isUp → InSequence s f tyDoorbell ((DbEntry.mk 3 t 0 i :: r).flatMap doorBytes) →
    Leaves (.doorbellEqCi f t i r) s
      (settle ((accepted s f).each ((DbEntry.mk 3 t 0 i :: r).take (f.length.toNat / 8)) doorEntry))) ∧
  (∀ f id st d (s : State), s.isUp → InSequence s f tyReadResp (leBytes 2 id.toNat ++ leBytes 1 st.toNat ++ [0] ++ d) →
    Leaves (.readResp f id st d) s (readAnswered (accepted s f) id st (d.take (f.length.toNat - 4)))) ∧
  (∀ f id d (n : Fin 32) first count r (s : State), s.isUp →
    InSequence s f tyReadResp (leBytes 2 id.toNat ++ leBytes 1 0 ++ [0] ++ d) →
    (accepted s f).hw.reads.find? (fun x => x.id == id && x.sent) = some r → r.for_ = .slots n first count →
    (s.ring n).reading = some r.id → (d.take (f.length.toNat - 4)).length = r.len → Settles (.readResp f id 0 d) s fun u =>
      (u.ring n).reading = none ∧ u.reg (A.ringCi n) = first + BitVec.ofNat 32 count ∧
      (u.ring n).buf = (s.ring n).buf ++ (List.range count).map (fun i =>
        descOf ((d.take (f.length.toNat - 4)).drop (32 * i)) (first + BitVec.ofNat 32 i) false)) ∧
  (∀ f a n x e (s : State), s.isUp → InSequence s f tyRegRd (regHead a n x.toNat 0 ++ e) →
    Leaves (.regRd f a n x e) s (regRead (accepted s f) f a n x)) ∧
  ∀ f a n x ws e (s : State), s.isUp →
    InSequence s f tyRegWr (regHead a n x.toNat 0 ++ ws.flatMap (fun w => leBytes 4 w.toNat) ++ e) →
    Leaves (.regWr f a n x ws e) s
      (regWritten (accepted s f) f a n x (regHead a n x.toNat 0 ++ ws.flatMap (fun w => leBytes 4 w.toNat) ++ e))

/-- A REG_RD or REG_WR whose COUNT is not 1 to 64, or whose LENGTH does not fit it, is answered with MALFORMED (5) and touches no
register. A good REG_RD reads its words one after the other, each from the state that the one before left, and its answer carries
the 4 bytes of each; STATUS is that of the first word that is not OK, and FIRST_BAD that word's position, both 0 where all are. A
frame of one word makes the access that any path makes, over the path Haywain, and is answered with its word or its status. -/
def Obligations.RegisterFrames : Prop :=
  (∀ (s : State) (f : RxFrame) a (n : BitVec 8) x, (n.toNat < 1 ∨ 64 < n.toNat ∨ f.length ≠ 8) →
    regRead s f a n x = settle (sendSeq s tyRegRdResp (regHead a n 5 0) none)) ∧
  (∀ (s : State) (f : RxFrame) a (n : BitVec 8) x bs, (n.toNat < 1 ∨ 64 < n.toNat ∨ f.length.toNat ≠ 8 + 4 * n.toNat) →
    regWritten s f a n x bs = settle (sendSeq s tyRegWrResp (regHead a n 5 0) none)) ∧
  (∀ (s : State) (f : RxFrame) a (n : BitVec 8) x, 1 ≤ n.toNat → n.toNat ≤ 64 → f.length = 8 →
    regRead s f a n x = settle (sendSeq (readRun s a n.toNat x).s tyRegRdResp
      (regHead a n (readRun s a n.toNat x).status (readRun s a n.toNat x).bad ++ (readRun s a n.toNat x).bytes) none)) ∧
  (∀ (s : State) a n x, SameMemory s (readRun s a n x).s ∧ (readRun s a n x).status ≤ 4 ∧
    (readRun s a n x).bytes = (List.range n).flatMap (fun i => leBytes 4 (wordRead s a x i).1.toNat) ∧
    (readRun s a (n + 1) x).s = (accessRead (readRun s a n x).s .haywain (wordAddr a x n)).1 ∧
    ((readRun s a n x).status = 0 → (readRun s a n x).bad = 0 ∧ ∀ i < n, (wordRead s a x i).2 = 0) ∧
    ((readRun s a n x).status ≠ 0 → (readRun s a n x).bad < n ∧ (readRun s a n x).status = (wordRead s a x (readRun s a n x).bad).2 ∧
      ∀ i < (readRun s a n x).bad, (wordRead s a x i).2 = 0)) ∧
  (∀ f a x e (s : State), s.isUp → f.length = 8 → InSequence s f tyRegRd (regHead a 1 x.toNat 0 ++ e) →
    Settles (.regRd f a 1 x e) s fun u =>
      u = sendSeq (accessRead (accepted s f) .haywain a).1 tyRegRdResp (regHead a 1 (accessRead (accepted s f) .haywain a).2.2 0 ++
        leBytes 4 (accessRead (accepted s f) .haywain a).2.1.toNat) none) ∧
  ∀ f a x (w : Word) (s : State), s.isUp → f.length = 12 → InSequence s f tyRegWr (regHead a 1 x.toNat 0 ++ leBytes 4 w.toNat) →
    (accessWrite (accepted s f) .haywain a w).reset = false → Settles (.regWr f a 1 x [w] []) s fun u =>
      u = sendSeq (finishWrite (accessWrite (accepted s f) .haywain a w)) tyRegWrResp
        (regHead a 1 (accessWrite (accepted s f) .haywain a w).status 0) none

/-- Whatever waits, sending it leaves at most 64 sequenced frames unacknowledged where there were no more before, and the frames keep
their order: those that wait follow those that were sent. -/
def Obligations.SendWindow : Prop :=
  ∀ s : State, s.hw.unacked.length ≤ 64 →
    (pump s).hw.unacked.length ≤ 64 ∧
    (∀ kind body id, (sendSeq s kind body id).hw.unacked.length ≤ 64) ∧
    ((pump s).hw.unacked ++ (pump s).hw.waiting).map (fun f => (f.kind, f.body)) =
      (s.hw.unacked ++ s.hw.waiting).map (fun f => (f.kind, f.body))

/-- SESSION_CLOSE_REG ends an open session: its frames go, the next one counts from SEQ 1, and SESSION shows OPENING where another
is being opened, else CLOSED; the module sends no CLOSE of its own (log 58). ACK_DUE sends a pure ACK, with the current ACK value,
where one is owed, on the other link where only that one carries frames. KEEPALIVE_TIMER sends a KEEPALIVE on a usable link unless
the interval is 0. RETX_TIMEOUT sends everything unacknowledged again on a usable link where no frame has been sent again three
times, and counts each in RETX; where one has, the link fails with cause 9. -/
def Obligations.SessionTimers : Prop :=
  (∀ s : State, s.isUp → s.hw.ackOwed = true → s.hw.cur ≠ none → linkUsable s (activeLink s) = true → Ends .ackDue s fun t =>
    t.hw = { s.hw with ackOwed := false } ∧
    (∃ w bs, t.out = s.out ++ [.frame (activeLink s) w (BitVec.ofNat 8 tyAck) bs] ∧ (bs.drop 8).take 4 = leBytes 4 s.hw.rxLast.toNat) ∧
    TouchesOnly [.hw, .out, .perf] s t) ∧
  (∀ s : State, s.isUp → s.hw.ackOwed = true → s.hw.cur ≠ none → linkUsable s (activeLink s) = false →
    linkUsable s (linkOther (activeLink s)) = true → Ends .ackDue s fun t =>
      t.hw = { s.hw with ackOwed := false } ∧ activeLink t = linkOther (activeLink s) ∧
      (∃ w bs, t.out = s.out ++ [.frame (linkOther (activeLink s)) w (BitVec.ofNat 8 tyAck) bs] ∧
        (bs.drop 8).take 4 = leBytes 4 s.hw.rxLast.toNat) ∧
      SameRegsBut (· = A.ringLinkStat) s t ∧ TouchesOnly [.regs, .hw, .out, .perf] s t) ∧
  (∀ s : State, s.hw.ackOwed = false → exec .ackDue s = .next s) ∧
  (∀ path (s : State), s.takes path → s.hw.cur ≠ none → Settles (.sessionCloseReg path) s fun u =>
    u.hw.cur = none ∧ u.hw.unacked = [] ∧ u.hw.waiting = [] ∧ u.hw.rxLast = 0 ∧ u.hw.txNext = 1 ∧ u.hw.ackOwed = false ∧
    u.hw.opening = s.hw.opening ∧ u.fld F.ringSessionState = (if s.hw.opening = none then 0 else 1)) ∧
  (∀ path (s : State), s.takes path → s.hw.cur ≠ none → s.dma = [] → (∀ n, n < 32 → ringState s n ≠ 1 ∧ ringState s n ≠ 2) →
    s.fault.held = [] → (∀ q : Fin 8, s.fld (F.evtQctlState q) ≠ 1) → Settles (.sessionCloseReg path) s fun u =>
      u.hw = { s.hw with cur := none, unacked := [], waiting := [], reads := [], ackOwed := false, rxLast := 0, txNext := 1 } ∧
      u.out = s.out ∧ SameRegsBut (fun a => a = A.ringSession ∨ a = A.faultRrecHeld ∨ a = A.evtSrcStat 35) s u ∧
      TouchesOnly [.regs, .hw, .light] s u) ∧
  (∀ path (s : State), s.takes path → s.hw.cur = none → Leaves (.sessionCloseReg path) s (settle s)) ∧
  (∀ c (s : State), s.isUp → s.hw.cur = some c → c.keepalive ≠ 0 → linkUsable s (activeLink s) = true →
    Leaves .keepaliveTimer s (sendSeq s tyKeepalive [] none)) ∧
  (∀ c (s : State), s.isUp → s.hw.cur = some c → c.keepalive ≠ 0 → linkUsable s (activeLink s) = true → s.hw.waiting = [] →
    s.hw.unacked.length < 64 → Ends .keepaliveTimer s fun t =>
      t.hw.unacked = s.hw.unacked ++
        [{ kind := BitVec.ofNat 8 tyKeepalive, seq := s.hw.txNext, body := [], retx := false, sends := 0, readId := none }] ∧
      t.hw.txNext = s.hw.txNext + 1 ∧ t.hw.ackOwed = false ∧ t.out.length = s.out.length + 1 ∧ TouchesOnly [.hw, .out, .perf] s t) ∧
  (∀ c (s : State), s.hw.cur = some c → c.keepalive = 0 → exec .keepaliveTimer s = .next s) ∧
  (∀ s : State, s.isUp → s.hw.cur ≠ none → s.hw.unacked ≠ [] → linkUsable s (activeLink s) = true → takeOverWaits s = false →
    (∀ f ∈ s.hw.unacked, f.sends < 3) → Ends .retxTimeout s fun t =>
      t.hw.unacked = s.hw.unacked.map (fun f => { f with sends := f.sends + 1, retx := true }) ∧
      t.hw.ackOwed = false ∧ t.out.length = s.out.length + s.hw.unacked.length ∧
      t.fld F.ringRetxCount = min 65535 (s.fld F.ringRetxCount + s.hw.unacked.length) ∧
      SameRegsBut (· = A.ringRetx) s t ∧ TouchesOnly [.regs, .hw, .out, .perf] s t) ∧
  ∀ f (s : State), s.isUp → s.hw.cur ≠ none → linkUsable s (activeLink s) = true → takeOverWaits s = false →
    f ∈ s.hw.unacked → 3 ≤ f.sends → Leaves .retxTimeout s (linkFailed s (activeLink s) 9)

/-- LINK_DOWN of a link that is up and on its way to nothing shows it down and fails it with cause 10, and without LINK_A gPTP holds
over; of one that is down it does nothing. LINK_UP, of LINK_B once the module has started, shows the link up and awake, sets its PHY
as HW_CTL has it, and A_1000 as that and the partner allow; then what waits goes on. A sleep request is accepted where ACCEPT is set
and no frame is in hand on the link, else rejected. A partner's wake-up, or one that software asks for, takes a link out of sleep;
on a link that does not sleep neither does anything. -/
def Obligations.LinkEvents : Prop :=
  (∀ l (s : State), s.isUp → linkAsleep s l = false → linkIsUp s l = true → s.hw.waking.getLsbD (linkIdx l) = false →
    Leaves (.linkDown l) s (if l = .a then holdOver (linkFailed (stopWaking (setUp s l false) l) l 10)
      else linkFailed (stopWaking (setUp s l false) l) l 10)) ∧
  (∀ (s : State), s.isUp → linkAsleep s .b = false → linkIsUp s .b = true → s.hw.waking.getLsbD (linkIdx .b) = false →
    activeLink s = .a → FailsFirst s (linkUnit .b) → Settles (.linkDown .b) s fun t =>
      linkIsUp t .b = false ∧ Recovers s t (linkUnit .b) 10) ∧
  (∀ l (s : State), linkIsUp s l = false → s.hw.waking.getLsbD (linkIdx l) = false → exec (.linkDown l) s = .next s) ∧
  (∀ l partner (s : State), s.isUp → l = .a ∨ s.pow.started = true → s.hw.cur = none → activeLink s = l →
    Settles (.linkUp l partner) s fun u =>
      linkIsUp u l = true ∧ linkAsleep u l = false ∧ u.hw.waking.getLsbD (linkIdx l) = false ∧
      u.out = s.out ++ [.phyMode l (phyMaster (hwCtlNow s) l) (phyNegotiates (hwCtlNow s) l) (phyAt1000 (hwCtlNow s) l partner)] ∧
      (l = .a → u.fld F.ringLinkStatA1000 = (phyAt1000 (hwCtlNow s) l partner).toNat) ∧
      SameRegsBut (fun a => a = A.ringLinkStat ∨ a = A.evtLinkSleep) s u ∧ TouchesOnly [.regs, .hw, .out] s u) ∧
  (∀ l partner (s : State), s.isUp → l = .a ∨ s.pow.started = true → Settles (.linkUp l partner) s fun u => linkIsUp u l = true) ∧
  (∀ partner (s : State), s.pow.started = false → exec (.linkUp .b partner) s = .next s) ∧
  (∀ l (s : State), s.isUp → linkIsUp s l = true → acceptsSleep s l = true → s.hw.unacked = [] → s.hw.waiting = [] →
    l = .b ∨ s.flag F.pipePtpCfgEn = false → Ends (.linkSleepRequest l) s fun t =>
      linkIsUp t l = false ∧ linkAsleep t l = true ∧ t.out = s.out ++ [.tc10SleepAccept l] ∧
      SameRegsBut (fun a => a = A.ringLinkStat ∨ a = A.evtLinkSleep) s t ∧ TouchesOnly [.regs, .out] s t) ∧
  (∀ (s : State), s.isUp → linkIsUp s .a = true → acceptsSleep s .a = true → s.hw.unacked = [] → s.hw.waiting = [] →
    Leaves (.linkSleepRequest .a) s (holdOver (setAsleep (setUp (s.emit (.tc10SleepAccept .a)) .a false) .a true))) ∧
  (∀ l (s : State), s.isUp → linkIsUp s l = true →
    acceptsSleep s l = false ∨ (activeLink s = l ∧ (s.hw.unacked ≠ [] ∨ s.hw.waiting ≠ [])) →
    Leaves (.linkSleepRequest l) s (s.emit (.tc10SleepReject l))) ∧
  (∀ l (s : State), s.isUp → linkAsleep s l = true → Ends (.linkWakeup l) s fun t =>
    linkAsleep t l = false ∧ t.hw = { s.hw with waking := s.hw.waking ||| BitVec.ofNat 2 (1 <<< linkIdx l) } ∧
    SameRegsBut (· = A.evtLinkSleep) s t ∧ TouchesOnly [.regs, .hw] s t) ∧
  (∀ path l (s : State), s.takes path → linkAsleep s l = true → l = .a ∨ s.pow.started = true → Ends (.linkWakeRequest path l) s fun t =>
    linkAsleep t l = false ∧ t.out = s.out ++ [.tc10Wakeup l] ∧
    SameRegsBut (· = A.evtLinkSleep) s t ∧ TouchesOnly [.regs, .hw, .out] s t) ∧
  (∀ path (s : State), s.pow.started = false → exec (.linkWakeRequest path .b) s = .next s) ∧
  ∀ path l (s : State), linkAsleep s l = false →
    exec (.linkWakeup l) s = .next s ∧ exec (.linkWakeRequest path l) s = .next s

/-- An ARP request and a neighbour solicitation, heard on an enabled link once the module has started (log 19): for the module's own
address and sent to its MAC or to the group, it is answered with MAC to the asker; for another address it does nothing; with a bad
FCS or another destination it is dropped and counted in RX_REJECT (log 81). One that is not heard does nothing. The addresses are
those that the session in hand read when it opened, else the registers. -/
def Obligations.AddressReplies : Prop :=
  (∀ l (f : NetFrame) senderIp senderMac (s : State), s.isUp → hears s l f = true → f.fcsOk = true →
    f.dstMac = (pageNow s).mac ∨ f.dstMac = BitVec.allOnes 48 →
    Leaves (.arpRequest l f (pageNow s).ip4Local senderIp senderMac) s
      (s.emit (.arpReply l (tagOut (pageNow s).hwCtl) (pageNow s).mac (pageNow s).ip4Local senderMac senderIp))) ∧
  (∀ l (f : NetFrame) senderIp senderMac (s : State), s.isUp → hears s l f = true → f.fcsOk = true →
    f.dstMac = (pageNow s).mac ∨ f.dstMac = solicitedMac (pageNow s).ip6Local →
    Leaves (.neighbourSolicitation l f (pageNow s).ip6Local senderIp senderMac) s
      (s.emit (.neighbourAdvert l (tagOut (pageNow s).hwCtl) (pageNow s).mac (pageNow s).ip6Local senderMac senderIp))) ∧
  (∀ l (f : NetFrame) t senderIp senderMac (s : State), s.isUp → hears s l f = true →
    f.fcsOk = false ∨ (f.dstMac ≠ (pageNow s).mac ∧ f.dstMac ≠ BitVec.allOnes 48) →
    Ends (.arpRequest l f t senderIp senderMac) s fun u => u.fld F.ringRxRejectCount = min 65535 (s.fld F.ringRxRejectCount + 1) ∧
      SameRegsBut (· = A.ringRxReject) s u ∧ TouchesOnly [.regs] s u) ∧
  (∀ l (f : NetFrame) t senderIp senderMac (s : State), s.isUp → hears s l f = true →
    f.fcsOk = false ∨ (f.dstMac ≠ (pageNow s).mac ∧ f.dstMac ≠ solicitedMac (pageNow s).ip6Local) →
    Ends (.neighbourSolicitation l f t senderIp senderMac) s fun u =>
      u.fld F.ringRxRejectCount = min 65535 (s.fld F.ringRxRejectCount + 1) ∧
      SameRegsBut (· = A.ringRxReject) s u ∧ TouchesOnly [.regs] s u) ∧
  (∀ l (f : NetFrame) t senderIp senderMac (s : State), s.isUp → f.fcsOk = true → t ≠ (pageNow s).ip4Local →
    f.dstMac = (pageNow s).mac ∨ f.dstMac = BitVec.allOnes 48 → exec (.arpRequest l f t senderIp senderMac) s = .next s) ∧
  (∀ l (f : NetFrame) t senderIp senderMac (s : State), s.isUp → f.fcsOk = true → t ≠ (pageNow s).ip6Local →
    f.dstMac = (pageNow s).mac ∨ f.dstMac = solicitedMac (pageNow s).ip6Local →
    exec (.neighbourSolicitation l f t senderIp senderMac) s = .next s) ∧
  (∀ l (f : NetFrame) t senderIp senderMac (s : State), hears s l f = false → exec (.arpRequest l f t senderIp senderMac) s = .next s) ∧
  (∀ l (f : NetFrame) t senderIp senderMac (s : State), hears s l f = false →
    exec (.neighbourSolicitation l f t senderIp senderMac) s = .next s) ∧
  ∀ s : State, (s.hw.cur = none → s.hw.opening = none → (pageNow s).ip4Local = s.reg A.ringIp4Local) ∧
    ∀ c, s.hw.cur = some c → pageNow s = c

/-- EVENT_OCCURRENCE of an enabled edge source outside its filter time: the count goes from 0 to 1 with the time and DETAIL of the
occurrence, or up by one with those of the oldest kept, or at 255 is lost, which SATURATED and SATURATIONS show. An occurrence of a
disabled source, or inside the filter time, is not counted. Each of these sets SPI_FLAG where SPI is 1 (log 67). An occurrence of a
source that does not exist has no effect. -/
def Obligations.EdgeOccurrences : Prop :=
  (∀ (k : Fin 1024) level (s : State), s.isUp → assignedSource k = true → isLevel s k = false → edgeFiltered s k = false →
    s.flag (F.evtSrcCfgEn k) = true → s.fld (F.evtSrcStatCount k) = 0 → Ends (.eventOccurrence k level) s fun t =>
      t.fld (F.evtSrcStatCount k) = 1 ∧ (t.source k).stamp = s.time.base ∧ (t.source k).detail = detailOf s k ∧ SpiMarked s t k ∧
      (∀ j, j ≠ k.val → t.source j = s.source j) ∧ OnlyRegs (fun _ => False) s t ∧ TouchesOnly Part.shared s t) ∧
  (∀ (k : Fin 1024) level (s : State), s.isUp → assignedSource k = true → isLevel s k = false → edgeFiltered s k = false →
    s.flag (F.evtSrcCfgEn k) = true → s.fld (F.evtSrcStatCount k) ≠ 0 → s.fld (F.evtSrcStatCount k) ≠ 255 →
    Ends (.eventOccurrence k level) s fun t =>
      t.fld (F.evtSrcStatCount k) = s.fld (F.evtSrcStatCount k) + 1 ∧ SpiMarked s t k ∧
      (t.source k) = { s.source k with lastAt := some s.time.uptime } ∧ SameRegsBut (· = A.evtSrcStat k) s t ∧
      TouchesOnly [.regs, .src] s t) ∧
  (∀ (k : Fin 1024) level (s : State), s.isUp → assignedSource k = true → isLevel s k = false → edgeFiltered s k = false →
    s.flag (F.evtSrcCfgEn k) = true → s.fld (F.evtSrcStatCount k) = 255 → Ends (.eventOccurrence k level) s fun t =>
      t.fld (F.evtSrcStatCount k) = 255 ∧ (t.source k).saturated = true ∧ SpiMarked s t k ∧
      t.fld F.evtSaturationsCount = min 16777215 (s.fld F.evtSaturationsCount + 1) ∧
      SameRegsBut (fun a => a = A.evtSrcStat k ∨ a = A.evtSaturations) s t ∧ TouchesOnly [.regs, .src] s t) ∧
  (∀ (k : Fin 1024) level (s : State), s.isUp → assignedSource k = true → isLevel s k = false →
    edgeFiltered s k = true ∨ s.flag (F.evtSrcCfgEn k) = false → Ends (.eventOccurrence k level) s fun t =>
      t.fld (F.evtSrcStatCount k) = s.fld (F.evtSrcStatCount k) ∧ SpiMarked s t k ∧ SameRegsBut (· = A.evtSrcStat k) s t ∧
      TouchesOnly [.regs] s t) ∧
  ∀ (k : Fin 1024) level (s : State), assignedSource k = false → exec (.eventOccurrence k level) s = .next s

/-- EVENT_OCCURRENCE of a level source, the change of its filtered condition, takes effect where the block's condition has that
value: it shows in ASSERTED, and where it has not the command comes too late and does nothing (log 14); its rise is an occurrence,
counted after the start, which sets SPI_FLAG where SPI is 1 (log 67); its fall is none. RESAMPLE, once for a source whose sample is
due, counts a condition that holds where the count is 0, with RESAMPLED, and does nothing else. SNS_CHANGE shows the pin's level,
and a level that it already has changes nothing. WAKE_PULSE_END lowers WAKE_OUT. -/
def Obligations.LevelSources : Prop :=
  (∀ (k : Fin 1024) level (s : State), s.isUp → assignedSource k = true → isLevel s k = true → rawCond s k = level →
    Ends (.eventOccurrence k level) s fun t => t.fld (F.evtSrcStatAsserted k) = level.toNat ∧
      (s.pow.started = true → level = true → s.flag (F.evtSrcStatAsserted k) = false → s.flag (F.evtSrcCfgEn k) = true →
        s.fld (F.evtSrcStatCount k) = 0 → t.fld (F.evtSrcStatCount k) = 1) ∧
      (level = true → s.flag (F.evtSrcStatAsserted k) = false → SpiMarked s t k) ∧
      (level = false → t.fld (F.evtSrcStatCount k) = s.fld (F.evtSrcStatCount k) ∧
        t.fld (F.evtSrcStatSpiFlag k) = s.fld (F.evtSrcStatSpiFlag k)) ∧
      OnlyRegs (fun _ => False) s t ∧ TouchesOnly Part.shared s t) ∧
  (∀ (k : Fin 1024) level (s : State), isLevel s k = true → rawCond s k ≠ level → exec (.eventOccurrence k level) s = .next s) ∧
  (∀ (k : Fin 1024) (s : State), s.isUp → s.sampleDue.contains k.val = true → isLevel s k = true → s.flag (F.evtSrcCfgEn k) = true →
    s.flag (F.evtSrcStatAsserted k) = true → s.fld (F.evtSrcStatCount k) = 0 → Ends (.resample k) s fun t =>
      t.fld (F.evtSrcStatCount k) = 1 ∧ (t.source k).resampled = true ∧ SpiMarked s t k ∧
      t.sampleDue = s.sampleDue.filter (· != k.val) ∧ (∀ j, j ≠ k.val → t.source j = s.source j) ∧
      OnlyRegs (fun _ => False) s t ∧ TouchesOnly (Part.events ++ [.sampleDue]) s t) ∧
  (∀ (k : Fin 1024) (s : State), s.isUp → s.sampleDue.contains k.val = true →
    isLevel s k = false ∨ s.flag (F.evtSrcCfgEn k) = false ∨ s.flag (F.evtSrcStatAsserted k) = false ∨
    s.fld (F.evtSrcStatCount k) ≠ 0 → Leaves (.resample k) s { s with sampleDue := s.sampleDue.filter (· != k.val) }) ∧
  (∀ (k : Fin 1024) (s : State), s.sampleDue.contains k.val = false → exec (.resample k) s = .next s) ∧
  (∀ (pin : Fin 8) level (s : State), s.isUp → snsLevel s pin ≠ level → Ends (.snsChange pin level) s fun t =>
    snsLevel t pin = level ∧ (∀ j : Fin 8, j ≠ pin → snsLevel t j = snsLevel s j) ∧
    OnlyRegs (fun _ => False) s t ∧ TouchesOnly Part.shared s t) ∧
  (∀ (pin : Fin 8) level (s : State), s.isUp → snsLevel s pin = level → exec (.snsChange pin level) s = .next s) ∧
  (∀ s : State, s.isUp → s.pow.wakeOut = true →
    Leaves .wakePulseEnd s { s with pow := { s.pow with wakeOut := false }, out := s.out ++ [.wakePin false] }) ∧
  ∀ s : State, s.pow.wakeOut = false → exec .wakePulseEnd s = .next s

/-- The source whose record issues is one that may issue, of the highest PRIORITY among those, and of these the lowest number. Its
16-byte record leaves in one WRITE to QBASE + 16 × (QPI mod 2^SIZE), after all that was in send order before; QPI of its queue is
then one more; its count is 0, unless the record itself fills the queue whose QUEUE_FULL the source is; it
becomes active in the queue if it is EXPLICIT. With no source that may issue the command does nothing. -/
def Obligations.RecordIssue : Prop :=
  (∀ (s : State) (k : Nat), nextSource s = some k → issuable s k = true ∧ ∀ j ∈ knownSources s, issuable s j = true →
    s.fld (F.evtSrcCfgPriority j) < s.fld (F.evtSrcCfgPriority k) ∨
    (s.fld (F.evtSrcCfgPriority j) = s.fld (F.evtSrcCfgPriority k) ∧ k ≤ j)) ∧
  (∀ (s : State) (k : Fin 1024), s.isUp → nextSource s = some k.val → Ends .eventRecordIssue s fun t =>
    (∃ more, t.sendOrder = s.sendOrder ++ (BitVec.ofNat 8 tyWrite,
      leBytes 8 (s.reg64 (A.evtQbaseLo (s.fld (F.evtSrcCfgQueue k))) / 16 * 16 +
        16 * ((s.reg (A.evtQpi (s.fld (F.evtSrcCfgQueue k)))).toNat % queueSize s (s.fld (F.evtSrcCfgQueue k)))) ++
      leBytes 2 16 ++ leBytes 2 0 ++ recordOf s k) :: more) ∧
    t.reg (A.evtQpi (s.fld (F.evtSrcCfgQueue k))) = s.reg (A.evtQpi (s.fld (F.evtSrcCfgQueue k))) + 1 ∧
    (k.val ≠ 8 + s.fld (F.evtSrcCfgQueue k) → t.fld (F.evtSrcStatCount k) = 0) ∧
    (s.flag (F.evtSrcCfgExplicit k) = true → t.flag (F.evtSrcStatActive k) = true ∧
      t.fld (F.evtSrcStatAqueue k) = s.fld (F.evtSrcCfgQueue k)) ∧
    SameMemory s t ∧ TouchesOnly (Part.shared ++ [.perf]) s t) ∧
  ∀ s : State, nextSource s = none → exec .eventRecordIssue s = .next s

/-- SOURCE_COMPLETE of a source that is not active is ignored and adds 1 to STRAY_CPL. Of an active one it ends the activity; in a
re-sample phase, that is before the start has ended, a level source whose condition holds with a count of 0 is then counted
with RESAMPLED, as R328 has it. -/
def Obligations.Completions : Prop :=
  (∀ path (k : Fin 1024) (s : State), s.takes path → s.flag (F.evtSrcStatActive k) = false → Ends (.sourceComplete path k) s fun t =>
    t.fld F.evtStrayCplCount = min 16777215 (s.fld F.evtStrayCplCount + 1) ∧
    SameRegsBut (· = A.evtStrayCpl) s t ∧ TouchesOnly [.regs] s t) ∧
  (∀ path (k : Fin 1024) (s : State), s.takes path → s.flag (F.evtSrcStatActive k) = true → Ends (.sourceComplete path k) s fun t =>
    t.flag (F.evtSrcStatActive k) = false ∧ t.fld F.evtStrayCplCount = s.fld F.evtStrayCplCount ∧
    OnlyRegs (fun _ => False) s t ∧ TouchesOnly Part.shared s t) ∧
  ∀ path (k : Fin 1024) (s : State), s.takes path → s.flag (F.evtSrcStatActive k) = true → s.pow.started = false →
    isLevel s k = true → s.flag (F.evtSrcCfgEn k) = true → s.flag (F.evtSrcStatAsserted k) = true →
    s.fld (F.evtSrcStatCount k) = 0 → Ends (.sourceComplete path k) s fun t =>
      t.fld (F.evtSrcStatCount k) = 1 ∧ (t.source k).resampled = true

/-- SOURCE_MASK writes MASK. QUEUE_SLEEP sets SLEEP and makes the queue ASLEEP, one that has sent its wake too; with no session an
eligible source may wake it again at once (log 67). QUEUE_AWAKE clears SLEEP, makes the queue AWAKE and forgets a WAKE frame that
was owed. QMASK_CLEAR clears QMASK, and notifies a queue with unread records in a session, whatever its state (log 67).
SPI_FLAG_CLEAR clears SPI_FLAG and nothing else. -/
def Obligations.EventControls : Prop :=
  (∀ path (k : Fin 1024) m (s : State), s.takes path → Ends (.sourceMask path k m) s fun t =>
    t.fld (F.evtSrcCfgMask k) = m.toNat ∧ (∀ j : Fin 1024, t.fld (F.evtSrcStatCount j) = s.fld (F.evtSrcStatCount j)) ∧
    OnlyRegs (fun _ => False) s t ∧ TouchesOnly [.regs, .pow, .hw, .out] s t) ∧
  (∀ path (q : Fin 8) (s : State), s.takes path → Ends (.queueSleep path q) s fun t =>
    t.fld (F.evtQctlSleep q) = 1 ∧ t.fld (F.evtQctlState q) ≠ 0 ∧
    OnlyRegs (fun _ => False) s t ∧ TouchesOnly [.regs, .pow, .hw, .out] s t) ∧
  (∀ path (q : Fin 8) (s : State), s.takes path → s.hw.cur ≠ none → Ends (.queueSleep path q) s fun t =>
    t.fld (F.evtQctlSleep q) = 1 ∧ t.fld (F.evtQctlState q) = 1 ∧ SameRegsBut (· = A.evtQctl q) s t ∧ TouchesOnly [.regs] s t) ∧
  (∀ path (q : Fin 8) (s : State), s.takes path → Ends (.queueAwake path q) s fun t =>
    t.fld (F.evtQctlSleep q) = 0 ∧ t.fld (F.evtQctlState q) = 0 ∧ t.hw.wakeDue.getLsbD q.val = false ∧
    TouchesOnly [.regs, .hw, .out, .perf] s t) ∧
  (∀ path (q : Fin 8) (s : State), s.takes path → Ends (.qmaskClear path q) s fun t =>
    t.fld (F.evtQctlQmask q) = 0 ∧ TouchesOnly [.regs, .hw, .out, .perf] s t) ∧
  (∀ path (q : Fin 8) (s : State), s.takes path → s.flag (F.evtQctlQmask q) = true → s.hw.cur ≠ none →
    s.reg (A.evtQpi q) ≠ s.reg (A.evtHostCi q) →
    Leaves (.qmaskClear path q) s (sendNotify (s.setFld (F.evtQctlQmask q) 0) q)) ∧
  (∀ path (q : Fin 8) (s : State), s.takes path → s.flag (F.evtQctlQmask q) = false → Ends (.qmaskClear path q) s fun t =>
    SameRegsBut (fun _ => False) s t ∧ TouchesOnly [.regs] s t) ∧
  ∀ path (k : Fin 1024) (s : State), s.takes path → Ends (.spiFlagClear path k) s fun t =>
    t.fld (F.evtSrcStatSpiFlag k) = 0 ∧ (∀ f, f.addr = A.evtSrcStat k → f.lo ≤ f.hi → f.hi < 29 ∨ 29 < f.lo → t.fld f = s.fld f) ∧
    SameRegsBut (· = A.evtSrcStat k) s t ∧ TouchesOnly [.regs] s t

/-- A descriptor of each type arrives at its ring in the place that the ring serves: from its chain, or at the slot CI, which then
counts as fetched; and the ring goes on with it. The command stands for the read that brings the descriptor, so that at a ring that
serves none it does nothing (log 26). -/
def Obligations.DescriptorsArrive : Prop :=
  (∀ (n : Fin 32) h b (s : State), s.isUp → Serves s n →
    Leaves (.nop n h b) s (settle (fetched s n 0x00 h b)) ∧
    Leaves (.jump n h b) s (settle (fetched s n 0x01 h b)) ∧
    Leaves (.layerWords n h b) s (settle (fetched s n 0x10 h b)) ∧
    Leaves (.layerBlock n h b) s (settle (fetched s n 0x11 h b)) ∧
    Leaves (.objWords n h b) s (settle (fetched s n 0x12 h b)) ∧
    Leaves (.objBlock n h b) s (settle (fetched s n 0x13 h b)) ∧
    Leaves (.lutLoad n h b) s (settle (fetched s n 0x14 h b)) ∧
    Leaves (.matrix n h b) s (settle (fetched s n 0x15 h b)) ∧
    Leaves (.loftLoad n h b) s (settle (fetched s n 0x16 h b)) ∧
    Leaves (.fenceAcq n h b) s (settle (fetched s n 0x18 h b)) ∧
    Leaves (.commit n h b) s (settle (fetched s n 0x1F h b)) ∧
    Leaves (.copy n h b) s (settle (fetched s n 0x40 h b)) ∧
    Leaves (.fill n h b) s (settle (fetched s n 0x41 h b)) ∧
    Leaves (.write32 n h b) s (settle (fetched s n 0x42 h b))) ∧
  (∀ (n : Fin 32) h b (c : Fin 28) (s : State), ServesDma s n c →
    (dmaCheck 0x40 b = 0 → Ends (.copy n h b) s fun t =>
      (t.chan c).inHand.map (fun x => (x.d.kind, x.d.body, x.d.index)) = some (0x40, b, servedSlot s n) ∧ SameMemory s t) ∧
    (dmaCheck 0x41 b = 0 → Ends (.fill n h b) s fun t =>
      (t.chan c).inHand.map (fun x => (x.d.kind, x.d.body, x.d.index)) = some (0x41, b, servedSlot s n) ∧ SameMemory s t) ∧
    (dmaCheck 0x42 b = 0 → Ends (.write32 n h b) s fun t =>
      (t.chan c).inHand.map (fun x => (x.d.kind, x.d.body, x.d.index)) = some (0x42, b, servedSlot s n) ∧ SameMemory s t)) ∧
  (∀ (n : Fin 32) h b (c : Fin 28) (s : State), ServesDma s n c →
    (dmaCheck 0x40 b ≠ 0 → Ends (.copy n h b) s fun t =>
      (t.chan c).inHand = none ∧ t.fld (F.dmaChStatLastStatus c) = dmaCheck 0x40 b ∧ SameMemory s t) ∧
    (dmaCheck 0x41 b ≠ 0 → Ends (.fill n h b) s fun t =>
      (t.chan c).inHand = none ∧ t.fld (F.dmaChStatLastStatus c) = dmaCheck 0x41 b ∧ SameMemory s t) ∧
    (dmaCheck 0x42 b ≠ 0 → Ends (.write32 n h b) s fun t =>
      (t.chan c).inHand = none ∧ t.fld (F.dmaChStatLastStatus c) = dmaCheck 0x42 b ∧ SameMemory s t)) ∧
  ∀ (c : Instr) (n : Fin 32) (s : State), c.descriptor = some n → ¬Serves s n → exec c s = .next s

/-- On a SCENE ring that serves it (log 26), a well-formed LAYER_WORDS, OBJ_WORDS, MATRIX, LOFT_LOAD or FENCE_ACQ adds to the ring's
staging set exactly what it carries, a NOP nothing; a JUMP moves the ring to its target; a LAYER_BLOCK, OBJ_BLOCK or LUT_LOAD asks
the host for its content, in pieces of at most 1,024 bytes, and waits for it. A bad descriptor of any of these types, a LOFT_LOAD
past the end of the loft among them (log 24), a seventeenth load or fence, a load over 1 MiB and a COMMIT with an operand out of
range stage nothing and poison the set, which keeps the first such slot. A COMMIT that need not wait closes the set, which goes to
the winnow whole, and the ring stages afresh. -/
def Obligations.SceneStaging : Prop :=
  (∀ (n : Fin 32) h b (s : State), ServesScene s n → Ends (.nop n h b) s fun t => stagingOf t n = stagingOf s n) ∧
  (∀ (n : Fin 32) h b (s : State), ServesScene s n → jumpTarget b % 32 = 0 → Ends (.jump n h b) s fun t =>
    stagingOf t n = stagingOf s n ∧ (t.ring n).chain = some (jumpTarget b, servedSlot s n)) ∧
  (∀ (n : Fin 32) h b (s : State), ServesScene s n → jumpTarget b % 32 ≠ 0 → Ends (.jump n h b) s fun t =>
    stagingOf t n = poisonedSet s n ∧ (t.ring n).chain = none) ∧
  (∀ (n : Fin 32) h b (s : State), ServesScene s n → layerBlockOk b = true → Ends (.layerBlock n h b) s fun t =>
    stagingOf t n = stagingOf s n ∧ (t.ring n).inHand.map (fun c => (c.kind, c.body, c.index)) = some (0x11, b, servedSlot s n) ∧
    ∀ i, 1024 * i < 4 * (layerOp b).count → Asks t (srcAt8 b + 1024 * i) (min 1024 (4 * (layerOp b).count - 1024 * i))) ∧
  (∀ (n : Fin 32) h b (s : State), ServesScene s n → objBlockOk b = true → Ends (.objBlock n h b) s fun t =>
    stagingOf t n = stagingOf s n ∧ (t.ring n).inHand.map (fun c => (c.kind, c.body, c.index)) = some (0x13, b, servedSlot s n) ∧
    ∀ i, 1024 * i < 32 * objCount b → Asks t (srcAt8 b + 1024 * i) (min 1024 (32 * objCount b - 1024 * i))) ∧
  (∀ (n : Fin 32) h b (s : State), ServesScene s n → lutOk b = true → Ends (.lutLoad n h b) s fun t =>
    stagingOf t n = stagingOf s n ∧ (t.ring n).inHand.map (fun c => (c.kind, c.body, c.index)) = some (0x14, b, servedSlot s n) ∧
    ∀ i, 1024 * i < 4 * lutCount b → Asks t (lutSrc b + 1024 * i) (min 1024 (4 * lutCount b - 1024 * i))) ∧
  (∀ (n : Fin 32) h b (s : State), ServesScene s n →
    (layerBlockOk b = false → Ends (.layerBlock n h b) s fun t => stagingOf t n = poisonedSet s n) ∧
    (objBlockOk b = false → Ends (.objBlock n h b) s fun t => stagingOf t n = poisonedSet s n) ∧
    (lutOk b = false → Ends (.lutLoad n h b) s fun t => stagingOf t n = poisonedSet s n)) ∧
  (∀ (n : Fin 32) h b (s : State), ServesScene s n → layerWordsOk b = true → Ends (.layerWords n h b) s fun t =>
    stagingOf t n = stageLayer (layerOp b) h.tag (inlineWords b (layerOp b).count) (stagingOf s n)) ∧
  (∀ (n : Fin 32) h b (s : State), ServesScene s n → objWordsOk b = true → Ends (.objWords n h b) s fun t =>
    stagingOf t n = stageCtx (objIndex b) ((objMask b).zip (inlineWords b (objMask b).length)) (stagingOf s n)) ∧
  (∀ (n : Fin 32) h b (s : State), ServesScene s n → matrixOk b = true → Ends (.matrix n h b) s fun t =>
    stagingOf t n = { stagingOf s n with
      writes := { (stagingOf s n).writes with
        mat := (List.range 12).foldl (fun m i => smPut m (lutTarget b * 12 + i) (matrixCoef b i)) (stagingOf s n).writes.mat } }) ∧
  (∀ (n : Fin 32) h b (s : State), ServesScene s n → loftLoadOk b = true → (stagingOf s n).loads.length < 16 →
    ((stagingOf s n).loads.map (·.len)).sum + loadLen b ≤ 1048576 → Ends (.loftLoad n h b) s fun t =>
      stagingOf t n = { stagingOf s n with loads := (stagingOf s n).loads ++
        [{ dest := loadDest b, len := loadLen b, src := loadSrc b, pipe := Fin.ofNat 8 (loadPipe b), tag := h.tag,
           index := servedSlot s n, order := (stagingOf s n).loads.length, scene := 0, abandoned := false, late := false,
           skip := [], got := (0, 0) }] }) ∧
  (∀ (n : Fin 32) h b (s : State), ServesScene s n →
    loftLoadOk b = false ∨ 16 ≤ (stagingOf s n).loads.length ∨ 1048576 < ((stagingOf s n).loads.map (·.len)).sum + loadLen b →
    Ends (.loftLoad n h b) s fun t => stagingOf t n = poisonedSet s n) ∧
  (∀ (n : Fin 32) h b (s : State), ServesScene s n → fenceOk b = true → (stagingOf s n).fences.length < 16 →
    fenceSpace b ≠ 0 ∨ fenceAddr b + 4 ≤ memEnd → Ends (.fenceAcq n h b) s fun t =>
      stagingOf t n = { stagingOf s n with fences := (stagingOf s n).fences ++
        [{ slot := BitVec.ofNat 8 (fenceSlot b), host := fenceSpace b == 1, addr := fenceAddr b,
           value := BitVec.ofNat 32 (bodyBits b 16 0 32), signalled := false, reading := false }] }) ∧
  (∀ (n : Fin 32) h b (s : State), ServesScene s n →
    fenceOk b = false ∨ 16 ≤ (stagingOf s n).fences.length ∨ (fenceSpace b = 0 ∧ memEnd < fenceAddr b + 4) →
    Ends (.fenceAcq n h b) s fun t => stagingOf t n = poisonedSet s n) ∧
  (∀ (n : Fin 32) h b (s : State), ServesScene s n → commitOk b = false → Ends (.commit n h b) s fun t => stagingOf t n = poisonedSet s n) ∧
  (∀ (n : Fin 32) h b (s : State), ServesScene s n → layerWordsOk b = false → Ends (.layerWords n h b) s fun t => stagingOf t n = poisonedSet s n) ∧
  (∀ (n : Fin 32) h b (s : State), ServesScene s n → objWordsOk b = false → Ends (.objWords n h b) s fun t => stagingOf t n = poisonedSet s n) ∧
  (∀ (n : Fin 32) h b (s : State), ServesScene s n → matrixOk b = false → Ends (.matrix n h b) s fun t => stagingOf t n = poisonedSet s n) ∧
  ∀ (n : Fin 32) h b (s : State), ServesScene s n → commitOk b = true → s.precHeld = [] → s.scene.queue = [] → s.scene.inHand = none →
    s.scene.armed = [] → Ends (.commit n h b) s fun t => stagingOf t n = emptyScene n ∧
      ∃ c : Scene, (c.ring, c.writes, c.fences, c.loads, c.poison) =
          ((stagingOf s n).ring, (stagingOf s n).writes, (stagingOf s n).fences, (stagingOf s n).loads, (stagingOf s n).poison) ∧
        c.tag = h.tag ∧ (t.scene.queue = [.scene c] ∨ t.scene.inHand.map (·.1) = some (.scene c))

/-- RUN of an IDLE ring with nothing to fetch makes it RUN; after a core failure it enters CFG_ERR, a DMA ring too (log 80). STOP of
a ring with nothing in hand stops it at the slot before CI. RESET with RUN at 0 and nothing left to finish zeroes the indices and
takes CFG, or answers CFG_ERR; else it does nothing. RESUME of a STOPPED ring goes on at STOP_INDEX + 1; of any other it does
nothing. The enable of a pipe record ring zeroes its indices. RING_POLL of a ring that polls and has not stopped asks for 8 bytes at
its poll address, of another nothing. -/
def Obligations.RingControls : Prop :=
  (∀ path (n : Fin 32) (s : State), s.takes path → ringState s n = 0 → (s.ring n).chain = none → (s.ring n).inHand = none → (s.ring n).waitCommit = none →
    (s.ring n).buf = [] → (s.ring n).stopping = false → (s.ring n).halt = none →
    s.reg (A.ringPi n) = s.reg (A.ringCi n) → s.flag F.faultStateCoreFail = false →
    Ends (.ringRun path n) s fun t => ringState t n = 1 ∧ t.fld (F.ringCtlRun n) = 1 ∧
      SameRegsBut (fun a => a = A.ringCtl n ∨ a = A.ringStat n) s t ∧ TouchesOnly [.regs] s t) ∧
  (∀ path (n : Fin 32) (s : State), s.takes path → ringState s n = 0 → s.flag F.faultStateCoreFail = true →
    Ends (.ringRun path n) s fun t => ringState t n = 5 ∧ SameRegsBut (· = A.ringStat n) s t ∧ TouchesOnly [.regs] s t) ∧
  (∀ path (n : Fin 32) (s : State), s.takes path → ringState s n = 1 → (s.ring n).chain = none → (s.ring n).inHand = none →
    (s.ring n).waitCommit = none → (s.ring n).buf = [] → (s.ring n).halt = none → handedOver s n = false →
    Ends (.ringStop path n) s fun t => ringState t n = 3 ∧ t.fld (F.ringStatCause n) = 3 ∧ t.fld (F.ringCtlRun n) = 0 ∧
      t.reg (A.ringStopIndex n) = s.reg (A.ringCi n) - 1 ∧ t.reg (A.ringCi n) = s.reg (A.ringCi n) ∧
      OnlyRegs (fun a => a = A.ringCtl n ∨ a = A.ringStat n ∨ a = A.ringStopIndex n) s t ∧
      TouchesOnly (Part.shared ++ [.rings]) s t) ∧
  (∀ path (n : Fin 32) (s : State), s.takes path → s.flag (F.ringCtlRun n) = false → (s.ring n).stopping = false → (s.ring n).halt = none →
    cfgBreaks s n (s.reg (A.ringCfg n)) = false → Ends (.ringReset path n) s fun t =>
      ringState t n = 0 ∧ t.fld (F.ringStatCause n) = 0 ∧ t.reg (A.ringPi n) = 0 ∧ t.reg (A.ringCi n) = 0 ∧
      t.reg (A.ringCplPi n) = 0 ∧ t.reg (A.ringHostCi n) = 0 ∧ t.reg (A.ringStopIndex n) = 0 ∧
      (t.ring n).cfg = s.reg (A.ringCfg n) ∧ (t.ring n).held = [] ∧ (t.ring n).sq = s.reg64 (A.ringSqLo n) / 32 * 32 ∧
      stagingOf t n = emptyScene n ∧ TouchesOnly [.regs, .rings, .scene] s t) ∧
  (∀ path (n : Fin 32) (s : State), s.takes path → s.flag (F.ringCtlRun n) = false → (s.ring n).stopping = false → (s.ring n).halt = none →
    cfgBreaks s n (s.reg (A.ringCfg n)) = true → Ends (.ringReset path n) s fun t =>
      ringState t n = 5 ∧ t.ring n = ringInit ∧ TouchesOnly [.regs, .rings, .scene] s t) ∧
  (∀ path (n : Fin 32) (s : State), s.flag (F.ringCtlRun n) = true ∨ (s.ring n).stopping = true ∨ (s.ring n).halt ≠ none →
    exec (.ringReset path n) s = .next s) ∧
  (∀ path (n : Fin 32) (s : State), s.takes path → ringState s n = 3 → (s.ring n).chain = none → (s.ring n).inHand = none → (s.ring n).waitCommit = none →
    (s.ring n).buf = [] → (s.ring n).stopping = false → (s.ring n).halt = none →
    s.reg (A.ringPi n) = s.reg (A.ringStopIndex n) + 1 → Ends (.ringResume path n) s fun t =>
      t.reg (A.ringCi n) = s.reg (A.ringStopIndex n) + 1 ∧ ringState t n = (if cplFull s n then 2 else 1) ∧
      t.fld (F.ringStatCause n) = 0 ∧ t.fld (F.ringCtlRun n) = 1 ∧
      SameRegsBut (fun a => a = A.ringCtl n ∨ a = A.ringStat n ∨ a = A.ringCi n) s t ∧ TouchesOnly [.regs, .rings] s t) ∧
  (∀ path (n : Fin 32) (s : State), ringState s n ≠ 3 → exec (.ringResume path n) s = .next s) ∧
  (∀ path (p : Fin 8) (w : Word) (s : State), s.takes path → s.flag (F.ringPrecCfgEn p) = false → w.getLsbD 0 = true →
    precHeldOf s p = [] → Settles (.precEnable path p w) s fun t =>
      t.fld (F.ringPrecCfgEn p) = 1 ∧ t.reg (A.ringPrecWr p) = 0 ∧ t.reg (A.ringPrecHostCi p) = 0 ∧
      precSize t p = 2 ^ max 4 (min 16 ((F.ringPrecCfgSize p).of w)) ∧ TouchesOnly [.regs, .precSize] s t) ∧
  (∀ (n : Fin 32) (s : State), s.isUp → (F.ringCfgPollEn n).of (s.ring n).cfg ≠ 0 → ringState s n = 1 ∨ ringState s n = 2 →
    Ends (.ringPoll n) s fun t =>
      t.hw.reads.map (fun r => (r.addr, r.len, r.for_)) =
        s.hw.reads.map (fun r => (r.addr, r.len, r.for_)) ++ [((s.ring n).poll, 8, .poll n)] ∧ t.rings = s.rings ∧ SameMemory s t) ∧
  ∀ (n : Fin 32) (s : State), (F.ringCfgPollEn n).of (s.ring n).cfg = 0 ∨ (ringState s n ≠ 1 ∧ ringState s n ≠ 2) →
    exec (.ringPoll n) s = .next s

/-- An accepted entry sets its index: of KIND 0 the submission index of a ring that does not run, where it is at most 2^SIZE beyond
PI and CPL_PI; of KIND 1 and 2 the consumer index, where it passes no record written; of KIND 3 that of an event queue. A DOORBELL
frame of one entry that is next in sequence does this. Any other entry, of whatever KIND, is ignored, counted in BAD_DB and raises
BAD_DOORBELL, source 235, once. An entry equal to PI does nothing. Bytes 2 and 3 of an entry are not looked at (log 60). -/
def Obligations.DoorbellEntries : Prop :=
  (∀ (n : Fin 32) z index (s : State), ringState s n ≠ 1 → ringState s n ≠ 2 → (s.ring n).stopping = false → (s.ring n).halt = none →
    dist index (s.reg (A.ringPi n)) ≤ ringSize s n → dist index (s.reg (A.ringCplPi n)) ≤ ringSize s n →
    (doorEntry s ⟨0, BitVec.ofNat 8 n, z, index⟩).reg (A.ringPi n) = index ∧
    SameRegsBut (· = A.ringPi n) s (doorEntry s ⟨0, BitVec.ofNat 8 n, z, index⟩) ∧
    TouchesOnly [.regs, .rings] s (doorEntry s ⟨0, BitVec.ofNat 8 n, z, index⟩)) ∧
  (∀ (n : Fin 32) z (s : State), dist (s.reg (A.ringPi n)) (s.reg (A.ringCplPi n)) ≤ ringSize s n →
    doorEntry s ⟨0, BitVec.ofNat 8 n, z, s.reg (A.ringPi n)⟩ = s) ∧
  (∀ (n : Fin 32) z index (s : State), ringState s n ≠ 1 → ringState s n ≠ 2 → (s.ring n).stopping = false → (s.ring n).halt = none →
    (s.ring n).held = [] → dist index (s.reg (A.ringHostCi n)) ≤ dist (s.reg (A.ringCplPi n)) (s.reg (A.ringHostCi n)) →
    doorEntry s ⟨1, BitVec.ofNat 8 n, z, index⟩ = s.setReg (A.ringHostCi n) index) ∧
  (∀ (p : Fin 8) z index (s : State), precHeldOf s p = [] →
    dist index (s.reg (A.ringPrecHostCi p)) ≤ dist (s.reg (A.ringPrecWr p)) (s.reg (A.ringPrecHostCi p)) →
    doorEntry s ⟨2, BitVec.ofNat 8 p, z, index⟩ = s.setReg (A.ringPrecHostCi p) index) ∧
  (∀ (q : Fin 8) z index (s : State),
    dist index (s.reg (A.evtHostCi q)) ≤ dist (s.reg (A.evtQpi q)) (s.reg (A.evtHostCi q)) →
    (doorEntry s ⟨3, BitVec.ofNat 8 q, z, index⟩).reg (A.evtHostCi q) = index) ∧
  (∀ f (n : Fin 32) index (s : State), s.isUp → f.length = 8 → InSequence s f tyDoorbell (doorBytes ⟨0, BitVec.ofNat 8 n, 0, index⟩) →
    dist index (s.reg (A.ringPi n)) ≤ ringSize s n → dist index (s.reg (A.ringCplPi n)) ≤ ringSize s n →
    Settles (.doorbellSubmit f (BitVec.ofNat 8 n) index []) s fun u => u.reg (A.ringPi n) = index ∧ u.hw.rxLast = f.seq) ∧
  (∀ f (n : Fin 32) index (s : State), s.isUp → f.length = 8 → InSequence s f tyDoorbell (doorBytes ⟨1, BitVec.ofNat 8 n, 0, index⟩) →
    dist index (s.reg (A.ringHostCi n)) ≤ dist (s.reg (A.ringCplPi n)) (s.reg (A.ringHostCi n)) →
    Settles (.doorbellCplCi f (BitVec.ofNat 8 n) index []) s fun u => u.reg (A.ringHostCi n) = index ∧ u.hw.rxLast = f.seq) ∧
  (∀ f (p : Fin 8) index (s : State), s.isUp → f.length = 8 → InSequence s f tyDoorbell (doorBytes ⟨2, BitVec.ofNat 8 p, 0, index⟩) →
    dist index (s.reg (A.ringPrecHostCi p)) ≤ dist (s.reg (A.ringPrecWr p)) (s.reg (A.ringPrecHostCi p)) →
    Settles (.doorbellPrecCi f (BitVec.ofNat 8 p) index []) s fun u => u.reg (A.ringPrecHostCi p) = index ∧ u.hw.rxLast = f.seq) ∧
  (∀ f (q : Fin 8) index (s : State), s.isUp → f.length = 8 → InSequence s f tyDoorbell (doorBytes ⟨3, BitVec.ofNat 8 q, 0, index⟩) →
    dist index (s.reg (A.evtHostCi q)) ≤ dist (s.reg (A.evtQpi q)) (s.reg (A.evtHostCi q)) →
    Settles (.doorbellEqCi f (BitVec.ofNat 8 q) index []) s fun u => u.reg (A.evtHostCi q) = index ∧ u.hw.rxLast = f.seq) ∧
  ∀ (e : DbEntry) (s : State),
    (4 ≤ e.kind.toNat ∨ (e.kind.toNat ≤ 1 ∧ 32 ≤ e.target.toNat) ∨ (2 ≤ e.kind.toNat ∧ 8 ≤ e.target.toNat) ∨
     (e.kind = 0 ∧ e.target.toNat < 32 ∧ (ringSize s e.target.toNat < dist e.index (s.reg (A.ringPi e.target.toNat)) ∨
       ringSize s e.target.toNat < dist e.index (s.reg (A.ringCplPi e.target.toNat)))) ∨
     (e.kind = 1 ∧ e.target.toNat < 32 ∧ dist (s.reg (A.ringCplPi e.target.toNat)) (s.reg (A.ringHostCi e.target.toNat)) <
       dist e.index (s.reg (A.ringHostCi e.target.toNat))) ∨
     (e.kind = 2 ∧ e.target.toNat < 8 ∧ dist (s.reg (A.ringPrecWr e.target.toNat)) (s.reg (A.ringPrecHostCi e.target.toNat)) <
       dist e.index (s.reg (A.ringPrecHostCi e.target.toNat))) ∨
     (e.kind = 3 ∧ e.target.toNat < 8 ∧ dist (s.reg (A.evtQpi e.target.toNat)) (s.reg (A.evtHostCi e.target.toNat)) <
       dist e.index (s.reg (A.evtHostCi e.target.toNat)))) →
    (∃ u : State, doorEntry s e = raise u 235 ∧ u.src = s.src ∧ SameRegsBut (· = A.ringBadDb) s u) ∧
    (doorEntry s e).fld F.ringBadDbCount = min 65535 (s.fld F.ringBadDbCount + 1) ∧
    OnlyRegs (· = A.ringBadDb) s (doorEntry s e) ∧ TouchesOnly Part.shared s (doorEntry s e)

/-- DMA_DESC_DONE of a WRITE32, FILL or COPY within device memory, whose bursts have gone, admitted to its ports and with no bad
beat, leaves the value, the repeated pattern, least significant byte first, or the source's bytes as they stood before in the bytes
of its destination, and every other byte of memory as it was: they are read and written at this command (log 68). The last
descriptor of its channel so ends with status 0. One with a destination in the host writes no device memory. A descriptor that waits
for its shaper, port or host bytes does not finish, nor does a channel without one. Whether the bursts have gone is judged once the
ports have served what may start (log 25). -/
def Obligations.DmaWrites : Prop :=
  (∀ (c : Fin 32) rep x (s : State), s.isUp → (s.chan c).inHand = some x → dmaWaits (servePorts s) c x = false → (s.chan c).failed = false →
    x.d.kind = 0x42 → dmaDstHost x.d.body = false → portAllows s (writeSub c) (dmaDst x.d.body) = true → rep.bad = [] →
    rep.late = none → (28 ≤ c.val → entryStatus x.d = none) → Ends (.dmaDescDone c rep) s fun t =>
      (∀ i, i < 4 → t.memByte (dmaDst x.d.body + i) = BitVec.ofNat 8 (dmaLen x.d.body / 256 ^ i)) ∧
      SameMemoryBut (dmaDst x.d.body) 4 s t) ∧
  (∀ (c : Fin 32) rep x (s : State), s.isUp → (s.chan c).inHand = some x → dmaWaits (servePorts s) c x = false → (s.chan c).failed = false →
    x.d.kind = 0x41 → dmaDstHost x.d.body = false → portAllows s (writeSub c) (dmaDst x.d.body) = true → rep.bad = [] →
    rep.late = none → (28 ≤ c.val → entryStatus x.d = none) → dmaLen x.d.body % 4 = 0 → Ends (.dmaDescDone c rep) s fun t =>
      (∀ i, i < dmaLen x.d.body → t.memByte (dmaDst x.d.body + i) = BitVec.ofNat 8 (dmaPattern x.d.body / 256 ^ (i % 4))) ∧
      SameMemoryBut (dmaDst x.d.body) (dmaLen x.d.body) s t) ∧
  (∀ (c : Fin 32) rep x (s : State), s.isUp → (s.chan c).inHand = some x → dmaWaits (servePorts s) c x = false → (s.chan c).failed = false →
    (s.chan c).got = [] → x.d.kind = 0x40 → dmaSrcHost x.d.body = false → dmaDstHost x.d.body = false →
    portAllows s (readSub c) (dmaSrc x.d.body) = true → portAllows s (writeSub c) (dmaDst x.d.body) = true → rep.bad = [] →
    rep.late = none → (28 ≤ c.val → entryStatus x.d = none) → Ends (.dmaDescDone c rep) s fun t =>
      (∀ i, i < dmaLen x.d.body → t.memByte (dmaDst x.d.body + i) = s.memByte (dmaSrc x.d.body + i)) ∧
      SameMemoryBut (dmaDst x.d.body) (dmaLen x.d.body) s t) ∧
  (∀ (c : Fin 28) rep x (s : State), s.isUp → (s.chan c).inHand = some x → (s.chan c).queue = [] → dmaWaits (servePorts s) c x = false →
    dmaRefused s c x = false → rep.bad = [] → rep.late = none → Settles (.dmaDescDone ⟨c, by omega⟩ rep) s fun u =>
      (u.chan c).inHand = none ∧ u.fld (F.dmaChStatLastStatus c) = 0) ∧
  (∀ (c : Fin 32) rep x (s : State), s.isUp → (s.chan c).inHand = some x → dmaDstHost x.d.body = true →
    Ends (.dmaDescDone c rep) s fun t => SameMemory s t) ∧
  (∀ (c : Fin 32) rep x (s : State), s.isUp → (s.chan c).inHand = some x → dmaWaits (servePorts s) c x = true →
    Leaves (.dmaDescDone c rep) s (settle (servePorts s))) ∧
  ∀ (c : Fin 32) rep (s : State), s.isUp → (s.chan c).inHand = none → Leaves (.dmaDescDone c rep) s (settle (servePorts s))

/-- TRIGGER_TIMER of a channel of KIND 2 in service begins a run at its list's base, or counts a missed trigger where the engine is
halted or a run goes on. The first list entry is read once the port serves the channel: at once where nothing else asks a port (log
25: a burst takes no time), and one that moves bytes is then in hand. Of another channel it does nothing. ENGINE_HALT of a running
engine halts it, counts it and discards what its ring channels have prefetched; ENGINE_RESTART ends the halt. -/
def Obligations.DmaEngine : Prop :=
  (∀ (c : Fin 32) (s : State), s.isUp → 28 ≤ c.val → tchKind s c = 2 → Leaves (.triggerTimer c) s (serveRuns (triggerChan s c))) ∧
  (∀ (c : Fin 32) (s : State), s.isUp → 28 ≤ c.val → tchKind s c = 2 → (s.unit (dmaUnit c)).retired = false → s.dmaHalted = false →
    (s.chan c).runAt = none → (s.chan c).inHand = none → s.reg64 (A.dmaTchBaseLo (c.val - 28)) / 32 * 32 + 32 ≤ memEnd →
    portAllows s (readSub c) (s.reg64 (A.dmaTchBaseLo (c.val - 28)) / 32 * 32) = true →
    let t := triggerChan s c
    t.fld (F.dmaTchStatBusy (c.val - 28)) = 1 ∧ t.fld (F.dmaTchStatStatus (c.val - 28)) = 0 ∧
    (t.chan c).runAt = some (s.reg64 (A.dmaTchBaseLo (c.val - 28)) / 32 * 32) ∧ (t.chan c).runCount = 0 ∧
    SameRegsBut (· = A.dmaTchStat (c.val - 28)) s t ∧ TouchesOnly [.regs, .dma] s t) ∧
  (∀ (c : Fin 32) base m (s : State), s.isUp → 28 ≤ c.val → tchKind s c = 2 → (s.unit (dmaUnit c)).retired = false → s.dmaHalted = false →
    (s.chan c).runAt = none → (s.chan c).inHand = none → base = s.reg64 (A.dmaTchBaseLo (c.val - 28)) / 32 * 32 → base + 32 ≤ memEnd →
    portAllows s (readSub c) base = true → requests (fillBlocks s) = [] → (∀ d, (s.chan d).runRead = false) → portServes s m = true →
    mayTake s m (shapedReq (readSub c) base 32 (0, 0)) = true → m < 4 → entryStatus (descOf (s.load base 32) 0 false) = none →
    Ends (.triggerTimer c) s fun t =>
      t.fld (F.dmaTchStatBusy (c.val - 28)) = 1 ∧ t.fld (F.dmaTchStatStatus (c.val - 28)) = 0 ∧ (t.chan c).runAt = some (base + 32) ∧
      (t.chan c).inHand.map (·.d) = some (descOf (s.load base 32) 0 false) ∧
      SameRegsBut (· = A.dmaTchStat (c.val - 28)) s t ∧ TouchesOnly [.regs, .gates, .levels, .dma, .perf] s t) ∧
  (∀ (c : Fin 32) (s : State), s.isUp → 28 ≤ c.val → tchKind s c = 2 → (s.unit (dmaUnit c)).retired = false →
    (s.chan c).runAt ≠ none → Ends (.triggerTimer c) s fun t =>
      t.fld F.dmaTrigMissedCount = min 16777215 (s.fld F.dmaTrigMissedCount + 1) ∧
      OnlyRegs (· = A.dmaTrigMissed) s t ∧ TouchesOnly Part.shared s t) ∧
  (∀ (c : Fin 32) (s : State), c.val < 28 ∨ tchKind s c ≠ 2 → exec (.triggerTimer c) s = .next s) ∧
  (∀ s : State, s.isUp → Ends .engineHalt s fun t => t.dmaHalted = true) ∧
  (∀ s : State, s.isUp → s.dmaHalted = false → Settles .engineHalt s fun u =>
    u.dmaHalted = true ∧ u.fld F.dmaEngineHalted = 1 ∧ u.fld F.dmaHaltsCount = min 16777215 (s.fld F.dmaHaltsCount + 1) ∧
    ∀ c : Fin 28, channelRing s c ≠ none → (u.chan c).queue = []) ∧
  (∀ path (s : State), s.takes path → Ends (.engineRestart path) s fun t => t.dmaHalted = false) ∧
  ∀ path (s : State), s.takes path → s.dmaHalted = true → s.dma = [] →
    Leaves (.engineRestart path) s (settle ({ s with dmaHalted := false }.setFld F.dmaEngineHalted 0))

/-- SCAN_GO begins a pass over the region that START and LEN name, or ends it at once with RANGE (3) where the region is empty or
leaves its channel; a pass in hand goes on. What has been read is judged once the ports have served what may start (log 25).
SCAN_STOP ends a pass with STOPPED (6). SCAN_DONE of a region that has been read and was not written during the pass gives its CRC
in RESULT, at an uncorrectable error its place (4), and of a region whose port refuses it REFUSED (5); before the region has been
read it ends nothing. Without a pass in hand neither does anything else than that the ports serve what waits. -/
def Obligations.Scans : Prop :=
  (∀ path (e : Fin 8) (s : State), s.takes path → smFind s.scans e = none → s.fld (F.chkLenLen e) ≠ 0 →
    inOneChannel (s.reg64 (A.chkStartLo e)) (s.fld (F.chkLenLen e)) = true → Ends (.scanGo path e) s fun t =>
      smFind t.scans e = some { start := s.reg64 (A.chkStartLo e), len := s.fld (F.chkLenLen e),
                                poly := s.fld (F.chkScanCfgPoly e), dirty := false, got := (0, 0) } ∧
      t.fld (F.chkScanStatStatus e) = 1 ∧ SameRegsBut (· = A.chkScanStat e) s t ∧ TouchesOnly [.regs, .scans] s t) ∧
  (∀ path (e : Fin 8) (s : State), s.takes path → smFind s.scans e = none →
    s.fld (F.chkLenLen e) = 0 ∨ inOneChannel (s.reg64 (A.chkStartLo e)) (s.fld (F.chkLenLen e)) = false →
    Ends (.scanGo path e) s fun t => smFind t.scans e = none ∧ t.fld (F.chkScanStatStatus e) = 3 ∧
      OnlyRegs (· = A.chkScanStat e) s t ∧ TouchesOnly (Part.shared ++ [.scans]) s t) ∧
  (∀ path (e : Fin 8) (s : State), smFind s.scans e ≠ none → exec (.scanGo path e) s = .next s) ∧
  (∀ path (e : Fin 8) (s : State), s.takes path → smFind s.scans e ≠ none → Ends (.scanStop path e) s fun t =>
    smFind t.scans e = none ∧ (∀ j, j ≠ e.val → smFind t.scans j = smFind s.scans j) ∧ t.fld (F.chkScanStatStatus e) = 6 ∧
    OnlyRegs (· = A.chkScanStat e) s t ∧ TouchesOnly (Part.shared ++ [.scans]) s t) ∧
  (∀ path (e : Fin 8) (s : State), smFind s.scans e = none → exec (.scanStop path e) s = .next s) ∧
  (∀ (e : Fin 8) how (s : State), s.isUp → smFind s.scans e = none → Leaves (.scanDone e how) s (servePorts s)) ∧
  (∀ (e : Fin 8) p (s : State), s.isUp → smFind (servePorts s).scans e = some p → p.got.1 < p.len →
    portAllows s (202 + e) p.start = true → Leaves (.scanDone e .read) s (servePorts s)) ∧
  (∀ (e : Fin 8) p (s : State), s.isUp → smFind (servePorts s).scans e = some p → p.len ≤ p.got.1 → p.dirty = false →
    portAllows s (202 + e) p.start = true → s.flag (F.chkScanCfgRepeat e) = false →
    Ends (.scanDone e .read) s fun t =>
      t.reg (A.chkResult e) = BitVec.ofNat 32 (scanCrcOf p.poly (s.load p.start p.len)) ∧
      t.fld (F.chkScanStatStatus e) = 2 ∧ smFind t.scans e = none ∧ SameMemory s t) ∧
  (∀ (e : Fin 8) p a (s : State), s.isUp → smFind s.scans e = some p → p.start ≤ a → a < p.start + p.got.1 → a < 2 ^ 64 →
    portAllows s (202 + e) p.start = true → Ends (.scanDone e (.ecc a)) s fun t =>
      t.reg64 (A.chkErrLo e) = a / 64 * 64 ∧ t.fld (F.chkScanStatStatus e) = 4 ∧ smFind t.scans e = none ∧ SameMemory s t) ∧
  ∀ (e : Fin 8) p how (s : State), s.isUp → smFind s.scans e = some p → portAllows s (202 + e) p.start = false →
    Ends (.scanDone e how) s fun t => t.fld (F.chkScanStatStatus e) = 5 ∧ smFind t.scans e = none ∧ SameMemory s t

/-- The bus of a running pipe enters unit 0 of line 0 first, then the next of the 64 units, then the next line, up to the last line
of the frame; a TE pipe whose frame start is not due yet repeats its last line, any other waits for its frame start. A step puts the
bus at that position and counts; within a line of the lead-in it changes nothing else. With an active line a pipe that has an output
puts just that line on its link: the line of the furrow store, which is composed whole at its first line (log 68: the model's
choice), late sheaves black, in a frame that shows pixels, and black with sync in the lead-in and in every other frame but a
relocking one of DSI. The line feeds the open check windows of the pipe, and a line-position event fires at its place. A pixel that
an opaque class S sample covers from above leaves with that sample's colour. A pipe that is stopped, or that has no next position,
takes no step. -/
def Obligations.BusPositions : Prop :=
  (∀ (s : State) p y u b, nextPosition s p = some (y, u, b) → (s.pipe p).unit ≤ 63 →
    (y = 0 ∧ u = 0 ∧ (s.pipe p).fresh = true) ∨ (y = (s.pipe p).line ∧ u = (s.pipe p).unit + 1 ∧ u ≤ 63) ∨
    (y = (s.pipe p).line + 1 ∧ u = 0 ∧ y < vTotal s.reg p + (s.pipe p).extra) ∨
    (y = (s.pipe p).line ∧ u = 0 ∧ b = true ∧ s.flag (F.pipeTeEn p) = true ∧ (s.pipe p).teDue ≠ some 0)) ∧
  (∀ (p : Fin 8) rep y u b (s : State), s.isUp → generatorRuns s p = true → nextPosition s p = some (y, u, b) →
    Settles (.linePositionStep p rep) s fun v => (v.pipe p).line = y ∧ (v.pipe p).unit = u ∧ (v.pipe p).again = b ∧
      (v.pipe p).fresh = false ∧ (v.pipe p).gen = (s.pipe p).gen ∧ (v.pipe p).steps = (s.pipe p).steps + 1) ∧
  (∀ (p : Fin 8) rep (s : State), s.isUp → (s.pipe p).gen = .leadIn → (s.pipe p).fresh = false → (s.pipe p).unit < 63 →
    Settles (.linePositionStep p rep) s fun v =>
      v.pipe p = { s.pipe p with unit := (s.pipe p).unit + 1, steps := (s.pipe p).steps + 1 } ∧
      (∀ q, q ≠ p.val → v.pipe q = s.pipe q) ∧ TouchesOnly [.pipes] s v) ∧
  (∀ (p : Fin 8) rep y (s : State), s.isUp → (s.pipe p).gen = .running → EntersLine s p y → y < vActive s.reg p →
    (s.pipe p).black = .none → Settles (.linePositionStep p rep) s fun v =>
      NewPixels s v (if hasOutput s p then [.pixels p y ((lateSheaves rep.late (storedLine v p y)).map pixelCode)] else []) ∧
      (y % 8 ≠ 0 → v.furrowStore = s.furrowStore) ∧
      ∀ w ∈ windowsOf s p, (s.window w).opened = true → y ≠ (F.chkWinYYLast 0).of (s.window w).ys + 1 →
        y ≠ (F.chkWinYYFirst 0).of (s.window w).ys →
        (v.window w).crc = BitVec.ofNat 32 (crc32Feed (s.window w).crc.toNat (tapBytes (lateSheaves rep.late (storedLine v p y))
          ((F.chkWinXXFirst 0).of (s.window w).xs) ((F.chkWinXXLast 0).of (s.window w).xs)))) ∧
  (∀ (p : Fin 8) rep y (s : State), s.isUp → (s.pipe p).gen ≠ .stopped → EntersLine s p y → y < vActive s.reg p →
    (s.pipe p).gen = .leadIn ∨ (s.pipe p).black ≠ .none → Settles (.linePositionStep p rep) s fun v =>
      NewPixels s v (if hasOutput s p && !((s.pipe p).black == .relock && (outGroupOf s p).any (fun g => groupIf s g == 0)) then
        [.pixels p y (List.replicate (hActive s.reg p) 0)] else [])) ∧
  (∀ (p : Fin 8) rep y (s : State), s.isUp → (s.pipe p).gen ≠ .stopped → EntersLine s p y → vActive s.reg p ≤ y →
    Settles (.linePositionStep p rep) s fun v => NewPixels s v []) ∧
  (∀ (p : Fin 8) (k : Fin 4) rep y u (s : State), s.isUp → (s.pipe p).gen = .running → nextPosition s p = some (y, u, false) →
    s.flag (F.pipeLpeEn p k) = true → s.fld (F.pipeLpeLine p k) = y → s.fld (F.pipeLpeUnit p k) = u →
    edgeFiltered s (64 + 16 * p.val + 4 + k.val) = false → s.flag (F.evtSrcCfgEn (64 + 16 * p.val + 4 + k.val)) = true →
    s.fld (F.evtSrcStatCount (64 + 16 * p.val + 4 + k.val)) = 0 →
    Settles (.linePositionStep p rep) s fun v => v.fld (F.evtSrcStatCount (64 + 16 * p.val + 4 + k.val)) = 1) ∧
  (∀ (s : State) p dep (l : List Drawn) d x y (e : Px) pre, d.clsS = true → samplesAt s p d x y = [(e, 255, pre)] → e.a = 255 →
    e.r ≤ 255 → e.g ≤ 255 → e.b ≤ 255 →
    (pixelAt s p dep (l ++ [d]) x y).covered = true ∧ (pixelAt s p dep (l ++ [d]) x y).tap = (e.r, e.g, e.b) ∧
    (pixelAt s p dep (l ++ [d]) x y).out = (outS e.r dep, outS e.g dep, outS e.b dep)) ∧
  ∀ (p : Fin 8) rep (s : State), (s.pipe p).gen = .stopped ∨ nextPosition s p = none →
    exec (.linePositionStep p rep) s = .next s

/-- FRAME_START of a running pipe, due where a TE pipe's edge lets it, begins its next frame, or, with RUN cleared by a part that is
due, stops it; of a stopped pipe, or one that is not due, it does nothing. TE_MISSING starts the frame of a TE pipe whose wait has
run out, with its event; before that it does nothing. COMMIT_DEADLINE of a stook commits an armed part without fences, whose COMMIT
has its completion, fixes the pending parts of its running pipes, and lets those that relock in lock, or resynchronise, show pixels
from their next frame start; with no running pipe in the stook it does nothing. -/
def Obligations.FrameStarts : Prop :=
  (∀ (p : Fin 8) ecc (s : State), s.isUp → generatorRuns s p = true → startDue s p = true →
    pipeRuns (dueView (releaseSilentCams s) p) p = true → Leaves (.frameStart p ecc) s (beginFrame (releaseSilentCams s) p ecc)) ∧
  (∀ (p : Fin 8) ecc (s : State), s.isUp → generatorRuns s p = true → startDue s p = true → (∀ x ∈ s.regs.pend, x.cam = none) →
    pipeRuns (dueView s p) p = true → Settles (.frameStart p ecc) s fun u => FrameBegun s u p) ∧
  (∀ (p : Fin 8) ecc (s : State), s.isUp → generatorRuns s p = true → startDue s p = true →
    pipeRuns (dueView (releaseSilentCams s) p) p = false → Leaves (.frameStart p ecc) s (stopPipe (releaseSilentCams s) p)) ∧
  (∀ (p : Fin 8) ecc x (s : State), s.isUp → generatorRuns s p = true → startDue s p = true → s.regs.pend = [x] → x.fixed = true →
    x.pipe = some p → x.cam = none → (x.words.map (·.1)).Nodup → pipeRuns (dueView s p) p = false →
    Settles (.frameStart p ecc) s fun u => (u.pipe p).gen = .stopped ∧ u.fld (F.pipeCtlRun p) = 0 ∧ u.regs.pend = []) ∧
  (∀ (p : Fin 8) ecc (s : State), generatorRuns s p = false ∨ startDue s p = false → exec (.frameStart p ecc) s = .next s) ∧
  (∀ (p : Fin 8) (s : State), s.isUp → teTimedOut s p = true →
    Leaves (.teMissing p) s (frameBegins (raise s (64 + 16 * p.val + 12)) p [])) ∧
  (∀ (p : Fin 8) (s : State), s.isUp → teTimedOut s p = true → s.regs.pend = [] → pipeRuns s.reg p = true →
    Settles (.teMissing p) s fun u => FrameBegun s u p) ∧
  (∀ (p : Fin 8) (s : State), teTimedOut s p = false → exec (.teMissing p) s = .next s) ∧
  (∀ (k : Fin 8) (s : State), s.isUp → s.scene.armed = [] → s.scene.readmit = [] →
    (stookPipes s.reg k).filter (generatorRuns s) ≠ [] → Settles (.commitDeadline k) s fun u =>
      u.regs.pend = s.regs.pend.map (fun x =>
        if x.pipe.any (fun p => ((stookPipes s.reg k).filter (generatorRuns s)).contains p.val) then { x with fixed := true } else x) ∧
      (∀ p : Fin 8, generatorRuns s p = true → stookOf s.reg p = k → (s.pipe p).aligned = true →
        (s.pipe p).black = .resync ∨ ((s.pipe p).black = .relock ∧ (s.pipe p).locked = true) → (u.pipe p).lockedByDeadline = true) ∧
      SameRegsBut (fun _ => False) s u ∧
      TouchesOnly [.free, .regs, .scene, .pipes, .camEarly, .gates, .levels, .fetches, .dma, .scans, .cams, .perf] s u) ∧
  (∀ (k : Fin 8) a (s : State), s.isUp → s.scene.armed = [a] → a.written = true → a.committed = false → a.fences = [] → a.pipes ≠ [] →
    (∀ q ∈ a.pipes, generatorRuns s q.val = true ∧ stookOf s.reg q = k) → s.scene.readmit = [] →
    Settles (.commitDeadline k) s fun u => u.scene.armed = [{ a with committed := true, due := false }]) ∧
  ∀ (k : Fin 8) (s : State), (stookPipes s.reg k).filter (generatorRuns s) = [] → exec (.commitDeadline k) s = .next s

/-- PLL_LOCKED of an enabled PLL shows LOCKED, and the pipes that relock on it are in lock. The time-out of a PLL without lock shows
LOCK_FAIL and stops the running pipes that it feeds, every one of them (log 68; shown where no strobed part waits, which a stop may
apply); of one in lock, or that feeds none, it does nothing. TE_EDGE of a running TE pipe that waits for an edge makes its frame start due after OFFSET lines; a second edge changes
nothing (log 68). CAM_LOCK_LOST of a lock shows LOST. -/
def Obligations.PipeLocks : Prop :=
  (∀ (n : Fin 4) (s : State), s.isUp → s.flag (F.pipePllCtlEn n) = true → Ends (.pllLocked n) s fun t =>
    t.fld (F.pipePllStatLocked n) = 1 ∧
    (∀ p : Fin 8, generatorRuns s p = true → pllOf s.reg p = n → (s.pipe p).black = .relock → (t.pipe p).locked = true) ∧
    SameRegsBut (· = A.pipePllStat n) s t ∧ TouchesOnly [.regs, .pipes] s t) ∧
  (∀ (n : Fin 4) (s : State), s.flag (F.pipePllCtlEn n) = false → exec (.pllLocked n) s = .next s) ∧
  (∀ (n : Fin 4) (s : State), s.isUp → Leaves (.pllLockTimeout n) s (pllLockTimeout s n)) ∧
  (∀ (n : Fin 4) (s : State), s.isUp → s.flag (F.pipePllStatLocked n) = false → s.regs.pend = [] →
    (∃ p : Fin 8, generatorRuns s p = true ∧ pllOf s.reg p = n) → Settles (.pllLockTimeout n) s fun u =>
      u.fld (F.pipePllStatLockFail n) = 1 ∧ ∀ p : Fin 8, generatorRuns s p = true → pllOf s.reg p = n →
        (u.pipe p).gen = .stopped ∧ u.fld (F.pipeCtlRun p) = 0 ∧ (s.scene.armed = [] → u.fld (F.pipeStatCause p) = 1)) ∧
  (∀ (n : Fin 4) (s : State), s.flag (F.pipePllStatLocked n) = true ∨
    (∀ p : Fin 8, generatorRuns s p = true → pllOf s.reg p ≠ n) → exec (.pllLockTimeout n) s = .next s) ∧
  (∀ (p : Fin 8) (s : State), s.isUp → s.flag (F.pipeTeEn p) = true → generatorRuns s p = true → (s.pipe p).teDue = none →
    Ends (.teEdge p) s fun t => t.pipe p = { s.pipe p with teDue := some (s.fld (F.pipeTeOffset p)) } ∧
      (∀ q, q ≠ p.val → t.pipe q = s.pipe q) ∧ TouchesOnly [.pipes] s t) ∧
  (∀ (p : Fin 8) (s : State), s.flag (F.pipeTeEn p) = false ∨ generatorRuns s p = false ∨ (s.pipe p).teDue ≠ none →
    exec (.teEdge p) s = .next s) ∧
  (∀ (p : Fin 8) (s : State), s.isUp → s.flag (F.pipeCamLockEn p) = true → s.flag (F.pipeStatLock p) = true →
    Ends (.camLockLost p) s fun t => t.fld (F.pipeStatLock p) = 4 ∧ (t.pipe p).camGood = 0 ∧
      OnlyRegs (· = A.pipeStat p) s t ∧ TouchesOnly (Part.shared ++ [.pipes]) s t) ∧
  ∀ (p : Fin 8) (s : State), s.flag (F.pipeCamLockEn p) = false ∨ s.flag (F.pipeStatLock p) = false →
    exec (.camLockLost p) s = .next s

/-- A period of REFCLK, which is a step on an empty queue (log 2: the model's choice), moves the base on by 39 to 41 ns, whatever
the rate within its limit and the slew. A synchronisation steps it forward by an offset above 1 ms, which STEPS counts and TIME_STEP
tells, and otherwise leaves it where it is; an offset more than 1 s backward only shows in PTP_OFFSET and clears SYNCED. Rates stay
within 250 ppm. -/
def Obligations.TimeBase : Prop :=
  (∀ s : State, s.isUp → s.pending = [] → s.time.fracNs < 1000000000 → s.time.ratePpb.natAbs ≤ 250000 →
    ∃ t, step s = .next t ∧ t.time.fracNs < 1000000000 ∧ t.time.ratePpb = s.time.ratePpb ∧
      39 ≤ (t.time.base - s.time.base).toNat ∧ (t.time.base - s.time.base).toNat ≤ 41) ∧
  (∀ (d : BitVec 7) (off rate : Int) (s : State), s.isUp → ptpRuns s = true → s.fld F.pipePtpCfgDomain = d.toNat → 1000000 < off →
    Ends (.ptpSync d off rate) s fun t => t.time.base = s.time.base + BitVec.ofInt 64 off ∧ t.time.slew = 0 ∧
      t.time.ratePpb.natAbs ≤ 250000 ∧ t.time.lastSync = some s.time.uptime ∧ t.fld F.pipeTimeStatSynced = 1 ∧
      t.fld F.pipeTimeStatSteps = min 255 (s.fld F.pipeTimeStatSteps + 1) ∧
      (edgeFiltered s 25 = false → s.flag (F.evtSrcCfgEn 25) = true → s.fld (F.evtSrcStatCount 25) = 0 →
        t.fld (F.evtSrcStatCount 25) = 1 ∧ (t.source 25).stamp = t.time.base) ∧
      OnlyRegs (fun a => a = A.pipePtpOffset ∨ a = A.pipeTimeStat) s t ∧ TouchesOnly (Part.shared ++ [.time]) s t) ∧
  (∀ (d : BitVec 7) (off rate : Int) (s : State), s.isUp → ptpRuns s = true → s.fld F.pipePtpCfgDomain = d.toNat →
    off ≤ 1000000 → -1000000000 ≤ off → Ends (.ptpSync d off rate) s fun t =>
      t.time = { s.time with ratePpb := max (-250000) (min 250000 rate), lastSync := some s.time.uptime, slew := off * 1000000000 } ∧
      t.fld F.pipeTimeStatSynced = (decide (off.natAbs ≤ 1000)).toNat ∧
      SameRegsBut (fun a => a = A.pipePtpOffset ∨ a = A.pipeTimeStat) s t ∧ TouchesOnly [.regs, .time] s t) ∧
  (∀ (d : BitVec 7) (off rate : Int) (s : State), s.isUp → ptpRuns s = true → s.fld F.pipePtpCfgDomain = d.toNat → off < -1000000000 →
    Ends (.ptpSync d off rate) s fun t => t.time = { s.time with lastSync := some s.time.uptime, slew := 0 } ∧
      t.fld F.pipeTimeStatSynced = 0 ∧ TouchesOnly [.regs, .time] s t) ∧
  ∀ (d : BitVec 7) (off rate : Int) (s : State), ptpRuns s = false ∨ s.fld F.pipePtpCfgDomain ≠ d.toNat →
    exec (.ptpSync d off rate) s = .next s

/-- The peer-delay responder answers a request of its domain with the time of receipt; the initiator sends a request with the next
sequence number and takes the response to it, once. Holdover keeps the rate, ends a slew and shows HOLDOVER. -/
def Obligations.PeerDelay : Prop :=
  (∀ (d : BitVec 7) q (s : State), s.isUp → ptpRuns s = true → s.fld F.pipePtpCfgDomain = d.toNat →
    Leaves (.ptpPdelayReq d q) s (s.emit (.pdelayResp d q s.time.base))) ∧
  (∀ (d : BitVec 7) q (s : State), ptpRuns s = false ∨ s.fld F.pipePtpCfgDomain ≠ d.toNat → exec (.ptpPdelayReq d q) s = .next s) ∧
  (∀ s : State, s.isUp → ptpRuns s = true → Leaves .ptpPdelayTimer s
    { s with time := { s.time with pdelaySeq := s.time.pdelaySeq + 1, pdelayOut := some s.time.pdelaySeq },
             out := s.out ++ [.pdelayReq s.time.pdelaySeq] }) ∧
  (∀ (d : BitVec 7) q n (s : State), s.isUp → ptpRuns s = true → s.fld F.pipePtpCfgDomain = d.toNat → s.time.pdelayOut = some q →
    Leaves (.ptpPdelayResp d q n) s { s with time := { s.time with pdelayOut := none, linkDelay := n } }) ∧
  (∀ (d : BitVec 7) q n (s : State), s.time.pdelayOut ≠ some q → exec (.ptpPdelayResp d q n) s = .next s) ∧
  (∀ s : State, s.isUp → s.flag F.pipePtpCfgEn = true → s.flag F.pipeTimeStatHoldover = false → Ends .timeHoldover s fun t =>
    t.fld F.pipeTimeStatHoldover = 1 ∧ t.time = { s.time with slew := 0 } ∧
    OnlyRegs (· = A.pipeTimeStat) s t ∧ TouchesOnly (Part.shared ++ [.time]) s t) ∧
  ∀ s : State, s.flag F.pipePtpCfgEn = false ∨ s.flag F.pipeTimeStatHoldover = true → exec .timeHoldover s = .next s

/-- LINK_READY of a group that comes up, HPD and POWER_DELAY not awaited, sends a DSI group's panel list as a whole (log 68), makes
it READY and ends its recovery, a pair's on both groups; of another it does nothing. PKT_GO of a packet that its interface can send
sets BUSY, of any other, or a second one, ERR. PKT_DONE of a busy group of a started module that sends no panel list emits the
packet, clears BUSY and shows a failure in ERR; a DSI panel's error report is also a failure of the group (log 29). PKT_DATA pushes
four bytes of 64, and pops four bytes of the response. -/
def Obligations.LaneGroups : Prop :=
  (∀ (g : Fin 8) (s : State), s.isUp → groupState s g = 1 ∨ groupState s g = 3 → (s.group g).waitHpd = false →
    (s.group g).readyAt ≤ s.time.uptime → Ends (.linkReady g) s fun t =>
      groupState t g = 2 ∧ (t.unit (0x30 + g)).recovery = false ∧ (t.group g).atBoot = false ∧
      (∀ k, pairMate s g = some k → (t.unit (0x30 + k)).recovery = false) ∧
      (groupIf s g = 0 → ∀ e ∈ nth [] s.pow.panels g, Out.panelPacket g e.1 0 e.2.1 ∈ t.out) ∧
      OnlyRegs (· = A.laneStat g) s t ∧ TouchesOnly (Part.shared ++ [.groups, .fault]) s t) ∧
  (∀ (g : Fin 8) (s : State), (groupState s g ≠ 1 ∧ groupState s g ≠ 3) ∨ (s.group g).waitHpd = true ∨
    s.time.uptime < (s.group g).readyAt → exec (.linkReady g) s = .next s) ∧
  (∀ path (g : Fin 8) (s : State), s.takes path → s.flag (F.lanePktCtlBusy g) = false → sendsPackets s g = true → packetLenOk s g = true →
    Ends (.pktGo path g) s fun t => t.fld (F.lanePktCtlBusy g) = 1 ∧ t.fld (F.lanePktCtlErr g) = s.fld (F.lanePktCtlErr g) ∧
      SameRegsBut (· = A.lanePktCtl g) s t ∧ TouchesOnly [.regs] s t) ∧
  (∀ path (g : Fin 8) (s : State), s.takes path → s.flag (F.lanePktCtlBusy g) = true ∨ sendsPackets s g = false ∨ packetLenOk s g = false →
    Ends (.pktGo path g) s fun t => t.fld (F.lanePktCtlBusy g) = 0 ∧ t.fld (F.lanePktCtlErr g) = 1 ∧
      SameRegsBut (· = A.lanePktCtl g) s t ∧ TouchesOnly [.regs] s t) ∧
  (∀ (g : Fin 8) ok resp (s : State), s.isUp → s.pow.started = true → s.flag (F.lanePktCtlBusy g) = true → listFirst s g = false → ackError s g ok resp = false →
    Ends (.pktDone g ok resp) s fun t => t.fld (F.lanePktCtlBusy g) = 0 ∧ (ok = false → t.fld (F.lanePktCtlErr g) = 1) ∧
      (ok = true → s.flag (F.lanePktCtlRead g) = true → (t.group g).resp = resp.take (s.fld (F.lanePktCtlLen g))) ∧
      (∃ bs, (s.out ++ [Out.panelPacket g (s.reg (A.lanePktCtl g)) (s.reg (A.lanePktAddr g)) bs]).isPrefixOf t.out = true) ∧
      OnlyRegs (· = A.lanePktCtl g) s t ∧ TouchesOnly (Part.shared ++ [.groups]) s t) ∧
  (∀ (g : Fin 8) ok resp (s : State), s.isUp → s.pow.started = true → ackError s g ok resp = true →
    Leaves (.pktDone g ok resp) s (settle (unitFails (packetDone s g ok resp) (0x30 + g.val) 0x15))) ∧
  (∀ (g : Fin 8) ok resp (s : State), s.pow.started = false ∨ s.flag (F.lanePktCtlBusy g) = false ∨ listFirst s g = true →
    exec (.pktDone g ok resp) s = .next s) ∧
  (∀ path (g : Fin 8) (w : Word) (s : State), s.takes path → Ends (.pktDataPush path g w) s fun t =>
    (t.group g).fifo = ((s.group g).fifo ++ leBytes 4 w.toNat).take 64 ∧ (∀ j, j ≠ g.val → t.group j = s.group j) ∧
    TouchesOnly [.groups] s t) ∧
  ∀ path (g : Fin 8) (s : State), s.takes path → Ends (.pktDataPop path g) s fun t =>
    (t.group g).resp = (s.group g).resp.drop 4 ∧
    t.out = s.out ++ [.read path (BitVec.ofNat 32 (A.lanePktData g)) (leWord ((s.group g).resp ++ [0, 0, 0, 0]))] ∧
    TouchesOnly [.groups, .out] s t

/-- CAM_FRAME_START opens the frame in the slot that the last frame did not use and counts it; CAM_LINE takes the next line of an
open frame, counts an error where its header, CRC or length is wrong, with no line index for one whose header is lost (log 30), and
only counts a good line past HEIGHT; CAM_LINE_WRITTEN, once the port has taken the oldest waiting line (log 25), stores its bytes at
its place in the buffer and nowhere else, notes the copy, and before that stores nothing; CAM_FRAME_END closes the frame. A port
that does not receive takes no frame and no line. -/
def Obligations.CameraPorts : Prop :=
  (∀ (c : Fin 6) (s : State), s.isUp → camReceives s c = true → (∀ x ∈ s.regs.pend, x.cam ≠ some c) →
    Ends (.camFrameStart c) s fun t => (t.cam c).inFrame = true ∧ (t.cam c).line = 0 ∧ (t.cam c).frame = (s.cam c).frame + 1 ∧
      t.fld (F.laneCamStatActive c) = 1 ∧ (t.cam c).lastStart = some s.time.uptime ∧
      ((s.cam c).frame ≠ 0 → s.fld (F.laneCamStatSlot c) ≤ 1 → t.fld (F.laneCamStatSlot c) = 1 - s.fld (F.laneCamStatSlot c)) ∧
      (∀ j, j ≠ c.val → t.cam j = s.cam j) ∧ SameRegsBut (· = A.laneCamStat c) s t ∧ TouchesOnly [.regs, .cams, .perf] s t) ∧
  (∀ (c : Fin 6) crc bs (s : State), s.isUp → camReceives s c = true → (s.cam c).inFrame = true → Ends (.camLine c false crc bs) s fun t =>
    (t.cam c).line = (s.cam c).line ∧ (t.cam c).waiting = (s.cam c).waiting ∧
    t.fld (F.laneCamErrsCount c) = min 16777215 (s.fld (F.laneCamErrsCount c) + 1) ∧ (t.cam c).errFired = true ∧
    OnlyRegs (· = A.laneCamErrs c) s t ∧ TouchesOnly (Part.shared ++ [.cams]) s t) ∧
  (∀ (c : Fin 6) crc bs (s : State), s.isUp → camReceives s c = true → (s.cam c).inFrame = true →
    crc = false ∨ bs.length ≠ s.fld (F.laneCamSizeWidth c) * camLinkBytes (s.fld (F.laneCamCfgDt c)) →
    Ends (.camLine c true crc bs) s fun t => (t.cam c).line = (s.cam c).line + 1 ∧ (t.cam c).waiting = (s.cam c).waiting ∧
      t.fld (F.laneCamErrsCount c) = min 16777215 (s.fld (F.laneCamErrsCount c) + 1) ∧ (t.cam c).errFired = true ∧
      OnlyRegs (· = A.laneCamErrs c) s t ∧ TouchesOnly (Part.shared ++ [.cams, .perf]) s t) ∧
  (∀ (c : Fin 6) bs (s : State), s.isUp → camReceives s c = true → (s.cam c).inFrame = true →
    s.fld (F.laneCamSizeHeight c) ≤ (s.cam c).line →
    bs.length = s.fld (F.laneCamSizeWidth c) * camLinkBytes (s.fld (F.laneCamCfgDt c)) →
    Ends (.camLine c true true bs) s fun t => (t.cam c).line = (s.cam c).line + 1 ∧ (t.cam c).waiting = (s.cam c).waiting ∧
      t.fld (F.laneCamErrsCount c) = min 16777215 (s.fld (F.laneCamErrsCount c) + 1) ∧ (t.cam c).errFired = (s.cam c).errFired ∧
      SameRegsBut (· = A.laneCamErrs c) s t ∧ TouchesOnly [.regs, .cams, .perf] s t) ∧
  (∀ (c : Fin 6) bs (s : State), s.isUp → camReceives s c = true → (s.cam c).inFrame = true → s.flag (F.schedPolCfgEn c) = false →
    (s.cam c).line < s.fld (F.laneCamSizeHeight c) → (s.cam c).waiting.length < 2 →
    portAllows s (96 + c) (camLineAddr s c (s.fld (F.laneCamStatSlot c)) (s.cam c).line) = true →
    bs.length = s.fld (F.laneCamSizeWidth c) * camLinkBytes (s.fld (F.laneCamCfgDt c)) →
    Ends (.camLine c true true bs) s fun t => (t.cam c).line = (s.cam c).line + 1 ∧
      (t.cam c).waiting = (s.cam c).waiting ++
        [(s.fld (F.laneCamStatSlot c), (s.cam c).line, (s.cam c).frame, camReorder (s.fld (F.laneCamCfgDt c)) bs)] ∧
      SameRegsBut (fun _ => False) s t ∧ TouchesOnly [.cams, .perf] s t) ∧
  (∀ (c : Fin 6) slot line frame bs r (s : State), s.isUp → (s.cam c).waiting = (slot, line, frame, bs) :: r →
    bs.length ≤ ((servePorts s).cam c).sent.1 → Ends (.camLineWritten c) s fun t =>
      (∀ i, i < bs.length → t.memByte (camLineAddr s c slot line + i) = bs.getD i 0) ∧
      SameMemoryBut (camLineAddr s c slot line) bs.length s t ∧ (t.cam c).waiting = r ∧ (t.cam c).sent = (0, 0) ∧
      smFind (t.cam c).copies (2 * line + slot) = some (frame, s.time.uptime) ∧ SameRegsBut (fun _ => False) s t) ∧
  (∀ (c : Fin 6) slot line frame bs r (s : State), s.isUp → (s.cam c).waiting = (slot, line, frame, bs) :: r →
    ((servePorts s).cam c).sent.1 < bs.length → Ends (.camLineWritten c) s fun t =>
      SameMemory s t ∧ (t.cam c).waiting = (s.cam c).waiting ∧ SameRegsBut (fun _ => False) s t) ∧
  (∀ (c : Fin 6) (s : State), s.isUp → (s.cam c).waiting = [] → Leaves (.camLineWritten c) s ((servePorts s).each pipes8 fetchAhead)) ∧
  (∀ (c : Fin 6) (s : State), s.isUp → camReceives s c = true → Ends (.camFrameEnd c) s fun t =>
    (t.cam c) = { s.cam c with inFrame := false } ∧ t.fld (F.laneCamStatActive c) = 0 ∧
    SameRegsBut (· = A.laneCamStat c) s t ∧ TouchesOnly [.regs, .cams] s t) ∧
  ∀ (c : Fin 6) h crc bs (s : State), camReceives s c = false → exec (.camFrameStart c) s = .next s ∧
    exec (.camLine c h crc bs) s = .next s ∧ exec (.camFrameEnd c) s = .next s

/-- A failure of a DMA channel, fewer than three before it in 10 ms, puts it in recovery and is counted, with nothing in hand too
(log 79); so does one of a memory channel, which queues its recovery, of a link that the module does not send on, and of an enabled
output group, whose link then recovers, for both groups of a pair. A link that is asleep has not failed. A fourth failure in 10 ms,
or one during recovery, retires a channel or a group. A failure that the unit cannot report does nothing. An eDP sink that answers
ends the wait for HPD; one that cannot carry the link, a wait or a loss of HPD that lasts too long, and lost lanes are failures of
the group; of a group that is not in that state each does nothing. -/
def Obligations.UnitFailures : Prop :=
  (∀ (u c : BitVec 8) (s : State), s.isUp → isDma u.toNat = true → failureKnown s u.toNat c.toNat = true →
    FailsFirst s u.toNat → Settles (.unitFailure u c) s fun t => Recovers s t u.toNat c.toNat) ∧
  (∀ (u c : BitVec 8) (s : State), s.isUp → isMc u.toNat = true → failureKnown s u.toNat c.toNat = true → FailsFirst s u.toNat →
    Settles (.unitFailure u c) s fun t => Recovers s t u.toNat c.toNat ∧
      t.fault.mcHand = s.fault.mcHand.or (s.fault.mcQueue ++ [u.toNat]).head? ∧ t.fault.leadOpen.getLsbD u.toNat = true) ∧
  (∀ (u c : BitVec 8) (s : State), s.isUp → isLink u.toNat = true → c = 9 ∨ c = 10 → FailsFirst s u.toNat →
    linkAsleep s (unitLink u.toNat) = false → activeLink s ≠ unitLink u.toNat →
    Settles (.unitFailure u c) s fun t => Recovers s t u.toNat c.toNat) ∧
  (∀ (u c : BitVec 8) (s : State), s.isUp → isLink u.toNat = true → linkAsleep s (unitLink u.toNat) = true →
    exec (.unitFailure u c) s = .next s) ∧
  (∀ (u c : BitVec 8) (g : Fin 8) (s : State), s.isUp → u.toNat = 0x30 + g.val → failureKnown s u.toNat c.toNat = true →
    FailsFirst s u.toNat → Settles (.unitFailure u c) s fun t => GroupRecovers s t g c.toNat) ∧
  (∀ (u c : BitVec 8) (s : State), s.isUp → (isMc u.toNat || isLg u.toNat || isDma u.toNat) = true →
    failureKnown s u.toNat c.toNat = true → (s.unit u.toNat).retired = false → s.fault.retest ≠ some u.toNat →
    (s.unit u.toNat).recovery = true ∨ 3 ≤ (recentFails s u.toNat).length → Settles (.unitFailure u c) s fun t =>
      (t.unit u.toNat).retired = true ∧ (t.unit u.toNat).recovery = false ∧ (t.unit u.toNat).cause = c.toNat ∧
      (isLg u.toNat = true → groupState t (u.toNat - 0x30) = 4)) ∧
  (∀ (u c : BitVec 8) (s : State), failureKnown s u.toNat c.toNat = false → exec (.unitFailure u c) s = .next s) ∧
  (∀ (g : Fin 8) (s : State), s.isUp → (s.group g).waitHpd = true → Ends (.hpdHigh g true) s fun t =>
    t.group g = { s.group g with waitHpd := false } ∧ (∀ j, j ≠ g.val → t.group j = s.group j) ∧ TouchesOnly [.groups] s t) ∧
  (∀ (g : Fin 8) (s : State), s.isUp → (s.group g).waitHpd = true → FailsFirst s (0x30 + g) →
    Settles (.hpdHigh g false) s (fun t => GroupRecovers s t g 0x12) ∧ Settles (.hpdWaitTimeout g) s (fun t => GroupRecovers s t g 0x12)) ∧
  (∀ (g : Fin 8) ok (s : State), (s.group g).waitHpd = false →
    exec (.hpdHigh g ok) s = .next s ∧ exec (.hpdWaitTimeout g) s = .next s) ∧
  (∀ (g : Fin 8) (s : State), s.isUp → edpUp s g = true → FailsFirst s (0x30 + g) →
    Settles (.hpdLowTimeout g) s (fun t => GroupRecovers s t g 0x13) ∧ Settles (.hpdPulse g false) s (fun t => GroupRecovers s t g 0x12)) ∧
  (∀ (g : Fin 8) (s : State), exec (.hpdPulse g true) s = .next s) ∧
  ∀ (g : Fin 8) ok (s : State), edpUp s g = false →
    exec (.hpdLowTimeout g) s = .next s ∧ exec (.hpdPulse g ok) s = .next s

/-- MC_RECOVERY_DONE ends the recovery in hand and the next waiting channel takes its place; LINK_RECOVERY_DONE ends that of a link
that is up. An uncorrectable error of a channel in service waits for its re-read. A correct re-read counts a soft error and no
failure; a wrong one is a failure of the channel, the loft load that asked for the bale does not finish, and a bale of a fetch unit
has not arrived. Without a recovery or a re-read in hand none of these does anything. -/
def Obligations.Recoveries : Prop :=
  (∀ (m : Nat) (s : State), s.isUp → s.fault.mcHand = some m → Settles .mcRecoveryDone s fun t =>
    (t.unit m).recovery = false ∧ (t.unit m).retired = (s.unit m).retired ∧ (∀ v, v ≠ m → t.unit v = s.unit v) ∧
    t.fault.mcHand = s.fault.mcQueue.head? ∧ t.fault.mcQueue = s.fault.mcQueue.tail ∧ SameMemory s t) ∧
  (∀ s : State, s.fault.mcHand = none → exec .mcRecoveryDone s = .next s) ∧
  (∀ (l : Link) (s : State), s.isUp → linkIsUp s l = true → Ends (.linkRecoveryDone l) s fun t =>
    t.unit (linkUnit l) = { s.unit (linkUnit l) with recovery := false } ∧
    (∀ v, v ≠ linkUnit l → t.unit v = s.unit v) ∧ TouchesOnly [.fault] s t) ∧
  (∀ (l : Link) (s : State), linkIsUp s l = false → exec (.linkRecoveryDone l) s = .next s) ∧
  (∀ (addr m : Nat) user (s : State), s.isUp → channelOf addr = some m → mcInService s m = true →
    Ends (.eccUncorrectable addr user) s fun t => t.fault = { s.fault with reread := s.fault.reread ++ [(m, user, addr)] } ∧ SameMemory s t) ∧
  (∀ (addr m : Nat) (p : Fin 8) (s : State), s.isUp → channelOf addr = some m → mcInService s m = true →
    Leaves (.eccUncorrectable addr (.loft p)) s
      { s with fault := { s.fault with reread := s.fault.reread ++ [(m, .loft p, addr)] } }) ∧
  (∀ (addr : Nat) user (s : State), (∀ m, channelOf addr = some m → mcInService s m = false) →
    exec (.eccUncorrectable addr user) s = .next s) ∧
  (∀ (m : Fin 4) e (s : State), s.isUp → s.fault.reread.find? (fun x => x.1 == m.val) = some e → Settles (.eccRereadDone m true) s fun t =>
    t.fld F.faultMcSoftCount = min 16777215 (s.fld F.faultMcSoftCount + 1) ∧
    t.fault = { s.fault with reread := s.fault.reread.erase e } ∧
    OnlyRegs (· = A.faultMcSoft) s t ∧ TouchesOnly (Part.shared ++ [.fault, .barn]) s t) ∧
  (∀ (m : Fin 4) n addr (s : State), s.isUp → s.fault.reread.find? (fun x => x.1 == m.val) = some (m.val, .fetch n, addr) →
    Leaves (.eccRereadDone m false) s
      (settle (unitFails (loseBale { s with fault := { s.fault with reread := s.fault.reread.erase (m.val, .fetch n, addr) } } n addr) m 1))) ∧
  (∀ (m : Fin 4) p addr (s : State), s.isUp → s.fault.reread.find? (fun x => x.1 == m.val) = some (m.val, .loft p, addr) →
    Leaves (.eccRereadDone m false) s
      (settle (unitFails (loseLoad { s with fault := { s.fault with reread := s.fault.reread.erase (m.val, .loft p, addr) } } p addr) m 1))) ∧
  (∀ (s : State) n addr, s.scene.twinBales = [] → s.scene.twinAsks = [] →
    (readerOf s n addr, addr / 64, readsAhead s (planarOf s.scene.planar (readerOf s n addr)).pipe) ∈ (loseBale s n addr).scene.lostBales) ∧
  (∀ (m : Fin 4) e (s : State), s.isUp → s.fault.reread.find? (fun x => x.1 == m.val) = some e → FailsFirst s m →
    Settles (.eccRereadDone m false) s fun t => Recovers s t m 1) ∧
  ∀ (m : Fin 4) ok (s : State), s.fault.reread.find? (fun x => x.1 == m.val) = none → exec (.eccRereadDone m ok) s = .next s

/-- A result of the lane under test shows in its register and is counted. A pass, or a test not run, brings no failure; a failure of
a lane in service begins a hold and owes a re-proof, one that retires the lane too, and no swap comes before that and a frame start
of each running pipe. When the slot ends the next lane of the profile is tested. A result without a test, and a swap while a test
runs, only let what waits go on. ROTATION_LATE fires once for a lane until its next result. -/
def Obligations.LaneRotation : Prop :=
  (∀ (l : Nat) (s : State), s.isUp → s.fault.lane = some l → l ≤ 16 → s.fault.testing = true → s.fault.hold = false →
    (s.unit (0x10 + l)).retired = false → Settles (.lbistResult .pass) s fun t =>
      t.fld (F.blendLaneStatResult l) = 1 ∧ t.fld (F.blendLaneStatPasses l) = min 65535 (s.fld (F.blendLaneStatPasses l) + 1) ∧
      t.fault = { s.fault with testing := false, notRun := 0, lateFired := s.fault.lateFired.filter (· != l) } ∧
      SameRegsBut (· = A.blendLaneStat l) s t ∧ TouchesOnly [.regs, .fault] s t) ∧
  (∀ (l : Nat) (s : State), s.isUp → s.fault.lane = some l → l ≤ 16 → s.fault.testing = true → s.fault.hold = false →
    s.fault.notRun = 0 → Settles (.lbistResult .notRun) s fun t =>
      t.fld (F.blendLaneStatResult l) = 3 ∧ t.fld F.blendTestNotRunCount = min 16777215 (s.fld F.blendTestNotRunCount + 1) ∧
      t.fault = { s.fault with testing := false, notRun := 1, lateFired := s.fault.lateFired.filter (· != l) } ∧
      SameRegsBut (fun a => a = A.blendLaneStat l ∨ a = A.blendTestNotRun) s t ∧ TouchesOnly [.regs, .fault] s t) ∧
  (∀ (l : Nat) (s : State), s.isUp → s.fault.lane = some l → l ≤ 16 → s.fault.testing = true → s.fault.hold = false →
    FailsFirst s (0x10 + l) → Settles (.lbistResult .fail) s fun t =>
      t.fault.hold = true ∧ t.fault.holdFail = true ∧ t.fault.holdDone = none ∧ t.fault.reproof = true ∧
      t.fault.testing = false ∧ t.fault.holdFrames = pipesRunning s ∧ t.fld (F.blendLaneStatResult l) = 2 ∧
      t.fld F.blendTestFailsCount = min 16777215 (s.fld F.blendTestFailsCount + 1) ∧ Recovers s t (0x10 + l) 7) ∧
  (∀ (l : Nat) (s : State), s.isUp → s.fault.lane = some l → l ≤ 16 → s.fault.testing = true → s.fault.hold = false → 3 ≤ lanesIn s →
    (s.unit (0x10 + l)).retired = false → s.fault.retest ≠ some (0x10 + l) → 3 ≤ (recentFails s (0x10 + l)).length →
    Settles (.lbistResult .fail) s fun t => (t.unit (0x10 + l)).retired = true ∧ t.fault.hold = true ∧ t.fault.holdDone = some false ∧
      t.fault.holdFrames = pipesRunning s ∧ t.fault.reproof = true) ∧
  (∀ (l : Nat) ok (s : State), s.isUp → s.fault.lane = some l → s.fault.testing = false → s.fault.hold = true → s.fault.holdDone = some ok →
    s.fault.reproof = true ∨ s.fault.holdFrames ≠ [] → Leaves .rotationSwap s (settle s)) ∧
  (∀ r (s : State), s.isUp → s.fault.lane = none ∨ s.fault.testing = false → Leaves (.lbistResult r) s (settle s)) ∧
  (∀ (l : Nat) (s : State), s.isUp → s.fault.lane = some l → s.fault.testing = false → s.fault.hold = false → s.fault.notRun ≠ 1 →
    lanesDue s = [] → 2 ≤ lanesIn s → Settles .rotationSwap s fun t =>
      t.fault.lane = some (if profileLanes s ≤ l then 0 else l + 1) ∧ t.fault.testing = true ∧ t.fault.notRun = 0 ∧
      t.fault.slotAt = s.time.uptime ∧ t.fault.slotUs = max 500 (min 5000 (s.fld F.blendRotCfgSlotUs)) ∧
      t.fault.units = s.fault.units ∧ t.fld F.blendSwapsCount = min 16777215 (s.fld F.blendSwapsCount + 1) ∧
      SameRegsBut (· = A.blendSwaps) s t ∧ TouchesOnly [.regs, .fault] s t) ∧
  (∀ (l : Nat) (s : State), s.isUp → s.fault.lane = some l → s.fault.testing = false → s.fault.hold = false → s.fault.notRun = 1 →
    Leaves .rotationSwap s (settle { s with fault := { s.fault with testing := true, slotAt := s.time.uptime } })) ∧
  (∀ s : State, s.isUp → s.fault.lane = none ∨ s.fault.testing = true → Leaves .rotationSwap s (settle s)) ∧
  (∀ (l : Fin 17) (s : State), s.isUp → l.val ≤ profileLanes s → s.fault.lane ≠ none → s.fault.lateFired.contains l.val = false →
    s.fault.lane ≠ some l.val ∨ s.fault.testing = false → Ends (.rotationLate l) s fun t =>
      t.fault = { s.fault with lateFired := s.fault.lateFired ++ [l.val] } ∧
      OnlyRegs (fun _ => False) s t ∧ TouchesOnly (Part.shared ++ [.fault]) s t) ∧
  ∀ (l : Fin 17) (s : State), profileLanes s < l.val ∨ s.fault.lane = none ∨ s.fault.lateFired.contains l.val = true →
    exec (.rotationLate l) s = .next s

/-- A retest begins on a retired unit that can be retested, one at a time, else RESULT shows 4; its result ends it and, where it
passes while a pipe runs, makes the unit ready. The oldest held retirement record is written when the ring has room and a session is
open; while the ring is off no record is held, and RREC_HELD counts those that no session takes or for which the ring has no room.
The fault record ring's consumer index never passes its writer. REPROOF_DONE ends the re-proof that is owed. -/
def Obligations.Retests : Prop :=
  (∀ path (w : Word) (s : State), s.takes path → w.getLsbD 31 = false → Ends (.retestGo path w) s fun t =>
    t.fld F.faultRetestUnit = F.faultRetestUnit.of w ∧ SameRegsBut (· = A.faultRetest) s t ∧ TouchesOnly [.regs] s t) ∧
  (∀ path (w : Word) (s : State), s.takes path → w.getLsbD 31 = true → s.fault.retest = none →
    retestable s (F.faultRetestUnit.of w) = true → Ends (.retestGo path w) s fun t =>
      t.fld F.faultRetestStatBusy = 1 ∧ t.fld F.faultRetestStatUnit = F.faultRetestUnit.of w ∧
      t.fault.retest = some (F.faultRetestUnit.of w) ∧ (t.unit (F.faultRetestUnit.of w)).ready = false ∧
      SameRegsBut (fun a => a = A.faultRetest ∨ a = A.faultRetestStat) s t ∧ TouchesOnly [.regs, .fault] s t) ∧
  (∀ path (w : Word) (s : State), s.takes path → w.getLsbD 31 = true →
    s.fault.retest ≠ none ∨ retestable s (F.faultRetestUnit.of w) = false → Ends (.retestGo path w) s fun t =>
      t.fld F.faultRetestStatResult = 4 ∧ SameRegsBut (fun a => a = A.faultRetest ∨ a = A.faultRetestStat) s t ∧
      TouchesOnly [.regs] s t) ∧
  (∀ (u : Nat) r (s : State), s.isUp → s.fault.retest = some u → lowestRunning s ≠ none ∨ r ≠ .pass → Ends (.retestDone r) s fun t =>
    t.fld F.faultRetestStatBusy = 0 ∧ t.fld F.faultRetestStatResult = (match r with | .pass => 1 | .fail => 2 | .notRun => 3) ∧
    t.fault.retest = none ∧ (r = .pass → (t.unit u).ready = true) ∧ (∀ v, v ≠ u → t.unit v = s.unit v) ∧
    OnlyRegs (· = A.faultRetestStat) s t ∧ TouchesOnly (Part.shared ++ [.fault]) s t) ∧
  (∀ r (s : State), s.fault.retest = none → exec (.retestDone r) s = .next s) ∧
  (∀ r l (s : State), s.isUp → s.fault.held = r :: l → s.flag F.faultRrecCfgEn = true → canIssue s = true → rrecFull s = false →
    Settles .retirementRecord s fun t => t.fault = { s.fault with held := l } ∧ t.reg A.faultRrecWr = s.reg A.faultRrecWr + 1) ∧
  (∀ s : State, (noteHeld s).fld F.faultRrecHeldCount = min 64 (heldRecords s) ∧
    (s.hw.cur = none → heldRecords s = s.fault.held.length)) ∧
  (∀ s : State, s.fault.held = [] ∨ s.flag F.faultRrecCfgEn = false ∨ canIssue s = false ∨ rrecFull s = true →
    exec .retirementRecord s = .next s) ∧
  (∀ path (w : Word) (s : State), s.takes path → dist w (s.reg A.faultRrecHostCi) ≤ dist (s.reg A.faultRrecWr) (s.reg A.faultRrecHostCi) →
    Leaves (.rrecConsume path w) s (noteHeld (s.setReg A.faultRrecHostCi w))) ∧
  (∀ path (w : Word) (s : State), dist (s.reg A.faultRrecWr) (s.reg A.faultRrecHostCi) < dist w (s.reg A.faultRrecHostCi) →
    exec (.rrecConsume path w) s = .next s) ∧
  (∀ path (w : Word) (s : State), s.takes path → s.flag F.faultRrecCfgEn = false → w.getLsbD 0 = true → Ends (.rrecEnable path w) s fun t =>
    t.fld F.faultRrecCfgEn = 1 ∧ t.reg A.faultRrecWr = 0 ∧ t.reg A.faultRrecHostCi = 0 ∧
    t.fld F.faultRrecCfgSize = max 6 (min 12 (F.faultRrecCfgSize.of w)) ∧
    t.fault = { s.fault with rrecSize := max 6 (min 12 (F.faultRrecCfgSize.of w)) } ∧
    OnlyRegs (fun a => a = A.faultRrecCfg ∨ a = A.faultRrecWr ∨ a = A.faultRrecHostCi ∨ a = A.faultRrecHeld) s t ∧
    TouchesOnly (Part.shared ++ [.fault]) s t) ∧
  (∀ path (w : Word) (s : State), s.takes path → w.getLsbD 0 = false → Settles (.rrecEnable path w) s fun t =>
    t.fld F.faultRrecCfgEn = 0 ∧ t.fault = { s.fault with held := [] } ∧ t.fld F.faultRrecHeldCount = 0) ∧
  (∀ s : State, s.isUp → s.fault.reproof = true → Settles .reproofDone s fun t => t.fault = { s.fault with reproof := false } ∧ SameMemory s t) ∧
  ∀ s : State, s.isUp → s.fault.reproof = false → Leaves .reproofDone s (settle s)

/-- A COMMIT in proof whose verdict has a reason is rejected: its staged writes reach no state, and RING, REASON and REJECT_CNT show
it. An admitted one is counted; one that touches nothing applies nowhere, of another the parts wait for its completion and are armed
with it. A host fence of an armed part is read at a poll. A loft load that has been read, which the ports' service decides (log 25),
puts its bytes in the loft, and before that nothing. The last bale of a slot leaves the CRC of its source, and a CRC other than the
one it should have counts and shows in CAUSE; of a slot that has moved the first one stands for the old pipe's buffer (log 65).
Where there is nothing to do, what waits goes on. -/
def Obligations.Verdicts : Prop :=
  (∀ (sc : Scene) v0 (s : State), s.isUp → s.scene.inHand = some (.scene sc, v0) → s.scene.queue = [] → s.scene.readmit = [] →
    s.scene.admitted = [] → (formed s v0).reason ≠ 0 → Settles .winnowProofEnd s fun t =>
      t.scene = { s.scene with inHand := none, proofDep := none } ∧ t.fld F.sceneWinnowStatRing = sc.ring.val ∧
      t.fld F.sceneWinnowStatReason = (formed s v0).reason.toNat ∧
      t.fld F.sceneRejectCntCount = min 65535 (s.fld F.sceneRejectCntCount + 1) ∧
      t.fld F.sceneAdmitCntCount = s.fld F.sceneAdmitCntCount) ∧
  (∀ (sc : Scene) v0 (s : State), s.isUp → s.scene.inHand = some (.scene sc, v0) → s.scene.queue = [] → s.scene.readmit = [] →
    s.scene.admitted = [] → s.scene.armed = [] → (formed s v0).reason = 0 → v0.lift = 0 → sc.writes = (emptyScene sc.ring).writes →
    sc.loads = [] → sc.readmitMc = 0 → sc.readmitLg = 0 → Settles .winnowProofEnd s fun t =>
      { t.scene with running := s.scene.running, admitted := [] } = { s.scene with inHand := none, proofDep := none } ∧
      t.fld F.sceneAdmitCntCount = min 65535 (s.fld F.sceneAdmitCntCount + 1) ∧
      t.fld F.sceneRejectCntCount = s.fld F.sceneRejectCntCount) ∧
  (∀ (sc : Scene) (l : BitVec 4) (s : State), s.scene.armed = [] →
    (admitScene s sc l).scene.armed.map (fun a => (a.kind, a.pipes, a.writes, a.committed, a.written)) =
      (partsOf s sc).map (fun a => (a.kind, a.pipes, a.writes, a.committed, a.written)) ∧
    (admitScene s sc l).scene.admitted = s.scene.admitted ++ [(sc, l)] ∧
    ∀ a ∈ partsOf s sc, a.key = sc.key ∧ a.written = false ∧ a.committed = false) ∧
  (∀ (sc : Scene) (s : State), (∀ a ∈ s.scene.armed, partStopped s a = false) → sc.readmitMc = 0 → sc.readmitLg = 0 →
    (armScene s sc).scene.armed.map (fun a => (a.serial, a.pipes, a.writes, a.committed, a.written)) =
      s.scene.armed.map (fun a => (a.serial, a.pipes, a.writes, a.committed, a.written || a.key == sc.key))) ∧
  (∀ s : State, s.isUp → (∀ sc v, s.scene.inHand ≠ some (.scene sc, v)) → s.scene.readmit = [] → Leaves .winnowProofEnd s (settle s)) ∧
  (∀ (a : Armed) (f : Fence) (s : State), s.isUp → s.scene.armed = [a] → a.written = true → a.committed = false → a.due = false →
    a.fences = [f] → f.host = true → f.signalled = false → partStopped s a = false → Settles .fencePoll s fun u =>
      u.hw.reads.map (fun r => (r.addr, r.len, r.for_)) =
        s.hw.reads.map (fun r => (r.addr, r.len, r.for_)) ++ [(f.addr, 4, .fence a.key f.addr)] ∧ u.scene.armed = s.scene.armed) ∧
  (∀ s : State, s.isUp → s.scene.armed = [] → Leaves .fencePoll s (settle (servePorts s))) ∧
  (∀ (p : Fin 8) (l : LoftLoad) frame (s : State), s.isUp → loadInHand (servePorts s) p = some (l, frame) → l.len ≤ l.got.1 →
    l.skip = [] → Ends (.loftLoadDone p) s fun t =>
      (∀ i, i < l.len → memGet t.loft (l.dest + i) = s.memByte (l.src + i)) ∧
      (∀ x, x < l.dest ∨ l.dest + l.len ≤ x → memGet t.loft x = memGet s.loft x) ∧
      t.scene.running.length + 1 = s.scene.running.length ∧ SameMemory s t) ∧
  (∀ (p : Fin 8) (s : State), s.isUp → (∀ l frame, loadInHand (servePorts s) p = some (l, frame) → l.got.1 < l.len) →
    Leaves (.loftLoadDone p) s (servePorts s)) ∧
  (∀ (n : Fin 96) (c : Nat) (s : State), s.isUp → c = fetchCode s n → s.scene.releases = [] → s.scene.flips = [] →
    (planarOf s.scene.planar c).en = true → (planarOf s.scene.planar c).crcEn = false →
    generatorRuns s (planarOf s.scene.planar c).pipe = true →
    (s.pipe (planarOf s.scene.planar c).pipe).fetched.contains c = false →
    (s.pipe (planarOf s.scene.planar c).pipe).offFrame.contains c = false →
    (s.pipe (planarOf s.scene.planar c).pipe).heldOff.contains c = false → Settles (.lastBaleFetched n) s fun u =>
      u.reg (A.layerSlotCrc (hwSlot c)) = BitVec.ofNat 32 (crc32c (sourceBytes s c)) ∧
      (u.pipe (planarOf s.scene.planar c).pipe).fetched = (s.pipe (planarOf s.scene.planar c).pipe).fetched ++ [c] ∧
      SameRegsBut (· = A.layerSlotCrc (hwSlot c)) s u ∧ TouchesOnly [.regs, .pipes] s u) ∧
  (∀ (n : Fin 96) (c : Nat) (s : State), s.isUp → c = fetchCode s n → (planarOf s.scene.planar c).en = true →
    (planarOf s.scene.planar c).crcEn = true → crc32c (sourceBytes s c) ≠ (planarOf s.scene.planar c).srcCrc.toNat →
    generatorRuns s (planarOf s.scene.planar c).pipe = true →
    (s.pipe (planarOf s.scene.planar c).pipe).fetched.contains c = false →
    (s.pipe (planarOf s.scene.planar c).pipe).offFrame.contains c = false →
    (s.pipe (planarOf s.scene.planar c).pipe).heldOff.contains c = false → Settles (.lastBaleFetched n) s fun u =>
      u.reg (A.layerSlotCrc (hwSlot c)) = BitVec.ofNat 32 (crc32c (sourceBytes s c)) ∧
      u.fld (F.layerSlotStatCause (hwSlot c)) = 3 ∧
      u.fld F.layerCrcFailsCount = min 16777215 (s.fld F.layerCrcFailsCount + 1)) ∧
  ∀ (n : Fin 96) (c : Nat) (s : State), s.isUp → c = fetchCode s n → (planarOf s.scene.planar c).en = false ∨
    generatorRuns s (planarOf s.scene.planar c).pipe = false ∨
    (s.pipe (planarOf s.scene.planar c).pipe).fetched.contains c = true → Leaves (.lastBaleFetched n) s (settle s)

/-- An open load of a lit channel shows in FAULT as 1, a short as 2 with the sink off; a retry that fails for the third time latches
the short, a test or retry that passes clears the fault. A channel that is not used, or not in the state that a test is for, takes
no notice. A generator in use goes to its other phase, unless its on-time leaves it only one. -/
def Obligations.Telltales : Prop :=
  (∀ (n : Fin 24) (s : State), s.isUp → ttUsed s n = true → ttLit s n = true → Ends (.ttOpenLoad n) s fun t =>
    t.fld (F.lightTtStatFault n) = 1 ∧ OnlyRegs (· = A.lightTtStat n) s t ∧ TouchesOnly Part.shared s t) ∧
  (∀ (n : Fin 24) isOpen (s : State), s.isUp → ttUsed s n = true → ttLit s n = false → (s.tt n).off = false →
    Ends (.ttOffTest n isOpen) s fun t => t.fld (F.lightTtStatFault n) = isOpen.toNat ∧
      OnlyRegs (· = A.lightTtStat n) s t ∧ TouchesOnly (Part.shared ++ [.light]) s t) ∧
  (∀ (n : Fin 24) (s : State), s.isUp → ttUsed s n = true → ttLit s n = true → Ends (.ttShort n) s fun t =>
    t.fld (F.lightTtStatFault n) = 2 ∧ (t.tt n).off = true ∧ (t.tt n).retries = 0 ∧ ttLit t n = false ∧
    OnlyRegs (· = A.lightTtStat n) s t ∧ TouchesOnly (Part.shared ++ [.light]) s t) ∧
  (∀ (n : Fin 24) (s : State), s.isUp → ttUsed s n = true → s.fld (F.lightTtStatFault n) = 2 → (s.tt n).off = true →
    Ends (.ttShortRetry n true) s fun t => (t.tt n).retries = (s.tt n).retries + 1 ∧ (t.tt n).off = true ∧
      t.fld (F.lightTtStatFault n) = (if 3 ≤ (s.tt n).retries + 1 then 3 else 2) ∧
      OnlyRegs (· = A.lightTtStat n) s t ∧ TouchesOnly (Part.shared ++ [.light]) s t) ∧
  (∀ (n : Fin 24) (s : State), s.isUp → ttUsed s n = true → s.fld (F.lightTtStatFault n) = 2 → (s.tt n).off = true →
    Ends (.ttShortRetry n false) s fun t => t.fld (F.lightTtStatFault n) = 0 ∧ (t.tt n).off = false ∧ (t.tt n).retries = 0 ∧
      SameRegsBut (· = A.lightTtStat n) s t ∧ TouchesOnly [.regs, .light] s t) ∧
  (∀ (n : Fin 24) (s : State), s.isUp → ttUsed s n = true → ttLit s n = true → Ends (.ttCheckPass n) s fun t =>
    t.fld (F.lightTtStatFault n) = 0 ∧ (t.tt n).retries = 0 ∧ (∀ j, j ≠ n.val → t.tt j = s.tt j) ∧
    SameRegsBut (· = A.lightTtStat n) s t ∧ TouchesOnly [.regs, .light] s t) ∧
  (∀ (n : Fin 24) (s : State), ttUsed s n = false ∨ ttLit s n = false → exec (.ttOpenLoad n) s = .next s ∧
    exec (.ttShort n) s = .next s ∧ exec (.ttCheckPass n) s = .next s) ∧
  (∀ (n : Fin 24) b (s : State), ttUsed s n = false ∨ (s.tt n).off = false → exec (.ttShortRetry n b) s = .next s) ∧
  (∀ (n : Fin 24) b (s : State), ttUsed s n = false ∨ ttLit s n = true → exec (.ttOffTest n b) s = .next s) ∧
  (∀ s : State, s.isUp → s.light.busyA = true → Ends (.blinkPhase false) s fun t =>
    t.light = { s.light with blinkA :=
        (if s.fld F.lightTtBlinkAOn = 0 then false
         else if s.fld F.lightTtBlinkAPeriod ≤ s.fld F.lightTtBlinkAOn then true else !s.light.blinkA) } ∧
    TouchesOnly [.light] s t) ∧
  (∀ s : State, s.isUp → s.light.busyB = true → Ends (.blinkPhase true) s fun t =>
    t.light = { s.light with blinkB :=
        (if s.fld F.lightTtBlinkBOn = 0 then false
         else if s.fld F.lightTtBlinkBPeriod ≤ s.fld F.lightTtBlinkBOn then true else !s.light.blinkB) } ∧
    TouchesOnly [.light] s t) ∧
  (∀ s : State, (s.light.busyA = false → exec (.blinkPhase false) s = .next s) ∧
    (s.light.busyB = false → exec (.blinkPhase true) s = .next s)) ∧
  (∀ s : State, s.isUp → s.pow.bulb = true → Ends .bulbCheckEnd s fun t => t.pow = { s.pow with bulb := false } ∧
    (∀ n : Nat, t.fld (F.lightTtStatFault n) = s.fld (F.lightTtStatFault n)) ∧ TouchesOnly [.pow, .light] s t) ∧
  ∀ s : State, s.pow.bulb = false → exec .bulbCheckEnd s = .next s

/-- A data frame of a running controller gives its raw field to every entry of the mapper that is used and names it, and to no
other; a timeout marks its entry. BUS_OFF stops a controller, recovery and the error counters set its state. The status frame of a
started module goes out with TX_EN. The statistics of a running pipe's zones are read at its last line, and where the frame shows
pixels their next duties are computed, one frame later where its vertical blanking is short; a new PWM period stays in its range. -/
def Obligations.CanAndDimming : Prop :=
  (∀ (b : Fin 2) ide (id : BitVec 29) data (i : Fin 64) r (s : State), s.isUp → canRuns s b = true → entryUsed s i = true →
    s.fld (F.lightMapIdBus i) = b.val → s.flag (F.lightMapIdIde i) = ide →
    s.fld (F.lightMapIdId i) % (if ide then 2 ^ 29 else 2048) = id.toNat % (if ide then 2 ^ 29 else 2048) →
    rawField s i data = some r → Ends (.canFrameReceived b ide id false data) s fun t =>
      t.mapEntry i = { seen := true, timedOut := false, raw := r } ∧ TouchesOnly [.light] s t) ∧
  (∀ (b : Fin 2) ide (id : BitVec 29) data (i : Fin 64) (s : State), s.isUp → canRuns s b = true →
    entryUsed s i = false ∨ s.fld (F.lightMapIdBus i) ≠ b.val ∨ s.flag (F.lightMapIdIde i) ≠ ide ∨ rawField s i data = none ∨
    s.fld (F.lightMapIdId i) % (if ide then 2 ^ 29 else 2048) ≠ id.toNat % (if ide then 2 ^ 29 else 2048) →
    Ends (.canFrameReceived b ide id false data) s fun t => t.mapEntry i = s.mapEntry i ∧ TouchesOnly [.light] s t) ∧
  (∀ (b : Fin 2) ide id remote data (s : State), canRuns s b = false ∨ remote = true →
    exec (.canFrameReceived b ide id remote data) s = .next s) ∧
  (∀ (i : Fin 64) (s : State), s.isUp → entryUsed s i = true → s.flag (F.lightMapFieldTimeout i) = true →
    (s.mapEntry i).timedOut = false → Ends (.mapperTimeout i) s fun t =>
      t.mapEntry i = { s.mapEntry i with timedOut := true } ∧ (∀ j, j ≠ i.val → t.mapEntry j = s.mapEntry j) ∧
      OnlyRegs (fun _ => False) s t ∧ TouchesOnly (Part.shared ++ [.light]) s t) ∧
  (∀ (i : Fin 64) (s : State), entryUsed s i = false ∨ s.flag (F.lightMapFieldTimeout i) = false ∨ (s.mapEntry i).timedOut = true →
    exec (.mapperTimeout i) s = .next s) ∧
  (∀ (b : Fin 2) (s : State), s.isUp → s.pow.started = true → canRuns s b = true → s.flag (F.lightCanTxidTxEn b) = true →
    s.flag (F.lightCanCtlListen b) = false → Leaves (.canStatusTx b) s (s.emit (.canStatus b
      (BitVec.ofNat 29 (s.fld (F.lightCanTxidId b))) (s.flag (F.lightCanTxidIde b)) (s.flag (F.lightCanCtlFd b)) (canStatusBytes s)))) ∧
  (∀ (b : Fin 2) (s : State), s.pow.started = false ∨ canRuns s b = false ∨ s.flag (F.lightCanTxidTxEn b) = false ∨
    s.flag (F.lightCanCtlListen b) = true →
    exec (.canStatusTx b) s = .next s) ∧
  (∀ (b : Fin 2) (s : State), s.isUp → canRuns s b = true → Ends (.busOff b) s fun t =>
    t.fld (F.lightCanStatState b) = 2 ∧ canRuns t b = false ∧
    OnlyRegs (· = A.lightCanStat b) s t ∧ TouchesOnly Part.shared s t) ∧
  (∀ (b : Fin 2) (s : State), s.isUp → s.fld (F.lightCanStatState b) = 2 → Ends (.busOffRecovery b) s fun t =>
    t.fld (F.lightCanStatState b) = 0 ∧ t.fld (F.lightCanStatTec b) = 0 ∧ t.fld (F.lightCanStatRec b) = 0 ∧
    SameRegsBut (· = A.lightCanStat b) s t ∧ TouchesOnly [.regs] s t) ∧
  (∀ (b : Fin 2) (tec rec : BitVec 8) (s : State), s.isUp → canRuns s b = true → Ends (.canBusError b tec rec) s fun t =>
    t.fld (F.lightCanStatTec b) = tec.toNat ∧ t.fld (F.lightCanStatRec b) = rec.toNat ∧
    t.fld (F.lightCanStatState b) = (decide (128 ≤ tec.toNat ∨ 128 ≤ rec.toNat)).toNat ∧
    SameRegsBut (· = A.lightCanStat b) s t ∧ TouchesOnly [.regs] s t) ∧
  (∀ (b : Fin 2) tec rec (s : State), (canRuns s b = false → exec (.busOff b) s = .next s ∧ exec (.canBusError b tec rec) s = .next s) ∧
    (s.fld (F.lightCanStatState b) ≠ 2 → exec (.busOffRecovery b) s = .next s)) ∧
  (∀ (p : Fin 8) (i : Fin 40) (s : State), s.isUp → (s.pipe p).gen = .running → zonePipe (s.zone i) = p.val →
    Ends (.zoneUpdate p) s fun t =>
      t.fld (F.lightZoneStatPeak i) = (s.zone i).peak % 256 ∧ t.fld (F.lightZoneStatMean i) = zoneMean (s.zone i) % 256 ∧
      (shows s p = false → t.zone i = s.zone i) ∧
      (shows s p = true → shortBlank s p = false → t.zone i = { s.zone i with due := some (zoneDuty s (s.zone i)) }) ∧
      (shows s p = true → shortBlank s p = true → t.zone i = { s.zone i with later := some (zoneDuty s (s.zone i)) }) ∧
      OnlyRegs (fun a => ∃ k, k < 40 ∧ a = A.lightZoneStat k) s t ∧ TouchesOnly (Part.shared ++ [.light]) s t) ∧
  (∀ (p : Fin 8) (s : State), (s.pipe p).gen ≠ .running ∨ (∀ i, i < 40 → zonePipe (s.zone i) ≠ p.val) →
    exec (.zoneUpdate p) s = .next s) ∧
  ∀ s : State, s.isUp → Ends .pwmPeriodBoundary s fun t => 6250 ≤ t.light.period ∧ t.light.period ≤ 250000 ∧
    (6250 ≤ s.fld F.lightDimCfgPeriod → s.fld F.lightDimCfgPeriod ≤ 250000 → t.light.period = s.fld F.lightDimCfgPeriod) ∧
    (∀ n, n < 40 → (dimOutput t n).2 ≤ t.light.period ∨ 4095 < (s.zone n).duty) ∧
    TouchesOnly [.light] s t

/-- A raw program of the NOR ANDs the words of its page into their bytes, none for an empty FLUSH (log 16), and an erase sets 64
KiB; neither touches another byte, one that fails leaves only its own undefined, and a full page that waited is programmed next. A
journal record is the current one of its key, one SEQ above the last, and programs only clear bits; where no sector has room it
waits (log 83); a read returns it. Refused and repeated commands write nothing. Compaction changes what no key holds, and once a
sector's current records have moved its erase starts. A sector that is erased counts one above its old count, or, where its header
was unreadable, the highest of the journal; one that cannot be erased is RETIRED, and so is one in which a program failed, once it
is compacted (log 84). -/
def Obligations.BarnWrites : Prop :=
  (∀ (a : Nat) ws (s : State), s.isUp → s.barn.rawBusy = some (false, a, ws) → Ends (.rawDone true) s fun t =>
    (∀ x, norGet t.barn x = ws.foldl (fun v e => if wordAt a e.1 x then v &&& BitVec.ofNat 8 (e.2.toNat / 256 ^ (x - (256 * a + 4 * e.1)))
      else v) (norGet s.barn x)) ∧
    RawOver s t ∧ t.fld F.barnRawCtlErr = s.fld F.barnRawCtlErr) ∧
  (∀ (a : Nat) ws (s : State), s.isUp → s.barn.rawBusy = some (true, a, ws) → Ends (.rawDone true) s fun t =>
    (∀ x, norGet t.barn x = if a ≤ x ∧ x < a + 0x10000 then 0xFF else norGet s.barn x) ∧
    RawOver s t ∧ t.fld F.barnRawCtlErr = s.fld F.barnRawCtlErr) ∧
  (∀ erase (a : Nat) ws (s : State), s.isUp → s.barn.rawBusy = some (erase, a, ws) → Ends (.rawDone false) s fun t =>
    (∀ x, (if erase then x < a ∨ a + 0x10000 ≤ x else ∀ e ∈ ws, wordAt a e.1 x = false) → norGet t.barn x = norGet s.barn x) ∧
    RawOver s t ∧ t.fld F.barnRawCtlErr = 1) ∧
  (∀ path (s : State), s.takes path → s.barn.rawBusy = none → Ends (.rawFlush path) s fun t =>
    (∀ page ws, s.barn.page = some (page, ws) → t.barn = { s.barn with rawBusy := some (false, page, ws), page := none }) ∧
    (s.barn.page = none → ∃ page, t.barn = { s.barn with rawBusy := some (false, page, []) }) ∧ t.fld F.barnRawCtlBusy = 1 ∧
    SameRegsBut (· = A.barnRawCtl) s t ∧ TouchesOnly [.regs, .barn] s t) ∧
  (∀ path (s : State), s.takes path → s.barn.rawBusy = none → Ends (.rawErase path) s fun t =>
    (rawWritable s (4 * barnIndexWord s path / 0x10000 * 0x10000) = true → t.fld F.barnRawCtlBusy = 1 ∧
      t.barn = { s.barn with rawBusy := some (true, 4 * barnIndexWord s path / 0x10000 * 0x10000, []) }) ∧
    (rawWritable s (4 * barnIndexWord s path / 0x10000 * 0x10000) = false → t.fld F.barnRawCtlErr = 1 ∧ t.barn = s.barn) ∧
    SameRegsBut (· = A.barnRawCtl) s t ∧ TouchesOnly [.regs, .barn] s t) ∧
  (∀ path ok (s : State), (s.barn.rawBusy ≠ none → exec (.rawFlush path) s = .next s ∧ exec (.rawErase path) s = .next s) ∧
    (s.barn.rawBusy = none → exec (.rawDone ok) s = .next s)) ∧
  (∀ path (s : State), s.takes path → s.flag F.barnJwCtlBusy = false →
    writeRefusal s.barn (s.fld F.barnJwCtlKey) (s.fld F.barnJwCtlLen) = 0 → s.barn.jobHand = none → s.barn.jobs = [] →
    Ends (.journalWrite path) s fun t => t.fld F.barnJwCtlBusy = 1 ∧
      t.barn.jobHand = some { key := s.fld F.barnJwCtlKey, payload := tableBytes s.barn.table1 (s.fld F.barnJwCtlLen), host := true } ∧
      t.barn.nor = s.barn.nor ∧ SameRegsBut (· = A.barnJwCtl) s t ∧ TouchesOnly [.regs, .barn] s t) ∧
  (∀ path (s : State), s.takes path → s.flag F.barnJwCtlBusy = false →
    writeRefusal s.barn (s.fld F.barnJwCtlKey) (s.fld F.barnJwCtlLen) ≠ 0 → Ends (.journalWrite path) s fun t =>
      t.fld F.barnJwCtlStatus = writeRefusal s.barn (s.fld F.barnJwCtlKey) (s.fld F.barnJwCtlLen) ∧ t.fld F.barnJwCtlBusy = 0 ∧
      OnlyRegs (· = A.barnJwCtl) s t ∧ TouchesOnly Part.shared s t) ∧
  (∀ (j : JJob) (s : State), s.isUp → s.barn.jobHand = some j → hasRoom s.barn (recordSize j.payload.length) = true →
    Ends .jwDone s fun t => (∀ k, keyHolds t.barn k = if k = j.key then (keySeq s.barn j.key + 1, j.payload) else keyHolds s.barn k) ∧
      (∀ a, norGet t.barn a &&& norGet s.barn a = norGet t.barn a) ∧
      (j.host = true → t.fld F.barnJwCtlBusy = 0 ∧ t.fld F.barnJwCtlStatus = 1 ∧
        t.reg A.barnJwSeq = BitVec.ofNat 32 (keySeq s.barn j.key + 1)) ∧
      OnlyRegs (fun a => a = A.barnJwCtl ∨ a = A.barnJwSeq ∨ a = A.barnCompactions ∨ a = A.barnFlogSeq) s t ∧
      TouchesOnly (Part.shared ++ [.barn]) s t) ∧
  (∀ (j : JJob) (s : State), s.barn.jobHand = some j → hasRoom s.barn (recordSize j.payload.length) = false →
    exec .jwDone s = .next s) ∧
  (∀ path (s : State), s.takes path → s.flag F.barnJrCtlBusy = false → Ends (.journalRead path) s fun t =>
    t.fld F.barnJrCtlBusy = 1 ∧ t.barn = { s.barn with readKey := some (s.fld F.barnJrCtlKey) } ∧
    SameRegsBut (· = A.barnJrCtl) s t ∧ TouchesOnly [.regs, .barn] s t) ∧
  (∀ k seq (bs : List Byte) (s : State), s.isUp → s.barn.readKey = some k → keyHolds s.barn k = (seq, bs) →
    seq ≠ 0 → bs ≠ [] → bs.length ≤ 240 → Ends .jrDone s fun t =>
      t.fld F.barnJrCtlStatus = 1 ∧ t.fld F.barnJrCtlLen = bs.length ∧ t.fld F.barnJrCtlBusy = 0 ∧ t.barn.readKey = none ∧
      t.reg A.barnJrSeq = BitVec.ofNat 32 seq ∧ tableBytes t.barn.table2 bs.length = bs ∧
      OnlyRegs (fun a => a = A.barnJrCtl ∨ a = A.barnJrSeq) s t ∧ TouchesOnly (Part.shared ++ [.barn]) s t) ∧
  (∀ path (s : State), (s.flag F.barnJwCtlBusy = true → exec (.journalWrite path) s = .next s) ∧
    (s.flag F.barnJrCtlBusy = true → exec (.journalRead path) s = .next s) ∧ (s.barn.jobHand = none → exec .jwDone s = .next s) ∧
    (s.barn.readKey = none → exec .jrDone s = .next s) ∧ (s.barn.sumDirty = false → exec .faultSummaryWrite s = .next s)) ∧
  (∀ s : State, s.isUp → s.barn.sumDirty = true → Ends .faultSummaryWrite s fun t => t.barn.sumDirty = false ∧
    (s.barn.jobs = [] → s.barn.jobHand = none → t.barn.jobHand =
      some { key := 4097, payload := s.barn.summary.flatMap (leBytes 4) ++ List.replicate 12 0, host := false }) ∧ TouchesOnly [.barn] s t) ∧
  (∀ s : State, (∀ k, keyHolds (goOn s).barn k = keyHolds s.barn k) ∧
    (∀ a, norGet (goOn s).barn a &&& norGet s.barn a = norGet (goOn s).barn a) ∧
    (s.pow.started = false ∨ writerFree s.barn = false ∨ sectors.filter (mustCompact s.barn) = [] → goOn s = s) ∧
    OnlyRegs (fun a => a = A.barnCompactions ∨ a = A.barnFlogSeq) s (goOn s) ∧ TouchesOnly (Part.shared ++ [.barn]) s (goOn s)) ∧
  (∀ (j : Nat) (s : State), s.pow.started = true → writerFree s.barn = true → sectors.filter (mustCompact s.barn) = [j] →
    Compacted s (goOn s) j) ∧
  (∀ (j : Nat) (s : State), s.isUp → victim s.barn = some j → (erasedSectors s.barn).length < 8 → gleaningNow s.barn = false →
    s.barn.failed = [] → writerFree s.barn = true → Ends .gleanerRun s fun t =>
      (∀ k, keyHolds t.barn k = keyHolds s.barn k) ∧ Compacted s t j ∧
      (∀ o, openSector s.barn = some o → 16 ≤ smGet 0 s.barn.fill o → smGet 0 s.barn.fill o + sectorLive s.barn j ≤ 4096 →
        t.barn.erasing = s.barn.erasing ++ [j]) ∧
      SameRegsBut (· = A.barnCompactions) s t ∧ TouchesOnly [.regs, .barn] s t) ∧
  (∀ s : State, sectors.filter (mustCompact s.barn) = [] → victim s.barn = none ∨ 8 ≤ (erasedSectors s.barn).length ∨
    gleaningNow s.barn = true ∨ s.barn.failed ≠ [] → exec .gleanerRun s = .next s) ∧
  (∀ s : State, writerFree s.barn = false → exec .gleanerRun s = .next s) ∧
  (∀ (j : Nat) (s : State), s.isUp → s.barn.erasing.contains j = true → Ends (.sectorEraseDone j) s fun t => ∃ u, t = goOn u ∧
    (∀ x, norGet u.barn x = if eraseAddr j ≤ x ∧ x < eraseAddr j + 4096 then 0xFF else norGet s.barn x) ∧
    (∀ i, smGet 0 u.barn.erases i = if i = j ∧ j < 128 then
      (if headerValid s.barn j then smGet 0 s.barn.erases j + 1 else topErases s.barn) else smGet 0 s.barn.erases i) ∧
    u.barn.erasing = s.barn.erasing.filter (· != j) ∧ TouchesOnly [.barn] s u) ∧
  (∀ (j : Nat) (s : State), s.barn.erasing.contains j = false → exec (.sectorEraseDone j) s = .next s) ∧
  (∀ (j : Fin 128) (s : State), s.isUp → s.barn.erasing.contains j.val = true → Ends (.sectorRetired j true) s fun t =>
    sectorState t.barn j = 8 ∧ t.barn.erasing.contains j.val = false) ∧
  (∀ (j : Fin 128) (s : State), s.isUp → s.barn.erasing.contains j.val = false → s.barn.failed.contains j.val = false →
    sectorState s.barn j ≠ 8 → Ends (.sectorRetired j false) s fun t => (∀ k, keyHolds t.barn k = keyHolds s.barn k) ∧
      (headerValid s.barn j = false → sectorState t.barn j = 8) ∧
      (headerValid s.barn j = true → (t.barn.failed.contains j.val = true ∨ sectorState t.barn j = 8) ∧
        (openSector s.barn = some j.val → inState t.barn 1 1 j = false))) ∧
  ∀ (j : Fin 128) (s : State), (s.barn.erasing.contains j.val = false → exec (.sectorRetired j true) s = .next s) ∧
    (s.barn.erasing.contains j.val = true ∨ s.barn.failed.contains j.val = true ∨ sectorState s.barn j = 8 →
      exec (.sectorRetired j false) s = .next s)

/-- START begins a window at once in US mode, waits for a frame start in FRAMES mode, is refused for a pipe that the profile lacks,
in either mode (log 68), and is ignored while windows run. A US window that has had its N microseconds, 100 at least, ends by
PERF_WINDOW_END with a snapshot, and the next begins with WIN_CFG read anew; before that the command finds nothing to end (log 82).
With HOLD and an unread snapshot it is merged. STOP takes a partial snapshot and ends the windows; one that waits for its frame
start leaves no snapshot (log 68). -/
def Obligations.PerfWindows : Prop :=
  (∀ path (s : State), s.takes path → s.flag F.perfCtlRun = false → s.fld F.perfWinCfgRefPipe < profilePipes s → s.flag F.perfWinCfgMode = true →
    Ends (.perfStart path) s fun t => t.fld F.perfCtlRun = 1 ∧ t.perf = { s.perf with
        counters := [], startAt := some s.time.uptime, turnAt := s.time.uptime, frames := 0, cfg := s.reg A.perfWinCfg, armed := false } ∧
      SameRegsBut (· = A.perfCtl) s t ∧ TouchesOnly [.regs, .perf] s t) ∧
  (∀ path (s : State), s.takes path → s.flag F.perfCtlRun = false → s.fld F.perfWinCfgRefPipe < profilePipes s → s.flag F.perfWinCfgMode = false →
    Ends (.perfStart path) s fun t => t.fld F.perfCtlRun = 1 ∧ t.perf = { s.perf with armed := true, cfg := s.reg A.perfWinCfg } ∧
      SameRegsBut (· = A.perfCtl) s t ∧ TouchesOnly [.regs, .perf] s t) ∧
  (∀ path (s : State), s.takes path → s.flag F.perfCtlRun = false → profilePipes s ≤ s.fld F.perfWinCfgRefPipe →
    Ends (.perfStart path) s fun t => t.fld F.perfSnapStatErr = 1 ∧ t.fld F.perfCtlRun = 0 ∧
      SameRegsBut (· = A.perfSnapStat) s t ∧ TouchesOnly [.regs] s t) ∧
  (∀ path (s : State), s.flag F.perfCtlRun = true → exec (.perfStart path) s = .next s) ∧
  (∀ path (s : State), s.flag F.perfCtlRun = false → exec (.perfStop path) s = .next s ∧ exec .perfWindowEnd s = .next s) ∧
  (∀ path (s : State), s.takes path → s.flag F.perfCtlRun = true → s.perf.startAt = none → Ends (.perfStop path) s fun t =>
    t.fld F.perfCtlRun = 0 ∧ t.perf = { s.perf with armed := false } ∧ SameRegsBut (· = A.perfCtl) s t ∧ TouchesOnly [.regs, .perf] s t) ∧
  (∀ path start (s : State), s.takes path → s.flag F.perfCtlRun = true → s.perf.startAt = some start →
    F.perfWinCfgHold.of s.perf.cfg = 0 ∨ s.flag F.perfSnapStatReady = false → Ends (.perfStop path) s fun t =>
      t.perf.snap = s.perf.counters ∧ t.perf.counters = [] ∧ t.perf.startAt = none ∧ t.fld F.perfCtlRun = 0 ∧
      t.fld F.perfSnapStatPartial = 1 ∧ t.fld F.perfSnapStatReady = 1 ∧
      t.fld F.perfSnapStatSeq = (s.fld F.perfSnapStatSeq + 1) % 65536 ∧ t.reg64 A.perfSnapTimeLo = s.time.base.toNat ∧
      TouchesOnly (Part.shared ++ [.perf]) s t) ∧
  (∀ start (s : State), s.isUp → s.flag F.perfCtlRun = true → F.perfWinCfgMode.of s.perf.cfg ≠ 0 → s.perf.startAt = some start →
    s.perf.turnAt + 1000 * max 100 (F.perfWinCfgN.of s.perf.cfg) ≤ s.time.uptime →
    F.perfWinCfgHold.of s.perf.cfg = 0 ∨ s.flag F.perfSnapStatReady = false → Ends .perfWindowEnd s fun t =>
      t.perf = { s.perf with snap := s.perf.counters, counters := [], startAt := some s.time.uptime, turnAt := s.time.uptime,
                             frames := 0, cfg := s.reg A.perfWinCfg, armed := false } ∧ t.fld F.perfCtlRun = 1 ∧
      t.fld F.perfSnapStatPartial = 0 ∧ t.fld F.perfSnapStatReady = 1 ∧
      t.fld F.perfSnapStatSeq = (s.fld F.perfSnapStatSeq + 1) % 65536 ∧ t.reg64 A.perfSnapTimeLo = s.time.base.toNat ∧
      TouchesOnly (Part.shared ++ [.perf]) s t) ∧
  (∀ start (s : State), s.isUp → s.flag F.perfCtlRun = true → F.perfWinCfgMode.of s.perf.cfg ≠ 0 → s.perf.startAt = some start →
    s.perf.turnAt + 1000 * max 100 (F.perfWinCfgN.of s.perf.cfg) ≤ s.time.uptime →
    F.perfWinCfgHold.of s.perf.cfg ≠ 0 → s.flag F.perfSnapStatReady = true → Ends .perfWindowEnd s fun t =>
      t.perf = { s.perf with frames := 0, turnAt := s.time.uptime, cfg := s.reg A.perfWinCfg } ∧
      t.fld F.perfMergedCount = min 16777215 (s.fld F.perfMergedCount + 1) ∧
      OnlyRegs (· = A.perfMerged) s t ∧ TouchesOnly (Part.shared ++ [.perf]) s t) ∧
  ∀ s : State, F.perfWinCfgMode.of s.perf.cfg = 0 ∨ s.time.uptime < s.perf.turnAt + 1000 * max 100 (F.perfWinCfgN.of s.perf.cfg) →
    exec .perfWindowEnd s = .next s

/-- From every state whose memory is in its canonical form (addresses strictly rising, no listed byte equal to what an unlisted one
reads as: 0, and on a channel that lost its content a free value, logs 7 and 42), every step, whatever command is in front, and the
idle step too, leaves a memory in that form. -/
def Obligations.MemoryForm : Prop :=
  (∀ s t : State, s.memOk = true → step s = .next t → t.memOk = true) ∧
  ∀ (c : Instr) (s t : State), s.memOk = true → exec c s = .next t → t.memOk = true

/-- For every command: outside the parts that `footprint` lists for it (its own block, and where it can raise an event or send a
frame the parts shared for that) the state after it is the state before it. In particular every byte of device memory is unchanged
unless the command is one of those listed with memory. -/
def Obligations.BlockFrames : Prop :=
  (∀ (c : Instr) (s t : State), exec c s = .next t → TouchesOnly (footprint c) s t) ∧
  ∀ s : State, TouchesOnly Part.settled s (settle s)
end

