-- ==== Sys2Proof/Laws/State.lean ====
section
/-! SUPPORT. The fields of the state after each update: one lemma per field per update, all true by definition.
The proofs are `id rfl`, so that simp rewrites with the lemmas and does not leave it to the kernel to compare two states. -/

namespace Sys2Proof.Machine

/-! `State.setReg` changes `regs` alone. -/

@[simp] theorem State.setReg_pending (s : State) (a : Nat) (w : Word) : (s.setReg a w).pending = s.pending := id rfl
@[simp] theorem State.setReg_free (s : State) (a : Nat) (w : Word) : (s.setReg a w).free = s.free := id rfl
@[simp] theorem State.setReg_pow (s : State) (a : Nat) (w : Word) : (s.setReg a w).pow = s.pow := id rfl
@[simp] theorem State.setReg_time (s : State) (a : Nat) (w : Word) : (s.setReg a w).time = s.time := id rfl
@[simp] theorem State.setReg_hw (s : State) (a : Nat) (w : Word) : (s.setReg a w).hw = s.hw := id rfl
@[simp] theorem State.setReg_out (s : State) (a : Nat) (w : Word) : (s.setReg a w).out = s.out := id rfl
@[simp] theorem State.setReg_rings (s : State) (a : Nat) (w : Word) : (s.setReg a w).rings = s.rings := id rfl
@[simp] theorem State.setReg_precHeld (s : State) (a : Nat) (w : Word) : (s.setReg a w).precHeld = s.precHeld := id rfl
@[simp] theorem State.setReg_precSize (s : State) (a : Nat) (w : Word) : (s.setReg a w).precSize = s.precSize := id rfl
@[simp] theorem State.setReg_queueSizes (s : State) (a : Nat) (w : Word) : (s.setReg a w).queueSizes = s.queueSizes := id rfl
@[simp] theorem State.setReg_scene (s : State) (a : Nat) (w : Word) : (s.setReg a w).scene = s.scene := id rfl
@[simp] theorem State.setReg_mem (s : State) (a : Nat) (w : Word) : (s.setReg a w).mem = s.mem := id rfl
@[simp] theorem State.setReg_lost (s : State) (a : Nat) (w : Word) : (s.setReg a w).lost = s.lost := id rfl
@[simp] theorem State.setReg_loft (s : State) (a : Nat) (w : Word) : (s.setReg a w).loft = s.loft := id rfl
@[simp] theorem State.setReg_pipes (s : State) (a : Nat) (w : Word) : (s.setReg a w).pipes = s.pipes := id rfl
@[simp] theorem State.setReg_bins (s : State) (a : Nat) (w : Word) : (s.setReg a w).bins = s.bins := id rfl
@[simp] theorem State.setReg_camLines (s : State) (a : Nat) (w : Word) : (s.setReg a w).camLines = s.camLines := id rfl
@[simp] theorem State.setReg_camLags (s : State) (a : Nat) (w : Word) : (s.setReg a w).camLags = s.camLags := id rfl
@[simp] theorem State.setReg_camEarly (s : State) (a : Nat) (w : Word) : (s.setReg a w).camEarly = s.camEarly := id rfl
@[simp] theorem State.setReg_furrowStore (s : State) (a : Nat) (w : Word) : (s.setReg a w).furrowStore = s.furrowStore := id rfl
@[simp] theorem State.setReg_gates (s : State) (a : Nat) (w : Word) : (s.setReg a w).gates = s.gates := id rfl
@[simp] theorem State.setReg_gcl (s : State) (a : Nat) (w : Word) : (s.setReg a w).gcl = s.gcl := id rfl
@[simp] theorem State.setReg_levels (s : State) (a : Nat) (w : Word) : (s.setReg a w).levels = s.levels := id rfl
@[simp] theorem State.setReg_fetches (s : State) (a : Nat) (w : Word) : (s.setReg a w).fetches = s.fetches := id rfl
@[simp] theorem State.setReg_src (s : State) (a : Nat) (w : Word) : (s.setReg a w).src = s.src := id rfl
@[simp] theorem State.setReg_sampleDue (s : State) (a : Nat) (w : Word) : (s.setReg a w).sampleDue = s.sampleDue := id rfl
@[simp] theorem State.setReg_wins (s : State) (a : Nat) (w : Word) : (s.setReg a w).wins = s.wins := id rfl
@[simp] theorem State.setReg_dma (s : State) (a : Nat) (w : Word) : (s.setReg a w).dma = s.dma := id rfl
@[simp] theorem State.setReg_dmaHalted (s : State) (a : Nat) (w : Word) : (s.setReg a w).dmaHalted = s.dmaHalted := id rfl
@[simp] theorem State.setReg_scans (s : State) (a : Nat) (w : Word) : (s.setReg a w).scans = s.scans := id rfl
@[simp] theorem State.setReg_cams (s : State) (a : Nat) (w : Word) : (s.setReg a w).cams = s.cams := id rfl
@[simp] theorem State.setReg_groups (s : State) (a : Nat) (w : Word) : (s.setReg a w).groups = s.groups := id rfl
@[simp] theorem State.setReg_light (s : State) (a : Nat) (w : Word) : (s.setReg a w).light = s.light := id rfl
@[simp] theorem State.setReg_fault (s : State) (a : Nat) (w : Word) : (s.setReg a w).fault = s.fault := id rfl
@[simp] theorem State.setReg_barn (s : State) (a : Nat) (w : Word) : (s.setReg a w).barn = s.barn := id rfl
@[simp] theorem State.setReg_perf (s : State) (a : Nat) (w : Word) : (s.setReg a w).perf = s.perf := id rfl

/-! `State.setShadow` changes `regs` alone. -/

@[simp] theorem State.setShadow_pending (s : State) (a : Nat) (w : Word) : (s.setShadow a w).pending = s.pending := id rfl
@[simp] theorem State.setShadow_free (s : State) (a : Nat) (w : Word) : (s.setShadow a w).free = s.free := id rfl
@[simp] theorem State.setShadow_pow (s : State) (a : Nat) (w : Word) : (s.setShadow a w).pow = s.pow := id rfl
@[simp] theorem State.setShadow_time (s : State) (a : Nat) (w : Word) : (s.setShadow a w).time = s.time := id rfl
@[simp] theorem State.setShadow_hw (s : State) (a : Nat) (w : Word) : (s.setShadow a w).hw = s.hw := id rfl
@[simp] theorem State.setShadow_out (s : State) (a : Nat) (w : Word) : (s.setShadow a w).out = s.out := id rfl
@[simp] theorem State.setShadow_rings (s : State) (a : Nat) (w : Word) : (s.setShadow a w).rings = s.rings := id rfl
@[simp] theorem State.setShadow_precHeld (s : State) (a : Nat) (w : Word) : (s.setShadow a w).precHeld = s.precHeld := id rfl
@[simp] theorem State.setShadow_precSize (s : State) (a : Nat) (w : Word) : (s.setShadow a w).precSize = s.precSize := id rfl
@[simp] theorem State.setShadow_queueSizes (s : State) (a : Nat) (w : Word) : (s.setShadow a w).queueSizes = s.queueSizes := id rfl
@[simp] theorem State.setShadow_scene (s : State) (a : Nat) (w : Word) : (s.setShadow a w).scene = s.scene := id rfl
@[simp] theorem State.setShadow_mem (s : State) (a : Nat) (w : Word) : (s.setShadow a w).mem = s.mem := id rfl
@[simp] theorem State.setShadow_lost (s : State) (a : Nat) (w : Word) : (s.setShadow a w).lost = s.lost := id rfl
@[simp] theorem State.setShadow_loft (s : State) (a : Nat) (w : Word) : (s.setShadow a w).loft = s.loft := id rfl
@[simp] theorem State.setShadow_pipes (s : State) (a : Nat) (w : Word) : (s.setShadow a w).pipes = s.pipes := id rfl
@[simp] theorem State.setShadow_bins (s : State) (a : Nat) (w : Word) : (s.setShadow a w).bins = s.bins := id rfl
@[simp] theorem State.setShadow_camLines (s : State) (a : Nat) (w : Word) : (s.setShadow a w).camLines = s.camLines := id rfl
@[simp] theorem State.setShadow_camLags (s : State) (a : Nat) (w : Word) : (s.setShadow a w).camLags = s.camLags := id rfl
@[simp] theorem State.setShadow_camEarly (s : State) (a : Nat) (w : Word) : (s.setShadow a w).camEarly = s.camEarly := id rfl
@[simp] theorem State.setShadow_furrowStore (s : State) (a : Nat) (w : Word) : (s.setShadow a w).furrowStore = s.furrowStore := id rfl
@[simp] theorem State.setShadow_gates (s : State) (a : Nat) (w : Word) : (s.setShadow a w).gates = s.gates := id rfl
@[simp] theorem State.setShadow_gcl (s : State) (a : Nat) (w : Word) : (s.setShadow a w).gcl = s.gcl := id rfl
@[simp] theorem State.setShadow_levels (s : State) (a : Nat) (w : Word) : (s.setShadow a w).levels = s.levels := id rfl
@[simp] theorem State.setShadow_fetches (s : State) (a : Nat) (w : Word) : (s.setShadow a w).fetches = s.fetches := id rfl
@[simp] theorem State.setShadow_src (s : State) (a : Nat) (w : Word) : (s.setShadow a w).src = s.src := id rfl
@[simp] theorem State.setShadow_sampleDue (s : State) (a : Nat) (w : Word) : (s.setShadow a w).sampleDue = s.sampleDue := id rfl
@[simp] theorem State.setShadow_wins (s : State) (a : Nat) (w : Word) : (s.setShadow a w).wins = s.wins := id rfl
@[simp] theorem State.setShadow_dma (s : State) (a : Nat) (w : Word) : (s.setShadow a w).dma = s.dma := id rfl
@[simp] theorem State.setShadow_dmaHalted (s : State) (a : Nat) (w : Word) : (s.setShadow a w).dmaHalted = s.dmaHalted := id rfl
@[simp] theorem State.setShadow_scans (s : State) (a : Nat) (w : Word) : (s.setShadow a w).scans = s.scans := id rfl
@[simp] theorem State.setShadow_cams (s : State) (a : Nat) (w : Word) : (s.setShadow a w).cams = s.cams := id rfl
@[simp] theorem State.setShadow_groups (s : State) (a : Nat) (w : Word) : (s.setShadow a w).groups = s.groups := id rfl
@[simp] theorem State.setShadow_light (s : State) (a : Nat) (w : Word) : (s.setShadow a w).light = s.light := id rfl
@[simp] theorem State.setShadow_fault (s : State) (a : Nat) (w : Word) : (s.setShadow a w).fault = s.fault := id rfl
@[simp] theorem State.setShadow_barn (s : State) (a : Nat) (w : Word) : (s.setShadow a w).barn = s.barn := id rfl
@[simp] theorem State.setShadow_perf (s : State) (a : Nat) (w : Word) : (s.setShadow a w).perf = s.perf := id rfl

/-! `State.setRing` changes `rings` alone. -/

@[simp] theorem State.setRing_pending (s : State) (n : Nat) (r : Ring) : (s.setRing n r).pending = s.pending := id rfl
@[simp] theorem State.setRing_free (s : State) (n : Nat) (r : Ring) : (s.setRing n r).free = s.free := id rfl
@[simp] theorem State.setRing_regs (s : State) (n : Nat) (r : Ring) : (s.setRing n r).regs = s.regs := id rfl
@[simp] theorem State.setRing_pow (s : State) (n : Nat) (r : Ring) : (s.setRing n r).pow = s.pow := id rfl
@[simp] theorem State.setRing_time (s : State) (n : Nat) (r : Ring) : (s.setRing n r).time = s.time := id rfl
@[simp] theorem State.setRing_hw (s : State) (n : Nat) (r : Ring) : (s.setRing n r).hw = s.hw := id rfl
@[simp] theorem State.setRing_out (s : State) (n : Nat) (r : Ring) : (s.setRing n r).out = s.out := id rfl
@[simp] theorem State.setRing_precHeld (s : State) (n : Nat) (r : Ring) : (s.setRing n r).precHeld = s.precHeld := id rfl
@[simp] theorem State.setRing_precSize (s : State) (n : Nat) (r : Ring) : (s.setRing n r).precSize = s.precSize := id rfl
@[simp] theorem State.setRing_queueSizes (s : State) (n : Nat) (r : Ring) : (s.setRing n r).queueSizes = s.queueSizes := id rfl
@[simp] theorem State.setRing_scene (s : State) (n : Nat) (r : Ring) : (s.setRing n r).scene = s.scene := id rfl
@[simp] theorem State.setRing_mem (s : State) (n : Nat) (r : Ring) : (s.setRing n r).mem = s.mem := id rfl
@[simp] theorem State.setRing_lost (s : State) (n : Nat) (r : Ring) : (s.setRing n r).lost = s.lost := id rfl
@[simp] theorem State.setRing_loft (s : State) (n : Nat) (r : Ring) : (s.setRing n r).loft = s.loft := id rfl
@[simp] theorem State.setRing_pipes (s : State) (n : Nat) (r : Ring) : (s.setRing n r).pipes = s.pipes := id rfl
@[simp] theorem State.setRing_bins (s : State) (n : Nat) (r : Ring) : (s.setRing n r).bins = s.bins := id rfl
@[simp] theorem State.setRing_camLines (s : State) (n : Nat) (r : Ring) : (s.setRing n r).camLines = s.camLines := id rfl
@[simp] theorem State.setRing_camLags (s : State) (n : Nat) (r : Ring) : (s.setRing n r).camLags = s.camLags := id rfl
@[simp] theorem State.setRing_camEarly (s : State) (n : Nat) (r : Ring) : (s.setRing n r).camEarly = s.camEarly := id rfl
@[simp] theorem State.setRing_furrowStore (s : State) (n : Nat) (r : Ring) : (s.setRing n r).furrowStore = s.furrowStore := id rfl
@[simp] theorem State.setRing_gates (s : State) (n : Nat) (r : Ring) : (s.setRing n r).gates = s.gates := id rfl
@[simp] theorem State.setRing_gcl (s : State) (n : Nat) (r : Ring) : (s.setRing n r).gcl = s.gcl := id rfl
@[simp] theorem State.setRing_levels (s : State) (n : Nat) (r : Ring) : (s.setRing n r).levels = s.levels := id rfl
@[simp] theorem State.setRing_fetches (s : State) (n : Nat) (r : Ring) : (s.setRing n r).fetches = s.fetches := id rfl
@[simp] theorem State.setRing_src (s : State) (n : Nat) (r : Ring) : (s.setRing n r).src = s.src := id rfl
@[simp] theorem State.setRing_sampleDue (s : State) (n : Nat) (r : Ring) : (s.setRing n r).sampleDue = s.sampleDue := id rfl
@[simp] theorem State.setRing_wins (s : State) (n : Nat) (r : Ring) : (s.setRing n r).wins = s.wins := id rfl
@[simp] theorem State.setRing_dma (s : State) (n : Nat) (r : Ring) : (s.setRing n r).dma = s.dma := id rfl
@[simp] theorem State.setRing_dmaHalted (s : State) (n : Nat) (r : Ring) : (s.setRing n r).dmaHalted = s.dmaHalted := id rfl
@[simp] theorem State.setRing_scans (s : State) (n : Nat) (r : Ring) : (s.setRing n r).scans = s.scans := id rfl
@[simp] theorem State.setRing_cams (s : State) (n : Nat) (r : Ring) : (s.setRing n r).cams = s.cams := id rfl
@[simp] theorem State.setRing_groups (s : State) (n : Nat) (r : Ring) : (s.setRing n r).groups = s.groups := id rfl
@[simp] theorem State.setRing_light (s : State) (n : Nat) (r : Ring) : (s.setRing n r).light = s.light := id rfl
@[simp] theorem State.setRing_fault (s : State) (n : Nat) (r : Ring) : (s.setRing n r).fault = s.fault := id rfl
@[simp] theorem State.setRing_barn (s : State) (n : Nat) (r : Ring) : (s.setRing n r).barn = s.barn := id rfl
@[simp] theorem State.setRing_perf (s : State) (n : Nat) (r : Ring) : (s.setRing n r).perf = s.perf := id rfl

/-! `State.setPipe` changes `pipes` alone. -/

@[simp] theorem State.setPipe_pending (s : State) (p : Nat) (r : PipeRt) : (s.setPipe p r).pending = s.pending := id rfl
@[simp] theorem State.setPipe_free (s : State) (p : Nat) (r : PipeRt) : (s.setPipe p r).free = s.free := id rfl
@[simp] theorem State.setPipe_regs (s : State) (p : Nat) (r : PipeRt) : (s.setPipe p r).regs = s.regs := id rfl
@[simp] theorem State.setPipe_pow (s : State) (p : Nat) (r : PipeRt) : (s.setPipe p r).pow = s.pow := id rfl
@[simp] theorem State.setPipe_time (s : State) (p : Nat) (r : PipeRt) : (s.setPipe p r).time = s.time := id rfl
@[simp] theorem State.setPipe_hw (s : State) (p : Nat) (r : PipeRt) : (s.setPipe p r).hw = s.hw := id rfl
@[simp] theorem State.setPipe_out (s : State) (p : Nat) (r : PipeRt) : (s.setPipe p r).out = s.out := id rfl
@[simp] theorem State.setPipe_rings (s : State) (p : Nat) (r : PipeRt) : (s.setPipe p r).rings = s.rings := id rfl
@[simp] theorem State.setPipe_precHeld (s : State) (p : Nat) (r : PipeRt) : (s.setPipe p r).precHeld = s.precHeld := id rfl
@[simp] theorem State.setPipe_precSize (s : State) (p : Nat) (r : PipeRt) : (s.setPipe p r).precSize = s.precSize := id rfl
@[simp] theorem State.setPipe_queueSizes (s : State) (p : Nat) (r : PipeRt) : (s.setPipe p r).queueSizes = s.queueSizes := id rfl
@[simp] theorem State.setPipe_scene (s : State) (p : Nat) (r : PipeRt) : (s.setPipe p r).scene = s.scene := id rfl
@[simp] theorem State.setPipe_mem (s : State) (p : Nat) (r : PipeRt) : (s.setPipe p r).mem = s.mem := id rfl
@[simp] theorem State.setPipe_lost (s : State) (p : Nat) (r : PipeRt) : (s.setPipe p r).lost = s.lost := id rfl
@[simp] theorem State.setPipe_loft (s : State) (p : Nat) (r : PipeRt) : (s.setPipe p r).loft = s.loft := id rfl
@[simp] theorem State.setPipe_bins (s : State) (p : Nat) (r : PipeRt) : (s.setPipe p r).bins = s.bins := id rfl
@[simp] theorem State.setPipe_camLines (s : State) (p : Nat) (r : PipeRt) : (s.setPipe p r).camLines = s.camLines := id rfl
@[simp] theorem State.setPipe_camLags (s : State) (p : Nat) (r : PipeRt) : (s.setPipe p r).camLags = s.camLags := id rfl
@[simp] theorem State.setPipe_camEarly (s : State) (p : Nat) (r : PipeRt) : (s.setPipe p r).camEarly = s.camEarly := id rfl
@[simp] theorem State.setPipe_furrowStore (s : State) (p : Nat) (r : PipeRt) : (s.setPipe p r).furrowStore = s.furrowStore := id rfl
@[simp] theorem State.setPipe_gates (s : State) (p : Nat) (r : PipeRt) : (s.setPipe p r).gates = s.gates := id rfl
@[simp] theorem State.setPipe_gcl (s : State) (p : Nat) (r : PipeRt) : (s.setPipe p r).gcl = s.gcl := id rfl
@[simp] theorem State.setPipe_levels (s : State) (p : Nat) (r : PipeRt) : (s.setPipe p r).levels = s.levels := id rfl
@[simp] theorem State.setPipe_fetches (s : State) (p : Nat) (r : PipeRt) : (s.setPipe p r).fetches = s.fetches := id rfl
@[simp] theorem State.setPipe_src (s : State) (p : Nat) (r : PipeRt) : (s.setPipe p r).src = s.src := id rfl
@[simp] theorem State.setPipe_sampleDue (s : State) (p : Nat) (r : PipeRt) : (s.setPipe p r).sampleDue = s.sampleDue := id rfl
@[simp] theorem State.setPipe_wins (s : State) (p : Nat) (r : PipeRt) : (s.setPipe p r).wins = s.wins := id rfl
@[simp] theorem State.setPipe_dma (s : State) (p : Nat) (r : PipeRt) : (s.setPipe p r).dma = s.dma := id rfl
@[simp] theorem State.setPipe_dmaHalted (s : State) (p : Nat) (r : PipeRt) : (s.setPipe p r).dmaHalted = s.dmaHalted := id rfl
@[simp] theorem State.setPipe_scans (s : State) (p : Nat) (r : PipeRt) : (s.setPipe p r).scans = s.scans := id rfl
@[simp] theorem State.setPipe_cams (s : State) (p : Nat) (r : PipeRt) : (s.setPipe p r).cams = s.cams := id rfl
@[simp] theorem State.setPipe_groups (s : State) (p : Nat) (r : PipeRt) : (s.setPipe p r).groups = s.groups := id rfl
@[simp] theorem State.setPipe_light (s : State) (p : Nat) (r : PipeRt) : (s.setPipe p r).light = s.light := id rfl
@[simp] theorem State.setPipe_fault (s : State) (p : Nat) (r : PipeRt) : (s.setPipe p r).fault = s.fault := id rfl
@[simp] theorem State.setPipe_barn (s : State) (p : Nat) (r : PipeRt) : (s.setPipe p r).barn = s.barn := id rfl
@[simp] theorem State.setPipe_perf (s : State) (p : Nat) (r : PipeRt) : (s.setPipe p r).perf = s.perf := id rfl

/-! `State.setGate` changes `gates` alone. -/

@[simp] theorem State.setGate_pending (s : State) (m : Nat) (g : Gate) : (s.setGate m g).pending = s.pending := id rfl
@[simp] theorem State.setGate_free (s : State) (m : Nat) (g : Gate) : (s.setGate m g).free = s.free := id rfl
@[simp] theorem State.setGate_regs (s : State) (m : Nat) (g : Gate) : (s.setGate m g).regs = s.regs := id rfl
@[simp] theorem State.setGate_pow (s : State) (m : Nat) (g : Gate) : (s.setGate m g).pow = s.pow := id rfl
@[simp] theorem State.setGate_time (s : State) (m : Nat) (g : Gate) : (s.setGate m g).time = s.time := id rfl
@[simp] theorem State.setGate_hw (s : State) (m : Nat) (g : Gate) : (s.setGate m g).hw = s.hw := id rfl
@[simp] theorem State.setGate_out (s : State) (m : Nat) (g : Gate) : (s.setGate m g).out = s.out := id rfl
@[simp] theorem State.setGate_rings (s : State) (m : Nat) (g : Gate) : (s.setGate m g).rings = s.rings := id rfl
@[simp] theorem State.setGate_precHeld (s : State) (m : Nat) (g : Gate) : (s.setGate m g).precHeld = s.precHeld := id rfl
@[simp] theorem State.setGate_precSize (s : State) (m : Nat) (g : Gate) : (s.setGate m g).precSize = s.precSize := id rfl
@[simp] theorem State.setGate_queueSizes (s : State) (m : Nat) (g : Gate) : (s.setGate m g).queueSizes = s.queueSizes := id rfl
@[simp] theorem State.setGate_scene (s : State) (m : Nat) (g : Gate) : (s.setGate m g).scene = s.scene := id rfl
@[simp] theorem State.setGate_mem (s : State) (m : Nat) (g : Gate) : (s.setGate m g).mem = s.mem := id rfl
@[simp] theorem State.setGate_lost (s : State) (m : Nat) (g : Gate) : (s.setGate m g).lost = s.lost := id rfl
@[simp] theorem State.setGate_loft (s : State) (m : Nat) (g : Gate) : (s.setGate m g).loft = s.loft := id rfl
@[simp] theorem State.setGate_pipes (s : State) (m : Nat) (g : Gate) : (s.setGate m g).pipes = s.pipes := id rfl
@[simp] theorem State.setGate_bins (s : State) (m : Nat) (g : Gate) : (s.setGate m g).bins = s.bins := id rfl
@[simp] theorem State.setGate_camLines (s : State) (m : Nat) (g : Gate) : (s.setGate m g).camLines = s.camLines := id rfl
@[simp] theorem State.setGate_camLags (s : State) (m : Nat) (g : Gate) : (s.setGate m g).camLags = s.camLags := id rfl
@[simp] theorem State.setGate_camEarly (s : State) (m : Nat) (g : Gate) : (s.setGate m g).camEarly = s.camEarly := id rfl
@[simp] theorem State.setGate_furrowStore (s : State) (m : Nat) (g : Gate) : (s.setGate m g).furrowStore = s.furrowStore := id rfl
@[simp] theorem State.setGate_gcl (s : State) (m : Nat) (g : Gate) : (s.setGate m g).gcl = s.gcl := id rfl
@[simp] theorem State.setGate_levels (s : State) (m : Nat) (g : Gate) : (s.setGate m g).levels = s.levels := id rfl
@[simp] theorem State.setGate_fetches (s : State) (m : Nat) (g : Gate) : (s.setGate m g).fetches = s.fetches := id rfl
@[simp] theorem State.setGate_src (s : State) (m : Nat) (g : Gate) : (s.setGate m g).src = s.src := id rfl
@[simp] theorem State.setGate_sampleDue (s : State) (m : Nat) (g : Gate) : (s.setGate m g).sampleDue = s.sampleDue := id rfl
@[simp] theorem State.setGate_wins (s : State) (m : Nat) (g : Gate) : (s.setGate m g).wins = s.wins := id rfl
@[simp] theorem State.setGate_dma (s : State) (m : Nat) (g : Gate) : (s.setGate m g).dma = s.dma := id rfl
@[simp] theorem State.setGate_dmaHalted (s : State) (m : Nat) (g : Gate) : (s.setGate m g).dmaHalted = s.dmaHalted := id rfl
@[simp] theorem State.setGate_scans (s : State) (m : Nat) (g : Gate) : (s.setGate m g).scans = s.scans := id rfl
@[simp] theorem State.setGate_cams (s : State) (m : Nat) (g : Gate) : (s.setGate m g).cams = s.cams := id rfl
@[simp] theorem State.setGate_groups (s : State) (m : Nat) (g : Gate) : (s.setGate m g).groups = s.groups := id rfl
@[simp] theorem State.setGate_light (s : State) (m : Nat) (g : Gate) : (s.setGate m g).light = s.light := id rfl
@[simp] theorem State.setGate_fault (s : State) (m : Nat) (g : Gate) : (s.setGate m g).fault = s.fault := id rfl
@[simp] theorem State.setGate_barn (s : State) (m : Nat) (g : Gate) : (s.setGate m g).barn = s.barn := id rfl
@[simp] theorem State.setGate_perf (s : State) (m : Nat) (g : Gate) : (s.setGate m g).perf = s.perf := id rfl

/-! `State.setSource` changes `src` alone. -/

@[simp] theorem State.setSource_pending (s : State) (k : Nat) (v : Source) : (s.setSource k v).pending = s.pending := id rfl
@[simp] theorem State.setSource_free (s : State) (k : Nat) (v : Source) : (s.setSource k v).free = s.free := id rfl
@[simp] theorem State.setSource_regs (s : State) (k : Nat) (v : Source) : (s.setSource k v).regs = s.regs := id rfl
@[simp] theorem State.setSource_pow (s : State) (k : Nat) (v : Source) : (s.setSource k v).pow = s.pow := id rfl
@[simp] theorem State.setSource_time (s : State) (k : Nat) (v : Source) : (s.setSource k v).time = s.time := id rfl
@[simp] theorem State.setSource_hw (s : State) (k : Nat) (v : Source) : (s.setSource k v).hw = s.hw := id rfl
@[simp] theorem State.setSource_out (s : State) (k : Nat) (v : Source) : (s.setSource k v).out = s.out := id rfl
@[simp] theorem State.setSource_rings (s : State) (k : Nat) (v : Source) : (s.setSource k v).rings = s.rings := id rfl
@[simp] theorem State.setSource_precHeld (s : State) (k : Nat) (v : Source) : (s.setSource k v).precHeld = s.precHeld := id rfl
@[simp] theorem State.setSource_precSize (s : State) (k : Nat) (v : Source) : (s.setSource k v).precSize = s.precSize := id rfl
@[simp] theorem State.setSource_queueSizes (s : State) (k : Nat) (v : Source) : (s.setSource k v).queueSizes = s.queueSizes := id rfl
@[simp] theorem State.setSource_scene (s : State) (k : Nat) (v : Source) : (s.setSource k v).scene = s.scene := id rfl
@[simp] theorem State.setSource_mem (s : State) (k : Nat) (v : Source) : (s.setSource k v).mem = s.mem := id rfl
@[simp] theorem State.setSource_lost (s : State) (k : Nat) (v : Source) : (s.setSource k v).lost = s.lost := id rfl
@[simp] theorem State.setSource_loft (s : State) (k : Nat) (v : Source) : (s.setSource k v).loft = s.loft := id rfl
@[simp] theorem State.setSource_pipes (s : State) (k : Nat) (v : Source) : (s.setSource k v).pipes = s.pipes := id rfl
@[simp] theorem State.setSource_bins (s : State) (k : Nat) (v : Source) : (s.setSource k v).bins = s.bins := id rfl
@[simp] theorem State.setSource_camLines (s : State) (k : Nat) (v : Source) : (s.setSource k v).camLines = s.camLines := id rfl
@[simp] theorem State.setSource_camLags (s : State) (k : Nat) (v : Source) : (s.setSource k v).camLags = s.camLags := id rfl
@[simp] theorem State.setSource_camEarly (s : State) (k : Nat) (v : Source) : (s.setSource k v).camEarly = s.camEarly := id rfl
@[simp] theorem State.setSource_furrowStore (s : State) (k : Nat) (v : Source) : (s.setSource k v).furrowStore = s.furrowStore := id rfl
@[simp] theorem State.setSource_gates (s : State) (k : Nat) (v : Source) : (s.setSource k v).gates = s.gates := id rfl
@[simp] theorem State.setSource_gcl (s : State) (k : Nat) (v : Source) : (s.setSource k v).gcl = s.gcl := id rfl
@[simp] theorem State.setSource_levels (s : State) (k : Nat) (v : Source) : (s.setSource k v).levels = s.levels := id rfl
@[simp] theorem State.setSource_fetches (s : State) (k : Nat) (v : Source) : (s.setSource k v).fetches = s.fetches := id rfl
@[simp] theorem State.setSource_sampleDue (s : State) (k : Nat) (v : Source) : (s.setSource k v).sampleDue = s.sampleDue := id rfl
@[simp] theorem State.setSource_wins (s : State) (k : Nat) (v : Source) : (s.setSource k v).wins = s.wins := id rfl
@[simp] theorem State.setSource_dma (s : State) (k : Nat) (v : Source) : (s.setSource k v).dma = s.dma := id rfl
@[simp] theorem State.setSource_dmaHalted (s : State) (k : Nat) (v : Source) : (s.setSource k v).dmaHalted = s.dmaHalted := id rfl
@[simp] theorem State.setSource_scans (s : State) (k : Nat) (v : Source) : (s.setSource k v).scans = s.scans := id rfl
@[simp] theorem State.setSource_cams (s : State) (k : Nat) (v : Source) : (s.setSource k v).cams = s.cams := id rfl
@[simp] theorem State.setSource_groups (s : State) (k : Nat) (v : Source) : (s.setSource k v).groups = s.groups := id rfl
@[simp] theorem State.setSource_light (s : State) (k : Nat) (v : Source) : (s.setSource k v).light = s.light := id rfl
@[simp] theorem State.setSource_fault (s : State) (k : Nat) (v : Source) : (s.setSource k v).fault = s.fault := id rfl
@[simp] theorem State.setSource_barn (s : State) (k : Nat) (v : Source) : (s.setSource k v).barn = s.barn := id rfl
@[simp] theorem State.setSource_perf (s : State) (k : Nat) (v : Source) : (s.setSource k v).perf = s.perf := id rfl

/-! `State.setWindow` changes `wins` alone. -/

@[simp] theorem State.setWindow_pending (s : State) (n : Nat) (w : Window) : (s.setWindow n w).pending = s.pending := id rfl
@[simp] theorem State.setWindow_free (s : State) (n : Nat) (w : Window) : (s.setWindow n w).free = s.free := id rfl
@[simp] theorem State.setWindow_regs (s : State) (n : Nat) (w : Window) : (s.setWindow n w).regs = s.regs := id rfl
@[simp] theorem State.setWindow_pow (s : State) (n : Nat) (w : Window) : (s.setWindow n w).pow = s.pow := id rfl
@[simp] theorem State.setWindow_time (s : State) (n : Nat) (w : Window) : (s.setWindow n w).time = s.time := id rfl
@[simp] theorem State.setWindow_hw (s : State) (n : Nat) (w : Window) : (s.setWindow n w).hw = s.hw := id rfl
@[simp] theorem State.setWindow_out (s : State) (n : Nat) (w : Window) : (s.setWindow n w).out = s.out := id rfl
@[simp] theorem State.setWindow_rings (s : State) (n : Nat) (w : Window) : (s.setWindow n w).rings = s.rings := id rfl
@[simp] theorem State.setWindow_precHeld (s : State) (n : Nat) (w : Window) : (s.setWindow n w).precHeld = s.precHeld := id rfl
@[simp] theorem State.setWindow_precSize (s : State) (n : Nat) (w : Window) : (s.setWindow n w).precSize = s.precSize := id rfl
@[simp] theorem State.setWindow_queueSizes (s : State) (n : Nat) (w : Window) : (s.setWindow n w).queueSizes = s.queueSizes := id rfl
@[simp] theorem State.setWindow_scene (s : State) (n : Nat) (w : Window) : (s.setWindow n w).scene = s.scene := id rfl
@[simp] theorem State.setWindow_mem (s : State) (n : Nat) (w : Window) : (s.setWindow n w).mem = s.mem := id rfl
@[simp] theorem State.setWindow_lost (s : State) (n : Nat) (w : Window) : (s.setWindow n w).lost = s.lost := id rfl
@[simp] theorem State.setWindow_loft (s : State) (n : Nat) (w : Window) : (s.setWindow n w).loft = s.loft := id rfl
@[simp] theorem State.setWindow_pipes (s : State) (n : Nat) (w : Window) : (s.setWindow n w).pipes = s.pipes := id rfl
@[simp] theorem State.setWindow_bins (s : State) (n : Nat) (w : Window) : (s.setWindow n w).bins = s.bins := id rfl
@[simp] theorem State.setWindow_camLines (s : State) (n : Nat) (w : Window) : (s.setWindow n w).camLines = s.camLines := id rfl
@[simp] theorem State.setWindow_camLags (s : State) (n : Nat) (w : Window) : (s.setWindow n w).camLags = s.camLags := id rfl
@[simp] theorem State.setWindow_camEarly (s : State) (n : Nat) (w : Window) : (s.setWindow n w).camEarly = s.camEarly := id rfl
@[simp] theorem State.setWindow_furrowStore (s : State) (n : Nat) (w : Window) : (s.setWindow n w).furrowStore = s.furrowStore := id rfl
@[simp] theorem State.setWindow_gates (s : State) (n : Nat) (w : Window) : (s.setWindow n w).gates = s.gates := id rfl
@[simp] theorem State.setWindow_gcl (s : State) (n : Nat) (w : Window) : (s.setWindow n w).gcl = s.gcl := id rfl
@[simp] theorem State.setWindow_levels (s : State) (n : Nat) (w : Window) : (s.setWindow n w).levels = s.levels := id rfl
@[simp] theorem State.setWindow_fetches (s : State) (n : Nat) (w : Window) : (s.setWindow n w).fetches = s.fetches := id rfl
@[simp] theorem State.setWindow_src (s : State) (n : Nat) (w : Window) : (s.setWindow n w).src = s.src := id rfl
@[simp] theorem State.setWindow_sampleDue (s : State) (n : Nat) (w : Window) : (s.setWindow n w).sampleDue = s.sampleDue := id rfl
@[simp] theorem State.setWindow_dma (s : State) (n : Nat) (w : Window) : (s.setWindow n w).dma = s.dma := id rfl
@[simp] theorem State.setWindow_dmaHalted (s : State) (n : Nat) (w : Window) : (s.setWindow n w).dmaHalted = s.dmaHalted := id rfl
@[simp] theorem State.setWindow_scans (s : State) (n : Nat) (w : Window) : (s.setWindow n w).scans = s.scans := id rfl
@[simp] theorem State.setWindow_cams (s : State) (n : Nat) (w : Window) : (s.setWindow n w).cams = s.cams := id rfl
@[simp] theorem State.setWindow_groups (s : State) (n : Nat) (w : Window) : (s.setWindow n w).groups = s.groups := id rfl
@[simp] theorem State.setWindow_light (s : State) (n : Nat) (w : Window) : (s.setWindow n w).light = s.light := id rfl
@[simp] theorem State.setWindow_fault (s : State) (n : Nat) (w : Window) : (s.setWindow n w).fault = s.fault := id rfl
@[simp] theorem State.setWindow_barn (s : State) (n : Nat) (w : Window) : (s.setWindow n w).barn = s.barn := id rfl
@[simp] theorem State.setWindow_perf (s : State) (n : Nat) (w : Window) : (s.setWindow n w).perf = s.perf := id rfl

/-! `State.setChan` changes `dma` alone. -/

@[simp] theorem State.setChan_pending (s : State) (c : Nat) (d : DmaChan) : (s.setChan c d).pending = s.pending := id rfl
@[simp] theorem State.setChan_free (s : State) (c : Nat) (d : DmaChan) : (s.setChan c d).free = s.free := id rfl
@[simp] theorem State.setChan_regs (s : State) (c : Nat) (d : DmaChan) : (s.setChan c d).regs = s.regs := id rfl
@[simp] theorem State.setChan_pow (s : State) (c : Nat) (d : DmaChan) : (s.setChan c d).pow = s.pow := id rfl
@[simp] theorem State.setChan_time (s : State) (c : Nat) (d : DmaChan) : (s.setChan c d).time = s.time := id rfl
@[simp] theorem State.setChan_hw (s : State) (c : Nat) (d : DmaChan) : (s.setChan c d).hw = s.hw := id rfl
@[simp] theorem State.setChan_out (s : State) (c : Nat) (d : DmaChan) : (s.setChan c d).out = s.out := id rfl
@[simp] theorem State.setChan_rings (s : State) (c : Nat) (d : DmaChan) : (s.setChan c d).rings = s.rings := id rfl
@[simp] theorem State.setChan_precHeld (s : State) (c : Nat) (d : DmaChan) : (s.setChan c d).precHeld = s.precHeld := id rfl
@[simp] theorem State.setChan_precSize (s : State) (c : Nat) (d : DmaChan) : (s.setChan c d).precSize = s.precSize := id rfl
@[simp] theorem State.setChan_queueSizes (s : State) (c : Nat) (d : DmaChan) : (s.setChan c d).queueSizes = s.queueSizes := id rfl
@[simp] theorem State.setChan_scene (s : State) (c : Nat) (d : DmaChan) : (s.setChan c d).scene = s.scene := id rfl
@[simp] theorem State.setChan_mem (s : State) (c : Nat) (d : DmaChan) : (s.setChan c d).mem = s.mem := id rfl
@[simp] theorem State.setChan_lost (s : State) (c : Nat) (d : DmaChan) : (s.setChan c d).lost = s.lost := id rfl
@[simp] theorem State.setChan_loft (s : State) (c : Nat) (d : DmaChan) : (s.setChan c d).loft = s.loft := id rfl
@[simp] theorem State.setChan_pipes (s : State) (c : Nat) (d : DmaChan) : (s.setChan c d).pipes = s.pipes := id rfl
@[simp] theorem State.setChan_bins (s : State) (c : Nat) (d : DmaChan) : (s.setChan c d).bins = s.bins := id rfl
@[simp] theorem State.setChan_camLines (s : State) (c : Nat) (d : DmaChan) : (s.setChan c d).camLines = s.camLines := id rfl
@[simp] theorem State.setChan_camLags (s : State) (c : Nat) (d : DmaChan) : (s.setChan c d).camLags = s.camLags := id rfl
@[simp] theorem State.setChan_camEarly (s : State) (c : Nat) (d : DmaChan) : (s.setChan c d).camEarly = s.camEarly := id rfl
@[simp] theorem State.setChan_furrowStore (s : State) (c : Nat) (d : DmaChan) : (s.setChan c d).furrowStore = s.furrowStore := id rfl
@[simp] theorem State.setChan_gates (s : State) (c : Nat) (d : DmaChan) : (s.setChan c d).gates = s.gates := id rfl
@[simp] theorem State.setChan_gcl (s : State) (c : Nat) (d : DmaChan) : (s.setChan c d).gcl = s.gcl := id rfl
@[simp] theorem State.setChan_levels (s : State) (c : Nat) (d : DmaChan) : (s.setChan c d).levels = s.levels := id rfl
@[simp] theorem State.setChan_fetches (s : State) (c : Nat) (d : DmaChan) : (s.setChan c d).fetches = s.fetches := id rfl
@[simp] theorem State.setChan_src (s : State) (c : Nat) (d : DmaChan) : (s.setChan c d).src = s.src := id rfl
@[simp] theorem State.setChan_sampleDue (s : State) (c : Nat) (d : DmaChan) : (s.setChan c d).sampleDue = s.sampleDue := id rfl
@[simp] theorem State.setChan_wins (s : State) (c : Nat) (d : DmaChan) : (s.setChan c d).wins = s.wins := id rfl
@[simp] theorem State.setChan_dmaHalted (s : State) (c : Nat) (d : DmaChan) : (s.setChan c d).dmaHalted = s.dmaHalted := id rfl
@[simp] theorem State.setChan_scans (s : State) (c : Nat) (d : DmaChan) : (s.setChan c d).scans = s.scans := id rfl
@[simp] theorem State.setChan_cams (s : State) (c : Nat) (d : DmaChan) : (s.setChan c d).cams = s.cams := id rfl
@[simp] theorem State.setChan_groups (s : State) (c : Nat) (d : DmaChan) : (s.setChan c d).groups = s.groups := id rfl
@[simp] theorem State.setChan_light (s : State) (c : Nat) (d : DmaChan) : (s.setChan c d).light = s.light := id rfl
@[simp] theorem State.setChan_fault (s : State) (c : Nat) (d : DmaChan) : (s.setChan c d).fault = s.fault := id rfl
@[simp] theorem State.setChan_barn (s : State) (c : Nat) (d : DmaChan) : (s.setChan c d).barn = s.barn := id rfl
@[simp] theorem State.setChan_perf (s : State) (c : Nat) (d : DmaChan) : (s.setChan c d).perf = s.perf := id rfl

/-! `State.setCam` changes `cams` alone. -/

@[simp] theorem State.setCam_pending (s : State) (c : Nat) (v : Cam) : (s.setCam c v).pending = s.pending := id rfl
@[simp] theorem State.setCam_free (s : State) (c : Nat) (v : Cam) : (s.setCam c v).free = s.free := id rfl
@[simp] theorem State.setCam_regs (s : State) (c : Nat) (v : Cam) : (s.setCam c v).regs = s.regs := id rfl
@[simp] theorem State.setCam_pow (s : State) (c : Nat) (v : Cam) : (s.setCam c v).pow = s.pow := id rfl
@[simp] theorem State.setCam_time (s : State) (c : Nat) (v : Cam) : (s.setCam c v).time = s.time := id rfl
@[simp] theorem State.setCam_hw (s : State) (c : Nat) (v : Cam) : (s.setCam c v).hw = s.hw := id rfl
@[simp] theorem State.setCam_out (s : State) (c : Nat) (v : Cam) : (s.setCam c v).out = s.out := id rfl
@[simp] theorem State.setCam_rings (s : State) (c : Nat) (v : Cam) : (s.setCam c v).rings = s.rings := id rfl
@[simp] theorem State.setCam_precHeld (s : State) (c : Nat) (v : Cam) : (s.setCam c v).precHeld = s.precHeld := id rfl
@[simp] theorem State.setCam_precSize (s : State) (c : Nat) (v : Cam) : (s.setCam c v).precSize = s.precSize := id rfl
@[simp] theorem State.setCam_queueSizes (s : State) (c : Nat) (v : Cam) : (s.setCam c v).queueSizes = s.queueSizes := id rfl
@[simp] theorem State.setCam_scene (s : State) (c : Nat) (v : Cam) : (s.setCam c v).scene = s.scene := id rfl
@[simp] theorem State.setCam_mem (s : State) (c : Nat) (v : Cam) : (s.setCam c v).mem = s.mem := id rfl
@[simp] theorem State.setCam_lost (s : State) (c : Nat) (v : Cam) : (s.setCam c v).lost = s.lost := id rfl
@[simp] theorem State.setCam_loft (s : State) (c : Nat) (v : Cam) : (s.setCam c v).loft = s.loft := id rfl
@[simp] theorem State.setCam_pipes (s : State) (c : Nat) (v : Cam) : (s.setCam c v).pipes = s.pipes := id rfl
@[simp] theorem State.setCam_bins (s : State) (c : Nat) (v : Cam) : (s.setCam c v).bins = s.bins := id rfl
@[simp] theorem State.setCam_camLines (s : State) (c : Nat) (v : Cam) : (s.setCam c v).camLines = s.camLines := id rfl
@[simp] theorem State.setCam_camLags (s : State) (c : Nat) (v : Cam) : (s.setCam c v).camLags = s.camLags := id rfl
@[simp] theorem State.setCam_camEarly (s : State) (c : Nat) (v : Cam) : (s.setCam c v).camEarly = s.camEarly := id rfl
@[simp] theorem State.setCam_furrowStore (s : State) (c : Nat) (v : Cam) : (s.setCam c v).furrowStore = s.furrowStore := id rfl
@[simp] theorem State.setCam_gates (s : State) (c : Nat) (v : Cam) : (s.setCam c v).gates = s.gates := id rfl
@[simp] theorem State.setCam_gcl (s : State) (c : Nat) (v : Cam) : (s.setCam c v).gcl = s.gcl := id rfl
@[simp] theorem State.setCam_levels (s : State) (c : Nat) (v : Cam) : (s.setCam c v).levels = s.levels := id rfl
@[simp] theorem State.setCam_fetches (s : State) (c : Nat) (v : Cam) : (s.setCam c v).fetches = s.fetches := id rfl
@[simp] theorem State.setCam_src (s : State) (c : Nat) (v : Cam) : (s.setCam c v).src = s.src := id rfl
@[simp] theorem State.setCam_sampleDue (s : State) (c : Nat) (v : Cam) : (s.setCam c v).sampleDue = s.sampleDue := id rfl
@[simp] theorem State.setCam_wins (s : State) (c : Nat) (v : Cam) : (s.setCam c v).wins = s.wins := id rfl
@[simp] theorem State.setCam_dma (s : State) (c : Nat) (v : Cam) : (s.setCam c v).dma = s.dma := id rfl
@[simp] theorem State.setCam_dmaHalted (s : State) (c : Nat) (v : Cam) : (s.setCam c v).dmaHalted = s.dmaHalted := id rfl
@[simp] theorem State.setCam_scans (s : State) (c : Nat) (v : Cam) : (s.setCam c v).scans = s.scans := id rfl
@[simp] theorem State.setCam_groups (s : State) (c : Nat) (v : Cam) : (s.setCam c v).groups = s.groups := id rfl
@[simp] theorem State.setCam_light (s : State) (c : Nat) (v : Cam) : (s.setCam c v).light = s.light := id rfl
@[simp] theorem State.setCam_fault (s : State) (c : Nat) (v : Cam) : (s.setCam c v).fault = s.fault := id rfl
@[simp] theorem State.setCam_barn (s : State) (c : Nat) (v : Cam) : (s.setCam c v).barn = s.barn := id rfl
@[simp] theorem State.setCam_perf (s : State) (c : Nat) (v : Cam) : (s.setCam c v).perf = s.perf := id rfl

/-! `State.setGroup` changes `groups` alone. -/

@[simp] theorem State.setGroup_pending (s : State) (g : Nat) (v : Group) : (s.setGroup g v).pending = s.pending := id rfl
@[simp] theorem State.setGroup_free (s : State) (g : Nat) (v : Group) : (s.setGroup g v).free = s.free := id rfl
@[simp] theorem State.setGroup_regs (s : State) (g : Nat) (v : Group) : (s.setGroup g v).regs = s.regs := id rfl
@[simp] theorem State.setGroup_pow (s : State) (g : Nat) (v : Group) : (s.setGroup g v).pow = s.pow := id rfl
@[simp] theorem State.setGroup_time (s : State) (g : Nat) (v : Group) : (s.setGroup g v).time = s.time := id rfl
@[simp] theorem State.setGroup_hw (s : State) (g : Nat) (v : Group) : (s.setGroup g v).hw = s.hw := id rfl
@[simp] theorem State.setGroup_out (s : State) (g : Nat) (v : Group) : (s.setGroup g v).out = s.out := id rfl
@[simp] theorem State.setGroup_rings (s : State) (g : Nat) (v : Group) : (s.setGroup g v).rings = s.rings := id rfl
@[simp] theorem State.setGroup_precHeld (s : State) (g : Nat) (v : Group) : (s.setGroup g v).precHeld = s.precHeld := id rfl
@[simp] theorem State.setGroup_precSize (s : State) (g : Nat) (v : Group) : (s.setGroup g v).precSize = s.precSize := id rfl
@[simp] theorem State.setGroup_queueSizes (s : State) (g : Nat) (v : Group) : (s.setGroup g v).queueSizes = s.queueSizes := id rfl
@[simp] theorem State.setGroup_scene (s : State) (g : Nat) (v : Group) : (s.setGroup g v).scene = s.scene := id rfl
@[simp] theorem State.setGroup_mem (s : State) (g : Nat) (v : Group) : (s.setGroup g v).mem = s.mem := id rfl
@[simp] theorem State.setGroup_lost (s : State) (g : Nat) (v : Group) : (s.setGroup g v).lost = s.lost := id rfl
@[simp] theorem State.setGroup_loft (s : State) (g : Nat) (v : Group) : (s.setGroup g v).loft = s.loft := id rfl
@[simp] theorem State.setGroup_pipes (s : State) (g : Nat) (v : Group) : (s.setGroup g v).pipes = s.pipes := id rfl
@[simp] theorem State.setGroup_bins (s : State) (g : Nat) (v : Group) : (s.setGroup g v).bins = s.bins := id rfl
@[simp] theorem State.setGroup_camLines (s : State) (g : Nat) (v : Group) : (s.setGroup g v).camLines = s.camLines := id rfl
@[simp] theorem State.setGroup_camLags (s : State) (g : Nat) (v : Group) : (s.setGroup g v).camLags = s.camLags := id rfl
@[simp] theorem State.setGroup_camEarly (s : State) (g : Nat) (v : Group) : (s.setGroup g v).camEarly = s.camEarly := id rfl
@[simp] theorem State.setGroup_furrowStore (s : State) (g : Nat) (v : Group) : (s.setGroup g v).furrowStore = s.furrowStore := id rfl
@[simp] theorem State.setGroup_gates (s : State) (g : Nat) (v : Group) : (s.setGroup g v).gates = s.gates := id rfl
@[simp] theorem State.setGroup_gcl (s : State) (g : Nat) (v : Group) : (s.setGroup g v).gcl = s.gcl := id rfl
@[simp] theorem State.setGroup_levels (s : State) (g : Nat) (v : Group) : (s.setGroup g v).levels = s.levels := id rfl
@[simp] theorem State.setGroup_fetches (s : State) (g : Nat) (v : Group) : (s.setGroup g v).fetches = s.fetches := id rfl
@[simp] theorem State.setGroup_src (s : State) (g : Nat) (v : Group) : (s.setGroup g v).src = s.src := id rfl
@[simp] theorem State.setGroup_sampleDue (s : State) (g : Nat) (v : Group) : (s.setGroup g v).sampleDue = s.sampleDue := id rfl
@[simp] theorem State.setGroup_wins (s : State) (g : Nat) (v : Group) : (s.setGroup g v).wins = s.wins := id rfl
@[simp] theorem State.setGroup_dma (s : State) (g : Nat) (v : Group) : (s.setGroup g v).dma = s.dma := id rfl
@[simp] theorem State.setGroup_dmaHalted (s : State) (g : Nat) (v : Group) : (s.setGroup g v).dmaHalted = s.dmaHalted := id rfl
@[simp] theorem State.setGroup_scans (s : State) (g : Nat) (v : Group) : (s.setGroup g v).scans = s.scans := id rfl
@[simp] theorem State.setGroup_cams (s : State) (g : Nat) (v : Group) : (s.setGroup g v).cams = s.cams := id rfl
@[simp] theorem State.setGroup_light (s : State) (g : Nat) (v : Group) : (s.setGroup g v).light = s.light := id rfl
@[simp] theorem State.setGroup_fault (s : State) (g : Nat) (v : Group) : (s.setGroup g v).fault = s.fault := id rfl
@[simp] theorem State.setGroup_barn (s : State) (g : Nat) (v : Group) : (s.setGroup g v).barn = s.barn := id rfl
@[simp] theorem State.setGroup_perf (s : State) (g : Nat) (v : Group) : (s.setGroup g v).perf = s.perf := id rfl

/-! `State.setUnit` changes `fault` alone. -/

@[simp] theorem State.setUnit_pending (s : State) (u : Nat) (v : FUnit) : (s.setUnit u v).pending = s.pending := id rfl
@[simp] theorem State.setUnit_free (s : State) (u : Nat) (v : FUnit) : (s.setUnit u v).free = s.free := id rfl
@[simp] theorem State.setUnit_regs (s : State) (u : Nat) (v : FUnit) : (s.setUnit u v).regs = s.regs := id rfl
@[simp] theorem State.setUnit_pow (s : State) (u : Nat) (v : FUnit) : (s.setUnit u v).pow = s.pow := id rfl
@[simp] theorem State.setUnit_time (s : State) (u : Nat) (v : FUnit) : (s.setUnit u v).time = s.time := id rfl
@[simp] theorem State.setUnit_hw (s : State) (u : Nat) (v : FUnit) : (s.setUnit u v).hw = s.hw := id rfl
@[simp] theorem State.setUnit_out (s : State) (u : Nat) (v : FUnit) : (s.setUnit u v).out = s.out := id rfl
@[simp] theorem State.setUnit_rings (s : State) (u : Nat) (v : FUnit) : (s.setUnit u v).rings = s.rings := id rfl
@[simp] theorem State.setUnit_precHeld (s : State) (u : Nat) (v : FUnit) : (s.setUnit u v).precHeld = s.precHeld := id rfl
@[simp] theorem State.setUnit_precSize (s : State) (u : Nat) (v : FUnit) : (s.setUnit u v).precSize = s.precSize := id rfl
@[simp] theorem State.setUnit_queueSizes (s : State) (u : Nat) (v : FUnit) : (s.setUnit u v).queueSizes = s.queueSizes := id rfl
@[simp] theorem State.setUnit_scene (s : State) (u : Nat) (v : FUnit) : (s.setUnit u v).scene = s.scene := id rfl
@[simp] theorem State.setUnit_mem (s : State) (u : Nat) (v : FUnit) : (s.setUnit u v).mem = s.mem := id rfl
@[simp] theorem State.setUnit_lost (s : State) (u : Nat) (v : FUnit) : (s.setUnit u v).lost = s.lost := id rfl
@[simp] theorem State.setUnit_loft (s : State) (u : Nat) (v : FUnit) : (s.setUnit u v).loft = s.loft := id rfl
@[simp] theorem State.setUnit_pipes (s : State) (u : Nat) (v : FUnit) : (s.setUnit u v).pipes = s.pipes := id rfl
@[simp] theorem State.setUnit_bins (s : State) (u : Nat) (v : FUnit) : (s.setUnit u v).bins = s.bins := id rfl
@[simp] theorem State.setUnit_camLines (s : State) (u : Nat) (v : FUnit) : (s.setUnit u v).camLines = s.camLines := id rfl
@[simp] theorem State.setUnit_camLags (s : State) (u : Nat) (v : FUnit) : (s.setUnit u v).camLags = s.camLags := id rfl
@[simp] theorem State.setUnit_camEarly (s : State) (u : Nat) (v : FUnit) : (s.setUnit u v).camEarly = s.camEarly := id rfl
@[simp] theorem State.setUnit_furrowStore (s : State) (u : Nat) (v : FUnit) : (s.setUnit u v).furrowStore = s.furrowStore := id rfl
@[simp] theorem State.setUnit_gates (s : State) (u : Nat) (v : FUnit) : (s.setUnit u v).gates = s.gates := id rfl
@[simp] theorem State.setUnit_gcl (s : State) (u : Nat) (v : FUnit) : (s.setUnit u v).gcl = s.gcl := id rfl
@[simp] theorem State.setUnit_levels (s : State) (u : Nat) (v : FUnit) : (s.setUnit u v).levels = s.levels := id rfl
@[simp] theorem State.setUnit_fetches (s : State) (u : Nat) (v : FUnit) : (s.setUnit u v).fetches = s.fetches := id rfl
@[simp] theorem State.setUnit_src (s : State) (u : Nat) (v : FUnit) : (s.setUnit u v).src = s.src := id rfl
@[simp] theorem State.setUnit_sampleDue (s : State) (u : Nat) (v : FUnit) : (s.setUnit u v).sampleDue = s.sampleDue := id rfl
@[simp] theorem State.setUnit_wins (s : State) (u : Nat) (v : FUnit) : (s.setUnit u v).wins = s.wins := id rfl
@[simp] theorem State.setUnit_dma (s : State) (u : Nat) (v : FUnit) : (s.setUnit u v).dma = s.dma := id rfl
@[simp] theorem State.setUnit_dmaHalted (s : State) (u : Nat) (v : FUnit) : (s.setUnit u v).dmaHalted = s.dmaHalted := id rfl
@[simp] theorem State.setUnit_scans (s : State) (u : Nat) (v : FUnit) : (s.setUnit u v).scans = s.scans := id rfl
@[simp] theorem State.setUnit_cams (s : State) (u : Nat) (v : FUnit) : (s.setUnit u v).cams = s.cams := id rfl
@[simp] theorem State.setUnit_groups (s : State) (u : Nat) (v : FUnit) : (s.setUnit u v).groups = s.groups := id rfl
@[simp] theorem State.setUnit_light (s : State) (u : Nat) (v : FUnit) : (s.setUnit u v).light = s.light := id rfl
@[simp] theorem State.setUnit_barn (s : State) (u : Nat) (v : FUnit) : (s.setUnit u v).barn = s.barn := id rfl
@[simp] theorem State.setUnit_perf (s : State) (u : Nat) (v : FUnit) : (s.setUnit u v).perf = s.perf := id rfl

/-! `State.setZone` changes `light` alone. -/

@[simp] theorem State.setZone_pending (s : State) (z : Nat) (v : Zone) : (s.setZone z v).pending = s.pending := id rfl
@[simp] theorem State.setZone_free (s : State) (z : Nat) (v : Zone) : (s.setZone z v).free = s.free := id rfl
@[simp] theorem State.setZone_regs (s : State) (z : Nat) (v : Zone) : (s.setZone z v).regs = s.regs := id rfl
@[simp] theorem State.setZone_pow (s : State) (z : Nat) (v : Zone) : (s.setZone z v).pow = s.pow := id rfl
@[simp] theorem State.setZone_time (s : State) (z : Nat) (v : Zone) : (s.setZone z v).time = s.time := id rfl
@[simp] theorem State.setZone_hw (s : State) (z : Nat) (v : Zone) : (s.setZone z v).hw = s.hw := id rfl
@[simp] theorem State.setZone_out (s : State) (z : Nat) (v : Zone) : (s.setZone z v).out = s.out := id rfl
@[simp] theorem State.setZone_rings (s : State) (z : Nat) (v : Zone) : (s.setZone z v).rings = s.rings := id rfl
@[simp] theorem State.setZone_precHeld (s : State) (z : Nat) (v : Zone) : (s.setZone z v).precHeld = s.precHeld := id rfl
@[simp] theorem State.setZone_precSize (s : State) (z : Nat) (v : Zone) : (s.setZone z v).precSize = s.precSize := id rfl
@[simp] theorem State.setZone_queueSizes (s : State) (z : Nat) (v : Zone) : (s.setZone z v).queueSizes = s.queueSizes := id rfl
@[simp] theorem State.setZone_scene (s : State) (z : Nat) (v : Zone) : (s.setZone z v).scene = s.scene := id rfl
@[simp] theorem State.setZone_mem (s : State) (z : Nat) (v : Zone) : (s.setZone z v).mem = s.mem := id rfl
@[simp] theorem State.setZone_lost (s : State) (z : Nat) (v : Zone) : (s.setZone z v).lost = s.lost := id rfl
@[simp] theorem State.setZone_loft (s : State) (z : Nat) (v : Zone) : (s.setZone z v).loft = s.loft := id rfl
@[simp] theorem State.setZone_pipes (s : State) (z : Nat) (v : Zone) : (s.setZone z v).pipes = s.pipes := id rfl
@[simp] theorem State.setZone_bins (s : State) (z : Nat) (v : Zone) : (s.setZone z v).bins = s.bins := id rfl
@[simp] theorem State.setZone_camLines (s : State) (z : Nat) (v : Zone) : (s.setZone z v).camLines = s.camLines := id rfl
@[simp] theorem State.setZone_camLags (s : State) (z : Nat) (v : Zone) : (s.setZone z v).camLags = s.camLags := id rfl
@[simp] theorem State.setZone_camEarly (s : State) (z : Nat) (v : Zone) : (s.setZone z v).camEarly = s.camEarly := id rfl
@[simp] theorem State.setZone_furrowStore (s : State) (z : Nat) (v : Zone) : (s.setZone z v).furrowStore = s.furrowStore := id rfl
@[simp] theorem State.setZone_gates (s : State) (z : Nat) (v : Zone) : (s.setZone z v).gates = s.gates := id rfl
@[simp] theorem State.setZone_gcl (s : State) (z : Nat) (v : Zone) : (s.setZone z v).gcl = s.gcl := id rfl
@[simp] theorem State.setZone_levels (s : State) (z : Nat) (v : Zone) : (s.setZone z v).levels = s.levels := id rfl
@[simp] theorem State.setZone_fetches (s : State) (z : Nat) (v : Zone) : (s.setZone z v).fetches = s.fetches := id rfl
@[simp] theorem State.setZone_src (s : State) (z : Nat) (v : Zone) : (s.setZone z v).src = s.src := id rfl
@[simp] theorem State.setZone_sampleDue (s : State) (z : Nat) (v : Zone) : (s.setZone z v).sampleDue = s.sampleDue := id rfl
@[simp] theorem State.setZone_wins (s : State) (z : Nat) (v : Zone) : (s.setZone z v).wins = s.wins := id rfl
@[simp] theorem State.setZone_dma (s : State) (z : Nat) (v : Zone) : (s.setZone z v).dma = s.dma := id rfl
@[simp] theorem State.setZone_dmaHalted (s : State) (z : Nat) (v : Zone) : (s.setZone z v).dmaHalted = s.dmaHalted := id rfl
@[simp] theorem State.setZone_scans (s : State) (z : Nat) (v : Zone) : (s.setZone z v).scans = s.scans := id rfl
@[simp] theorem State.setZone_cams (s : State) (z : Nat) (v : Zone) : (s.setZone z v).cams = s.cams := id rfl
@[simp] theorem State.setZone_groups (s : State) (z : Nat) (v : Zone) : (s.setZone z v).groups = s.groups := id rfl
@[simp] theorem State.setZone_fault (s : State) (z : Nat) (v : Zone) : (s.setZone z v).fault = s.fault := id rfl
@[simp] theorem State.setZone_barn (s : State) (z : Nat) (v : Zone) : (s.setZone z v).barn = s.barn := id rfl
@[simp] theorem State.setZone_perf (s : State) (z : Nat) (v : Zone) : (s.setZone z v).perf = s.perf := id rfl

/-! `State.setTt` changes `light` alone. -/

@[simp] theorem State.setTt_pending (s : State) (c : Nat) (v : Tt) : (s.setTt c v).pending = s.pending := id rfl
@[simp] theorem State.setTt_free (s : State) (c : Nat) (v : Tt) : (s.setTt c v).free = s.free := id rfl
@[simp] theorem State.setTt_regs (s : State) (c : Nat) (v : Tt) : (s.setTt c v).regs = s.regs := id rfl
@[simp] theorem State.setTt_pow (s : State) (c : Nat) (v : Tt) : (s.setTt c v).pow = s.pow := id rfl
@[simp] theorem State.setTt_time (s : State) (c : Nat) (v : Tt) : (s.setTt c v).time = s.time := id rfl
@[simp] theorem State.setTt_hw (s : State) (c : Nat) (v : Tt) : (s.setTt c v).hw = s.hw := id rfl
@[simp] theorem State.setTt_out (s : State) (c : Nat) (v : Tt) : (s.setTt c v).out = s.out := id rfl
@[simp] theorem State.setTt_rings (s : State) (c : Nat) (v : Tt) : (s.setTt c v).rings = s.rings := id rfl
@[simp] theorem State.setTt_precHeld (s : State) (c : Nat) (v : Tt) : (s.setTt c v).precHeld = s.precHeld := id rfl
@[simp] theorem State.setTt_precSize (s : State) (c : Nat) (v : Tt) : (s.setTt c v).precSize = s.precSize := id rfl
@[simp] theorem State.setTt_queueSizes (s : State) (c : Nat) (v : Tt) : (s.setTt c v).queueSizes = s.queueSizes := id rfl
@[simp] theorem State.setTt_scene (s : State) (c : Nat) (v : Tt) : (s.setTt c v).scene = s.scene := id rfl
@[simp] theorem State.setTt_mem (s : State) (c : Nat) (v : Tt) : (s.setTt c v).mem = s.mem := id rfl
@[simp] theorem State.setTt_lost (s : State) (c : Nat) (v : Tt) : (s.setTt c v).lost = s.lost := id rfl
@[simp] theorem State.setTt_loft (s : State) (c : Nat) (v : Tt) : (s.setTt c v).loft = s.loft := id rfl
@[simp] theorem State.setTt_pipes (s : State) (c : Nat) (v : Tt) : (s.setTt c v).pipes = s.pipes := id rfl
@[simp] theorem State.setTt_bins (s : State) (c : Nat) (v : Tt) : (s.setTt c v).bins = s.bins := id rfl
@[simp] theorem State.setTt_camLines (s : State) (c : Nat) (v : Tt) : (s.setTt c v).camLines = s.camLines := id rfl
@[simp] theorem State.setTt_camLags (s : State) (c : Nat) (v : Tt) : (s.setTt c v).camLags = s.camLags := id rfl
@[simp] theorem State.setTt_camEarly (s : State) (c : Nat) (v : Tt) : (s.setTt c v).camEarly = s.camEarly := id rfl
@[simp] theorem State.setTt_furrowStore (s : State) (c : Nat) (v : Tt) : (s.setTt c v).furrowStore = s.furrowStore := id rfl
@[simp] theorem State.setTt_gates (s : State) (c : Nat) (v : Tt) : (s.setTt c v).gates = s.gates := id rfl
@[simp] theorem State.setTt_gcl (s : State) (c : Nat) (v : Tt) : (s.setTt c v).gcl = s.gcl := id rfl
@[simp] theorem State.setTt_levels (s : State) (c : Nat) (v : Tt) : (s.setTt c v).levels = s.levels := id rfl
@[simp] theorem State.setTt_fetches (s : State) (c : Nat) (v : Tt) : (s.setTt c v).fetches = s.fetches := id rfl
@[simp] theorem State.setTt_src (s : State) (c : Nat) (v : Tt) : (s.setTt c v).src = s.src := id rfl
@[simp] theorem State.setTt_sampleDue (s : State) (c : Nat) (v : Tt) : (s.setTt c v).sampleDue = s.sampleDue := id rfl
@[simp] theorem State.setTt_wins (s : State) (c : Nat) (v : Tt) : (s.setTt c v).wins = s.wins := id rfl
@[simp] theorem State.setTt_dma (s : State) (c : Nat) (v : Tt) : (s.setTt c v).dma = s.dma := id rfl
@[simp] theorem State.setTt_dmaHalted (s : State) (c : Nat) (v : Tt) : (s.setTt c v).dmaHalted = s.dmaHalted := id rfl
@[simp] theorem State.setTt_scans (s : State) (c : Nat) (v : Tt) : (s.setTt c v).scans = s.scans := id rfl
@[simp] theorem State.setTt_cams (s : State) (c : Nat) (v : Tt) : (s.setTt c v).cams = s.cams := id rfl
@[simp] theorem State.setTt_groups (s : State) (c : Nat) (v : Tt) : (s.setTt c v).groups = s.groups := id rfl
@[simp] theorem State.setTt_fault (s : State) (c : Nat) (v : Tt) : (s.setTt c v).fault = s.fault := id rfl
@[simp] theorem State.setTt_barn (s : State) (c : Nat) (v : Tt) : (s.setTt c v).barn = s.barn := id rfl
@[simp] theorem State.setTt_perf (s : State) (c : Nat) (v : Tt) : (s.setTt c v).perf = s.perf := id rfl

/-! `State.setMapEntry` changes `light` alone. -/

@[simp] theorem State.setMapEntry_pending (s : State) (i : Nat) (v : MapEntry) : (s.setMapEntry i v).pending = s.pending := id rfl
@[simp] theorem State.setMapEntry_free (s : State) (i : Nat) (v : MapEntry) : (s.setMapEntry i v).free = s.free := id rfl
@[simp] theorem State.setMapEntry_regs (s : State) (i : Nat) (v : MapEntry) : (s.setMapEntry i v).regs = s.regs := id rfl
@[simp] theorem State.setMapEntry_pow (s : State) (i : Nat) (v : MapEntry) : (s.setMapEntry i v).pow = s.pow := id rfl
@[simp] theorem State.setMapEntry_time (s : State) (i : Nat) (v : MapEntry) : (s.setMapEntry i v).time = s.time := id rfl
@[simp] theorem State.setMapEntry_hw (s : State) (i : Nat) (v : MapEntry) : (s.setMapEntry i v).hw = s.hw := id rfl
@[simp] theorem State.setMapEntry_out (s : State) (i : Nat) (v : MapEntry) : (s.setMapEntry i v).out = s.out := id rfl
@[simp] theorem State.setMapEntry_rings (s : State) (i : Nat) (v : MapEntry) : (s.setMapEntry i v).rings = s.rings := id rfl
@[simp] theorem State.setMapEntry_precHeld (s : State) (i : Nat) (v : MapEntry) : (s.setMapEntry i v).precHeld = s.precHeld := id rfl
@[simp] theorem State.setMapEntry_precSize (s : State) (i : Nat) (v : MapEntry) : (s.setMapEntry i v).precSize = s.precSize := id rfl
@[simp] theorem State.setMapEntry_queueSizes (s : State) (i : Nat) (v : MapEntry) : (s.setMapEntry i v).queueSizes = s.queueSizes := id rfl
@[simp] theorem State.setMapEntry_scene (s : State) (i : Nat) (v : MapEntry) : (s.setMapEntry i v).scene = s.scene := id rfl
@[simp] theorem State.setMapEntry_mem (s : State) (i : Nat) (v : MapEntry) : (s.setMapEntry i v).mem = s.mem := id rfl
@[simp] theorem State.setMapEntry_lost (s : State) (i : Nat) (v : MapEntry) : (s.setMapEntry i v).lost = s.lost := id rfl
@[simp] theorem State.setMapEntry_loft (s : State) (i : Nat) (v : MapEntry) : (s.setMapEntry i v).loft = s.loft := id rfl
@[simp] theorem State.setMapEntry_pipes (s : State) (i : Nat) (v : MapEntry) : (s.setMapEntry i v).pipes = s.pipes := id rfl
@[simp] theorem State.setMapEntry_bins (s : State) (i : Nat) (v : MapEntry) : (s.setMapEntry i v).bins = s.bins := id rfl
@[simp] theorem State.setMapEntry_camLines (s : State) (i : Nat) (v : MapEntry) : (s.setMapEntry i v).camLines = s.camLines := id rfl
@[simp] theorem State.setMapEntry_camLags (s : State) (i : Nat) (v : MapEntry) : (s.setMapEntry i v).camLags = s.camLags := id rfl
@[simp] theorem State.setMapEntry_camEarly (s : State) (i : Nat) (v : MapEntry) : (s.setMapEntry i v).camEarly = s.camEarly := id rfl
@[simp] theorem State.setMapEntry_furrowStore (s : State) (i : Nat) (v : MapEntry) : (s.setMapEntry i v).furrowStore = s.furrowStore := id rfl
@[simp] theorem State.setMapEntry_gates (s : State) (i : Nat) (v : MapEntry) : (s.setMapEntry i v).gates = s.gates := id rfl
@[simp] theorem State.setMapEntry_gcl (s : State) (i : Nat) (v : MapEntry) : (s.setMapEntry i v).gcl = s.gcl := id rfl
@[simp] theorem State.setMapEntry_levels (s : State) (i : Nat) (v : MapEntry) : (s.setMapEntry i v).levels = s.levels := id rfl
@[simp] theorem State.setMapEntry_fetches (s : State) (i : Nat) (v : MapEntry) : (s.setMapEntry i v).fetches = s.fetches := id rfl
@[simp] theorem State.setMapEntry_src (s : State) (i : Nat) (v : MapEntry) : (s.setMapEntry i v).src = s.src := id rfl
@[simp] theorem State.setMapEntry_sampleDue (s : State) (i : Nat) (v : MapEntry) : (s.setMapEntry i v).sampleDue = s.sampleDue := id rfl
@[simp] theorem State.setMapEntry_wins (s : State) (i : Nat) (v : MapEntry) : (s.setMapEntry i v).wins = s.wins := id rfl
@[simp] theorem State.setMapEntry_dma (s : State) (i : Nat) (v : MapEntry) : (s.setMapEntry i v).dma = s.dma := id rfl
@[simp] theorem State.setMapEntry_dmaHalted (s : State) (i : Nat) (v : MapEntry) : (s.setMapEntry i v).dmaHalted = s.dmaHalted := id rfl
@[simp] theorem State.setMapEntry_scans (s : State) (i : Nat) (v : MapEntry) : (s.setMapEntry i v).scans = s.scans := id rfl
@[simp] theorem State.setMapEntry_cams (s : State) (i : Nat) (v : MapEntry) : (s.setMapEntry i v).cams = s.cams := id rfl
@[simp] theorem State.setMapEntry_groups (s : State) (i : Nat) (v : MapEntry) : (s.setMapEntry i v).groups = s.groups := id rfl
@[simp] theorem State.setMapEntry_fault (s : State) (i : Nat) (v : MapEntry) : (s.setMapEntry i v).fault = s.fault := id rfl
@[simp] theorem State.setMapEntry_barn (s : State) (i : Nat) (v : MapEntry) : (s.setMapEntry i v).barn = s.barn := id rfl
@[simp] theorem State.setMapEntry_perf (s : State) (i : Nat) (v : MapEntry) : (s.setMapEntry i v).perf = s.perf := id rfl

/-! `State.emit` changes `out` alone. -/

@[simp] theorem State.emit_pending (s : State) (o : Out) : (s.emit o).pending = s.pending := id rfl
@[simp] theorem State.emit_free (s : State) (o : Out) : (s.emit o).free = s.free := id rfl
@[simp] theorem State.emit_regs (s : State) (o : Out) : (s.emit o).regs = s.regs := id rfl
@[simp] theorem State.emit_pow (s : State) (o : Out) : (s.emit o).pow = s.pow := id rfl
@[simp] theorem State.emit_time (s : State) (o : Out) : (s.emit o).time = s.time := id rfl
@[simp] theorem State.emit_hw (s : State) (o : Out) : (s.emit o).hw = s.hw := id rfl
@[simp] theorem State.emit_rings (s : State) (o : Out) : (s.emit o).rings = s.rings := id rfl
@[simp] theorem State.emit_precHeld (s : State) (o : Out) : (s.emit o).precHeld = s.precHeld := id rfl
@[simp] theorem State.emit_precSize (s : State) (o : Out) : (s.emit o).precSize = s.precSize := id rfl
@[simp] theorem State.emit_queueSizes (s : State) (o : Out) : (s.emit o).queueSizes = s.queueSizes := id rfl
@[simp] theorem State.emit_scene (s : State) (o : Out) : (s.emit o).scene = s.scene := id rfl
@[simp] theorem State.emit_mem (s : State) (o : Out) : (s.emit o).mem = s.mem := id rfl
@[simp] theorem State.emit_lost (s : State) (o : Out) : (s.emit o).lost = s.lost := id rfl
@[simp] theorem State.emit_loft (s : State) (o : Out) : (s.emit o).loft = s.loft := id rfl
@[simp] theorem State.emit_pipes (s : State) (o : Out) : (s.emit o).pipes = s.pipes := id rfl
@[simp] theorem State.emit_bins (s : State) (o : Out) : (s.emit o).bins = s.bins := id rfl
@[simp] theorem State.emit_camLines (s : State) (o : Out) : (s.emit o).camLines = s.camLines := id rfl
@[simp] theorem State.emit_camLags (s : State) (o : Out) : (s.emit o).camLags = s.camLags := id rfl
@[simp] theorem State.emit_camEarly (s : State) (o : Out) : (s.emit o).camEarly = s.camEarly := id rfl
@[simp] theorem State.emit_furrowStore (s : State) (o : Out) : (s.emit o).furrowStore = s.furrowStore := id rfl
@[simp] theorem State.emit_gates (s : State) (o : Out) : (s.emit o).gates = s.gates := id rfl
@[simp] theorem State.emit_gcl (s : State) (o : Out) : (s.emit o).gcl = s.gcl := id rfl
@[simp] theorem State.emit_levels (s : State) (o : Out) : (s.emit o).levels = s.levels := id rfl
@[simp] theorem State.emit_fetches (s : State) (o : Out) : (s.emit o).fetches = s.fetches := id rfl
@[simp] theorem State.emit_src (s : State) (o : Out) : (s.emit o).src = s.src := id rfl
@[simp] theorem State.emit_sampleDue (s : State) (o : Out) : (s.emit o).sampleDue = s.sampleDue := id rfl
@[simp] theorem State.emit_wins (s : State) (o : Out) : (s.emit o).wins = s.wins := id rfl
@[simp] theorem State.emit_dma (s : State) (o : Out) : (s.emit o).dma = s.dma := id rfl
@[simp] theorem State.emit_dmaHalted (s : State) (o : Out) : (s.emit o).dmaHalted = s.dmaHalted := id rfl
@[simp] theorem State.emit_scans (s : State) (o : Out) : (s.emit o).scans = s.scans := id rfl
@[simp] theorem State.emit_cams (s : State) (o : Out) : (s.emit o).cams = s.cams := id rfl
@[simp] theorem State.emit_groups (s : State) (o : Out) : (s.emit o).groups = s.groups := id rfl
@[simp] theorem State.emit_light (s : State) (o : Out) : (s.emit o).light = s.light := id rfl
@[simp] theorem State.emit_fault (s : State) (o : Out) : (s.emit o).fault = s.fault := id rfl
@[simp] theorem State.emit_barn (s : State) (o : Out) : (s.emit o).barn = s.barn := id rfl
@[simp] theorem State.emit_perf (s : State) (o : Out) : (s.emit o).perf = s.perf := id rfl

/-! `State.freshen` changes `free` alone. -/

@[simp] theorem State.freshen_pending (s : State) : (s.freshen).pending = s.pending := id rfl
@[simp] theorem State.freshen_regs (s : State) : (s.freshen).regs = s.regs := id rfl
@[simp] theorem State.freshen_pow (s : State) : (s.freshen).pow = s.pow := id rfl
@[simp] theorem State.freshen_time (s : State) : (s.freshen).time = s.time := id rfl
@[simp] theorem State.freshen_hw (s : State) : (s.freshen).hw = s.hw := id rfl
@[simp] theorem State.freshen_out (s : State) : (s.freshen).out = s.out := id rfl
@[simp] theorem State.freshen_rings (s : State) : (s.freshen).rings = s.rings := id rfl
@[simp] theorem State.freshen_precHeld (s : State) : (s.freshen).precHeld = s.precHeld := id rfl
@[simp] theorem State.freshen_precSize (s : State) : (s.freshen).precSize = s.precSize := id rfl
@[simp] theorem State.freshen_queueSizes (s : State) : (s.freshen).queueSizes = s.queueSizes := id rfl
@[simp] theorem State.freshen_scene (s : State) : (s.freshen).scene = s.scene := id rfl
@[simp] theorem State.freshen_mem (s : State) : (s.freshen).mem = s.mem := id rfl
@[simp] theorem State.freshen_lost (s : State) : (s.freshen).lost = s.lost := id rfl
@[simp] theorem State.freshen_loft (s : State) : (s.freshen).loft = s.loft := id rfl
@[simp] theorem State.freshen_pipes (s : State) : (s.freshen).pipes = s.pipes := id rfl
@[simp] theorem State.freshen_bins (s : State) : (s.freshen).bins = s.bins := id rfl
@[simp] theorem State.freshen_camLines (s : State) : (s.freshen).camLines = s.camLines := id rfl
@[simp] theorem State.freshen_camLags (s : State) : (s.freshen).camLags = s.camLags := id rfl
@[simp] theorem State.freshen_camEarly (s : State) : (s.freshen).camEarly = s.camEarly := id rfl
@[simp] theorem State.freshen_furrowStore (s : State) : (s.freshen).furrowStore = s.furrowStore := id rfl
@[simp] theorem State.freshen_gates (s : State) : (s.freshen).gates = s.gates := id rfl
@[simp] theorem State.freshen_gcl (s : State) : (s.freshen).gcl = s.gcl := id rfl
@[simp] theorem State.freshen_levels (s : State) : (s.freshen).levels = s.levels := id rfl
@[simp] theorem State.freshen_fetches (s : State) : (s.freshen).fetches = s.fetches := id rfl
@[simp] theorem State.freshen_src (s : State) : (s.freshen).src = s.src := id rfl
@[simp] theorem State.freshen_sampleDue (s : State) : (s.freshen).sampleDue = s.sampleDue := id rfl
@[simp] theorem State.freshen_wins (s : State) : (s.freshen).wins = s.wins := id rfl
@[simp] theorem State.freshen_dma (s : State) : (s.freshen).dma = s.dma := id rfl
@[simp] theorem State.freshen_dmaHalted (s : State) : (s.freshen).dmaHalted = s.dmaHalted := id rfl
@[simp] theorem State.freshen_scans (s : State) : (s.freshen).scans = s.scans := id rfl
@[simp] theorem State.freshen_cams (s : State) : (s.freshen).cams = s.cams := id rfl
@[simp] theorem State.freshen_groups (s : State) : (s.freshen).groups = s.groups := id rfl
@[simp] theorem State.freshen_light (s : State) : (s.freshen).light = s.light := id rfl
@[simp] theorem State.freshen_fault (s : State) : (s.freshen).fault = s.fault := id rfl
@[simp] theorem State.freshen_barn (s : State) : (s.freshen).barn = s.barn := id rfl
@[simp] theorem State.freshen_perf (s : State) : (s.freshen).perf = s.perf := id rfl

/-! `State.setPerf` changes `perf` alone. -/

@[simp] theorem State.setPerf_pending (s : State) (k v : Nat) : (s.setPerf k v).pending = s.pending := id rfl
@[simp] theorem State.setPerf_free (s : State) (k v : Nat) : (s.setPerf k v).free = s.free := id rfl
@[simp] theorem State.setPerf_regs (s : State) (k v : Nat) : (s.setPerf k v).regs = s.regs := id rfl
@[simp] theorem State.setPerf_pow (s : State) (k v : Nat) : (s.setPerf k v).pow = s.pow := id rfl
@[simp] theorem State.setPerf_time (s : State) (k v : Nat) : (s.setPerf k v).time = s.time := id rfl
@[simp] theorem State.setPerf_hw (s : State) (k v : Nat) : (s.setPerf k v).hw = s.hw := id rfl
@[simp] theorem State.setPerf_out (s : State) (k v : Nat) : (s.setPerf k v).out = s.out := id rfl
@[simp] theorem State.setPerf_rings (s : State) (k v : Nat) : (s.setPerf k v).rings = s.rings := id rfl
@[simp] theorem State.setPerf_precHeld (s : State) (k v : Nat) : (s.setPerf k v).precHeld = s.precHeld := id rfl
@[simp] theorem State.setPerf_precSize (s : State) (k v : Nat) : (s.setPerf k v).precSize = s.precSize := id rfl
@[simp] theorem State.setPerf_queueSizes (s : State) (k v : Nat) : (s.setPerf k v).queueSizes = s.queueSizes := id rfl
@[simp] theorem State.setPerf_scene (s : State) (k v : Nat) : (s.setPerf k v).scene = s.scene := id rfl
@[simp] theorem State.setPerf_mem (s : State) (k v : Nat) : (s.setPerf k v).mem = s.mem := id rfl
@[simp] theorem State.setPerf_lost (s : State) (k v : Nat) : (s.setPerf k v).lost = s.lost := id rfl
@[simp] theorem State.setPerf_loft (s : State) (k v : Nat) : (s.setPerf k v).loft = s.loft := id rfl
@[simp] theorem State.setPerf_pipes (s : State) (k v : Nat) : (s.setPerf k v).pipes = s.pipes := id rfl
@[simp] theorem State.setPerf_bins (s : State) (k v : Nat) : (s.setPerf k v).bins = s.bins := id rfl
@[simp] theorem State.setPerf_camLines (s : State) (k v : Nat) : (s.setPerf k v).camLines = s.camLines := id rfl
@[simp] theorem State.setPerf_camLags (s : State) (k v : Nat) : (s.setPerf k v).camLags = s.camLags := id rfl
@[simp] theorem State.setPerf_camEarly (s : State) (k v : Nat) : (s.setPerf k v).camEarly = s.camEarly := id rfl
@[simp] theorem State.setPerf_furrowStore (s : State) (k v : Nat) : (s.setPerf k v).furrowStore = s.furrowStore := id rfl
@[simp] theorem State.setPerf_gates (s : State) (k v : Nat) : (s.setPerf k v).gates = s.gates := id rfl
@[simp] theorem State.setPerf_gcl (s : State) (k v : Nat) : (s.setPerf k v).gcl = s.gcl := id rfl
@[simp] theorem State.setPerf_levels (s : State) (k v : Nat) : (s.setPerf k v).levels = s.levels := id rfl
@[simp] theorem State.setPerf_fetches (s : State) (k v : Nat) : (s.setPerf k v).fetches = s.fetches := id rfl
@[simp] theorem State.setPerf_src (s : State) (k v : Nat) : (s.setPerf k v).src = s.src := id rfl
@[simp] theorem State.setPerf_sampleDue (s : State) (k v : Nat) : (s.setPerf k v).sampleDue = s.sampleDue := id rfl
@[simp] theorem State.setPerf_wins (s : State) (k v : Nat) : (s.setPerf k v).wins = s.wins := id rfl
@[simp] theorem State.setPerf_dma (s : State) (k v : Nat) : (s.setPerf k v).dma = s.dma := id rfl
@[simp] theorem State.setPerf_dmaHalted (s : State) (k v : Nat) : (s.setPerf k v).dmaHalted = s.dmaHalted := id rfl
@[simp] theorem State.setPerf_scans (s : State) (k v : Nat) : (s.setPerf k v).scans = s.scans := id rfl
@[simp] theorem State.setPerf_cams (s : State) (k v : Nat) : (s.setPerf k v).cams = s.cams := id rfl
@[simp] theorem State.setPerf_groups (s : State) (k v : Nat) : (s.setPerf k v).groups = s.groups := id rfl
@[simp] theorem State.setPerf_light (s : State) (k v : Nat) : (s.setPerf k v).light = s.light := id rfl
@[simp] theorem State.setPerf_fault (s : State) (k v : Nat) : (s.setPerf k v).fault = s.fault := id rfl
@[simp] theorem State.setPerf_barn (s : State) (k v : Nat) : (s.setPerf k v).barn = s.barn := id rfl

/-! `State.setFld` changes `regs` alone. -/

@[simp] theorem State.setFld_pending (s : State) (f : Fld) (v : Nat) : (s.setFld f v).pending = s.pending := id rfl
@[simp] theorem State.setFld_free (s : State) (f : Fld) (v : Nat) : (s.setFld f v).free = s.free := id rfl
@[simp] theorem State.setFld_pow (s : State) (f : Fld) (v : Nat) : (s.setFld f v).pow = s.pow := id rfl
@[simp] theorem State.setFld_time (s : State) (f : Fld) (v : Nat) : (s.setFld f v).time = s.time := id rfl
@[simp] theorem State.setFld_hw (s : State) (f : Fld) (v : Nat) : (s.setFld f v).hw = s.hw := id rfl
@[simp] theorem State.setFld_out (s : State) (f : Fld) (v : Nat) : (s.setFld f v).out = s.out := id rfl
@[simp] theorem State.setFld_rings (s : State) (f : Fld) (v : Nat) : (s.setFld f v).rings = s.rings := id rfl
@[simp] theorem State.setFld_precHeld (s : State) (f : Fld) (v : Nat) : (s.setFld f v).precHeld = s.precHeld := id rfl
@[simp] theorem State.setFld_precSize (s : State) (f : Fld) (v : Nat) : (s.setFld f v).precSize = s.precSize := id rfl
@[simp] theorem State.setFld_queueSizes (s : State) (f : Fld) (v : Nat) : (s.setFld f v).queueSizes = s.queueSizes := id rfl
@[simp] theorem State.setFld_scene (s : State) (f : Fld) (v : Nat) : (s.setFld f v).scene = s.scene := id rfl
@[simp] theorem State.setFld_mem (s : State) (f : Fld) (v : Nat) : (s.setFld f v).mem = s.mem := id rfl
@[simp] theorem State.setFld_lost (s : State) (f : Fld) (v : Nat) : (s.setFld f v).lost = s.lost := id rfl
@[simp] theorem State.setFld_loft (s : State) (f : Fld) (v : Nat) : (s.setFld f v).loft = s.loft := id rfl
@[simp] theorem State.setFld_pipes (s : State) (f : Fld) (v : Nat) : (s.setFld f v).pipes = s.pipes := id rfl
@[simp] theorem State.setFld_bins (s : State) (f : Fld) (v : Nat) : (s.setFld f v).bins = s.bins := id rfl
@[simp] theorem State.setFld_camLines (s : State) (f : Fld) (v : Nat) : (s.setFld f v).camLines = s.camLines := id rfl
@[simp] theorem State.setFld_camLags (s : State) (f : Fld) (v : Nat) : (s.setFld f v).camLags = s.camLags := id rfl
@[simp] theorem State.setFld_camEarly (s : State) (f : Fld) (v : Nat) : (s.setFld f v).camEarly = s.camEarly := id rfl
@[simp] theorem State.setFld_furrowStore (s : State) (f : Fld) (v : Nat) : (s.setFld f v).furrowStore = s.furrowStore := id rfl
@[simp] theorem State.setFld_gates (s : State) (f : Fld) (v : Nat) : (s.setFld f v).gates = s.gates := id rfl
@[simp] theorem State.setFld_gcl (s : State) (f : Fld) (v : Nat) : (s.setFld f v).gcl = s.gcl := id rfl
@[simp] theorem State.setFld_levels (s : State) (f : Fld) (v : Nat) : (s.setFld f v).levels = s.levels := id rfl
@[simp] theorem State.setFld_fetches (s : State) (f : Fld) (v : Nat) : (s.setFld f v).fetches = s.fetches := id rfl
@[simp] theorem State.setFld_src (s : State) (f : Fld) (v : Nat) : (s.setFld f v).src = s.src := id rfl
@[simp] theorem State.setFld_sampleDue (s : State) (f : Fld) (v : Nat) : (s.setFld f v).sampleDue = s.sampleDue := id rfl
@[simp] theorem State.setFld_wins (s : State) (f : Fld) (v : Nat) : (s.setFld f v).wins = s.wins := id rfl
@[simp] theorem State.setFld_dma (s : State) (f : Fld) (v : Nat) : (s.setFld f v).dma = s.dma := id rfl
@[simp] theorem State.setFld_dmaHalted (s : State) (f : Fld) (v : Nat) : (s.setFld f v).dmaHalted = s.dmaHalted := id rfl
@[simp] theorem State.setFld_scans (s : State) (f : Fld) (v : Nat) : (s.setFld f v).scans = s.scans := id rfl
@[simp] theorem State.setFld_cams (s : State) (f : Fld) (v : Nat) : (s.setFld f v).cams = s.cams := id rfl
@[simp] theorem State.setFld_groups (s : State) (f : Fld) (v : Nat) : (s.setFld f v).groups = s.groups := id rfl
@[simp] theorem State.setFld_light (s : State) (f : Fld) (v : Nat) : (s.setFld f v).light = s.light := id rfl
@[simp] theorem State.setFld_fault (s : State) (f : Fld) (v : Nat) : (s.setFld f v).fault = s.fault := id rfl
@[simp] theorem State.setFld_barn (s : State) (f : Fld) (v : Nat) : (s.setFld f v).barn = s.barn := id rfl
@[simp] theorem State.setFld_perf (s : State) (f : Fld) (v : Nat) : (s.setFld f v).perf = s.perf := id rfl

/-! `State.addFld` changes `regs` alone. -/

@[simp] theorem State.addFld_pending (s : State) (f : Fld) (d : Nat) : (s.addFld f d).pending = s.pending := id rfl
@[simp] theorem State.addFld_free (s : State) (f : Fld) (d : Nat) : (s.addFld f d).free = s.free := id rfl
@[simp] theorem State.addFld_pow (s : State) (f : Fld) (d : Nat) : (s.addFld f d).pow = s.pow := id rfl
@[simp] theorem State.addFld_time (s : State) (f : Fld) (d : Nat) : (s.addFld f d).time = s.time := id rfl
@[simp] theorem State.addFld_hw (s : State) (f : Fld) (d : Nat) : (s.addFld f d).hw = s.hw := id rfl
@[simp] theorem State.addFld_out (s : State) (f : Fld) (d : Nat) : (s.addFld f d).out = s.out := id rfl
@[simp] theorem State.addFld_rings (s : State) (f : Fld) (d : Nat) : (s.addFld f d).rings = s.rings := id rfl
@[simp] theorem State.addFld_precHeld (s : State) (f : Fld) (d : Nat) : (s.addFld f d).precHeld = s.precHeld := id rfl
@[simp] theorem State.addFld_precSize (s : State) (f : Fld) (d : Nat) : (s.addFld f d).precSize = s.precSize := id rfl
@[simp] theorem State.addFld_queueSizes (s : State) (f : Fld) (d : Nat) : (s.addFld f d).queueSizes = s.queueSizes := id rfl
@[simp] theorem State.addFld_scene (s : State) (f : Fld) (d : Nat) : (s.addFld f d).scene = s.scene := id rfl
@[simp] theorem State.addFld_mem (s : State) (f : Fld) (d : Nat) : (s.addFld f d).mem = s.mem := id rfl
@[simp] theorem State.addFld_lost (s : State) (f : Fld) (d : Nat) : (s.addFld f d).lost = s.lost := id rfl
@[simp] theorem State.addFld_loft (s : State) (f : Fld) (d : Nat) : (s.addFld f d).loft = s.loft := id rfl
@[simp] theorem State.addFld_pipes (s : State) (f : Fld) (d : Nat) : (s.addFld f d).pipes = s.pipes := id rfl
@[simp] theorem State.addFld_bins (s : State) (f : Fld) (d : Nat) : (s.addFld f d).bins = s.bins := id rfl
@[simp] theorem State.addFld_camLines (s : State) (f : Fld) (d : Nat) : (s.addFld f d).camLines = s.camLines := id rfl
@[simp] theorem State.addFld_camLags (s : State) (f : Fld) (d : Nat) : (s.addFld f d).camLags = s.camLags := id rfl
@[simp] theorem State.addFld_camEarly (s : State) (f : Fld) (d : Nat) : (s.addFld f d).camEarly = s.camEarly := id rfl
@[simp] theorem State.addFld_furrowStore (s : State) (f : Fld) (d : Nat) : (s.addFld f d).furrowStore = s.furrowStore := id rfl
@[simp] theorem State.addFld_gates (s : State) (f : Fld) (d : Nat) : (s.addFld f d).gates = s.gates := id rfl
@[simp] theorem State.addFld_gcl (s : State) (f : Fld) (d : Nat) : (s.addFld f d).gcl = s.gcl := id rfl
@[simp] theorem State.addFld_levels (s : State) (f : Fld) (d : Nat) : (s.addFld f d).levels = s.levels := id rfl
@[simp] theorem State.addFld_fetches (s : State) (f : Fld) (d : Nat) : (s.addFld f d).fetches = s.fetches := id rfl
@[simp] theorem State.addFld_src (s : State) (f : Fld) (d : Nat) : (s.addFld f d).src = s.src := id rfl
@[simp] theorem State.addFld_sampleDue (s : State) (f : Fld) (d : Nat) : (s.addFld f d).sampleDue = s.sampleDue := id rfl
@[simp] theorem State.addFld_wins (s : State) (f : Fld) (d : Nat) : (s.addFld f d).wins = s.wins := id rfl
@[simp] theorem State.addFld_dma (s : State) (f : Fld) (d : Nat) : (s.addFld f d).dma = s.dma := id rfl
@[simp] theorem State.addFld_dmaHalted (s : State) (f : Fld) (d : Nat) : (s.addFld f d).dmaHalted = s.dmaHalted := id rfl
@[simp] theorem State.addFld_scans (s : State) (f : Fld) (d : Nat) : (s.addFld f d).scans = s.scans := id rfl
@[simp] theorem State.addFld_cams (s : State) (f : Fld) (d : Nat) : (s.addFld f d).cams = s.cams := id rfl
@[simp] theorem State.addFld_groups (s : State) (f : Fld) (d : Nat) : (s.addFld f d).groups = s.groups := id rfl
@[simp] theorem State.addFld_light (s : State) (f : Fld) (d : Nat) : (s.addFld f d).light = s.light := id rfl
@[simp] theorem State.addFld_fault (s : State) (f : Fld) (d : Nat) : (s.addFld f d).fault = s.fault := id rfl
@[simp] theorem State.addFld_barn (s : State) (f : Fld) (d : Nat) : (s.addFld f d).barn = s.barn := id rfl
@[simp] theorem State.addFld_perf (s : State) (f : Fld) (d : Nat) : (s.addFld f d).perf = s.perf := id rfl

/-! `State.setFbit` changes `regs` alone. -/

@[simp] theorem State.setFbit_pending (s : State) (f : Fld) (i : Nat) (b : Bool) : (s.setFbit f i b).pending = s.pending := id rfl
@[simp] theorem State.setFbit_free (s : State) (f : Fld) (i : Nat) (b : Bool) : (s.setFbit f i b).free = s.free := id rfl
@[simp] theorem State.setFbit_pow (s : State) (f : Fld) (i : Nat) (b : Bool) : (s.setFbit f i b).pow = s.pow := id rfl
@[simp] theorem State.setFbit_time (s : State) (f : Fld) (i : Nat) (b : Bool) : (s.setFbit f i b).time = s.time := id rfl
@[simp] theorem State.setFbit_hw (s : State) (f : Fld) (i : Nat) (b : Bool) : (s.setFbit f i b).hw = s.hw := id rfl
@[simp] theorem State.setFbit_out (s : State) (f : Fld) (i : Nat) (b : Bool) : (s.setFbit f i b).out = s.out := id rfl
@[simp] theorem State.setFbit_rings (s : State) (f : Fld) (i : Nat) (b : Bool) : (s.setFbit f i b).rings = s.rings := id rfl
@[simp] theorem State.setFbit_precHeld (s : State) (f : Fld) (i : Nat) (b : Bool) : (s.setFbit f i b).precHeld = s.precHeld := id rfl
@[simp] theorem State.setFbit_precSize (s : State) (f : Fld) (i : Nat) (b : Bool) : (s.setFbit f i b).precSize = s.precSize := id rfl
@[simp] theorem State.setFbit_queueSizes (s : State) (f : Fld) (i : Nat) (b : Bool) : (s.setFbit f i b).queueSizes = s.queueSizes := id rfl
@[simp] theorem State.setFbit_scene (s : State) (f : Fld) (i : Nat) (b : Bool) : (s.setFbit f i b).scene = s.scene := id rfl
@[simp] theorem State.setFbit_mem (s : State) (f : Fld) (i : Nat) (b : Bool) : (s.setFbit f i b).mem = s.mem := id rfl
@[simp] theorem State.setFbit_lost (s : State) (f : Fld) (i : Nat) (b : Bool) : (s.setFbit f i b).lost = s.lost := id rfl
@[simp] theorem State.setFbit_loft (s : State) (f : Fld) (i : Nat) (b : Bool) : (s.setFbit f i b).loft = s.loft := id rfl
@[simp] theorem State.setFbit_pipes (s : State) (f : Fld) (i : Nat) (b : Bool) : (s.setFbit f i b).pipes = s.pipes := id rfl
@[simp] theorem State.setFbit_bins (s : State) (f : Fld) (i : Nat) (b : Bool) : (s.setFbit f i b).bins = s.bins := id rfl
@[simp] theorem State.setFbit_camLines (s : State) (f : Fld) (i : Nat) (b : Bool) : (s.setFbit f i b).camLines = s.camLines := id rfl
@[simp] theorem State.setFbit_camLags (s : State) (f : Fld) (i : Nat) (b : Bool) : (s.setFbit f i b).camLags = s.camLags := id rfl
@[simp] theorem State.setFbit_camEarly (s : State) (f : Fld) (i : Nat) (b : Bool) : (s.setFbit f i b).camEarly = s.camEarly := id rfl
@[simp] theorem State.setFbit_furrowStore (s : State) (f : Fld) (i : Nat) (b : Bool) : (s.setFbit f i b).furrowStore = s.furrowStore := id rfl
@[simp] theorem State.setFbit_gates (s : State) (f : Fld) (i : Nat) (b : Bool) : (s.setFbit f i b).gates = s.gates := id rfl
@[simp] theorem State.setFbit_gcl (s : State) (f : Fld) (i : Nat) (b : Bool) : (s.setFbit f i b).gcl = s.gcl := id rfl
@[simp] theorem State.setFbit_levels (s : State) (f : Fld) (i : Nat) (b : Bool) : (s.setFbit f i b).levels = s.levels := id rfl
@[simp] theorem State.setFbit_fetches (s : State) (f : Fld) (i : Nat) (b : Bool) : (s.setFbit f i b).fetches = s.fetches := id rfl
@[simp] theorem State.setFbit_src (s : State) (f : Fld) (i : Nat) (b : Bool) : (s.setFbit f i b).src = s.src := id rfl
@[simp] theorem State.setFbit_sampleDue (s : State) (f : Fld) (i : Nat) (b : Bool) : (s.setFbit f i b).sampleDue = s.sampleDue := id rfl
@[simp] theorem State.setFbit_wins (s : State) (f : Fld) (i : Nat) (b : Bool) : (s.setFbit f i b).wins = s.wins := id rfl
@[simp] theorem State.setFbit_dma (s : State) (f : Fld) (i : Nat) (b : Bool) : (s.setFbit f i b).dma = s.dma := id rfl
@[simp] theorem State.setFbit_dmaHalted (s : State) (f : Fld) (i : Nat) (b : Bool) : (s.setFbit f i b).dmaHalted = s.dmaHalted := id rfl
@[simp] theorem State.setFbit_scans (s : State) (f : Fld) (i : Nat) (b : Bool) : (s.setFbit f i b).scans = s.scans := id rfl
@[simp] theorem State.setFbit_cams (s : State) (f : Fld) (i : Nat) (b : Bool) : (s.setFbit f i b).cams = s.cams := id rfl
@[simp] theorem State.setFbit_groups (s : State) (f : Fld) (i : Nat) (b : Bool) : (s.setFbit f i b).groups = s.groups := id rfl
@[simp] theorem State.setFbit_light (s : State) (f : Fld) (i : Nat) (b : Bool) : (s.setFbit f i b).light = s.light := id rfl
@[simp] theorem State.setFbit_fault (s : State) (f : Fld) (i : Nat) (b : Bool) : (s.setFbit f i b).fault = s.fault := id rfl
@[simp] theorem State.setFbit_barn (s : State) (f : Fld) (i : Nat) (b : Bool) : (s.setFbit f i b).barn = s.barn := id rfl
@[simp] theorem State.setFbit_perf (s : State) (f : Fld) (i : Nat) (b : Bool) : (s.setFbit f i b).perf = s.perf := id rfl

end Sys2Proof.Machine
end

