-- ==== Sys2Proof/Laws/Tables.lean ====
section
/-! SUPPORT. Sparse tables: a read after a write, and that every operation keeps the canonical form. -/

namespace Sys2Proof.Machine

/-- Every key of the table is at least `n`. -/
def smFrom {α : Type} (n : Nat) (m : SMap α) : Prop := ∀ e ∈ m, n ≤ e.1

/-- The keys of the table rise strictly. -/
def smRising {α : Type} : SMap α → Prop
  | [] => True
  | (k, _) :: r => smFrom (k + 1) r ∧ smRising r

theorem smFrom_mono {α : Type} {m : SMap α} {n k : Nat} (h : smFrom n m) (hk : k ≤ n) : smFrom k m :=
  fun e he => Nat.le_trans hk (h e he)

theorem smFind_put {α : Type} (m : SMap α) (a k : Nat) (w : α) :
    smFind (smPut m a w) k = if k = a then some w else smFind m k := by
  induction m with
  | nil => simp [smPut, smFind, eq_comm]
  | cons e r ih =>
    obtain ⟨b, v⟩ := e
    simp only [smPut]
    by_cases h1 : b = a
    · subst h1
      by_cases h2 : b = k
      · simp [smFind, h2]
      · simp [smFind, h2, Ne.symm h2]
    · rw [if_neg h1]
      split
      · by_cases h2 : k = a
        · simp [smFind, h2]
        · simp [smFind, h2, Ne.symm h2]
      · simp only [smFind, ih]
        by_cases h2 : k = a
        · subst h2; simp [h1]
        · simp [h2]

theorem smFind_del {α : Type} (m : SMap α) (a k : Nat) :
    smFind (smDel m a) k = if k = a then none else smFind m k := by
  induction m with
  | nil => simp [smDel, smFind]
  | cons e r ih =>
    obtain ⟨b, v⟩ := e
    simp only [smDel]
    by_cases h1 : b = a
    · subst h1
      rw [if_pos rfl, ih]
      by_cases h2 : k = b
      · simp [h2]
      · simp [smFind, h2, Ne.symm h2]
    · rw [if_neg h1]
      simp only [smFind, ih]
      by_cases h2 : k = a
      · subst h2; simp [h1]
      · simp [h2]

/-- A read after a write to the same key gives the value written. -/
@[simp] theorem smGet_set_self {α : Type} [DecidableEq α] (d : α) (m : SMap α) (a : Nat) (w : α) :
    smGet d (smSet d m a w) a = w := by
  unfold smGet smSet
  split
  · rename_i h; simp [smFind_del, h]
  · simp [smFind_put]

/-- A write leaves every other key alone. -/
theorem smGet_set_other {α : Type} [DecidableEq α] (d e : α) (m : SMap α) (a k : Nat) (w : α) (h : k ≠ a) :
    smGet d (smSet e m a w) k = smGet d m k := by
  unfold smGet smSet
  split
  · rw [smFind_del, if_neg h]
  · rw [smFind_put, if_neg h]

/-- What a table reads after a write. -/
theorem smGet_set {α : Type} [DecidableEq α] (d : α) (m : SMap α) (a k : Nat) (w : α) :
    smGet d (smSet d m a w) k = if k = a then w else smGet d m k := by
  split
  · subst k; exact smGet_set_self d m a w
  · exact smGet_set_other d d m a k w ‹_›

/-- A put brings the entry put and no other. -/
theorem smMem_put {α : Type} {m : SMap α} {a : Nat} {w : α} {e : Nat × α} : e ∈ smPut m a w → e = (a, w) ∨ e ∈ m := by
  induction m with
  | nil => simp [smPut]
  | cons x r ih =>
    rw [smPut]
    repeat' split
    all_goals simp only [List.mem_cons]
    · exact Or.imp_right .inr
    · exact id
    · exact fun h => h.elim (fun h => .inr (.inl h)) (fun h => (ih h).imp_right .inr)

/-- A delete brings no entry. -/
theorem smMem_del {α : Type} {m : SMap α} {a : Nat} {e : Nat × α} : e ∈ smDel m a → e ∈ m := by
  induction m with
  | nil => exact id
  | cons x r ih =>
    rw [smDel]
    split
    · exact fun h => .tail _ (ih h)
    · simpa only [List.mem_cons] using Or.imp_right ih

theorem smFrom_put {α : Type} {m : SMap α} {n a : Nat} {w : α} (h : smFrom n m) (ha : n ≤ a) : smFrom n (smPut m a w) :=
  fun e he => (smMem_put he).elim (fun q => q ▸ ha) (h e)

theorem smFrom_del {α : Type} {m : SMap α} {n a : Nat} (h : smFrom n m) : smFrom n (smDel m a) :=
  fun e he => h e (smMem_del he)

theorem smRising_put {α : Type} {m : SMap α} (h : smRising m) (a : Nat) (w : α) : smRising (smPut m a w) := by
  induction m with
  | nil => exact ⟨by simp [smFrom], trivial⟩
  | cons e r ih =>
    obtain ⟨b, v⟩ := e
    simp only [smPut]
    split
    · rename_i h1; subst h1; exact h
    · split
      · rename_i h1 h2
        exact ⟨List.forall_mem_cons.mpr ⟨h2, smFrom_mono h.1 (by omega)⟩, h⟩
      · rename_i h1 h2
        exact ⟨smFrom_put h.1 (by omega), ih h.2⟩

theorem smRising_del {α : Type} {m : SMap α} (h : smRising m) (a : Nat) : smRising (smDel m a) := by
  induction m with
  | nil => trivial
  | cons e r ih =>
    obtain ⟨b, v⟩ := e
    simp only [smDel]
    split
    · exact ih h.2
    · exact ⟨smFrom_del h.1, ih h.2⟩

/-- Writing keeps the keys rising. -/
theorem smRising_set {α : Type} [DecidableEq α] {m : SMap α} (h : smRising m) (d : α) (a : Nat) (w : α) :
    smRising (smSet d m a w) := by
  unfold smSet
  split
  · exact smRising_del h a
  · exact smRising_put h a w

/-- The canonical form, said of each entry. -/
theorem smWf_iff {α : Type} [DecidableEq α] (d : Nat → α) (m : SMap α) :
    smWf d m = true ↔ smRising m ∧ ∀ e ∈ m, e.2 ≠ d e.1 := by
  induction m with
  | nil => simp [smWf, smRising]
  | cons e r ih =>
    obtain ⟨b, v⟩ := e
    cases r with
    | nil => simp [smWf, smRising, smFrom]
    | cons e' r' =>
      obtain ⟨b', v'⟩ := e'
      simp only [smWf, Bool.and_eq_true, decide_eq_true_eq, ih, smRising, List.forall_mem_cons]
      constructor
      · rintro ⟨⟨h1, h2⟩, ⟨h3, h4⟩, h5, h6⟩
        exact ⟨⟨List.forall_mem_cons.mpr ⟨h2, smFrom_mono h3 (by simp; omega)⟩, h3, h4⟩, h1, h5, h6⟩
      · rintro ⟨⟨h1, h3, h4⟩, h5, h6, h7⟩
        exact ⟨⟨h5, h1 (b', v') (by simp)⟩, ⟨h3, h4⟩, h6, h7⟩

/-- Writing keeps the canonical form. -/
theorem smWf_set {α : Type} [DecidableEq α] {d : Nat → α} {m : SMap α} (h : smWf d m = true) (a : Nat) (w : α) :
    smWf d (smSet (d a) m a w) = true := by
  rw [smWf_iff] at h ⊢
  refine ⟨smRising_set h.1 (d a) a w, ?_⟩
  intro e he
  unfold smSet at he
  split at he
  · exact h.2 e (smMem_del he)
  · rename_i hw
    exact (smMem_put he).elim (fun q => q ▸ hw) (h.2 e)

/-! Device memory. -/

@[simp] theorem State.memPut_lost (s : State) (a : Nat) (bs : List Byte) : (s.memPut a bs).lost = s.lost := by
  induction bs generalizing s a with
  | nil => rfl
  | cons b bs ih => simp only [State.memPut, ih]

theorem State.memUnlisted_congr {s t : State} (h : t.lost = s.lost) : t.memUnlisted = s.memUnlisted := by
  funext a; simp only [State.memUnlisted, h]

/-- Storing bytes keeps the canonical form of device memory. -/
theorem State.memPut_ok (s : State) (a : Nat) (bs : List Byte) (h : s.memOk = true) : (s.memPut a bs).memOk = true := by
  induction bs generalizing s a with
  | nil => exact h
  | cons b bs ih =>
    apply ih
    exact smWf_set (d := s.memUnlisted) h a b

/-- One byte of device memory after bytes are stored. -/
theorem State.memByte_memPut (s : State) (a : Nat) (bs : List Byte) (x : Nat) :
    (s.memPut a bs).memByte x = if a ≤ x ∧ x < a + bs.length then nth 0 bs (x - a) else s.memByte x := by
  induction bs generalizing s a with
  | nil => rw [if_neg (by rw [List.length_nil]; omega)]; rfl
  | cons b bs ih =>
    rw [State.memPut, ih]
    · by_cases h1 : x = a
      · subst h1
        rw [if_neg (by omega), if_pos (by simp)]
        show smGet (s.memUnlisted x) (smSet (s.memUnlisted x) s.mem x b) x = _
        rw [smGet_set_self]
        simp [nth]
      · by_cases h2 : a + 1 ≤ x ∧ x < a + 1 + bs.length
        · rw [if_pos h2, if_pos (by simp; omega)]
          obtain ⟨k, hk⟩ : ∃ k, x - a = k + 1 := ⟨x - a - 1, by omega⟩
          have : x - (a + 1) = k := by omega
          rw [hk, this]; simp [nth]
        · rw [if_neg h2, if_neg (by simp; omega)]
          show smGet (s.memUnlisted x) (smSet (s.memUnlisted a) s.mem a b) x = _
          rw [smGet_set_other _ _ _ _ _ _ h1]
          rfl

theorem smRising_filter {α : Type} {m : SMap α} (h : smRising m) (p : Nat × α → Bool) : smRising (m.filter p) := by
  induction m with
  | nil => exact h
  | cons e r ih =>
    obtain ⟨b, v⟩ := e
    simp only [List.filter_cons]
    split
    · exact ⟨fun x hx => h.1 x (List.mem_filter.1 hx).1, ih h.2⟩
    · exact ih h.2

/-- Losing a channel keeps the canonical form: its bytes are no longer listed, so they read as undefined bytes (R374). -/
theorem State.loseMemory_ok (s : State) (m : Nat) (h : s.memOk = true) : (s.loseMemory m).memOk = true := by
  obtain ⟨h1, h2⟩ := (smWf_iff _ _).1 h
  refine (smWf_iff _ _).2 ⟨smRising_filter h1 _, ?_⟩
  intro e he
  obtain ⟨h3, h4⟩ := List.mem_filter.1 he
  have h5 : e.1 / 0x70000000 ≠ m := by simpa using h4
  have h6 : (s.loseMemory m).memUnlisted e.1 = s.memUnlisted e.1 := by
    simp only [State.memUnlisted, State.loseMemory, State.freshen, smFind_put, if_neg h5]
  rw [h6]
  exact h2 e h3

/-- Storing bytes through `State.store` does to memory what `State.memPut` does. -/
theorem State.store_memByte (s : State) (a : Nat) (bs : List Byte) (x : Nat) :
    (s.store a bs).memByte x = (s.memPut a bs).memByte x := rfl

theorem State.store_ok (s : State) (a : Nat) (bs : List Byte) (h : s.memOk = true) : (s.store a bs).memOk = true :=
  State.memPut_ok s a bs h

/-- The memory right after reset is in canonical form. -/
theorem State.reset_memOk : State.reset.memOk = true := rfl

end Sys2Proof.Machine
end

