-- ==== Sys2Proof/Laws/Registers.lean ====
section
/-! SUPPORT. Registers and their fields: a read after a write, and that a write leaves every other register and every other
field alone. -/

namespace Sys2Proof.Machine

/-! Bit fields. -/

theorem testBit_bits (w : Word) (hi lo i : Nat) :
    (bits w hi lo).testBit i = (decide (i < hi - lo + 1) && w.getLsbD (lo + i)) := by
  simp only [bits, Nat.testBit_mod_two_pow, Nat.testBit_shiftRight, BitVec.getLsbD]

theorem getLsbD_mask (hi lo i : Nat) :
    (mask hi lo).getLsbD i = (decide (i < 32) && decide (lo ≤ i) && decide (i - lo < hi - lo + 1)) := by
  simp only [mask, BitVec.getLsbD_ofNat, Nat.testBit_shiftLeft, Nat.testBit_two_pow_sub_one, ge_iff_le, Bool.and_assoc]

theorem getLsbD_setBits (w : Word) (hi lo v i : Nat) (h : i < 32) :
    (setBits w hi lo v).getLsbD i =
      if lo ≤ i ∧ i - lo < hi - lo + 1 then v.testBit (i - lo) else w.getLsbD i := by
  simp only [setBits, BitVec.getLsbD_or, BitVec.getLsbD_and, BitVec.getLsbD_not, getLsbD_mask, BitVec.getLsbD_ofNat, Nat.testBit_shiftLeft, h, decide_true, Bool.true_and, ge_iff_le]
  by_cases h1 : lo ≤ i <;> by_cases h2 : i - lo < hi - lo + 1 <;> simp [h1, h2]

/-- A field reads what was put into it, cut to its width. -/
theorem bits_setBits (w : Word) (hi lo v : Nat) (h1 : lo ≤ hi) (h2 : hi < 32) :
    bits (setBits w hi lo v) hi lo = v % 2 ^ (hi - lo + 1) := by
  apply Nat.eq_of_testBit_eq
  intro i
  rw [testBit_bits, Nat.testBit_mod_two_pow]
  by_cases h : i < hi - lo + 1
  · rw [getLsbD_setBits _ _ _ _ _ (by omega), if_pos ⟨by omega, by omega⟩]
    simp
  · simp [h]

/-- A field reads as before when a field apart from it is put. -/
theorem bits_setBits_other (w : Word) (hi lo v hi' lo' : Nat) (h1 : lo' ≤ hi') (h2 : hi' < 32) (h3 : lo ≤ hi)
    (h : hi' < lo ∨ hi < lo') : bits (setBits w hi lo v) hi' lo' = bits w hi' lo' := by
  apply Nat.eq_of_testBit_eq
  intro i
  rw [testBit_bits, testBit_bits]
  by_cases hi2 : i < hi' - lo' + 1
  · rw [getLsbD_setBits _ _ _ _ _ (by omega), if_neg (by omega)]
  · simp [hi2]

theorem bits_lt (w : Word) (hi lo : Nat) : bits w hi lo < 2 ^ (hi - lo + 1) := Nat.mod_lt _ (Nat.two_pow_pos _)

/-! Registers. -/

@[simp] theorem State.reg_setReg_self (s : State) (a : Nat) (w : Word) : (s.setReg a w).reg a = w := by
  simp [State.reg, State.setReg]

theorem State.reg_setReg_other (s : State) (a k : Nat) (w : Word) (h : k ≠ a) : (s.setReg a w).reg k = s.reg k := by
  simp only [State.reg, State.setReg]
  exact smGet_set_other _ _ _ _ _ _ h

theorem State.reg_setReg (s : State) (a k : Nat) (w : Word) : (s.setReg a w).reg k = if k = a then w else s.reg k := by
  split
  · subst k; simp
  · exact s.reg_setReg_other a k w ‹_›

/-- A field of an address and a range that fits a register. -/
def Fld.ok (f : Fld) : Prop := f.lo ≤ f.hi ∧ f.hi < 32

theorem State.fld_setFld_self (s : State) (f : Fld) (v : Nat) (h : f.ok) :
    (s.setFld f v).fld f = v % 2 ^ (f.hi - f.lo + 1) := by
  simp only [State.fld, State.setFld, State.reg_setReg_self]
  exact bits_setBits _ _ _ _ h.1 h.2

/-- Putting a field leaves the fields of other registers alone. -/
theorem State.fld_setFld_reg (s : State) (f g : Fld) (v : Nat) (h : g.addr ≠ f.addr) : (s.setFld f v).fld g = s.fld g := by
  simp only [State.fld, State.setFld, State.reg_setReg_other _ _ _ _ h]

/-- Putting a field leaves the fields apart from it alone. -/
theorem State.fld_setFld_other (s : State) (f g : Fld) (v : Nat) (hf : f.ok) (hg : g.ok)
    (h : g.addr ≠ f.addr ∨ g.hi < f.lo ∨ f.hi < g.lo) : (s.setFld f v).fld g = s.fld g := by
  by_cases ha : g.addr = f.addr
  · have h' : g.hi < f.lo ∨ f.hi < g.lo := by
      rcases h with h | h
      · exact absurd ha h
      · exact h
    simp only [State.fld, State.setFld, ha, State.reg_setReg_self]
    exact bits_setBits_other _ _ _ _ _ _ hg.1 hg.2 hf.1 h'
  · exact s.fld_setFld_reg f g v ha

theorem State.reg_setFld_other (s : State) (f : Fld) (a v : Nat) (h : a ≠ f.addr) : (s.setFld f v).reg a = s.reg a :=
  s.reg_setReg_other _ _ _ h

theorem State.reg_addFld_other (s : State) (f : Fld) (a d : Nat) (h : a ≠ f.addr) : (s.addFld f d).reg a = s.reg a :=
  s.reg_setReg_other _ _ _ h

theorem State.fld_lt (s : State) (f : Fld) : s.fld f < 2 ^ (f.hi - f.lo + 1) := bits_lt _ _ _

/-- A counter field rises by `d` and stops at all ones. -/
theorem State.fld_addFld_self (s : State) (f : Fld) (d : Nat) (h : f.ok) :
    (s.addFld f d).fld f = min (s.fld f + d) (2 ^ (f.hi - f.lo + 1) - 1) := by
  simp only [State.addFld, State.fld_setFld_self _ _ _ h, satAdd]
  apply Nat.mod_eq_of_lt
  have : 0 < 2 ^ (f.hi - f.lo + 1) := Nat.two_pow_pos _
  omega

/-! The tables of the state: a read after a write. -/

theorem State.ring_setRing (s : State) (n k : Nat) (r : Ring) : (s.setRing n r).ring k = if k = n then r else s.ring k :=
  smGet_set _ _ _ _ _
theorem State.pipe_setPipe (s : State) (n k : Nat) (r : PipeRt) : (s.setPipe n r).pipe k = if k = n then r else s.pipe k :=
  smGet_set _ _ _ _ _
theorem State.gate_setGate (s : State) (n k : Nat) (r : Gate) : (s.setGate n r).gate k = if k = n then r else s.gate k :=
  smGet_set _ _ _ _ _
theorem State.source_setSource (s : State) (n k : Nat) (r : Source) :
    (s.setSource n r).source k = if k = n then r else s.source k := smGet_set _ _ _ _ _
theorem State.window_setWindow (s : State) (n k : Nat) (r : Window) :
    (s.setWindow n r).window k = if k = n then r else s.window k := smGet_set _ _ _ _ _
theorem State.chan_setChan (s : State) (n k : Nat) (r : DmaChan) : (s.setChan n r).chan k = if k = n then r else s.chan k :=
  smGet_set _ _ _ _ _
theorem State.cam_setCam (s : State) (n k : Nat) (r : Cam) : (s.setCam n r).cam k = if k = n then r else s.cam k :=
  smGet_set _ _ _ _ _
theorem State.group_setGroup (s : State) (n k : Nat) (r : Group) :
    (s.setGroup n r).group k = if k = n then r else s.group k := smGet_set _ _ _ _ _
theorem State.unit_setUnit (s : State) (n k : Nat) (r : FUnit) : (s.setUnit n r).unit k = if k = n then r else s.unit k :=
  smGet_set _ _ _ _ _
theorem State.zone_setZone (s : State) (n k : Nat) (r : Zone) : (s.setZone n r).zone k = if k = n then r else s.zone k :=
  smGet_set _ _ _ _ _
theorem State.tt_setTt (s : State) (n k : Nat) (r : Tt) : (s.setTt n r).tt k = if k = n then r else s.tt k :=
  smGet_set _ _ _ _ _
theorem State.mapEntry_setMapEntry (s : State) (n k : Nat) (r : MapEntry) :
    (s.setMapEntry n r).mapEntry k = if k = n then r else s.mapEntry k := smGet_set _ _ _ _ _
theorem State.perfCount_setPerf (s : State) (n k v : Nat) :
    (s.setPerf n v).perfCount k = if k = n then v else s.perfCount k := by
  split
  · subst k; exact smGet_set_self _ _ _ _
  · exact smGet_set_other _ _ _ _ _ _ ‹_›

/-! The answer of a command. -/

theorem whenUp_up (s : State) (f : State → State) (h : s.pow.power = .up) :
    whenUp s f = .next { f s with pending := s.pending } := by simp [whenUp, answer, h]

theorem whenUp_not (s : State) (f : State → State) (h : s.pow.power ≠ .up) : whenUp s f = .next s := by
  simp [whenUp, answer, h]

/-- A fold of changes keeps what each change keeps. -/
theorem State.each_keeps {α β : Type} (g : State → β) (s : State) (l : List α) (f : State → α → State)
    (h : ∀ s x, g (f s x) = g s) : g (s.each l f) = g s := by
  induction l generalizing s with
  | nil => rfl
  | cons x xs ih => exact (ih (f s x)).trans (h s x)

end Sys2Proof.Machine
end

