-- ==== Sys2Proof/Laws/Flags.lean ====
section
/-! SUPPORT. What raising an event can do to registers: it writes registers of block EVT and no others. -/

namespace Sys2Proof.Machine

/-- A register of block EVT (0xA0000 to 0xAFFFF). -/
def evtReg (a : Nat) : Prop := 0xA0000 ≤ a ∧ a < 0xB0000

theorem State.fld_lt_eight (s : State) (f : Fld) (h : f.hi - f.lo + 1 = 3) : s.fld f < 8 := by
  have := s.fld_lt f
  rw [h] at this
  omega

theorem setAsleep_reg (s : State) (l : Link) (b : Bool) (a : Nat) (ha : ¬evtReg a) : (setAsleep s l b).reg a = s.reg a := by
  unfold evtReg at ha
  cases l <;> simp only [setAsleep] <;> apply State.reg_setFld_other <;>
    simp only [F.evtLinkSleepAAsleep, F.evtLinkSleepBAsleep, A.evtLinkSleep] <;> omega

theorem State.reg_congr {s t : State} (h : t.regs = s.regs) (a : Nat) : t.reg a = s.reg a := by
  simp only [State.reg, h]

theorem wakeLink_reg (s : State) (l : Link) (a : Nat) (ha : ¬evtReg a) : (wakeLink s l).reg a = s.reg a := by
  have h1 : (setAsleep (s.emit (.tc10Wakeup l)) l false).reg a = s.reg a :=
    (setAsleep_reg _ _ _ _ ha).trans (State.reg_congr rfl a)
  simp only [wakeLink]
  split
  · exact h1
  · exact Eq.trans (State.reg_congr rfl a) h1

theorem wakeSome_reg (s : State) (a : Nat) (ha : ¬evtReg a) : (wakeSome s).reg a = s.reg a := by
  unfold wakeSome
  repeat' split
  · rfl
  · exact wakeLink_reg _ _ _ ha
  · exact wakeLink_reg _ _ _ ha

theorem wakeRequest_reg (s : State) (a : Nat) (ha : ¬evtReg a) : (wakeRequest s).reg a = s.reg a :=
  (wakeSome_reg _ _ ha).trans (State.reg_congr rfl a)

theorem wakeFor_reg (s : State) (k a : Nat) (ha : ¬evtReg a) : (wakeFor s k).reg a = s.reg a := by
  have h3 : s.fld (F.evtSrcCfgQueue k) < 8 := s.fld_lt_eight _ rfl
  unfold wakeFor
  dsimp only
  split
  · rw [wakeRequest_reg _ _ ha]
    generalize s.fld (F.evtSrcCfgQueue k) = q at *
    have h4 : (s.setFld (F.evtQctlState q) 2).reg a = s.reg a := by
      apply State.reg_setFld_other
      unfold evtReg at ha
      simp only [F.evtQctlState, A.evtQctl]
      omega
    generalize s.setFld (F.evtQctlState q) 2 = t at *
    exact h4
  · rfl

theorem wakeAll_reg (s : State) (a : Nat) (ha : ¬evtReg a) : (wakeAll s).reg a = s.reg a :=
  State.each_keeps (fun s => s.reg a) s _ _ (fun s k => wakeFor_reg s k a ha)

theorem markSpi_reg (s : State) (k a : Nat) (hk : k < 4096) (ha : ¬evtReg a) : (markSpi s k).reg a = s.reg a := by
  unfold markSpi
  split
  · apply State.reg_setFld_other
    unfold evtReg at ha
    simp only [F.evtSrcStatSpiFlag, A.evtSrcStat]
    omega
  · rfl

theorem countOccurrence_reg (s : State) (k : Nat) (r : Bool) (a : Nat) (hk : k < 4096) (ha : ¬evtReg a) :
    (countOccurrence s k r).reg a = s.reg a := by
  have h1 : a ≠ A.evtSrcStat k := by unfold evtReg at ha; simp only [A.evtSrcStat]; omega
  have h2 : a ≠ A.evtSaturations := by unfold evtReg at ha; simp only [A.evtSaturations]; omega
  unfold countOccurrence
  dsimp only
  split
  · exact (wakeFor_reg _ _ _ ha).trans ((State.reg_setFld_other _ _ _ _ h1).trans (State.reg_congr rfl a))
  · split
    · exact (State.reg_addFld_other _ _ _ _ h2).trans (State.reg_congr rfl a)
    · exact (State.reg_addFld_other _ _ _ _ h1).trans (State.reg_congr rfl a)

/-- Raising an event leaves every register outside block EVT as it was. -/
theorem raise_reg (s : State) (k a : Nat) (hk : k < 4096) (ha : ¬evtReg a) : (raise s k).reg a = s.reg a := by
  unfold raise
  dsimp only
  split
  · exact (countOccurrence_reg _ _ _ _ hk ha).trans (markSpi_reg _ _ _ hk ha)
  · exact markSpi_reg _ _ _ hk ha

theorem raise_fld (s : State) (k : Nat) (f : Fld) (hk : k < 4096) (ha : ¬evtReg f.addr) : (raise s k).fld f = s.fld f := by
  simp only [State.fld, raise_reg s k f.addr hk ha]

theorem setCond_reg (s : State) (k : Nat) (c : Bool) (a : Nat) (hk : k < 4096) (ha : ¬evtReg a) :
    (setCond s k c).reg a = s.reg a := by
  have h1 : a ≠ A.evtSrcStat k := by unfold evtReg at ha; simp only [A.evtSrcStat]; omega
  have h2 : (s.setFld (F.evtSrcStatAsserted k) c.toNat).reg a = s.reg a := State.reg_setFld_other _ _ _ _ h1
  unfold setCond
  dsimp only
  repeat' split
  · exact (countOccurrence_reg _ _ _ _ hk ha).trans ((markSpi_reg _ _ _ hk ha).trans h2)
  · exact (markSpi_reg _ _ _ hk ha).trans h2
  · exact h2

theorem reportCond_reg (s : State) (k : Nat) (c : Bool) (a : Nat) (hk : k < 4096) (ha : ¬evtReg a) :
    (reportCond s k c).reg a = s.reg a := by
  unfold reportCond
  split
  · exact setCond_reg _ _ _ _ hk ha
  · rfl

theorem sampleSource_reg (s : State) (k a : Nat) (hk : k < 4096) (ha : ¬evtReg a) : (sampleSource s k).reg a = s.reg a := by
  unfold sampleSource
  split
  · exact (countOccurrence_reg _ _ _ _ hk ha).trans (markSpi_reg _ _ _ hk ha)
  · rfl

end Sys2Proof.Machine
end

