-- ==== Sys2Proof/Laws/Frames.lean ====
section
/-! SUPPORT. What an operation can touch: for each operation of the machine one lemma says that the state after it is the state before
it, the parts that it can touch hidden. Here the parts as the bits of a mask, hiding, and the updates; the files Frames1 and on hold
the operations, file by file. -/

namespace Sys2Proof.Machine

/-- The set of parts as the bits of a number, in the order of `Part`. -/
def Part.mask (l : List Part) : Nat := l.foldr (fun p n => 2 ^ p.ctorIdx ||| n) 0

/-- The state with the parts of a mask taken from `d`. -/
def State.hide (s : State) (m : Nat) (d : State) : State :=
  { s with
    free := if m.testBit 0 then d.free else s.free,
    regs := if m.testBit 1 then d.regs else s.regs,
    pow := if m.testBit 2 then d.pow else s.pow,
    time := if m.testBit 3 then d.time else s.time,
    hw := if m.testBit 4 then d.hw else s.hw,
    out := if m.testBit 5 then d.out else s.out,
    rings := if m.testBit 6 then d.rings else s.rings,
    precHeld := if m.testBit 7 then d.precHeld else s.precHeld,
    precSize := if m.testBit 8 then d.precSize else s.precSize,
    queueSizes := if m.testBit 9 then d.queueSizes else s.queueSizes,
    scene := if m.testBit 10 then d.scene else s.scene,
    mem := if m.testBit 11 then d.mem else s.mem,
    lost := if m.testBit 12 then d.lost else s.lost,
    loft := if m.testBit 13 then d.loft else s.loft,
    pipes := if m.testBit 14 then d.pipes else s.pipes,
    bins := if m.testBit 15 then d.bins else s.bins,
    camLines := if m.testBit 16 then d.camLines else s.camLines,
    camLags := if m.testBit 17 then d.camLags else s.camLags,
    camEarly := if m.testBit 18 then d.camEarly else s.camEarly,
    furrowStore := if m.testBit 19 then d.furrowStore else s.furrowStore,
    gates := if m.testBit 20 then d.gates else s.gates,
    gcl := if m.testBit 21 then d.gcl else s.gcl,
    levels := if m.testBit 22 then d.levels else s.levels,
    fetches := if m.testBit 23 then d.fetches else s.fetches,
    src := if m.testBit 24 then d.src else s.src,
    sampleDue := if m.testBit 25 then d.sampleDue else s.sampleDue,
    wins := if m.testBit 26 then d.wins else s.wins,
    dma := if m.testBit 27 then d.dma else s.dma,
    dmaHalted := if m.testBit 28 then d.dmaHalted else s.dmaHalted,
    scans := if m.testBit 29 then d.scans else s.scans,
    cams := if m.testBit 30 then d.cams else s.cams,
    groups := if m.testBit 31 then d.groups else s.groups,
    light := if m.testBit 32 then d.light else s.light,
    fault := if m.testBit 33 then d.fault else s.fault,
    barn := if m.testBit 34 then d.barn else s.barn,
    perf := if m.testBit 35 then d.perf else s.perf }

theorem Part.testBit_mask (l : List Part) (p : Part) : (Part.mask l).testBit p.ctorIdx = decide (p ∈ l) := by
  induction l with
  | nil => simp [mask]
  | cons q l ih =>
    have e : Part.mask (q :: l) = 2 ^ q.ctorIdx ||| Part.mask l := rfl
    have c : q.ctorIdx = p.ctorIdx ↔ p = q :=
      ⟨fun h => by cases p <;> cases q <;> first | rfl | exact absurd h (by decide), fun h => by rw [h]⟩
    simp [e, Nat.testBit_or, ih, Nat.testBit_two_pow, c]

theorem mask_trans {a b m : Nat} (h : b ||| m = m) (e : a ||| b = b) : a ||| m = m := by
  rw [← h, ← Nat.or_assoc, e]

theorem State.hide_hide (k m : Nat) (d s : State) (h : k ||| m = m) : (s.hide k d).hide m d = s.hide m d := by
  have b : ∀ i, m.testBit i = (k.testBit i || m.testBit i) := fun i => by rw [← Nat.testBit_or, h]
  have e : ∀ {α : Type} (i : Nat) (x y : α),
      (if m.testBit i then x else if k.testBit i then x else y) = if m.testBit i then x else y := by
    intro α i x y
    rw [b i]
    cases k.testBit i <;> simp
  simp only [State.hide, e]

/-- What holds with some parts hidden holds with more of them hidden. -/
theorem State.hide_mono {k m : Nat} (h : k ||| m = m) {d s t : State} (e : t.hide k d = s.hide k d) : t.hide m d = s.hide m d := by
  rw [← hide_hide k m d t h, e, hide_hide k m d s h]

theorem testBit_of_or {i m : Nat} (h : 2 ^ i ||| m = m) : m.testBit i = true := by
  rw [← h, Nat.testBit_or, Nat.testBit_two_pow_self, Bool.true_or]

theorem State.hide_ite (m : Nat) (d : State) (c : Prop) [Decidable c] (a b : State) :
    (if c then a else b).hide m d = if c then a.hide m d else b.hide m d := by split <;> rfl

theorem State.foldl_hide {α σ : Type} (m : Nat) (d : State) (g : σ → State) (f : σ → α → σ)
    (h : ∀ x a, (g (f x a)).hide m d = (g x).hide m d) (l : List α) (x : σ) : (g (l.foldl f x)).hide m d = (g x).hide m d := by
  induction l generalizing x with
  | nil => rfl
  | cons a l ih => exact (ih (f x a)).trans (h x a)

theorem State.each_hide {α : Type} (m : Nat) (d s : State) (l : List α) (f : State → α → State)
    (h : ∀ t x, (f t x).hide m d = t.hide m d) : (s.each l f).hide m d = s.hide m d := by
  induction l generalizing s with
  | nil => rfl
  | cons x l ih => exact (ih (f s x)).trans (h s x)

/-- States that agree with the parts of a list hidden differ in those parts only. -/
theorem State.touches_of_hide (l : List Part) {m : Nat} (hm : Part.mask l = m) {s t : State} (h : ∀ d, t.hide m d = s.hide m d) :
    TouchesOnly l s t ∧ t.pending = s.pending := by
  subst hm
  refine ⟨fun p hp => ?_, by simpa only [State.hide] using congrArg State.pending (h s)⟩
  have b : (Part.mask l).testBit p.ctorIdx = false := by simpa [Part.testBit_mask] using hp
  have k : ∀ {α : Type} (i : Nat) (x y z : α), (Part.mask l).testBit i = false →
      ((if (Part.mask l).testBit i then z else x) = if (Part.mask l).testBit i then z else y) → x = y := by
    intro α i x y z b e
    simpa only [b, Bool.false_eq_true, if_false] using e
  cases p with
  | free => exact k 0 _ _ _ b (congrArg State.free (h s))
  | regs => exact k 1 _ _ _ b (congrArg State.regs (h s))
  | pow => exact k 2 _ _ _ b (congrArg State.pow (h s))
  | time => exact k 3 _ _ _ b (congrArg State.time (h s))
  | hw => exact k 4 _ _ _ b (congrArg State.hw (h s))
  | out => exact k 5 _ _ _ b (congrArg State.out (h s))
  | rings => exact k 6 _ _ _ b (congrArg State.rings (h s))
  | precHeld => exact k 7 _ _ _ b (congrArg State.precHeld (h s))
  | precSize => exact k 8 _ _ _ b (congrArg State.precSize (h s))
  | queueSizes => exact k 9 _ _ _ b (congrArg State.queueSizes (h s))
  | scene => exact k 10 _ _ _ b (congrArg State.scene (h s))
  | mem => exact k 11 _ _ _ b (congrArg State.mem (h s))
  | lost => exact k 12 _ _ _ b (congrArg State.lost (h s))
  | loft => exact k 13 _ _ _ b (congrArg State.loft (h s))
  | pipes => exact k 14 _ _ _ b (congrArg State.pipes (h s))
  | bins => exact k 15 _ _ _ b (congrArg State.bins (h s))
  | camLines => exact k 16 _ _ _ b (congrArg State.camLines (h s))
  | camLags => exact k 17 _ _ _ b (congrArg State.camLags (h s))
  | camEarly => exact k 18 _ _ _ b (congrArg State.camEarly (h s))
  | furrowStore => exact k 19 _ _ _ b (congrArg State.furrowStore (h s))
  | gates => exact k 20 _ _ _ b (congrArg State.gates (h s))
  | gcl => exact k 21 _ _ _ b (congrArg State.gcl (h s))
  | levels => exact k 22 _ _ _ b (congrArg State.levels (h s))
  | fetches => exact k 23 _ _ _ b (congrArg State.fetches (h s))
  | src => exact k 24 _ _ _ b (congrArg State.src (h s))
  | sampleDue => exact k 25 _ _ _ b (congrArg State.sampleDue (h s))
  | wins => exact k 26 _ _ _ b (congrArg State.wins (h s))
  | dma => exact k 27 _ _ _ b (congrArg State.dma (h s))
  | dmaHalted => exact k 28 _ _ _ b (congrArg State.dmaHalted (h s))
  | scans => exact k 29 _ _ _ b (congrArg State.scans (h s))
  | cams => exact k 30 _ _ _ b (congrArg State.cams (h s))
  | groups => exact k 31 _ _ _ b (congrArg State.groups (h s))
  | light => exact k 32 _ _ _ b (congrArg State.light (h s))
  | fault => exact k 33 _ _ _ b (congrArg State.fault (h s))
  | barn => exact k 34 _ _ _ b (congrArg State.barn (h s))
  | perf => exact k 35 _ _ _ b (congrArg State.perf (h s))


theorem State.hide_free (m : Nat) (d s : State) (h0 : 1 ||| m = m) (v0) :
    State.hide { s with free := v0 } m d = s.hide m d := by
  simp only [State.hide, testBit_of_or (i := 0) h0, if_true]

theorem State.hide_regs (m : Nat) (d s : State) (h0 : 2 ||| m = m) (v0) :
    State.hide { s with regs := v0 } m d = s.hide m d := by
  simp only [State.hide, testBit_of_or (i := 1) h0, if_true]

theorem State.hide_pow (m : Nat) (d s : State) (h0 : 4 ||| m = m) (v0) :
    State.hide { s with pow := v0 } m d = s.hide m d := by
  simp only [State.hide, testBit_of_or (i := 2) h0, if_true]

theorem State.hide_time (m : Nat) (d s : State) (h0 : 8 ||| m = m) (v0) :
    State.hide { s with time := v0 } m d = s.hide m d := by
  simp only [State.hide, testBit_of_or (i := 3) h0, if_true]

theorem State.hide_hw (m : Nat) (d s : State) (h0 : 16 ||| m = m) (v0) :
    State.hide { s with hw := v0 } m d = s.hide m d := by
  simp only [State.hide, testBit_of_or (i := 4) h0, if_true]

theorem State.hide_out (m : Nat) (d s : State) (h0 : 32 ||| m = m) (v0) :
    State.hide { s with out := v0 } m d = s.hide m d := by
  simp only [State.hide, testBit_of_or (i := 5) h0, if_true]

theorem State.hide_rings (m : Nat) (d s : State) (h0 : 64 ||| m = m) (v0) :
    State.hide { s with rings := v0 } m d = s.hide m d := by
  simp only [State.hide, testBit_of_or (i := 6) h0, if_true]

theorem State.hide_precHeld (m : Nat) (d s : State) (h0 : 128 ||| m = m) (v0) :
    State.hide { s with precHeld := v0 } m d = s.hide m d := by
  simp only [State.hide, testBit_of_or (i := 7) h0, if_true]

theorem State.hide_precSize (m : Nat) (d s : State) (h0 : 256 ||| m = m) (v0) :
    State.hide { s with precSize := v0 } m d = s.hide m d := by
  simp only [State.hide, testBit_of_or (i := 8) h0, if_true]

theorem State.hide_queueSizes (m : Nat) (d s : State) (h0 : 512 ||| m = m) (v0) :
    State.hide { s with queueSizes := v0 } m d = s.hide m d := by
  simp only [State.hide, testBit_of_or (i := 9) h0, if_true]

theorem State.hide_scene (m : Nat) (d s : State) (h0 : 1024 ||| m = m) (v0) :
    State.hide { s with scene := v0 } m d = s.hide m d := by
  simp only [State.hide, testBit_of_or (i := 10) h0, if_true]

theorem State.hide_mem (m : Nat) (d s : State) (h0 : 2048 ||| m = m) (v0) :
    State.hide { s with mem := v0 } m d = s.hide m d := by
  simp only [State.hide, testBit_of_or (i := 11) h0, if_true]

theorem State.hide_loft (m : Nat) (d s : State) (h0 : 8192 ||| m = m) (v0) :
    State.hide { s with loft := v0 } m d = s.hide m d := by
  simp only [State.hide, testBit_of_or (i := 13) h0, if_true]

theorem State.hide_pipes (m : Nat) (d s : State) (h0 : 16384 ||| m = m) (v0) :
    State.hide { s with pipes := v0 } m d = s.hide m d := by
  simp only [State.hide, testBit_of_or (i := 14) h0, if_true]

theorem State.hide_bins (m : Nat) (d s : State) (h0 : 32768 ||| m = m) (v0) :
    State.hide { s with bins := v0 } m d = s.hide m d := by
  simp only [State.hide, testBit_of_or (i := 15) h0, if_true]

theorem State.hide_camLines (m : Nat) (d s : State) (h0 : 65536 ||| m = m) (v0) :
    State.hide { s with camLines := v0 } m d = s.hide m d := by
  simp only [State.hide, testBit_of_or (i := 16) h0, if_true]

theorem State.hide_camLags (m : Nat) (d s : State) (h0 : 131072 ||| m = m) (v0) :
    State.hide { s with camLags := v0 } m d = s.hide m d := by
  simp only [State.hide, testBit_of_or (i := 17) h0, if_true]

theorem State.hide_camEarly (m : Nat) (d s : State) (h0 : 262144 ||| m = m) (v0) :
    State.hide { s with camEarly := v0 } m d = s.hide m d := by
  simp only [State.hide, testBit_of_or (i := 18) h0, if_true]

theorem State.hide_furrowStore (m : Nat) (d s : State) (h0 : 524288 ||| m = m) (v0) :
    State.hide { s with furrowStore := v0 } m d = s.hide m d := by
  simp only [State.hide, testBit_of_or (i := 19) h0, if_true]

theorem State.hide_gates (m : Nat) (d s : State) (h0 : 1048576 ||| m = m) (v0) :
    State.hide { s with gates := v0 } m d = s.hide m d := by
  simp only [State.hide, testBit_of_or (i := 20) h0, if_true]

theorem State.hide_gcl (m : Nat) (d s : State) (h0 : 2097152 ||| m = m) (v0) :
    State.hide { s with gcl := v0 } m d = s.hide m d := by
  simp only [State.hide, testBit_of_or (i := 21) h0, if_true]

theorem State.hide_levels (m : Nat) (d s : State) (h0 : 4194304 ||| m = m) (v0) :
    State.hide { s with levels := v0 } m d = s.hide m d := by
  simp only [State.hide, testBit_of_or (i := 22) h0, if_true]

theorem State.hide_fetches (m : Nat) (d s : State) (h0 : 8388608 ||| m = m) (v0) :
    State.hide { s with fetches := v0 } m d = s.hide m d := by
  simp only [State.hide, testBit_of_or (i := 23) h0, if_true]

theorem State.hide_src (m : Nat) (d s : State) (h0 : 16777216 ||| m = m) (v0) :
    State.hide { s with src := v0 } m d = s.hide m d := by
  simp only [State.hide, testBit_of_or (i := 24) h0, if_true]

theorem State.hide_sampleDue (m : Nat) (d s : State) (h0 : 33554432 ||| m = m) (v0) :
    State.hide { s with sampleDue := v0 } m d = s.hide m d := by
  simp only [State.hide, testBit_of_or (i := 25) h0, if_true]

theorem State.hide_wins (m : Nat) (d s : State) (h0 : 67108864 ||| m = m) (v0) :
    State.hide { s with wins := v0 } m d = s.hide m d := by
  simp only [State.hide, testBit_of_or (i := 26) h0, if_true]

theorem State.hide_dma (m : Nat) (d s : State) (h0 : 134217728 ||| m = m) (v0) :
    State.hide { s with dma := v0 } m d = s.hide m d := by
  simp only [State.hide, testBit_of_or (i := 27) h0, if_true]

theorem State.hide_dmaHalted (m : Nat) (d s : State) (h0 : 268435456 ||| m = m) (v0) :
    State.hide { s with dmaHalted := v0 } m d = s.hide m d := by
  simp only [State.hide, testBit_of_or (i := 28) h0, if_true]

theorem State.hide_scans (m : Nat) (d s : State) (h0 : 536870912 ||| m = m) (v0) :
    State.hide { s with scans := v0 } m d = s.hide m d := by
  simp only [State.hide, testBit_of_or (i := 29) h0, if_true]

theorem State.hide_cams (m : Nat) (d s : State) (h0 : 1073741824 ||| m = m) (v0) :
    State.hide { s with cams := v0 } m d = s.hide m d := by
  simp only [State.hide, testBit_of_or (i := 30) h0, if_true]

theorem State.hide_groups (m : Nat) (d s : State) (h0 : 2147483648 ||| m = m) (v0) :
    State.hide { s with groups := v0 } m d = s.hide m d := by
  simp only [State.hide, testBit_of_or (i := 31) h0, if_true]

theorem State.hide_light (m : Nat) (d s : State) (h0 : 4294967296 ||| m = m) (v0) :
    State.hide { s with light := v0 } m d = s.hide m d := by
  simp only [State.hide, testBit_of_or (i := 32) h0, if_true]

theorem State.hide_fault (m : Nat) (d s : State) (h0 : 8589934592 ||| m = m) (v0) :
    State.hide { s with fault := v0 } m d = s.hide m d := by
  simp only [State.hide, testBit_of_or (i := 33) h0, if_true]

theorem State.hide_barn (m : Nat) (d s : State) (h0 : 17179869184 ||| m = m) (v0) :
    State.hide { s with barn := v0 } m d = s.hide m d := by
  simp only [State.hide, testBit_of_or (i := 34) h0, if_true]

theorem State.hide_perf (m : Nat) (d s : State) (h0 : 34359738368 ||| m = m) (v0) :
    State.hide { s with perf := v0 } m d = s.hide m d := by
  simp only [State.hide, testBit_of_or (i := 35) h0, if_true]

theorem State.hide_pow_sampleDue (m : Nat) (d s : State) (h0 : 4 ||| m = m) (h1 : 33554432 ||| m = m) (v0) (v1) :
    State.hide { s with pow := v0, sampleDue := v1 } m d = s.hide m d := by
  simp only [State.hide, testBit_of_or (i := 2) h0, testBit_of_or (i := 25) h1, if_true]

theorem State.hide_scene_loft (m : Nat) (d s : State) (h0 : 1024 ||| m = m) (h1 : 8192 ||| m = m) (v0) (v1) :
    State.hide { s with scene := v0, loft := v1 } m d = s.hide m d := by
  simp only [State.hide, testBit_of_or (i := 10) h0, testBit_of_or (i := 13) h1, if_true]

theorem State.hide_mem_lost (m : Nat) (d s : State) (h0 : 2048 ||| m = m) (h1 : 4096 ||| m = m) (v0) (v1) :
    State.hide { s with mem := v0, lost := v1 } m d = s.hide m d := by
  simp only [State.hide, testBit_of_or (i := 11) h0, testBit_of_or (i := 12) h1, if_true]

theorem State.hide_camEarly_fetches (m : Nat) (d s : State) (h0 : 262144 ||| m = m) (h1 : 8388608 ||| m = m) (v0) (v1) :
    State.hide { s with camEarly := v0, fetches := v1 } m d = s.hide m d := by
  simp only [State.hide, testBit_of_or (i := 18) h0, testBit_of_or (i := 23) h1, if_true]

theorem State.hide_pow_pipes_light (m : Nat) (d s : State) (h0 : 4 ||| m = m) (h1 : 16384 ||| m = m) (h2 : 4294967296 ||| m = m)
    (v0) (v1) (v2) :
    State.hide { s with pow := v0, pipes := v1, light := v2 } m d = s.hide m d := by
  simp only [State.hide, testBit_of_or (i := 2) h0, testBit_of_or (i := 14) h1, testBit_of_or (i := 32) h2, if_true]

theorem State.hide_camLines_camLags_camEarly (m : Nat) (d s : State) (h0 : 65536 ||| m = m) (h1 : 131072 ||| m = m)
    (h2 : 262144 ||| m = m) (v0) (v1) (v2) :
    State.hide { s with camLines := v0, camLags := v1, camEarly := v2 } m d = s.hide m d := by
  simp only [State.hide, testBit_of_or (i := 16) h0, testBit_of_or (i := 17) h1, testBit_of_or (i := 18) h2, if_true]

theorem State.hide_camLines_camLags_camEarly_fetches (m : Nat) (d s : State) (h0 : 65536 ||| m = m) (h1 : 131072 ||| m = m)
    (h2 : 262144 ||| m = m) (h3 : 8388608 ||| m = m) (v0) (v1) (v2) (v3) :
    State.hide { s with camLines := v0, camLags := v1, camEarly := v2, fetches := v3 } m d = s.hide m d := by
  simp only [State.hide, testBit_of_or (i := 16) h0, testBit_of_or (i := 17) h1, testBit_of_or (i := 18) h2,
      testBit_of_or (i := 23) h3, if_true]

theorem State.hide_bins_camLines_camEarly_furrowStore_fetches (m : Nat) (d s : State) (h0 : 32768 ||| m = m)
    (h1 : 65536 ||| m = m) (h2 : 262144 ||| m = m) (h3 : 524288 ||| m = m) (h4 : 8388608 ||| m = m) (v0) (v1) (v2) (v3) (v4) :
    State.hide { s with bins := v0, camLines := v1, camEarly := v2, furrowStore := v3, fetches := v4 } m d = s.hide m d := by
  simp only [State.hide, testBit_of_or (i := 15) h0, testBit_of_or (i := 16) h1, testBit_of_or (i := 18) h2,
      testBit_of_or (i := 19) h3, testBit_of_or (i := 23) h4, if_true]

end Sys2Proof.Machine
end

