-- ==== Sys2Proof/Laws/Frames1.lean ====
section
/-! SUPPORT. What the operations of these files can touch (see Frames):
Ops, Flags, Send, RingBase, Timing, Layers, Staging, Gates, Light, Sched, Ports, Commit. -/

set_option linter.all false

namespace Sys2Proof.Machine

/-! Ops. -/

/-- Parts: regs. -/
theorem State.setReg_hide {m : Nat} (h : 2 ||| m = m) (d : State) (s : State) (x1 : _) (x2 : _) :
    State.hide (State.setReg s x1 x2) m d = s.hide m d :=
  State.hide_mono h (by
    unfold State.setReg
    simp only [State.hide_regs, Nat.reduceOr])

/-- Parts: regs. -/
theorem State.setShadow_hide {m : Nat} (h : 2 ||| m = m) (d : State) (s : State) (x1 : _) (x2 : _) :
    State.hide (State.setShadow s x1 x2) m d = s.hide m d :=
  State.hide_mono h (by
    unfold State.setShadow
    simp only [State.hide_regs, Nat.reduceOr])

/-- Parts: regs. -/
theorem State.setFld_hide {m : Nat} (h : 2 ||| m = m) (d : State) (s : State) (x1 : _) (x2 : _) :
    State.hide (State.setFld s x1 x2) m d = s.hide m d :=
  State.hide_mono h (by
    unfold State.setFld
    simp only [State.setReg_hide, Nat.reduceOr])

/-- Parts: regs. -/
theorem State.addFld_hide {m : Nat} (h : 2 ||| m = m) (d : State) (s : State) (x1 : _) (x2 : _) :
    State.hide (State.addFld s x1 x2) m d = s.hide m d :=
  State.hide_mono h (by
    unfold State.addFld
    simp only [State.setFld_hide, Nat.reduceOr])

/-- Parts: regs. -/
theorem State.setFbit_hide {m : Nat} (h : 2 ||| m = m) (d : State) (s : State) (x1 : _) (x2 : _) (x3 : _) :
    State.hide (State.setFbit s x1 x2 x3) m d = s.hide m d :=
  State.hide_mono h (by
    unfold State.setFbit
    simp only [State.setFld_hide, Nat.reduceOr])

/-- Parts: regs. -/
theorem State.setReg64_hide {m : Nat} (h : 2 ||| m = m) (d : State) (s : State) (x1 : _) (x2 : _) :
    State.hide (State.setReg64 s x1 x2) m d = s.hide m d :=
  State.hide_mono h (by
    unfold State.setReg64
    simp only [State.setReg_hide, Nat.reduceOr])

/-- Parts: rings. -/
theorem State.setRing_hide {m : Nat} (h : 0x40 ||| m = m) (d : State) (s : State) (x1 : _) (x2 : _) :
    State.hide (State.setRing s x1 x2) m d = s.hide m d :=
  State.hide_mono h (by
    unfold State.setRing
    simp only [State.hide_rings, Nat.reduceOr])

/-- Parts: pipes. -/
theorem State.setPipe_hide {m : Nat} (h : 0x4000 ||| m = m) (d : State) (s : State) (x1 : _) (x2 : _) :
    State.hide (State.setPipe s x1 x2) m d = s.hide m d :=
  State.hide_mono h (by
    unfold State.setPipe
    simp only [State.hide_pipes, Nat.reduceOr])

/-- Parts: gates. -/
theorem State.setGate_hide {m : Nat} (h : 0x100000 ||| m = m) (d : State) (s : State) (x1 : _) (x2 : _) :
    State.hide (State.setGate s x1 x2) m d = s.hide m d :=
  State.hide_mono h (by
    unfold State.setGate
    simp only [State.hide_gates, Nat.reduceOr])

/-- Parts: src. -/
theorem State.setSource_hide {m : Nat} (h : 0x1000000 ||| m = m) (d : State) (s : State) (x1 : _) (x2 : _) :
    State.hide (State.setSource s x1 x2) m d = s.hide m d :=
  State.hide_mono h (by
    unfold State.setSource
    simp only [State.hide_src, Nat.reduceOr])

/-- Parts: wins. -/
theorem State.setWindow_hide {m : Nat} (h : 0x4000000 ||| m = m) (d : State) (s : State) (x1 : _) (x2 : _) :
    State.hide (State.setWindow s x1 x2) m d = s.hide m d :=
  State.hide_mono h (by
    unfold State.setWindow
    simp only [State.hide_wins, Nat.reduceOr])

/-- Parts: dma. -/
theorem State.setChan_hide {m : Nat} (h : 0x8000000 ||| m = m) (d : State) (s : State) (x1 : _) (x2 : _) :
    State.hide (State.setChan s x1 x2) m d = s.hide m d :=
  State.hide_mono h (by
    unfold State.setChan
    simp only [State.hide_dma, Nat.reduceOr])

/-- Parts: cams. -/
theorem State.setCam_hide {m : Nat} (h : 0x40000000 ||| m = m) (d : State) (s : State) (x1 : _) (x2 : _) :
    State.hide (State.setCam s x1 x2) m d = s.hide m d :=
  State.hide_mono h (by
    unfold State.setCam
    simp only [State.hide_cams, Nat.reduceOr])

/-- Parts: groups. -/
theorem State.setGroup_hide {m : Nat} (h : 0x80000000 ||| m = m) (d : State) (s : State) (x1 : _) (x2 : _) :
    State.hide (State.setGroup s x1 x2) m d = s.hide m d :=
  State.hide_mono h (by
    unfold State.setGroup
    simp only [State.hide_groups, Nat.reduceOr])

/-- Parts: fault. -/
theorem State.setUnit_hide {m : Nat} (h : 0x200000000 ||| m = m) (d : State) (s : State) (x1 : _) (x2 : _) :
    State.hide (State.setUnit s x1 x2) m d = s.hide m d :=
  State.hide_mono h (by
    unfold State.setUnit
    simp only [State.hide_fault, Nat.reduceOr])

/-- Parts: light. -/
theorem State.setZone_hide {m : Nat} (h : 0x100000000 ||| m = m) (d : State) (s : State) (x1 : _) (x2 : _) :
    State.hide (State.setZone s x1 x2) m d = s.hide m d :=
  State.hide_mono h (by
    unfold State.setZone
    simp only [State.hide_light, Nat.reduceOr])

/-- Parts: light. -/
theorem State.setTt_hide {m : Nat} (h : 0x100000000 ||| m = m) (d : State) (s : State) (x1 : _) (x2 : _) :
    State.hide (State.setTt s x1 x2) m d = s.hide m d :=
  State.hide_mono h (by
    unfold State.setTt
    simp only [State.hide_light, Nat.reduceOr])

/-- Parts: light. -/
theorem State.setMapEntry_hide {m : Nat} (h : 0x100000000 ||| m = m) (d : State) (s : State) (x1 : _) (x2 : _) :
    State.hide (State.setMapEntry s x1 x2) m d = s.hide m d :=
  State.hide_mono h (by
    unfold State.setMapEntry
    simp only [State.hide_light, Nat.reduceOr])

/-- Parts: out. -/
theorem State.emit_hide {m : Nat} (h : 0x20 ||| m = m) (d : State) (s : State) (x1 : _) :
    State.hide (State.emit s x1) m d = s.hide m d :=
  State.hide_mono h (by
    unfold State.emit
    simp only [State.hide_out, Nat.reduceOr])

/-- Parts: free. -/
theorem State.freshen_hide {m : Nat} (h : 1 ||| m = m) (d : State) (s : State) :
    State.hide (State.freshen s) m d = s.hide m d :=
  State.hide_mono h (by
    unfold State.freshen
    simp only [State.hide_free, Nat.reduceOr])

/-- Parts: mem. -/
theorem State.memPut_hide {m : Nat} (h : 0x800 ||| m = m) (d : State) (s : State) (x1 : _) (x2 : _) :
    State.hide (State.memPut s x1 x2) m d = s.hide m d :=
  State.hide_mono h (by
    fun_induction State.memPut s x1 x2
    all_goals first
      | rfl
      | simp only [State.hide_mem, Nat.reduceOr, *]
      | ((repeat' split) <;> first | rfl | simp only [State.hide_mem, Nat.reduceOr, *]))

/-- Parts: mem, scans. -/
theorem State.store_hide {m : Nat} (h : 0x20000800 ||| m = m) (d : State) (s : State) (x1 : _) (x2 : _) :
    State.hide (State.store s x1 x2) m d = s.hide m d :=
  State.hide_mono h (by
    unfold State.store
    simp only [State.memPut_hide, State.hide_scans, Nat.reduceOr])

/-- Parts: free, mem, lost. -/
theorem State.loseMemory_hide {m : Nat} (h : 0x1801 ||| m = m) (d : State) (s : State) (x1 : _) :
    State.hide (State.loseMemory s x1) m d = s.hide m d :=
  State.hide_mono h (by
    unfold State.loseMemory
    simp only [State.freshen_hide, State.hide_mem_lost, Nat.reduceOr])

/-- Parts: perf. -/
theorem State.setPerf_hide {m : Nat} (h : 0x800000000 ||| m = m) (d : State) (s : State) (x1 : _) (x2 : _) :
    State.hide (State.setPerf s x1 x2) m d = s.hide m d :=
  State.hide_mono h (by
    unfold State.setPerf
    simp only [State.hide_perf, Nat.reduceOr])

/-- Parts: perf. -/
theorem State.perfAdd_hide {m : Nat} (h : 0x800000000 ||| m = m) (d : State) (s : State) (x1 : _) (x2 : _) :
    State.hide (State.perfAdd s x1 x2) m d = s.hide m d :=
  State.hide_mono h (by
    unfold State.perfAdd
    simp only [State.setPerf_hide, State.hide_ite, ite_self, Nat.reduceOr])

/-- Parts: perf. -/
theorem State.perfMax_hide {m : Nat} (h : 0x800000000 ||| m = m) (d : State) (s : State) (x1 : _) (x2 : _) :
    State.hide (State.perfMax s x1 x2) m d = s.hide m d :=
  State.hide_mono h (by
    unfold State.perfMax
    simp only [State.setPerf_hide, Nat.reduceOr])

/-- Parts: perf. -/
theorem State.perfMin_hide {m : Nat} (h : 0x800000000 ||| m = m) (d : State) (s : State) (x1 : _) (x2 : _) :
    State.hide (State.perfMin s x1 x2) m d = s.hide m d :=
  State.hide_mono h (by
    unfold State.perfMin
    simp only [State.setPerf_hide, Nat.reduceOr])

/-! Flags. -/

/-- Parts: regs. -/
theorem setAsleep_hide {m : Nat} (h : 2 ||| m = m) (d : State) (s : State) (x1 : _) (x2 : _) :
    State.hide (setAsleep s x1 x2) m d = s.hide m d :=
  State.hide_mono h (by
    unfold setAsleep
    repeat' split
    all_goals simp only [State.setFld_hide, Nat.reduceOr])

/-- Parts: regs, hw, out. -/
theorem wakeLink_hide {m : Nat} (h : 0x32 ||| m = m) (d : State) (s : State) (x1 : _) :
    State.hide (wakeLink s x1) m d = s.hide m d :=
  State.hide_mono h (by
    unfold wakeLink
    simp only [State.emit_hide, setAsleep_hide, State.hide_hw, State.hide_ite, ite_self, Nat.reduceOr])

/-- Parts: regs, hw, out. -/
theorem wakeSome_hide {m : Nat} (h : 0x32 ||| m = m) (d : State) (s : State) :
    State.hide (wakeSome s) m d = s.hide m d :=
  State.hide_mono h (by
    unfold wakeSome
    simp only [wakeLink_hide, State.hide_ite, ite_self, Nat.reduceOr])

/-- Parts: regs, pow, hw, out. -/
theorem wakeRequest_hide {m : Nat} (h : 0x36 ||| m = m) (d : State) (s : State) :
    State.hide (wakeRequest s) m d = s.hide m d :=
  State.hide_mono h (by
    unfold wakeRequest
    simp only [State.emit_hide, wakeSome_hide, State.hide_pow, Nat.reduceOr])

/-- Parts: regs, pow, hw, out. -/
theorem wakeFor_hide {m : Nat} (h : 0x36 ||| m = m) (d : State) (s : State) (x1 : _) :
    State.hide (wakeFor s x1) m d = s.hide m d :=
  State.hide_mono h (by
    unfold wakeFor
    simp only [State.setFld_hide, wakeRequest_hide, State.hide_hw, State.hide_ite, ite_self, Nat.reduceOr])

/-- Parts: regs, pow, hw, out. -/
theorem wakeAll_hide {m : Nat} (h : 0x36 ||| m = m) (d : State) (s : State) :
    State.hide (wakeAll s) m d = s.hide m d :=
  State.hide_mono h (by
    unfold wakeAll
    refine State.each_hide _ _ _ _ _ fun _ _ => ?_
    repeat' split
    all_goals first | rfl | simp only [wakeFor_hide, State.each_hide, Nat.reduceOr])

/-- Parts: regs, pow, hw, out, src. -/
theorem countOccurrence_hide {m : Nat} (h : 0x1000036 ||| m = m) (d : State) (s : State) (x1 : _) (x2 : _) :
    State.hide (countOccurrence s x1 x2) m d = s.hide m d :=
  State.hide_mono h (by
    unfold countOccurrence
    simp only [State.addFld_hide, State.setFld_hide, State.setSource_hide, wakeFor_hide, State.hide_ite, ite_self, Nat.reduceOr])

/-- Parts: regs. -/
theorem markSpi_hide {m : Nat} (h : 2 ||| m = m) (d : State) (s : State) (x1 : _) :
    State.hide (markSpi s x1) m d = s.hide m d :=
  State.hide_mono h (by
    unfold markSpi
    simp only [State.setFld_hide, State.hide_ite, ite_self, Nat.reduceOr])

/-- Parts: regs, pow, hw, out, src. -/
theorem raise_hide {m : Nat} (h : 0x1000036 ||| m = m) (d : State) (s : State) (x1 : _) :
    State.hide (raise s x1) m d = s.hide m d :=
  State.hide_mono h (by
    unfold raise
    simp only [countOccurrence_hide, markSpi_hide, State.hide_ite, ite_self, Nat.reduceOr])

/-- Parts: regs, pow, hw, out, src. -/
theorem setCond_hide {m : Nat} (h : 0x1000036 ||| m = m) (d : State) (s : State) (x1 : _) (x2 : _) :
    State.hide (setCond s x1 x2) m d = s.hide m d :=
  State.hide_mono h (by
    unfold setCond
    simp only [State.setFld_hide, countOccurrence_hide, markSpi_hide, State.hide_ite, ite_self, Nat.reduceOr])

/-- Parts: regs, pow, hw, out, src. -/
theorem reportCond_hide {m : Nat} (h : 0x1000036 ||| m = m) (d : State) (s : State) (x1 : _) (x2 : _) :
    State.hide (reportCond s x1 x2) m d = s.hide m d :=
  State.hide_mono h (by
    unfold reportCond
    simp only [setCond_hide, State.hide_ite, ite_self, Nat.reduceOr])

/-- Parts: regs, pow, hw, out, src. -/
theorem sampleSource_hide {m : Nat} (h : 0x1000036 ||| m = m) (d : State) (s : State) (x1 : _) :
    State.hide (sampleSource s x1) m d = s.hide m d :=
  State.hide_mono h (by
    unfold sampleSource
    simp only [countOccurrence_hide, markSpi_hide, State.hide_ite, ite_self, Nat.reduceOr])

/-- Parts: regs, pow, hw, out, src. -/
theorem reportFull_hide {m : Nat} (h : 0x1000036 ||| m = m) (d : State) (s : State) (x1 : _) :
    State.hide (reportFull s x1) m d = s.hide m d :=
  State.hide_mono h (by
    unfold reportFull
    simp only [reportCond_hide, Nat.reduceOr])

/-- Parts: regs, pow, hw, out, src. -/
theorem lockedWrite_hide {m : Nat} (h : 0x1000036 ||| m = m) (d : State) (s : State) (x1 : _) (x2 : _) :
    State.hide (lockedWrite s x1 x2) m d = s.hide m d :=
  State.hide_mono h (by
    unfold lockedWrite
    simp only [State.addFld_hide, State.setFld_hide, raise_hide, Nat.reduceOr])

/-- Parts: regs. -/
theorem unmapped_hide {m : Nat} (h : 2 ||| m = m) (d : State) (s : State) :
    State.hide (unmapped s) m d = s.hide m d :=
  State.hide_mono h (by
    unfold unmapped
    simp only [State.addFld_hide, Nat.reduceOr])

/-! Send. -/

/-- Parts: regs. -/
theorem setActive_hide {m : Nat} (h : 2 ||| m = m) (d : State) (s : State) (x1 : _) :
    State.hide (setActive s x1) m d = s.hide m d :=
  State.hide_mono h (by
    unfold setActive
    simp only [State.setFld_hide, Nat.reduceOr])

/-- Parts: perf. -/
theorem countTx_hide {m : Nat} (h : 0x800000000 ||| m = m) (d : State) (s : State) (x1 : _) (x2 : _) :
    State.hide (countTx s x1 x2) m d = s.hide m d :=
  State.hide_mono h (by
    unfold countTx
    simp only [State.perfAdd_hide, Nat.reduceOr])

/-- Parts: hw, out, perf. -/
theorem transmit_hide {m : Nat} (h : 0x800000030 ||| m = m) (d : State) (s : State) (x1 : _) (x2 : _) (x3 : _) (x4 : _) :
    State.hide (transmit s x1 x2 x3 x4) m d = s.hide m d :=
  State.hide_mono h (by
    unfold transmit
    repeat' split
    all_goals simp only [State.emit_hide, countTx_hide, State.hide_hw, Nat.reduceOr])

/-- Parts: hw, out, perf. -/
theorem sendUnseq_hide {m : Nat} (h : 0x800000030 ||| m = m) (d : State) (s : State) (x1 : _) (x2 : _) :
    State.hide (sendUnseq s x1 x2) m d = s.hide m d :=
  State.hide_mono h (by
    unfold sendUnseq
    simp only [transmit_hide, Nat.reduceOr])

/-- Parts: hw, out, perf. -/
theorem sendNext_hide {m : Nat} (h : 0x800000030 ||| m = m) (d : State) (s : State) :
    State.hide (sendNext s) m d = s.hide m d :=
  State.hide_mono h (by
    unfold sendNext
    repeat' split
    all_goals simp only [transmit_hide, State.hide_hw, Nat.reduceOr])

/-- Parts: hw, out, perf. -/
theorem pumpFrames_hide {m : Nat} (h : 0x800000030 ||| m = m) (d : State) (x0 : _) (s : State) :
    State.hide (pumpFrames x0 s) m d = s.hide m d :=
  State.hide_mono h (by
    fun_induction pumpFrames x0 s
    all_goals first
      | rfl
      | simp only [sendNext_hide, State.hide_ite, ite_self, Nat.reduceOr, *]
      | ((repeat' split) <;> first | rfl | simp only [sendNext_hide, State.hide_ite, ite_self, Nat.reduceOr, *]))

/-- Parts: regs. -/
theorem ontoUsable_hide {m : Nat} (h : 2 ||| m = m) (d : State) (s : State) :
    State.hide (ontoUsable s) m d = s.hide m d :=
  State.hide_mono h (by
    unfold ontoUsable
    simp only [setActive_hide, State.hide_ite, ite_self, Nat.reduceOr])

/-- Parts: regs, hw, out, perf. -/
theorem pump_hide {m : Nat} (h : 0x800000032 ||| m = m) (d : State) (s : State) :
    State.hide (pump s) m d = s.hide m d :=
  State.hide_mono h (by
    unfold pump
    simp only [ontoUsable_hide, pumpFrames_hide, wakeSome_hide, State.hide_ite, ite_self, Nat.reduceOr])

/-- Parts: regs, hw, out, perf. -/
theorem sendSeq_hide {m : Nat} (h : 0x800000032 ||| m = m) (d : State) (s : State) (x1 : _) (x2 : _) (x3 : _) :
    State.hide (sendSeq s x1 x2 x3) m d = s.hide m d :=
  State.hide_mono h (by
    unfold sendSeq
    simp only [pump_hide, State.hide_hw, State.hide_ite, ite_self, Nat.reduceOr])

/-- Parts: regs, hw, out, perf. -/
theorem writeFrame_hide {m : Nat} (h : 0x800000032 ||| m = m) (d : State) (s : State) (x1 : _) (x2 : _) :
    State.hide (writeFrame s x1 x2) m d = s.hide m d :=
  State.hide_mono h (by
    unfold writeFrame
    simp only [sendSeq_hide, Nat.reduceOr])

/-- Parts: regs, hw, out, perf. -/
theorem writePieces_hide {m : Nat} (h : 0x800000032 ||| m = m) (d : State) (x0 : _) (s : State) (x2 : _) (x3 : _) :
    State.hide (writePieces x0 s x2 x3) m d = s.hide m d :=
  State.hide_mono h (by
    fun_induction writePieces x0 s x2 x3
    all_goals first
      | rfl
      | simp only [writeFrame_hide, State.hide_ite, ite_self, Nat.reduceOr, *]
      | ((repeat' split) <;> first | rfl | simp only [writeFrame_hide, State.hide_ite, ite_self, Nat.reduceOr, *]))

/-- Parts: regs, hw, out, perf. -/
theorem writeHost_hide {m : Nat} (h : 0x800000032 ||| m = m) (d : State) (s : State) (x1 : _) (x2 : _) :
    State.hide (writeHost s x1 x2) m d = s.hide m d :=
  State.hide_mono h (by
    unfold writeHost
    simp only [writePieces_hide, Nat.reduceOr])

/-- Parts: regs, hw, out, perf. -/
theorem sendRead_hide {m : Nat} (h : 0x800000032 ||| m = m) (d : State) (s : State) (x1 : _) :
    State.hide (sendRead s x1) m d = s.hide m d :=
  State.hide_mono h (by
    unfold sendRead
    simp only [sendSeq_hide, State.hide_hw, State.hide_ite, ite_self, Nat.reduceOr])

/-- Parts: regs, hw, out, perf. -/
theorem pumpReads_hide {m : Nat} (h : 0x800000032 ||| m = m) (d : State) (s : State) :
    State.hide (pumpReads s) m d = s.hide m d :=
  State.hide_mono h (by
    unfold pumpReads
    refine State.each_hide _ _ _ _ _ fun _ _ => ?_
    repeat' split
    all_goals first | rfl | simp only [sendRead_hide, State.each_hide, Nat.reduceOr])

/-- Parts: regs, hw, out, perf. -/
theorem readHost_hide {m : Nat} (h : 0x800000032 ||| m = m) (d : State) (s : State) (x1 : _) (x2 : _) (x3 : _) :
    State.hide (readHost s x1 x2 x3) m d = s.hide m d :=
  State.hide_mono h (by
    unfold readHost
    simp only [pumpReads_hide, State.hide_hw, Nat.reduceOr])

/-- Parts: regs, pow, hw, out, src, perf. -/
theorem issueCpl_hide {m : Nat} (h : 0x801000036 ||| m = m) (d : State) (s : State) (x1 : _) (x2 : _) :
    State.hide (issueCpl s x1 x2) m d = s.hide m d :=
  State.hide_mono h (by
    unfold issueCpl
    simp only [State.setFld_hide, State.setReg_hide, raise_hide, writeHost_hide, State.hide_ite, ite_self, Nat.reduceOr])

/-- Parts: regs, pow, hw, out, rings, src, perf. -/
theorem issueHeld_hide {m : Nat} (h : 0x801000076 ||| m = m) (d : State) (x0 : _) (x1 : _) (s : State) :
    State.hide (issueHeld x0 x1 s) m d = s.hide m d :=
  State.hide_mono h (by
    fun_induction issueHeld x0 x1 s
    all_goals first
      | rfl
      | simp only [State.setRing_hide, issueCpl_hide, State.hide_ite, ite_self, Nat.reduceOr, *]
      | ((repeat' split) <;> first | rfl | simp only [State.setRing_hide, issueCpl_hide, State.hide_ite, ite_self, Nat.reduceOr,
          *]))

/-- Parts: regs, pow, hw, out, rings, src, perf. -/
theorem drainRing_hide {m : Nat} (h : 0x801000076 ||| m = m) (d : State) (s : State) (x1 : _) :
    State.hide (drainRing s x1) m d = s.hide m d :=
  State.hide_mono h (by
    unfold drainRing
    simp only [issueHeld_hide, Nat.reduceOr])

/-- Parts: hw. -/
theorem takeKey_hide {m : Nat} (h : 0x10 ||| m = m) (d : State) (s : State) :
    State.hide (takeKey s).2 m d = s.hide m d :=
  State.hide_mono h (by
    unfold takeKey
    simp only [State.hide_hw, apply_ite Prod.fst, Nat.reduceOr])

/-- Parts: rings. -/
theorem openCpl_hide {m : Nat} (h : 0x40 ||| m = m) (d : State) (s : State) (x1 : _) (x2 : _) (x3 : _) (x4 : _) (x5 : _) :
    State.hide (openCpl s x1 x2 x3 x4 x5) m d = s.hide m d :=
  State.hide_mono h (by
    unfold openCpl
    simp only [State.setRing_hide, Nat.reduceOr])

/-- Parts: regs, pow, hw, out, rings, src, perf. -/
theorem closeCpl_hide {m : Nat} (h : 0x801000076 ||| m = m) (d : State) (s : State) (x1 : _) (x2 : _) (x3 : _) (x4 : _) (x5 : _)
    (x6 : _) :
    State.hide (closeCpl s x1 x2 x3 x4 x5 x6) m d = s.hide m d :=
  State.hide_mono h (by
    unfold closeCpl
    simp only [State.setRing_hide, drainRing_hide, State.hide_ite, ite_self, Nat.reduceOr])

/-- Parts: regs, pow, hw, out, rings, src, perf. -/
theorem complete_hide {m : Nat} (h : 0x801000076 ||| m = m) (d : State) (s : State) (x1 : _) (x2 : _) (x3 : _) (x4 : _) (x5 : _)
    (x6 : _) :
    State.hide (complete s x1 x2 x3 x4 x5 x6) m d = s.hide m d :=
  State.hide_mono h (by
    unfold complete
    simp only [closeCpl_hide, openCpl_hide, takeKey_hide, apply_ite Prod.fst, Nat.reduceOr])

/-- Parts: regs, precHeld. -/
theorem setPrecHeld_hide {m : Nat} (h : 0x82 ||| m = m) (d : State) (s : State) (x1 : _) (x2 : _) :
    State.hide (setPrecHeld s x1 x2) m d = s.hide m d :=
  State.hide_mono h (by
    unfold setPrecHeld
    simp only [State.setFld_hide, State.hide_precHeld, Nat.reduceOr])

/-- Parts: regs, hw, out, perf. -/
theorem issuePrec_hide {m : Nat} (h : 0x800000032 ||| m = m) (d : State) (s : State) (x1 : _) (x2 : _) :
    State.hide (issuePrec s x1 x2) m d = s.hide m d :=
  State.hide_mono h (by
    unfold issuePrec
    simp only [State.setReg_hide, writeHost_hide, Nat.reduceOr])

/-- Parts: regs, hw, out, precHeld, perf. -/
theorem issuePrecs_hide {m : Nat} (h : 0x8000000b2 ||| m = m) (d : State) (x0 : _) (x1 : _) (s : State) :
    State.hide (issuePrecs x0 x1 s) m d = s.hide m d :=
  State.hide_mono h (by
    fun_induction issuePrecs x0 x1 s
    all_goals first
      | rfl
      | simp only [issuePrec_hide, setPrecHeld_hide, State.hide_ite, ite_self, Nat.reduceOr, *]
      | ((repeat' split) <;> first | rfl | simp only [issuePrec_hide, setPrecHeld_hide, State.hide_ite, ite_self, Nat.reduceOr, *]))

/-- Parts: regs, hw, out, precHeld, perf. -/
theorem drainPrec_hide {m : Nat} (h : 0x8000000b2 ||| m = m) (d : State) (s : State) (x1 : _) :
    State.hide (drainPrec s x1) m d = s.hide m d :=
  State.hide_mono h (by
    unfold drainPrec
    simp only [issuePrecs_hide, Nat.reduceOr])

/-- Parts: regs, pow, hw, out, precHeld, src, perf. -/
theorem pipeRecord_hide {m : Nat} (h : 0x8010000b6 ||| m = m) (d : State) (s : State) (x1 : _) (x2 : _) :
    State.hide (pipeRecord s x1 x2) m d = s.hide m d :=
  State.hide_mono h (by
    unfold pipeRecord
    simp only [drainPrec_hide, raise_hide, setPrecHeld_hide, State.hide_ite, ite_self, Nat.reduceOr])

/-- Parts: regs, pow, hw, out, src. -/
theorem noteHeld_hide {m : Nat} (h : 0x1000036 ||| m = m) (d : State) (s : State) :
    State.hide (noteHeld s) m d = s.hide m d :=
  State.hide_mono h (by
    unfold noteHeld
    simp only [State.setFld_hide, reportCond_hide, Nat.reduceOr])

/-! RingBase. -/

/-- Parts: regs, pow, hw, out, rings, src. -/
theorem haltRing_hide {m : Nat} (h : 0x1000076 ||| m = m) (d : State) (s : State) (x1 : _) (x2 : _) (x3 : _) :
    State.hide (haltRing s x1 x2 x3) m d = s.hide m d :=
  State.hide_mono h (by
    unfold haltRing
    simp only [State.setFld_hide, State.setReg_hide, State.setRing_hide, raise_hide, State.hide_ite, ite_self, Nat.reduceOr])

/-- Parts: regs, pow, hw, out, rings, src. -/
theorem endRing_hide {m : Nat} (h : 0x1000076 ||| m = m) (d : State) (s : State) (x1 : _) (x2 : _) (x3 : _) :
    State.hide (endRing s x1 x2 x3) m d = s.hide m d :=
  State.hide_mono h (by
    unfold endRing
    simp only [State.setRing_hide, haltRing_hide, State.hide_ite, ite_self, Nat.reduceOr])

/-- Parts: regs, pow, hw, out, src. -/
theorem countBad_hide {m : Nat} (h : 0x1000036 ||| m = m) (d : State) (s : State) (x1 : _) :
    State.hide (countBad s x1) m d = s.hide m d :=
  State.hide_mono h (by
    unfold countBad
    simp only [State.addFld_hide, raise_hide, Nat.reduceOr])

/-- Parts: regs, pow, hw, out, rings, src, perf. -/
theorem failSlot_hide {m : Nat} (h : 0x801000076 ||| m = m) (d : State) (s : State) (x1 : _) (x2 : _) (x3 : _) (x4 : _) (x5 : _) :
    State.hide (failSlot s x1 x2 x3 x4 x5) m d = s.hide m d :=
  State.hide_mono h (by
    unfold failSlot
    simp only [complete_hide, Nat.reduceOr])

/-- Parts: regs, hw, out, rings, perf. -/
theorem readAhead_hide {m : Nat} (h : 0x800000072 ||| m = m) (d : State) (s : State) (x1 : _) :
    State.hide (readAhead s x1) m d = s.hide m d :=
  State.hide_mono h (by
    unfold readAhead
    simp only []
    repeat' split
    all_goals first | rfl | simp only [State.setRing_hide, readHost_hide, State.hide_ite, ite_self, Nat.reduceOr])

/-- Parts: regs, pow, hw, out, rings, src, perf. -/
theorem loopStop_hide {m : Nat} (h : 0x801000076 ||| m = m) (d : State) (s : State) (x1 : _) (x2 : _) :
    State.hide (loopStop s x1 x2) m d = s.hide m d :=
  State.hide_mono h (by
    unfold loopStop
    simp only [endRing_hide, failSlot_hide, Nat.reduceOr])

/-- Parts: rings. -/
theorem stepChain_hide {m : Nat} (h : 0x40 ||| m = m) (d : State) (s : State) (x1 : _) (x2 : _) :
    State.hide (stepChain s x1 x2) m d = s.hide m d :=
  State.hide_mono h (by
    unfold stepChain
    repeat' split
    all_goals simp only [State.setRing_hide, State.hide_ite, ite_self, Nat.reduceOr])

/-! Timing. -/

/-- Parts: regs, pow, hw, out, src. -/
theorem pipeFault_hide {m : Nat} (h : 0x1000036 ||| m = m) (d : State) (s : State) (x1 : _) (x2 : _) :
    State.hide (pipeFault s x1 x2) m d = s.hide m d :=
  State.hide_mono h (by
    unfold pipeFault
    simp only [State.setFld_hide, raise_hide, Nat.reduceOr])

/-- Parts: regs, pipes. -/
theorem pllLocked_hide {m : Nat} (h : 0x4002 ||| m = m) (d : State) (s : State) (x1 : _) :
    State.hide (pllLocked s x1) m d = s.hide m d :=
  State.hide_mono h (by
    unfold pllLocked
    refine State.each_hide _ _ _ _ _ fun _ _ => ?_
    repeat' split
    all_goals first | rfl | simp only [State.setFld_hide, State.setPipe_hide, State.each_hide, State.hide_ite, ite_self,
        Nat.reduceOr])

/-- Parts: pipes. -/
theorem teEdge_hide {m : Nat} (h : 0x4000 ||| m = m) (d : State) (s : State) (x1 : _) :
    State.hide (teEdge s x1) m d = s.hide m d :=
  State.hide_mono h (by
    unfold teEdge
    simp only [State.setPipe_hide, State.hide_ite, ite_self, Nat.reduceOr])

/-- Parts: regs, pow, hw, out, src. -/
theorem setLock_hide {m : Nat} (h : 0x1000036 ||| m = m) (d : State) (s : State) (x1 : _) (x2 : _) :
    State.hide (setLock s x1 x2) m d = s.hide m d :=
  State.hide_mono h (by
    unfold setLock
    simp only [State.setFld_hide, raise_hide, State.hide_ite, ite_self, Nat.reduceOr])

/-- Parts: regs. -/
theorem setSteer_hide {m : Nat} (h : 2 ||| m = m) (d : State) (s : State) (x1 : _) (x2 : _) :
    State.hide (setSteer s x1 x2) m d = s.hide m d :=
  State.hide_mono h (by
    unfold setSteer
    simp only [State.setFld_hide, Nat.reduceOr])

/-- Parts: pipes. -/
theorem lengthen_hide {m : Nat} (h : 0x4000 ||| m = m) (d : State) (s : State) (x1 : _) (x2 : _) :
    State.hide (lengthen s x1 x2) m d = s.hide m d :=
  State.hide_mono h (by
    unfold lengthen
    simp (disch := first | simp only [Nat.reduceOr] | (intros; simp only [State.setPipe_hide, State.each_hide, State.hide_ite,
        ite_self, Nat.reduceOr] <;> done) | (intros; repeat' split) <;> simp only [State.setPipe_hide, State.each_hide,
        State.hide_ite, ite_self, Nat.reduceOr]) only [State.setPipe_hide, State.each_hide, State.hide_ite, ite_self, Nat.reduceOr])

/-- Parts: regs, pow, hw, out, pipes, src. -/
theorem acquire_hide {m : Nat} (h : 0x1004036 ||| m = m) (d : State) (s : State) (x1 : _) (x2 : _) :
    State.hide (acquire s x1 x2) m d = s.hide m d :=
  State.hide_mono h (by
    unfold acquire
    simp only [State.setPipe_hide, lengthen_hide, setLock_hide, Nat.reduceOr])

/-- Parts: regs, pow, hw, out, pipes, src. -/
theorem track_hide {m : Nat} (h : 0x1004036 ||| m = m) (d : State) (s : State) (x1 : _) (x2 : _) :
    State.hide (track s x1 x2) m d = s.hide m d :=
  State.hide_mono h (by
    unfold track
    simp only [State.setPipe_hide, setLock_hide, setSteer_hide, State.hide_ite, ite_self, Nat.reduceOr])

/-- Parts: regs, pow, hw, out, pipes, src. -/
theorem loseLock_hide {m : Nat} (h : 0x1004036 ||| m = m) (d : State) (s : State) (x1 : _) :
    State.hide (loseLock s x1) m d = s.hide m d :=
  State.hide_mono h (by
    unfold loseLock
    simp only [State.setPipe_hide, setLock_hide, Nat.reduceOr])

/-- Parts: regs. -/
theorem unsteer_hide {m : Nat} (h : 2 ||| m = m) (d : State) (s : State) (x1 : _) :
    State.hide (unsteer s x1) m d = s.hide m d :=
  State.hide_mono h (by
    unfold unsteer
    simp only [setSteer_hide, Nat.reduceOr])

/-- Parts: regs, pow, hw, out, src. -/
theorem endLock_hide {m : Nat} (h : 0x1000036 ||| m = m) (d : State) (s : State) (x1 : _) :
    State.hide (endLock s x1) m d = s.hide m d :=
  State.hide_mono h (by
    unfold endLock
    simp only [setLock_hide, setSteer_hide, State.hide_ite, ite_self, Nat.reduceOr])

/-- Parts: regs, pow, hw, out, pipes, src. -/
theorem lockStep_hide {m : Nat} (h : 0x1004036 ||| m = m) (d : State) (s : State) (x1 : _) :
    State.hide (lockStep s x1) m d = s.hide m d :=
  State.hide_mono h (by
    unfold lockStep
    simp only []
    repeat' split
    all_goals first | rfl | simp only [acquire_hide, endLock_hide, loseLock_hide, setLock_hide, track_hide, unsteer_hide,
        State.hide_ite, ite_self, Nat.reduceOr])

/-- Parts: regs, pow, hw, out, pipes, src. -/
theorem camLockLost_hide {m : Nat} (h : 0x1004036 ||| m = m) (d : State) (s : State) (x1 : _) :
    State.hide (camLockLost s x1) m d = s.hide m d :=
  State.hide_mono h (by
    unfold camLockLost
    simp only [loseLock_hide, State.hide_ite, ite_self, Nat.reduceOr])

/-- Parts: regs, pow, time, hw, out, src. -/
theorem ptpSync_hide {m : Nat} (h : 0x100003e ||| m = m) (d : State) (s : State) (x1 : _) (x2 : _) :
    State.hide (ptpSync s x1 x2) m d = s.hide m d :=
  State.hide_mono h (by
    unfold ptpSync
    simp only [State.addFld_hide, State.setFld_hide, raise_hide, State.hide_time, State.hide_ite, ite_self, Nat.reduceOr])

/-- Parts: regs, pow, time, hw, out, src. -/
theorem holdOver_hide {m : Nat} (h : 0x100003e ||| m = m) (d : State) (s : State) :
    State.hide (holdOver s) m d = s.hide m d :=
  State.hide_mono h (by
    unfold holdOver
    simp only [State.setFld_hide, raise_hide, State.hide_time, State.hide_ite, ite_self, Nat.reduceOr])

/-- Parts: time. -/
theorem refclkTick_hide {m : Nat} (h : 8 ||| m = m) (d : State) (s : State) :
    State.hide (refclkTick s) m d = s.hide m d :=
  State.hide_mono h (by
    unfold refclkTick
    simp only [State.hide_time, State.hide_ite, ite_self, Nat.reduceOr])

/-! Layers. -/

/-- Parts: scene. -/
theorem setBin_hide {m : Nat} (h : 0x400 ||| m = m) (d : State) (s : State) (x1 : _) :
    State.hide (setBin s x1) m d = s.hide m d :=
  State.hide_mono h (by
    unfold setBin
    simp only [State.hide_scene, Nat.reduceOr])

/-- Parts: scene. -/
theorem setDraw_hide {m : Nat} (h : 0x400 ||| m = m) (d : State) (s : State) (x1 : _) :
    State.hide (setDraw s x1) m d = s.hide m d :=
  State.hide_mono h (by
    unfold setDraw
    simp only [State.hide_scene, Nat.reduceOr])

/-- Parts: scene. -/
theorem putCtxWords_hide {m : Nat} (h : 0x400 ||| m = m) (d : State) (s : State) (x1 : _) :
    State.hide (putCtxWords s x1) m d = s.hide m d :=
  State.hide_mono h (by
    unfold putCtxWords
    simp only [State.hide_scene, State.hide_ite, ite_self, Nat.reduceOr])

/-- Parts: regs, scene. -/
theorem setOnTwin_hide {m : Nat} (h : 0x402 ||| m = m) (d : State) (s : State) (x1 : _) (x2 : _) :
    State.hide (setOnTwin s x1 x2) m d = s.hide m d :=
  State.hide_mono h (by
    unfold setOnTwin
    simp only [State.setFld_hide, State.hide_scene, State.hide_ite, ite_self, Nat.reduceOr])

/-- Parts: scene, loft. -/
theorem artOf_hide {m : Nat} (h : 0x2400 ||| m = m) (d : State) (s : State) (x1 : _) :
    State.hide (artOf s x1) m d = s.hide m d :=
  State.hide_mono h (by
    unfold artOf
    simp only [State.hide_scene_loft, State.hide_ite, ite_self, Nat.reduceOr])

/-- Parts: scene, loft. -/
theorem artFor_hide {m : Nat} (h : 0x2400 ||| m = m) (d : State) (s : State) (x1 : _) (x2 : _) :
    State.hide (artFor s x1 x2) m d = s.hide m d :=
  State.hide_mono h (by
    unfold artFor
    simp only [artOf_hide, State.hide_ite, ite_self, Nat.reduceOr])

/-! Staging. -/

/-- Parts: scene. -/
theorem State.mapScene_hide {m : Nat} (h : 0x400 ||| m = m) (d : State) (s : State) (x1 : _) :
    State.hide (State.mapScene s x1) m d = s.hide m d :=
  State.hide_mono h (by
    unfold State.mapScene
    simp only [State.hide_scene, Nat.reduceOr])

/-- Parts: scene. -/
theorem setStaging_hide {m : Nat} (h : 0x400 ||| m = m) (d : State) (s : State) (x1 : _) (x2 : _) :
    State.hide (setStaging s x1 x2) m d = s.hide m d :=
  State.hide_mono h (by
    unfold setStaging
    simp only [State.mapScene_hide, Nat.reduceOr])

/-- Parts: scene. -/
theorem keepBefore_hide {m : Nat} (h : 0x400 ||| m = m) (d : State) (s : State) (x1 : _) :
    State.hide (keepBefore s x1) m d = s.hide m d :=
  State.hide_mono h (by
    unfold keepBefore
    simp only [State.mapScene_hide, Nat.reduceOr])

/-- Parts: scene. -/
theorem backToBefore_hide {m : Nat} (h : 0x400 ||| m = m) (d : State) (s : State) (x1 : _) :
    State.hide (backToBefore s x1) m d = s.hide m d :=
  State.hide_mono h (by
    unfold backToBefore
    simp only [setStaging_hide, Nat.reduceOr])

/-- Parts: regs, pow, hw, out, rings, scene, src, perf. -/
theorem badDesc_hide {m : Nat} (h : 0x801000476 ||| m = m) (d : State) (s : State) (x1 : _) (x2 : _) (x3 : _) :
    State.hide (badDesc s x1 x2 x3) m d = s.hide m d :=
  State.hide_mono h (by
    unfold badDesc
    simp only [complete_hide, setStaging_hide, Nat.reduceOr])

/-- Parts: regs, pow, hw, out, rings, scene, src, perf. -/
theorem staged_hide {m : Nat} (h : 0x801000476 ||| m = m) (d : State) (s : State) (x1 : _) (x2 : _) (x3 : _) :
    State.hide (staged s x1 x2 x3) m d = s.hide m d :=
  State.hide_mono h (by
    unfold staged
    simp only [complete_hide, setStaging_hide, Nat.reduceOr])

/-- Parts: regs, pow, hw, out, rings, scene, src, perf. -/
theorem actLayerWords_hide {m : Nat} (h : 0x801000476 ||| m = m) (d : State) (s : State) (x1 : _) (x2 : _) :
    State.hide (actLayerWords s x1 x2) m d = s.hide m d :=
  State.hide_mono h (by
    unfold actLayerWords
    simp only [badDesc_hide, staged_hide, State.hide_ite, ite_self, Nat.reduceOr])

/-- Parts: regs, pow, hw, out, rings, scene, src, perf. -/
theorem actObjWords_hide {m : Nat} (h : 0x801000476 ||| m = m) (d : State) (s : State) (x1 : _) (x2 : _) :
    State.hide (actObjWords s x1 x2) m d = s.hide m d :=
  State.hide_mono h (by
    unfold actObjWords
    simp only [badDesc_hide, staged_hide, State.hide_ite, ite_self, Nat.reduceOr])

/-- Parts: regs, pow, hw, out, rings, scene, src, perf. -/
theorem actMatrix_hide {m : Nat} (h : 0x801000476 ||| m = m) (d : State) (s : State) (x1 : _) (x2 : _) :
    State.hide (actMatrix s x1 x2) m d = s.hide m d :=
  State.hide_mono h (by
    unfold actMatrix
    simp only [badDesc_hide, staged_hide, State.hide_ite, ite_self, Nat.reduceOr])

/-- Parts: regs, pow, hw, out, rings, scene, src, perf. -/
theorem actLoftLoad_hide {m : Nat} (h : 0x801000476 ||| m = m) (d : State) (s : State) (x1 : _) (x2 : _) :
    State.hide (actLoftLoad s x1 x2) m d = s.hide m d :=
  State.hide_mono h (by
    unfold actLoftLoad
    simp only [badDesc_hide, staged_hide, State.hide_ite, ite_self, Nat.reduceOr])

/-- Parts: regs, pow, hw, out, rings, scene, src, perf. -/
theorem actFenceAcq_hide {m : Nat} (h : 0x801000476 ||| m = m) (d : State) (s : State) (x1 : _) (x2 : _) :
    State.hide (actFenceAcq s x1 x2) m d = s.hide m d :=
  State.hide_mono h (by
    unfold actFenceAcq
    simp only [badDesc_hide, staged_hide, State.hide_ite, ite_self, Nat.reduceOr])

/-- Parts: regs, hw, out, perf. -/
theorem readPieces_hide {m : Nat} (h : 0x800000032 ||| m = m) (d : State) (s : State) (x1 : _) (x2 : _) (x3 : _) (x4 : _) :
    State.hide (readPieces s x1 x2 x3 x4) m d = s.hide m d :=
  State.hide_mono h (by
    unfold readPieces
    refine State.each_hide _ _ _ _ _ fun _ _ => ?_
    repeat' split
    all_goals first | rfl | simp only [readHost_hide, State.each_hide, Nat.reduceOr])

/-- Parts: regs, pow, hw, out, rings, scene, src, perf. -/
theorem beginContent_hide {m : Nat} (h : 0x801000476 ||| m = m) (d : State) (s : State) (x1 : _) (x2 : _) :
    State.hide (beginContent s x1 x2) m d = s.hide m d :=
  State.hide_mono h (by
    unfold beginContent
    simp only []
    repeat' split
    all_goals first | rfl | simp only [State.setRing_hide, badDesc_hide, openCpl_hide, readPieces_hide, takeKey_hide,
        apply_ite Prod.fst, Nat.reduceOr])

/-- Parts: regs, pow, hw, out, rings, scene, src, perf. -/
theorem actLayerBlock_hide {m : Nat} (h : 0x801000476 ||| m = m) (d : State) (s : State) (x1 : _) (x2 : _) :
    State.hide (actLayerBlock s x1 x2) m d = s.hide m d :=
  State.hide_mono h (by
    unfold actLayerBlock
    simp only [beginContent_hide, Nat.reduceOr])

/-- Parts: regs, pow, hw, out, rings, scene, src, perf. -/
theorem actObjBlock_hide {m : Nat} (h : 0x801000476 ||| m = m) (d : State) (s : State) (x1 : _) (x2 : _) :
    State.hide (actObjBlock s x1 x2) m d = s.hide m d :=
  State.hide_mono h (by
    unfold actObjBlock
    simp only [beginContent_hide, Nat.reduceOr])

/-- Parts: regs, pow, hw, out, rings, scene, src, perf. -/
theorem actLutLoad_hide {m : Nat} (h : 0x801000476 ||| m = m) (d : State) (s : State) (x1 : _) (x2 : _) :
    State.hide (actLutLoad s x1 x2) m d = s.hide m d :=
  State.hide_mono h (by
    unfold actLutLoad
    simp only [beginContent_hide, Nat.reduceOr])

/-- Parts: rings. -/
theorem endContent_hide {m : Nat} (h : 0x40 ||| m = m) (d : State) (s : State) (x1 : _) (x2 : _) :
    State.hide (endContent s x1 x2) m d = s.hide m d :=
  State.hide_mono h (by
    unfold endContent
    simp only [State.setRing_hide, stepChain_hide, Nat.reduceOr])

/-- Parts: regs, pow, hw, out, rings, scene, src, perf. -/
theorem contentArrived_hide {m : Nat} (h : 0x801000476 ||| m = m) (d : State) (s : State) (x1 : _) (x2 : _) (x3 : _) (x4 : _) :
    State.hide (contentArrived s x1 x2 x3 x4) m d = s.hide m d :=
  State.hide_mono h (by
    unfold contentArrived
    repeat' split
    all_goals simp only [State.setRing_hide, closeCpl_hide, endContent_hide, setStaging_hide, State.hide_ite, ite_self,
        Nat.reduceOr])

/-- Parts: regs, pow, hw, out, rings, scene, src, perf. -/
theorem contentFaulted_hide {m : Nat} (h : 0x801000476 ||| m = m) (d : State) (s : State) (x1 : _) (x2 : _) :
    State.hide (contentFaulted s x1 x2) m d = s.hide m d :=
  State.hide_mono h (by
    unfold contentFaulted
    repeat' split
    all_goals simp only [closeCpl_hide, endContent_hide, setStaging_hide, State.hide_ite, ite_self, Nat.reduceOr])

/-- Parts: scene. -/
theorem startProof_hide {m : Nat} (h : 0x400 ||| m = m) (d : State) (s : State) :
    State.hide (startProof s) m d = s.hide m d :=
  State.hide_mono h (by
    unfold startProof
    repeat' split
    all_goals simp only [State.mapScene_hide, State.hide_ite, ite_self, Nat.reduceOr])

/-- Parts: scene. -/
theorem submit_hide {m : Nat} (h : 0x400 ||| m = m) (d : State) (s : State) (x1 : _) :
    State.hide (submit s x1) m d = s.hide m d :=
  State.hide_mono h (by
    unfold submit
    simp only [State.mapScene_hide, startProof_hide, Nat.reduceOr])

/-- Parts: hw, rings, scene. -/
theorem handCommit_hide {m : Nat} (h : 0x450 ||| m = m) (d : State) (s : State) (x1 : _) (x2 : _) :
    State.hide (handCommit s x1 x2) m d = s.hide m d :=
  State.hide_mono h (by
    unfold handCommit
    simp only [openCpl_hide, setStaging_hide, submit_hide, takeKey_hide, apply_ite Prod.fst, Nat.reduceOr])

/-- Parts: regs, pow, hw, out, rings, scene, src, perf. -/
theorem actCommit_hide {m : Nat} (h : 0x801000476 ||| m = m) (d : State) (s : State) (x1 : _) (x2 : _) :
    State.hide (actCommit s x1 x2) m d = s.hide m d :=
  State.hide_mono h (by
    unfold actCommit
    simp only [State.setRing_hide, badDesc_hide, handCommit_hide, State.hide_ite, ite_self, Nat.reduceOr])

/-- Parts: regs, pow, hw, out, rings, src, perf. -/
theorem actNop_hide {m : Nat} (h : 0x801000076 ||| m = m) (d : State) (s : State) (x1 : _) (x2 : _) :
    State.hide (actNop s x1 x2) m d = s.hide m d :=
  State.hide_mono h (by
    unfold actNop
    simp only [complete_hide, Nat.reduceOr])

/-- Parts: regs, pow, hw, out, rings, scene, src, perf. -/
theorem actJump_hide {m : Nat} (h : 0x801000476 ||| m = m) (d : State) (s : State) (x1 : _) (x2 : _) :
    State.hide (actJump s x1 x2) m d = s.hide m d :=
  State.hide_mono h (by
    unfold actJump
    simp only [State.setRing_hide, badDesc_hide, complete_hide, countBad_hide, State.hide_ite, ite_self, Nat.reduceOr])

/-! Gates. -/

/-- Parts: regs, pow, hw, out, gates, src. -/
theorem startGate_hide {m : Nat} (h : 0x1100036 ||| m = m) (d : State) (s : State) (x1 : _) (x2 : _) (x3 : _) (x4 : _) :
    State.hide (startGate s x1 x2 x3 x4) m d = s.hide m d :=
  State.hide_mono h (by
    unfold startGate
    simp only [State.addFld_hide, State.setGate_hide, raise_hide, State.hide_ite, ite_self, Nat.reduceOr])

/-- Parts: regs, pow, hw, out, gates, src. -/
theorem armGate_hide {m : Nat} (h : 0x1100036 ||| m = m) (d : State) (s : State) (x1 : _) (x2 : _) :
    State.hide (armGate s x1 x2) m d = s.hide m d :=
  State.hide_mono h (by
    unfold armGate
    simp only [State.setGate_hide, startGate_hide, State.hide_ite, ite_self, Nat.reduceOr])

/-- Parts: regs, pow, hw, out, gates, src. -/
theorem tickWaiting_hide {m : Nat} (h : 0x1100036 ||| m = m) (d : State) (s : State) (x1 : _) (x2 : _) :
    State.hide (tickWaiting s x1 x2) m d = s.hide m d :=
  State.hide_mono h (by
    unfold tickWaiting
    simp only []
    repeat' split
    all_goals first | rfl | simp only [State.setGate_hide, startGate_hide, State.hide_ite, ite_self, Nat.reduceOr])

/-- Parts: gates. -/
theorem tickRunning_hide {m : Nat} (h : 0x100000 ||| m = m) (d : State) (s : State) (x1 : _) (x2 : _) :
    State.hide (tickRunning s x1 x2) m d = s.hide m d :=
  State.hide_mono h (by
    unfold tickRunning
    simp only []
    repeat' split
    all_goals first | rfl | simp only [State.setGate_hide, State.hide_ite, ite_self, Nat.reduceOr])

/-- Parts: regs, pow, hw, out, gates, src. -/
theorem gateStep_hide {m : Nat} (h : 0x1100036 ||| m = m) (d : State) (s : State) (x1 : _) :
    State.hide (gateStep s x1) m d = s.hide m d :=
  State.hide_mono h (by
    unfold gateStep
    refine State.each_hide _ _ _ _ _ fun _ _ => ?_
    repeat' split
    all_goals first | rfl | simp only [tickRunning_hide, tickWaiting_hide, State.each_hide, State.hide_ite, ite_self, Nat.reduceOr])

/-- Parts: gates. -/
theorem gateRecheck_hide {m : Nat} (h : 0x100000 ||| m = m) (d : State) (s : State) (x1 : _) :
    State.hide (gateRecheck s x1) m d = s.hide m d :=
  State.hide_mono h (by
    unfold gateRecheck
    simp (disch := (intros; repeat' split) <;> simp only [State.setGate_hide, State.each_hide, State.hide_ite, ite_self,
        Nat.reduceOr]) only [State.setGate_hide, State.each_hide, State.hide_ite, ite_self, Nat.reduceOr])

/-! Light. -/

/-- Parts: light. -/
theorem startBlink_hide {m : Nat} (h : 0x100000000 ||| m = m) (d : State) (s : State) :
    State.hide (startBlink s) m d = s.hide m d :=
  State.hide_mono h (by
    unfold startBlink
    simp only [State.hide_light, State.hide_ite, ite_self, Nat.reduceOr])

/-- Parts: light. -/
theorem refreshTelltales_hide {m : Nat} (h : 0x100000000 ||| m = m) (d : State) (s : State) :
    State.hide (refreshTelltales s) m d = s.hide m d :=
  State.hide_mono h (by
    unfold refreshTelltales
    simp (disch := (intros; simp only [State.setTt_hide, startBlink_hide, State.each_hide, State.hide_ite, ite_self,
        Nat.reduceOr])) only [State.setTt_hide, startBlink_hide, State.each_hide, State.hide_ite, ite_self, Nat.reduceOr])

/-- Parts: regs, pow, hw, out, src, light, and those of its operand. -/
theorem changeForce_hide {m : Nat} (h : 0x101000036 ||| m = m) (d : State) (s : State) (x1 : _) (hx : ∀ t,
    (x1 t).hide m d = t.hide m d) :
    State.hide (changeForce s x1) m d = s.hide m d := by
  unfold changeForce
  simp (disch := exact mask_trans h (by decide)) only [refreshTelltales_hide, raise_hide, State.hide_ite, ite_self, hx]

/-- Parts: light. -/
theorem putCause_hide {m : Nat} (h : 0x100000000 ||| m = m) (d : State) (s : State) (x1 : _) (x2 : _) (x3 : _) :
    State.hide (putCause s x1 x2 x3) m d = s.hide m d :=
  State.hide_mono h (by
    unfold putCause
    simp only [State.hide_light, Nat.reduceOr])

/-- Parts: regs, pow, hw, out, src, light. -/
theorem forceFrame_hide {m : Nat} (h : 0x101000036 ||| m = m) (d : State) (s : State) (x1 : _) (x2 : _) :
    State.hide (forceFrame s x1 x2) m d = s.hide m d :=
  State.hide_mono h (by
    unfold forceFrame
    simp (disch := (intros; simp only [changeForce_hide, putCause_hide, Nat.reduceOr])) only [changeForce_hide, putCause_hide,
        Nat.reduceOr])

/-- Parts: regs, pow, hw, out, src, light. -/
theorem forceHold_hide {m : Nat} (h : 0x101000036 ||| m = m) (d : State) (s : State) (x1 : _) (x2 : _) (x3 : _) :
    State.hide (forceHold s x1 x2 x3) m d = s.hide m d :=
  State.hide_mono h (by
    unfold forceHold
    simp (disch := (intros; simp only [changeForce_hide, putCause_hide, State.hide_ite, ite_self,
        Nat.reduceOr])) only [changeForce_hide, putCause_hide, State.hide_ite, ite_self, Nat.reduceOr])

/-- Parts: regs, pow, hw, out, src, light. -/
theorem forceFrameEnd_hide {m : Nat} (h : 0x101000036 ||| m = m) (d : State) (s : State) (x1 : _) :
    State.hide (forceFrameEnd s x1) m d = s.hide m d :=
  State.hide_mono h (by
    exact changeForce_hide (by decide) _ _ _ (fun _ => State.each_hide _ _ _ _ _ fun _ _ => putCause_hide (by decide) _ _ _ _ _))

/-- Parts: regs, pow, hw, out, src, light. -/
theorem forceSw_hide {m : Nat} (h : 0x101000036 ||| m = m) (d : State) (s : State) (x1 : _) :
    State.hide (forceSw s x1) m d = s.hide m d :=
  State.hide_mono h (by
    unfold forceSw
    simp (disch := (intros; simp only [State.setFld_hide, changeForce_hide, Nat.reduceOr])) only [State.setFld_hide,
        changeForce_hide, Nat.reduceOr])

/-- Parts: regs, pow, hw, out, src. -/
theorem setTtFault_hide {m : Nat} (h : 0x1000036 ||| m = m) (d : State) (s : State) (x1 : _) (x2 : _) :
    State.hide (setTtFault s x1 x2) m d = s.hide m d :=
  State.hide_mono h (by
    unfold setTtFault
    simp only [State.setFld_hide, raise_hide, State.hide_ite, ite_self, Nat.reduceOr])

/-- Parts: regs, pow, hw, out, src, light. -/
theorem ttPass_hide {m : Nat} (h : 0x101000036 ||| m = m) (d : State) (s : State) (x1 : _) :
    State.hide (ttPass s x1) m d = s.hide m d :=
  State.hide_mono h (by
    unfold ttPass
    simp only [State.setTt_hide, setTtFault_hide, Nat.reduceOr])

/-- Parts: light. -/
theorem blinkStep_hide {m : Nat} (h : 0x100000000 ||| m = m) (d : State) (s : State) (x1 : _) :
    State.hide (blinkStep s x1) m d = s.hide m d :=
  State.hide_mono h (by
    unfold blinkStep
    simp only [State.hide_light, State.hide_ite, ite_self, Nat.reduceOr])

/-- Parts: light. -/
theorem entryReceives_hide {m : Nat} (h : 0x100000000 ||| m = m) (d : State) (s : State) (x1 : _) (x2 : _) (x3 : _) (x4 : _)
    (x5 : _) :
    State.hide (entryReceives s x1 x2 x3 x4 x5) m d = s.hide m d :=
  State.hide_mono h (by
    unfold entryReceives
    repeat' split
    all_goals simp only [State.setMapEntry_hide, State.hide_ite, ite_self, Nat.reduceOr])

/-- Parts: regs. -/
theorem zoneReport_hide {m : Nat} (h : 2 ||| m = m) (d : State) (s : State) (x1 : _) :
    State.hide (zoneReport s x1) m d = s.hide m d :=
  State.hide_mono h (by
    unfold zoneReport
    simp only [State.setFld_hide, Nat.reduceOr])

/-- Parts: light. -/
theorem zoneNext_hide {m : Nat} (h : 0x100000000 ||| m = m) (d : State) (s : State) (x1 : _) (x2 : _) :
    State.hide (zoneNext s x1 x2) m d = s.hide m d :=
  State.hide_mono h (by
    unfold zoneNext
    simp only [State.setZone_hide, State.hide_ite, ite_self, Nat.reduceOr])

/-- Parts: regs, pow, hw, out, src, light. -/
theorem zoneUpdate_hide {m : Nat} (h : 0x101000036 ||| m = m) (d : State) (s : State) (x1 : _) :
    State.hide (zoneUpdate s x1) m d = s.hide m d :=
  State.hide_mono h (by
    unfold zoneUpdate
    simp (disch := (intros; simp only [raise_hide, zoneNext_hide, zoneReport_hide, State.each_hide, State.hide_ite, ite_self,
        Nat.reduceOr])) only [raise_hide, zoneNext_hide, zoneReport_hide, State.each_hide, State.hide_ite, ite_self, Nat.reduceOr])

/-- Parts: regs, light. -/
theorem zoneStart_hide {m : Nat} (h : 0x100000002 ||| m = m) (d : State) (s : State) (x1 : _) (x2 : _) (x3 : _) (x4 : _) (x5 : _) :
    State.hide (zoneStart s x1 x2 x3 x4 x5) m d = s.hide m d :=
  State.hide_mono h (by
    unfold zoneStart
    simp only [State.setFld_hide, State.setZone_hide, State.hide_ite, ite_self, Nat.reduceOr])

/-- Parts: regs, light. -/
theorem zonesStart_hide {m : Nat} (h : 0x100000002 ||| m = m) (d : State) (s : State) (x1 : _) (x2 : _) (x3 : _) (x4 : _) :
    State.hide (zonesStart s x1 x2 x3 x4) m d = s.hide m d :=
  State.hide_mono h (by
    unfold zonesStart
    refine State.each_hide _ _ _ _ _ fun _ _ => ?_
    repeat' split
    all_goals first | rfl | simp only [zoneStart_hide, State.each_hide, Nat.reduceOr])

/-- Parts: light. -/
theorem zoneCount_hide {m : Nat} (h : 0x100000000 ||| m = m) (d : State) (s : State) (x1 : _) (x2 : _) (x3 : _) :
    State.hide (zoneCount s x1 x2 x3) m d = s.hide m d :=
  State.hide_mono h (by
    unfold zoneCount
    simp only [State.setZone_hide, Nat.reduceOr])

/-! Sched. -/

/-- Parts: levels. -/
theorem setLevel_hide {m : Nat} (h : 0x400000 ||| m = m) (d : State) (s : State) (x1 : _) (x2 : _) :
    State.hide (setLevel s x1 x2) m d = s.hide m d :=
  State.hide_mono h (by
    unfold setLevel
    simp only [State.hide_levels, Nat.reduceOr])

/-- Parts: levels. -/
theorem settleLevels_hide {m : Nat} (h : 0x400000 ||| m = m) (d : State) (s : State) :
    State.hide (settleLevels s) m d = s.hide m d :=
  State.hide_mono h (by
    unfold settleLevels
    refine State.each_hide _ _ _ _ _ fun _ _ => ?_
    repeat' split
    all_goals first | rfl | simp only [setLevel_hide, State.each_hide, Nat.reduceOr])

/-- Parts: regs, pow, hw, out, levels, src. -/
theorem setThrottle_hide {m : Nat} (h : 0x1400036 ||| m = m) (d : State) (s : State) (x1 : _) (x2 : _) :
    State.hide (setThrottle s x1 x2) m d = s.hide m d :=
  State.hide_mono h (by
    unfold setThrottle
    simp only [State.setFld_hide, raise_hide, settleLevels_hide, State.hide_ite, ite_self, Nat.reduceOr])

/-- Parts: levels. -/
theorem charge_hide {m : Nat} (h : 0x400000 ||| m = m) (d : State) (s : State) (x1 : _) (x2 : _) :
    State.hide (charge s x1 x2) m d = s.hide m d :=
  State.hide_mono h (by
    unfold charge
    simp only [setLevel_hide, State.hide_ite, ite_self, Nat.reduceOr])

/-- Parts: perf. -/
theorem countBytes_hide {m : Nat} (h : 0x800000000 ||| m = m) (d : State) (s : State) (x1 : _) (x2 : _) (x3 : _) (x4 : _) :
    State.hide (countBytes s x1 x2 x3 x4) m d = s.hide m d :=
  State.hide_mono h (by
    unfold countBytes
    repeat' split
    all_goals simp only [State.perfAdd_hide, Nat.reduceOr])

/-- Parts: free, perf. -/
theorem noteLead_hide {m : Nat} (h : 0x800000001 ||| m = m) (d : State) (s : State) (x1 : _) (x2 : _) :
    State.hide (noteLead s x1 x2) m d = s.hide m d :=
  State.hide_mono h (by
    unfold noteLead
    repeat' split
    all_goals simp only [State.freshen_hide, State.perfMin_hide, Nat.reduceOr])

/-- Parts: levels, perf. -/
theorem moveBytes_hide {m : Nat} (h : 0x800400000 ||| m = m) (d : State) (s : State) (x1 : _) (x2 : _) (x3 : _) :
    State.hide (moveBytes s x1 x2 x3) m d = s.hide m d :=
  State.hide_mono h (by
    unfold moveBytes
    simp only [charge_hide, countBytes_hide, Nat.reduceOr])

/-- Parts: levels, perf. -/
theorem giveBack_hide {m : Nat} (h : 0x800400000 ||| m = m) (d : State) (s : State) (x1 : _) (x2 : _) (x3 : _) :
    State.hide (giveBack s x1 x2 x3) m d = s.hide m d :=
  State.hide_mono h (by
    unfold giveBack
    repeat' split
    all_goals simp only [State.setPerf_hide, setLevel_hide, State.hide_ite, ite_self, Nat.reduceOr])

/-- Parts: regs, levels. -/
theorem shaperChange_hide {m : Nat} (h : 0x400002 ||| m = m) (d : State) (x0 : _) (s : State) :
    State.hide (shaperChange x0 s) m d = s.hide m d :=
  State.hide_mono h (by
    unfold shaperChange
    simp (disch := (intros; simp only [State.addFld_hide, setLevel_hide, State.each_hide, State.hide_ite, ite_self,
        Nat.reduceOr])) only [State.addFld_hide, setLevel_hide, State.each_hide, State.hide_ite, ite_self, Nat.reduceOr])

/-- Parts: levels. -/
theorem policeLine_hide {m : Nat} (h : 0x400000 ||| m = m) (d : State) (s : State) (x1 : _) (x2 : _) :
    State.hide (policeLine s x1 x2).1 m d = s.hide m d :=
  State.hide_mono h (by
    unfold policeLine
    simp only [setLevel_hide, State.hide_ite, ite_self, apply_ite Prod.fst, Nat.reduceOr])

/-! Ports. -/

/-- Parts: dma. -/
theorem fillBlocks_hide {m : Nat} (h : 0x8000000 ||| m = m) (d : State) (s : State) :
    State.hide (fillBlocks s) m d = s.hide m d :=
  State.hide_mono h (by
    refine State.each_hide _ _ _ _ _ fun t c => ?_
    simp only []
    split
    · rfl
    · split
      · rfl
      · exact State.setChan_hide (by decide) _ _ _ _)

/-- Parts: scene. -/
theorem fenceRead_hide {m : Nat} (h : 0x400 ||| m = m) (d : State) (s : State) (x1 : _) :
    State.hide (fenceRead s x1) m d = s.hide m d :=
  State.hide_mono h (by
    unfold fenceRead
    simp only [State.hide_scene, State.hide_ite, ite_self, Nat.reduceOr])

/-- Parts: regs, scene. -/
theorem takeTwin_hide {m : Nat} (h : 0x402 ||| m = m) (d : State) (s : State) (x1 : _) :
    State.hide (takeTwin s x1) m d = s.hide m d :=
  State.hide_mono h (by
    unfold takeTwin
    simp only [State.addFld_hide, State.hide_scene, Nat.reduceOr])

/-- Parts: regs, scene, fetches, dma, scans, cams. -/
theorem moveProgress_hide {m : Nat} (h : 0x68800402 ||| m = m) (d : State) (s : State) (x1 : _) (x2 : _) (x3 : _) :
    State.hide (moveProgress s x1 x2 x3) m d = s.hide m d :=
  State.hide_mono h (by
    unfold moveProgress
    repeat' split
    all_goals simp only [State.setCam_hide, State.setChan_hide, fenceRead_hide, takeTwin_hide, State.hide_fetches,
        State.hide_scans, State.hide_scene, State.hide_ite, ite_self, Nat.reduceOr])

/-- Parts: regs, scene, gates, levels, fetches, dma, scans, cams, perf. -/
theorem startBurst_hide {m : Nat} (h : 0x868d00402 ||| m = m) (d : State) (s : State) (x1 : _) (x2 : _) :
    State.hide (startBurst s x1 x2) m d = s.hide m d :=
  State.hide_mono h (by
    unfold startBurst
    simp only [State.setGate_hide, charge_hide, countBytes_hide, moveProgress_hide, State.hide_ite, ite_self, Nat.reduceOr])

/-- Parts: free, regs, scene, gates, fetches, dma, scans, cams. -/
theorem cutBurst_hide {m : Nat} (h : 0x68900403 ||| m = m) (d : State) (s : State) (x1 : _) :
    State.hide (cutBurst s x1) m d = s.hide m d :=
  State.hide_mono h (by
    unfold cutBurst
    repeat' split
    all_goals simp only [State.freshen_hide, State.setGate_hide, moveProgress_hide, State.hide_ite, ite_self, Nat.reduceOr])

/-- Parts: regs, scene, gates, levels, fetches, dma, scans, cams, perf. -/
theorem servePort_hide {m : Nat} (h : 0x868d00402 ||| m = m) (d : State) (x0 : _) (s : State) (x2 : _) :
    State.hide (servePort x0 s x2) m d = s.hide m d :=
  State.hide_mono h (by
    induction x0 generalizing s with
    | zero => rfl
    | succ k ih =>
      unfold servePort
      simp only []
      split
      · exact fillBlocks_hide (by decide) _ _
      · exact (ih _).trans ((startBurst_hide (by decide) _ _ _ _).trans (fillBlocks_hide (by decide) _ _)))

/-- Parts: free, regs, scene, gates, levels, fetches, dma, scans, cams, perf. -/
theorem servePorts_hide {m : Nat} (h : 0x868d00403 ||| m = m) (d : State) (s : State) :
    State.hide (servePorts s) m d = s.hide m d :=
  State.hide_mono h (by
    unfold servePorts
    simp (disch := (intros; simp only [cutBurst_hide, fillBlocks_hide, servePort_hide, State.each_hide, State.hide_ite, ite_self,
        Nat.reduceOr])) only [cutBurst_hide, fillBlocks_hide, servePort_hide, State.each_hide, State.hide_ite, ite_self,
        Nat.reduceOr])

/-- Parts: regs, scene, perf. -/
theorem twinEnds_hide {m : Nat} (h : 0x800000402 ||| m = m) (d : State) (s : State) (x1 : _) (x2 : _) :
    State.hide (twinEnds s x1 x2) m d = s.hide m d :=
  State.hide_mono h (by
    unfold twinEnds
    simp (disch := first | simp only [Nat.reduceOr] | (intros; simp only [countBytes_hide, takeTwin_hide, State.each_hide,
        State.hide_ite, ite_self, Nat.reduceOr] <;> done) | (intros; repeat' split) <;> simp only [countBytes_hide, takeTwin_hide,
        State.each_hide, State.hide_ite, ite_self, Nat.reduceOr]) only [countBytes_hide, takeTwin_hide, State.each_hide,
        State.hide_ite, ite_self, Nat.reduceOr])

/-- Parts: fetches, perf. -/
theorem fetchEnds_hide {m : Nat} (h : 0x800800000 ||| m = m) (d : State) (s : State) (x1 : _) (x2 : _) (x3 : _) :
    State.hide (fetchEnds s x1 x2 x3) m d = s.hide m d :=
  State.hide_mono h (by
    refine (State.hide_fetches _ _ _ (by decide) _).trans (State.each_hide _ _ _ _ _ fun t l => ?_)
    split
    · exact countBytes_hide (by decide) _ _ _ _ _ _
    · rfl)

/-! Commit. -/

/-- Parts: regs, pow, hw, out, src. -/
theorem pipeEvent_hide {m : Nat} (h : 0x1000036 ||| m = m) (d : State) (s : State) (x1 : _) (x2 : _) :
    State.hide (pipeEvent s x1 x2) m d = s.hide m d :=
  State.hide_mono h (by
    unfold pipeEvent
    simp only [raise_hide, Nat.reduceOr])

/-- Parts: scene. -/
theorem setArmed_hide {m : Nat} (h : 0x400 ||| m = m) (d : State) (s : State) (x1 : _) :
    State.hide (setArmed s x1) m d = s.hide m d :=
  State.hide_mono h (by
    unfold setArmed
    simp only [State.mapScene_hide, State.hide_ite, ite_self, Nat.reduceOr])

/-- Parts: scene. -/
theorem dropArmed_hide {m : Nat} (h : 0x400 ||| m = m) (d : State) (s : State) (x1 : _) :
    State.hide (dropArmed s x1) m d = s.hide m d :=
  State.hide_mono h (by
    unfold dropArmed
    simp only [State.mapScene_hide, Nat.reduceOr])

/-- Parts: regs, pow, hw, out, src. -/
theorem slotFault_hide {m : Nat} (h : 0x1000036 ||| m = m) (d : State) (s : State) (x1 : _) (x2 : _) :
    State.hide (slotFault s x1 x2) m d = s.hide m d :=
  State.hide_mono h (by
    unfold slotFault
    simp only [State.setFld_hide, raise_hide, Nat.reduceOr])

/-- Parts: pipes, fetches. -/
theorem offFrame_hide {m : Nat} (h : 0x804000 ||| m = m) (d : State) (s : State) (x1 : _) (x2 : _) :
    State.hide (offFrame s x1 x2) m d = s.hide m d :=
  State.hide_mono h (by
    unfold offFrame
    simp only [State.setPipe_hide, State.hide_fetches, State.hide_ite, ite_self, Nat.reduceOr])

/-- Parts: regs, pow, hw, out, pipes, fetches, src, light. -/
theorem holdOffPlanar_hide {m : Nat} (h : 0x101804036 ||| m = m) (d : State) (s : State) (x1 : _) (x2 : _) :
    State.hide (holdOffPlanar s x1 x2) m d = s.hide m d :=
  State.hide_mono h (by
    unfold holdOffPlanar
    simp only [State.setPipe_hide, forceHold_hide, State.hide_fetches, State.hide_ite, ite_self, Nat.reduceOr])

/-- Parts: regs, pow, hw, out, pipes, src, light. -/
theorem holdOffObject_hide {m : Nat} (h : 0x101004036 ||| m = m) (d : State) (s : State) (x1 : _) (x2 : _) :
    State.hide (holdOffObject s x1 x2) m d = s.hide m d :=
  State.hide_mono h (by
    unfold holdOffObject
    simp only [State.setPipe_hide, forceHold_hide, State.hide_ite, ite_self, Nat.reduceOr])

/-- Parts: regs, pow, hw, out, src, light. -/
theorem recheckClassS_hide {m : Nat} (h : 0x101000036 ||| m = m) (d : State) (s : State) (x1 : _) :
    State.hide (recheckClassS s x1) m d = s.hide m d :=
  State.hide_mono h (by
    unfold recheckClassS
    simp only [forceHold_hide, Nat.reduceOr])

/-- Parts: regs, pow, hw, out, scene, pipes, fetches, src, light. -/
theorem loseLayer_hide {m : Nat} (h : 0x101804436 ||| m = m) (d : State) (s : State) (x1 : _) (x2 : _) :
    State.hide (loseLayer s x1 x2) m d = s.hide m d :=
  State.hide_mono h (by
    unfold loseLayer
    simp only [State.setFld_hide, holdOffPlanar_hide, offFrame_hide, setOnTwin_hide, slotFault_hide, State.hide_fetches,
        State.hide_ite, ite_self, Nat.reduceOr])

/-- Parts: scene. -/
theorem addRelease_hide {m : Nat} (h : 0x400 ||| m = m) (d : State) (s : State) (x1 : _) :
    State.hide (addRelease s x1) m d = s.hide m d :=
  State.hide_mono h (by
    unfold addRelease
    simp only [State.mapScene_hide, Nat.reduceOr])

/-- Parts: regs, pow, hw, out, precHeld, scene, src, perf. -/
theorem flushReleases_hide {m : Nat} (h : 0x8010004b6 ||| m = m) (d : State) (s : State) (x1 : _) :
    State.hide (flushReleases s x1) m d = s.hide m d :=
  State.hide_mono h (by
    unfold flushReleases
    refine State.each_hide _ _ _ _ _ fun _ _ => ?_
    repeat' split
    all_goals first | rfl | simp only [State.mapScene_hide, pipeRecord_hide, State.each_hide, Nat.reduceOr])

/-- Parts: regs, pow, hw, out, precHeld, scene, src, perf. -/
theorem flushFlips_hide {m : Nat} (h : 0x8010004b6 ||| m = m) (d : State) (s : State) (x1 : _) :
    State.hide (flushFlips s x1) m d = s.hide m d :=
  State.hide_mono h (by
    unfold flushFlips
    refine State.each_hide _ _ _ _ _ fun _ _ => ?_
    repeat' split
    all_goals first | rfl | simp only [State.mapScene_hide, pipeEvent_hide, pipeRecord_hide, State.each_hide, Nat.reduceOr])

/-- Parts: regs, pow, hw, out, precHeld, scene, src, perf. -/
theorem drainReleases_hide {m : Nat} (h : 0x8010004b6 ||| m = m) (d : State) (s : State) :
    State.hide (drainReleases s) m d = s.hide m d :=
  State.hide_mono h (by
    unfold drainReleases
    simp only [flushFlips_hide, flushReleases_hide, Nat.reduceOr])

/-- Parts: regs, pow, hw, out, precHeld, scene, src, perf. -/
theorem releasesAtCommit_hide {m : Nat} (h : 0x8010004b6 ||| m = m) (d : State) (s : State) (x1 : _) :
    State.hide (releasesAtCommit s x1) m d = s.hide m d :=
  State.hide_mono h (by
    refine (drainReleases_hide (by decide) _ _).trans (State.each_hide _ _ _ _ _ fun t n => State.each_hide _ _ _ _ _ fun u p => ?_)
    simp only []
    split
    · exact addRelease_hide (by decide) _ _ _
    · rfl)

/-- Parts: regs, pow, hw, out, src. -/
theorem objectFault_hide {m : Nat} (h : 0x1000036 ||| m = m) (d : State) (s : State) (x1 : _) (x2 : _) :
    State.hide (objectFault s x1 x2) m d = s.hide m d :=
  State.hide_mono h (by
    unfold objectFault
    simp only [State.addFld_hide, State.setFld_hide, raise_hide, Nat.reduceOr])

/-- Parts: regs, pow, hw, out, scene, src. -/
theorem lateLoads_hide {m : Nat} (h : 0x1000436 ||| m = m) (d : State) (s : State) (x1 : _) :
    State.hide (lateLoads s x1) m d = s.hide m d :=
  State.hide_mono h (by
    unfold lateLoads
    refine State.each_hide _ _ _ _ _ fun _ _ => ?_
    repeat' split
    all_goals first | rfl | simp only [State.mapScene_hide, objectFault_hide, State.each_hide, State.hide_ite, ite_self,
        Nat.reduceOr])

/-- Parts: regs, pow, hw, out, scene, src. -/
theorem abandonLoad_hide {m : Nat} (h : 0x1000436 ||| m = m) (d : State) (s : State) (x1 : _) :
    State.hide (abandonLoad s x1) m d = s.hide m d :=
  State.hide_mono h (by
    unfold abandonLoad
    simp only [State.mapScene_hide, objectFault_hide, Nat.reduceOr])

/-- Parts: regs, pow, hw, out, scene, src. -/
theorem abandonLoads_hide {m : Nat} (h : 0x1000436 ||| m = m) (d : State) (s : State) (x1 : _) :
    State.hide (abandonLoads s x1) m d = s.hide m d :=
  State.hide_mono h (by
    unfold abandonLoads
    refine State.each_hide _ _ _ _ _ fun _ _ => ?_
    repeat' split
    all_goals first | rfl | simp only [State.mapScene_hide, abandonLoad_hide, State.each_hide, Nat.reduceOr])

/-- Parts: free, regs, pow, hw, out, precHeld, scene, loft, gates, levels, fetches, src, dma, scans, cams, perf. -/
theorem loadDone_hide {m : Nat} (h : 0x869d024b7 ||| m = m) (d : State) (s : State) (x1 : _) :
    State.hide (loadDone s x1) m d = s.hide m d :=
  State.hide_mono h (by
    unfold loadDone
    try simp only [State.addFld_hide, State.mapScene_hide, addRelease_hide, drainReleases_hide, servePorts_hide, State.hide_loft,
        State.hide_ite, ite_self, Nat.reduceOr]
    repeat' split
    all_goals try simp only [State.addFld_hide, State.mapScene_hide, addRelease_hide, drainReleases_hide, servePorts_hide,
        State.hide_loft, State.hide_ite, ite_self, Nat.reduceOr]
    all_goals repeat' split
    all_goals simp only [State.addFld_hide, State.mapScene_hide, addRelease_hide, drainReleases_hide, servePorts_hide,
        State.hide_loft, State.hide_ite, ite_self, Nat.reduceOr])

/-- Parts: regs, pow, hw, out, precHeld, scene, pipes, src, perf. -/
theorem baleFetched_hide {m : Nat} (h : 0x8010044b6 ||| m = m) (d : State) (s : State) (x1 : _) :
    State.hide (baleFetched s x1) m d = s.hide m d :=
  State.hide_mono h (by
    unfold baleFetched
    simp only [State.setPipe_hide, drainReleases_hide, State.hide_ite, ite_self, Nat.reduceOr])

/-- Parts: scene, pipes, camLines, camLags, camEarly, fetches. -/
theorem makeLeaver_hide {m : Nat} (h : 0x874400 ||| m = m) (d : State) (s : State) (x1 : _) (x2 : _) :
    State.hide (makeLeaver s x1 x2) m d = s.hide m d :=
  State.hide_mono h (by
    unfold makeLeaver
    simp only [State.mapScene_hide, State.setPipe_hide, State.hide_camLines_camLags_camEarly_fetches, State.hide_ite, ite_self,
        Nat.reduceOr])

/-- Parts: camLines, camLags, camEarly, fetches. -/
theorem takeArrived_hide {m : Nat} (h : 0x870000 ||| m = m) (d : State) (s : State) (x1 : _) (x2 : _) :
    State.hide (takeArrived s x1 x2) m d = s.hide m d :=
  State.hide_mono h (by
    unfold takeArrived
    simp only [State.hide_camLines_camLags_camEarly_fetches, Nat.reduceOr])

/-- Parts: scene, pipes, camLines, camLags, camEarly, fetches. -/
theorem dropLeaver_hide {m : Nat} (h : 0x874400 ||| m = m) (d : State) (s : State) (x1 : _) :
    State.hide (dropLeaver s x1) m d = s.hide m d :=
  State.hide_mono h (by
    unfold dropLeaver
    simp only [State.mapScene_hide, State.setPipe_hide, State.hide_camLines_camLags_camEarly_fetches, Nat.reduceOr])

/-- Parts: scene, pipes, camLines, camLags, camEarly, fetches. -/
theorem dropStrays_hide {m : Nat} (h : 0x874400 ||| m = m) (d : State) (s : State) (x1 : _) :
    State.hide (dropStrays s x1) m d = s.hide m d :=
  State.hide_mono h (by
    unfold dropStrays
    exact State.each_hide _ _ _ _ _ fun _ _ => dropLeaver_hide (by decide) _ _ _)

/-- Parts: scene. -/
theorem laySlot_hide {m : Nat} (h : 0x400 ||| m = m) (d : State) (s : State) (x1 : _) (x2 : _) (x3 : _) :
    State.hide (laySlot s x1 x2 x3) m d = s.hide m d :=
  State.hide_mono h (by
    unfold laySlot
    simp only [State.mapScene_hide, Nat.reduceOr])

/-- Parts: regs, scene, pipes. -/
theorem returnSlot_hide {m : Nat} (h : 0x4402 ||| m = m) (d : State) (s : State) (x1 : _) (x2 : _) (x3 : _) (x4 : _) :
    State.hide (returnSlot s x1 x2 x3 x4) m d = s.hide m d :=
  State.hide_mono h (by
    unfold returnSlot
    simp only [State.setPipe_hide, setOnTwin_hide, State.hide_ite, ite_self, Nat.reduceOr])

/-- Parts: regs, pow, hw, out, scene, pipes, camLines, camLags, camEarly, fetches, src, light. -/
theorem slotArrives_hide {m : Nat} (h : 0x101874436 ||| m = m) (d : State) (s : State) (x1 : _) (x2 : _) (x3 : _) (x4 : _) :
    State.hide (slotArrives s x1 x2 x3 x4) m d = s.hide m d :=
  State.hide_mono h (by
    unfold slotArrives
    simp only [State.mapScene_hide, State.setPipe_hide, laySlot_hide, makeLeaver_hide, recheckClassS_hide, returnSlot_hide,
        takeArrived_hide, State.hide_ite, ite_self, Nat.reduceOr])

/-- Parts: regs, pow, hw, out, scene, pipes, camLines, camLags, camEarly, fetches, src, light. -/
theorem applySlot_hide {m : Nat} (h : 0x101874436 ||| m = m) (d : State) (x0 : _) (x1 : _) (x2 : _) (s : State) (x4 : _) :
    State.hide (applySlot x0 x1 x2 s x4) m d = s.hide m d :=
  State.hide_mono h (by
    unfold applySlot
    simp only [State.mapScene_hide, dropLeaver_hide, laySlot_hide, returnSlot_hide, slotArrives_hide, State.hide_ite, ite_self,
        Nat.reduceOr])

/-- Parts: regs, pow, hw, out, precHeld, scene, pipes, fetches, src, light, perf. -/
theorem darken_hide {m : Nat} (h : 0x9018044b6 ||| m = m) (d : State) (s : State) (x1 : _) (x2 : _) :
    State.hide (darken s x1 x2) m d = s.hide m d :=
  State.hide_mono h (by
    unfold darken
    simp (disch := (intros; simp only [State.mapScene_hide, State.setPipe_hide, addRelease_hide, drainReleases_hide,
        recheckClassS_hide, setOnTwin_hide, State.hide_fetches, State.each_hide, Nat.reduceOr])) only [State.mapScene_hide,
        State.setPipe_hide, addRelease_hide, drainReleases_hide, recheckClassS_hide, setOnTwin_hide, State.hide_fetches,
        State.each_hide, Nat.reduceOr])

/-- Parts: scene. -/
theorem dropOff_hide {m : Nat} (h : 0x400 ||| m = m) (d : State) (s : State) (x1 : _) (x2 : _) :
    State.hide (dropOff s x1 x2) m d = s.hide m d :=
  State.hide_mono h (by
    unfold dropOff
    simp only [State.mapScene_hide, State.hide_ite, ite_self, Nat.reduceOr])

/-- Parts: scene. -/
theorem leavePipe_hide {m : Nat} (h : 0x400 ||| m = m) (d : State) (s : State) (x1 : _) (x2 : _) :
    State.hide (leavePipe s x1 x2) m d = s.hide m d :=
  State.hide_mono h (by
    unfold leavePipe
    simp only [State.mapScene_hide, State.hide_pipes, State.hide_ite, ite_self, Nat.reduceOr])

/-- Parts: regs, pow, hw, out, scene, pipes, src. -/
theorem applyRest_hide {m : Nat} (h : 0x1004436 ||| m = m) (d : State) (s : State) (x1 : _) (x2 : _) (x3 : _) :
    State.hide (applyRest s x1 x2 x3) m d = s.hide m d :=
  State.hide_mono h (by
    unfold applyRest
    simp (disch := first | simp only [Nat.reduceOr] | (intros; simp only [State.mapScene_hide, State.setPipe_hide,
        abandonLoad_hide, dropOff_hide, putCtxWords_hide, setBin_hide, State.each_hide,
        Nat.reduceOr] <;> done) | (intros; repeat' split) <;> simp only [State.mapScene_hide, State.setPipe_hide,
        abandonLoad_hide, dropOff_hide, putCtxWords_hide, setBin_hide, State.each_hide, Nat.reduceOr]) only [State.mapScene_hide,
        State.setPipe_hide, abandonLoad_hide, dropOff_hide, putCtxWords_hide, setBin_hide, State.each_hide, Nat.reduceOr])

/-- Parts: regs, pow, hw, out, scene, src. -/
theorem flipOf_hide {m : Nat} (h : 0x1000436 ||| m = m) (d : State) (s : State) (x1 : _) (x2 : _) (x3 : _) :
    State.hide (flipOf s x1 x2 x3) m d = s.hide m d :=
  State.hide_mono h (by
    unfold flipOf
    simp only [State.mapScene_hide, pipeEvent_hide, State.hide_ite, ite_self, Nat.reduceOr])

/-- Parts: regs, pow, hw, out, precHeld, scene, pipes, camLines, camLags, camEarly, fetches, src, light, perf. -/
theorem applyPart_hide {m : Nat} (h : 0x9018744b6 ||| m = m) (d : State) (s : State) (x1 : _) (x2 : _) (x3 : _) (x4 : _) :
    State.hide (applyPart s x1 x2 x3 x4) m d = s.hide m d :=
  State.hide_mono h (by
    have e : ∀ (t : State) l, (t.each l fun s n => s.each [0, 1, 2,
        3] fun s m => if mcInService s m then s else loseLayer s m n).hide
        0x9018744b6 d = t.hide 0x9018744b6 d := by
      intro t l
      refine State.each_hide _ _ _ _ _ fun u n => State.each_hide _ _ _ _ _ fun w m => ?_
      split
      · rfl
      · exact loseLayer_hide (by decide) _ _ _ _
    have e' : ∀ (t : State) l b w, (t.each l (applySlot b w x2)).hide 0x9018744b6 d = t.hide 0x9018744b6 d :=
      fun t l b w => State.each_hide _ _ _ _ _ fun _ _ => applySlot_hide (by decide) _ _ _ _ _ _
    unfold applyPart
    split
    · rfl
    · simp only [e, e', applyRest_hide, State.setPipe_hide, recheckClassS_hide, forceHold_hide, pipeFault_hide, flipOf_hide,
        leavePipe_hide, darken_hide, State.hide_ite, ite_self, Nat.reduceOr])

/-- Parts: scene. -/
theorem askFences_hide {m : Nat} (h : 0x400 ||| m = m) (d : State) (s : State) (x1 : _) :
    State.hide (askFences s x1) m d = s.hide m d :=
  State.hide_mono h (by
    unfold askFences
    simp only [setArmed_hide, State.hide_ite, ite_self, Nat.reduceOr])

/-- Parts: scene. -/
theorem queueReadmit_hide {m : Nat} (h : 0x400 ||| m = m) (d : State) (s : State) (x1 : _) (x2 : _) :
    State.hide (queueReadmit s x1 x2) m d = s.hide m d :=
  State.hide_mono h (by
    unfold queueReadmit
    simp only [State.mapScene_hide, State.hide_ite, ite_self, Nat.reduceOr])

/-- Parts: regs, pow, hw, out, precHeld, scene, pipes, camLines, camLags, camEarly, fetches, src, light, perf. -/
theorem applyStopped_hide {m : Nat} (h : 0x9018744b6 ||| m = m) (d : State) (s : State) (x1 : _) :
    State.hide (applyStopped s x1) m d = s.hide m d :=
  State.hide_mono h (by
    unfold applyStopped
    repeat' split
    all_goals simp (disch := (intros; repeat' split) <;> simp only [applyPart_hide, releasesAtCommit_hide, setArmed_hide,
        State.each_hide, State.hide_ite, ite_self, Nat.reduceOr]) only [applyPart_hide, releasesAtCommit_hide, setArmed_hide,
        State.each_hide, State.hide_ite, ite_self, Nat.reduceOr])

/-- Parts: regs, pow, hw, out, precHeld, scene, pipes, camLines, camLags, camEarly, fetches, src, light, perf. -/
theorem applyToStopped_hide {m : Nat} (h : 0x9018744b6 ||| m = m) (d : State) (s : State) (x1 : _) :
    State.hide (applyToStopped s x1) m d = s.hide m d :=
  State.hide_mono h (by
    unfold applyToStopped
    repeat' split
    all_goals simp (disch := (intros; repeat' split) <;> simp only [applyPart_hide, State.each_hide, State.hide_ite, ite_self,
        Nat.reduceOr]) only [applyPart_hide, State.each_hide, State.hide_ite, ite_self, Nat.reduceOr])

/-- Parts: scene. -/
theorem addPart_hide {m : Nat} (h : 0x400 ||| m = m) (d : State) (s : State) (x1 : _) :
    State.hide (addPart s x1) m d = s.hide m d :=
  State.hide_mono h (by
    unfold addPart
    simp only [State.mapScene_hide, Nat.reduceOr])

/-- Parts: scene. -/
theorem admitScene_hide {m : Nat} (h : 0x400 ||| m = m) (d : State) (s : State) (x1 : _) (x2 : _) :
    State.hide (admitScene s x1 x2) m d = s.hide m d :=
  State.hide_mono h (by
    unfold admitScene
    simp (disch := first | simp only [Nat.reduceOr] | (intros; simp only [State.mapScene_hide, addPart_hide, State.each_hide,
        Nat.reduceOr] <;> done) | (intros; repeat' split) <;> simp only [State.mapScene_hide, addPart_hide, State.each_hide,
        Nat.reduceOr]) only [State.mapScene_hide, addPart_hide, State.each_hide, Nat.reduceOr])

/-- Parts: scene. -/
theorem askStopped_hide {m : Nat} (h : 0x400 ||| m = m) (d : State) (s : State) (x1 : _) :
    State.hide (askStopped s x1) m d = s.hide m d :=
  State.hide_mono h (by
    unfold askStopped
    repeat' split
    all_goals simp only [askFences_hide, State.hide_ite, ite_self, Nat.reduceOr])

/-- Parts: free, regs, pow, hw, out, precHeld, scene, pipes, camLines, camLags, camEarly, gates, levels, fetches, src, dma, scans,
    cams, light, perf. -/
theorem armScene_hide {m : Nat} (h : 0x969d744b7 ||| m = m) (d : State) (s : State) (x1 : _) :
    State.hide (armScene s x1) m d = s.hide m d :=
  State.hide_mono h (by
    unfold armScene
    exact (queueReadmit_hide (by decide) _ _ _ _).trans ((State.each_hide _ _ _ _ _ (fun _ _ => applyStopped_hide (by decide) _ _ _)).trans
      ((servePorts_hide (by decide) _ _).trans ((State.each_hide _ _ _ _ _ (fun _ _ => askStopped_hide (by decide) _ _ _)).trans
        (State.mapScene_hide (by decide) _ _ _)))))

/-- Parts: regs, pow, hw, out, levels, src. -/
theorem liftHolds_hide {m : Nat} (h : 0x1400036 ||| m = m) (d : State) (s : State) (x1 : _) :
    State.hide (liftHolds s x1) m d = s.hide m d :=
  State.hide_mono h (by
    unfold liftHolds
    simp only [setThrottle_hide, State.hide_ite, ite_self, Nat.reduceOr])

/-- Parts: free, regs, pow, hw, out, precHeld, scene, pipes, camLines, camLags, camEarly, gates, levels, fetches, src, dma, scans,
    cams, light, perf. -/
theorem armWritten_hide {m : Nat} (h : 0x969d744b7 ||| m = m) (d : State) (s : State) :
    State.hide (armWritten s) m d = s.hide m d :=
  State.hide_mono h (by
    unfold armWritten
    simp (disch := first | simp only [Nat.reduceOr] | (intros; simp only [State.mapScene_hide, armScene_hide, liftHolds_hide,
        State.each_hide, Nat.reduceOr] <;> done) | (intros; repeat' split) <;> simp only [State.mapScene_hide, armScene_hide,
        liftHolds_hide, State.each_hide, Nat.reduceOr]) only [State.mapScene_hide, armScene_hide, liftHolds_hide, State.each_hide,
        Nat.reduceOr])

/-- Parts: free, regs, pow, hw, out, rings, precHeld, scene, pipes, camLines, camLags, camEarly, gates, levels, fetches, src, dma,
    scans, cams, light, perf. -/
theorem sceneProved_hide {m : Nat} (h : 0x969d744f7 ||| m = m) (d : State) (s : State) :
    State.hide (sceneProved s) m d = s.hide m d :=
  State.hide_mono h (by
    unfold sceneProved
    repeat' split
    all_goals simp only [State.addFld_hide, State.mapScene_hide, State.setFld_hide, State.setReg_hide, admitScene_hide,
        armWritten_hide, closeCpl_hide, raise_hide, startProof_hide, State.hide_ite, ite_self, Nat.reduceOr])

/-- Parts: regs, pow, hw, out, precHeld, scene, src, perf. -/
theorem dropPart_hide {m : Nat} (h : 0x8010004b6 ||| m = m) (d : State) (s : State) (x1 : _) (x2 : _) :
    State.hide (dropPart s x1 x2) m d = s.hide m d :=
  State.hide_mono h (by
    unfold dropPart
    refine State.each_hide _ _ _ _ _ fun _ _ => ?_
    repeat' split
    all_goals first | rfl | simp only [State.addFld_hide, dropArmed_hide, pipeEvent_hide, pipeRecord_hide, State.each_hide,
        Nat.reduceOr])

/-- Parts: regs, pow, hw, out, precHeld, scene, src, perf. -/
theorem slipPart_hide {m : Nat} (h : 0x8010004b6 ||| m = m) (d : State) (s : State) (x1 : _) :
    State.hide (slipPart s x1) m d = s.hide m d :=
  State.hide_mono h (by
    unfold slipPart
    simp (disch := first | simp only [Nat.reduceOr] | (intros; simp only [State.addFld_hide, State.perfAdd_hide, dropPart_hide,
        pipeEvent_hide, setArmed_hide, State.each_hide, State.hide_ite, ite_self,
        Nat.reduceOr] <;> done) | (intros; repeat' split) <;> simp only [State.addFld_hide, State.perfAdd_hide, dropPart_hide,
        pipeEvent_hide, setArmed_hide, State.each_hide, State.hide_ite, ite_self, Nat.reduceOr]) only [State.addFld_hide,
        State.perfAdd_hide, dropPart_hide, pipeEvent_hide, setArmed_hide, State.each_hide, State.hide_ite, ite_self, Nat.reduceOr])

/-- Parts: camEarly, fetches. -/
theorem dropAhead_hide {m : Nat} (h : 0x840000 ||| m = m) (d : State) (s : State) (x1 : _) :
    State.hide (dropAhead s x1) m d = s.hide m d :=
  State.hide_mono h (by
    unfold dropAhead
    simp only [State.hide_camEarly_fetches, Nat.reduceOr])

/-- Parts: regs, pow, hw, out, precHeld, scene, pipes, camLines, camLags, camEarly, fetches, src, light, perf. -/
theorem decidePart_hide {m : Nat} (h : 0x9018744b6 ||| m = m) (d : State) (s : State) (x1 : _) :
    State.hide (decidePart s x1) m d = s.hide m d :=
  State.hide_mono h (by
    unfold decidePart
    repeat' split
    all_goals simp only [applyToStopped_hide, dropAhead_hide, releasesAtCommit_hide, setArmed_hide, slipPart_hide, State.hide_ite,
        ite_self, Nat.reduceOr])

/-- Parts: regs, pow, hw, out, precHeld, scene, pipes, camLines, camLags, camEarly, fetches, src, light, perf. -/
theorem decideParts_hide {m : Nat} (h : 0x9018744b6 ||| m = m) (d : State) (s : State) :
    State.hide (decideParts s) m d = s.hide m d :=
  State.hide_mono h (by
    unfold decideParts
    simp (disch := first | simp only [Nat.reduceOr] | (intros; simp only [applyStopped_hide, decidePart_hide, State.each_hide,
        Nat.reduceOr] <;> done) | (intros; repeat' split) <;> simp only [applyStopped_hide, decidePart_hide, State.each_hide,
        Nat.reduceOr]) only [applyStopped_hide, decidePart_hide, State.each_hide, Nat.reduceOr])

/-- Parts: regs, pow, hw, out, precHeld, scene, src, perf. -/
theorem endWait_hide {m : Nat} (h : 0x8010004b6 ||| m = m) (d : State) (s : State) (x1 : _) :
    State.hide (endWait s x1) m d = s.hide m d :=
  State.hide_mono h (by
    unfold endWait
    simp only [slipPart_hide, Nat.reduceOr])

/-- Parts: free, regs, pow, hw, out, precHeld, scene, pipes, camLines, camLags, camEarly, gates, levels, fetches, src, dma, scans,
    cams, light, perf. -/
theorem deadlineParts_hide {m : Nat} (h : 0x969d744b7 ||| m = m) (d : State) (s : State) (x1 : _) :
    State.hide (deadlineParts s x1) m d = s.hide m d :=
  State.hide_mono h (by
    unfold deadlineParts
    simp (disch := first | simp only [Nat.reduceOr] | (intros; simp only [askFences_hide, decideParts_hide, servePorts_hide,
        State.each_hide, Nat.reduceOr] <;> done) | (intros; repeat' split) <;> simp only [askFences_hide, decideParts_hide,
        servePorts_hide, State.each_hide, Nat.reduceOr]) only [askFences_hide, decideParts_hide, servePorts_hide, State.each_hide,
        Nat.reduceOr])

/-- Parts: free, regs, pow, hw, out, precHeld, scene, pipes, camLines, camLags, camEarly, gates, levels, fetches, src, dma, scans,
    cams, light, perf. -/
theorem fencePoll_hide {m : Nat} (h : 0x969d744b7 ||| m = m) (d : State) (s : State) :
    State.hide (fencePoll s) m d = s.hide m d :=
  State.hide_mono h (by
    unfold fencePoll
    simp (disch := (intros; repeat' split) <;> simp only [askStopped_hide, decideParts_hide, readHost_hide, servePorts_hide,
        State.each_hide, Nat.reduceOr]) only [askStopped_hide, decideParts_hide, readHost_hide, servePorts_hide, State.each_hide,
        Nat.reduceOr])

/-- Parts: regs, pow, hw, out, precHeld, scene, pipes, camLines, camLags, camEarly, fetches, src, light, perf. -/
theorem fenceArrived_hide {m : Nat} (h : 0x9018744b6 ||| m = m) (d : State) (s : State) (x1 : _) (x2 : _) (x3 : _) :
    State.hide (fenceArrived s x1 x2 x3) m d = s.hide m d :=
  State.hide_mono h (by
    unfold fenceArrived
    simp (disch := (intros; simp only [applyStopped_hide, setArmed_hide, State.each_hide, State.hide_ite, ite_self,
        Nat.reduceOr])) only [applyStopped_hide, setArmed_hide, State.each_hide, State.hide_ite, ite_self, Nat.reduceOr])

/-- Parts: regs, pow, hw, out, precHeld, scene, pipes, fetches, src, light, perf. -/
theorem enterFallback_hide {m : Nat} (h : 0x9018044b6 ||| m = m) (d : State) (s : State) (x1 : _) (x2 : _) :
    State.hide (enterFallback s x1 x2) m d = s.hide m d :=
  State.hide_mono h (by
    unfold enterFallback
    simp only [State.setPipe_hide, darken_hide, raise_hide, Nat.reduceOr])

/-- Parts: pipes. -/
theorem requestFallback_hide {m : Nat} (h : 0x4000 ||| m = m) (d : State) (s : State) (x1 : _) :
    State.hide (requestFallback s x1) m d = s.hide m d :=
  State.hide_mono h (by
    unfold requestFallback
    simp only [State.setPipe_hide, State.hide_ite, ite_self, Nat.reduceOr])

/-- Parts: regs. -/
theorem refreshState_hide {m : Nat} (h : 2 ||| m = m) (d : State) (s : State) :
    State.hide (refreshState s) m d = s.hide m d :=
  State.hide_mono h (by
    unfold refreshState
    simp only [State.setFld_hide, State.hide_ite, ite_self, Nat.reduceOr])

/-- Parts: scene. -/
theorem discardScenes_hide {m : Nat} (h : 0x400 ||| m = m) (d : State) (s : State) :
    State.hide (discardScenes s) m d = s.hide m d :=
  State.hide_mono h (by
    unfold discardScenes
    simp only [State.mapScene_hide, startProof_hide, State.hide_ite, ite_self, Nat.reduceOr])

end Sys2Proof.Machine
end

