-- ==== Sys2Proof/Laws/Frames2.lean ====
section
/-! SUPPORT. What the operations of these files can touch (see Frames):
Lanes, Dma, Events, Rings, Compose, Windows, Strobe. -/

set_option linter.all false

namespace Sys2Proof.Machine

/-! Lanes. -/

/-- Parts: regs. -/
theorem setGroupState_hide {m : Nat} (h : 2 ||| m = m) (d : State) (s : State) (x1 : _) (x2 : _) :
    State.hide (setGroupState s x1 x2) m d = s.hide m d :=
  State.hide_mono h (by
    unfold setGroupState
    simp only [State.setFld_hide, Nat.reduceOr])

/-- Parts: out. -/
theorem blackLine_hide {m : Nat} (h : 0x20 ||| m = m) (d : State) (s : State) (x1 : _) (x2 : _) :
    State.hide (blackLine s x1 x2) m d = s.hide m d :=
  State.hide_mono h (by
    unfold blackLine
    simp only [State.emit_hide, State.hide_ite, ite_self, Nat.reduceOr])

/-- Parts: regs, pow, hw, out, src, light. -/
theorem recheckLink_hide {m : Nat} (h : 0x101000036 ||| m = m) (d : State) (s : State) (x1 : _) :
    State.hide (recheckLink s x1) m d = s.hide m d :=
  State.hide_mono h (by
    unfold recheckLink
    simp only [forceHold_hide, Nat.reduceOr])

/-- Parts: regs, pow, hw, out, pipes, src, light. -/
theorem waitLink_hide {m : Nat} (h : 0x101004036 ||| m = m) (d : State) (s : State) (x1 : _) :
    State.hide (waitLink s x1) m d = s.hide m d :=
  State.hide_mono h (by
    unfold waitLink
    simp only [State.setPipe_hide, recheckLink_hide, State.hide_ite, ite_self, Nat.reduceOr])

/-- Parts: regs, groups. -/
theorem bringUp_hide {m : Nat} (h : 0x80000002 ||| m = m) (d : State) (s : State) (x1 : _) (x2 : _) :
    State.hide (bringUp s x1 x2) m d = s.hide m d :=
  State.hide_mono h (by
    unfold bringUp
    simp only [State.setGroup_hide, setGroupState_hide, State.hide_ite, ite_self, Nat.reduceOr])

/-- Parts: regs, pow, hw, out, pipes, src, groups, light. -/
theorem startGroup_hide {m : Nat} (h : 0x181004036 ||| m = m) (d : State) (s : State) (x1 : _) :
    State.hide (startGroup s x1) m d = s.hide m d :=
  State.hide_mono h (by
    unfold startGroup
    simp only [bringUp_hide, waitLink_hide, State.hide_ite, ite_self, Nat.reduceOr])

/-- Parts: regs, pow, hw, out, src. -/
theorem linkFault_hide {m : Nat} (h : 0x1000036 ||| m = m) (d : State) (s : State) (x1 : _) (x2 : _) :
    State.hide (linkFault s x1 x2) m d = s.hide m d :=
  State.hide_mono h (by
    unfold linkFault
    simp only [State.addFld_hide, State.setFld_hide, raise_hide, Nat.reduceOr])

/-- Parts: regs, pow, hw, out, pipes, src, groups, light. -/
theorem dropGroup_hide {m : Nat} (h : 0x181004036 ||| m = m) (d : State) (s : State) (x1 : _) (x2 : _) (x3 : _) :
    State.hide (dropGroup s x1 x2 x3) m d = s.hide m d :=
  State.hide_mono h (by
    unfold dropGroup
    simp only [bringUp_hide, linkFault_hide, pipeFault_hide, setGroupState_hide, waitLink_hide, State.hide_ite, ite_self,
        Nat.reduceOr])

/-- Parts: regs, pow, hw, out, src, light. -/
theorem dropMate_hide {m : Nat} (h : 0x101000036 ||| m = m) (d : State) (s : State) (x1 : _) :
    State.hide (dropMate s x1) m d = s.hide m d :=
  State.hide_mono h (by
    unfold dropMate
    simp only [recheckLink_hide, setGroupState_hide, State.hide_ite, ite_self, Nat.reduceOr])

/-- Parts: out. -/
theorem sendPanelList_hide {m : Nat} (h : 0x20 ||| m = m) (d : State) (s : State) (x1 : _) :
    State.hide (sendPanelList s x1) m d = s.hide m d :=
  State.hide_mono h (by
    unfold sendPanelList
    simp (disch := (intros; simp only [State.emit_hide, State.each_hide, State.hide_ite, ite_self,
        Nat.reduceOr])) only [State.emit_hide, State.each_hide, State.hide_ite, ite_self, Nat.reduceOr])

/-- Parts: fault. -/
theorem endRecovery_hide {m : Nat} (h : 0x200000000 ||| m = m) (d : State) (s : State) (x1 : _) :
    State.hide (endRecovery s x1) m d = s.hide m d :=
  State.hide_mono h (by
    unfold endRecovery
    simp only [State.setUnit_hide, Nat.reduceOr])

/-- Parts: regs, pow, hw, out, src, groups, fault. -/
theorem groupReady_hide {m : Nat} (h : 0x281000036 ||| m = m) (d : State) (s : State) (x1 : _) :
    State.hide (groupReady s x1) m d = s.hide m d :=
  State.hide_mono h (by
    unfold groupReady
    simp only []
    repeat' split
    all_goals first | rfl | simp only [State.setGroup_hide, endRecovery_hide, raise_hide, sendPanelList_hide, setGroupState_hide,
        State.hide_ite, ite_self, Nat.reduceOr])

/-- Parts: regs. -/
theorem packetGo_hide {m : Nat} (h : 2 ||| m = m) (d : State) (s : State) (x1 : _) :
    State.hide (packetGo s x1) m d = s.hide m d :=
  State.hide_mono h (by
    unfold packetGo
    simp only [State.setFld_hide, State.hide_ite, ite_self, Nat.reduceOr])

/-- Parts: regs, pow, hw, out, src, groups. -/
theorem packetDone_hide {m : Nat} (h : 0x81000036 ||| m = m) (d : State) (s : State) (x1 : _) (x2 : _) (x3 : _) :
    State.hide (packetDone s x1 x2 x3) m d = s.hide m d :=
  State.hide_mono h (by
    unfold packetDone
    simp only [State.emit_hide, State.setFld_hide, State.setGroup_hide, raise_hide, State.hide_ite, ite_self, Nat.reduceOr])

/-- Parts: groups. -/
theorem packetPush_hide {m : Nat} (h : 0x80000000 ||| m = m) (d : State) (s : State) (x1 : _) (x2 : _) :
    State.hide (packetPush s x1 x2) m d = s.hide m d :=
  State.hide_mono h (by
    unfold packetPush
    simp only [State.setGroup_hide, Nat.reduceOr])

/-- Parts: groups. -/
theorem packetPop_hide {m : Nat} (h : 0x80000000 ||| m = m) (d : State) (s : State) (x1 : _) :
    State.hide (packetPop s x1).1 m d = s.hide m d :=
  State.hide_mono h (by
    unfold packetPop
    simp only [State.setGroup_hide, apply_ite Prod.fst, Nat.reduceOr])

/-- Parts: regs, pow, hw, out, src, cams. -/
theorem camError_hide {m : Nat} (h : 0x41000036 ||| m = m) (d : State) (s : State) (x1 : _) :
    State.hide (camError s x1) m d = s.hide m d :=
  State.hide_mono h (by
    unfold camError
    simp only [State.addFld_hide, State.setCam_hide, raise_hide, State.hide_ite, ite_self, Nat.reduceOr])

/-- Parts: regs, pow, hw, out, src, cams. -/
theorem camDropped_hide {m : Nat} (h : 0x41000036 ||| m = m) (d : State) (s : State) (x1 : _) (x2 : _) :
    State.hide (camDropped s x1 x2) m d = s.hide m d :=
  State.hide_mono h (by
    unfold camDropped
    simp only [State.setCam_hide, raise_hide, State.hide_ite, ite_self, Nat.reduceOr])

/-- Parts: regs, pow, hw, out, levels, src, cams. -/
theorem camAdmit_hide {m : Nat} (h : 0x41400036 ||| m = m) (d : State) (s : State) (x1 : _) (x2 : _) (x3 : _) :
    State.hide (camAdmit s x1 x2 x3) m d = s.hide m d :=
  State.hide_mono h (by
    unfold camAdmit
    simp only [State.addFld_hide, State.setCam_hide, camDropped_hide, policeLine_hide, State.hide_ite, ite_self,
        apply_ite Prod.fst, Nat.reduceOr])

/-- Parts: regs, pow, hw, out, levels, src, cams, perf. -/
theorem camLineIn_hide {m : Nat} (h : 0x841400036 ||| m = m) (d : State) (s : State) (x1 : _) (x2 : _) (x3 : _) (x4 : _) :
    State.hide (camLineIn s x1 x2 x3 x4) m d = s.hide m d :=
  State.hide_mono h (by
    unfold camLineIn
    repeat' split
    all_goals simp only [State.addFld_hide, State.perfAdd_hide, State.setCam_hide, camAdmit_hide, camError_hide, State.hide_ite,
        ite_self, Nat.reduceOr])

/-- Parts: free, regs, scene, mem, gates, levels, fetches, dma, scans, cams, perf. -/
theorem camWritten_hide {m : Nat} (h : 0x868d00c03 ||| m = m) (d : State) (s : State) (x1 : _) :
    State.hide (camWritten s x1) m d = s.hide m d :=
  State.hide_mono h (by
    unfold camWritten
    simp only []
    repeat' split
    all_goals first | rfl | simp only [State.setCam_hide, State.store_hide, servePorts_hide, State.hide_ite, ite_self,
        Nat.reduceOr])

/-- Parts: regs, cams. -/
theorem camClose_hide {m : Nat} (h : 0x40000002 ||| m = m) (d : State) (s : State) (x1 : _) :
    State.hide (camClose s x1) m d = s.hide m d :=
  State.hide_mono h (by
    unfold camClose
    simp only [State.setCam_hide, State.setFld_hide, Nat.reduceOr])

/-- Parts: regs, cams, perf. -/
theorem camOpen_hide {m : Nat} (h : 0x840000002 ||| m = m) (d : State) (s : State) (x1 : _) :
    State.hide (camOpen s x1) m d = s.hide m d :=
  State.hide_mono h (by
    unfold camOpen
    try simp only [State.perfAdd_hide, State.setCam_hide, State.setFld_hide, camClose_hide, State.hide_ite, ite_self, Nat.reduceOr]
    repeat' split
    all_goals try simp only [State.perfAdd_hide, State.setCam_hide, State.setFld_hide, camClose_hide, State.hide_ite, ite_self,
        Nat.reduceOr]
    all_goals repeat' split
    all_goals simp only [State.perfAdd_hide, State.setCam_hide, State.setFld_hide, camClose_hide, State.hide_ite, ite_self,
        Nat.reduceOr])

/-- Parts: regs, pow, hw, out, src, cams. -/
theorem dropCamLines_hide {m : Nat} (h : 0x41000036 ||| m = m) (d : State) (s : State) :
    State.hide (dropCamLines s) m d = s.hide m d :=
  State.hide_mono h (by
    unfold dropCamLines
    refine State.each_hide _ _ _ _ _ fun _ _ => ?_
    try simp only []
    repeat' split
    all_goals first | rfl | simp (disch := (intros; repeat' split) <;> simp only [State.addFld_hide, State.setCam_hide,
        camDropped_hide, State.each_hide, State.hide_ite, ite_self, Nat.reduceOr]) only [State.addFld_hide, State.setCam_hide,
        camDropped_hide, State.each_hide, State.hide_ite, ite_self, Nat.reduceOr])

/-! Dma. -/

/-- Parts: regs, hw, out, dma, perf. -/
theorem askHost_hide {m : Nat} (h : 0x808000032 ||| m = m) (d : State) (x0 : _) (x1 : _) (s : State) :
    State.hide (askHost x0 x1 s) m d = s.hide m d :=
  State.hide_mono h (by
    induction x1 generalizing s with
    | zero => rfl
    | succ k ih =>
      unfold askHost
      simp only []
      split
      · rfl
      · split
        · exact (ih _).trans ((readHost_hide (by decide) _ _ _ _ _).trans (State.setChan_hide (by decide) _ _ _ _))
        · rfl)

/-- Parts: regs, hw, out, mem, scans, perf. -/
theorem putBeat_hide {m : Nat} (h : 0x820000832 ||| m = m) (d : State) (s : State) (x1 : _) (x2 : _) (x3 : _) :
    State.hide (putBeat s x1 x2 x3) m d = s.hide m d :=
  State.hide_mono h (by
    unfold putBeat
    simp only [State.store_hide, writeHost_hide, State.hide_ite, ite_self, Nat.reduceOr])

/-- Parts: free, regs, hw, out, mem, levels, scans, perf. -/
theorem runBeats_hide {m : Nat} (h : 0x820400833 ||| m = m) (d : State) (s : State) (x1 : _) (x2 : _) (x3 : _) :
    State.hide (runBeats s x1 x2 x3).1 m d = s.hide m d :=
  State.hide_mono h (by
    unfold runBeats
    simp (disch := (intros; simp only [State.freshen_hide, giveBack_hide, putBeat_hide, State.each_hide, State.hide_ite, ite_self,
        apply_ite Prod.fst, Nat.reduceOr])) only [State.freshen_hide, giveBack_hide, putBeat_hide, State.each_hide,
        State.hide_ite, ite_self, apply_ite Prod.fst, Nat.reduceOr])

/-- Parts: regs. -/
theorem noteStatus_hide {m : Nat} (h : 2 ||| m = m) (d : State) (s : State) (x1 : _) (x2 : _) :
    State.hide (noteStatus s x1 x2) m d = s.hide m d :=
  State.hide_mono h (by
    unfold noteStatus
    simp only [State.setFld_hide, State.hide_ite, ite_self, Nat.reduceOr])

/-- Parts: regs, pow, hw, out, src, dma. -/
theorem beginRun_hide {m : Nat} (h : 0x9000036 ||| m = m) (d : State) (s : State) (x1 : _) :
    State.hide (beginRun s x1) m d = s.hide m d :=
  State.hide_mono h (by
    unfold beginRun
    simp only [State.addFld_hide, State.setChan_hide, State.setFld_hide, raise_hide, State.hide_ite, ite_self, Nat.reduceOr])

/-- Parts: regs, pow, hw, out, src, dma. -/
theorem closeRun_hide {m : Nat} (h : 0x9000036 ||| m = m) (d : State) (s : State) (x1 : _) :
    State.hide (closeRun s x1) m d = s.hide m d :=
  State.hide_mono h (by
    unfold closeRun
    simp only [State.setChan_hide, State.setFld_hide, State.setReg_hide, raise_hide, Nat.reduceOr])

/-- Parts: regs, pow, hw, out, src. -/
theorem noteEntry_hide {m : Nat} (h : 0x1000036 ||| m = m) (d : State) (s : State) (x1 : _) (x2 : _) :
    State.hide (noteEntry s x1 x2) m d = s.hide m d :=
  State.hide_mono h (by
    unfold noteEntry
    simp only [State.setFld_hide, countBad_hide, noteStatus_hide, State.hide_ite, ite_self, Nat.reduceOr])

/-- Parts: dma. -/
theorem takeEntry_hide {m : Nat} (h : 0x8000000 ||| m = m) (d : State) (s : State) (x1 : _) (x2 : _) :
    State.hide (takeEntry s x1 x2) m d = s.hide m d :=
  State.hide_mono h (by
    unfold takeEntry
    simp only [State.setChan_hide, Nat.reduceOr])

/-- Parts: regs, pow, hw, out, src, dma. -/
theorem runNext_hide {m : Nat} (h : 0x9000036 ||| m = m) (d : State) (x0 : _) (s : State) (x2 : _) :
    State.hide (runNext x0 s x2) m d = s.hide m d :=
  State.hide_mono h (by
    induction x0 generalizing s x2 with
    | zero => rfl
    | succ k ih =>
      have e : ∀ t : State, ((followers t x2).foldl (fun s f => if (s.chan f).runAt.isNone then runNext k (beginRun s f) f
          else beginRun s f) (closeRun t x2)).hide 0x9000036 d = t.hide 0x9000036 d := by
        intro t
        refine (State.foldl_hide _ _ id _ (fun s f => ?_) _ _).trans (closeRun_hide (by decide) _ _ _)
        simp only [id]
        split
        · exact (ih _ _).trans (beginRun_hide (by decide) _ _ _)
        · exact beginRun_hide (by decide) _ _ _
      unfold runNext
      simp only []
      split
      · rfl
      · split
        · rfl
        · exact (ih _ _).trans ((noteEntry_hide (by decide) _ _ _ _).trans (State.setChan_hide (by decide) _ _ _ _))
      · simp only [State.hide_ite, e, State.setFld_hide, noteStatus_hide, noteEntry_hide, takeEntry_hide,
          ite_self, Nat.reduceOr])

/-- Parts: regs, pow, hw, out, src, dma. -/
theorem endEntries_hide {m : Nat} (h : 0x9000036 ||| m = m) (d : State) (s : State) :
    State.hide (endEntries s) m d = s.hide m d :=
  State.hide_mono h (by
    unfold endEntries
    simp (disch := first | simp only [Nat.reduceOr] | (intros; simp only [runNext_hide, State.each_hide, State.hide_ite, ite_self,
        Nat.reduceOr] <;> done) | (intros; repeat' split) <;> simp only [runNext_hide, State.each_hide, State.hide_ite, ite_self,
        Nat.reduceOr]) only [runNext_hide, State.each_hide, State.hide_ite, ite_self, Nat.reduceOr])

/-- Parts: regs, pow, hw, out, src, dma. -/
theorem takeEntries_hide {m : Nat} (h : 0x9000036 ||| m = m) (d : State) (s : State) :
    State.hide (takeEntries s) m d = s.hide m d :=
  State.hide_mono h (by
    unfold takeEntries
    simp (disch := first | simp only [Nat.reduceOr] | (intros; simp only [runNext_hide, State.each_hide, State.hide_ite, ite_self,
        Nat.reduceOr] <;> done) | (intros; repeat' split) <;> simp only [runNext_hide, State.each_hide, State.hide_ite, ite_self,
        Nat.reduceOr]) only [runNext_hide, State.each_hide, State.hide_ite, ite_self, Nat.reduceOr])

/-- Parts: free, regs, pow, hw, out, scene, gates, levels, fetches, src, dma, scans, cams, perf. -/
theorem serveRuns_hide {m : Nat} (h : 0x869d00437 ||| m = m) (d : State) (s : State) :
    State.hide (serveRuns s) m d = s.hide m d :=
  State.hide_mono h (by
    unfold serveRuns
    simp only [servePorts_hide, takeEntries_hide, Nat.reduceOr])

/-- Parts: regs, hw, out, dma, perf. -/
theorem askAll_hide {m : Nat} (h : 0x808000032 ||| m = m) (d : State) (s : State) :
    State.hide (askAll s) m d = s.hide m d :=
  State.hide_mono h (by
    unfold askAll
    refine State.each_hide _ _ _ _ _ fun _ _ => ?_
    repeat' split
    all_goals first | rfl | simp only [askHost_hide, State.each_hide, Nat.reduceOr])

/-- Parts: regs, pow, hw, out, src, dma. -/
theorem listLost_hide {m : Nat} (h : 0x9000036 ||| m = m) (d : State) (s : State) (x1 : _) (x2 : _) :
    State.hide (listLost s x1 x2) m d = s.hide m d :=
  State.hide_mono h (by
    unfold listLost
    repeat' split
    all_goals simp only [State.setChan_hide, noteEntry_hide, runNext_hide, State.hide_ite, ite_self, Nat.reduceOr])

/-- Parts: regs, pow, hw, out, src, dma. -/
theorem triggerChan_hide {m : Nat} (h : 0x9000036 ||| m = m) (d : State) (s : State) (x1 : _) :
    State.hide (triggerChan s x1) m d = s.hide m d :=
  State.hide_mono h (by
    unfold triggerChan
    simp only [beginRun_hide, runNext_hide, State.hide_ite, ite_self, Nat.reduceOr])

/-- Parts: regs, pow, hw, out, src, dma. -/
theorem triggerFollowers_hide {m : Nat} (h : 0x9000036 ||| m = m) (d : State) (s : State) (x1 : _) :
    State.hide (triggerFollowers s x1) m d = s.hide m d :=
  State.hide_mono h (by
    unfold triggerFollowers
    refine State.each_hide _ _ _ _ _ fun _ _ => ?_
    repeat' split
    all_goals first | rfl | simp only [triggerChan_hide, State.each_hide, Nat.reduceOr])

/-- Parts: regs, pow, hw, out, src, dma. -/
theorem posTriggers_hide {m : Nat} (h : 0x9000036 ||| m = m) (d : State) (s : State) (x1 : _) (x2 : _) (x3 : _) :
    State.hide (posTriggers s x1 x2 x3) m d = s.hide m d :=
  State.hide_mono h (by
    unfold posTriggers
    refine State.each_hide _ _ _ _ _ fun _ _ => ?_
    repeat' split
    all_goals first | rfl | simp only [triggerChan_hide, State.each_hide, State.hide_ite, ite_self, Nat.reduceOr])

/-- Parts: fault. -/
theorem endChanRecovery_hide {m : Nat} (h : 0x200000000 ||| m = m) (d : State) (s : State) (x1 : _) :
    State.hide (endChanRecovery s x1) m d = s.hide m d :=
  State.hide_mono h (by
    unfold endChanRecovery
    simp only [State.setUnit_hide, State.hide_ite, ite_self, Nat.reduceOr])

/-- Parts: regs, pow, hw, out, rings, src, dma, fault, perf. -/
theorem endDesc_hide {m : Nat} (h : 0xa09000076 ||| m = m) (d : State) (s : State) (x1 : _) (x2 : _) (x3 : _) (x4 : _) :
    State.hide (endDesc s x1 x2 x3 x4) m d = s.hide m d :=
  State.hide_mono h (by
    unfold endDesc
    simp only []
    repeat' split
    all_goals first | rfl | simp only [State.setChan_hide, State.setFld_hide, closeCpl_hide, countBad_hide, endChanRecovery_hide,
        noteStatus_hide, runNext_hide, triggerFollowers_hide, State.hide_ite, ite_self, Nat.reduceOr])

/-- Parts: regs, pow, hw, out, rings, src, dma, fault, perf. -/
theorem takeDescs_hide {m : Nat} (h : 0xa09000076 ||| m = m) (d : State) (x0 : _) (s : State) (x2 : _) :
    State.hide (takeDescs x0 s x2) m d = s.hide m d :=
  State.hide_mono h (by
    induction x0 generalizing s with
    | zero => rfl
    | succ k ih =>
      unfold takeDescs
      simp only []
      split
      · split
        · rfl
        · split
          · exact (ih _).trans ((endDesc_hide (by decide) _ _ _ _ _ _).trans (State.setChan_hide (by decide) _ _ _ _))
          · exact (askHost_hide (by decide) _ _ _ _).trans (State.setChan_hide (by decide) _ _ _ _)
      · rfl)

/-- Parts: regs, pow, hw, out, rings, src, dma, fault, perf. -/
theorem startDma_hide {m : Nat} (h : 0xa09000076 ||| m = m) (d : State) (s : State) (x1 : _) :
    State.hide (startDma s x1) m d = s.hide m d :=
  State.hide_mono h (by
    unfold startDma
    simp only [takeDescs_hide, Nat.reduceOr])

/-- Parts: regs, pow, hw, out, rings, src, dma, fault, perf. -/
theorem handDma_hide {m : Nat} (h : 0xa09000076 ||| m = m) (d : State) (s : State) (x1 : _) (x2 : _) (x3 : _) (x4 : _) (x5 : _) :
    State.hide (handDma s x1 x2 x3 x4 x5) m d = s.hide m d :=
  State.hide_mono h (by
    unfold handDma
    simp only [State.setChan_hide, openCpl_hide, startDma_hide, takeKey_hide, apply_ite Prod.fst, Nat.reduceOr])

/-- Parts: regs, pow, hw, out, rings, src, dma, fault, perf. -/
theorem finishDma_hide {m : Nat} (h : 0xa09000076 ||| m = m) (d : State) (s : State) (x1 : _) (x2 : _) (x3 : _) (x4 : _) :
    State.hide (finishDma s x1 x2 x3 x4) m d = s.hide m d :=
  State.hide_mono h (by
    unfold finishDma
    simp only [endDesc_hide, startDma_hide, Nat.reduceOr])

/-- Parts: regs, hw, out, mem, scans, perf. -/
theorem keepDrained_hide {m : Nat} (h : 0x820000832 ||| m = m) (d : State) (s : State) (x1 : _) (x2 : _) :
    State.hide (keepDrained s x1 x2) m d = s.hide m d :=
  State.hide_mono h (by
    unfold keepDrained
    simp only [putBeat_hide, Nat.reduceOr])

/-- Parts: free, regs, pow, hw, out, rings, scene, mem, gates, levels, fetches, src, dma, scans, cams, fault, perf. -/
theorem dmaDone_hide {m : Nat} (h : 0xa69d00c77 ||| m = m) (d : State) (s : State) (x1 : _) (x2 : _) :
    State.hide (dmaDone s x1 x2) m d = s.hide m d :=
  State.hide_mono h (by
    unfold dmaDone
    simp only []
    repeat' split
    all_goals first | rfl | simp only [finishDma_hide, runBeats_hide, servePorts_hide, State.hide_ite, ite_self,
        apply_ite Prod.fst, Nat.reduceOr])

/-- Parts: free, regs, pow, hw, out, rings, scene, mem, gates, levels, fetches, src, dma, scans, cams, fault, perf. -/
theorem dmaArrived_hide {m : Nat} (h : 0xa69d00c77 ||| m = m) (d : State) (s : State) (x1 : _) (x2 : _) (x3 : _) (x4 : _) :
    State.hide (dmaArrived s x1 x2 x3 x4) m d = s.hide m d :=
  State.hide_mono h (by
    unfold dmaArrived
    simp only []
    repeat' split
    all_goals first | rfl | simp only [State.setChan_hide, askHost_hide, finishDma_hide, keepDrained_hide, servePorts_hide,
        State.hide_ite, ite_self, Nat.reduceOr])

/-- Parts: regs, hw, out, mem, dma, scans, perf. -/
theorem restartDesc_hide {m : Nat} (h : 0x828000832 ||| m = m) (d : State) (s : State) (x1 : _) :
    State.hide (restartDesc s x1) m d = s.hide m d :=
  State.hide_mono h (by
    unfold restartDesc
    repeat' split
    all_goals simp only [State.setChan_hide, askHost_hide, keepDrained_hide, Nat.reduceOr])

/-- Parts: regs, rings. -/
theorem rollBack_hide {m : Nat} (h : 0x42 ||| m = m) (d : State) (s : State) (x1 : _) (x2 : _) :
    State.hide (rollBack s x1 x2) m d = s.hide m d :=
  State.hide_mono h (by
    unfold rollBack
    simp only [State.setReg_hide, State.setRing_hide, State.hide_ite, ite_self, Nat.reduceOr])

/-- Parts: regs, rings. -/
theorem dropBuf_hide {m : Nat} (h : 0x42 ||| m = m) (d : State) (s : State) (x1 : _) :
    State.hide (dropBuf s x1) m d = s.hide m d :=
  State.hide_mono h (by
    unfold dropBuf
    try simp only [State.setReg_hide, State.setRing_hide, Nat.reduceOr]
    repeat' split
    all_goals try simp only [State.setReg_hide, State.setRing_hide, Nat.reduceOr]
    all_goals repeat' split
    all_goals simp only [State.setReg_hide, State.setRing_hide, Nat.reduceOr])

/-- Parts: regs, rings, dma. -/
theorem discardFrom_hide {m : Nat} (h : 0x8000042 ||| m = m) (d : State) (s : State) (x1 : _) (x2 : _) :
    State.hide (discardFrom s x1 x2) m d = s.hide m d :=
  State.hide_mono h (by
    unfold discardFrom
    simp only []
    repeat' split
    all_goals first | rfl | simp only [State.setChan_hide, dropBuf_hide, rollBack_hide, Nat.reduceOr])

/-- Parts: free, regs, pow, hw, out, rings, scene, gates, levels, fetches, src, dma, scans, cams, perf. -/
theorem haltChan_hide {m : Nat} (h : 0x869d00477 ||| m = m) (d : State) (s : State) (x1 : _) :
    State.hide (haltChan s x1) m d = s.hide m d :=
  State.hide_mono h (by
    unfold haltChan
    simp only []
    repeat' split
    all_goals first | rfl | simp only [State.setChan_hide, discardFrom_hide, runNext_hide, servePorts_hide, State.hide_ite,
        ite_self, Nat.reduceOr])

/-- Parts: free, regs, pow, hw, out, rings, scene, gates, levels, fetches, src, dma, dmaHalted, scans, cams, perf. -/
theorem engineHalt_hide {m : Nat} (h : 0x879d00477 ||| m = m) (d : State) (s : State) :
    State.hide (engineHalt s) m d = s.hide m d :=
  State.hide_mono h (by
    unfold engineHalt
    simp (disch := (intros; simp only [State.addFld_hide, State.setFld_hide, haltChan_hide, raise_hide, State.hide_dmaHalted,
        State.each_hide, State.hide_ite, ite_self, Nat.reduceOr])) only [State.addFld_hide, State.setFld_hide, haltChan_hide,
        raise_hide, State.hide_dmaHalted, State.each_hide, State.hide_ite, ite_self, Nat.reduceOr])

/-- Parts: regs, dmaHalted. -/
theorem restartEngine_hide {m : Nat} (h : 0x10000002 ||| m = m) (d : State) (s : State) :
    State.hide (restartEngine s) m d = s.hide m d :=
  State.hide_mono h (by
    unfold restartEngine
    simp only [State.setFld_hide, State.hide_dmaHalted, State.hide_ite, ite_self, Nat.reduceOr])

/-- Parts: regs, pow, hw, out, rings, mem, src, dma, scans, perf. -/
theorem retireDma_hide {m : Nat} (h : 0x829000876 ||| m = m) (d : State) (s : State) (x1 : _) :
    State.hide (retireDma s x1) m d = s.hide m d :=
  State.hide_mono h (by
    unfold retireDma
    simp only []
    repeat' split
    all_goals first | rfl | simp only [State.setChan_hide, State.setFld_hide, closeCpl_hide, closeRun_hide, discardFrom_hide,
        haltRing_hide, keepDrained_hide, triggerFollowers_hide, State.hide_ite, ite_self, Nat.reduceOr])

/-- Parts: dma. -/
theorem markInFlight_hide {m : Nat} (h : 0x8000000 ||| m = m) (d : State) (s : State) (x1 : _) :
    State.hide (markInFlight s x1) m d = s.hide m d :=
  State.hide_mono h (by
    unfold markInFlight
    refine State.each_hide _ _ _ _ _ fun _ _ => ?_
    repeat' split
    all_goals first | rfl | simp only [State.setChan_hide, State.each_hide, State.hide_ite, ite_self, Nat.reduceOr])

/-- Parts: regs, rings, dma. -/
theorem abandonDma_hide {m : Nat} (h : 0x8000042 ||| m = m) (d : State) (s : State) (x1 : _) :
    State.hide (abandonDma s x1) m d = s.hide m d :=
  State.hide_mono h (by
    unfold abandonDma
    simp only []
    repeat' split
    all_goals first | rfl | simp only [State.setChan_hide, discardFrom_hide, State.hide_ite, ite_self, Nat.reduceOr])

/-- Parts: rings, dma. -/
theorem dropSlot_hide {m : Nat} (h : 0x8000040 ||| m = m) (d : State) (s : State) (x1 : _) (x2 : _) :
    State.hide (dropSlot s x1 x2) m d = s.hide m d :=
  State.hide_mono h (by
    unfold dropSlot
    simp only [State.setChan_hide, State.setRing_hide, State.hide_ite, ite_self, Nat.reduceOr])

/-- Parts: dma. -/
theorem dropDma_hide {m : Nat} (h : 0x8000000 ||| m = m) (d : State) (s : State) (x1 : _) :
    State.hide (dropDma s x1) m d = s.hide m d :=
  State.hide_mono h (by
    unfold dropDma
    simp only []
    repeat' split
    all_goals first | rfl | simp only [State.setChan_hide, State.hide_ite, ite_self, Nat.reduceOr])

/-- Parts: regs, pow, hw, out, src, scans. -/
theorem endScan_hide {m : Nat} (h : 0x21000036 ||| m = m) (d : State) (s : State) (x1 : _) (x2 : _) :
    State.hide (endScan s x1 x2) m d = s.hide m d :=
  State.hide_mono h (by
    unfold endScan
    simp only [State.setFld_hide, raise_hide, State.hide_scans, Nat.reduceOr])

/-- Parts: regs, pow, hw, out, src, scans. -/
theorem beginScan_hide {m : Nat} (h : 0x21000036 ||| m = m) (d : State) (s : State) (x1 : _) (x2 : _) (x3 : _) (x4 : _) :
    State.hide (beginScan s x1 x2 x3 x4) m d = s.hide m d :=
  State.hide_mono h (by
    unfold beginScan
    simp only [State.setFld_hide, endScan_hide, State.hide_scans, State.hide_ite, ite_self, Nat.reduceOr])

/-- Parts: regs, pow, hw, out, src, scans. -/
theorem scanGo_hide {m : Nat} (h : 0x21000036 ||| m = m) (d : State) (s : State) (x1 : _) :
    State.hide (scanGo s x1) m d = s.hide m d :=
  State.hide_mono h (by
    unfold scanGo
    simp only [beginScan_hide, State.hide_ite, ite_self, Nat.reduceOr])

/-- Parts: regs, pow, hw, out, src, scans. -/
theorem scanStop_hide {m : Nat} (h : 0x21000036 ||| m = m) (d : State) (s : State) (x1 : _) :
    State.hide (scanStop s x1) m d = s.hide m d :=
  State.hide_mono h (by
    unfold scanStop
    simp only [endScan_hide, State.hide_ite, ite_self, Nat.reduceOr])

/-- Parts: free, regs, pow, hw, out, scene, gates, levels, fetches, src, dma, scans, cams, perf. -/
theorem scanDone_hide {m : Nat} (h : 0x869d00437 ||| m = m) (d : State) (s : State) (x1 : _) (x2 : _) :
    State.hide (scanDone s x1 x2) m d = s.hide m d :=
  State.hide_mono h (by
    unfold scanDone
    simp only []
    repeat' split
    all_goals first | rfl | simp only [State.freshen_hide, State.setFld_hide, State.setReg_hide, State.setReg64_hide,
        beginScan_hide, endScan_hide, servePorts_hide, State.hide_ite, ite_self, Nat.reduceOr])

/-- Parts: regs, pow, hw, out, src, scans. -/
theorem refuseScans_hide {m : Nat} (h : 0x21000036 ||| m = m) (d : State) (s : State) (x1 : _) :
    State.hide (refuseScans s x1) m d = s.hide m d :=
  State.hide_mono h (by
    unfold refuseScans
    refine State.each_hide _ _ _ _ _ fun _ _ => ?_
    repeat' split
    all_goals first | rfl | simp only [endScan_hide, State.each_hide, Nat.reduceOr])

/-! Events. -/

/-- Parts: regs, hw, out, perf. -/
theorem sendNotify_hide {m : Nat} (h : 0x800000032 ||| m = m) (d : State) (s : State) (x1 : _) :
    State.hide (sendNotify s x1) m d = s.hide m d :=
  State.hide_mono h (by
    unfold sendNotify
    simp only [writeHost_hide, State.hide_ite, ite_self, Nat.reduceOr])

/-- Parts: regs, hw, out, perf. -/
theorem notifyPending_hide {m : Nat} (h : 0x800000032 ||| m = m) (d : State) (s : State) (x1 : _) :
    State.hide (notifyPending s x1) m d = s.hide m d :=
  State.hide_mono h (by
    unfold notifyPending
    simp only [sendNotify_hide, State.hide_ite, ite_self, Nat.reduceOr])

/-- Parts: regs, hw, out, perf. -/
theorem notifyAtConfirm_hide {m : Nat} (h : 0x800000032 ||| m = m) (d : State) (s : State) :
    State.hide (notifyAtConfirm s) m d = s.hide m d :=
  State.hide_mono h (by
    unfold notifyAtConfirm
    refine State.each_hide _ _ _ _ _ fun _ _ => ?_
    repeat' split
    all_goals first | rfl | simp only [notifyPending_hide, State.each_hide, State.hide_ite, ite_self, Nat.reduceOr])

/-- Parts: regs, hw, out, perf. -/
theorem sendWake_hide {m : Nat} (h : 0x800000032 ||| m = m) (d : State) (s : State) (x1 : _) :
    State.hide (sendWake s x1) m d = s.hide m d :=
  State.hide_mono h (by
    unfold sendWake
    simp only [sendSeq_hide, Nat.reduceOr])

/-- Parts: hw. -/
theorem dropWake_hide {m : Nat} (h : 0x10 ||| m = m) (d : State) (s : State) (x1 : _) :
    State.hide (dropWake s x1) m d = s.hide m d :=
  State.hide_mono h (by
    unfold dropWake
    simp only [State.hide_hw, Nat.reduceOr])

/-- Parts: regs, pow, hw, out, perf. -/
theorem afterIssue_hide {m : Nat} (h : 0x800000036 ||| m = m) (d : State) (s : State) (x1 : _) (x2 : _) :
    State.hide (afterIssue s x1 x2) m d = s.hide m d :=
  State.hide_mono h (by
    unfold afterIssue
    simp only [State.setFld_hide, dropWake_hide, sendNotify_hide, sendWake_hide, wakeRequest_hide, State.hide_ite, ite_self,
        Nat.reduceOr])

/-- Parts: regs, pow, hw, out, src, perf. -/
theorem issueRecord_hide {m : Nat} (h : 0x801000036 ||| m = m) (d : State) (s : State) (x1 : _) :
    State.hide (issueRecord s x1) m d = s.hide m d :=
  State.hide_mono h (by
    unfold issueRecord
    simp only [State.setFld_hide, State.setReg_hide, State.setSource_hide, afterIssue_hide, reportFull_hide, writeHost_hide,
        State.hide_ite, ite_self, Nat.reduceOr])

/-- Parts: regs, pow, hw, out, src. -/
theorem occur_hide {m : Nat} (h : 0x1000036 ||| m = m) (d : State) (s : State) (x1 : _) (x2 : _) :
    State.hide (occur s x1 x2) m d = s.hide m d :=
  State.hide_mono h (by
    unfold occur
    simp only [raise_hide, setCond_hide, State.hide_ite, ite_self, Nat.reduceOr])

/-- Parts: regs, pow, hw, out, src, sampleDue. -/
theorem resample_hide {m : Nat} (h : 0x3000036 ||| m = m) (d : State) (s : State) (x1 : _) :
    State.hide (resample s x1) m d = s.hide m d :=
  State.hide_mono h (by
    unfold resample
    simp only [sampleSource_hide, State.hide_sampleDue, State.hide_ite, ite_self, Nat.reduceOr])

/-- Parts: regs, pow, hw, out, src. -/
theorem senseChange_hide {m : Nat} (h : 0x1000036 ||| m = m) (d : State) (s : State) (x1 : _) (x2 : _) :
    State.hide (senseChange s x1 x2) m d = s.hide m d :=
  State.hide_mono h (by
    unfold senseChange
    simp only [State.setFld_hide, raise_hide, setCond_hide, State.hide_ite, ite_self, Nat.reduceOr])

/-- Parts: regs, pow, hw, out, src. -/
theorem sensePin_hide {m : Nat} (h : 0x1000036 ||| m = m) (d : State) (s : State) (x1 : _) (x2 : _) :
    State.hide (sensePin s x1 x2) m d = s.hide m d :=
  State.hide_mono h (by
    unfold sensePin
    repeat' split
    all_goals simp only [State.setFld_hide, senseChange_hide, Nat.reduceOr])

/-- Parts: regs, pow, hw, out, src. -/
theorem completeSource_hide {m : Nat} (h : 0x1000036 ||| m = m) (d : State) (s : State) (x1 : _) :
    State.hide (completeSource s x1) m d = s.hide m d :=
  State.hide_mono h (by
    unfold completeSource
    simp only [State.addFld_hide, State.setFld_hide, sampleSource_hide, wakeAll_hide, State.hide_ite, ite_self, Nat.reduceOr])

/-- Parts: regs, pow, hw, out. -/
theorem maskSource_hide {m : Nat} (h : 0x36 ||| m = m) (d : State) (s : State) (x1 : _) (x2 : _) :
    State.hide (maskSource s x1 x2) m d = s.hide m d :=
  State.hide_mono h (by
    unfold maskSource
    simp only [State.setFld_hide, wakeFor_hide, Nat.reduceOr])

/-- Parts: regs. -/
theorem clearSpi_hide {m : Nat} (h : 2 ||| m = m) (d : State) (s : State) (x1 : _) :
    State.hide (clearSpi s x1) m d = s.hide m d :=
  State.hide_mono h (by
    unfold clearSpi
    simp only [State.setFld_hide, Nat.reduceOr])

/-- Parts: regs, pow, hw, out. -/
theorem sleepQueue_hide {m : Nat} (h : 0x36 ||| m = m) (d : State) (s : State) (x1 : _) :
    State.hide (sleepQueue s x1) m d = s.hide m d :=
  State.hide_mono h (by
    unfold sleepQueue
    simp only [State.setFld_hide, dropWake_hide, wakeAll_hide, Nat.reduceOr])

/-- Parts: regs, hw, out, perf. -/
theorem awakeQueue_hide {m : Nat} (h : 0x800000032 ||| m = m) (d : State) (s : State) (x1 : _) :
    State.hide (awakeQueue s x1) m d = s.hide m d :=
  State.hide_mono h (by
    unfold awakeQueue
    simp only [State.setFld_hide, dropWake_hide, notifyPending_hide, State.hide_ite, ite_self, Nat.reduceOr])

/-- Parts: regs, hw, out, perf. -/
theorem writeQmask_hide {m : Nat} (h : 0x800000032 ||| m = m) (d : State) (s : State) (x1 : _) (x2 : _) :
    State.hide (writeQmask s x1 x2) m d = s.hide m d :=
  State.hide_mono h (by
    unfold writeQmask
    simp only [State.setFld_hide, sendNotify_hide, State.hide_ite, ite_self, Nat.reduceOr])

/-- Parts: regs, pow, hw, out, src, perf. -/
theorem queueConsumed_hide {m : Nat} (h : 0x801000036 ||| m = m) (d : State) (s : State) (x1 : _) (x2 : _) :
    State.hide (queueConsumed s x1 x2) m d = s.hide m d :=
  State.hide_mono h (by
    unfold queueConsumed
    simp only [State.setReg_hide, notifyPending_hide, reportFull_hide, Nat.reduceOr])

/-- Parts: regs, pow, hw, out, src. -/
theorem sourceStrobed_hide {m : Nat} (h : 0x1000036 ||| m = m) (d : State) (x0 : _) (s : State) (x2 : _) :
    State.hide (sourceStrobed x0 s x2) m d = s.hide m d :=
  State.hide_mono h (by
    unfold sourceStrobed
    simp only [State.setFld_hide, State.setSource_hide, countOccurrence_hide, markSpi_hide, reportCond_hide, wakeFor_hide,
        State.hide_ite, ite_self, Nat.reduceOr])

/-- Parts: regs, pow, hw, out, queueSizes, src. -/
theorem queueStrobed_hide {m : Nat} (h : 0x1000236 ||| m = m) (d : State) (x0 : _) (s : State) (x2 : _) :
    State.hide (queueStrobed x0 s x2) m d = s.hide m d :=
  State.hide_mono h (by
    unfold queueStrobed
    simp (disch := (intros; simp only [State.setFld_hide, State.setReg_hide, reportFull_hide, State.hide_queueSizes,
        State.each_hide, State.hide_ite, ite_self, Nat.reduceOr])) only [State.setFld_hide, State.setReg_hide, reportFull_hide,
        State.hide_queueSizes, State.each_hide, State.hide_ite, ite_self, Nat.reduceOr])

/-- Parts: regs, pow, hw, out, queueSizes, src. -/
theorem evtStrobed_hide {m : Nat} (h : 0x1000236 ||| m = m) (d : State) (x0 : _) (s : State) :
    State.hide (evtStrobed x0 s) m d = s.hide m d :=
  State.hide_mono h (by
    unfold evtStrobed
    simp (disch := (intros; simp only [queueStrobed_hide, sourceStrobed_hide, wakeAll_hide, State.each_hide,
        Nat.reduceOr])) only [queueStrobed_hide, sourceStrobed_hide, wakeAll_hide, State.each_hide, Nat.reduceOr])

/-! Rings. -/

/-- Parts: regs, pow, hw, out, rings, scene, src, perf. -/
theorem actScene_hide {m : Nat} (h : 0x801000476 ||| m = m) (d : State) (s : State) (x1 : _) (x2 : _) :
    State.hide (actScene s x1 x2) m d = s.hide m d :=
  State.hide_mono h (by
    unfold actScene
    repeat' split
    all_goals simp only [actCommit_hide, actFenceAcq_hide, actJump_hide, actLayerBlock_hide, actLayerWords_hide, actLoftLoad_hide,
        actLutLoad_hide, actMatrix_hide, actNop_hide, actObjBlock_hide, actObjWords_hide, badDesc_hide, Nat.reduceOr])

/-- Parts: regs, pow, hw, out, rings, scene, src, dma, fault, perf. -/
theorem actDma_hide {m : Nat} (h : 0xa09000476 ||| m = m) (d : State) (s : State) (x1 : _) (x2 : _) (x3 : _) :
    State.hide (actDma s x1 x2 x3) m d = s.hide m d :=
  State.hide_mono h (by
    unfold actDma
    repeat' split
    all_goals simp only [actJump_hide, actNop_hide, handDma_hide, Nat.reduceOr])

/-- Parts: rings. -/
theorem afterAct_hide {m : Nat} (h : 0x40 ||| m = m) (d : State) (s : State) (x1 : _) (x2 : _) :
    State.hide (afterAct s x1 x2) m d = s.hide m d :=
  State.hide_mono h (by
    unfold afterAct
    simp only [stepChain_hide, State.hide_ite, ite_self, Nat.reduceOr])

/-- Parts: regs, pow, hw, out, rings, scene, src, dma, fault, perf. -/
theorem actOn_hide {m : Nat} (h : 0xa09000476 ||| m = m) (d : State) (s : State) (x1 : _) (x2 : _) :
    State.hide (actOn s x1 x2) m d = s.hide m d :=
  State.hide_mono h (by
    have e : ∀ t u, countHop t x1 x2 = some u → u.hide 0xa09000476 d = t.hide 0xa09000476 d := by
      intro t u h
      simp only [countHop, Option.ite_none_left_eq_some, Option.some.injEq] at h
      rw [← h.2]
      exact State.setRing_hide (by decide) _ _ _ _
    have e' : (if x2.chain then s else keepBefore s x1).hide 0xa09000476 d = s.hide 0xa09000476 d := by
      split
      · rfl
      · exact keepBefore_hide (by decide) _ _ _
    unfold actOn
    simp only []
    split
    · exact (loopStop_hide (by decide) _ _ _ _).trans e'
    · rename_i u h
      refine (afterAct_hide (by decide) _ _ _ _).trans (Eq.trans ?_ ((e _ u h).trans e'))
      split
      · exact actScene_hide (by decide) _ _ _ _
      · exact actDma_hide (by decide) _ _ _ _ _)

/-- Parts: regs, pow, hw, out, rings, scene, src, dma, fault, perf. -/
theorem runRing_hide {m : Nat} (h : 0xa09000476 ||| m = m) (d : State) (x0 : _) (s : State) (x2 : _) :
    State.hide (runRing x0 s x2) m d = s.hide m d :=
  State.hide_mono h (by
    induction x0 generalizing s with
    | zero => rfl
    | succ k ih =>
      unfold runRing
      split
      · split
        · rfl
        · exact haltRing_hide (by decide) _ _ _ _ _
      · split
        · exact haltRing_hide (by decide) _ _ _ _ _
        · split
          · rfl
          · split
            · split
              · rfl
              · exact (ih _).trans ((stepChain_hide (by decide) _ _ _ _).trans ((handCommit_hide (by decide) _ _ _ _).trans
                  (State.setRing_hide (by decide) _ _ _ _)))
            · split
              · exact readAhead_hide (by decide) _ _ _
              · split
                · rfl
                · exact (ih _).trans ((actOn_hide (by decide) _ _ _ _).trans (State.setRing_hide (by decide) _ _ _ _)))

/-- Parts: free, regs, pow, hw, out, precHeld, scene, pipes, camLines, camLags, camEarly, gates, levels, fetches, src, dma, scans,
    cams, light, perf. -/
theorem portsGoOn_hide {m : Nat} (h : 0x969d744b7 ||| m = m) (d : State) (s : State) :
    State.hide (portsGoOn s) m d = s.hide m d :=
  State.hide_mono h (by
    unfold portsGoOn
    simp only [askAll_hide, decideParts_hide, endEntries_hide, serveRuns_hide, Nat.reduceOr])

/-- Parts: free, regs, pow, hw, out, rings, precHeld, scene, pipes, camLines, camLags, camEarly, gates, levels, fetches, src, dma,
    scans, cams, light, fault, perf. -/
theorem ringsGoOn_hide {m : Nat} (h : 0xb69d744f7 ||| m = m) (d : State) (s : State) :
    State.hide (ringsGoOn s) m d = s.hide m d :=
  State.hide_mono h (by
    unfold ringsGoOn
    simp (disch := first | simp only [Nat.reduceOr] | (intros; simp only [armWritten_hide, drainRing_hide, runRing_hide,
        State.each_hide, Nat.reduceOr] <;> done) | (intros; repeat' split) <;> simp only [armWritten_hide, drainRing_hide,
        runRing_hide, State.each_hide, Nat.reduceOr]) only [armWritten_hide, drainRing_hide, runRing_hide, State.each_hide,
        Nat.reduceOr])

/-- Parts: free, regs, pow, hw, out, rings, precHeld, scene, pipes, camLines, camLags, camEarly, gates, levels, fetches, src, dma,
    scans, cams, light, fault, perf. -/
theorem settle_hide {m : Nat} (h : 0xb69d744f7 ||| m = m) (d : State) (s : State) :
    State.hide (settle s) m d = s.hide m d :=
  State.hide_mono h (by
    unfold settle
    simp (disch := (intros; simp only [armWritten_hide, drainPrec_hide, drainReleases_hide, portsGoOn_hide, pumpReads_hide,
        ringsGoOn_hide, State.each_hide, Nat.reduceOr])) only [armWritten_hide, drainPrec_hide, drainReleases_hide,
        portsGoOn_hide, pumpReads_hide, ringsGoOn_hide, State.each_hide, Nat.reduceOr])

/-- Parts: free, regs, pow, hw, out, rings, precHeld, scene, pipes, camLines, camLags, camEarly, gates, levels, fetches, src, dma,
    scans, cams, light, fault, perf. -/
theorem arrive_hide {m : Nat} (h : 0xb69d744f7 ||| m = m) (d : State) (s : State) (x1 : _) (x2 : _) (x3 : _) (x4 : _) :
    State.hide (arrive s x1 x2 x3 x4) m d = s.hide m d :=
  State.hide_mono h (by
    unfold arrive
    try simp only [State.setReg_hide, State.setRing_hide, settle_hide, State.hide_ite, ite_self, Nat.reduceOr]
    repeat' split
    all_goals try simp only [State.setReg_hide, State.setRing_hide, settle_hide, State.hide_ite, ite_self, Nat.reduceOr]
    all_goals repeat' split
    all_goals simp only [State.setReg_hide, State.setRing_hide, settle_hide, State.hide_ite, ite_self, Nat.reduceOr])

/-- Parts: regs, rings, scene. -/
theorem resetRing_hide {m : Nat} (h : 0x442 ||| m = m) (d : State) (s : State) (x1 : _) :
    State.hide (resetRing s x1) m d = s.hide m d :=
  State.hide_mono h (by
    unfold resetRing
    simp (disch := (intros; simp only [State.mapScene_hide, State.setFld_hide, State.setReg_hide, State.setRing_hide,
        setStaging_hide, State.each_hide, State.hide_ite, ite_self, Nat.reduceOr])) only [State.mapScene_hide, State.setFld_hide,
        State.setReg_hide, State.setRing_hide, setStaging_hide, State.each_hide, State.hide_ite, ite_self, Nat.reduceOr])

/-- Parts: regs, pow, hw, out, rings, scene, src, dma, fault, perf. -/
theorem startRing_hide {m : Nat} (h : 0xa09000476 ||| m = m) (d : State) (s : State) (x1 : _) :
    State.hide (startRing s x1) m d = s.hide m d :=
  State.hide_mono h (by
    unfold startRing
    simp only [State.setFld_hide, State.setRing_hide, runRing_hide, State.hide_ite, ite_self, Nat.reduceOr])

/-- Parts: regs, pow, hw, out, rings, scene, src, dma, fault, perf. -/
theorem stopRing_hide {m : Nat} (h : 0xa09000476 ||| m = m) (d : State) (s : State) (x1 : _) :
    State.hide (stopRing s x1) m d = s.hide m d :=
  State.hide_mono h (by
    unfold stopRing
    simp only [State.setFld_hide, State.setRing_hide, runRing_hide, State.hide_ite, ite_self, Nat.reduceOr])

/-- Parts: regs, pow, hw, out, rings, scene, src, dma, fault, perf. -/
theorem resumeRing_hide {m : Nat} (h : 0xa09000476 ||| m = m) (d : State) (s : State) (x1 : _) :
    State.hide (resumeRing s x1) m d = s.hide m d :=
  State.hide_mono h (by
    unfold resumeRing
    simp only [State.setFld_hide, State.setReg_hide, State.setRing_hide, runRing_hide, State.hide_ite, ite_self, Nat.reduceOr])

/-- Parts: regs, pow, hw, out, rings, scene, src, dma, fault, perf. -/
theorem writeRingCtl_hide {m : Nat} (h : 0xa09000476 ||| m = m) (d : State) (s : State) (x1 : _) (x2 : _) :
    State.hide (writeRingCtl s x1 x2) m d = s.hide m d :=
  State.hide_mono h (by
    unfold writeRingCtl
    simp only [resetRing_hide, resumeRing_hide, startRing_hide, stopRing_hide, State.hide_ite, ite_self, Nat.reduceOr])

/-- Parts: free, regs, pow, hw, out, rings, precHeld, precSize, scene, pipes, camLines, camLags, camEarly, gates, levels, fetches,
    src, dma, scans, cams, light, fault, perf. -/
theorem enablePrec_hide {m : Nat} (h : 0xb69d745f7 ||| m = m) (d : State) (s : State) (x1 : _) (x2 : _) :
    State.hide (enablePrec s x1 x2) m d = s.hide m d :=
  State.hide_mono h (by
    unfold enablePrec
    simp only [State.setFld_hide, State.setReg_hide, settle_hide, State.hide_precSize, State.hide_ite, ite_self, Nat.reduceOr])

/-- Parts: regs, pow, hw, out, src. -/
theorem badDoorbell_hide {m : Nat} (h : 0x1000036 ||| m = m) (d : State) (s : State) :
    State.hide (badDoorbell s) m d = s.hide m d :=
  State.hide_mono h (by
    unfold badDoorbell
    simp only [State.addFld_hide, raise_hide, Nat.reduceOr])

/-- Parts: regs. -/
theorem unpause_hide {m : Nat} (h : 2 ||| m = m) (d : State) (s : State) (x1 : _) :
    State.hide (unpause s x1) m d = s.hide m d :=
  State.hide_mono h (by
    unfold unpause
    simp only [State.setFld_hide, State.hide_ite, ite_self, Nat.reduceOr])

/-- Parts: regs, pow, hw, out, rings, scene, src, dma, fault, perf. -/
theorem submitIndex_hide {m : Nat} (h : 0xa09000476 ||| m = m) (d : State) (s : State) (x1 : _) (x2 : _) :
    State.hide (submitIndex s x1 x2) m d = s.hide m d :=
  State.hide_mono h (by
    unfold submitIndex
    simp only [State.setReg_hide, State.setRing_hide, badDoorbell_hide, runRing_hide, State.hide_ite, ite_self, Nat.reduceOr])

/-- Parts: regs, pow, hw, out, rings, scene, src, dma, fault, perf. -/
theorem consumeIndex_hide {m : Nat} (h : 0xa09000476 ||| m = m) (d : State) (s : State) (x1 : _) (x2 : _) :
    State.hide (consumeIndex s x1 x2) m d = s.hide m d :=
  State.hide_mono h (by
    unfold consumeIndex
    simp only [State.setReg_hide, badDoorbell_hide, drainRing_hide, runRing_hide, unpause_hide, State.hide_ite, ite_self,
        Nat.reduceOr])

/-- Parts: regs, pow, hw, out, precHeld, src, perf. -/
theorem precIndex_hide {m : Nat} (h : 0x8010000b6 ||| m = m) (d : State) (s : State) (x1 : _) (x2 : _) :
    State.hide (precIndex s x1 x2) m d = s.hide m d :=
  State.hide_mono h (by
    unfold precIndex
    simp only [State.setReg_hide, badDoorbell_hide, drainPrec_hide, State.hide_ite, ite_self, Nat.reduceOr])

/-- Parts: regs, pow, hw, out, rings, precHeld, scene, src, dma, fault, perf. -/
theorem doorEntry_hide {m : Nat} (h : 0xa090004f6 ||| m = m) (d : State) (s : State) (x1 : _) :
    State.hide (doorEntry s x1) m d = s.hide m d :=
  State.hide_mono h (by
    unfold doorEntry
    simp only [badDoorbell_hide, consumeIndex_hide, precIndex_hide, queueConsumed_hide, submitIndex_hide, State.hide_ite,
        ite_self, Nat.reduceOr])

/-- Parts: regs, hw, out, perf. -/
theorem pollRing_hide {m : Nat} (h : 0x800000032 ||| m = m) (d : State) (s : State) (x1 : _) :
    State.hide (pollRing s x1) m d = s.hide m d :=
  State.hide_mono h (by
    unfold pollRing
    simp only [readHost_hide, State.hide_ite, ite_self, Nat.reduceOr])

/-- Parts: regs, pow, hw, out, rings, scene, src, dma, fault, perf. -/
theorem polled_hide {m : Nat} (h : 0xa09000476 ||| m = m) (d : State) (s : State) (x1 : _) (x2 : _) :
    State.hide (polled s x1 x2) m d = s.hide m d :=
  State.hide_mono h (by
    unfold polled
    simp only [consumeIndex_hide, submitIndex_hide, State.hide_ite, ite_self, Nat.reduceOr])

/-- Parts: regs, pow, hw, out, rings, src, perf. -/
theorem descFault_hide {m : Nat} (h : 0x801000076 ||| m = m) (d : State) (s : State) (x1 : _) (x2 : _) (x3 : _) :
    State.hide (descFault s x1 x2 x3) m d = s.hide m d :=
  State.hide_mono h (by
    unfold descFault
    simp only [countBad_hide, endRing_hide, failSlot_hide, State.hide_ite, ite_self, Nat.reduceOr])

/-- Parts: regs, rings. -/
theorem slotsArrived_hide {m : Nat} (h : 0x42 ||| m = m) (d : State) (s : State) (x1 : _) (x2 : _) (x3 : _) (x4 : _) :
    State.hide (slotsArrived s x1 x2 x3 x4) m d = s.hide m d :=
  State.hide_mono h (by
    unfold slotsArrived
    simp only [State.setReg_hide, State.setRing_hide, Nat.reduceOr])

/-- Parts: free, regs, pow, hw, out, rings, precHeld, scene, mem, pipes, camLines, camLags, camEarly, gates, levels, fetches, src,
    dma, scans, cams, light, fault, perf. -/
theorem deliver_hide {m : Nat} (h : 0xb69d74cf7 ||| m = m) (d : State) (s : State) (x1 : _) (x2 : _) :
    State.hide (deliver s x1 x2) m d = s.hide m d :=
  State.hide_mono h (by
    unfold deliver
    repeat' split
    all_goals simp only [State.setRing_hide, contentArrived_hide, contentFaulted_hide, descFault_hide, dmaArrived_hide,
        fenceArrived_hide, polled_hide, slotsArrived_hide, State.hide_ite, ite_self, Nat.reduceOr])

/-- Parts: free, regs, pow, hw, out, rings, precHeld, scene, mem, pipes, camLines, camLags, camEarly, gates, levels, fetches, src,
    dma, scans, cams, light, fault, perf. -/
theorem readAnswered_hide {m : Nat} (h : 0xb69d74cf7 ||| m = m) (d : State) (s : State) (x1 : _) (x2 : _) (x3 : _) :
    State.hide (readAnswered s x1 x2 x3) m d = s.hide m d :=
  State.hide_mono h (by
    unfold readAnswered
    repeat' split
    all_goals simp only [deliver_hide, pump_hide, settle_hide, State.hide_hw, State.hide_ite, ite_self, Nat.reduceOr])

/-! Compose. -/

/-- Parts: scene, loft, furrowStore. -/
theorem storeFurrow_hide {m : Nat} (h : 0x82400 ||| m = m) (d : State) (s : State) (x1 : _) (x2 : _) (x3 : _) :
    State.hide (storeFurrow s x1 x2 x3) m d = s.hide m d :=
  State.hide_mono h (by
    unfold storeFurrow
    simp only [State.hide_furrowStore, Nat.reduceOr])

/-- Parts: regs, pow, hw, out, pipes, fetches, src, light. -/
theorem checkSource_hide {m : Nat} (h : 0x101804036 ||| m = m) (d : State) (s : State) (x1 : _) :
    State.hide (checkSource s x1) m d = s.hide m d :=
  State.hide_mono h (by
    unfold checkSource
    simp only [State.addFld_hide, State.setReg_hide, holdOffPlanar_hide, slotFault_hide, State.hide_ite, ite_self, Nat.reduceOr])

/-- Parts: regs, pow, hw, out, precHeld, scene, pipes, fetches, src, light, perf. -/
theorem lastBale_hide {m : Nat} (h : 0x9018044b6 ||| m = m) (d : State) (s : State) (x1 : _) :
    State.hide (lastBale s x1) m d = s.hide m d :=
  State.hide_mono h (by
    unfold lastBale
    simp only [baleFetched_hide, checkSource_hide, State.hide_ite, ite_self, Nat.reduceOr])

/-! Windows. -/

/-- Parts: regs. -/
theorem winStatus_hide {m : Nat} (h : 2 ||| m = m) (d : State) (s : State) (x1 : _) (x2 : _) :
    State.hide (winStatus s x1 x2) m d = s.hide m d :=
  State.hide_mono h (by
    unfold winStatus
    simp only [State.setFld_hide, Nat.reduceOr])

/-- Parts: regs, pow, hw, out, src, wins. -/
theorem latchWindow_hide {m : Nat} (h : 0x5000036 ||| m = m) (d : State) (s : State) (x1 : _) (x2 : _) (x3 : _) :
    State.hide (latchWindow s x1 x2 x3) m d = s.hide m d :=
  State.hide_mono h (by
    unfold latchWindow
    simp only [State.setWindow_hide, raise_hide, winStatus_hide, State.hide_ite, ite_self, Nat.reduceOr])

/-- Parts: regs, pow, hw, out, src, wins. -/
theorem latchWindows_hide {m : Nat} (h : 0x5000036 ||| m = m) (d : State) (s : State) (x1 : _) (x2 : _) :
    State.hide (latchWindows s x1 x2) m d = s.hide m d :=
  State.hide_mono h (by
    unfold latchWindows
    refine State.each_hide _ _ _ _ _ fun _ _ => ?_
    repeat' split
    all_goals first | rfl | simp only [latchWindow_hide, State.each_hide, Nat.reduceOr])

/-- Parts: regs, pow, hw, out, pipes, fetches, src, light. -/
theorem windowAction_hide {m : Nat} (h : 0x101804036 ||| m = m) (d : State) (s : State) (x1 : _) (x2 : _) :
    State.hide (windowAction s x1 x2) m d = s.hide m d :=
  State.hide_mono h (by
    unfold windowAction
    simp only [holdOffObject_hide, holdOffPlanar_hide, raise_hide, State.hide_ite, ite_self, Nat.reduceOr])

/-- Parts: regs, pow, hw, out, src. -/
theorem windowMiss_hide {m : Nat} (h : 0x1000036 ||| m = m) (d : State) (s : State) (x1 : _) :
    State.hide (windowMiss s x1) m d = s.hide m d :=
  State.hide_mono h (by
    unfold windowMiss
    simp only [State.addFld_hide, State.setFbit_hide, State.setFld_hide, raise_hide, winStatus_hide, Nat.reduceOr])

/-- Parts: regs, pow, hw, out, pipes, fetches, src, light. -/
theorem windowLimit_hide {m : Nat} (h : 0x101804036 ||| m = m) (d : State) (s : State) (x1 : _) (x2 : _) (x3 : _) :
    State.hide (windowLimit s x1 x2 x3) m d = s.hide m d :=
  State.hide_mono h (by
    unfold windowLimit
    simp only [State.setFld_hide, windowAction_hide, State.hide_ite, ite_self, Nat.reduceOr])

/-- Parts: regs, pow, hw, out, pipes, fetches, src, light. -/
theorem windowVerdict_hide {m : Nat} (h : 0x101804036 ||| m = m) (d : State) (s : State) (x1 : _) (x2 : _) (x3 : _) (x4 : _) :
    State.hide (windowVerdict s x1 x2 x3 x4) m d = s.hide m d :=
  State.hide_mono h (by
    unfold windowVerdict
    repeat' split
    all_goals simp only [State.setFld_hide, winStatus_hide, windowLimit_hide, windowMiss_hide, State.hide_ite, ite_self,
        Nat.reduceOr])

/-- Parts: regs, pow, hw, out, pipes, fetches, src, wins, light. -/
theorem closeWindow_hide {m : Nat} (h : 0x105804036 ||| m = m) (d : State) (s : State) (x1 : _) (x2 : _) :
    State.hide (closeWindow s x1 x2) m d = s.hide m d :=
  State.hide_mono h (by
    unfold closeWindow
    simp only [State.setReg_hide, State.setWindow_hide, windowVerdict_hide, Nat.reduceOr])

/-- Parts: regs, pow, hw, out, pipes, fetches, src, wins, light. -/
theorem windowsAt_hide {m : Nat} (h : 0x105804036 ||| m = m) (d : State) (s : State) (x1 : _) (x2 : _) :
    State.hide (windowsAt s x1 x2) m d = s.hide m d :=
  State.hide_mono h (by
    unfold windowsAt
    refine State.each_hide _ _ _ _ _ fun _ _ => ?_
    repeat' split
    all_goals first | rfl | simp only [State.setWindow_hide, closeWindow_hide, State.each_hide, State.hide_ite, ite_self,
        Nat.reduceOr])

/-- Parts: wins. -/
theorem feedWindows_hide {m : Nat} (h : 0x4000000 ||| m = m) (d : State) (s : State) (x1 : _) (x2 : _) :
    State.hide (feedWindows s x1 x2) m d = s.hide m d :=
  State.hide_mono h (by
    unfold feedWindows
    refine State.each_hide _ _ _ _ _ fun _ _ => ?_
    repeat' split
    all_goals first | rfl | simp only [State.setWindow_hide, State.each_hide, State.hide_ite, ite_self, Nat.reduceOr])

/-- Parts: light. -/
theorem feedZones_hide {m : Nat} (h : 0x100000000 ||| m = m) (d : State) (s : State) (x1 : _) (x2 : _) (x3 : _) :
    State.hide (feedZones s x1 x2 x3) m d = s.hide m d :=
  State.hide_mono h (by
    unfold feedZones
    refine State.each_hide _ _ _ _ _ fun _ _ => ?_
    repeat' split
    all_goals first | rfl | simp only [zoneCount_hide, State.each_hide, Nat.reduceOr])

/-! Strobe. -/

/-- Parts: regs. -/
theorem applyWords_hide {m : Nat} (h : 2 ||| m = m) (d : State) (s : State) (x1 : _) :
    State.hide (applyWords s x1) m d = s.hide m d :=
  State.hide_mono h (by
    unfold applyWords
    refine State.each_hide _ _ _ _ _ fun _ _ => ?_
    repeat' split
    all_goals first | rfl | simp only [State.setReg_hide, State.each_hide, Nat.reduceOr])

/-- Parts: regs, pow, hw, out, pipes, src, groups, light. -/
theorem groupChanged_hide {m : Nat} (h : 0x181004036 ||| m = m) (d : State) (x0 : _) (s : State) (x2 : _) :
    State.hide (groupChanged x0 s x2) m d = s.hide m d :=
  State.hide_mono h (by
    unfold groupChanged
    simp only [State.setGroup_hide, bringUp_hide, recheckLink_hide, setGroupState_hide, startGroup_hide, waitLink_hide,
        State.hide_ite, ite_self, Nat.reduceOr])

/-- Parts: regs, cams. -/
theorem camChanged_hide {m : Nat} (h : 0x40000002 ||| m = m) (d : State) (x0 : _) (s : State) (x2 : _) :
    State.hide (camChanged x0 s x2) m d = s.hide m d :=
  State.hide_mono h (by
    unfold camChanged
    simp only [State.setCam_hide, State.setFld_hide, camClose_hide, State.hide_ite, ite_self, Nat.reduceOr])

/-- Parts: regs, pow, hw, out, pipes, src, cams, groups, light. -/
theorem laneChanged_hide {m : Nat} (h : 0x1c1004036 ||| m = m) (d : State) (x0 : _) (s : State) (x2 : _) :
    State.hide (laneChanged x0 s x2) m d = s.hide m d :=
  State.hide_mono h (by
    unfold laneChanged
    refine State.each_hide _ _ _ _ _ fun _ _ => ?_
    repeat' split
    all_goals first | rfl | simp only [camChanged_hide, groupChanged_hide, State.each_hide, State.hide_ite, ite_self, Nat.reduceOr])

/-- Parts: regs, pipes. -/
theorem pllsChanged_hide {m : Nat} (h : 0x4002 ||| m = m) (d : State) (x0 : _) (s : State) :
    State.hide (pllsChanged x0 s) m d = s.hide m d :=
  State.hide_mono h (by
    unfold pllsChanged
    refine State.each_hide _ _ _ _ _ fun t n => ?_
    split
    · rfl
    · refine (State.each_hide _ _ _ _ _ fun u p => ?_).trans (State.setFld_hide (by decide) _ _ _ _)
      split
      · exact State.setPipe_hide (by decide) _ _ _ _
      · rfl)

/-- Parts: regs, pow, hw, out, pipes, src, light, fault. -/
theorem startPipe_hide {m : Nat} (h : 0x301004036 ||| m = m) (d : State) (s : State) (x1 : _) :
    State.hide (startPipe s x1) m d = s.hide m d :=
  State.hide_mono h (by
    unfold startPipe
    simp only [State.setPipe_hide, blackLine_hide, forceHold_hide, offFrame_hide, recheckLink_hide, State.hide_fault,
        State.hide_ite, ite_self, Nat.reduceOr])

/-- Parts: regs, pow, hw, out, gates, src. -/
theorem listsChanged_hide {m : Nat} (h : 0x1100036 ||| m = m) (d : State) (s : State) (x1 : _) :
    State.hide (listsChanged s x1) m d = s.hide m d :=
  State.hide_mono h (by
    unfold listsChanged
    refine State.each_hide _ _ _ _ _ fun _ _ => ?_
    repeat' split
    all_goals first | rfl | simp only [armGate_hide, State.each_hide, Nat.reduceOr])

/-- Parts: regs, pow, hw, out, pipes, gates, gcl, src, cams, groups, light. -/
theorem applyPend_hide {m : Nat} (h : 0x1c1304036 ||| m = m) (d : State) (s : State) (x1 : _) :
    State.hide (applyPend s x1) m d = s.hide m d :=
  State.hide_mono h (by
    unfold applyPend
    simp only [applyWords_hide, laneChanged_hide, listsChanged_hide, pllsChanged_hide, State.hide_gcl, State.hide_ite, ite_self,
        Nat.reduceOr])

/-- Parts: regs, pow, hw, out, pipes, gates, gcl, src, cams, groups, light. -/
theorem applyCamParts_hide {m : Nat} (h : 0x1c1304036 ||| m = m) (d : State) (s : State) (x1 : _) :
    State.hide (applyCamParts s x1) m d = s.hide m d :=
  State.hide_mono h (by
    unfold applyCamParts
    refine State.each_hide _ _ _ _ _ fun _ _ => ?_
    repeat' split
    all_goals first | rfl | simp only [applyPend_hide, State.hide_regs, State.each_hide, Nat.reduceOr])

/-- Parts: regs, pow, hw, out, pipes, gates, gcl, src, cams, groups, light. -/
theorem releaseSilentCams_hide {m : Nat} (h : 0x1c1304036 ||| m = m) (d : State) (s : State) :
    State.hide (releaseSilentCams s) m d = s.hide m d :=
  State.hide_mono h (by
    unfold releaseSilentCams
    simp (disch := (intros; simp only [applyCamParts_hide, State.each_hide, State.hide_ite, ite_self,
        Nat.reduceOr])) only [applyCamParts_hide, State.each_hide, State.hide_ite, ite_self, Nat.reduceOr])

/-- Parts: regs, pow, hw, out, pipes, src. -/
theorem fallbackProof_hide {m : Nat} (h : 0x1004036 ||| m = m) (d : State) (s : State) :
    State.hide (fallbackProof s) m d = s.hide m d :=
  State.hide_mono h (by
    unfold fallbackProof
    simp (disch := (intros; simp only [State.setPipe_hide, raise_hide, State.each_hide, State.hide_ite, ite_self,
        Nat.reduceOr])) only [State.setPipe_hide, raise_hide, State.each_hide, State.hide_ite, ite_self, Nat.reduceOr])

/-- Parts: regs, pow, hw, out, queueSizes, pipes, gates, gcl, levels, src, cams, groups, light, fault. -/
theorem distribute_hide {m : Nat} (h : 0x3c1704236 ||| m = m) (d : State) (s : State) (x1 : _) (x2 : _) (x3 : _) :
    State.hide (distribute s x1 x2 x3) m d = s.hide m d :=
  State.hide_mono h (by
    have e1 : ∀ (t : State) l, (t.each l applyPend).hide 0x3c1704236 d = t.hide 0x3c1704236 d :=
      fun t l => State.each_hide _ _ _ _ _ fun _ _ => applyPend_hide (by decide) _ _ _
    have e2 : ∀ (t : State) l, (t.each l startPipe).hide 0x3c1704236 d = t.hide 0x3c1704236 d :=
      fun t l => State.each_hide _ _ _ _ _ fun _ _ => startPipe_hide (by decide) _ _ _
    unfold distribute
    simp only [State.hide_ite, fallbackProof_hide, e1, e2, pllsChanged_hide, evtStrobed_hide, laneChanged_hide, shaperChange_hide,
      dropCamLines_hide, applyWords_hide, State.hide_regs, ite_self, Nat.reduceOr])

/-- Parts: regs, pow, hw, out, src. -/
theorem refuseStrobe_hide {m : Nat} (h : 0x1000036 ||| m = m) (d : State) (s : State) (x1 : _) (x2 : _) :
    State.hide (refuseStrobe s x1 x2) m d = s.hide m d :=
  State.hide_mono h (by
    unfold refuseStrobe
    simp only [State.setFld_hide, raise_hide, Nat.reduceOr])

/-- Parts: scene. -/
theorem replaceWaiting_hide {m : Nat} (h : 0x400 ||| m = m) (d : State) (s : State) (x1 : _) :
    State.hide (replaceWaiting s x1) m d = s.hide m d :=
  State.hide_mono h (by
    unfold replaceWaiting
    simp only [State.mapScene_hide, Nat.reduceOr])

/-- Parts: free, regs, pow, hw, out, rings, precHeld, queueSizes, scene, pipes, camLines, camLags, camEarly, gates, gcl, levels,
    fetches, src, dma, scans, cams, groups, light, fault, perf. -/
theorem strobe_hide {m : Nat} (h : 0xbe9f746f7 ||| m = m) (d : State) (s : State) (x1 : _) :
    State.hide (strobe s x1) m d = s.hide m d :=
  State.hide_mono h (by
    unfold strobe
    try simp only [distribute_hide, refuseStrobe_hide, replaceWaiting_hide, settle_hide, submit_hide, State.hide_ite, ite_self,
        Nat.reduceOr]
    repeat' split
    all_goals try simp only [distribute_hide, refuseStrobe_hide, replaceWaiting_hide, settle_hide, submit_hide, State.hide_ite,
        ite_self, Nat.reduceOr]
    all_goals repeat' split
    all_goals simp only [distribute_hide, refuseStrobe_hide, replaceWaiting_hide, settle_hide, submit_hide, State.hide_ite,
        ite_self, Nat.reduceOr])

/-- Parts: free, regs, pow, hw, out, rings, precHeld, queueSizes, scene, pipes, camLines, camLags, camEarly, gates, gcl, levels,
    fetches, src, dma, scans, cams, groups, light, fault, perf. -/
theorem strobeProved_hide {m : Nat} (h : 0xbe9f746f7 ||| m = m) (d : State) (s : State) :
    State.hide (strobeProved s) m d = s.hide m d :=
  State.hide_mono h (by
    unfold strobeProved
    repeat' split
    all_goals simp only [State.mapScene_hide, distribute_hide, liftHolds_hide, refuseStrobe_hide, settle_hide, startProof_hide,
        State.hide_ite, ite_self, Nat.reduceOr])

end Sys2Proof.Machine
end

