-- ==== Sys2Proof/Laws/Frames3.lean ====
section
/-! SUPPORT. What the operations of these files can touch (see Frames):
Reproof, Barn, Failover, Faults, Perf, Raster. -/

set_option linter.all false

namespace Sys2Proof.Machine

/-! Reproof. -/

/-- Parts: regs, pow, hw, out, pipes, src, light. -/
theorem fallFor_hide {m : Nat} (h : 0x101004036 ||| m = m) (d : State) (s : State) (x1 : _) :
    State.hide (fallFor s x1) m d = s.hide m d :=
  State.hide_mono h (by
    unfold fallFor
    simp only [State.setPipe_hide, forceHold_hide, pipeFault_hide, requestFallback_hide, Nat.reduceOr])

/-- Parts: pipes. -/
theorem setShedNext_hide {m : Nat} (h : 0x4000 ||| m = m) (d : State) (s : State) (x1 : _) :
    State.hide (setShedNext s x1) m d = s.hide m d :=
  State.hide_mono h (by
    unfold setShedNext
    refine State.each_hide _ _ _ _ _ fun _ _ => ?_
    repeat' split
    all_goals first | rfl | simp only [State.setPipe_hide, State.each_hide, Nat.reduceOr])

/-- Parts: regs, pow, hw, out, precHeld, scene, src, perf. -/
theorem settlePart_hide {m : Nat} (h : 0x8010004b6 ||| m = m) (d : State) (s : State) (x1 : _) :
    State.hide (settlePart s x1) m d = s.hide m d :=
  State.hide_mono h (by
    unfold settlePart
    repeat' split
    all_goals simp only [dropPart_hide, setArmed_hide, State.hide_ite, ite_self, Nat.reduceOr])

/-- Parts: regs, pow, hw, out, precHeld, scene, pipes, levels, src, light, perf. -/
theorem reprove_hide {m : Nat} (h : 0x9014044b6 ||| m = m) (d : State) (s : State) :
    State.hide (reprove s) m d = s.hide m d :=
  State.hide_mono h (by
    unfold reprove
    simp (disch := (intros; simp only [State.mapScene_hide, fallFor_hide, setShedNext_hide, setThrottle_hide, settlePart_hide,
        State.each_hide, State.hide_ite, ite_self, Nat.reduceOr])) only [State.mapScene_hide, fallFor_hide, setShedNext_hide,
        setThrottle_hide, settlePart_hide, State.each_hide, State.hide_ite, ite_self, Nat.reduceOr])

/-- Parts: scene. -/
theorem restartProof_hide {m : Nat} (h : 0x400 ||| m = m) (d : State) (s : State) :
    State.hide (restartProof s) m d = s.hide m d :=
  State.hide_mono h (by
    unfold restartProof
    repeat' split
    all_goals simp only [State.mapScene_hide, Nat.reduceOr])

/-- Parts: scene, fault. -/
theorem oweReproof_hide {m : Nat} (h : 0x200000400 ||| m = m) (d : State) (s : State) (x1 : _) :
    State.hide (oweReproof s x1) m d = s.hide m d :=
  State.hide_mono h (by
    unfold oweReproof
    repeat' split
    all_goals simp only [State.mapScene_hide, restartProof_hide, State.hide_fault, State.hide_ite, ite_self, Nat.reduceOr])

/-- Parts: regs, pow, hw, out, precHeld, scene, pipes, levels, src, light, fault, perf. -/
theorem reproofDone_hide {m : Nat} (h : 0xb014044b6 ||| m = m) (d : State) (s : State) :
    State.hide (reproofDone s) m d = s.hide m d :=
  State.hide_mono h (by
    unfold reproofDone
    simp only [reprove_hide, restartProof_hide, startProof_hide, State.hide_fault, State.hide_ite, ite_self, Nat.reduceOr])

/-! Barn. -/

/-- Parts: barn. -/
theorem State.mapBarn_hide {m : Nat} (h : 0x400000000 ||| m = m) (d : State) (s : State) (x1 : _) :
    State.hide (State.mapBarn s x1) m d = s.hide m d :=
  State.hide_mono h (by
    unfold State.mapBarn
    simp only [State.hide_barn, Nat.reduceOr])

/-- Parts: regs, barn. -/
theorem flogEntry_hide {m : Nat} (h : 0x400000002 ||| m = m) (d : State) (s : State) (x1 : _) (x2 : _) (x3 : _) (x4 : _) :
    State.hide (flogEntry s x1 x2 x3 x4) m d = s.hide m d :=
  State.hide_mono h (by
    unfold flogEntry
    simp only [State.setFld_hide, State.hide_barn, State.hide_ite, ite_self, Nat.reduceOr])

/-- Parts: regs, pow, hw, out, src, barn. -/
theorem checkWorn_hide {m : Nat} (h : 0x401000036 ||| m = m) (d : State) (s : State) :
    State.hide (checkWorn s) m d = s.hide m d :=
  State.hide_mono h (by
    unfold checkWorn
    simp only [State.mapBarn_hide, raise_hide, State.hide_ite, ite_self, Nat.reduceOr])

/-- Parts: regs, pow, hw, out, src, barn. -/
theorem retireSector_hide {m : Nat} (h : 0x401000036 ||| m = m) (d : State) (s : State) (x1 : _) :
    State.hide (retireSector s x1) m d = s.hide m d :=
  State.hide_mono h (by
    unfold retireSector
    simp only [State.mapBarn_hide, checkWorn_hide, flogEntry_hide, raise_hide, Nat.reduceOr])

/-- Parts: regs, pow, hw, out, src, barn. -/
theorem compactSector_hide {m : Nat} (h : 0x401000036 ||| m = m) (d : State) (s : State) (x1 : _) :
    State.hide (compactSector s x1) m d = s.hide m d :=
  State.hide_mono h (by
    unfold compactSector
    simp only [State.addFld_hide, State.mapBarn_hide, retireSector_hide, State.hide_ite, ite_self, Nat.reduceOr])

/-- Parts: regs, pow, hw, out, src, barn. -/
theorem goOn_hide {m : Nat} (h : 0x401000036 ||| m = m) (d : State) (s : State) :
    State.hide (goOn s) m d = s.hide m d :=
  State.hide_mono h (by
    unfold goOn
    simp (disch := first | simp only [Nat.reduceOr] | (intros; simp only [compactSector_hide, State.each_hide, State.hide_ite,
        ite_self, Nat.reduceOr] <;> done) | (intros; repeat' split) <;> simp only [compactSector_hide, State.each_hide,
        State.hide_ite, ite_self, Nat.reduceOr]) only [compactSector_hide, State.each_hide, State.hide_ite, ite_self, Nat.reduceOr])

/-- Parts: regs, pow, hw, out, src, barn. -/
theorem gleanerRun_hide {m : Nat} (h : 0x401000036 ||| m = m) (d : State) (s : State) :
    State.hide (gleanerRun s) m d = s.hide m d :=
  State.hide_mono h (by
    unfold gleanerRun
    try simp only [compactSector_hide, goOn_hide, State.hide_ite, ite_self, Nat.reduceOr]
    repeat' split
    all_goals try simp only [compactSector_hide, goOn_hide, State.hide_ite, ite_self, Nat.reduceOr]
    all_goals repeat' split
    all_goals simp only [compactSector_hide, goOn_hide, State.hide_ite, ite_self, Nat.reduceOr])

/-- Parts: regs, pow, hw, out, src, barn. -/
theorem sectorErased_hide {m : Nat} (h : 0x401000036 ||| m = m) (d : State) (s : State) (x1 : _) :
    State.hide (sectorErased s x1) m d = s.hide m d :=
  State.hide_mono h (by
    unfold sectorErased
    simp only [State.mapBarn_hide, goOn_hide, State.hide_ite, ite_self, Nat.reduceOr])

/-- Parts: free, regs, pow, hw, out, src, barn. -/
theorem sectorFailed_hide {m : Nat} (h : 0x401000037 ||| m = m) (d : State) (s : State) (x1 : _) (x2 : _) :
    State.hide (sectorFailed s x1 x2) m d = s.hide m d :=
  State.hide_mono h (by
    unfold sectorFailed
    simp only [State.freshen_hide, State.mapBarn_hide, goOn_hide, retireSector_hide, State.hide_ite, ite_self, Nat.reduceOr])

/-- Parts: regs, pow, hw, out, src, barn. -/
theorem journalGo_hide {m : Nat} (h : 0x401000036 ||| m = m) (d : State) (s : State) :
    State.hide (journalGo s) m d = s.hide m d :=
  State.hide_mono h (by
    unfold journalGo
    simp only [State.mapBarn_hide, State.setFld_hide, raise_hide, State.hide_ite, ite_self, Nat.reduceOr])

/-- Parts: regs, pow, hw, out, src, barn. -/
theorem writeHand_hide {m : Nat} (h : 0x401000036 ||| m = m) (d : State) (s : State) (x1 : _) :
    State.hide (writeHand s x1) m d = s.hide m d :=
  State.hide_mono h (by
    unfold writeHand
    simp only [State.mapBarn_hide, State.setFld_hide, raise_hide, State.hide_ite, ite_self, Nat.reduceOr])

/-- Parts: regs, pow, hw, out, src, barn. -/
theorem finishJob_hide {m : Nat} (h : 0x401000036 ||| m = m) (d : State) (s : State) :
    State.hide (finishJob s) m d = s.hide m d :=
  State.hide_mono h (by
    unfold finishJob
    repeat' split
    all_goals simp only [State.mapBarn_hide, goOn_hide, writeHand_hide, State.hide_ite, ite_self, Nat.reduceOr])

/-- Parts: regs, barn. -/
theorem journalRead_hide {m : Nat} (h : 0x400000002 ||| m = m) (d : State) (s : State) :
    State.hide (journalRead s) m d = s.hide m d :=
  State.hide_mono h (by
    unfold journalRead
    simp only [State.mapBarn_hide, State.setFld_hide, State.hide_ite, ite_self, Nat.reduceOr])

/-- Parts: regs, pow, hw, out, src, barn. -/
theorem finishRead_hide {m : Nat} (h : 0x401000036 ||| m = m) (d : State) (s : State) :
    State.hide (finishRead s) m d = s.hide m d :=
  State.hide_mono h (by
    unfold finishRead
    repeat' split
    all_goals simp only [State.mapBarn_hide, State.setFld_hide, raise_hide, State.hide_ite, ite_self, Nat.reduceOr])

/-- Parts: regs, barn. -/
theorem startProgram_hide {m : Nat} (h : 0x400000002 ||| m = m) (d : State) (s : State) (x1 : _) (x2 : _) :
    State.hide (startProgram s x1 x2) m d = s.hide m d :=
  State.hide_mono h (by
    unfold startProgram
    simp only [State.mapBarn_hide, State.setFld_hide, Nat.reduceOr])

/-- Parts: regs, barn. -/
theorem rawFlush_hide {m : Nat} (h : 0x400000002 ||| m = m) (d : State) (s : State) :
    State.hide (rawFlush s) m d = s.hide m d :=
  State.hide_mono h (by
    unfold rawFlush
    repeat' split
    all_goals simp only [startProgram_hide, State.hide_ite, ite_self, Nat.reduceOr])

/-- Parts: regs, barn. -/
theorem rawErase_hide {m : Nat} (h : 0x400000002 ||| m = m) (d : State) (s : State) (x1 : _) :
    State.hide (rawErase s x1) m d = s.hide m d :=
  State.hide_mono h (by
    unfold rawErase
    simp only [State.mapBarn_hide, State.setFld_hide, State.hide_ite, ite_self, Nat.reduceOr])

/-- Parts: regs, barn. -/
theorem nextPage_hide {m : Nat} (h : 0x400000002 ||| m = m) (d : State) (s : State) :
    State.hide (nextPage s) m d = s.hide m d :=
  State.hide_mono h (by
    unfold nextPage
    repeat' split
    all_goals simp only [startProgram_hide, State.hide_ite, ite_self, Nat.reduceOr])

/-- Parts: free, regs, pow, hw, out, src, barn. -/
theorem finishRaw_hide {m : Nat} (h : 0x401000037 ||| m = m) (d : State) (s : State) (x1 : _) :
    State.hide (finishRaw s x1) m d = s.hide m d :=
  State.hide_mono h (by
    unfold finishRaw
    repeat' split
    all_goals simp only [State.freshen_hide, State.mapBarn_hide, State.setFld_hide, nextPage_hide, raise_hide, State.hide_ite,
        ite_self, Nat.reduceOr])

/-- Parts: regs, barn. -/
theorem pageWrite_hide {m : Nat} (h : 0x400000002 ||| m = m) (d : State) (s : State) (x1 : _) (x2 : _) :
    State.hide (pageWrite s x1 x2) m d = s.hide m d :=
  State.hide_mono h (by
    unfold pageWrite
    simp only [State.mapBarn_hide, startProgram_hide, State.hide_ite, ite_self, Nat.reduceOr])

/-- Parts: regs, barn. -/
theorem barnWrite_hide {m : Nat} (h : 0x400000002 ||| m = m) (d : State) (s : State) (x1 : _) (x2 : _) (x3 : _) :
    State.hide (barnWrite s x1 x2 x3) m d = s.hide m d :=
  State.hide_mono h (by
    unfold barnWrite
    simp only [State.mapBarn_hide, pageWrite_hide, State.hide_ite, ite_self, Nat.reduceOr])

/-- Parts: regs, pow, hw, out, src, barn. -/
theorem closeOpen_hide {m : Nat} (h : 0x401000036 ||| m = m) (d : State) (x0 : _) (s : State) (x2 : _) :
    State.hide (closeOpen x0 s x2) m d = s.hide m d :=
  State.hide_mono h (by
    unfold closeOpen
    simp only [State.mapBarn_hide, raise_hide, State.hide_ite, ite_self, Nat.reduceOr])

/-- Parts: regs, barn. -/
theorem readFlog_hide {m : Nat} (h : 0x400000002 ||| m = m) (d : State) (s : State) :
    State.hide (readFlog s) m d = s.hide m d :=
  State.hide_mono h (by
    unfold readFlog
    simp only [State.mapBarn_hide, State.setFld_hide, State.hide_ite, ite_self, Nat.reduceOr])

/-- Parts: regs, pow, hw, out, src, barn. -/
theorem startBarn_hide {m : Nat} (h : 0x401000036 ||| m = m) (d : State) (s : State) :
    State.hide (startBarn s) m d = s.hide m d :=
  State.hide_mono h (by
    unfold startBarn
    simp (disch := (intros; simp only [State.mapBarn_hide, closeOpen_hide, readFlog_hide, State.each_hide,
        Nat.reduceOr])) only [State.mapBarn_hide, closeOpen_hide, readFlog_hide, State.each_hide, Nat.reduceOr])

/-- Parts: regs, pow, hw, out, src, barn. -/
theorem resumeBarn_hide {m : Nat} (h : 0x401000036 ||| m = m) (d : State) (s : State) :
    State.hide (resumeBarn s) m d = s.hide m d :=
  State.hide_mono h (by
    unfold resumeBarn
    simp only [State.mapBarn_hide, goOn_hide, Nat.reduceOr])

/-- Parts: barn. -/
theorem tearRecord_hide {m : Nat} (h : 0x400000000 ||| m = m) (d : State) (s : State) :
    State.hide (tearRecord s) m d = s.hide m d :=
  State.hide_mono h (by
    unfold tearRecord
    repeat' split
    all_goals simp only [State.mapBarn_hide, State.hide_ite, ite_self, Nat.reduceOr])

/-- Parts: free, regs, pow, hw, out, src, barn. -/
theorem stopBarn_hide {m : Nat} (h : 0x401000037 ||| m = m) (d : State) (s : State) (x1 : _) :
    State.hide (stopBarn s x1) m d = s.hide m d :=
  State.hide_mono h (by
    unfold stopBarn
    try simp only [State.freshen_hide, State.mapBarn_hide, tearRecord_hide, writeHand_hide, State.hide_ite, ite_self, Nat.reduceOr]
    repeat' split
    all_goals try simp only [State.freshen_hide, State.mapBarn_hide, tearRecord_hide, writeHand_hide, State.hide_ite, ite_self,
        Nat.reduceOr]
    all_goals repeat' split
    all_goals simp only [State.freshen_hide, State.mapBarn_hide, tearRecord_hide, writeHand_hide, State.hide_ite, ite_self,
        Nat.reduceOr])

/-! Failover. -/

/-- Parts: regs, hw, out, perf. -/
theorem resendAll_hide {m : Nat} (h : 0x800000032 ||| m = m) (d : State) (s : State) :
    State.hide (resendAll s) m d = s.hide m d :=
  State.hide_mono h (by
    unfold resendAll
    refine State.each_hide _ _ _ _ _ fun _ _ => ?_
    repeat' split
    all_goals first | rfl | simp only [State.addFld_hide, transmit_hide, State.hide_hw, State.each_hide, Nat.reduceOr])

/-- Parts: hw. -/
theorem freshCounts_hide {m : Nat} (h : 0x10 ||| m = m) (d : State) (s : State) :
    State.hide (freshCounts s) m d = s.hide m d :=
  State.hide_mono h (by
    unfold freshCounts
    simp only [State.hide_hw, Nat.reduceOr])

/-- Parts: regs, pow, hw, out, src, perf. -/
theorem switchOver_hide {m : Nat} (h : 0x801000036 ||| m = m) (d : State) (s : State) :
    State.hide (switchOver s) m d = s.hide m d :=
  State.hide_mono h (by
    unfold switchOver
    simp only [State.addFld_hide, freshCounts_hide, pump_hide, raise_hide, resendAll_hide, setActive_hide, Nat.reduceOr])

/-- Parts: regs, pow, hw, out, rings, scene, pipes, src, dma, light, barn. -/
theorem hostLost_hide {m : Nat} (h : 0x509004476 ||| m = m) (d : State) (s : State) :
    State.hide (hostLost s) m d = s.hide m d :=
  State.hide_mono h (by
    unfold hostLost
    simp (disch := (intros; simp only [State.setFld_hide, discardScenes_hide, dropDma_hide, flogEntry_hide, haltRing_hide,
        noteHeld_hide, raise_hide, refreshTelltales_hide, requestFallback_hide, wakeAll_hide, State.hide_hw, State.each_hide,
        State.hide_ite, ite_self, Nat.reduceOr])) only [State.setFld_hide, discardScenes_hide, dropDma_hide, flogEntry_hide,
        haltRing_hide, noteHeld_hide, raise_hide, refreshTelltales_hide, requestFallback_hide, wakeAll_hide, State.hide_hw,
        State.each_hide, State.hide_ite, ite_self, Nat.reduceOr])

/-- Parts: regs, pow, hw, out, rings, scene, pipes, src, dma, light, barn. -/
theorem loseHost_hide {m : Nat} (h : 0x509004476 ||| m = m) (d : State) (s : State) :
    State.hide (loseHost s) m d = s.hide m d :=
  State.hide_mono h (by
    unfold loseHost
    simp only [hostLost_hide, State.hide_ite, ite_self, Nat.reduceOr])

/-- Parts: regs, pow, hw, out, rings, scene, pipes, src, dma, light, barn, perf. -/
theorem failover_hide {m : Nat} (h : 0xd09004476 ||| m = m) (d : State) (s : State) :
    State.hide (failover s) m d = s.hide m d :=
  State.hide_mono h (by
    unfold failover
    simp only [loseHost_hide, switchOver_hide, wakeLink_hide, State.hide_ite, ite_self, Nat.reduceOr])

/-! Faults. -/

/-- Parts: fault. -/
theorem State.mapFault_hide {m : Nat} (h : 0x200000000 ||| m = m) (d : State) (s : State) (x1 : _) :
    State.hide (State.mapFault s x1) m d = s.hide m d :=
  State.hide_mono h (by
    unfold State.mapFault
    simp only [State.hide_fault, Nat.reduceOr])

/-- Parts: regs, fault. -/
theorem pushRecord_hide {m : Nat} (h : 0x200000002 ||| m = m) (d : State) (s : State) (x1 : _) (x2 : _) (x3 : _) (x4 : _) :
    State.hide (pushRecord s x1 x2 x3 x4) m d = s.hide m d :=
  State.hide_mono h (by
    unfold pushRecord
    simp only [State.mapFault_hide, State.setFld_hide, State.hide_ite, ite_self, Nat.reduceOr])

/-- Parts: regs, pow, hw, out, src, fault. -/
theorem writtenIfOff_hide {m : Nat} (h : 0x201000036 ||| m = m) (d : State) (s : State) :
    State.hide (writtenIfOff s) m d = s.hide m d :=
  State.hide_mono h (by
    unfold writtenIfOff
    simp only [State.mapFault_hide, noteHeld_hide, State.hide_ite, ite_self, Nat.reduceOr])

/-- Parts: free, regs, pow, hw, out, rings, precHeld, scene, pipes, camLines, camLags, camEarly, gates, levels, fetches, src, dma,
    scans, cams, light, fault, perf. -/
theorem issueRetirement_hide {m : Nat} (h : 0xb69d744f7 ||| m = m) (d : State) (s : State) :
    State.hide (issueRetirement s) m d = s.hide m d :=
  State.hide_mono h (by
    unfold issueRetirement
    repeat' split
    all_goals simp only [State.mapFault_hide, State.setReg_hide, noteHeld_hide, settle_hide, writeHost_hide, State.hide_ite,
        ite_self, Nat.reduceOr])

/-- Parts: regs, pow, hw, out, src. -/
theorem consumeRecords_hide {m : Nat} (h : 0x1000036 ||| m = m) (d : State) (s : State) (x1 : _) :
    State.hide (consumeRecords s x1) m d = s.hide m d :=
  State.hide_mono h (by
    unfold consumeRecords
    simp only [State.setReg_hide, noteHeld_hide, State.hide_ite, ite_self, Nat.reduceOr])

/-- Parts: free, regs, pow, hw, out, rings, precHeld, scene, pipes, camLines, camLags, camEarly, gates, levels, fetches, src, dma,
    scans, cams, light, fault, perf. -/
theorem enableRecords_hide {m : Nat} (h : 0xb69d744f7 ||| m = m) (d : State) (s : State) (x1 : _) :
    State.hide (enableRecords s x1) m d = s.hide m d :=
  State.hide_mono h (by
    unfold enableRecords
    simp only [State.mapFault_hide, State.setFld_hide, State.setReg_hide, noteHeld_hide, settle_hide, writtenIfOff_hide,
        State.hide_ite, ite_self, Nat.reduceOr])

/-- Parts: barn. -/
theorem journalMap_hide {m : Nat} (h : 0x400000000 ||| m = m) (d : State) (s : State) :
    State.hide (journalMap s) m d = s.hide m d :=
  State.hide_mono h (by
    unfold journalMap
    simp only [State.mapBarn_hide, Nat.reduceOr])

/-- Parts: regs, pow, hw, out, pipes, src, light, fault. -/
theorem checkLanes_hide {m : Nat} (h : 0x301004036 ||| m = m) (d : State) (s : State) :
    State.hide (checkLanes s) m d = s.hide m d :=
  State.hide_mono h (by
    unfold checkLanes
    simp (disch := (intros; simp only [State.mapFault_hide, State.setPipe_hide, forceHold_hide, raise_hide, State.each_hide,
        State.hide_ite, ite_self, Nat.reduceOr])) only [State.mapFault_hide, State.setPipe_hide, forceHold_hide, raise_hide,
        State.each_hide, State.hide_ite, ite_self, Nat.reduceOr])

/-- Parts: free, regs, pow, hw, out, scene, mem, lost, pipes, levels, fetches, src, dma, scans, cams, light, fault. -/
theorem retireMc_hide {m : Nat} (h : 0x369c05c37 ||| m = m) (d : State) (s : State) (x1 : _) :
    State.hide (retireMc s x1) m d = s.hide m d :=
  State.hide_mono h (by
    unfold retireMc
    simp (disch := (intros; simp only [State.loseMemory_hide, State.mapFault_hide, abandonLoads_hide, dropCamLines_hide,
        fallFor_hide, loseLayer_hide, markInFlight_hide, oweReproof_hide, refuseScans_hide, setThrottle_hide, State.each_hide,
        State.hide_ite, ite_self, Nat.reduceOr])) only [State.loseMemory_hide, State.mapFault_hide, abandonLoads_hide,
        dropCamLines_hide, fallFor_hide, loseLayer_hide, markInFlight_hide, oweReproof_hide, refuseScans_hide, setThrottle_hide,
        State.each_hide, State.hide_ite, ite_self, Nat.reduceOr])

/-- Parts: regs, pow, hw, out, scene, pipes, levels, src, light, fault. -/
theorem retireLane_hide {m : Nat} (h : 0x301404436 ||| m = m) (d : State) (s : State) (x1 : _) :
    State.hide (retireLane s x1) m d = s.hide m d :=
  State.hide_mono h (by
    unfold retireLane
    simp only [State.mapFault_hide, checkLanes_hide, oweReproof_hide, setThrottle_hide, Nat.reduceOr])

/-- Parts: regs, pow, hw, out, rings, scene, pipes, src, dma, light, barn, perf. -/
theorem retireLink_hide {m : Nat} (h : 0xd09004476 ||| m = m) (d : State) (s : State) (x1 : _) :
    State.hide (retireLink s x1) m d = s.hide m d :=
  State.hide_mono h (by
    unfold retireLink
    repeat' split
    all_goals simp only [State.setFld_hide, failover_hide, loseHost_hide, State.hide_ite, ite_self, Nat.reduceOr])

/-- Parts: free, regs, pow, hw, out, rings, scene, mem, lost, pipes, levels, fetches, src, dma, scans, cams, groups, light, fault,
    barn, perf. -/
theorem retireActions_hide {m : Nat} (h : 0xfe9c05c77 ||| m = m) (d : State) (s : State) (x1 : _) (x2 : _) :
    State.hide (retireActions s x1 x2) m d = s.hide m d :=
  State.hide_mono h (by
    unfold retireActions
    simp only [State.setUnit_hide, dropGroup_hide, retireDma_hide, retireLane_hide, retireLink_hide, retireMc_hide,
        State.hide_ite, ite_self, Nat.reduceOr])

/-- Parts: fault. -/
theorem markRetired_hide {m : Nat} (h : 0x200000000 ||| m = m) (d : State) (s : State) (x1 : _) (x2 : _) :
    State.hide (markRetired s x1 x2) m d = s.hide m d :=
  State.hide_mono h (by
    unfold markRetired
    simp only [State.setUnit_hide, Nat.reduceOr])

/-- Parts: regs, pow, hw, out, src, fault, barn, and those of its operand. -/
theorem retireWith_hide {m : Nat} (h : 0x601000036 ||| m = m) (d : State) (s : State) (x1 : _) (x2 : _) (x3 : _) (x4 : _)
    (hx : ∀ t, (x4 t).hide m d = t.hide m d) :
    State.hide (retireWith s x1 x2 x3 x4) m d = s.hide m d := by
  unfold retireWith
  simp (disch := exact mask_trans h (by decide)) only [journalMap_hide, State.mapBarn_hide, flogEntry_hide, raise_hide,
    writtenIfOff_hide, hx, State.addFld_hide, pushRecord_hide, markRetired_hide]

/-- Parts: free, regs, pow, hw, out, rings, scene, mem, lost, pipes, levels, fetches, src, dma, scans, cams, groups, light, fault,
    barn, perf. -/
theorem retireOne_hide {m : Nat} (h : 0xfe9c05c77 ||| m = m) (d : State) (s : State) (x1 : _) (x2 : _) (x3 : _) :
    State.hide (retireOne s x1 x2 x3) m d = s.hide m d :=
  State.hide_mono h (by
    exact retireWith_hide (by decide) _ _ _ _ _ _ (fun _ => retireActions_hide (by decide) _ _ _ _))

/-- Parts: free, regs, pow, hw, out, rings, scene, mem, lost, pipes, levels, fetches, src, dma, scans, cams, groups, light, fault,
    barn, perf. -/
theorem retireUnit_hide {m : Nat} (h : 0xfe9c05c77 ||| m = m) (d : State) (s : State) (x1 : _) (x2 : _) (x3 : _) :
    State.hide (retireUnit s x1 x2 x3) m d = s.hide m d :=
  State.hide_mono h (by
    unfold retireUnit
    simp only []
    repeat' split
    all_goals first | rfl | simp (disch := (intros; repeat' split) <;> simp only [dropMate_hide, retireOne_hide, retireWith_hide,
        State.hide_ite, ite_self, Nat.reduceOr]) only [dropMate_hide, retireOne_hide, retireWith_hide, State.hide_ite, ite_self,
        Nat.reduceOr])

/-- Parts: fault. -/
theorem nextRecovery_hide {m : Nat} (h : 0x200000000 ||| m = m) (d : State) (s : State) :
    State.hide (nextRecovery s) m d = s.hide m d :=
  State.hide_mono h (by
    unfold nextRecovery
    repeat' split
    all_goals simp only [State.mapFault_hide, Nat.reduceOr])

/-- Parts: free, fault. -/
theorem settleLead_hide {m : Nat} (h : 0x200000001 ||| m = m) (d : State) (s : State) (x1 : _) :
    State.hide (settleLead s x1) m d = s.hide m d :=
  State.hide_mono h (by
    unfold settleLead
    simp only [State.freshen_hide, State.mapFault_hide, State.hide_ite, ite_self, Nat.reduceOr])

/-- Parts: free, fault. -/
theorem settleLeads_hide {m : Nat} (h : 0x200000001 ||| m = m) (d : State) (s : State) :
    State.hide (settleLeads s) m d = s.hide m d :=
  State.hide_mono h (by
    unfold settleLeads
    refine State.each_hide _ _ _ _ _ fun _ _ => ?_
    repeat' split
    all_goals first | rfl | simp only [settleLead_hide, State.each_hide, Nat.reduceOr])

/-- Parts: regs, pow, hw, out, pipes, fetches, src. -/
theorem rideShed_hide {m : Nat} (h : 0x1804036 ||| m = m) (d : State) (s : State) (x1 : _) (x2 : _) :
    State.hide (rideShed s x1 x2) m d = s.hide m d :=
  State.hide_mono h (by
    unfold rideShed
    simp only [State.addFld_hide, State.setPipe_hide, offFrame_hide, raise_hide, Nat.reduceOr])

/-- Parts: free, regs, pow, hw, out, pipes, fetches, src. -/
theorem ridePort_hide {m : Nat} (h : 0x1804037 ||| m = m) (d : State) (s : State) (x1 : _) :
    State.hide (ridePort s x1) m d = s.hide m d :=
  State.hide_mono h (by
    unfold ridePort
    refine State.each_hide _ _ _ _ _ fun _ _ => ?_
    try simp only []
    repeat' split
    all_goals first | rfl | simp (disch := (intros; repeat' split) <;> simp only [State.freshen_hide, rideShed_hide,
        State.each_hide, Nat.reduceOr]) only [State.freshen_hide, rideShed_hide, State.each_hide, Nat.reduceOr])

/-- Parts: free, regs, pow, hw, out, pipes, fetches, src, fault. -/
theorem openLead_hide {m : Nat} (h : 0x201804037 ||| m = m) (d : State) (s : State) (x1 : _) :
    State.hide (openLead s x1) m d = s.hide m d :=
  State.hide_mono h (by
    unfold openLead
    simp only [State.mapFault_hide, ridePort_hide, settleLeads_hide, State.hide_ite, ite_self, Nat.reduceOr])

/-- Parts: free, regs, scene, perf. -/
theorem twinReads_hide {m : Nat} (h : 0x800000403 ||| m = m) (d : State) (s : State) (x1 : _) :
    State.hide (twinReads s x1) m d = s.hide m d :=
  State.hide_mono h (by
    unfold twinReads
    refine State.each_hide _ _ _ _ _ fun _ _ => ?_
    repeat' split
    all_goals first | rfl | simp only [State.addFld_hide, State.freshen_hide, State.mapScene_hide, countBytes_hide, noteLead_hide,
        State.each_hide, State.hide_ite, ite_self, Nat.reduceOr])

/-- Parts: free, regs, pow, hw, out, mem, pipes, fetches, src, dma, scans, groups, light, fault, perf. -/
theorem recoverUnit_hide {m : Nat} (h : 0xba9804837 ||| m = m) (d : State) (s : State) (x1 : _) (x2 : _) :
    State.hide (recoverUnit s x1 x2) m d = s.hide m d :=
  State.hide_mono h (by
    unfold recoverUnit
    try simp only [State.mapFault_hide, State.setUnit_hide, dropGroup_hide, nextRecovery_hide, openLead_hide, restartDesc_hide,
        State.hide_ite, ite_self, Nat.reduceOr]
    repeat' split
    all_goals try simp only [State.mapFault_hide, State.setUnit_hide, dropGroup_hide, nextRecovery_hide, openLead_hide,
        restartDesc_hide, State.hide_ite, ite_self, Nat.reduceOr]
    all_goals repeat' split
    all_goals simp only [State.mapFault_hide, State.setUnit_hide, dropGroup_hide, nextRecovery_hide, openLead_hide,
        restartDesc_hide, State.hide_ite, ite_self, Nat.reduceOr])

/-- Parts: free, regs, pow, hw, out, rings, scene, mem, lost, pipes, levels, fetches, src, dma, scans, cams, groups, light, fault,
    barn, perf. -/
theorem unitFails_hide {m : Nat} (h : 0xfe9c05c77 ||| m = m) (d : State) (s : State) (x1 : _) (x2 : _) :
    State.hide (unitFails s x1 x2) m d = s.hide m d :=
  State.hide_mono h (by
    unfold unitFails
    simp only [State.addFld_hide, State.mapBarn_hide, State.setFld_hide, State.setUnit_hide, nextRecovery_hide, raise_hide,
        recoverUnit_hide, retireUnit_hide, State.hide_ite, ite_self, Nat.reduceOr])

/-- Parts: free, regs, pow, hw, out, rings, precHeld, scene, mem, lost, pipes, camLines, camLags, camEarly, gates, levels, fetches,
    src, dma, scans, cams, groups, light, fault, barn, perf. -/
theorem linkFailed_hide {m : Nat} (h : 0xfe9d75cf7 ||| m = m) (d : State) (s : State) (x1 : _) (x2 : _) :
    State.hide (linkFailed s x1 x2) m d = s.hide m d :=
  State.hide_mono h (by
    unfold linkFailed
    simp only [failover_hide, settle_hide, unitFails_hide, State.hide_ite, ite_self, Nat.reduceOr])

/-- Parts: free, regs, pow, hw, out, rings, precHeld, scene, mem, lost, pipes, camLines, camLags, camEarly, gates, levels, fetches,
    src, dma, scans, cams, groups, light, fault, barn, perf. -/
theorem unitFailure_hide {m : Nat} (h : 0xfe9d75cf7 ||| m = m) (d : State) (s : State) (x1 : _) (x2 : _) :
    State.hide (unitFailure s x1 x2) m d = s.hide m d :=
  State.hide_mono h (by
    unfold unitFailure
    simp only [linkFailed_hide, settle_hide, unitFails_hide, State.hide_ite, ite_self, Nat.reduceOr])

/-- Parts: free, regs, pow, hw, out, rings, precHeld, scene, pipes, camLines, camLags, camEarly, gates, levels, fetches, src, dma,
    scans, cams, light, fault, perf. -/
theorem mcRecovered_hide {m : Nat} (h : 0xb69d744f7 ||| m = m) (d : State) (s : State) :
    State.hide (mcRecovered s) m d = s.hide m d :=
  State.hide_mono h (by
    unfold mcRecovered
    repeat' split
    all_goals simp only [State.mapFault_hide, State.setUnit_hide, nextRecovery_hide, settle_hide, twinReads_hide, Nat.reduceOr])

/-- Parts: fault. -/
theorem linkRecovered_hide {m : Nat} (h : 0x200000000 ||| m = m) (d : State) (s : State) (x1 : _) :
    State.hide (linkRecovered s x1) m d = s.hide m d :=
  State.hide_mono h (by
    unfold linkRecovered
    simp only [State.setUnit_hide, State.hide_ite, ite_self, Nat.reduceOr])

/-- Parts: free, scene, perf. -/
theorem readTwin_hide {m : Nat} (h : 0x800000401 ||| m = m) (d : State) (s : State) (x1 : _) (x2 : _) :
    State.hide (readTwin s x1 x2) m d = s.hide m d :=
  State.hide_mono h (by
    unfold readTwin
    simp only [State.mapScene_hide, noteLead_hide, State.hide_ite, ite_self, Nat.reduceOr])

/-- Parts: free, regs, pow, hw, out, scene, gates, levels, fetches, src, dma, scans, cams, fault, perf. -/
theorem eccError_hide {m : Nat} (h : 0xa69d00437 ||| m = m) (d : State) (s : State) (x1 : _) (x2 : _) :
    State.hide (eccError s x1 x2) m d = s.hide m d :=
  State.hide_mono h (by
    unfold eccError
    repeat' split
    all_goals simp only [State.mapFault_hide, listLost_hide, readTwin_hide, servePorts_hide, State.hide_ite, ite_self,
        Nat.reduceOr])

/-- Parts: scene. -/
theorem loseLoad_hide {m : Nat} (h : 0x400 ||| m = m) (d : State) (s : State) (x1 : _) (x2 : _) :
    State.hide (loseLoad s x1 x2) m d = s.hide m d :=
  State.hide_mono h (by
    unfold loseLoad
    repeat' split
    all_goals simp only [State.mapScene_hide, State.hide_ite, ite_self, Nat.reduceOr])

/-- Parts: scene. -/
theorem loseBale_hide {m : Nat} (h : 0x400 ||| m = m) (d : State) (s : State) (x1 : _) (x2 : _) :
    State.hide (loseBale s x1 x2) m d = s.hide m d :=
  State.hide_mono h (by
    unfold loseBale
    simp only [State.mapScene_hide, State.hide_ite, ite_self, Nat.reduceOr])

/-- Parts: free, regs, pow, hw, out, rings, precHeld, scene, mem, lost, pipes, camLines, camLags, camEarly, gates, levels, fetches,
    src, dma, scans, cams, groups, light, fault, barn, perf. -/
theorem rereadDone_hide {m : Nat} (h : 0xfe9d75cf7 ||| m = m) (d : State) (s : State) (x1 : _) (x2 : _) :
    State.hide (rereadDone s x1 x2) m d = s.hide m d :=
  State.hide_mono h (by
    unfold rereadDone
    repeat' split
    all_goals simp only [State.addFld_hide, State.mapBarn_hide, State.mapFault_hide, loseBale_hide, loseLoad_hide, raise_hide,
        settle_hide, unitFails_hide, State.hide_ite, ite_self, Nat.reduceOr])

/-- Parts: regs, pow, hw, out, scene, pipes, src, groups, light, fault, barn. -/
theorem readmitUnit_hide {m : Nat} (h : 0x781004436 ||| m = m) (d : State) (s : State) (x1 : _) :
    State.hide (readmitUnit s x1) m d = s.hide m d :=
  State.hide_mono h (by
    unfold readmitUnit
    repeat' split
    all_goals simp only [State.setFld_hide, State.setGroup_hide, State.setPipe_hide, State.setUnit_hide, flogEntry_hide,
        journalMap_hide, oweReproof_hide, pushRecord_hide, raise_hide, setGroupState_hide, startGroup_hide, writtenIfOff_hide,
        State.hide_ite, ite_self, Nat.reduceOr])

/-- Parts: free, regs, pow, hw, out, rings, precHeld, scene, pipes, camLines, camLags, camEarly, gates, levels, fetches, src, dma,
    scans, cams, groups, light, fault, barn, perf. -/
theorem returnTested_hide {m : Nat} (h : 0xfe9d744f7 ||| m = m) (d : State) (s : State) :
    State.hide (returnTested s) m d = s.hide m d :=
  State.hide_mono h (by
    unfold returnTested
    simp (disch := (intros; simp only [readmitUnit_hide, settle_hide, State.each_hide, State.hide_ite, ite_self,
        Nat.reduceOr])) only [readmitUnit_hide, settle_hide, State.each_hide, State.hide_ite, ite_self, Nat.reduceOr])

/-- Parts: regs, pow, hw, out, scene, pipes, src, groups, light, fault, barn. -/
theorem runReadmits_hide {m : Nat} (h : 0x781004436 ||| m = m) (d : State) (s : State) (x1 : _) :
    State.hide (runReadmits s x1) m d = s.hide m d :=
  State.hide_mono h (by
    unfold runReadmits
    refine State.each_hide _ _ _ _ _ fun _ _ => ?_
    try simp only []
    repeat' split
    all_goals first | rfl | simp (disch := (intros; repeat' split) <;> simp only [State.mapScene_hide, readmitUnit_hide,
        State.each_hide, State.hide_ite, ite_self, Nat.reduceOr]) only [State.mapScene_hide, readmitUnit_hide, State.each_hide,
        State.hide_ite, ite_self, Nat.reduceOr])

/-- Parts: regs, pow, hw, out, scene, pipes, src, groups, light, fault, barn. -/
theorem readmitIdle_hide {m : Nat} (h : 0x781004436 ||| m = m) (d : State) (s : State) :
    State.hide (readmitIdle s) m d = s.hide m d :=
  State.hide_mono h (by
    unfold readmitIdle
    simp only [runReadmits_hide, State.hide_ite, ite_self, Nat.reduceOr])

/-- Parts: regs, fault. -/
theorem retestWrite_hide {m : Nat} (h : 0x200000002 ||| m = m) (d : State) (s : State) (x1 : _) :
    State.hide (retestWrite s x1) m d = s.hide m d :=
  State.hide_mono h (by
    unfold retestWrite
    simp only [State.mapFault_hide, State.setFld_hide, State.setUnit_hide, State.hide_ite, ite_self, Nat.reduceOr])

/-- Parts: free, regs, pow, hw, out, rings, precHeld, scene, pipes, camLines, camLags, camEarly, gates, levels, fetches, src, dma,
    scans, cams, groups, light, fault, barn, perf. -/
theorem retestEnds_hide {m : Nat} (h : 0xfe9d744f7 ||| m = m) (d : State) (s : State) (x1 : _) :
    State.hide (retestEnds s x1) m d = s.hide m d :=
  State.hide_mono h (by
    unfold retestEnds
    repeat' split
    all_goals simp only [State.mapFault_hide, State.setFld_hide, State.setUnit_hide, raise_hide, returnTested_hide,
        State.hide_ite, ite_self, Nat.reduceOr])

/-- Parts: fault. -/
theorem beginSlot_hide {m : Nat} (h : 0x200000000 ||| m = m) (d : State) (s : State) (x1 : _) :
    State.hide (beginSlot s x1) m d = s.hide m d :=
  State.hide_mono h (by
    unfold beginSlot
    simp only [State.mapFault_hide, Nat.reduceOr])

/-- Parts: regs, pow, hw, out, scene, pipes, src, groups, light, fault, barn. -/
theorem swapLanes_hide {m : Nat} (h : 0x781004436 ||| m = m) (d : State) (s : State) (x1 : _) :
    State.hide (swapLanes s x1) m d = s.hide m d :=
  State.hide_mono h (by
    unfold swapLanes
    simp (disch := (intros; simp only [State.addFld_hide, State.mapFault_hide, beginSlot_hide, checkLanes_hide, readmitUnit_hide,
        State.each_hide, State.hide_ite, ite_self, Nat.reduceOr])) only [State.addFld_hide, State.mapFault_hide, beginSlot_hide,
        checkLanes_hide, readmitUnit_hide, State.each_hide, State.hide_ite, ite_self, Nat.reduceOr])

/-- Parts: regs, pow, hw, out, scene, pipes, src, groups, light, fault, barn. -/
theorem rotationSwap_hide {m : Nat} (h : 0x781004436 ||| m = m) (d : State) (s : State) :
    State.hide (rotationSwap s) m d = s.hide m d :=
  State.hide_mono h (by
    unfold rotationSwap
    repeat' split
    all_goals simp only [State.mapFault_hide, State.setUnit_hide, oweReproof_hide, swapLanes_hide, State.hide_ite, ite_self,
        Nat.reduceOr])

/-- Parts: free, regs, pow, hw, out, rings, scene, mem, lost, pipes, levels, fetches, src, dma, scans, cams, groups, light, fault,
    barn, perf. -/
theorem laneFails_hide {m : Nat} (h : 0xfe9c05c77 ||| m = m) (d : State) (s : State) (x1 : _) :
    State.hide (laneFails s x1) m d = s.hide m d :=
  State.hide_mono h (by
    unfold laneFails
    simp only [State.mapFault_hide, oweReproof_hide, unitFails_hide, State.hide_ite, ite_self, Nat.reduceOr])

/-- Parts: free, regs, pow, hw, out, rings, scene, mem, lost, pipes, levels, fetches, src, dma, scans, cams, groups, light, fault,
    barn, perf. -/
theorem laneLost_hide {m : Nat} (h : 0xfe9c05c77 ||| m = m) (d : State) (s : State) (x1 : _) :
    State.hide (laneLost s x1) m d = s.hide m d :=
  State.hide_mono h (by
    unfold laneLost
    simp only [State.mapFault_hide, unitFails_hide, State.hide_ite, ite_self, Nat.reduceOr])

/-- Parts: fault. -/
theorem lanePass_hide {m : Nat} (h : 0x200000000 ||| m = m) (d : State) (s : State) (x1 : _) :
    State.hide (lanePass s x1) m d = s.hide m d :=
  State.hide_mono h (by
    unfold lanePass
    simp only [State.setUnit_hide, State.hide_ite, ite_self, Nat.reduceOr])

/-- Parts: free, regs, pow, hw, out, rings, scene, mem, lost, pipes, levels, fetches, src, dma, scans, cams, groups, light, fault,
    barn, perf. -/
theorem lbistResult_hide {m : Nat} (h : 0xfe9c05c77 ||| m = m) (d : State) (s : State) (x1 : _) :
    State.hide (lbistResult s x1) m d = s.hide m d :=
  State.hide_mono h (by
    unfold lbistResult
    repeat' split
    all_goals simp only [State.addFld_hide, State.mapFault_hide, State.setFld_hide, State.setUnit_hide, laneFails_hide,
        laneLost_hide, lanePass_hide, raise_hide, State.hide_ite, ite_self, Nat.reduceOr])

/-- Parts: regs, pow, hw, out, src, fault. -/
theorem rotationLate_hide {m : Nat} (h : 0x201000036 ||| m = m) (d : State) (s : State) (x1 : _) :
    State.hide (rotationLate s x1) m d = s.hide m d :=
  State.hide_mono h (by
    unfold rotationLate
    simp only [State.mapFault_hide, raise_hide, State.hide_ite, ite_self, Nat.reduceOr])

/-- Parts: free, regs, pow, hw, out, rings, precHeld, scene, pipes, camLines, camLags, camEarly, gates, levels, fetches, src, dma,
    scans, cams, groups, light, fault, barn, perf. -/
theorem faultFrameStart_hide {m : Nat} (h : 0xfe9d744f7 ||| m = m) (d : State) (s : State) (x1 : _) :
    State.hide (faultFrameStart s x1) m d = s.hide m d :=
  State.hide_mono h (by
    unfold faultFrameStart
    simp (disch := (intros; simp only [State.mapFault_hide, State.setUnit_hide, returnTested_hide, State.each_hide,
        State.hide_ite, ite_self, Nat.reduceOr])) only [State.mapFault_hide, State.setUnit_hide, returnTested_hide,
        State.each_hide, State.hide_ite, ite_self, Nat.reduceOr])

/-- Parts: free, regs, pow, hw, out, rings, precHeld, scene, mem, lost, pipes, camLines, camLags, camEarly, gates, levels, fetches,
    src, dma, scans, cams, groups, light, fault, barn, perf. -/
theorem hpdHigh_hide {m : Nat} (h : 0xfe9d75cf7 ||| m = m) (d : State) (s : State) (x1 : _) (x2 : _) :
    State.hide (hpdHigh s x1 x2) m d = s.hide m d :=
  State.hide_mono h (by
    unfold hpdHigh
    simp only [State.setGroup_hide, settle_hide, unitFails_hide, State.hide_ite, ite_self, Nat.reduceOr])

/-- Parts: free, regs, pow, hw, out, rings, precHeld, scene, mem, lost, pipes, camLines, camLags, camEarly, gates, levels, fetches,
    src, dma, scans, cams, groups, light, fault, barn, perf. -/
theorem packetEnds_hide {m : Nat} (h : 0xfe9d75cf7 ||| m = m) (d : State) (s : State) (x1 : _) (x2 : _) (x3 : _) :
    State.hide (packetEnds s x1 x2 x3) m d = s.hide m d :=
  State.hide_mono h (by
    unfold packetEnds
    simp only [packetDone_hide, settle_hide, unitFails_hide, State.hide_ite, ite_self, Nat.reduceOr])

/-! Perf. -/

/-- Parts: perf. -/
theorem clearCounters_hide {m : Nat} (h : 0x800000000 ||| m = m) (d : State) (s : State) :
    State.hide (clearCounters s) m d = s.hide m d :=
  State.hide_mono h (by
    unfold clearCounters
    simp only [State.hide_perf, Nat.reduceOr])

/-- Parts: perf. -/
theorem readWinCfg_hide {m : Nat} (h : 0x800000000 ||| m = m) (d : State) (s : State) :
    State.hide (readWinCfg s) m d = s.hide m d :=
  State.hide_mono h (by
    unfold readWinCfg
    simp only [State.hide_perf, Nat.reduceOr])

/-- Parts: perf. -/
theorem beginWindow_hide {m : Nat} (h : 0x800000000 ||| m = m) (d : State) (s : State) :
    State.hide (beginWindow s) m d = s.hide m d :=
  State.hide_mono h (by
    unfold beginWindow
    simp only [State.hide_perf, Nat.reduceOr])

/-- Parts: regs, pow, hw, out, src, perf. -/
theorem takeSnapshot_hide {m : Nat} (h : 0x801000036 ||| m = m) (d : State) (s : State) (x1 : _) (x2 : _) :
    State.hide (takeSnapshot s x1 x2) m d = s.hide m d :=
  State.hide_mono h (by
    unfold takeSnapshot
    simp only [State.setFld_hide, State.setReg_hide, State.setReg64_hide, raise_hide, State.hide_perf, Nat.reduceOr])

/-- Parts: regs, pow, hw, out, src, perf. -/
theorem endWindow_hide {m : Nat} (h : 0x801000036 ||| m = m) (d : State) (s : State) (x1 : _) :
    State.hide (endWindow s x1) m d = s.hide m d :=
  State.hide_mono h (by
    unfold endWindow
    repeat' split
    all_goals simp only [State.addFld_hide, beginWindow_hide, clearCounters_hide, raise_hide, readWinCfg_hide, takeSnapshot_hide,
        State.hide_perf, State.hide_ite, ite_self, Nat.reduceOr])

/-- Parts: regs, perf. -/
theorem haltWindows_hide {m : Nat} (h : 0x800000002 ||| m = m) (d : State) (s : State) :
    State.hide (haltWindows s) m d = s.hide m d :=
  State.hide_mono h (by
    unfold haltWindows
    simp only [State.setFld_hide, State.hide_perf, Nat.reduceOr])

/-- Parts: regs, perf. -/
theorem startWindows_hide {m : Nat} (h : 0x800000002 ||| m = m) (d : State) (s : State) :
    State.hide (startWindows s) m d = s.hide m d :=
  State.hide_mono h (by
    unfold startWindows
    simp only [State.setFld_hide, beginWindow_hide, clearCounters_hide, readWinCfg_hide, State.hide_perf, State.hide_ite,
        ite_self, Nat.reduceOr])

/-- Parts: regs, pow, hw, out, src, perf. -/
theorem stopWindows_hide {m : Nat} (h : 0x801000036 ||| m = m) (d : State) (s : State) :
    State.hide (stopWindows s) m d = s.hide m d :=
  State.hide_mono h (by
    unfold stopWindows
    simp only [endWindow_hide, haltWindows_hide, State.hide_ite, ite_self, Nat.reduceOr])

/-- Parts: regs, pow, hw, out, src, perf. -/
theorem windowTimeUp_hide {m : Nat} (h : 0x801000036 ||| m = m) (d : State) (s : State) :
    State.hide (windowTimeUp s) m d = s.hide m d :=
  State.hide_mono h (by
    unfold windowTimeUp
    simp only [endWindow_hide, State.hide_ite, ite_self, Nat.reduceOr])

/-- Parts: regs, pow, hw, out, src, perf. -/
theorem perfFrameStart_hide {m : Nat} (h : 0x801000036 ||| m = m) (d : State) (s : State) (x1 : _) :
    State.hide (perfFrameStart s x1) m d = s.hide m d :=
  State.hide_mono h (by
    unfold perfFrameStart
    simp only [beginWindow_hide, clearCounters_hide, endWindow_hide, State.hide_perf, State.hide_ite, ite_self, Nat.reduceOr])

/-- Parts: perf. -/
theorem countPeriod_hide {m : Nat} (h : 0x800000000 ||| m = m) (d : State) (s : State) :
    State.hide (countPeriod s) m d = s.hide m d :=
  State.hide_mono h (by
    unfold countPeriod
    simp (disch := (intros; simp only [State.perfAdd_hide, State.each_hide, State.hide_ite, ite_self,
        Nat.reduceOr])) only [State.perfAdd_hide, State.each_hide, State.hide_ite, ite_self, Nat.reduceOr])

/-! Raster. -/

/-- Parts: scene. -/
theorem moveObjects_hide {m : Nat} (h : 0x400 ||| m = m) (d : State) (s : State) (x1 : _) :
    State.hide (moveObjects s x1) m d = s.hide m d :=
  State.hide_mono h (by
    unfold moveObjects
    simp only [setDraw_hide, Nat.reduceOr])

/-- Parts: scene. -/
theorem latchGlyphs_hide {m : Nat} (h : 0x400 ||| m = m) (d : State) (s : State) (x1 : _) :
    State.hide (latchGlyphs s x1) m d = s.hide m d :=
  State.hide_mono h (by
    unfold latchGlyphs
    simp only [setBin_hide, Nat.reduceOr])

/-- Parts: bins. -/
theorem swapBins_hide {m : Nat} (h : 0x8000 ||| m = m) (d : State) (s : State) (x1 : _) :
    State.hide (swapBins s x1) m d = s.hide m d :=
  State.hide_mono h (by
    unfold swapBins
    simp only [State.hide_bins, Nat.reduceOr])

/-- Parts: regs. -/
theorem notePeak_hide {m : Nat} (h : 2 ||| m = m) (d : State) (s : State) (x1 : _) :
    State.hide (notePeak s x1) m d = s.hide m d :=
  State.hide_mono h (by
    unfold notePeak
    simp only [State.setFld_hide, State.hide_ite, ite_self, Nat.reduceOr])

/-- Parts: regs, pow, hw, out, bins, src, perf. -/
theorem putBin_hide {m : Nat} (h : 0x801008036 ||| m = m) (d : State) (s : State) (x1 : _) (x2 : _) (x3 : _) (x4 : _) :
    State.hide (putBin s x1 x2 x3 x4) m d = s.hide m d :=
  State.hide_mono h (by
    unfold putBin
    simp only [State.perfAdd_hide, State.perfMax_hide, objectFault_hide, State.hide_bins, State.hide_ite, ite_self, Nat.reduceOr])

/-- Parts: regs, pow, hw, out, scene, loft, bins, src, perf. -/
theorem buildBins_hide {m : Nat} (h : 0x80100a436 ||| m = m) (d : State) (s : State) (x1 : _) (x2 : _) :
    State.hide (buildBins s x1 x2) m d = s.hide m d :=
  State.hide_mono h (by
    unfold buildBins
    refine State.each_hide _ _ _ _ _ fun _ _ => ?_
    repeat' split
    all_goals first | rfl | simp only [putBin_hide, State.each_hide, Nat.reduceOr])

/-- Parts: regs, pow, hw, out, scene, loft, src, light. -/
theorem granFault_hide {m : Nat} (h : 0x101002436 ||| m = m) (d : State) (s : State) (x1 : _) (x2 : _) :
    State.hide (granFault s x1 x2) m d = s.hide m d :=
  State.hide_mono h (by
    unfold granFault
    simp only [artFor_hide, forceFrame_hide, objectFault_hide, State.hide_ite, ite_self, Nat.reduceOr])

/-- Parts: regs, pow, hw, out, pipes, src, light. -/
theorem loftCheck_hide {m : Nat} (h : 0x101004036 ||| m = m) (d : State) (s : State) (x1 : _) :
    State.hide (loftCheck s x1) m d = s.hide m d :=
  State.hide_mono h (by
    unfold loftCheck
    simp only [State.setPipe_hide, forceHold_hide, State.hide_ite, ite_self, Nat.reduceOr])

/-- Parts: scene, pipes, bins, camLines, camLags, camEarly, furrowStore, fetches. -/
theorem dropFetched_hide {m : Nat} (h : 0x8fc400 ||| m = m) (d : State) (s : State) (x1 : _) :
    State.hide (dropFetched s x1) m d = s.hide m d :=
  State.hide_mono h (by
    unfold dropFetched
    simp (disch := first | simp only [Nat.reduceOr] | (intros; simp only [State.mapScene_hide, dropLeaver_hide,
        State.hide_bins_camLines_camEarly_furrowStore_fetches, State.each_hide,
        Nat.reduceOr] <;> done) | (intros; repeat' split) <;> simp only [State.mapScene_hide, dropLeaver_hide,
        State.hide_bins_camLines_camEarly_furrowStore_fetches, State.each_hide, Nat.reduceOr]) only [State.mapScene_hide,
        dropLeaver_hide, State.hide_bins_camLines_camEarly_furrowStore_fetches, State.each_hide, Nat.reduceOr])

/-- Parts: free, regs, pow, hw, out, precHeld, scene, pipes, bins, camLines, camLags, camEarly, furrowStore, gates, gcl, levels,
    fetches, src, wins, dma, scans, cams, groups, light, fault, barn, perf. -/
theorem haltPipe_hide {m : Nat} (h : 0xfedffc4b7 ||| m = m) (d : State) (s : State) (x1 : _) :
    State.hide (haltPipe s x1) m d = s.hide m d :=
  State.hide_mono h (by
    unfold haltPipe
    simp (disch := first | simp only [Nat.reduceOr] | (intros; simp only [State.mapFault_hide, State.setFld_hide,
        State.setPipe_hide, applyPend_hide, applyStopped_hide, applyToStopped_hide, askStopped_hide, drainReleases_hide,
        dropFetched_hide, endLock_hide, fallbackProof_hide, forceFrameEnd_hide, gateRecheck_hide, offFrame_hide, readmitIdle_hide,
        recheckLink_hide, refreshState_hide, servePorts_hide, startPipe_hide, zonesStart_hide, State.hide_regs, State.hide_wins,
        State.each_hide, State.hide_ite, ite_self,
        Nat.reduceOr] <;> done) | (intros; repeat' split) <;> simp only [State.mapFault_hide, State.setFld_hide,
        State.setPipe_hide, applyPend_hide, applyStopped_hide, applyToStopped_hide, askStopped_hide, drainReleases_hide,
        dropFetched_hide, endLock_hide, fallbackProof_hide, forceFrameEnd_hide, gateRecheck_hide, offFrame_hide, readmitIdle_hide,
        recheckLink_hide, refreshState_hide, servePorts_hide, startPipe_hide, zonesStart_hide, State.hide_regs, State.hide_wins,
        State.each_hide, State.hide_ite, ite_self, Nat.reduceOr]) only [State.mapFault_hide, State.setFld_hide,
        State.setPipe_hide, applyPend_hide, applyStopped_hide, applyToStopped_hide, askStopped_hide, drainReleases_hide,
        dropFetched_hide, endLock_hide, fallbackProof_hide, forceFrameEnd_hide, gateRecheck_hide, offFrame_hide, readmitIdle_hide,
        recheckLink_hide, refreshState_hide, servePorts_hide, startPipe_hide, zonesStart_hide, State.hide_regs, State.hide_wins,
        State.each_hide, State.hide_ite, ite_self, Nat.reduceOr])

/-- Parts: free, regs, pow, hw, out, rings, precHeld, scene, pipes, camLines, camLags, camEarly, gates, levels, fetches, src, dma,
    scans, cams, groups, light, fault, barn, perf. -/
theorem afterHalt_hide {m : Nat} (h : 0xfe9d744f7 ||| m = m) (d : State) (s : State) :
    State.hide (afterHalt s) m d = s.hide m d :=
  State.hide_mono h (by
    unfold afterHalt
    simp only [returnTested_hide, settle_hide, State.hide_ite, ite_self, Nat.reduceOr])

/-- Parts: free, regs, pow, hw, out, rings, precHeld, scene, pipes, bins, camLines, camLags, camEarly, furrowStore, gates, gcl,
    levels, fetches, src, wins, dma, scans, cams, groups, light, fault, barn, perf. -/
theorem stopPipe_hide {m : Nat} (h : 0xfedffc4f7 ||| m = m) (d : State) (s : State) (x1 : _) :
    State.hide (stopPipe s x1) m d = s.hide m d :=
  State.hide_mono h (by
    unfold stopPipe
    simp (disch := (intros; simp only [afterHalt_hide, haltPipe_hide, Nat.reduceOr])) only [afterHalt_hide, haltPipe_hide,
        Nat.reduceOr])

/-- Parts: regs, pow, hw, out, pipes, gates, gcl, src, cams, groups, light. -/
theorem applyDue_hide {m : Nat} (h : 0x1c1304036 ||| m = m) (d : State) (s : State) (x1 : _) :
    State.hide (applyDue s x1) m d = s.hide m d :=
  State.hide_mono h (by
    unfold applyDue
    simp (disch := (intros; simp only [State.setPipe_hide, applyPend_hide, fallbackProof_hide, raise_hide, State.hide_regs,
        State.each_hide, State.hide_ite, ite_self, Nat.reduceOr])) only [State.setPipe_hide, applyPend_hide, fallbackProof_hide,
        raise_hide, State.hide_regs, State.each_hide, State.hide_ite, ite_self, Nat.reduceOr])

/-- Parts: regs, pow, hw, out, precHeld, scene, pipes, camLines, camLags, camEarly, fetches, src, light, perf. -/
theorem applyScenes_hide {m : Nat} (h : 0x9018744b6 ||| m = m) (d : State) (s : State) (x1 : _) :
    State.hide (applyScenes s x1) m d = s.hide m d :=
  State.hide_mono h (by
    unfold applyScenes
    simp (disch := (intros; simp only [applyPart_hide, State.each_hide, State.hide_ite, ite_self,
        Nat.reduceOr])) only [applyPart_hide, State.each_hide, State.hide_ite, ite_self, Nat.reduceOr])

/-- Parts: regs, pow, hw, out, pipes, src. -/
theorem shedStart_hide {m : Nat} (h : 0x1004036 ||| m = m) (d : State) (s : State) (x1 : _) :
    State.hide (shedStart s x1) m d = s.hide m d :=
  State.hide_mono h (by
    unfold shedStart
    simp only [State.setPipe_hide, pipeEvent_hide, State.hide_ite, ite_self, Nat.reduceOr])

/-- Parts: regs, pow, hw, out, src, groups. -/
theorem lateLink_hide {m : Nat} (h : 0x81000036 ||| m = m) (d : State) (s : State) (x1 : _) :
    State.hide (lateLink s x1) m d = s.hide m d :=
  State.hide_mono h (by
    unfold lateLink
    repeat' split
    all_goals simp only [State.setGroup_hide, raise_hide, State.hide_ite, ite_self, Nat.reduceOr])

/-- Parts: perf. -/
theorem countFrame_hide {m : Nat} (h : 0x800000000 ||| m = m) (d : State) (s : State) (x1 : _) :
    State.hide (countFrame s x1) m d = s.hide m d :=
  State.hide_mono h (by
    unfold countFrame
    try simp only [State.perfAdd_hide, State.hide_ite, ite_self, Nat.reduceOr]
    repeat' split
    all_goals try simp only [State.perfAdd_hide, State.hide_ite, ite_self, Nat.reduceOr]
    all_goals repeat' split
    all_goals simp only [State.perfAdd_hide, State.hide_ite, ite_self, Nat.reduceOr])

/-- Parts: scene, camEarly, fetches. -/
theorem turnFrame_hide {m : Nat} (h : 0x840400 ||| m = m) (d : State) (s : State) (x1 : _) :
    State.hide (turnFrame s x1) m d = s.hide m d :=
  State.hide_mono h (by
    unfold turnFrame
    simp only [State.mapScene_hide, State.hide_camEarly_fetches, State.hide_ite, ite_self, Nat.reduceOr])

/-- Parts: free, regs, pow, hw, out, rings, precHeld, scene, loft, pipes, bins, camLines, camLags, camEarly, gates, gcl, levels,
    fetches, src, wins, dma, scans, cams, groups, light, fault, barn, perf. -/
theorem beginFrame_hide {m : Nat} (h : 0xfedf7e4f7 ||| m = m) (d : State) (s : State) (x1 : _) (x2 : _) :
    State.hide (beginFrame s x1 x2) m d = s.hide m d :=
  State.hide_mono h (by
    unfold beginFrame
    simp (disch := (intros; simp only [State.mapScene_hide, State.setPipe_hide, State.setReg_hide, applyDue_hide,
        applyScenes_hide, buildBins_hide, countFrame_hide, drainReleases_hide, dropStrays_hide, endWait_hide, enterFallback_hide,
        faultFrameStart_hide, forceFrameEnd_hide, gateRecheck_hide, granFault_hide, latchGlyphs_hide, latchWindows_hide,
        lateLink_hide, lateLoads_hide, lockStep_hide, loftCheck_hide, moveObjects_hide, notePeak_hide, offFrame_hide,
        perfFrameStart_hide, recheckLink_hide, refreshState_hide, settle_hide, shedStart_hide, swapBins_hide, turnFrame_hide,
        zonesStart_hide, State.each_hide, State.hide_ite, ite_self, Nat.reduceOr])) only [State.mapScene_hide, State.setPipe_hide,
        State.setReg_hide, applyDue_hide, applyScenes_hide, buildBins_hide, countFrame_hide, drainReleases_hide, dropStrays_hide,
        endWait_hide, enterFallback_hide, faultFrameStart_hide, forceFrameEnd_hide, gateRecheck_hide, granFault_hide,
        latchGlyphs_hide, latchWindows_hide, lateLink_hide, lateLoads_hide, lockStep_hide, loftCheck_hide, moveObjects_hide,
        notePeak_hide, offFrame_hide, perfFrameStart_hide, recheckLink_hide, refreshState_hide, settle_hide, shedStart_hide,
        swapBins_hide, turnFrame_hide, zonesStart_hide, State.each_hide, State.hide_ite, ite_self, Nat.reduceOr])

/-- Parts: free, regs, pow, hw, out, rings, precHeld, scene, loft, pipes, bins, camLines, camLags, camEarly, furrowStore, gates,
    gcl, levels, fetches, src, wins, dma, scans, cams, groups, light, fault, barn, perf. -/
theorem frameBegins_hide {m : Nat} (h : 0xfedffe4f7 ||| m = m) (d : State) (s : State) (x1 : _) (x2 : _) :
    State.hide (frameBegins s x1 x2) m d = s.hide m d :=
  State.hide_mono h (by
    unfold frameBegins
    simp only [beginFrame_hide, notePeak_hide, releaseSilentCams_hide, stopPipe_hide, State.hide_ite, ite_self, Nat.reduceOr])

/-- Parts: free, regs, pow, hw, out, rings, precHeld, scene, loft, pipes, bins, camLines, camLags, camEarly, furrowStore, gates,
    gcl, levels, fetches, src, wins, dma, scans, cams, groups, light, fault, barn, perf. -/
theorem frameStart_hide {m : Nat} (h : 0xfedffe4f7 ||| m = m) (d : State) (s : State) (x1 : _) (x2 : _) :
    State.hide (frameStart s x1 x2) m d = s.hide m d :=
  State.hide_mono h (by
    unfold frameStart
    simp only [frameBegins_hide, State.hide_ite, ite_self, Nat.reduceOr])

/-- Parts: free, regs, pow, hw, out, rings, precHeld, scene, loft, pipes, bins, camLines, camLags, camEarly, furrowStore, gates,
    gcl, levels, fetches, src, wins, dma, scans, cams, groups, light, fault, barn, perf. -/
theorem teMissing_hide {m : Nat} (h : 0xfedffe4f7 ||| m = m) (d : State) (s : State) (x1 : _) :
    State.hide (teMissing s x1) m d = s.hide m d :=
  State.hide_mono h (by
    unfold teMissing
    simp only [frameBegins_hide, raise_hide, State.hide_ite, ite_self, Nat.reduceOr])

/-- Parts: free, regs, pow, hw, out, rings, precHeld, scene, pipes, bins, camLines, camLags, camEarly, furrowStore, gates, gcl,
    levels, fetches, src, wins, dma, scans, cams, groups, light, fault, barn, perf. -/
theorem pllLockTimeout_hide {m : Nat} (h : 0xfedffc4f7 ||| m = m) (d : State) (s : State) (x1 : _) :
    State.hide (pllLockTimeout s x1) m d = s.hide m d :=
  State.hide_mono h (by
    unfold pllLockTimeout
    simp (disch := (intros; simp only [State.setFld_hide, afterHalt_hide, forceHold_hide, haltPipe_hide, pipeFault_hide,
        State.each_hide, State.hide_ite, ite_self, Nat.reduceOr])) only [State.setFld_hide, afterHalt_hide, forceHold_hide,
        haltPipe_hide, pipeFault_hide, State.each_hide, State.hide_ite, ite_self, Nat.reduceOr])

/-- Parts: regs, pow, hw, out, camLags, src. -/
theorem noteLag_hide {m : Nat} (h : 0x1020036 ||| m = m) (d : State) (s : State) (x1 : _) (x2 : _) (x3 : _) :
    State.hide (noteLag s x1 x2 x3) m d = s.hide m d :=
  State.hide_mono h (by
    unfold noteLag
    simp only [raise_hide, State.hide_camLags, State.hide_ite, ite_self, Nat.reduceOr])

/-- Parts: fetches. -/
theorem readCamLine_hide {m : Nat} (h : 0x800000 ||| m = m) (d : State) (s : State) (x1 : _) (x2 : _) (x3 : _) (x4 : _) (x5 : _) :
    State.hide (readCamLine s x1 x2 x3 x4 x5) m d = s.hide m d :=
  State.hide_mono h (by
    unfold readCamLine
    simp only [State.hide_fetches, State.hide_ite, ite_self, Nat.reduceOr])

/-- Parts: free, regs, pow, hw, out, camLines, camLags, fetches, src. -/
theorem latchLine_hide {m : Nat} (h : 0x1830037 ||| m = m) (d : State) (s : State) (x1 : _) (x2 : _) (x3 : _) (x4 : _) (x5 : _)
    (x6 : _) :
    State.hide (latchLine s x1 x2 x3 x4 x5 x6) m d = s.hide m d :=
  State.hide_mono h (by
    unfold latchLine
    simp only []
    repeat' split
    all_goals first | rfl | simp only [State.freshen_hide, noteLag_hide, readCamLine_hide, State.hide_camLines, State.hide_ite,
        ite_self, Nat.reduceOr])

/-- Parts: free, regs, pow, hw, out, camLines, camLags, fetches, src. -/
theorem latchFurrow_hide {m : Nat} (h : 0x1830037 ||| m = m) (d : State) (s : State) (x1 : _) (x2 : _) (x3 : _) (x4 : _) (x5 : _) :
    State.hide (latchFurrow s x1 x2 x3 x4 x5) m d = s.hide m d :=
  State.hide_mono h (by
    unfold latchFurrow
    refine State.each_hide _ _ _ _ _ fun _ _ => ?_
    try simp only []
    repeat' split
    all_goals first | rfl | simp (disch := (intros; repeat' split) <;> simp only [latchLine_hide, State.each_hide,
        Nat.reduceOr]) only [latchLine_hide, State.each_hide, Nat.reduceOr])

/-- Parts: regs, camLines, camLags, camEarly. -/
theorem reportLag_hide {m : Nat} (h : 0x70002 ||| m = m) (d : State) (s : State) (x1 : _) :
    State.hide (reportLag s x1) m d = s.hide m d :=
  State.hide_mono h (by
    unfold reportLag
    simp only [State.setFld_hide, State.hide_camLines_camLags_camEarly, Nat.reduceOr])

/-- Parts: free, regs, pow, hw, out, camLines, camLags, camEarly, fetches, src. -/
theorem camDeadline_hide {m : Nat} (h : 0x1870037 ||| m = m) (d : State) (s : State) (x1 : _) (x2 : _) :
    State.hide (camDeadline s x1 x2) m d = s.hide m d :=
  State.hide_mono h (by
    unfold camDeadline
    simp (disch := (intros; simp only [latchFurrow_hide, reportLag_hide, State.each_hide, State.hide_ite, ite_self,
        Nat.reduceOr])) only [latchFurrow_hide, reportLag_hide, State.each_hide, State.hide_ite, ite_self, Nat.reduceOr])

/-- Parts: camEarly, fetches. -/
theorem fetchLines_hide {m : Nat} (h : 0x840000 ||| m = m) (d : State) (s : State) (x1 : _) (x2 : _) (x3 : _) (x4 : _) (x5 : _)
    (x6 : _) :
    State.hide (fetchLines s x1 x2 x3 x4 x5 x6) m d = s.hide m d :=
  State.hide_mono h (by
    induction x6 generalizing s with
    | nil => rfl
    | cons t r ih =>
      unfold fetchLines
      simp only []
      split
      · exact ih _
      · split
        · split
          · exact (ih _).trans ((readCamLine_hide (by decide) _ _ _ _ _ _ _).trans (State.hide_camEarly _ _ _ (by decide) _))
          · split
            · exact ih _
            · rfl
        · split
          · exact ih _
          · rfl)

/-- Parts: fetches. -/
theorem grantLines_hide {m : Nat} (h : 0x800000 ||| m = m) (d : State) (s : State) (x1 : _) (x2 : _) (x3 : _) :
    State.hide (grantLines s x1 x2 x3) m d = s.hide m d :=
  State.hide_mono h (by
    unfold grantLines
    simp only [State.hide_fetches, State.hide_ite, ite_self, Nat.reduceOr])

/-- Parts: camEarly, fetches. -/
theorem fetchAhead_hide {m : Nat} (h : 0x840000 ||| m = m) (d : State) (s : State) (x1 : _) :
    State.hide (fetchAhead s x1) m d = s.hide m d :=
  State.hide_mono h (by
    unfold fetchAhead
    simp (disch := (intros; simp only [fetchLines_hide, grantLines_hide, State.each_hide, State.hide_ite, ite_self,
        Nat.reduceOr])) only [fetchLines_hide, grantLines_hide, State.each_hide, State.hide_ite, ite_self, Nat.reduceOr])

/-- Parts: free, regs, pow, hw, out, rings, precHeld, scene, pipes, camLines, camLags, camEarly, gates, levels, fetches, src, dma,
    scans, cams, groups, light, fault, barn, perf. -/
theorem commitDeadline_hide {m : Nat} (h : 0xfe9d744f7 ||| m = m) (d : State) (s : State) (x1 : _) :
    State.hide (commitDeadline s x1) m d = s.hide m d :=
  State.hide_mono h (by
    unfold commitDeadline
    simp (disch := (intros; simp only [State.setPipe_hide, deadlineParts_hide, fetchAhead_hide, runReadmits_hide, settle_hide,
        State.hide_regs, State.each_hide, State.hide_ite, ite_self, Nat.reduceOr])) only [State.setPipe_hide, deadlineParts_hide,
        fetchAhead_hide, runReadmits_hide, settle_hide, State.hide_regs, State.each_hide, State.hide_ite, ite_self, Nat.reduceOr])

/-- Parts: regs, pow, hw, out, pipes, fetches, src, light, perf. -/
theorem loseInFrame_hide {m : Nat} (h : 0x901804036 ||| m = m) (d : State) (s : State) (x1 : _) (x2 : _) (x3 : _) (x4 : _) :
    State.hide (loseInFrame s x1 x2 x3 x4) m d = s.hide m d :=
  State.hide_mono h (by
    unfold loseInFrame
    simp only [State.addFld_hide, State.perfAdd_hide, forceFrame_hide, offFrame_hide, slotFault_hide, State.hide_ite, ite_self,
        Nat.reduceOr])

/-- Parts: regs, pow, hw, out, scene, loft, pipes, fetches, src, light. -/
theorem loseObject_hide {m : Nat} (h : 0x101806436 ||| m = m) (d : State) (s : State) (x1 : _) (x2 : _) (x3 : _) :
    State.hide (loseObject s x1 x2 x3) m d = s.hide m d :=
  State.hide_mono h (by
    unfold loseObject
    simp only [artFor_hide, forceFrame_hide, objectFault_hide, offFrame_hide, State.hide_ite, ite_self, Nat.reduceOr])

/-- Parts: free, regs, scene, fetches, perf. -/
theorem countFetch_hide {m : Nat} (h : 0x800800403 ||| m = m) (d : State) (s : State) (x1 : _) (x2 : _) (x3 : _) :
    State.hide (countFetch s x1 x2 x3) m d = s.hide m d :=
  State.hide_mono h (by
    unfold countFetch
    simp only [fetchEnds_hide, noteLead_hide, twinEnds_hide, State.hide_fetches, State.hide_ite, ite_self, Nat.reduceOr])

/-- Parts: free, regs, pow, hw, out, scene, loft, pipes, furrowStore, fetches, src, light, perf. -/
theorem beginFurrow_hide {m : Nat} (h : 0x901886437 ||| m = m) (d : State) (s : State) (x1 : _) (x2 : _) (x3 : _) :
    State.hide (beginFurrow s x1 x2 x3) m d = s.hide m d :=
  State.hide_mono h (by
    unfold beginFurrow
    simp (disch := (intros; simp only [State.perfAdd_hide, State.perfMax_hide, State.setPipe_hide, countFetch_hide,
        loseInFrame_hide, loseObject_hide, storeFurrow_hide, State.each_hide, State.hide_ite, ite_self,
        Nat.reduceOr])) only [State.perfAdd_hide, State.perfMax_hide, State.setPipe_hide, countFetch_hide, loseInFrame_hide,
        loseObject_hide, storeFurrow_hide, State.each_hide, State.hide_ite, ite_self, Nat.reduceOr])

/-- Parts: perf. -/
theorem countPixels_hide {m : Nat} (h : 0x800000000 ||| m = m) (d : State) (s : State) (x1 : _) (x2 : _) :
    State.hide (countPixels s x1 x2) m d = s.hide m d :=
  State.hide_mono h (by
    unfold countPixels
    repeat' split
    all_goals simp only [State.perfAdd_hide, State.hide_ite, ite_self, Nat.reduceOr])

/-- Parts: regs, pow, hw, out, src, wins, light, perf. -/
theorem composeLine_hide {m : Nat} (h : 0x905000036 ||| m = m) (d : State) (s : State) (x1 : _) (x2 : _) (x3 : _) :
    State.hide (composeLine s x1 x2 x3) m d = s.hide m d :=
  State.hide_mono h (by
    unfold composeLine
    simp only []
    repeat' split
    all_goals first | rfl | simp (disch := (intros; repeat' split) <;> simp only [State.emit_hide, State.perfAdd_hide,
        blackLine_hide, countPixels_hide, feedWindows_hide, feedZones_hide, forceFrame_hide, pipeFault_hide, State.each_hide,
        State.hide_ite, ite_self, Nat.reduceOr]) only [State.emit_hide, State.perfAdd_hide, blackLine_hide, countPixels_hide,
        feedWindows_hide, feedZones_hide, forceFrame_hide, pipeFault_hide, State.each_hide, State.hide_ite, ite_self, Nat.reduceOr])

/-- Parts: regs, pow, hw, out, src. -/
theorem lineEvents_hide {m : Nat} (h : 0x1000036 ||| m = m) (d : State) (s : State) (x1 : _) (x2 : _) (x3 : _) :
    State.hide (lineEvents s x1 x2 x3) m d = s.hide m d :=
  State.hide_mono h (by
    unfold lineEvents
    refine State.each_hide _ _ _ _ _ fun _ _ => ?_
    repeat' split
    all_goals first | rfl | simp only [raise_hide, State.each_hide, State.hide_ite, ite_self, Nat.reduceOr])

/-- Parts: regs, pow, hw, out, precHeld, scene, src, perf. -/
theorem writeFlips_hide {m : Nat} (h : 0x8010004b6 ||| m = m) (d : State) (s : State) (x1 : _) :
    State.hide (writeFlips s x1) m d = s.hide m d :=
  State.hide_mono h (by
    unfold writeFlips
    simp only [State.mapScene_hide, drainReleases_hide, State.hide_ite, ite_self, Nat.reduceOr])

/-- Parts: regs, pow, hw, out, precHeld, scene, src, perf. -/
theorem beginLine_hide {m : Nat} (h : 0x8010004b6 ||| m = m) (d : State) (s : State) (x1 : _) (x2 : _) :
    State.hide (beginLine s x1 x2) m d = s.hide m d :=
  State.hide_mono h (by
    unfold beginLine
    simp only [writeFlips_hide, State.hide_ite, ite_self, Nat.reduceOr])

/-- Parts: free, regs, pow, hw, out, scene, loft, pipes, furrowStore, fetches, src, light, perf. -/
theorem lineFurrow_hide {m : Nat} (h : 0x901886437 ||| m = m) (d : State) (s : State) (x1 : _) (x2 : _) (x3 : _) :
    State.hide (lineFurrow s x1 x2 x3) m d = s.hide m d :=
  State.hide_mono h (by
    unfold lineFurrow
    simp only [beginFurrow_hide, State.hide_ite, ite_self, Nat.reduceOr])

/-- Parts: regs. -/
theorem bootShown_hide {m : Nat} (h : 2 ||| m = m) (d : State) (s : State) (x1 : _) (x2 : _) :
    State.hide (bootShown s x1 x2) m d = s.hide m d :=
  State.hide_mono h (by
    unfold bootShown
    simp only [State.setFld_hide, State.hide_ite, ite_self, Nat.reduceOr])

/-- Parts: free, regs, pow, hw, out, rings, precHeld, scene, loft, pipes, camLines, camLags, camEarly, furrowStore, gates, levels,
    fetches, src, wins, dma, scans, cams, light, fault, perf. -/
theorem lineStep_hide {m : Nat} (h : 0xb6ddf64f7 ||| m = m) (d : State) (s : State) (x1 : _) (x2 : _) :
    State.hide (lineStep s x1 x2) m d = s.hide m d :=
  State.hide_mono h (by
    unfold lineStep
    repeat' split
    all_goals simp only [State.setPipe_hide, beginLine_hide, blackLine_hide, bootShown_hide, camDeadline_hide, composeLine_hide,
        fetchAhead_hide, gateStep_hide, lineEvents_hide, lineFurrow_hide, posTriggers_hide, settle_hide, windowsAt_hide,
        State.hide_ite, ite_self, Nat.reduceOr])

/-- Parts: free, regs. -/
theorem countCorrected_hide {m : Nat} (h : 3 ||| m = m) (d : State) (s : State) :
    State.hide (countCorrected s) m d = s.hide m d :=
  State.hide_mono h (by
    unfold countCorrected
    simp (disch := first | simp only [Nat.reduceOr] | (intros; simp only [State.addFld_hide, State.freshen_hide, State.each_hide,
        State.hide_ite, ite_self, Nat.reduceOr] <;> done) | (intros; repeat' split) <;> simp only [State.addFld_hide,
        State.freshen_hide, State.each_hide, State.hide_ite, ite_self, Nat.reduceOr]) only [State.addFld_hide, State.freshen_hide,
        State.each_hide, State.hide_ite, ite_self, Nat.reduceOr])

/-- Parts: regs, pow, hw, out, pipes, gates, gcl, src, cams, groups, light, perf. -/
theorem camFrameStart_hide {m : Nat} (h : 0x9c1304036 ||| m = m) (d : State) (s : State) (x1 : _) :
    State.hide (camFrameStart s x1) m d = s.hide m d :=
  State.hide_mono h (by
    unfold camFrameStart
    simp only [applyCamParts_hide, camOpen_hide, State.hide_ite, ite_self, Nat.reduceOr])

end Sys2Proof.Machine
end

