-- ==== Sys2Proof/Laws/Frames4.lean ====
section
/-! SUPPORT. What the operations of these files can touch (see Frames):
Indirect, Session, RegWrite, Power, Access, Links. -/

set_option linter.all false

namespace Sys2Proof.Machine

/-! Indirect. -/

/-- Parts: regs. -/
theorem setBank_hide {m : Nat} (h : 2 ||| m = m) (d : State) (s : State) (x1 : _) (x2 : _) (x3 : _) :
    State.hide (setBank s x1 x2 x3) m d = s.hide m d :=
  State.hide_mono h (by
    unfold setBank
    simp only [State.hide_regs, Nat.reduceOr])

/-- Parts: regs, scene, loft, barn. -/
theorem putTableWord_hide {m : Nat} (h : 0x400002402 ||| m = m) (d : State) (x0 : _) (x1 : _) (s : State) (x3 : _) (x4 : _) :
    State.hide (putTableWord x0 x1 s x3 x4) m d = s.hide m d :=
  State.hide_mono h (by
    unfold putTableWord
    repeat' split
    all_goals simp only [State.mapScene_hide, barnWrite_hide, putCtxWords_hide, State.hide_loft, State.hide_regs, Nat.reduceOr])

/-- Parts: regs. -/
theorem readData_hide {m : Nat} (h : 2 ||| m = m) (d : State) (s : State) (x1 : _) (x2 : _) :
    State.hide (readData s x1 x2).1 m d = s.hide m d :=
  State.hide_mono h (by
    unfold readData
    simp only []
    repeat' split
    all_goals first | rfl | simp only [setBank_hide, State.hide_ite, ite_self, apply_ite Prod.fst, Nat.reduceOr])

/-- Parts: regs, scene, loft, barn. -/
theorem writeData_hide {m : Nat} (h : 0x400002402 ||| m = m) (d : State) (s : State) (x1 : _) (x2 : _) (x3 : _) :
    State.hide (writeData s x1 x2 x3).1 m d = s.hide m d :=
  State.hide_mono h (by
    unfold writeData
    simp (disch := (intros; simp only [putTableWord_hide, setBank_hide, State.each_hide, State.hide_ite, ite_self,
        apply_ite Prod.fst, Nat.reduceOr])) only [putTableWord_hide, setBank_hide, State.each_hide, State.hide_ite, ite_self,
        apply_ite Prod.fst, Nat.reduceOr])

/-- Parts: regs. -/
theorem writeIndex_hide {m : Nat} (h : 2 ||| m = m) (d : State) (s : State) (x1 : _) (x2 : _) (x3 : _) (x4 : _) :
    State.hide (writeIndex s x1 x2 x3 x4) m d = s.hide m d :=
  State.hide_mono h (by
    unfold writeIndex
    simp only [setBank_hide, Nat.reduceOr])

/-! Session. -/

/-- Parts: regs, pow, hw, out, rings, scene, src, dma, fault, perf. -/
theorem closeRing_hide {m : Nat} (h : 0xa09000476 ||| m = m) (d : State) (s : State) (x1 : _) :
    State.hide (closeRing s x1) m d = s.hide m d :=
  State.hide_mono h (by
    unfold closeRing
    repeat' split
    all_goals simp only [State.setFld_hide, State.setRing_hide, backToBefore_hide, dropSlot_hide, endRing_hide, stopRing_hide,
        State.hide_ite, ite_self, Nat.reduceOr])

/-- Parts: regs, pow, hw, out, rings, scene, src, dma, light, fault, perf. -/
theorem closeSession_hide {m : Nat} (h : 0xb09000476 ||| m = m) (d : State) (s : State) :
    State.hide (closeSession s) m d = s.hide m d :=
  State.hide_mono h (by
    unfold closeSession
    simp (disch := (intros; simp only [State.setFld_hide, abandonDma_hide, closeRing_hide, noteHeld_hide, refreshTelltales_hide,
        wakeAll_hide, State.hide_hw, State.each_hide, State.hide_ite, ite_self, Nat.reduceOr])) only [State.setFld_hide,
        abandonDma_hide, closeRing_hide, noteHeld_hide, refreshTelltales_hide, wakeAll_hide, State.hide_hw, State.each_hide,
        State.hide_ite, ite_self, Nat.reduceOr])

/-! RegWrite. -/

/-- Parts: none. -/
theorem wrote_hide {m : Nat} (h : 0 ||| m = m) (d : State) (s : State) :
    State.hide (wrote s).s m d = s.hide m d :=
  State.hide_mono h (by
    unfold wrote
    simp only [apply_ite Written.s, Nat.reduceOr])

/-- Parts: regs. -/
theorem storeBits_hide {m : Nat} (h : 2 ||| m = m) (d : State) (s : State) (x1 : _) (x2 : _) (x3 : _) (x4 : _) (x5 : _) :
    State.hide (storeBits s x1 x2 x3 x4 x5) m d = s.hide m d :=
  State.hide_mono h (by
    unfold storeBits
    simp only [State.setReg_hide, State.setShadow_hide, State.hide_ite, ite_self, Nat.reduceOr])

/-- Parts: regs. -/
theorem holdLo_hide {m : Nat} (h : 2 ||| m = m) (d : State) (s : State) (x1 : _) (x2 : _) (x3 : _) (x4 : _) :
    State.hide (holdLo s x1 x2 x3 x4) m d = s.hide m d :=
  State.hide_mono h (by
    unfold holdLo
    simp only [State.hide_regs, Nat.reduceOr])

/-- Parts: regs. -/
theorem takeHi_hide {m : Nat} (h : 2 ||| m = m) (d : State) (s : State) (x1 : _) (x2 : _) (x3 : _) (x4 : _) (x5 : _) :
    State.hide (takeHi s x1 x2 x3 x4 x5) m d = s.hide m d :=
  State.hide_mono h (by
    unfold takeHi
    repeat' split
    all_goals simp only [storeBits_hide, State.hide_regs, Nat.reduceOr])

/-- Parts: regs, pow, hw, out, src. -/
theorem refuse_hide {m : Nat} (h : 0x1000036 ||| m = m) (d : State) (s : State) (x1 : _) (x2 : _) (x3 : _) :
    State.hide (refuse s x1 x2 x3).s m d = s.hide m d :=
  State.hide_mono h (by
    unfold refuse
    simp only [lockedWrite_hide, apply_ite Written.s, Nat.reduceOr])

/-- Parts: regs, hw, out. -/
theorem wakeAsked_hide {m : Nat} (h : 0x32 ||| m = m) (d : State) (s : State) (x1 : _) :
    State.hide (wakeAsked s x1) m d = s.hide m d :=
  State.hide_mono h (by
    unfold wakeAsked
    simp only [wakeLink_hide, State.hide_ite, ite_self, Nat.reduceOr])

/-- Parts: regs. -/
theorem takeProfile_hide {m : Nat} (h : 2 ||| m = m) (d : State) (s : State) :
    State.hide (takeProfile s) m d = s.hide m d :=
  State.hide_mono h (by
    unfold takeProfile
    simp only [State.setFld_hide, Nat.reduceOr])

/-- Parts: regs, pow, hw, out, src. -/
theorem senseConfig_hide {m : Nat} (h : 0x1000036 ||| m = m) (d : State) (s : State) (x1 : _) :
    State.hide (senseConfig s x1) m d = s.hide m d :=
  State.hide_mono h (by
    unfold senseConfig
    simp only [setCond_hide, Nat.reduceOr])

/-- Parts: regs, wins. -/
theorem windowConfig_hide {m : Nat} (h : 0x4000002 ||| m = m) (d : State) (s : State) (x1 : _) :
    State.hide (windowConfig s x1) m d = s.hide m d :=
  State.hide_mono h (by
    unfold windowConfig
    simp only [State.setWindow_hide, winStatus_hide, State.hide_ite, ite_self, Nat.reduceOr])

/-- Parts: free, regs, pow, hw, out, rings, precHeld, queueSizes, scene, pipes, camLines, camLags, camEarly, gates, gcl, levels,
    fetches, src, dma, dmaHalted, scans, cams, groups, light, fault, barn, perf. -/
theorem trigger_hide {m : Nat} (h : 0xff9f746f7 ||| m = m) (d : State) (s : State) (x1 : _) (x2 : _) (x3 : _) (x4 : _) :
    State.hide (trigger s x1 x2 x3 x4) m d = s.hide m d :=
  State.hide_mono h (by
    have e : ∀ (t : State) l, (t.each l startDma).hide 0xff9f746f7 d = t.hide 0xff9f746f7 d :=
      fun t l => State.each_hide _ _ _ _ _ fun _ _ => startDma_hide (by decide) _ _ _
    unfold trigger
    simp only [State.hide_ite, e, strobe_hide, settle_hide, closeSession_hide, wakeAsked_hide, restartEngine_hide, scanStop_hide,
        scanGo_hide, packetGo_hide, rawFlush_hide, rawErase_hide, journalGo_hide, journalRead_hide, stopWindows_hide,
        startWindows_hide, ite_self, Nat.reduceOr])

/-- Parts: regs, pow, hw, out, src, wins, light. -/
theorem followUp_hide {m : Nat} (h : 0x105000036 ||| m = m) (d : State) (s : State) (x1 : _) (x2 : _) :
    State.hide (followUp s x1 x2) m d = s.hide m d :=
  State.hide_mono h (by
    unfold followUp
    simp only [refreshTelltales_hide, senseConfig_hide, takeProfile_hide, windowConfig_hide, State.hide_ite, ite_self,
        Nat.reduceOr])

/-- Parts: regs. -/
theorem writeView_hide {m : Nat} (h : 2 ||| m = m) (d : State) (s : State) (x1 : _) (x2 : _) (x3 : _) :
    State.hide (writeView s x1 x2 x3) m d = s.hide m d :=
  State.hide_mono h (by
    unfold writeView
    simp only [State.hide_regs, State.hide_ite, ite_self, Nat.reduceOr])

/-- Parts: regs, pow, hw, out, src. -/
theorem writeResetCtl_hide {m : Nat} (h : 0x1000036 ||| m = m) (d : State) (s : State) (x1 : _) (x2 : _) (x3 : _) (x4 : _)
    (x5 : _) :
    State.hide (writeResetCtl s x1 x2 x3 x4 x5).s m d = s.hide m d :=
  State.hide_mono h (by
    unfold writeResetCtl
    simp only [refuse_hide, storeBits_hide, wrote_hide, State.hide_ite, ite_self, apply_ite Written.s, Nat.reduceOr])

/-- Parts: free, regs, pow, hw, out, rings, precHeld, precSize, queueSizes, scene, pipes, camLines, camLags, camEarly, gates, gcl,
    levels, fetches, src, wins, dma, dmaHalted, scans, cams, groups, light, fault, barn, perf. -/
theorem writePlain_hide {m : Nat} (h : 0xffdf747f7 ||| m = m) (d : State) (s : State) (x1 : _) (x2 : _) (x3 : _) (x4 : _) (x5 : _)
    (x6 : _) :
    State.hide (writePlain s x1 x2 x3 x4 x5 x6) m d = s.hide m d :=
  State.hide_mono h (by
    have q : ∀ (c : Prop) [Decidable c] (a b : Option State), (∀ t, a = some t → t.hide 0xffdf747f7 d = s.hide 0xffdf747f7 d) →
        (∀ t, b = some t → t.hide 0xffdf747f7 d = s.hide 0xffdf747f7 d) → ∀ t,
            (if c then a else b) = some t → t.hide 0xffdf747f7 d = s.hide 0xffdf747f7 d := by
      intro c _ a b ha hb t
      split
      · exact ha t
      · exact hb t
    have o : ∀ t, ownWrite s x4 x3 x5 x6 = some t → t.hide 0xffdf747f7 d = s.hide 0xffdf747f7 d := by
      unfold ownWrite
      simp only []
      repeat' (refine q _ _ _ ?_ ?_)
      all_goals intro t e
      all_goals first
        | rw [← Option.some.inj e]
        | (cases e; done)
      all_goals try
        simp only [writeRingCtl_hide, enablePrec_hide, retestWrite_hide, enableRecords_hide, consumeRecords_hide, packetPush_hide,
          forceSw_hide, writeQmask_hide, sleepQueue_hide, awakeQueue_hide, clearSpi_hide, completeSource_hide, State.hide_ite,
          ite_self, Nat.reduceOr]
    unfold writePlain
    split
    · exact writeView_hide (by decide) _ _ _ _ _
    · split
      · exact holdLo_hide (by decide) _ _ _ _ _ _
      · split
        · exact takeHi_hide (by decide) _ _ _ _ _ _ _
        · split
          · split
            · exact State.setReg_hide (by decide) _ _ _ _
            · rfl
          · split
            · rename_i e
              exact o _ e
            · split
              · exact State.setFld_hide (by decide) _ _ _ _
              · rfl
            · refine (trigger_hide (by decide) _ _ _ _ _ _).trans ((followUp_hide (by decide) _ _ _ _).trans
                ((storeBits_hide (by decide) _ _ _ _ _ _ _).trans ?_))
              split
              · exact maskSource_hide (by decide) _ _ _ _
              · rfl)

/-- Parts: regs, pow, hw, out, src. -/
theorem writeKey_hide {m : Nat} (h : 0x1000036 ||| m = m) (d : State) (s : State) (x1 : _) (x2 : _) (x3 : _) (x4 : _) (x5 : _) :
    State.hide (writeKey s x1 x2 x3 x4 x5).s m d = s.hide m d :=
  State.hide_mono h (by
    unfold writeKey
    simp only [refuse_hide, wrote_hide, State.hide_regs, State.hide_ite, ite_self, apply_ite Written.s, Nat.reduceOr])

/-- Parts: free, regs, pow, hw, out, rings, precHeld, precSize, queueSizes, scene, loft, pipes, camLines, camLags, camEarly, gates,
    gcl, levels, fetches, src, wins, dma, dmaHalted, scans, cams, groups, light, fault, barn, perf. -/
theorem writeAt_hide {m : Nat} (h : 0xffdf767f7 ||| m = m) (d : State) (s : State) (x1 : _) (x2 : _) (x3 : _) (x4 : _) (x5 : _) :
    State.hide (writeAt s x1 x2 x3 x4 x5).s m d = s.hide m d :=
  State.hide_mono h (by
    unfold writeAt
    repeat' split
    all_goals simp only [refuse_hide, unmapped_hide, writeData_hide, writeIndex_hide, writeKey_hide, writePlain_hide,
        writeResetCtl_hide, wrote_hide, State.hide_ite, ite_self, apply_ite Prod.fst, apply_ite Written.s, Nat.reduceOr])

/-- Parts: regs. -/
theorem failBank_hide {m : Nat} (h : 2 ||| m = m) (d : State) (s : State) (x1 : _) (x2 : _) :
    State.hide (failBank s x1 x2) m d = s.hide m d :=
  State.hide_mono h (by
    unfold failBank
    simp only [setBank_hide, Nat.reduceOr])

/-- Parts: free, regs, pow, hw, out, rings, precHeld, precSize, queueSizes, scene, loft, pipes, camLines, camLags, camEarly, gates,
    gcl, levels, fetches, src, wins, dma, dmaHalted, scans, cams, groups, light, fault, barn, perf. -/
theorem aliasWrite_hide {m : Nat} (h : 0xffdf767f7 ||| m = m) (d : State) (s : State) (x1 : _) (x2 : _) (x3 : _) :
    State.hide (aliasWrite s x1 x2 x3).s m d = s.hide m d :=
  State.hide_mono h (by
    unfold aliasWrite
    cases dataPair (aliasReg x2) with
    | some k => exact failBank_hide (by decide) _ _ _ _
    | none => exact writeAt_hide (by decide) _ _ _ _ _ _ _)

/-- Parts: free, regs, pow, hw, out, rings, precHeld, precSize, queueSizes, scene, loft, pipes, camLines, camLags, camEarly, gates,
    gcl, levels, fetches, src, wins, dma, dmaHalted, scans, cams, groups, light, fault, barn, perf. -/
theorem accessWrite_hide {m : Nat} (h : 0xffdf767f7 ||| m = m) (d : State) (s : State) (x1 : _) (x2 : _) (x3 : _) :
    State.hide (accessWrite s x1 x2 x3).s m d = s.hide m d :=
  State.hide_mono h (by
    unfold accessWrite
    simp only [aliasWrite_hide, unmapped_hide, writeAt_hide, State.hide_ite, ite_self, apply_ite Written.s, Nat.reduceOr])

/-- Parts: free, fault. -/
theorem readSettled_hide {m : Nat} (h : 0x200000001 ||| m = m) (d : State) (s : State) (x1 : _) :
    State.hide (readSettled s x1) m d = s.hide m d :=
  State.hide_mono h (by
    unfold readSettled
    simp only [settleLeads_hide, State.hide_ite, ite_self, Nat.reduceOr])

/-- Parts: free, regs, groups, fault. -/
theorem readAt_hide {m : Nat} (h : 0x280000003 ||| m = m) (d : State) (s : State) (x1 : _) (x2 : _) :
    State.hide (readAt s x1 x2).1 m d = s.hide m d :=
  State.hide_mono h (by
    unfold readAt
    repeat' split
    all_goals simp only [packetPop_hide, readData_hide, readSettled_hide, unmapped_hide, State.hide_ite, ite_self,
        apply_ite Prod.fst, Nat.reduceOr])

/-- Parts: free, regs, fault. -/
theorem aliasReadBit_hide {m : Nat} (h : 0x200000003 ||| m = m) (d : State) (s : State) (x1 : _) (x2 : _) (x3 : _) :
    State.hide (aliasReadBit s x1 x2 x3).1 m d = s.hide m d :=
  State.hide_mono h (by
    unfold aliasReadBit
    repeat' split
    all_goals simp only [failBank_hide, readSettled_hide, unmapped_hide, apply_ite Prod.fst, Nat.reduceOr])

/-- Parts: free, regs, fault. -/
theorem aliasRead_hide {m : Nat} (h : 0x200000003 ||| m = m) (d : State) (s : State) (x1 : _) (x2 : _) :
    State.hide (aliasRead s x1 x2).1 m d = s.hide m d :=
  State.hide_mono h (by
    unfold aliasRead
    simp only [aliasReadBit_hide, apply_ite Prod.fst, Nat.reduceOr])

/-- Parts: free, regs, groups, fault. -/
theorem accessRead_hide {m : Nat} (h : 0x280000003 ||| m = m) (d : State) (s : State) (x1 : _) (x2 : _) :
    State.hide (accessRead s x1 x2).1 m d = s.hide m d :=
  State.hide_mono h (by
    unfold accessRead
    simp only [aliasRead_hide, readAt_hide, unmapped_hide, State.hide_ite, ite_self, apply_ite Prod.fst, Nat.reduceOr])

/-! Power. -/

/-- Parts: regs. -/
theorem showFrontEnd_hide {m : Nat} (h : 2 ||| m = m) (d : State) (s : State) (x1 : _) :
    State.hide (showFrontEnd s x1) m d = s.hide m d :=
  State.hide_mono h (by
    unfold showFrontEnd
    simp only [State.setFld_hide, Nat.reduceOr])

/-- Parts: regs. -/
theorem showPower_hide {m : Nat} (h : 2 ||| m = m) (d : State) (s : State) (x1 : _) (x2 : _) :
    State.hide (showPower s x1 x2) m d = s.hide m d :=
  State.hide_mono h (by
    unfold showPower
    simp only [State.setFld_hide, takeProfile_hide, State.hide_ite, ite_self, Nat.reduceOr])

/-- Parts: regs, pow. -/
theorem classify_hide {m : Nat} (h : 6 ||| m = m) (d : State) (s : State) (x1 : _) (x2 : _) (x3 : _) :
    State.hide (classify s x1 x2 x3) m d = s.hide m d :=
  State.hide_mono h (by
    unfold classify
    simp only [showFrontEnd_hide, State.hide_pow, State.hide_ite, ite_self, Nat.reduceOr])

/-- Parts: pow, out. -/
theorem lowerWake_hide {m : Nat} (h : 0x24 ||| m = m) (d : State) (s : State) :
    State.hide (lowerWake s) m d = s.hide m d :=
  State.hide_mono h (by
    unfold lowerWake
    simp only [State.emit_hide, State.hide_pow, State.hide_ite, ite_self, Nat.reduceOr])

/-- Parts: all of them. -/
theorem resetBase_hide {m : Nat} (h : 0xfffffffff ||| m = m) (d : State) (s : State) (x1 : _) :
    State.hide (resetBase s x1) m d = s.hide m d :=
  State.hide_mono h (by
    unfold resetBase
    exact (State.each_hide _ _ _ _ _ (fun t i => (setCond_hide (by decide) _ _ _ _).trans (State.setFld_hide (by decide) _ _ _ _))).trans
      rfl)

/-- Parts: regs, pow, hw, out, queueSizes, pipes, gates, gcl, levels, src, cams, groups, light. -/
theorem bootApply_hide {m : Nat} (h : 0x1c1704236 ||| m = m) (d : State) (s : State) (x1 : _) (x2 : _) (x3 : _) :
    State.hide (bootApply s x1 x2 x3) m d = s.hide m d :=
  State.hide_mono h (by
    unfold bootApply
    simp (disch := (intros; simp only [applyPend_hide, applyWords_hide, evtStrobed_hide, laneChanged_hide, pllsChanged_hide,
        shaperChange_hide, State.each_hide, State.hide_ite, ite_self, Nat.reduceOr])) only [applyPend_hide, applyWords_hide,
        evtStrobed_hide, laneChanged_hide, pllsChanged_hide, shaperChange_hide, State.each_hide, State.hide_ite, ite_self,
        Nat.reduceOr])

/-- Parts: regs, pow, hw, out, queueSizes, scene, pipes, gates, gcl, levels, src, cams, groups, light. -/
theorem bootStrobe_hide {m : Nat} (h : 0x1c1704636 ||| m = m) (d : State) (s : State) (x1 : _) :
    State.hide (bootStrobe s x1) m d = s.hide m d :=
  State.hide_mono h (by
    unfold bootStrobe
    simp only []
    repeat' split
    all_goals first | rfl | simp only [bootApply_hide, refuseStrobe_hide, State.hide_ite, ite_self, Nat.reduceOr])

/-- Parts: free, regs, pow, hw, out, rings, precHeld, precSize, queueSizes, scene, loft, pipes, camLines, camLags, camEarly, gates,
    gcl, levels, fetches, src, wins, dma, dmaHalted, scans, cams, groups, light, fault, barn, perf. -/
theorem bootWrite_hide {m : Nat} (h : 0xffdf767f7 ||| m = m) (d : State) (s : State × Bool) (x1 : _) :
    State.hide (bootWrite s x1).1 m d = s.1.hide m d :=
  State.hide_mono h (by
    unfold bootWrite
    simp only [accessWrite_hide, bootStrobe_hide, State.hide_ite, ite_self, apply_ite Prod.fst, apply_ite Written.s, Nat.reduceOr])

/-- Parts: free, regs, pow, hw, out, rings, precHeld, precSize, queueSizes, scene, loft, pipes, camLines, camLags, camEarly, gates,
    gcl, levels, fetches, src, wins, dma, dmaHalted, scans, cams, groups, light, fault, barn, perf. -/
theorem bootWrites_hide {m : Nat} (h : 0xffdf767f7 ||| m = m) (d : State) (s : State × Bool) (x1 : _) :
    State.hide (bootWrites s x1).1 m d = s.1.hide m d :=
  State.hide_mono h (by
    exact State.foldl_hide _ _ Prod.fst _ (fun _ _ => bootWrite_hide (by decide) _ _ _) _ _)

/-- Parts: regs. -/
theorem showBank_hide {m : Nat} (h : 2 ||| m = m) (d : State) (s : State) (x1 : _) :
    State.hide (showBank s x1) m d = s.hide m d :=
  State.hide_mono h (by
    unfold showBank
    simp only [State.setFld_hide, Nat.reduceOr])

/-- Parts: regs, pow. -/
theorem imageFields_hide {m : Nat} (h : 6 ||| m = m) (d : State) (s : State) (x1 : _) :
    State.hide (imageFields s x1) m d = s.hide m d :=
  State.hide_mono h (by
    unfold imageFields
    simp only [State.setFld_hide, State.setReg_hide, State.hide_pow, Nat.reduceOr])

/-- Parts: free, regs, pow, hw, out, rings, precHeld, precSize, queueSizes, scene, loft, pipes, camLines, camLags, camEarly, gates,
    gcl, levels, fetches, src, wins, dma, dmaHalted, scans, cams, groups, light, fault, barn, perf. -/
theorem loadImage_hide {m : Nat} (h : 0xffdf767f7 ||| m = m) (d : State) (s : State) (x1 : _) :
    State.hide (loadImage s x1).1 m d = s.hide m d :=
  State.hide_mono h (by
    unfold loadImage
    simp only [State.setFld_hide, bootWrites_hide, imageFields_hide, showFrontEnd_hide, takeProfile_hide, apply_ite Prod.fst,
        Nat.reduceOr])

/-- Parts: free, regs, mem, lost, fault. -/
theorem leaveOut_hide {m : Nat} (h : 0x200001803 ||| m = m) (d : State) (s : State) (x1 : _) (x2 : _) :
    State.hide (leaveOut s x1 x2) m d = s.hide m d :=
  State.hide_mono h (by
    unfold leaveOut
    simp only [State.loseMemory_hide, State.setFld_hide, State.setUnit_hide, setGroupState_hide, State.hide_ite, ite_self,
        Nat.reduceOr])

/-- Parts: free, regs, mem, lost, fault. -/
theorem retireFromMap_hide {m : Nat} (h : 0x200001803 ||| m = m) (d : State) (s : State) :
    State.hide (retireFromMap s) m d = s.hide m d :=
  State.hide_mono h (by
    unfold retireFromMap
    refine State.each_hide _ _ _ _ _ fun _ _ => ?_
    repeat' split
    all_goals first | rfl | simp only [leaveOut_hide, State.each_hide, State.hide_ite, ite_self, Nat.reduceOr])

/-- Parts: free, regs, pow, hw, out, rings, scene, mem, lost, pipes, src, dma, light, fault, barn. -/
theorem startFails_hide {m : Nat} (h : 0x709005c77 ||| m = m) (d : State) (s : State) (x1 : _) (x2 : _) (x3 : _) :
    State.hide (startFails s x1 x2 x3) m d = s.hide m d :=
  State.hide_mono h (by
    unfold startFails
    simp only [State.addFld_hide, State.mapBarn_hide, flogEntry_hide, journalMap_hide, leaveOut_hide, linkFault_hide,
        loseHost_hide, pushRecord_hide, raise_hide, writtenIfOff_hide, State.hide_ite, ite_self, Nat.reduceOr])

/-- Parts: free, regs, pow, hw, out, rings, scene, mem, lost, pipes, src, dma, light, fault, barn. -/
theorem startRetires_hide {m : Nat} (h : 0x709005c77 ||| m = m) (d : State) (s : State) (x1 : _) (x2 : _) :
    State.hide (startRetires s x1 x2) m d = s.hide m d :=
  State.hide_mono h (by
    unfold startRetires
    simp only []
    repeat' split
    all_goals first | rfl | simp only [startFails_hide, State.hide_ite, ite_self, Nat.reduceOr])

/-- Parts: free, regs, pow, hw, out, rings, scene, mem, lost, pipes, src, dma, light, fault, barn. -/
theorem trainChannels_hide {m : Nat} (h : 0x709005c77 ||| m = m) (d : State) (s : State) (x1 : _) :
    State.hide (trainChannels s x1) m d = s.hide m d :=
  State.hide_mono h (by
    unfold trainChannels
    refine State.each_hide _ _ _ _ _ fun _ _ => ?_
    repeat' split
    all_goals first | rfl | simp only [startRetires_hide, State.hide_pow, State.each_hide, State.hide_ite, ite_self, Nat.reduceOr])

/-- Parts: free, regs, pow, hw, out, rings, scene, mem, lost, pipes, src, dma, light, fault, barn. -/
theorem testUnits_hide {m : Nat} (h : 0x709005c77 ||| m = m) (d : State) (s : State) (x1 : _) :
    State.hide (testUnits s x1) m d = s.hide m d :=
  State.hide_mono h (by
    unfold testUnits
    simp (disch := (intros; repeat' split) <;> simp only [raise_hide, startRetires_hide, State.each_hide, State.hide_ite,
        ite_self, Nat.reduceOr]) only [raise_hide, startRetires_hide, State.each_hide, State.hide_ite, ite_self, Nat.reduceOr])

/-- Parts: regs, pow, hw, out, src, light. -/
theorem forceUntilReset_hide {m : Nat} (h : 0x101000036 ||| m = m) (d : State) (s : State) :
    State.hide (forceUntilReset s) m d = s.hide m d :=
  State.hide_mono h (by
    unfold forceUntilReset
    simp only [forceSw_hide, State.hide_light, Nat.reduceOr])

/-- Parts: regs, pow, hw, out, src, light, barn. -/
theorem coreFails_hide {m : Nat} (h : 0x501000036 ||| m = m) (d : State) (s : State) :
    State.hide (coreFails s) m d = s.hide m d :=
  State.hide_mono h (by
    unfold coreFails
    simp only [State.setFld_hide, flogEntry_hide, forceUntilReset_hide, raise_hide, Nat.reduceOr])

/-- Parts: regs, pow, hw, out, src. -/
theorem takePart_hide {m : Nat} (h : 0x1000036 ||| m = m) (d : State) (s : State) (x1 : _) (x2 : _) :
    State.hide (takePart s x1 x2).1 m d = s.hide m d :=
  State.hide_mono h (by
    unfold takePart
    repeat' split
    all_goals simp only [State.setFld_hide, raise_hide, State.hide_ite, ite_self, apply_ite Prod.fst, Nat.reduceOr])

/-- Parts: pipes. -/
theorem loadGrounds_hide {m : Nat} (h : 0x4000 ||| m = m) (d : State) (s : State) (x1 : _) (x2 : _) :
    State.hide (loadGrounds s x1 x2) m d = s.hide m d :=
  State.hide_mono h (by
    unfold loadGrounds
    simp (disch := first | simp only [Nat.reduceOr] | (intros; simp only [State.setPipe_hide, State.each_hide, State.hide_ite,
        ite_self, Nat.reduceOr] <;> done) | (intros; repeat' split) <;> simp only [State.setPipe_hide, State.each_hide,
        State.hide_ite, ite_self, Nat.reduceOr]) only [State.setPipe_hide, State.each_hide, State.hide_ite, ite_self, Nat.reduceOr])

/-- Parts: scene, loft. -/
theorem keepBootArt_hide {m : Nat} (h : 0x2400 ||| m = m) (d : State) (s : State) (x1 : _) (x2 : _) :
    State.hide (keepBootArt s x1 x2) m d = s.hide m d :=
  State.hide_mono h (by
    unfold keepBootArt
    simp only [State.mapScene_hide, State.hide_loft, Nat.reduceOr])

/-- Parts: free, regs, pow, hw, out, rings, precHeld, precSize, queueSizes, scene, loft, pipes, camLines, camLags, camEarly, gates,
    gcl, levels, fetches, src, wins, dma, dmaHalted, scans, cams, groups, light, fault, barn, perf. -/
theorem loadParts_hide {m : Nat} (h : 0xffdf767f7 ||| m = m) (d : State) (s : State) (x1 : _) (x2 : _) :
    State.hide (loadParts s x1 x2) m d = s.hide m d :=
  State.hide_mono h (by
    unfold loadParts
    simp only [State.setFld_hide, bootWrites_hide, fallbackProof_hide, forceUntilReset_hide, keepBootArt_hide, loadGrounds_hide,
        takePart_hide, State.hide_loft, State.hide_ite, ite_self, apply_ite Prod.fst, Nat.reduceOr])

/-- Parts: regs, pow, hw, out, pipes, src, groups, light, fault. -/
theorem startOutputs_hide {m : Nat} (h : 0x381004036 ||| m = m) (d : State) (s : State) :
    State.hide (startOutputs s) m d = s.hide m d :=
  State.hide_mono h (by
    unfold startOutputs
    simp (disch := (intros; simp only [State.setGroup_hide, startGroup_hide, startPipe_hide, State.each_hide, State.hide_ite,
        ite_self, Nat.reduceOr])) only [State.setGroup_hide, startGroup_hide, startPipe_hide, State.each_hide, State.hide_ite,
        ite_self, Nat.reduceOr])

/-- Parts: free, regs, pow, hw, out, rings, precHeld, scene, pipes, camLines, camLags, camEarly, gates, levels, fetches, src,
    sampleDue, dma, scans, cams, light, fault, barn, perf. -/
theorem enterService_hide {m : Nat} (h : 0xf6bd744f7 ||| m = m) (d : State) (s : State) :
    State.hide (enterService s) m d = s.hide m d :=
  State.hide_mono h (by
    unfold enterService
    simp only [beginSlot_hide, checkLanes_hide, refreshTelltales_hide, resumeBarn_hide, settle_hide, wakeAll_hide,
        State.hide_pow_sampleDue, Nat.reduceOr])

/-- Parts: free, regs, pow, hw, out, rings, precHeld, precSize, queueSizes, scene, mem, lost, loft, pipes, camLines, camLags,
    camEarly, gates, gcl, levels, fetches, src, sampleDue, wins, dma, dmaHalted, scans, cams, groups, light, fault, barn, perf. -/
theorem startSequence_hide {m : Nat} (h : 0xffff77ff7 ||| m = m) (d : State) (s : State) (x1 : _) (x2 : _) :
    State.hide (startSequence s x1 x2) m d = s.hide m d :=
  State.hide_mono h (by
    unfold startSequence
    try simp only [coreFails_hide, enterService_hide, loadImage_hide, loadParts_hide, retireFromMap_hide, showBank_hide,
        showFrontEnd_hide, showPower_hide, startBarn_hide, startOutputs_hide, testUnits_hide, trainChannels_hide, State.hide_pow,
        State.hide_ite, ite_self, apply_ite Prod.fst, Nat.reduceOr]
    repeat' split
    all_goals try simp only [coreFails_hide, enterService_hide, loadImage_hide, loadParts_hide, retireFromMap_hide, showBank_hide,
        showFrontEnd_hide, showPower_hide, startBarn_hide, startOutputs_hide, testUnits_hide, trainChannels_hide, State.hide_pow,
        State.hide_ite, ite_self, apply_ite Prod.fst, Nat.reduceOr]
    all_goals repeat' split
    all_goals simp only [coreFails_hide, enterService_hide, loadImage_hide, loadParts_hide, retireFromMap_hide, showBank_hide,
        showFrontEnd_hide, showPower_hide, startBarn_hide, startOutputs_hide, testUnits_hide, trainChannels_hide, State.hide_pow,
        State.hide_ite, ite_self, apply_ite Prod.fst, Nat.reduceOr])

/-- Parts: all of them. -/
theorem restart_hide {m : Nat} (h : 0xfffffffff ||| m = m) (d : State) (s : State) (x1 : _) (x2 : _) (x3 : _) :
    State.hide (restart s x1 x2 x3) m d = s.hide m d :=
  State.hide_mono h (by
    unfold restart
    simp only [State.mapBarn_hide, State.setReg_hide, lowerWake_hide, resetBase_hide, startSequence_hide, stopBarn_hide,
        State.hide_ite, ite_self, Nat.reduceOr])

/-- Parts: all of them. -/
theorem powerGood_hide {m : Nat} (h : 0xfffffffff ||| m = m) (d : State) (s : State) (x1 : _) :
    State.hide (powerGood s x1) m d = s.hide m d :=
  State.hide_mono h (by
    unfold powerGood
    simp only [restart_hide, State.hide_ite, ite_self, Nat.reduceOr])

/-- Parts: all of them. -/
theorem softReset_hide {m : Nat} (h : 0xfffffffff ||| m = m) (d : State) (s : State) (x1 : _) :
    State.hide (softReset s x1) m d = s.hide m d :=
  State.hide_mono h (by
    unfold softReset
    simp only [restart_hide, Nat.reduceOr])

/-- Parts: free, regs, pow, hw, out, pipes, src, light, barn. -/
theorem loseLine_hide {m : Nat} (h : 0x501004037 ||| m = m) (d : State) (s : State) (x1 : _) :
    State.hide (loseLine s x1) m d = s.hide m d :=
  State.hide_mono h (by
    unfold loseLine
    simp (disch := (intros; simp only [State.setFld_hide, flogEntry_hide, lowerWake_hide, raise_hide, setGroupState_hide,
        stopBarn_hide, State.hide_pow_pipes_light, State.each_hide, State.hide_ite, ite_self,
        Nat.reduceOr])) only [State.setFld_hide, flogEntry_hide, lowerWake_hide, raise_hide, setGroupState_hide, stopBarn_hide,
        State.hide_pow_pipes_light, State.each_hide, State.hide_ite, ite_self, Nat.reduceOr])

/-- Parts: regs, pow, hw, out, scene, pipes, src, barn. -/
theorem thermTrip_hide {m : Nat} (h : 0x401004436 ||| m = m) (d : State) (s : State) :
    State.hide (thermTrip s) m d = s.hide m d :=
  State.hide_mono h (by
    unfold thermTrip
    simp (disch := (intros; simp only [State.mapBarn_hide, State.mapScene_hide, State.setFld_hide, flogEntry_hide, raise_hide,
        requestFallback_hide, State.hide_pow, State.each_hide, State.hide_ite, ite_self, Nat.reduceOr])) only [State.mapBarn_hide,
        State.mapScene_hide, State.setFld_hide, flogEntry_hide, raise_hide, requestFallback_hide, State.hide_pow, State.each_hide,
        State.hide_ite, ite_self, Nat.reduceOr])

/-- Parts: regs, pow, hw, out, scene, pipes, src, barn. -/
theorem tempSample_hide {m : Nat} (h : 0x401004436 ||| m = m) (d : State) (s : State) (x1 : _) :
    State.hide (tempSample s x1) m d = s.hide m d :=
  State.hide_mono h (by
    unfold tempSample
    simp only [State.setFld_hide, reportCond_hide, thermTrip_hide, State.hide_pow, State.hide_ite, ite_self, Nat.reduceOr])

/-- Parts: regs, pow, hw, out, src. -/
theorem openVbus_hide {m : Nat} (h : 0x1000036 ||| m = m) (d : State) (s : State) (x1 : _) :
    State.hide (openVbus s x1) m d = s.hide m d :=
  State.hide_mono h (by
    unfold openVbus
    simp only [raise_hide, State.hide_pow, Nat.reduceOr])

/-- Parts: regs, pow, hw, out, src. -/
theorem vbusRetry_hide {m : Nat} (h : 0x1000036 ||| m = m) (d : State) (s : State) (x1 : _) :
    State.hide (vbusRetry s x1) m d = s.hide m d :=
  State.hide_mono h (by
    unfold vbusRetry
    simp only [openVbus_hide, State.hide_pow, State.hide_ite, ite_self, Nat.reduceOr])

/-! Access. -/

/-- Parts: all of them. -/
theorem finishWrite_hide {m : Nat} (h : 0xfffffffff ||| m = m) (d : State) (s : Written) :
    State.hide (finishWrite s) m d = s.s.hide m d :=
  State.hide_mono h (by
    unfold finishWrite
    simp only [State.freshen_hide, softReset_hide, State.hide_ite, ite_self, Nat.reduceOr])

/-- Parts: all of them. -/
theorem writeWord_hide {m : Nat} (h : 0xfffffffff ||| m = m) (d : State) (s : State) (x1 : _) (x2 : _) (x3 : _) :
    State.hide (writeWord s x1 x2 x3) m d = s.hide m d :=
  State.hide_mono h (by
    unfold writeWord
    simp only [accessWrite_hide, finishWrite_hide, apply_ite Written.s, Nat.reduceOr])

/-- Parts: free, regs, out, groups, fault. -/
theorem readWord_hide {m : Nat} (h : 0x280000023 ||| m = m) (d : State) (s : State) (x1 : _) (x2 : _) :
    State.hide (readWord s x1 x2) m d = s.hide m d :=
  State.hide_mono h (by
    unfold readWord
    simp only [State.emit_hide, accessRead_hide, apply_ite Prod.fst, Nat.reduceOr])

/-- Parts: all of them. -/
theorem resetWrite_hide {m : Nat} (h : 0xfffffffff ||| m = m) (d : State) (s : State) (x1 : _) (x2 : _) (x3 : _) :
    State.hide (resetWrite s x1 x2 x3) m d = s.hide m d :=
  State.hide_mono h (by
    unfold resetWrite
    simp only [accessWrite_hide, softReset_hide, State.hide_ite, ite_self, apply_ite Written.s, Nat.reduceOr])

/-- Parts: free, regs, groups, fault. -/
theorem spiLoad_hide {m : Nat} (h : 0x280000003 ||| m = m) (d : State) (x0 : _) (x1 : _) (x2 : _) (s : State) :
    State.hide (spiLoad x0 x1 x2 s).1 m d = s.hide m d :=
  State.hide_mono h (by
    induction x1 generalizing x2 s with
    | zero => rfl
    | succ n ih => exact (ih _ _).trans (accessRead_hide (by decide) _ _ _ _))

/-- Parts: all of them. -/
theorem spiStore_hide {m : Nat} (h : 0xfffffffff ||| m = m) (d : State) (x0 : _) (x1 : _) (x2 : _) (s : State) :
    State.hide (spiStore x0 x1 x2 s) m d = s.hide m d :=
  State.hide_mono h (by
    induction x1 generalizing x2 s with
    | nil => rfl
    | cons w ws ih =>
      unfold spiStore
      simp only []
      split
      · exact (finishWrite_hide (by decide) _ _).trans (accessWrite_hide (by decide) _ _ _ _ _)
      · exact (ih _ _).trans (accessWrite_hide (by decide) _ _ _ _ _))

/-- Parts: free, regs, out, groups, fault. -/
theorem spiRead_hide {m : Nat} (h : 0x280000023 ||| m = m) (d : State) (s : State) (x1 : _) (x2 : _) (x3 : _) :
    State.hide (spiRead s x1 x2 x3) m d = s.hide m d :=
  State.hide_mono h (by
    unfold spiRead
    simp only [State.emit_hide, spiLoad_hide, apply_ite Prod.fst, Nat.reduceOr])

/-! Links. -/

/-- Parts: regs. -/
theorem rejectFrame_hide {m : Nat} (h : 2 ||| m = m) (d : State) (s : State) :
    State.hide (rejectFrame s) m d = s.hide m d :=
  State.hide_mono h (by
    unfold rejectFrame
    simp only [State.addFld_hide, Nat.reduceOr])

/-- Parts: regs, pow, hw, out, src. -/
theorem tagFails_hide {m : Nat} (h : 0x1000036 ||| m = m) (d : State) (s : State) :
    State.hide (tagFails s) m d = s.hide m d :=
  State.hide_mono h (by
    unfold tagFails
    simp only [raise_hide, rejectFrame_hide, State.hide_hw, State.hide_ite, ite_self, Nat.reduceOr])

/-- Parts: hw. -/
theorem takeAck_hide {m : Nat} (h : 0x10 ||| m = m) (d : State) (s : State) (x1 : _) :
    State.hide (takeAck s x1) m d = s.hide m d :=
  State.hide_mono h (by
    unfold takeAck
    simp only [State.hide_hw, Nat.reduceOr])

/-- Parts: regs, hw, out, perf. -/
theorem backToA_hide {m : Nat} (h : 0x800000032 ||| m = m) (d : State) (s : State) (x1 : _) :
    State.hide (backToA s x1) m d = s.hide m d :=
  State.hide_mono h (by
    unfold backToA
    simp only [freshCounts_hide, resendAll_hide, setActive_hide, State.hide_ite, ite_self, Nat.reduceOr])

/-- Parts: regs, hw, out, perf. -/
theorem sendAck_hide {m : Nat} (h : 0x800000032 ||| m = m) (d : State) (s : State) :
    State.hide (sendAck s) m d = s.hide m d :=
  State.hide_mono h (by
    unfold sendAck
    simp only [ontoUsable_hide, sendUnseq_hide, wakeSome_hide, State.hide_hw, State.hide_ite, ite_self, Nat.reduceOr])

/-- Parts: hw. -/
theorem acceptSeq_hide {m : Nat} (h : 0x10 ||| m = m) (d : State) (s : State) (x1 : _) :
    State.hide (acceptSeq s x1) m d = s.hide m d :=
  State.hide_mono h (by
    unfold acceptSeq
    simp only [State.hide_hw, Nat.reduceOr])

/-- Parts: perf. -/
theorem countRx_hide {m : Nat} (h : 0x800000000 ||| m = m) (d : State) (s : State) (x1 : _) :
    State.hide (countRx s x1) m d = s.hide m d :=
  State.hide_mono h (by
    unfold countRx
    simp only [State.perfAdd_hide, Nat.reduceOr])

/-- Parts: free, regs, pow, hw, out, rings, precHeld, scene, pipes, camLines, camLags, camEarly, gates, levels, fetches, src, dma,
    scans, cams, light, fault, perf. -/
theorem confirm_hide {m : Nat} (h : 0xb69d744f7 ||| m = m) (d : State) (s : State) (x1 : _) :
    State.hide (confirm s x1) m d = s.hide m d :=
  State.hide_mono h (by
    unfold confirm
    simp only [State.setFld_hide, noteHeld_hide, notifyAtConfirm_hide, ontoUsable_hide, pump_hide, pumpReads_hide, raise_hide,
        refreshTelltales_hide, settle_hide, State.hide_hw, Nat.reduceOr])

/-- Parts: free, regs, pow, hw, out, rings, precHeld, scene, pipes, camLines, camLags, camEarly, gates, levels, fetches, src, dma,
    scans, cams, light, fault, perf, and those of its operand. -/
theorem takeFrame_hide {m : Nat} (h : 0xb69d744f7 ||| m = m) (d : State) (s : State) (x1 : _) (x2 : _) (x3 : _) (x4 : _) (x5 : _)
    (hx : ∀ t, (x5 t).hide m d = t.hide m d) :
    State.hide (takeFrame s x1 x2 x3 x4 x5) m d = s.hide m d := by
  unfold takeFrame
  simp (disch := exact mask_trans h (by decide)) only [State.hide_ite, hx, settle_hide, confirm_hide, acceptSeq_hide,
    sendAck_hide, backToA_hide, pump_hide, takeAck_hide, linkRecovered_hide, countRx_hide, ite_self]

/-- Parts: free, regs, pow, hw, out, rings, precHeld, scene, pipes, camLines, camLags, camEarly, gates, levels, fetches, src, dma,
    scans, cams, light, fault, perf, and those of its operand. -/
theorem receive_hide {m : Nat} (h : 0xb69d744f7 ||| m = m) (d : State) (s : State) (x1 : _) (x2 : _) (x3 : _) (x4 : _) (x5 : _)
    (hx : ∀ t, (x5 t).hide m d = t.hide m d) :
    State.hide (receive s x1 x2 x3 x4 x5) m d = s.hide m d := by
  unfold receive
  split
  · rfl
  · split
    · exact rejectFrame_hide (mask_trans h (by decide)) _ _
    · split
      · exact rejectFrame_hide (mask_trans h (by decide)) _ _
      · rfl
      · split
        · exact takeFrame_hide (mask_trans h (by decide)) _ _ _ _ _ _ _ hx
        · exact tagFails_hide (mask_trans h (by decide)) _ _

/-- Parts: free, regs, hw, out, perf. -/
theorem answerOpen_hide {m : Nat} (h : 0x800000033 ||| m = m) (d : State) (s : State) (x1 : _) (x2 : _) :
    State.hide (answerOpen s x1 x2) m d = s.hide m d :=
  State.hide_mono h (by
    unfold answerOpen
    simp only [State.emit_hide, State.freshen_hide, State.setFld_hide, countTx_hide, State.hide_hw, State.hide_ite, ite_self,
        Nat.reduceOr])

/-- Parts: free, regs, pow, hw, out, src, perf. -/
theorem openFrame_hide {m : Nat} (h : 0x801000037 ||| m = m) (d : State) (s : State) (x1 : _) (x2 : _) :
    State.hide (openFrame s x1 x2) m d = s.hide m d :=
  State.hide_mono h (by
    unfold openFrame
    repeat' split
    all_goals simp only [answerOpen_hide, countRx_hide, rejectFrame_hide, tagFails_hide, State.hide_ite, ite_self, Nat.reduceOr])

/-- Parts: regs, hw. -/
theorem openTimeout_hide {m : Nat} (h : 0x12 ||| m = m) (d : State) (s : State) :
    State.hide (openTimeout s) m d = s.hide m d :=
  State.hide_mono h (by
    unfold openTimeout
    simp only [State.setFld_hide, State.hide_hw, State.hide_ite, ite_self, Nat.reduceOr])

/-- Parts: regs, hw, out, perf. -/
theorem keepaliveDue_hide {m : Nat} (h : 0x800000032 ||| m = m) (d : State) (s : State) :
    State.hide (keepaliveDue s) m d = s.hide m d :=
  State.hide_mono h (by
    unfold keepaliveDue
    repeat' split
    all_goals simp only [ontoUsable_hide, sendSeq_hide, State.hide_ite, ite_self, Nat.reduceOr])

/-- Parts: free, regs, pow, hw, out, rings, precHeld, scene, mem, lost, pipes, camLines, camLags, camEarly, gates, levels, fetches,
    src, dma, scans, cams, groups, light, fault, barn, perf. -/
theorem retxTimeout_hide {m : Nat} (h : 0xfe9d75cf7 ||| m = m) (d : State) (s : State) :
    State.hide (retxTimeout s) m d = s.hide m d :=
  State.hide_mono h (by
    unfold retxTimeout
    simp only [linkFailed_hide, resendAll_hide, State.hide_hw, State.hide_ite, ite_self, Nat.reduceOr])

/-- Parts: regs. -/
theorem setUp_hide {m : Nat} (h : 2 ||| m = m) (d : State) (s : State) (x1 : _) (x2 : _) :
    State.hide (setUp s x1 x2) m d = s.hide m d :=
  State.hide_mono h (by
    unfold setUp
    repeat' split
    all_goals simp only [State.setFld_hide, Nat.reduceOr])

/-- Parts: hw. -/
theorem stopWaking_hide {m : Nat} (h : 0x10 ||| m = m) (d : State) (s : State) (x1 : _) :
    State.hide (stopWaking s x1) m d = s.hide m d :=
  State.hide_mono h (by
    unfold stopWaking
    simp only [State.hide_hw, Nat.reduceOr])

/-- Parts: free, regs, pow, time, hw, out, rings, precHeld, scene, mem, lost, pipes, camLines, camLags, camEarly, gates, levels,
    fetches, src, dma, scans, cams, groups, light, fault, barn, perf. -/
theorem linkDown_hide {m : Nat} (h : 0xfe9d75cff ||| m = m) (d : State) (s : State) (x1 : _) :
    State.hide (linkDown s x1) m d = s.hide m d :=
  State.hide_mono h (by
    unfold linkDown
    simp only [failover_hide, holdOver_hide, linkFailed_hide, setUp_hide, settle_hide, stopWaking_hide, State.hide_ite, ite_self,
        Nat.reduceOr])

/-- Parts: free, regs, pow, hw, out, rings, precHeld, scene, pipes, camLines, camLags, camEarly, gates, levels, fetches, src, dma,
    scans, cams, light, fault, perf. -/
theorem linkUp_hide {m : Nat} (h : 0xb69d744f7 ||| m = m) (d : State) (s : State) (x1 : _) (x2 : _) :
    State.hide (linkUp s x1 x2) m d = s.hide m d :=
  State.hide_mono h (by
    unfold linkUp
    simp only [State.emit_hide, State.setFld_hide, pump_hide, sendAck_hide, setAsleep_hide, setUp_hide, settle_hide,
        stopWaking_hide, switchOver_hide, State.hide_ite, ite_self, Nat.reduceOr])

/-- Parts: regs, pow, time, hw, out, src. -/
theorem sleepRequest_hide {m : Nat} (h : 0x100003e ||| m = m) (d : State) (s : State) (x1 : _) :
    State.hide (sleepRequest s x1) m d = s.hide m d :=
  State.hide_mono h (by
    unfold sleepRequest
    simp only [State.emit_hide, holdOver_hide, setAsleep_hide, setUp_hide, State.hide_ite, ite_self, Nat.reduceOr])

/-- Parts: regs, hw. -/
theorem partnerWakes_hide {m : Nat} (h : 0x12 ||| m = m) (d : State) (s : State) (x1 : _) :
    State.hide (partnerWakes s x1) m d = s.hide m d :=
  State.hide_mono h (by
    unfold partnerWakes
    simp only [setAsleep_hide, State.hide_hw, State.hide_ite, ite_self, Nat.reduceOr])

/-- Parts: regs, out. -/
theorem answerAddress_hide {m : Nat} (h : 0x22 ||| m = m) (d : State) (s : State) (x1 : _) (x2 : _) (x3 : _) (x4 : _) :
    State.hide (answerAddress s x1 x2 x3 x4) m d = s.hide m d :=
  State.hide_mono h (by
    unfold answerAddress
    simp only [State.emit_hide, rejectFrame_hide, State.hide_ite, ite_self, Nat.reduceOr])

/-- Parts: free, regs, pow, hw, out, rings, precHeld, scene, pipes, camLines, camLags, camEarly, gates, levels, fetches, src, dma,
    scans, cams, light, fault, perf. -/
theorem doorbell_hide {m : Nat} (h : 0xb69d744f7 ||| m = m) (d : State) (s : State) (x1 : _) (x2 : _) :
    State.hide (doorbell s x1 x2) m d = s.hide m d :=
  State.hide_mono h (by
    exact receive_hide (by decide) _ _ _ _ _ _ _ (fun t => (settle_hide (by decide) _ _).trans
      (State.each_hide _ _ _ _ _ fun _ _ => doorEntry_hide (by decide) _ _ _)))

/-- Parts: free, regs, pow, hw, out, rings, precHeld, scene, mem, pipes, camLines, camLags, camEarly, gates, levels, fetches, src,
    dma, scans, cams, light, fault, perf. -/
theorem readResponse_hide {m : Nat} (h : 0xb69d74cf7 ||| m = m) (d : State) (s : State) (x1 : _) (x2 : _) (x3 : _) (x4 : _) :
    State.hide (readResponse s x1 x2 x3 x4) m d = s.hide m d :=
  State.hide_mono h (by
    exact receive_hide (by decide) _ _ _ _ _ _ _ (fun _ => readAnswered_hide (by decide) _ _ _ _ _))

/-- Parts: none. -/
theorem runInit_hide {m : Nat} (h : 0 ||| m = m) (d : State) (s : State) :
    State.hide (runInit s).s m d = s.hide m d :=
  State.hide_mono h (by
    unfold runInit
    simp only [apply_ite RegRun.s, Nat.reduceOr])

/-- Parts: free, regs, groups, fault. -/
theorem readStep_hide {m : Nat} (h : 0x280000003 ||| m = m) (d : State) (x0 : _) (x1 : _) (s : RegRun) (x3 : _) :
    State.hide (readStep x0 x1 s x3).s m d = s.s.hide m d :=
  State.hide_mono h (by
    exact accessRead_hide (by decide) _ _ _ _)

/-- Parts: free, regs, groups, fault. -/
theorem readRun_hide {m : Nat} (h : 0x280000003 ||| m = m) (d : State) (s : State) (x1 : _) (x2 : _) (x3 : _) :
    State.hide (readRun s x1 x2 x3).s m d = s.hide m d :=
  State.hide_mono h (by
    exact State.foldl_hide _ _ RegRun.s _ (fun _ _ => readStep_hide (by decide) _ _ _ _ _) _ _)

/-- Parts: all of them. -/
theorem writeRun_hide {m : Nat} (h : 0xfffffffff ||| m = m) (d : State) (s : State) (x1 : _) (x2 : _) (x3 : _) :
    State.hide (writeRun s x1 x2 x3).s m d = s.hide m d :=
  State.hide_mono h (by
    refine State.foldl_hide _ _ RegRun.s _ (fun x e => ?_) _ _
    simp only [apply_ite RegRun.s, State.hide_ite]
    split
    · rfl
    · exact (finishWrite_hide (by decide) _ _).trans (accessWrite_hide (by decide) _ _ _ _ _))

/-- Parts: free, regs, pow, hw, out, rings, precHeld, scene, pipes, camLines, camLags, camEarly, gates, levels, fetches, src, dma,
    scans, cams, groups, light, fault, perf. -/
theorem regRead_hide {m : Nat} (h : 0xbe9d744f7 ||| m = m) (d : State) (s : State) (x1 : _) (x2 : _) (x3 : _) (x4 : _) :
    State.hide (regRead s x1 x2 x3 x4) m d = s.hide m d :=
  State.hide_mono h (by
    unfold regRead
    simp only [readRun_hide, sendSeq_hide, settle_hide, State.hide_ite, ite_self, apply_ite RegRun.s, Nat.reduceOr])

/-- Parts: all of them. -/
theorem regWritten_hide {m : Nat} (h : 0xfffffffff ||| m = m) (d : State) (s : State) (x1 : _) (x2 : _) (x3 : _) (x4 : _) (x5 : _) :
    State.hide (regWritten s x1 x2 x3 x4 x5) m d = s.hide m d :=
  State.hide_mono h (by
    unfold regWritten
    simp only [sendSeq_hide, settle_hide, writeRun_hide, State.hide_ite, ite_self, apply_ite RegRun.s, Nat.reduceOr])

end Sys2Proof.Machine
end

