-- ==== Sys2Proof/Laws/PerInstr.lean ====
section
/-! SUPPORT. Facts of every command as syntax, one lemma for each constructor. -/

namespace Sys2Proof.Laws

theorem none_ne {α : Type} {x : α} {P : Prop} (h : (none : Option α) = some x) : P := nomatch h

/-- A command enters the module in one way: a frame is neither a register access nor a descriptor, a register access is no
descriptor, and a well-formed frame has a body that the Ethernet frame holds. -/
def Origin.Statement (i : Instr) : Prop :=
  (∀ f, i.frame = some f → i.path = none ∧ i.descriptor = none ∧ (i.wf = true → f.bodyFits = true)) ∧
  (∀ p, i.path = some p → i.descriptor = none)

theorem Origin.powerGood x1 : Origin.Statement (.powerGood x1) :=
  ⟨fun _ h => none_ne h, fun _ h => none_ne h⟩

theorem Origin.podlClassified x1 x2 x3 : Origin.Statement (.podlClassified x1 x2 x3) :=
  ⟨fun _ h => none_ne h, fun _ h => none_ne h⟩

theorem Origin.resetN x1 : Origin.Statement (.resetN x1) :=
  ⟨fun _ h => none_ne h, fun _ h => none_ne h⟩

theorem Origin.softReset x1 x2 x3 : Origin.Statement (.softReset x1 x2 x3) :=
  ⟨fun _ h => none_ne h, fun _ _ => rfl⟩

theorem Origin.lineLoss : Origin.Statement .lineLoss :=
  ⟨fun _ h => none_ne h, fun _ h => none_ne h⟩

theorem Origin.tempSample x1 : Origin.Statement (.tempSample x1) :=
  ⟨fun _ h => none_ne h, fun _ h => none_ne h⟩

theorem Origin.vbusOvercurrent : Origin.Statement .vbusOvercurrent :=
  ⟨fun _ h => none_ne h, fun _ h => none_ne h⟩

theorem Origin.vbusRetry x1 : Origin.Statement (.vbusRetry x1) :=
  ⟨fun _ h => none_ne h, fun _ h => none_ne h⟩

theorem Origin.regWrite x1 x2 x3 : Origin.Statement (.regWrite x1 x2 x3) :=
  ⟨fun _ h => none_ne h, fun _ _ => rfl⟩

theorem Origin.counterClear x1 x2 : Origin.Statement (.counterClear x1 x2) :=
  ⟨fun _ h => none_ne h, fun _ _ => rfl⟩

theorem Origin.aliasWrite x1 x2 x3 : Origin.Statement (.aliasWrite x1 x2 x3) :=
  ⟨fun _ h => none_ne h, fun _ _ => rfl⟩

theorem Origin.writeLo x1 x2 x3 : Origin.Statement (.writeLo x1 x2 x3) :=
  ⟨fun _ h => none_ne h, fun _ _ => rfl⟩

theorem Origin.writeHi x1 x2 x3 : Origin.Statement (.writeHi x1 x2 x3) :=
  ⟨fun _ h => none_ne h, fun _ _ => rfl⟩

theorem Origin.indexWrite x1 x2 x3 : Origin.Statement (.indexWrite x1 x2 x3) :=
  ⟨fun _ h => none_ne h, fun _ _ => rfl⟩

theorem Origin.dataRead x1 x2 : Origin.Statement (.dataRead x1 x2) :=
  ⟨fun _ h => none_ne h, fun _ _ => rfl⟩

theorem Origin.dataWrite x1 x2 x3 : Origin.Statement (.dataWrite x1 x2 x3) :=
  ⟨fun _ h => none_ne h, fun _ _ => rfl⟩

theorem Origin.spiReadInc x1 x2 : Origin.Statement (.spiReadInc x1 x2) :=
  ⟨fun _ h => none_ne h, fun _ _ => rfl⟩

theorem Origin.spiReadFixed x1 x2 : Origin.Statement (.spiReadFixed x1 x2) :=
  ⟨fun _ h => none_ne h, fun _ _ => rfl⟩

theorem Origin.spiWriteInc x1 x2 : Origin.Statement (.spiWriteInc x1 x2) :=
  ⟨fun _ h => none_ne h, fun _ _ => rfl⟩

theorem Origin.spiWriteFixed x1 x2 : Origin.Statement (.spiWriteFixed x1 x2) :=
  ⟨fun _ h => none_ne h, fun _ _ => rfl⟩

theorem Origin.strobe x1 x2 : Origin.Statement (.strobe x1 x2) :=
  ⟨fun _ h => none_ne h, fun _ _ => rfl⟩

theorem Origin.strobeProofDone : Origin.Statement .strobeProofDone :=
  ⟨fun _ h => none_ne h, fun _ h => none_ne h⟩

theorem Origin.openSession x1 x2 : Origin.Statement (.openSession x1 x2) :=
  ⟨fun f h => (Option.some.inj (h : some x1 = some f)) ▸ ⟨rfl, rfl, fun w => w⟩, fun _ h => none_ne h⟩

theorem Origin.openTimeout : Origin.Statement .openTimeout :=
  ⟨fun _ h => none_ne h, fun _ h => none_ne h⟩

theorem Origin.close x1 : Origin.Statement (.close x1) :=
  ⟨fun f h => (Option.some.inj (h : some x1 = some f)) ▸ ⟨rfl, rfl, fun w => w⟩, fun _ h => none_ne h⟩

theorem Origin.sessionCloseReg x1 : Origin.Statement (.sessionCloseReg x1) :=
  ⟨fun _ h => none_ne h, fun _ _ => rfl⟩

theorem Origin.ack x1 : Origin.Statement (.ack x1) :=
  ⟨fun f h => (Option.some.inj (h : some x1 = some f)) ▸ ⟨rfl, rfl, fun w => w⟩, fun _ h => none_ne h⟩

theorem Origin.keepalive x1 : Origin.Statement (.keepalive x1) :=
  ⟨fun f h => (Option.some.inj (h : some x1 = some f)) ▸ ⟨rfl, rfl, fun w => w⟩, fun _ h => none_ne h⟩

theorem Origin.ackDue : Origin.Statement .ackDue :=
  ⟨fun _ h => none_ne h, fun _ h => none_ne h⟩

theorem Origin.keepaliveTimer : Origin.Statement .keepaliveTimer :=
  ⟨fun _ h => none_ne h, fun _ h => none_ne h⟩

theorem Origin.retxTimeout : Origin.Statement .retxTimeout :=
  ⟨fun _ h => none_ne h, fun _ h => none_ne h⟩

theorem Origin.linkDown x1 : Origin.Statement (.linkDown x1) :=
  ⟨fun _ h => none_ne h, fun _ h => none_ne h⟩

theorem Origin.linkUp x1 x2 : Origin.Statement (.linkUp x1 x2) :=
  ⟨fun _ h => none_ne h, fun _ h => none_ne h⟩

theorem Origin.linkSleepRequest x1 : Origin.Statement (.linkSleepRequest x1) :=
  ⟨fun _ h => none_ne h, fun _ h => none_ne h⟩

theorem Origin.linkWakeup x1 : Origin.Statement (.linkWakeup x1) :=
  ⟨fun _ h => none_ne h, fun _ h => none_ne h⟩

theorem Origin.linkWakeRequest x1 x2 : Origin.Statement (.linkWakeRequest x1 x2) :=
  ⟨fun _ h => none_ne h, fun _ _ => rfl⟩

theorem Origin.arpRequest x1 x2 x3 x4 x5 : Origin.Statement (.arpRequest x1 x2 x3 x4 x5) :=
  ⟨fun _ h => none_ne h, fun _ h => none_ne h⟩

theorem Origin.neighbourSolicitation x1 x2 x3 x4 x5 : Origin.Statement (.neighbourSolicitation x1 x2 x3 x4 x5) :=
  ⟨fun _ h => none_ne h, fun _ h => none_ne h⟩

theorem Origin.doorbellSubmit x1 x2 x3 x4 : Origin.Statement (.doorbellSubmit x1 x2 x3 x4) :=
  ⟨fun f h => (Option.some.inj (h : some x1 = some f)) ▸ ⟨rfl, rfl, fun w => (Bool.and_eq_true_iff.mp w).1⟩, fun _ h => none_ne h⟩

theorem Origin.doorbellCplCi x1 x2 x3 x4 : Origin.Statement (.doorbellCplCi x1 x2 x3 x4) :=
  ⟨fun f h => (Option.some.inj (h : some x1 = some f)) ▸ ⟨rfl, rfl, fun w => (Bool.and_eq_true_iff.mp w).1⟩, fun _ h => none_ne h⟩

theorem Origin.doorbellPrecCi x1 x2 x3 x4 : Origin.Statement (.doorbellPrecCi x1 x2 x3 x4) :=
  ⟨fun f h => (Option.some.inj (h : some x1 = some f)) ▸ ⟨rfl, rfl, fun w => (Bool.and_eq_true_iff.mp w).1⟩, fun _ h => none_ne h⟩

theorem Origin.doorbellEqCi x1 x2 x3 x4 : Origin.Statement (.doorbellEqCi x1 x2 x3 x4) :=
  ⟨fun f h => (Option.some.inj (h : some x1 = some f)) ▸ ⟨rfl, rfl, fun w => (Bool.and_eq_true_iff.mp w).1⟩, fun _ h => none_ne h⟩

theorem Origin.ringPoll x1 : Origin.Statement (.ringPoll x1) :=
  ⟨fun _ h => none_ne h, fun _ h => none_ne h⟩

theorem Origin.readResp x1 x2 x3 x4 : Origin.Statement (.readResp x1 x2 x3 x4) :=
  ⟨fun f h => (Option.some.inj (h : some x1 = some f)) ▸ ⟨rfl, rfl, fun w => (Bool.and_eq_true_iff.mp w).1⟩, fun _ h => none_ne h⟩

theorem Origin.regRd x1 x2 x3 x4 x5 : Origin.Statement (.regRd x1 x2 x3 x4 x5) :=
  ⟨fun f h => (Option.some.inj (h : some x1 = some f)) ▸ ⟨rfl, rfl, fun w => w⟩, fun _ h => none_ne h⟩

theorem Origin.regWr x1 x2 x3 x4 x5 x6 : Origin.Statement (.regWr x1 x2 x3 x4 x5 x6) :=
  ⟨fun f h => (Option.some.inj (h : some x1 = some f)) ▸ ⟨rfl, rfl, fun w => (Bool.and_eq_true_iff.mp w).1⟩, fun _ h => none_ne h⟩

theorem Origin.ringRun x1 x2 : Origin.Statement (.ringRun x1 x2) :=
  ⟨fun _ h => none_ne h, fun _ _ => rfl⟩

theorem Origin.ringStop x1 x2 : Origin.Statement (.ringStop x1 x2) :=
  ⟨fun _ h => none_ne h, fun _ _ => rfl⟩

theorem Origin.ringReset x1 x2 : Origin.Statement (.ringReset x1 x2) :=
  ⟨fun _ h => none_ne h, fun _ _ => rfl⟩

theorem Origin.ringResume x1 x2 : Origin.Statement (.ringResume x1 x2) :=
  ⟨fun _ h => none_ne h, fun _ _ => rfl⟩

theorem Origin.precEnable x1 x2 x3 : Origin.Statement (.precEnable x1 x2 x3) :=
  ⟨fun _ h => none_ne h, fun _ _ => rfl⟩

theorem Origin.nop x1 x2 x3 : Origin.Statement (.nop x1 x2 x3) :=
  ⟨fun _ h => none_ne h, fun _ h => none_ne h⟩

theorem Origin.jump x1 x2 x3 : Origin.Statement (.jump x1 x2 x3) :=
  ⟨fun _ h => none_ne h, fun _ h => none_ne h⟩

theorem Origin.layerWords x1 x2 x3 : Origin.Statement (.layerWords x1 x2 x3) :=
  ⟨fun _ h => none_ne h, fun _ h => none_ne h⟩

theorem Origin.layerBlock x1 x2 x3 : Origin.Statement (.layerBlock x1 x2 x3) :=
  ⟨fun _ h => none_ne h, fun _ h => none_ne h⟩

theorem Origin.objWords x1 x2 x3 : Origin.Statement (.objWords x1 x2 x3) :=
  ⟨fun _ h => none_ne h, fun _ h => none_ne h⟩

theorem Origin.objBlock x1 x2 x3 : Origin.Statement (.objBlock x1 x2 x3) :=
  ⟨fun _ h => none_ne h, fun _ h => none_ne h⟩

theorem Origin.lutLoad x1 x2 x3 : Origin.Statement (.lutLoad x1 x2 x3) :=
  ⟨fun _ h => none_ne h, fun _ h => none_ne h⟩

theorem Origin.matrix x1 x2 x3 : Origin.Statement (.matrix x1 x2 x3) :=
  ⟨fun _ h => none_ne h, fun _ h => none_ne h⟩

theorem Origin.loftLoad x1 x2 x3 : Origin.Statement (.loftLoad x1 x2 x3) :=
  ⟨fun _ h => none_ne h, fun _ h => none_ne h⟩

theorem Origin.fenceAcq x1 x2 x3 : Origin.Statement (.fenceAcq x1 x2 x3) :=
  ⟨fun _ h => none_ne h, fun _ h => none_ne h⟩

theorem Origin.commit x1 x2 x3 : Origin.Statement (.commit x1 x2 x3) :=
  ⟨fun _ h => none_ne h, fun _ h => none_ne h⟩

theorem Origin.winnowProofEnd : Origin.Statement .winnowProofEnd :=
  ⟨fun _ h => none_ne h, fun _ h => none_ne h⟩

theorem Origin.copy x1 x2 x3 : Origin.Statement (.copy x1 x2 x3) :=
  ⟨fun _ h => none_ne h, fun _ h => none_ne h⟩

theorem Origin.fill x1 x2 x3 : Origin.Statement (.fill x1 x2 x3) :=
  ⟨fun _ h => none_ne h, fun _ h => none_ne h⟩

theorem Origin.write32 x1 x2 x3 : Origin.Statement (.write32 x1 x2 x3) :=
  ⟨fun _ h => none_ne h, fun _ h => none_ne h⟩

theorem Origin.dmaDescDone x1 x2 : Origin.Statement (.dmaDescDone x1 x2) :=
  ⟨fun _ h => none_ne h, fun _ h => none_ne h⟩

theorem Origin.triggerTimer x1 : Origin.Statement (.triggerTimer x1) :=
  ⟨fun _ h => none_ne h, fun _ h => none_ne h⟩

theorem Origin.engineHalt : Origin.Statement .engineHalt :=
  ⟨fun _ h => none_ne h, fun _ h => none_ne h⟩

theorem Origin.engineRestart x1 : Origin.Statement (.engineRestart x1) :=
  ⟨fun _ h => none_ne h, fun _ _ => rfl⟩

theorem Origin.scanGo x1 x2 : Origin.Statement (.scanGo x1 x2) :=
  ⟨fun _ h => none_ne h, fun _ _ => rfl⟩

theorem Origin.scanStop x1 x2 : Origin.Statement (.scanStop x1 x2) :=
  ⟨fun _ h => none_ne h, fun _ _ => rfl⟩

theorem Origin.scanDone x1 x2 : Origin.Statement (.scanDone x1 x2) :=
  ⟨fun _ h => none_ne h, fun _ h => none_ne h⟩

theorem Origin.frameStart x1 x2 : Origin.Statement (.frameStart x1 x2) :=
  ⟨fun _ h => none_ne h, fun _ h => none_ne h⟩

theorem Origin.commitDeadline x1 : Origin.Statement (.commitDeadline x1) :=
  ⟨fun _ h => none_ne h, fun _ h => none_ne h⟩

theorem Origin.fencePoll : Origin.Statement .fencePoll :=
  ⟨fun _ h => none_ne h, fun _ h => none_ne h⟩

theorem Origin.linePositionStep x1 x2 : Origin.Statement (.linePositionStep x1 x2) :=
  ⟨fun _ h => none_ne h, fun _ h => none_ne h⟩

theorem Origin.lastBaleFetched x1 : Origin.Statement (.lastBaleFetched x1) :=
  ⟨fun _ h => none_ne h, fun _ h => none_ne h⟩

theorem Origin.loftLoadDone x1 : Origin.Statement (.loftLoadDone x1) :=
  ⟨fun _ h => none_ne h, fun _ h => none_ne h⟩

theorem Origin.eccUncorrectable x1 x2 : Origin.Statement (.eccUncorrectable x1 x2) :=
  ⟨fun _ h => none_ne h, fun _ h => none_ne h⟩

theorem Origin.eccRereadDone x1 x2 : Origin.Statement (.eccRereadDone x1 x2) :=
  ⟨fun _ h => none_ne h, fun _ h => none_ne h⟩

theorem Origin.unitFailure x1 x2 : Origin.Statement (.unitFailure x1 x2) :=
  ⟨fun _ h => none_ne h, fun _ h => none_ne h⟩

theorem Origin.mcRecoveryDone : Origin.Statement .mcRecoveryDone :=
  ⟨fun _ h => none_ne h, fun _ h => none_ne h⟩

theorem Origin.reproofDone : Origin.Statement .reproofDone :=
  ⟨fun _ h => none_ne h, fun _ h => none_ne h⟩

theorem Origin.linkRecoveryDone x1 : Origin.Statement (.linkRecoveryDone x1) :=
  ⟨fun _ h => none_ne h, fun _ h => none_ne h⟩

theorem Origin.retirementRecord : Origin.Statement .retirementRecord :=
  ⟨fun _ h => none_ne h, fun _ h => none_ne h⟩

theorem Origin.rrecConsume x1 x2 : Origin.Statement (.rrecConsume x1 x2) :=
  ⟨fun _ h => none_ne h, fun _ _ => rfl⟩

theorem Origin.rrecEnable x1 x2 : Origin.Statement (.rrecEnable x1 x2) :=
  ⟨fun _ h => none_ne h, fun _ _ => rfl⟩

theorem Origin.retestGo x1 x2 : Origin.Statement (.retestGo x1 x2) :=
  ⟨fun _ h => none_ne h, fun _ _ => rfl⟩

theorem Origin.retestDone x1 : Origin.Statement (.retestDone x1) :=
  ⟨fun _ h => none_ne h, fun _ h => none_ne h⟩

theorem Origin.rotationSwap : Origin.Statement .rotationSwap :=
  ⟨fun _ h => none_ne h, fun _ h => none_ne h⟩

theorem Origin.lbistResult x1 : Origin.Statement (.lbistResult x1) :=
  ⟨fun _ h => none_ne h, fun _ h => none_ne h⟩

theorem Origin.rotationLate x1 : Origin.Statement (.rotationLate x1) :=
  ⟨fun _ h => none_ne h, fun _ h => none_ne h⟩

theorem Origin.pllLocked x1 : Origin.Statement (.pllLocked x1) :=
  ⟨fun _ h => none_ne h, fun _ h => none_ne h⟩

theorem Origin.pllLockTimeout x1 : Origin.Statement (.pllLockTimeout x1) :=
  ⟨fun _ h => none_ne h, fun _ h => none_ne h⟩

theorem Origin.teEdge x1 : Origin.Statement (.teEdge x1) :=
  ⟨fun _ h => none_ne h, fun _ h => none_ne h⟩

theorem Origin.teMissing x1 : Origin.Statement (.teMissing x1) :=
  ⟨fun _ h => none_ne h, fun _ h => none_ne h⟩

theorem Origin.camLockLost x1 : Origin.Statement (.camLockLost x1) :=
  ⟨fun _ h => none_ne h, fun _ h => none_ne h⟩

theorem Origin.hpdHigh x1 x2 : Origin.Statement (.hpdHigh x1 x2) :=
  ⟨fun _ h => none_ne h, fun _ h => none_ne h⟩

theorem Origin.hpdLowTimeout x1 : Origin.Statement (.hpdLowTimeout x1) :=
  ⟨fun _ h => none_ne h, fun _ h => none_ne h⟩

theorem Origin.hpdPulse x1 x2 : Origin.Statement (.hpdPulse x1 x2) :=
  ⟨fun _ h => none_ne h, fun _ h => none_ne h⟩

theorem Origin.hpdWaitTimeout x1 : Origin.Statement (.hpdWaitTimeout x1) :=
  ⟨fun _ h => none_ne h, fun _ h => none_ne h⟩

theorem Origin.linkReady x1 : Origin.Statement (.linkReady x1) :=
  ⟨fun _ h => none_ne h, fun _ h => none_ne h⟩

theorem Origin.pktGo x1 x2 : Origin.Statement (.pktGo x1 x2) :=
  ⟨fun _ h => none_ne h, fun _ _ => rfl⟩

theorem Origin.pktDone x1 x2 x3 : Origin.Statement (.pktDone x1 x2 x3) :=
  ⟨fun _ h => none_ne h, fun _ h => none_ne h⟩

theorem Origin.pktDataPush x1 x2 x3 : Origin.Statement (.pktDataPush x1 x2 x3) :=
  ⟨fun _ h => none_ne h, fun _ _ => rfl⟩

theorem Origin.pktDataPop x1 x2 : Origin.Statement (.pktDataPop x1 x2) :=
  ⟨fun _ h => none_ne h, fun _ _ => rfl⟩

theorem Origin.camFrameStart x1 : Origin.Statement (.camFrameStart x1) :=
  ⟨fun _ h => none_ne h, fun _ h => none_ne h⟩

theorem Origin.camLine x1 x2 x3 x4 : Origin.Statement (.camLine x1 x2 x3 x4) :=
  ⟨fun _ h => none_ne h, fun _ h => none_ne h⟩

theorem Origin.camLineWritten x1 : Origin.Statement (.camLineWritten x1) :=
  ⟨fun _ h => none_ne h, fun _ h => none_ne h⟩

theorem Origin.camFrameEnd x1 : Origin.Statement (.camFrameEnd x1) :=
  ⟨fun _ h => none_ne h, fun _ h => none_ne h⟩

theorem Origin.ptpSync x1 x2 x3 : Origin.Statement (.ptpSync x1 x2 x3) :=
  ⟨fun _ h => none_ne h, fun _ h => none_ne h⟩

theorem Origin.ptpPdelayReq x1 x2 : Origin.Statement (.ptpPdelayReq x1 x2) :=
  ⟨fun _ h => none_ne h, fun _ h => none_ne h⟩

theorem Origin.ptpPdelayTimer : Origin.Statement .ptpPdelayTimer :=
  ⟨fun _ h => none_ne h, fun _ h => none_ne h⟩

theorem Origin.timeHoldover : Origin.Statement .timeHoldover :=
  ⟨fun _ h => none_ne h, fun _ h => none_ne h⟩

theorem Origin.zoneUpdate x1 : Origin.Statement (.zoneUpdate x1) :=
  ⟨fun _ h => none_ne h, fun _ h => none_ne h⟩

theorem Origin.blinkPhase x1 : Origin.Statement (.blinkPhase x1) :=
  ⟨fun _ h => none_ne h, fun _ h => none_ne h⟩

theorem Origin.bulbCheckEnd : Origin.Statement .bulbCheckEnd :=
  ⟨fun _ h => none_ne h, fun _ h => none_ne h⟩

theorem Origin.ttOpenLoad x1 : Origin.Statement (.ttOpenLoad x1) :=
  ⟨fun _ h => none_ne h, fun _ h => none_ne h⟩

theorem Origin.ttOffTest x1 x2 : Origin.Statement (.ttOffTest x1 x2) :=
  ⟨fun _ h => none_ne h, fun _ h => none_ne h⟩

theorem Origin.ttShort x1 : Origin.Statement (.ttShort x1) :=
  ⟨fun _ h => none_ne h, fun _ h => none_ne h⟩

theorem Origin.ttShortRetry x1 x2 : Origin.Statement (.ttShortRetry x1 x2) :=
  ⟨fun _ h => none_ne h, fun _ h => none_ne h⟩

theorem Origin.canFrameReceived x1 x2 x3 x4 x5 : Origin.Statement (.canFrameReceived x1 x2 x3 x4 x5) :=
  ⟨fun _ h => none_ne h, fun _ h => none_ne h⟩

theorem Origin.mapperTimeout x1 : Origin.Statement (.mapperTimeout x1) :=
  ⟨fun _ h => none_ne h, fun _ h => none_ne h⟩

theorem Origin.canStatusTx x1 : Origin.Statement (.canStatusTx x1) :=
  ⟨fun _ h => none_ne h, fun _ h => none_ne h⟩

theorem Origin.busOff x1 : Origin.Statement (.busOff x1) :=
  ⟨fun _ h => none_ne h, fun _ h => none_ne h⟩

theorem Origin.snsChange x1 x2 : Origin.Statement (.snsChange x1 x2) :=
  ⟨fun _ h => none_ne h, fun _ h => none_ne h⟩

theorem Origin.eventOccurrence x1 x2 : Origin.Statement (.eventOccurrence x1 x2) :=
  ⟨fun _ h => none_ne h, fun _ h => none_ne h⟩

theorem Origin.resample x1 : Origin.Statement (.resample x1) :=
  ⟨fun _ h => none_ne h, fun _ h => none_ne h⟩

theorem Origin.eventRecordIssue : Origin.Statement .eventRecordIssue :=
  ⟨fun _ h => none_ne h, fun _ h => none_ne h⟩

theorem Origin.sourceComplete x1 x2 : Origin.Statement (.sourceComplete x1 x2) :=
  ⟨fun _ h => none_ne h, fun _ _ => rfl⟩

theorem Origin.sourceMask x1 x2 x3 : Origin.Statement (.sourceMask x1 x2 x3) :=
  ⟨fun _ h => none_ne h, fun _ _ => rfl⟩

theorem Origin.queueSleep x1 x2 : Origin.Statement (.queueSleep x1 x2) :=
  ⟨fun _ h => none_ne h, fun _ _ => rfl⟩

theorem Origin.queueAwake x1 x2 : Origin.Statement (.queueAwake x1 x2) :=
  ⟨fun _ h => none_ne h, fun _ _ => rfl⟩

theorem Origin.qmaskClear x1 x2 : Origin.Statement (.qmaskClear x1 x2) :=
  ⟨fun _ h => none_ne h, fun _ _ => rfl⟩

theorem Origin.spiFlagClear x1 x2 : Origin.Statement (.spiFlagClear x1 x2) :=
  ⟨fun _ h => none_ne h, fun _ _ => rfl⟩

theorem Origin.rawFlush x1 : Origin.Statement (.rawFlush x1) :=
  ⟨fun _ h => none_ne h, fun _ _ => rfl⟩

theorem Origin.rawErase x1 : Origin.Statement (.rawErase x1) :=
  ⟨fun _ h => none_ne h, fun _ _ => rfl⟩

theorem Origin.rawDone x1 : Origin.Statement (.rawDone x1) :=
  ⟨fun _ h => none_ne h, fun _ h => none_ne h⟩

theorem Origin.journalWrite x1 : Origin.Statement (.journalWrite x1) :=
  ⟨fun _ h => none_ne h, fun _ _ => rfl⟩

theorem Origin.jwDone : Origin.Statement .jwDone :=
  ⟨fun _ h => none_ne h, fun _ h => none_ne h⟩

theorem Origin.journalRead x1 : Origin.Statement (.journalRead x1) :=
  ⟨fun _ h => none_ne h, fun _ _ => rfl⟩

theorem Origin.jrDone : Origin.Statement .jrDone :=
  ⟨fun _ h => none_ne h, fun _ h => none_ne h⟩

theorem Origin.gleanerRun : Origin.Statement .gleanerRun :=
  ⟨fun _ h => none_ne h, fun _ h => none_ne h⟩

theorem Origin.sectorRetired x1 x2 : Origin.Statement (.sectorRetired x1 x2) :=
  ⟨fun _ h => none_ne h, fun _ h => none_ne h⟩

theorem Origin.faultSummaryWrite : Origin.Statement .faultSummaryWrite :=
  ⟨fun _ h => none_ne h, fun _ h => none_ne h⟩

theorem Origin.perfStart x1 : Origin.Statement (.perfStart x1) :=
  ⟨fun _ h => none_ne h, fun _ _ => rfl⟩

theorem Origin.perfStop x1 : Origin.Statement (.perfStop x1) :=
  ⟨fun _ h => none_ne h, fun _ _ => rfl⟩

theorem Origin.perfWindowEnd : Origin.Statement .perfWindowEnd :=
  ⟨fun _ h => none_ne h, fun _ h => none_ne h⟩

theorem Origin.pwmPeriodBoundary : Origin.Statement .pwmPeriodBoundary :=
  ⟨fun _ h => none_ne h, fun _ h => none_ne h⟩

theorem Origin.wakePulseEnd : Origin.Statement .wakePulseEnd :=
  ⟨fun _ h => none_ne h, fun _ h => none_ne h⟩

theorem Origin.busOffRecovery x1 : Origin.Statement (.busOffRecovery x1) :=
  ⟨fun _ h => none_ne h, fun _ h => none_ne h⟩

theorem Origin.canBusError x1 x2 x3 : Origin.Statement (.canBusError x1 x2 x3) :=
  ⟨fun _ h => none_ne h, fun _ h => none_ne h⟩

theorem Origin.ttCheckPass x1 : Origin.Statement (.ttCheckPass x1) :=
  ⟨fun _ h => none_ne h, fun _ h => none_ne h⟩

theorem Origin.sectorEraseDone x1 : Origin.Statement (.sectorEraseDone x1) :=
  ⟨fun _ h => none_ne h, fun _ h => none_ne h⟩

theorem Origin.ptpPdelayResp x1 x2 x3 : Origin.Statement (.ptpPdelayResp x1 x2 x3) :=
  ⟨fun _ h => none_ne h, fun _ h => none_ne h⟩

end Sys2Proof.Laws
end

