-- ==== Sys2Proof/Tests/Slice0.lean ====
section
/-! SUPPORT. The author's own tests: each check of WellFormed refuses an ill-formed command, and for each statement with hypotheses a
small state and operands that meet all of them together, clause by clause. -/

set_option Elab.async false

namespace Sys2Proof.Tests

open Sys2Proof Sys2Proof.Machine

/-- A started module. -/
def on : State := { State.reset with pow := { State.reset.pow with started := true } }
/-- A module after a line loss. -/
def down : State := { State.reset with pow := { State.reset.pow with power := .down } }

/-- A module that was powered without SCCP. -/
def plain : State := { on with pow := { on.pow with noclass := true } }

/-- VBUS_OUT closed; opened with two failed retries; latched open. -/
def vbus : State := { on with pow := { on.pow with vbusClosed := true } }
def vbus2 : State := { on with pow := { on.pow with vbusClosed := false, vbusRetries := 2, vbusLatched := false } }
def vbus3 : State := { on with pow := { on.pow with vbusClosed := false, vbusLatched := true } }

/-- KEY of RESET_CTL holds 0xC0DE. -/
def keyHeld : State := on.setFld F.sysResetCtlKey 0xC0DE
def plainKey : State := plain.setFld F.sysResetCtlKey 0xC0DE
/-- A module that was powered without SCCP and whose rails are off. -/
def plainOff : State := { plain with pow := { plain.pow with power := .off, started := false } }
def plainDown : State := { plain with pow := { plain.pow with power := .down, started := false } }
/-- Bank A is valid: an image without parts. -/
def bankHead : List Byte := leBytes 4 0x4B4E4142 ++ leBytes 4 7 ++ List.replicate 32 0
def banked (s : State) : State := { s with barn := norProgram s.barn (headerAt 0) (bankHead ++ leBytes 4 (crc32c bankHead)) }
/-- A classification of 5 W, which no profile fits, and the same module after a line loss. -/
def weak : State := { on with pow := { on.pow with classified := true, podlWatts := 5 } }
def weakDown : State := { weak with pow := { weak.pow with power := .down, started := false } }

def badVerdict : Verdict := { reason := 3, pipe := 0, port := 0, item := 5, next := false, value := 0, lift := 0 }
def goodVerdict : Verdict := { badVerdict with reason := 0 }
/-- A strobe in proof. -/
def proving (v : Verdict) : State := { on with scene := { on.scene with inHand := some (.strobe 0x80 0x80 [] [], v) } }
/-- A strobe of PIPE that changes one word of pipe 2 has passed. -/
def pipeStrobe : State :=
  { on with scene := { on.scene with inHand := some (.strobe 0x80 0x80 [(A.pipeHtime0 2, (5 : Word))] [], goodVerdict) } }
/-- A camera port whose shadow copy is refused: a strobe of LANE alone. -/
def badLane : State := on.setShadow (A.laneCfg 0) 0x80000007

def keyed : State := { on with regs := { on.regs with keys := [(A.ringKey 2, 5)] } }

def loHeld : State := { on with regs := { on.regs with loHeld := [(A.ringMacLo, 5)] } }

/-- The SPI path's loft pair set to a word; and a module that shows a host scene. -/
def loftAt (w : Word) : State := writeWord { on with loft := [(20, 1), (21, 2), (22, 3), (23, 4)] } .spi (BitVec.ofNat 32 A.objLoftIndex) w
def hostShown : State := on.setFld F.sysStateState 2
/-- An INDEX register set to a word. -/
def indexAt (reg : Nat) (w : Word) : State := writeWord on .spi (BitVec.ofNat 32 reg) w
/-- The next word of the entry of the granary that was read, and of the gate lists. -/
def latched : State := readWord (indexAt A.objGranIndex 0x10000008) .spi (BitVec.ofNat 32 A.objGranData)
def buffered : State := writeWord (indexAt A.schedGclIndex 0x10000004) .spi (BitVec.ofNat 32 A.schedGclData) 5
/-- The barn erases a journal sector, and the host sees its plane busy. -/
def busyPlane (w : Word) : State := { indexAt A.barnIndex w with barn := { barnReset with erasing := [5] } }

/-- RAW frames over LINK_A, which is up. -/
def linked : State :=
  ((on.setFld F.ringHwCtlTransport 2).setFld F.ringHwCtlLinkaEn 1).setFld F.ringLinkStatAUp 1
def theSess : Sess :=
  { id := 7, devNonce := 9, hostNonce := 10, link := .a, hwCtl := linked.reg A.ringHwCtl, port := 0, keepalive := 5, mac := 0, hostMac := 0,
    ip4Local := 0, ip4Host := 0, ip6Local := 0, ip6Host := 0, hopLimit := 64 }
/-- A session is open. -/
def open7 : State := { linked with hw := { linked.hw with cur := some theSess } }
def bare (kind : Nat) (seq : BitVec 32) (len : BitVec 16) : RxFrame :=
  { link := .a, fcsOk := true, dstMac := 0, vlan := none, encap := .raw, version := 1,
    kind := BitVec.ofNat 8 kind, session := 7, seq := seq, ack := 0, length := len,
    room := 300, retx := false, tag := 0 }
/-- A frame with the tag that goes with it. -/
def tagged (s : State) (nonce : Option (BitVec 64)) (f : RxFrame) (kind : Nat) (bytes : List Byte) : RxFrame :=
  { f with tag := tagOf s nonce (rxHeader f kind) bytes }
theorem tagged_tag (s : State) (nonce : Option (BitVec 64)) (f : RxFrame) (kind : Nat) (bytes : List Byte) :
    tagOf s nonce (rxHeader (tagged s nonce f kind bytes) kind) bytes = (tagged s nonce f kind bytes).tag := rfl
theorem tag_off (x : BitVec 64) : x ≠ x + 1 := by bv_omega
theorem tag_keys {s t : State} (h : keyBytes s = keyBytes t) (nonce : Option (BitVec 64)) (head body : List Byte) :
    tagOf s nonce head body = tagOf t nonce head body := by simp only [tagOf, h]

def deaf : RxFrame := { bare tyKeepalive 1 0 with encap := .udp4 0 0 true none }
def muddled : RxFrame := { bare tyKeepalive 1 0 with version := 2 }
def notOurs : RxFrame := { bare tyKeepalive 1 0 with session := 8 }
/-- The TYPE of an ACK in a KEEPALIVE's place. -/
def wrongType : RxFrame := bare tyAck 1 0
def badTag : RxFrame := { bare tyKeepalive 1 0 with tag := tagOf open7 (some 9) (rxHeader (bare tyKeepalive 1 0) tyKeepalive) [] + 1 }
theorem badTag_off : tagOf open7 (some theSess.devNonce) (rxHeader badTag tyKeepalive) [] ≠ badTag.tag := by
  have h : badTag.tag = tagOf open7 (some theSess.devNonce) (rxHeader badTag tyKeepalive) [] + 1 := by
    simp only [badTag, rxHeader, theSess]
  rw [h]
  exact tag_off _
def keep1 : RxFrame := tagged open7 (some 9) (bare tyKeepalive 1 0) tyKeepalive []
def keep0 : RxFrame := tagged open7 (some 9) (bare tyKeepalive 0 0) tyKeepalive []
def keep5 : RxFrame := tagged open7 (some 9) (bare tyKeepalive 5 0) tyKeepalive []
def ack1 : RxFrame := tagged open7 (some 9) (bare tyAck 1 0) tyAck []
def close1 : RxFrame := tagged open7 (some 9) (bare tyClose 1 0) tyClose []
def doorFrame (k : BitVec 8) : RxFrame := tagged open7 (some 9) (bare tyDoorbell 1 8) tyDoorbell (doorBytes ⟨k, 0, 0, 0⟩)
def respFrame : RxFrame := tagged open7 (some 9) (bare tyReadResp 1 12) tyReadResp (leBytes 2 3 ++ leBytes 1 0 ++ [0] ++ [1, 2, 3, 4, 5, 6, 7, 8])
def rdFrame : RxFrame := tagged open7 (some 9) (bare tyRegRd 1 8) tyRegRd (regHead 0x10058 2 0 0)
def wrFrame : RxFrame := tagged open7 (some 9) (bare tyRegWr 1 12) tyRegWr (regHead 0x10058 1 0 0 ++ leBytes 4 5)

/-- The four key words are there. -/
def keyed4 : State := { linked with regs := { linked.regs with keys := [0, 1, 2, 3].map (fun i => (A.ringKey i, 5)) } }
def openFrame8 : RxFrame := tagged keyed4 none { bare tyOpen 0 8 with session := 0 } tyOpen (leBytes 8 77)
/-- A session is being opened. -/
def opening7 : State := { linked with hw := { linked.hw with opening := some theSess } }

/-- Both links are up, and a session is open over LINK_A. -/
def bothUp : State := open7.setFld F.ringLinkStatBUp 1
/-- Ring 0 waits for a slot. -/
def slotRead : ReadReq := { id := 3, addr := 0x1000, len := 32, for_ := .slots 0 0 1, sent := true }
def readsSlot : State :=
  { (open7.setRing 0 { ringInit with cfg := 1, reading := some 3 }) with hw := { open7.hw with reads := [slotRead] } }
def slotFrame : RxFrame :=
  tagged readsSlot (some 9) (bare tyReadResp 1 36) tyReadResp (leBytes 2 3 ++ leBytes 1 0 ++ [0] ++ List.replicate 32 7)
def rd1Frame : RxFrame := tagged open7 (some 9) (bare tyRegRd 1 8) tyRegRd (regHead 0x10058 1 0 0 ++ [])

def owed : State := { open7 with hw := { open7.hw with ackOwed := true } }
/-- LINK_A sleeps, and an acknowledgement is owed that LINK_B can take. -/
def owedB : State :=
  { ((bothUp.setFld F.evtLinkSleepAAsleep 1).setFld F.ringHwCtlLinkbEn 1) with hw := { bothUp.hw with ackOwed := true } }
def sentOne : State := sendSeq open7 tyKeepalive [] none
def sentThrice : State := { sentOne with hw := { sentOne.hw with unacked := sentOne.hw.unacked.map fun f => { f with sends := 3 } } }
/-- The frame of sentThrice. -/
def aged : TxFrame :=
  { kind := BitVec.ofNat 8 tyKeepalive, seq := 1, body := [], retx := false, sends := 3, readId := none }
/-- A link with a frame in hand accepts no sleep. -/
def busyLink : State := sentOne.setFld F.evtLinkSleepAAccept 1
def noKeep : State := { open7 with hw := { open7.hw with cur := some { theSess with keepalive := 0 } } }
def asleepB : State := open7.setFld F.evtLinkSleepBAsleep 1
def accepting : State := linked.setFld F.evtLinkSleepAAccept 1

/-- Source 4 enabled, with a count. -/
def counted (n : Nat) : State := (on.setFld (F.evtSrcCfgEn 4) 1).setFld (F.evtSrcStatCount 4) n
/-- The same with its queue asleep. -/
def countedAsleep (n : Nat) : State :=
  ((counted n).setFld (F.evtQcfgEn 0) 1).setFld (F.evtQctlState 0) 1
def filtered4 : State := ((counted 0).setFld (F.evtSrcCfgFilter 4) 9).setSource 4 { sourceInit with lastAt := some 0 }
/-- TEMP_WARN enabled, its condition true. -/
def warm : State := (on.setFld (F.evtSrcCfgEn 0) 1).setFld F.sysTempWarn 1
def warmSeen : State := warm.setFld (F.evtSrcStatAsserted 0) 1
/-- The condition has gone; a sample is due of a source whose condition holds, and of one that is disabled. -/
def cooled : State := warmSeen.setFld F.sysTempWarn 0
def warmDue : State := { warmSeen with sampleDue := [0] }
def coldDue : State := { on with sampleDue := [0] }
def waking : State := { on with pow := { on.pow with wakeOut := true } }

/-- An enabled queue 0 and two sources with a count. -/
def pendingTwo (explicit : Nat) : State :=
  ((((open7.setFld (F.evtQcfgEn 0) 1).setFld (F.evtSrcCfgEn 4) 1).setFld (F.evtSrcStatCount 4) 1).setFld (F.evtSrcCfgEn 5) 1).setFld
    (F.evtSrcStatCount 5) 3 |>.setFld (F.evtSrcCfgExplicit 4) explicit
def activeFour : State := on.setFld (F.evtSrcStatActive 4) 1
def activeWarm : State :=
  ({ warmSeen with pow := { warmSeen.pow with started := false } } : State).setFld (F.evtSrcStatActive 0) 1

/-- A descriptor body from its fields: offset and value. -/
def bodyOf (l : List (Nat × Nat)) : DescBody := BitVec.ofNat 224 (l.foldl (fun n e => n + e.2 * 2 ^ (8 * (e.1 - 4))) 0)
def hdr0 : DescHdr := { nocpl := false, last := true, tag := 5 }
/-- Ring 0 runs with a type (1 SCENE, 2 DMA on channel 0), with a slot to fetch. -/
def ringOf (kind : Nat) : State :=
  (((on.setRing 0 { ringInit with cfg := BitVec.ofNat 32 kind }).setFld (F.ringStatState 0) 1).setFld (F.ringCtlRun 0) 1).setReg
    (A.ringPi 0) 1
def layerBody : DescBody := bodyOf [(4, 3), (5, 2), (6, 1), (8, 77)]
def objBody : DescBody := bodyOf [(4, 9), (6, 4), (8, 77)]
def matBody : DescBody := bodyOf [(4, 2), (8, 0x1234), (30, 0x4321)]
def loadBody : DescBody := bodyOf [(4, 128), (8, 64), (12, 4096), (20, 2)]
def fenceBody : DescBody := bodyOf [(4, 3), (5, 1), (8, 4096), (16, 9)]
def badBody : DescBody := bodyOf [(4, 200)]
def badLayerBody : DescBody := bodyOf [(4, 100)]
def badObjBody : DescBody := bodyOf [(4, 60000)]

/-- A jump, aligned and not; blocks of four layer words, of 64 contexts, and of 300 LUT entries. -/
def jumpBody : DescBody := bodyOf [(8, 0x2000)]
def badJump : DescBody := bodyOf [(8, 0x2004)]
def blockBody : DescBody := bodyOf [(4, 3), (5, 2), (6, 4), (8, 0x8000)]
def objBlockBody : DescBody := bodyOf [(4, 9), (6, 64), (8, 0x8000)]
def lutBody : DescBody := bodyOf [(4, 2), (8, 300), (12, 0x8000)]

/-- Ring 0 as RESET leaves it; running with nothing to fetch; stopped; a DMA ring with a bad channel. -/
def ringIdle : State := on.setRing 0 { ringInit with cfg := 1 }
def ringIdleDma : State := on.setRing 0 { ringInit with cfg := 2 }
def ringWaits : State := (ringOf 1).setReg (A.ringCi 0) 1
def ringStopped : State := ((on.setRing 0 { ringInit with cfg := 1 }).setFld (F.ringStatState 0) 3).setReg (A.ringPi 0) 1
def cfgGood : State := (on.setReg (A.ringCfg 0) 0x401).setReg (A.ringSqLo 0) 0x1008
def cfgBad : State := on.setReg (A.ringCfg 0) 0x1C0002
/-- A DMA ring of a module whose core has failed. -/
def coreFailed : State := ringIdleDma.setFld F.faultStateCoreFail 1
def polls : State := (on.setRing 0 { ringInit with cfg := 0x200001 }).setFld (F.ringStatState 0) 1

/-- Counts of each ring and queue that the host has not yet consumed. -/
def written3 : State := (((ringIdle.setReg (A.ringCplPi 0) 3).setReg (A.ringPrecWr 0) 3).setReg (A.evtQpi 0) 3).setReg (A.ringPi 0) 2

def dmaBody (host : Nat) (len at_ pattern : Nat) : DescBody := bodyOf [(4, host), (8, len), (12, pattern), (20, at_)]
/-- A COPY of 96 bytes within channel 0; one of no bytes. -/
def copyBody : DescBody := bodyOf [(8, 96), (12, 0x1000), (20, 0x1020)]
def badCopy : DescBody := bodyOf [(12, 0x1000), (20, 0x1020)]
def dmaDescOf (kind : BitVec 8) (b : DescBody) : DmaDesc :=
  { d := { kind := kind, h := hdr0, body := b, index := 0, chain := false }, key := 1, chainAt := 0, batchAt := 0, marksAt := [] }
/-- Channel 0 with a descriptor in hand, and its write port open or closed. -/
def dmaHas (open_ : Nat) (kind : BitVec 8) (b : DescBody) : State :=
  ({ ((((((on.setFld (F.schedSubCfgEn (writeSub 0)) 1).setFld (F.schedSubCfgPortMask (writeSub 0)) 15).setFld
      (F.schedSubRateRate (writeSub 0)) open_).setFld (F.schedSubCfgEn (readSub 0)) 1).setFld (F.schedSubCfgPortMask (readSub 0)) 15).setFld
      (F.schedSubRateRate (readSub 0)) open_) with dma := [(0, { dmaInit with inHand := some (dmaDescOf kind b) })] } : State)
def noBeats : BeatReport := { bad := [], late := none }
/-- Channel 28 is triggered by a timer; its engine halted. -/
def timerOn : State := on.setFld (F.dmaTchCfgKind 0) 2
/-- Its list at 0x2000 begins with a FILL, and its read port is open. -/
def timerReads : State :=
  ((((timerOn.setReg (A.dmaTchBaseLo 0) 0x2000).setFld (F.schedSubCfgEn (readSub 28)) 1).setFld (F.schedSubCfgPortMask (readSub 28)) 15).setFld
    (F.schedSubRateRate (readSub 28)) 64).store 0x2000 ([0x41, 0, 0, 0] ++ leBytes 28 (dmaBody 0 8 0x1004 7).toNat)
def timedRuns : State := { timerOn with dma := [(28, { dmaInit with runAt := some 0 })] }
def haltedOn : State := { (on.setFld F.dmaEngineHalted 1) with dmaHalted := true }

/-- Scan engine 3 with a region; a pass in hand. -/
def scanAt (start len : Nat) : State := (on.setReg (A.chkStartLo 3) (BitVec.ofNat 32 start)).setFld (F.chkLenLen 3) len
def passOf : Scan := { start := 0x1000, len := 64, poly := 0, dirty := false, got := (64, 64) }
def scanning : State :=
  { (((on.setFld (F.schedSubCfgEn 205) 1).setFld (F.schedSubCfgPortMask 205) 15).setFld (F.schedSubRateRate 205) 1) with
    scans := [(3, passOf)] }

/-- The pass has read nothing and its port has no rate; or its port mask is empty. -/
def scanWaits : State :=
  { (scanning.setFld (F.schedSubRateRate 205) 0) with scans := [(3, { passOf with got := (0, 0) })] }
def scanRefused : State := scanning.setFld (F.schedSubCfgPortMask 205) 0

/-- Pipe 2 in a lead-in, in a frame, and in a frame with TE on its last line; its timing has 12 lines. -/
def timing2 : State :=
  (((((on.setFld (F.pipeVtime0Vactive 2) 8).setFld (F.pipeVtime0Vfp 2) 1).setFld (F.pipeVtime1Vsync 2) 1).setFld
    (F.pipeVtime1Vbp 2) 2).setFld (F.pipeHtime0Hactive 2) 64).setFld (F.pipeCtlRun 2) 1
def leadIn2 : State := timing2.setPipe 2 { pipeInit with gen := .leadIn, line := 3, unit := 9 }
def running2 : State := timing2.setPipe 2 { pipeInit with gen := .running, line := 11, unit := 63 }
def running2te : State := running2.setFld (F.pipeTeEn 2) 1
def ending2 : State := running2.setFld (F.pipeCtlRun 2) 0
/-- Pipe 2 at the end of line 0, with an output. -/
def composing2 : State :=
  ((timing2.setFld (F.laneCfgEn 1) 1).setFld (F.laneCfgTarget 1) 2).setPipe 2 { pipeInit with gen := .running, line := 0, unit := 63 }
/-- A fixed part clears RUN at the next frame start. -/
def endPart : PendPart :=
  { block := 7, pipe := some 2, cam := none, words := [(A.pipeCtl 2, 0)], gcl := [], fixed := true }
def endsFixed2 : State := { running2 with regs := { running2.regs with pend := [endPart] } }
/-- The TE pipe has repeated its last line for as long as it waits. -/
def timedOut2 : State := running2te.setPipe 2 { pipeInit with gen := .running, line := 11, unit := 63, repeats := 12 }
/-- Pipe 2 relocks in black; enters its first blanking line; enters a line of its lead-in. -/
def relocks2 : State := composing2.setPipe 2 { pipeInit with gen := .running, line := 0, unit := 63, black := .relock }
def blanks2 : State := composing2.setPipe 2 { pipeInit with gen := .running, line := 7, unit := 63 }
def leadLine2 : State := composing2.setPipe 2 { pipeInit with gen := .leadIn, line := 0, unit := 63 }
/-- Its first position event stands at the line that comes; an open window sees it. -/
def marks2 : State :=
  ((composing2.setFld (F.pipeLpeEn 2 0) 1).setFld (F.pipeLpeLine 2 0) 1).setFld (F.evtSrcCfgEn 100) 1
def winOpen : Window :=
  { opened := true, crc := 0xFFFFFFFF, cfg := 0xA0000000, xs := 0x003F0000, ys := 0x00070000, expect := [], key := none, inRange := true }
def watched2 : State := { composing2 with wins := [(5, winOpen)] }
/-- An opaque layer of class S over the first pixel of pipe 2: RGB565 from memory. -/
def opaqueS : Planar :=
  { planarOf [] 0 with en := true, pipe := 2, clsS := true, fmt := 2, alpha := 255, buf := 0x1000, stride := 64, sw := 1, sh := 1, dw := 1, dh := 1 }
def drawnS : Drawn :=
  { stack := 0, clsS := true, premult := false, alpha := 255, lut := none, planar := some (5, opaqueS), objs := [], fl := false }
def noSteps : StepReport := { missing := [], badAddr := [], loftEcc := [], late := [], wrong := [] }
def onePart : PendPart := { block := 7, pipe := some 2, cam := none, words := [], gcl := [], fixed := false }
def stooked : State := { running2 with regs := { running2.regs with pend := [onePart] } }

def pllOn : State := on.setFld (F.pipePllCtlEn 1) 1
def teOn : State := running2.setFld (F.pipeTeEn 2) 1 |>.setFld (F.pipeTeOffset 2) 7
def tracks : State := ((running2.setFld (F.pipeCamLockEn 2) 1).setFld (F.pipeStatLock 2) 3)

/-- gPTP runs on LINK_A in domain 3. -/
def ptpOn : State := (linked.setFld F.pipePtpCfgEn 1).setFld F.pipePtpCfgDomain 3
def ptpAsked : State := { ptpOn with time := { ptpOn.time with pdelayOut := some 4 } }

/-- Group 1 is a DSI output for pipe 2 that comes up; with a packet of 4 bytes; busy. -/
def rising1 : State := ((on.setFld (F.laneCfgEn 1) 1).setFld (F.laneCfgTarget 1) 2).setFld (F.laneStatState 1) 1
def packet1 : State := (rising1.setFld (F.lanePktCtlLen 1) 4).setGroup 1 { groupInit with fifo := [1, 2, 3, 4, 5], resp := [9, 8] }
/-- Its POWER_DELAY has not passed. -/
def waitsPower : State := rising1.setGroup 1 { groupInit with readyAt := 5 }
def busy1 : State := packet1.setFld (F.lanePktCtlBusy 1) 1
def long1 : State := rising1.setFld (F.lanePktCtlLen 1) 65
/-- The group is READY and busy with a packet; with a read. -/
def ready1 : State := busy1.setFld (F.laneStatState 1) 2
def reads1 : State := ready1.setFld (F.lanePktCtlRead 1) 1

/-- Camera port 0 receives RAW-like RGB888 lines of 2 pixels and 4 lines, in a frame; with a line that waits. -/
def camUp : State :=
  ((((((on.setFld (F.laneCfgEn 1) 1).setFld (F.laneCfgIf 1) 4).setFld (F.laneStatState 1) 2).setFld (F.laneCamCfgEn 0) 1).setFld
    (F.laneCamCfgDt 0) 0x24).setFld (F.laneCamSizeWidth 0) 2).setFld (F.laneCamSizeHeight 0) 4
def camPorts : State :=
  (((camUp.setFld (F.schedSubCfgEn 96) 1).setFld (F.schedSubCfgPortMask 96) 15).setFld (F.schedSubRateRate 96) 1).setFld
    (F.laneCamStrideStride 0) 64
def camIn : State := camPorts.setCam 0 { camInit with inFrame := true, line := 1, frame := 1 }
/-- Past the last line. -/
def camPast : State := camPorts.setCam 0 { camInit with inFrame := true, line := 4, frame := 1 }
def camSecond : State := camPorts.setCam 0 { camInit with frame := 1 }
def camWaiting : State := camIn.setCam 0 { camInit with inFrame := true, line := 2, frame := 1, waiting := [(0, 1, 1, [1, 2, 3, 0])] }
/-- A line waits at a port without rate. -/
def camHeld : State := camWaiting.setFld (F.schedSubRateRate 96) 0

/-- A module at 1 s. -/
def late : State := { on with time := { on.time with uptime := 1000000000 } }
def lateDma : State := { late with dma := [(0, { dmaInit with inHand := some (dmaDescOf 0x42 0) })] }
/-- Unit u has failed three times a millisecond ago. -/
def failing (u : Nat) : State := late.setUnit u { unitInit with fails := [999000000, 999000001, 999000002] }
def waitsHpd : State := on.setGroup 1 { groupInit with waitHpd := true }
def edp1 : State := ((on.setFld (F.laneCfgEn 1) 1).setFld (F.laneCfgIf 1) 1).setFld (F.laneStatState 1) 2

/-- Channel 1 recovers and channel 2 waits; LINK_A recovers; re-reads are in hand. -/
def recovering : State := { (late.setUnit 1 { unitInit with recovery := true }) with
  fault := { (late.setUnit 1 { unitInit with recovery := true }).fault with mcHand := some 1, mcQueue := [2] } }
def linkRecovers : State := linked.setUnit 0x60 { unitInit with recovery := true }
def rereads : State := { late with fault := { late.fault with reread := [(1, .loft 2, 0x1000)] } }
def rereads5 : State := { late with fault := { late.fault with reread := [(1, .fetch 5, 0x1000)] } }

/-- Lane 3 is under test; its test has ended. -/
def testing3 : State := { late with fault := { late.fault with lane := some 3, testing := true } }
def tested3 : State := { late with fault := { late.fault with lane := some 3, testing := false } }
def tested16 : State := { late with fault := { late.fault with lane := some 16, testing := false } }
/-- Its test did not run and is tried again. -/
def again3 : State := { late with fault := { late.fault with lane := some 3, testing := false, notRun := 1 } }
/-- Lane 3 has failed three times, and more lanes are in service; its swap is held for a pipe. -/
def failing3 : State :=
  { (late.setFld F.sysProfileActive 0).setUnit 0x13 { unitInit with fails := [999000000, 999000001, 999000002] } with
    fault := { (late.setUnit 0x13 { unitInit with fails := [999000000, 999000001, 999000002] }).fault with lane := some 3, testing := true } }
def swapHeld3 : State :=
  { late with fault := { late.fault with lane := some 3, testing := false, hold := true, holdDone := some true, holdFrames := [2] } }

/-- Unit 0x45 is retired; under retest, with pipe 2 running. -/
def retired45 : State := late.setUnit 0x45 { unitInit with retired := true, cause := 8 }
def retest45 : State :=
  { (retired45.setPipe 2 { pipeInit with gen := .running }) with fault := { retired45.fault with retest := some 0x45 } }
def retest45still : State := { retired45 with fault := { retired45.fault with retest := some 0x45 } }
def oneRecord : FRec := { unit := 0x45, kind := 1, cause := 8, fails := 4, seq := 1, stamp := 0 }
def recordWaits : State := { (open7.setFld F.faultRrecCfgEn 1) with fault := { open7.fault with held := [oneRecord] } }
def consumes : State := on.setReg A.faultRrecWr 3
def owes : State := { late with fault := { late.fault with reproof := true } }

def verdict (r : BitVec 8) : Verdict := { reason := r, pipe := 15, port := 15, item := 0, next := false, value := 0, lift := 0 }
/-- A COMMIT of ring 0 is in proof, with a verdict. -/
def judged (r : BitVec 8) : State := { on with scene := { on.scene with inHand := some (.scene (emptyScene 0), verdict r) } }
def hostFence : Fence := { slot := 3, host := true, addr := 4096, value := 9, signalled := false, reading := false }
def armedPart : Armed :=
  { serial := 4, ring := 0, key := 4, preTrip := false, written := true, due := false, kind := .stook 0, pipes := [2], writes := writesInit, loads := [], fences := [hostFence], tag := 0, slips := 0,
    committed := false, shed := [], noCap := [] }
def armedOn : State := { running2 with scene := { running2.scene with armed := [armedPart] } }
/-- A part of stook 2 without fences. -/
def freePart : Armed := { armedPart with kind := .stook 2, fences := [] }
def armedFree : State := { running2 with scene := { running2.scene with armed := [freePart] } }
/-- A part whose COMMIT has no completion yet; two fences, one in device memory. -/
def unwritten : State := { running2 with scene := { running2.scene with armed := [{ freePart with written := false }] } }
def memFence : Fence := { slot := 4, host := false, addr := 0x2000, value := 9, signalled := false, reading := false }
def armedMem : State := { running2 with scene := { running2.scene with armed := [{ armedPart with fences := [memFence] }] } }
/-- A scene that moves the layer of slot 5. -/
def oneLayer : Scene :=
  { emptyScene 0 with writes := { writesInit with layer := [(5 * 32 + 1, 9)] } }
def loadOf : LoftLoad :=
  { dest := 128, len := 64, src := 4096, pipe := 2, tag := 0, index := 0, order := 0, scene := 4, abandoned := false,
    late := false, skip := [], got := (64, 64) }
def loading : State := { (on.store 4096 [1, 2, 3]) with scene := { on.scene with running := [(loadOf, 7)] } }
/-- Slot 5 is a small layer of pipe 2, which runs. -/
def layered : State :=
  { running2 with scene := { running2.scene with planar := [(5 * 32, 5), (5 * 32 + 1, 8), (5 * 32 + 2, 0x1000), (5 * 32 + 12, 0x10002)] } }

/-- Its CRC is checked, and differs. -/
def checked : State :=
  { layered with scene := { layered.scene with planar := smPut layered.scene.planar (5 * 32) 0x45 } }

/-- Channel 6 is used; its host state; the fault of a channel with its sink off. -/
def used6 (lit : Nat) : State := ((open7.setFld (F.lightTtChDayCode 6) 40).setFld (F.lightTtChSource 6) 0).setFld F.lightTtStateLoCh6 lit
def short6 (retries : Nat) : State :=
  ((used6 1).setFld (F.lightTtStatFault 6) 2).setTt 6 { retries := retries, wasLit := true, off := true }
def blinks (on_ : Nat) : State :=
  { ((open7.setFld F.lightTtBlinkAOn on_).setFld F.lightTtBlinkAPeriod 10) with light := { lightReset with busyA := true } }
def blinksB (on_ : Nat) : State :=
  { ((open7.setFld F.lightTtBlinkBOn on_).setFld F.lightTtBlinkBPeriod 10) with light := { lightReset with busyB := true } }
def bulbOn : State := { open7 with pow := { open7.pow with bulb := true } }

/-- CAN controller 0 runs; entry 9 takes a byte of identifier 0x123 into channel 6, with a timeout. -/
def canOn : State := ((on.setFld (F.lightCanCtlEn 0) 1).setFld (F.lightCanNbtBrp 0) 10).setFld (F.lightCanDbtBrp 0) 10
def canRates : State :=
  (((canOn.setFld (F.lightCanNbtTseg1 0) 40).setFld (F.lightCanNbtTseg2 0) 10).setFld (F.lightCanDbtTseg1 0) 40).setFld
    (F.lightCanDbtTseg2 0) 10
def mapped : State :=
  ((((canRates.setFld (F.lightMapIdEn 9) 1).setFld (F.lightMapIdId 9) 0x123).setFld (F.lightMapFieldLenM1 9) 7).setFld
    (F.lightMapActCh 9) 6).setFld (F.lightMapFieldTimeout 9) 5
def sending0 : State := canRates.setFld (F.lightCanTxidTxEn 0) 1
def offBus0 : State := canRates.setFld (F.lightCanStatState 0) 2
/-- Zone 3 of pipe 2, which shows pixels; statistics of its frame. -/
def zone3 : Zone := { zoneInit with cfg := 0xA0000000, peak := 200, sum := 300, count := 4 }
def dims : State :=
  (((on.setFld (F.laneCfgEn 1) 1).setFld (F.laneCfgTarget 1) 2).setPipe 2 { pipeInit with gen := .running }).setZone 3 zone3
/-- The same pipe without an output. -/
def dark2 : State := dims.setFld (F.laneCfgEn 1) 0

/-- The barn with one thing changed. -/
def barnOf (f : BarnState → BarnState) : State := { on with barn := f barnReset }
def jobOf : JJob := { key := 17, payload := [1, 2, 3], host := true }
/-- Sector 0 is open. -/
def opened (f : BarnState → BarnState) : State := barnOf (fun b => f (openNext b))
def jobHas : State := (opened (fun b => { b with jobHand := some jobOf })).setFld F.barnJwCtlBusy 1
def fullSector : State := opened (fun b => programState b 0 0xFC)
def fewErased : State := opened (fun b => { programState b 0 0xFC with erasing := (List.range 123).map (· + 3) })
/-- No sector is OPEN or ERASED; sector 0 is COMPACTING; a program has failed in it; a page of two words, and a full one that waits.
-/
def noRoom : State := barnOf (fun b => { b with erasing := List.range 128, jobHand := some jobOf })
def compacting : State := opened (fun b => writeRecord (programState (writeRecord b 17 [1, 2]) 0 0xF8) 18 [3])
def failedSector : State := opened (fun b => { writeRecord b 17 [1, 2] with failed := [0] })
def twoWords : State :=
  barnOf (fun b => { b with rawBusy := some (false, 3, [(7, 0x0F1E2D3C), (9, 5)]), page := some (4, [(63, 1)]) })
/-- Sector 0 is FULL with a record, and few sectors are ERASED. -/
def gleanable : State :=
  opened (fun b => { openNext (writeRecord b 17 [1, 2]) with erasing := (List.range 122).map (· + 4) })
def readHas : State :=
  (barnOf (fun b => { b with readKey := some 17, cur := [(17, 5, [1, 2, 3], 0)] })).setFld F.barnJrCtlBusy 1

/-- A window runs, of US mode; with HOLD and an unread snapshot. -/
def usMode : State := on.setFld F.perfWinCfgMode 1
def window : State :=
  { (usMode.setFld F.perfCtlRun 1) with
    perf := { perfReset with counters := [(3, 9)], startAt := some 0, cfg := usMode.reg A.perfWinCfg } }
/-- Its 100 microseconds are over. -/
def elapsed : State := { window with time := { window.time with uptime := 200000 } }
/-- A window waits for its frame start. -/
def waitsFrame : State := { (on.setFld F.perfCtlRun 1) with perf := { perfReset with armed := true } }
def holding : State :=
  { ((usMode.setFld F.perfCtlRun 1).setFld F.perfSnapStatReady 1) with
    perf := { perfReset with counters := [(3, 9)], startAt := some 0, cfg := (usMode.setFld F.perfWinCfgHold 1).reg A.perfWinCfg },
    time := elapsed.time }

/-- A module of profile 2, with REF_PIPE 7. -/
def smallModule : State := (on.setFld F.sysProfileActive 2).setFld F.perfWinCfgRefPipe 7

/-! WellFormed: each check refuses a command that breaks it. -/

theorem test_wf_well_formed : Instr.wf (.podlClassified 4 63 false) = true := by decide +kernel

theorem test_wf_watts : Instr.wf (.podlClassified 4 64 false) = false := by decide +kernel

theorem test_wf_body : Instr.wf (.ack { bare tyAck 1 1057 with room := 1057 }) = false := by decide +kernel

theorem test_wf_body_room : Instr.wf (.keepalive { bare tyKeepalive 1 10 with room := 9 }) = false := by decide +kernel

theorem test_wf_door_entries : Instr.wf (.doorbellSubmit (bare tyDoorbell 1 136) 0 0 (List.replicate 16 ⟨0, 0, 0, 0⟩)) = false := by decide +kernel

theorem test_wf_resp_data : Instr.wf (.readResp (bare tyReadResp 1 12) 3 0 (List.replicate 1025 0)) = false := by decide +kernel

theorem test_wf_reg_words : Instr.wf (.regWr (bare tyRegWr 1 12) 0 64 false (List.replicate 65 0) []) = false := by decide +kernel

theorem test_wf_can_data : Instr.wf (.canFrameReceived 0 false 1 false (List.replicate 65 0)) = false := by decide +kernel

theorem test_wf_packet_resp : Instr.wf (.pktDone 0 true (List.replicate 65 0)) = false := by decide +kernel

theorem test_wf_cam_bytes : camBytesOk (List.replicate 65536 0) = false := by
  simp only [camBytesOk, List.length_replicate]
  decide

theorem test_wf_sector : Instr.wf (.sectorEraseDone 192) = false := by decide +kernel

theorem test_wf_address : Instr.wf (.eccUncorrectable 0x1C0000000 .other) = false := by decide +kernel

/-! Known answers: the check values of R358 over the ASCII bytes "123456789", and the published examples of AES-128 and its CMAC. -/

def digits9 : List Byte := [0x31, 0x32, 0x33, 0x34, 0x35, 0x36, 0x37, 0x38, 0x39]

theorem test_crc32_check : crc32 digits9 = 0xCBF43926 := by decide +kernel

theorem test_crc32c_check : crc32c digits9 = 0xE3069283 := by decide +kernel

theorem test_crc16_check : crc16 digits9 = 0x29B1 := by decide +kernel

theorem test_crc8_check : crc8 digits9 = 0x4B := by decide +kernel

def exampleKey : List Nat := [0x2B, 0x7E, 0x15, 0x16, 0x28, 0xAE, 0xD2, 0xA6, 0xAB, 0xF7, 0x15, 0x88, 0x09, 0xCF, 0x4F, 0x3C]

theorem test_cmac_empty : cmac exampleKey [] =
    [0xBB, 0x1D, 0x69, 0x29, 0xE9, 0x59, 0x37, 0x28, 0x7F, 0xA3, 0x7D, 0x12, 0x9B, 0x75, 0x67, 0x46] := by decide +kernel

/-! No row of the table gives bits, so no word spells a command. -/

theorem test_no_word : decodeTableWord 32 0 = none ∧ (State.reset.withFetchWord 32 0).pending = [] := by decide +kernel

/-! Witnesses: a clause of a statement, a state and operands that meet its hypotheses. -/

theorem test_witness_StepRunsFront :
    (((State.reset.withCommand (.lineLoss)).pending = .lineLoss :: [])) := by
  and_intros
  all_goals
    decide +kernel

theorem test_witness_CommandsKeepQueue :
    (((State.reset.withCommand (.lineLoss)).pending = .lineLoss :: []) ∧ ((State.reset.withCommand (.lineLoss)).queueOk)) := by
  and_intros
  all_goals
    first
    | decide +kernel
    | exact (fun c h => by cases h with | head => rfl | tail _ h => cases h)

theorem test_witness_IdlePeriod :
    ((on.pending = []) ∧ (on.isUp)) ∧
    ((scanning.pending = []) ∧ (scanning.isUp)) ∧
    ((on.pending = []) ∧ (on.isUp) ∧ (requests on = []) ∧ (on.dma = []) ∧ (on.scene.armed = []) ∧ ((∀ x ∈ on.regs.pend, x.cam = none))) ∧
    ((down.pending = []) ∧ (¬down.isUp)) := by
  and_intros
  all_goals
    first
    | decide +kernel
    | exact rfl
    | exact fun h => by cases h

theorem test_witness_DownUntilPowerGood :
    ((down.pow.power = .down) ∧ (down.dark)) ∧
    ((down.pow.power = .down)) := by
  and_intros
  all_goals
    first
    | decide +kernel
    | exact fun _ h => by cases h

theorem test_witness_NothingWithoutPower :
    ((¬down.isUp)) := by
  and_intros
  all_goals
    first
    | decide +kernel
    | exact (fun h => by cases h)

theorem test_witness_LineLoss :
    ((on.isUp) ∧ (NoPowerGood on.pending)) := by
  and_intros
  all_goals
    first
    | decide +kernel
    | exact rfl
    | exact (fun _ h => by cases h)

theorem test_witness_ResetState :
    (((findReg 0x10058).isSome = true) ∧ ((findReg 0xB2070).isSome = true)) := by
  and_intros
  all_goals
    decide +kernel

theorem test_witness_Resets :
    ((¬(down.isUp ∧ down.pow.started = true))) ∧
    ((¬(State.reset.isUp ∧ State.reset.pow.started = true))) ∧
    ((on.isUp) ∧ (on.pow.started = true)) ∧
    ((on.isUp)) ∧
    ((keyHeld.takes .spi) ∧ (keyHeld.fld F.sysResetCtlKey = 0xC0DE) ∧ ((0x10000 : Word).getLsbD 16 = true)) ∧
    ((¬(plainOff.isUp ∧ plainOff.pow.started = true)) ∧ (bankAfter plainOff = none) ∧ (classAfter plainOff true ≠ none)) ∧
    ((¬(plainDown.isUp ∧ plainDown.pow.started = true)) ∧ (bankAfter plainDown = none) ∧ (classAfter plainDown true ≠ none)) ∧
    ((plain.isUp) ∧ (bankAfter plain = none) ∧ (classAfter plain false ≠ none)) ∧
    ((plainKey.takes .spi) ∧ (plainKey.fld F.sysResetCtlKey = 0xC0DE) ∧ ((0x10000 : Word).getLsbD 16 = true) ∧ (bankAfter plainKey = none) ∧ (classAfter plainKey false ≠ none)) ∧
    ((¬((banked plainOff).isUp ∧ (banked plainOff).pow.started = true)) ∧ (bankAfter (banked plainOff) = some 0) ∧ (classAfter (banked plainOff) true ≠ none)) ∧
    ((¬((banked plainDown).isUp ∧ (banked plainDown).pow.started = true)) ∧ (bankAfter (banked plainDown) = some 0) ∧ (classAfter (banked plainDown) true ≠ none)) ∧
    (((banked plain).isUp) ∧ (bankAfter (banked plain) = some 0) ∧ (classAfter (banked plain) false ≠ none)) ∧
    (((banked plainKey).takes .spi) ∧ ((banked plainKey).fld F.sysResetCtlKey = 0xC0DE) ∧ ((0x10000 : Word).getLsbD 16 = true) ∧ (bankAfter (banked plainKey) = some 0) ∧ (classAfter (banked plainKey) false ≠ none)) ∧
    ((¬(weakDown.isUp ∧ weakDown.pow.started = true)) ∧ (classAfter weakDown true = none)) ∧
    ((weak.isUp) ∧ (classAfter weak false = none)) ∧
    ((on.takes .spi) ∧ (on.fld F.sysResetCtlKey ≠ 0xC0DE) ∧ ((0x1C0DE : Word).getLsbD 16 = true)) := by
  and_intros
  all_goals
    first
    | decide +kernel
    | exact rfl
    | exact fun h => by first | (cases h.1; done) | cases h.2

theorem test_witness_Temperature :
    ((on.isUp) ∧ (460 ≤ (470 : BitVec 12).toInt) ∧ ((470 : BitVec 12).toInt < 540)) ∧
    ((on.isUp) ∧ (460 ≤ (500 : BitVec 12).toInt) ∧ ((500 : BitVec 12).toInt < 540)) ∧
    ((on.isUp) ∧ (540 ≤ (540 : BitVec 12).toInt)) ∧
    ((on.isUp) ∧ ((459 : BitVec 12).toInt < 460)) := by
  and_intros
  all_goals
    first
    | decide +kernel
    | exact rfl

theorem test_witness_PowerFrontEnd :
    ((¬(State.reset.isUp ∧ State.reset.pow.started = true))) ∧
    ((on.isUp) ∧ (on.pow.started = true)) ∧
    ((vbus.isUp) ∧ (vbus.pow.vbusClosed = true)) ∧
    ((vbus2.isUp) ∧ (vbus2.pow.vbusClosed = false) ∧ (vbus2.pow.vbusLatched = false)) ∧
    ((vbus2.isUp) ∧ (vbus2.pow.vbusClosed = false) ∧ (vbus2.pow.vbusLatched = false)) ∧
    ((vbus3.isUp) ∧ (vbus3.pow.vbusLatched = true)) := by
  and_intros
  all_goals
    first
    | decide +kernel
    | exact rfl
    | exact (fun h => by cases h.2)

theorem test_witness_RegisterWrite :
    ((on.takes .spi)) ∧
    ((State.reset.takes .spi)) ∧
    ((on.takes .spi)) ∧
    ((on.takes .spi)) ∧
    ((on.takes .spi)) := by
  and_intros
  all_goals
    first
    | decide +kernel
    | exact rfl

theorem test_witness_UnmappedAccess :
    ((on.isUp) ∧ (((0x12:Word).toNat % 4 ≠ 0 ∨ 0x120000 ≤ (0x12:Word).toNat ∨ ((0x12:Word).toNat < 0x100000 ∧ findReg (0x12:Word).toNat = none) ∨ (isAlias (0x12:Word).toNat = true ∧ findReg (aliasReg (0x12:Word).toNat) = none)))) ∧
    ((on.isUp) ∧ (((0x120000:Word).toNat % 4 ≠ 0 ∨ 0x120000 ≤ (0x120000:Word).toNat ∨ ((0x120000:Word).toNat < 0x100000 ∧ findReg (0x120000:Word).toNat = none) ∨ (isAlias (0x120000:Word).toNat = true ∧ findReg (aliasReg (0x120000:Word).toNat) = none)))) ∧
    ((on.isUp) ∧ (((0x60F00:Word).toNat % 4 ≠ 0 ∨ 0x120000 ≤ (0x60F00:Word).toNat ∨ ((0x60F00:Word).toNat < 0x100000 ∧ findReg (0x60F00:Word).toNat = none) ∨ (isAlias (0x60F00:Word).toNat = true ∧ findReg (aliasReg (0x60F00:Word).toNat) = none)))) ∧
    ((on.isUp) ∧ (((0x100F00:Word).toNat % 4 ≠ 0 ∨ 0x120000 ≤ (0x100F00:Word).toNat ∨ ((0x100F00:Word).toNat < 0x100000 ∧ findReg (0x100F00:Word).toNat = none) ∨ (isAlias (0x100F00:Word).toNat = true ∧ findReg (aliasReg (0x100F00:Word).toNat) = none)))) ∧
    ((on.isUp) ∧ (((0xFFFFFFFF:Word).toNat % 4 ≠ 0 ∨ 0x120000 ≤ (0xFFFFFFFF:Word).toNat ∨ ((0xFFFFFFFF:Word).toNat < 0x100000 ∧ findReg (0xFFFFFFFF:Word).toNat = none) ∨ (isAlias (0xFFFFFFFF:Word).toNat = true ∧ findReg (aliasReg (0xFFFFFFFF:Word).toNat) = none)))) := by
  and_intros
  all_goals
    first
    | decide +kernel
    | exact rfl

theorem test_witness_LockedWrite :
    (((on.setFld F.sysProfileLock 1).takes .spi) ∧ ((((0x20 : Word) = 0x20 ∧ (on.setFld F.sysProfileLock 1).flag F.sysProfileLock = true) ∨ ((0x20 : Word) = 0x24 ∧ (on.setFld F.sysProfileLock 1).flag F.sysPodlStatLock = true) ∨ (((0x20 : Word) = 0x90000 ∨ (0x20 : Word) = 0x90004 ∨ (0x20 : Word) = 0x91000 ∨ (0x20 : Word) = 0x92000) ∧ (on.setFld F.sysProfileLock 1).flag F.lightTtCfgLock = true)))) ∧
    (((on.setFld F.sysPodlStatLock 1).takes .spi) ∧ ((((0x24 : Word) = 0x20 ∧ (on.setFld F.sysPodlStatLock 1).flag F.sysProfileLock = true) ∨ ((0x24 : Word) = 0x24 ∧ (on.setFld F.sysPodlStatLock 1).flag F.sysPodlStatLock = true) ∨ (((0x24 : Word) = 0x90000 ∨ (0x24 : Word) = 0x90004 ∨ (0x24 : Word) = 0x91000 ∨ (0x24 : Word) = 0x92000) ∧ (on.setFld F.sysPodlStatLock 1).flag F.lightTtCfgLock = true)))) ∧
    (((on.setFld F.lightTtCfgLock 1).takes .spi) ∧ ((((0x90000 : Word) = 0x20 ∧ (on.setFld F.lightTtCfgLock 1).flag F.sysProfileLock = true) ∨ ((0x90000 : Word) = 0x24 ∧ (on.setFld F.lightTtCfgLock 1).flag F.sysPodlStatLock = true) ∨ (((0x90000 : Word) = 0x90000 ∨ (0x90000 : Word) = 0x90004 ∨ (0x90000 : Word) = 0x91000 ∨ (0x90000 : Word) = 0x92000) ∧ (on.setFld F.lightTtCfgLock 1).flag F.lightTtCfgLock = true)))) ∧
    (((on.setFld F.lightTtCfgLock 1).takes .spi) ∧ ((((0x90004 : Word) = 0x20 ∧ (on.setFld F.lightTtCfgLock 1).flag F.sysProfileLock = true) ∨ ((0x90004 : Word) = 0x24 ∧ (on.setFld F.lightTtCfgLock 1).flag F.sysPodlStatLock = true) ∨ (((0x90004 : Word) = 0x90000 ∨ (0x90004 : Word) = 0x90004 ∨ (0x90004 : Word) = 0x91000 ∨ (0x90004 : Word) = 0x92000) ∧ (on.setFld F.lightTtCfgLock 1).flag F.lightTtCfgLock = true)))) ∧
    (((on.setFld F.lightTtCfgLock 1).takes .spi) ∧ ((((0x91000 : Word) = 0x20 ∧ (on.setFld F.lightTtCfgLock 1).flag F.sysProfileLock = true) ∨ ((0x91000 : Word) = 0x24 ∧ (on.setFld F.lightTtCfgLock 1).flag F.sysPodlStatLock = true) ∨ (((0x91000 : Word) = 0x90000 ∨ (0x91000 : Word) = 0x90004 ∨ (0x91000 : Word) = 0x91000 ∨ (0x91000 : Word) = 0x92000) ∧ (on.setFld F.lightTtCfgLock 1).flag F.lightTtCfgLock = true)))) ∧
    (((on.setFld F.lightTtCfgLock 1).takes .spi) ∧ ((((0x92000 : Word) = 0x20 ∧ (on.setFld F.lightTtCfgLock 1).flag F.sysProfileLock = true) ∨ ((0x92000 : Word) = 0x24 ∧ (on.setFld F.lightTtCfgLock 1).flag F.sysPodlStatLock = true) ∨ (((0x92000 : Word) = 0x90000 ∨ (0x92000 : Word) = 0x90004 ∨ (0x92000 : Word) = 0x91000 ∨ (0x92000 : Word) = 0x92000) ∧ (on.setFld F.lightTtCfgLock 1).flag F.lightTtCfgLock = true)))) ∧
    ((on.takes .haywain) ∧ (((0x10040 : Word) = 0x10040 ∨ (0x10040 : Word) = 0x10044 ∨ (0x10040 : Word) = 0x10048 ∨ (0x10040 : Word) = 0x1004C ∨ (0x10040 : Word) = 0xB2000 ∨ (0x10040 : Word) = 0xB2070))) ∧
    ((on.takes .haywain) ∧ (((0xB2070 : Word) = 0x10040 ∨ (0xB2070 : Word) = 0x10044 ∨ (0xB2070 : Word) = 0x10048 ∨ (0xB2070 : Word) = 0x1004C ∨ (0xB2070 : Word) = 0xB2000 ∨ (0xB2070 : Word) = 0xB2070))) := by
  and_intros
  all_goals
    first
    | decide +kernel
    | exact rfl

theorem test_witness_LockAndStrobeEvents :
    (((findReg 0x10040).isSome = true) ∧ (haywainDenied .haywain 0x10040 = true)) ∧
    (((findReg 0x10048).isSome = true) ∧ (haywainDenied .spi 0x10048 = false) ∧ (isKey 0x10048 = true) ∧ (smFind keyed.regs.keys 0x10048 ≠ none)) ∧
    ((haywainDenied .spi 0x20 = false) ∧ (isKey 0x20 = false) ∧ ((findReg 0x20).any (fun x => isLocked (on.setFld F.sysProfileLock 1) x.1 0x20) = true)) ∧
    (((findReg A.sysResetCtl).isSome = true) ∧ (on.fld F.sysResetCtlKey ≠ 0xC0DE) ∧ ((0x10000 : Word).getLsbD 16 = true)) ∧
    ((isAlias 0x102800 = true) ∧ (dataPair (aliasReg 0x102800) = none) ∧ ((findReg (aliasReg 0x102800)).isSome = true) ∧ (haywainDenied .haywain (aliasReg 0x102800) = true)) ∧
    ((isAlias 0x102900 = true) ∧ (dataPair (aliasReg 0x102900) = none) ∧ ((findReg (aliasReg 0x102900)).isSome = true) ∧ (isKey (aliasReg 0x102900) = true) ∧ (smFind keyed.regs.keys (aliasReg 0x102900) ≠ none)) ∧
    ((isAlias 0x100400 = true) ∧ (dataPair (aliasReg 0x100400) = none) ∧ (isKey (aliasReg 0x100400) = false) ∧ ((findReg (aliasReg 0x100400)).any (fun x => isLocked (on.setFld F.sysProfileLock 1) x.1 (aliasReg 0x100400) && x.1.lkw.getLsbD (aliasBit 0x100400)) = true)) ∧
    ((isAlias (0x100000 + A.sysResetCtl * 32 + 64) = true) ∧ (aliasReg (0x100000 + A.sysResetCtl * 32 + 64) = A.sysResetCtl) ∧ (aliasBit (0x100000 + A.sysResetCtl * 32 + 64) = 16) ∧ (dataPair A.sysResetCtl = none)) ∧
    ((on.takes .spi) ∧ (on.fld F.sysResetCtlKey ≠ 0xC0DE) ∧ ((0x10000 : Word).getLsbD 16 = true)) ∧
    (((proving badVerdict).isUp) ∧ ((proving badVerdict).scene.inHand = some (.strobe (0x80 : BitVec 16) (0x80 : BitVec 16) ([] : List (Nat × Word)) ([]), badVerdict)) ∧ (badVerdict.reason ≠ 0)) ∧
    ((badLane.takes .spi) ∧ ((0x100 : Word).setWidth 16 ≠ (0 : BitVec 16)) ∧ ((0x100 : Word).getLsbD 6 = false) ∧ ((0x100 : Word).getLsbD 7 = false) ∧ (((otherOwn badLane (((0x100 : Word)).setWidth 16) (strobeView badLane ((setBitsBelow 16 (((0x100 : Word)).setWidth 16 : BitVec 16).toNat).flatMap (shadowWords badLane)))).head?).isSome = true)) := by
  and_intros
  all_goals
    first
    | decide +kernel
    | exact rfl

theorem test_witness_KeyWords :
    ((on.takes .spi) ∧ (Path.spi ≠ .haywain) ∧ (smFind on.regs.keys (A.ringKey (2 : Fin 4)) = none)) ∧
    ((keyed.takes .spi) ∧ (Path.spi ≠ .haywain) ∧ (smFind keyed.regs.keys (A.ringKey (2 : Fin 4)) ≠ none)) ∧
    ((keyed.reg (A.ringKey (2 : Fin 4)) = 0)) := by
  and_intros
  all_goals
    first
    | decide +kernel
    | exact rfl

theorem test_witness_WordPairs :
    ((on.takes .spi)) ∧
    ((loHeld.takes .spi) ∧ (smFind loHeld.regs.loHeld A.ringMacLo = some 5)) ∧
    ((on.takes .spi) ∧ (smFind on.regs.loHeld A.ringMacLo = none)) := by
  and_intros
  all_goals
    first
    | decide +kernel
    | exact rfl

theorem test_witness_AliasAndClear :
    ((on.takes .spi)) ∧
    ((on.takes .spi)) := by
  and_intros
  all_goals
    first
    | decide +kernel
    | exact rfl

theorem test_witness_OneAccess :
    ((on.takes .spi)) ∧
    ((State.reset.pow.started = false)) ∧
    ((([1, 2, 3, 4] : List Byte).length = 4)) ∧
    ((on.isUp) ∧ (([1, 2, 3, 4] : List Byte).length = 4)) ∧
    ((([1, 2, 3] : List Byte).length < 4)) ∧
    ((on.isUp) ∧ (4 ≤ ([1, 2, 3, 4, 5, 6, 7, 8] : List Byte).length) ∧ ((accessWrite on .spi ((0x10058 : BitVec 24).setWidth 32) (leWord ([1, 2, 3, 4, 5, 6, 7, 8] : List Byte))).reset = false)) := by
  and_intros
  all_goals
    first
    | decide +kernel
    | exact rfl

theorem test_witness_SpiReads :
    ((on.isUp)) := by
  and_intros
  all_goals
    first
    | decide +kernel
    | exact rfl

theorem test_witness_IndexWrites :
    ((on.takes .spi)) := by
  and_intros
  all_goals
    first
    | decide +kernel
    | exact rfl

theorem test_witness_TableData :
    (((latched).takes .spi) ∧ (Selects latched .spi 0 0 9) ∧ ((indexAt A.objGranIndex 0x11000008).takes .spi) ∧ (Selects (indexAt A.objGranIndex 0x11000008) .spi 0 1 8) ∧ (Selects (loftAt 0x10000005) .spi 1 0 5) ∧ (Selects (indexAt A.layerLutIndex 0x10000003) .spi 2 0 3) ∧ (Selects (indexAt A.pipeLutIndex 0x10000003) .spi 3 0 3) ∧ (Selects (indexAt A.schedGclIndex 0x10000004) .spi 4 0 4) ∧ (Selects (indexAt A.barnIndex 0x11000007) .spi 5 1 7) ∧ (Selects (indexAt A.barnIndex 0x12000007) .spi 5 2 7) ∧ (Selects (indexAt A.perfSnapIndex 0x10000006) .spi 6 0 6)) ∧
    (((indexAt A.barnIndex 0x10000007).takes .spi) ∧ (Selects (indexAt A.barnIndex 0x10000007) .spi 5 0 7) ∧ (planeBusy (indexAt A.barnIndex 0x10000007) (norPlane (4 * 7)) = false)) ∧
    (((busyPlane 0x10800000).takes .spi) ∧ (Selects (busyPlane 0x10800000) .spi 5 0 8388608) ∧ (planeBusy (busyPlane 0x10800000) (norPlane (4 * 8388608)) = true)) ∧
    (((indexAt A.objGranIndex 0x10000008).takes .spi) ∧ (Selects (indexAt A.objGranIndex 0x10000008) .spi (0 : Fin 7) 0 8) ∧ (8 < pairWords (0 : Fin 7) 0) ∧ (pairTable (0 : Fin 7) 0 = true) ∧ (¬((0 : Fin 7) = 5 ∧ 0 = 0)) ∧ (8 % pairEntry (0 : Fin 7) = 0)) ∧
    ((latched.takes .spi) ∧ (Selects latched .spi (0 : Fin 7) 0 9) ∧ (9 < pairWords (0 : Fin 7) 0) ∧ (pairTable (0 : Fin 7) 0 = true) ∧ (9 % pairEntry (0 : Fin 7) ≠ 0) ∧ ((bankOf latched .spi (0 : Fin 7)).latch = some (0, 9 / pairEntry (0 : Fin 7) * pairEntry (0 : Fin 7), ([0, 0, 0, 0, 0, 0, 0, 0])))) ∧
    (((loftAt 0x10FFFFFF).takes .spi) ∧ (Selects (loftAt 0x10FFFFFF) .spi (1 : Fin 7) 0 16777215) ∧ (pairWords (1 : Fin 7) 0 ≤ 16777215)) ∧
    (((indexAt A.schedGclIndex 0x10000200).takes .spi) ∧ (Selects (indexAt A.schedGclIndex 0x10000200) .spi (4 : Fin 7) 0 512) ∧ (pairWords (4 : Fin 7) 0 ≤ 512)) ∧
    (((indexAt A.layerLutIndex 0x11000003).takes .spi) ∧ (Selects (indexAt A.layerLutIndex 0x11000003) .spi (2 : Fin 7) 1 3) ∧ (3 < pairWords (2 : Fin 7) 1) ∧ (pairTable (2 : Fin 7) 1 = false)) ∧
    (((indexAt A.layerLutIndex 0x11000003).takes .spi) ∧ (Selects (indexAt A.layerLutIndex 0x11000003) .spi (2 : Fin 7) 1 3) ∧ (3 < pairWords (2 : Fin 7) 1) ∧ (pairTable (2 : Fin 7) 1 = false ∨ ((2 : Fin 7).val ≤ 3 ∧ 1 < (indexAt A.layerLutIndex 0x11000003).fld F.sysStateState) ∨ ((2 : Fin 7) = 5 ∧ 1 = 2) ∨ ((2 : Fin 7) = 5 ∧ 1 = 0 ∧ (rawWritable (indexAt A.layerLutIndex 0x11000003) (4 * 3) = false ∨ ∃ p m, (indexAt A.layerLutIndex 0x11000003).barn.rawBusy = some (false, p, m) ∧ p ≠ 3 / 64)) ∨ (2 : Fin 7) = 6)) ∧
    ((((loftAt 0x10000005).setFld F.sysStateState 2).takes .spi) ∧ (Selects ((loftAt 0x10000005).setFld F.sysStateState 2) .spi (1 : Fin 7) 0 5) ∧ (5 < pairWords (1 : Fin 7) 0) ∧ (pairTable (1 : Fin 7) 0 = false ∨ ((1 : Fin 7).val ≤ 3 ∧ 1 < ((loftAt 0x10000005).setFld F.sysStateState 2).fld F.sysStateState) ∨ ((1 : Fin 7) = 5 ∧ 0 = 2) ∨ ((1 : Fin 7) = 5 ∧ 0 = 0 ∧ (rawWritable ((loftAt 0x10000005).setFld F.sysStateState 2) (4 * 5) = false ∨ ∃ p m, ((loftAt 0x10000005).setFld F.sysStateState 2).barn.rawBusy = some (false, p, m) ∧ p ≠ 5 / 64)) ∨ (1 : Fin 7) = 6)) ∧
    (((indexAt A.barnIndex 0x12000007).takes .spi) ∧ (Selects (indexAt A.barnIndex 0x12000007) .spi (5 : Fin 7) 2 7) ∧ (7 < pairWords (5 : Fin 7) 2) ∧ (pairTable (5 : Fin 7) 2 = false ∨ ((5 : Fin 7).val ≤ 3 ∧ 1 < (indexAt A.barnIndex 0x12000007).fld F.sysStateState) ∨ ((5 : Fin 7) = 5 ∧ 2 = 2) ∨ ((5 : Fin 7) = 5 ∧ 2 = 0 ∧ (rawWritable (indexAt A.barnIndex 0x12000007) (4 * 7) = false ∨ ∃ p m, (indexAt A.barnIndex 0x12000007).barn.rawBusy = some (false, p, m) ∧ p ≠ 7 / 64)) ∨ (5 : Fin 7) = 6)) ∧
    (((indexAt A.barnIndex 0x10800000).takes .spi) ∧ (Selects (indexAt A.barnIndex 0x10800000) .spi (5 : Fin 7) 0 8388608) ∧ (8388608 < pairWords (5 : Fin 7) 0) ∧ (pairTable (5 : Fin 7) 0 = false ∨ ((5 : Fin 7).val ≤ 3 ∧ 1 < (indexAt A.barnIndex 0x10800000).fld F.sysStateState) ∨ ((5 : Fin 7) = 5 ∧ 0 = 2) ∨ ((5 : Fin 7) = 5 ∧ 0 = 0 ∧ (rawWritable (indexAt A.barnIndex 0x10800000) (4 * 8388608) = false ∨ ∃ p m, (indexAt A.barnIndex 0x10800000).barn.rawBusy = some (false, p, m) ∧ p ≠ 8388608 / 64)) ∨ (5 : Fin 7) = 6)) ∧
    (((indexAt A.perfSnapIndex 0x10000006).takes .spi) ∧ (Selects (indexAt A.perfSnapIndex 0x10000006) .spi (6 : Fin 7) 0 6) ∧ (6 < pairWords (6 : Fin 7) 0) ∧ (pairTable (6 : Fin 7) 0 = false ∨ ((6 : Fin 7).val ≤ 3 ∧ 1 < (indexAt A.perfSnapIndex 0x10000006).fld F.sysStateState) ∨ ((6 : Fin 7) = 5 ∧ 0 = 2) ∨ ((6 : Fin 7) = 5 ∧ 0 = 0 ∧ (rawWritable (indexAt A.perfSnapIndex 0x10000006) (4 * 6) = false ∨ ∃ p m, (indexAt A.perfSnapIndex 0x10000006).barn.rawBusy = some (false, p, m) ∧ p ≠ 6 / 64)) ∨ (6 : Fin 7) = 6)) ∧
    (((loftAt 0x10000005).takes .spi) ∧ ((loftAt 0x10000005).fld F.sysStateState ≤ 1) ∧ (5 < 2097152) ∧ (Selects (loftAt 0x10000005) .spi 1 0 5)) ∧
    (((indexAt A.layerLutIndex 0x10000003).takes .spi) ∧ ((indexAt A.layerLutIndex 0x10000003).fld F.sysStateState ≤ 1) ∧ (3 < 98304) ∧ (Selects (indexAt A.layerLutIndex 0x10000003) .spi 2 0 3)) ∧
    (((indexAt A.pipeLutIndex 0x10000003).takes .spi) ∧ ((indexAt A.pipeLutIndex 0x10000003).fld F.sysStateState ≤ 1) ∧ (3 < 8192) ∧ (Selects (indexAt A.pipeLutIndex 0x10000003) .spi 3 0 3)) ∧
    (((indexAt A.barnIndex 0x11000007).takes .spi) ∧ (7 < 60) ∧ (Selects (indexAt A.barnIndex 0x11000007) .spi 5 1 7)) ∧
    (((indexAt A.schedGclIndex 0x10000004).takes .spi) ∧ ((4 : Fin 7) = 4 ∨ ((4 : Fin 7) = 0 ∧ (indexAt A.schedGclIndex 0x10000004).fld F.sysStateState ≤ 1)) ∧ (Selects (indexAt A.schedGclIndex 0x10000004) .spi (4 : Fin 7) 0 4) ∧ (4 < pairWords (4 : Fin 7) 0) ∧ (pairTable (4 : Fin 7) 0 = true) ∧ (4 % pairEntry (4 : Fin 7) + 1 < pairEntry (4 : Fin 7))) ∧
    (((indexAt A.objGranIndex 0x10000008).takes .spi) ∧ ((0 : Fin 7) = 4 ∨ ((0 : Fin 7) = 0 ∧ (indexAt A.objGranIndex 0x10000008).fld F.sysStateState ≤ 1)) ∧ (Selects (indexAt A.objGranIndex 0x10000008) .spi (0 : Fin 7) 0 8) ∧ (8 < pairWords (0 : Fin 7) 0) ∧ (pairTable (0 : Fin 7) 0 = true) ∧ (8 % pairEntry (0 : Fin 7) + 1 < pairEntry (0 : Fin 7))) ∧
    ((buffered.takes .spi) ∧ (5 < 512) ∧ (Selects buffered .spi 4 0 5) ∧ (5 % 2 = 1) ∧ ((∀ e ∈ bufferedWords buffered .spi 4 0 5, e.1 = 0)) ∧ ((bufferedWords buffered .spi 4 0 5).length ≤ 1)) ∧
    (((indexAt A.objGranIndex 0x1000000F).takes .spi) ∧ ((indexAt A.objGranIndex 0x1000000F).fld F.sysStateState ≤ 1) ∧ (0 ≤ 1) ∧ (15 < 327680) ∧ (Selects (indexAt A.objGranIndex 0x1000000F) .spi 0 0 15) ∧ (15 % 8 = 7) ∧ ((∀ e ∈ bufferedWords (indexAt A.objGranIndex 0x1000000F) .spi 0 0 15, e.1 < 7)) ∧ (((bufferedWords (indexAt A.objGranIndex 0x1000000F) .spi 0 0 15).map (·.1)).Nodup)) := by
  and_intros
  all_goals
    first
    | decide +kernel
    | exact rfl
    | exact .inl (by decide +kernel)
    | exact .inr (.inl (by decide +kernel))
    | exact .inr (.inr (.inl (by decide +kernel)))
    | exact .inr (.inr (.inr (.inl ⟨rfl, rfl, .inl (by decide +kernel)⟩)))
    | exact .inr (.inr (.inr (.inr rfl)))

theorem test_witness_Strobes :
    (((on.setShadow A.lightDimCfg 0x80012345).takes .spi) ∧ ((0x200 : Word).setWidth 16 ≠ (0 : BitVec 16)) ∧ ((0x200 : Word).getLsbD 6 = false) ∧ ((0x200 : Word).getLsbD 7 = false) ∧ (otherOwn (on.setShadow A.lightDimCfg 0x80012345) ((0x200 : Word).setWidth 16) (strobeView (on.setShadow A.lightDimCfg 0x80012345) ((setBitsBelow 16 ((0x200 : Word).setWidth 16 : BitVec 16).toNat).flatMap (shadowWords (on.setShadow A.lightDimCfg 0x80012345)))) = [])) ∧
    ((badLane.takes .spi) ∧ ((0x100 : Word).setWidth 16 ≠ (0 : BitVec 16)) ∧ ((0x100 : Word).getLsbD 6 = false) ∧ ((0x100 : Word).getLsbD 7 = false)) ∧
    (((on.setShadow A.lightDimCfg 0x80012345).takes .spi) ∧ ((0x200 : Word).setWidth 16 ≠ (0 : BitVec 16)) ∧ ((∀ i ∈ [6, 7, 8, 10], (0x200 : Word).getLsbD i = false)) ∧ (otherOwn (on.setShadow A.lightDimCfg 0x80012345) ((0x200 : Word).setWidth 16) (strobeView (on.setShadow A.lightDimCfg 0x80012345) ((setBitsBelow 16 ((0x200 : Word).setWidth 16 : BitVec 16).toNat).flatMap (shadowWords (on.setShadow A.lightDimCfg 0x80012345)))) = [])) ∧
    ((on.takes .spi)) ∧
    ((on.takes .spi) ∧ (otherOwn on 0x100 (strobeView on (shadowWords on 8)) = [])) ∧
    ((on.takes .spi) ∧ (otherOwn on 0x100 (strobeView on (shadowWords on 8)) = []) ∧ ((∀ i ∈ laneItems, laneHost on (strobeView on (shadowWords on 8)) i = none))) ∧
    ((on.takes .spi) ∧ ((0x80 : Word).getLsbD 6 || (0x80 : Word).getLsbD 7)) ∧
    (((0x10000 : Word).setWidth 16 = (0 : BitVec 16))) ∧
    (((proving badVerdict).isUp) ∧ ((proving badVerdict).scene.inHand = some (.strobe (0x80 : BitVec 16) (0x80 : BitVec 16) ([] : List (Nat × Word)) ([]), badVerdict)) ∧ (badVerdict.reason ≠ 0)) ∧
    (((proving goodVerdict).isUp) ∧ ((proving goodVerdict).scene.inHand = some (.strobe (0x80 : BitVec 16) (0x80 : BitVec 16) ([] : List (Nat × Word)) ([]), goodVerdict)) ∧ (goodVerdict.reason = 0)) ∧
    ((pipeStrobe.isUp) ∧ (pipeStrobe.scene.inHand = some (.strobe (0x80 : BitVec 16) 0x80 ([(A.pipeHtime0 2, (5 : Word))]) ([]), goodVerdict)) ∧ (goodVerdict.reason = 0) ∧ ((∀ p, (pipeStrobe.pipe p).gen = .stopped)) ∧ ((([(A.pipeHtime0 2, (5 : Word))]).map (·.1)).Nodup)) ∧
    (((∀ n b w g v, on.scene.inHand ≠ some (.strobe n b w g, v)))) := by
  and_intros
  all_goals
    first
    | decide +kernel
    | exact rfl
    | exact fun _ => rfl
    | exact fun _ _ _ _ _ h => by cases h

theorem test_witness_FrameChecks :
    ((messageOf (.keepalive deaf) = some (deaf, tyKeepalive, ([]))) ∧ (listens (rxConfig open7 deaf.session) deaf = false)) ∧
    ((open7.isUp) ∧ (messageOf (.keepalive muddled) = some (muddled, tyKeepalive, ([]))) ∧ (listens (rxConfig open7 muddled.session) muddled = true) ∧ (open7.pow.started = false ∨ frameSound (rxConfig open7 muddled.session) muddled tyKeepalive = false ∨ sessionOf open7 muddled.session = none)) ∧
    ((open7.isUp) ∧ (messageOf (.keepalive notOurs) = some (notOurs, tyKeepalive, ([]))) ∧ (listens (rxConfig open7 notOurs.session) notOurs = true) ∧ (open7.pow.started = false ∨ frameSound (rxConfig open7 notOurs.session) notOurs tyKeepalive = false ∨ sessionOf open7 notOurs.session = none)) ∧
    ((open7.isUp) ∧ (messageOf (.keepalive wrongType) = some (wrongType, tyKeepalive, ([]))) ∧ (listens (rxConfig open7 wrongType.session) wrongType = true) ∧ (open7.pow.started = false ∨ frameSound (rxConfig open7 wrongType.session) wrongType tyKeepalive = false ∨ sessionOf open7 wrongType.session = none)) ∧
    ((open7.isUp) ∧ (messageOf (.keepalive badTag) = some (badTag, tyKeepalive, ([]))) ∧ (listens (rxConfig open7 badTag.session) badTag = true) ∧ (open7.pow.started = true) ∧ (frameSound (rxConfig open7 badTag.session) badTag tyKeepalive = true) ∧ (sessionOf open7 badTag.session = some (theSess, false)) ∧ (rxBody badTag ([]) = some ([])) ∧ (tagOf open7 (some (theSess, false).1.devNonce) (rxHeader badTag tyKeepalive) ([]) ≠ badTag.tag)) ∧
    ((open7.isUp) ∧ (messageOf (.keepalive keep5) = some (keep5, tyKeepalive, ([]))) ∧ (tyKeepalive ≠ tyAck) ∧ (Verified open7 keep5 tyKeepalive ([])) ∧ (keep5.seq ≠ (received open7 keep5).hw.rxLast + 1) ∧ (2 ^ 31 ≤ dist (received open7 keep5).hw.rxLast keep5.seq)) ∧
    ((open7.isUp) ∧ (messageOf (.keepalive keep0) = some (keep0, tyKeepalive, ([]))) ∧ (tyKeepalive ≠ tyAck) ∧ (Verified open7 keep0 tyKeepalive ([])) ∧ (keep0.seq ≠ (received open7 keep0).hw.rxLast + 1) ∧ (dist (received open7 keep0).hw.rxLast keep0.seq < 2 ^ 31)) := by
  and_intros
  all_goals
    first
    | decide +kernel
    | exact rfl
    | exact ⟨theSess, _, rfl, rfl, tagged_tag _ _ _ _ _⟩
    | exact badTag_off

theorem test_witness_OpenSession :
    ((keyed4.isUp) ∧ (listens (sessAtOpen keyed4 0 0 0 openFrame8.link) openFrame8 = true) ∧ (keyed4.pow.started = true) ∧ (keyComplete keyed4 = true) ∧ (transportOf (sessAtOpen keyed4 0 0 0 openFrame8.link) ≠ 3) ∧ (frameSound (sessAtOpen keyed4 0 0 0 openFrame8.link) openFrame8 tyOpen = true) ∧ (openFrame8.length = 8) ∧ (tagOf keyed4 none (rxHeader openFrame8 tyOpen) (leBytes 8 (77 : BitVec 64).toNat) = openFrame8.tag)) ∧
    ((linked.isUp) ∧ (listens (sessAtOpen linked 0 0 0 openFrame8.link) openFrame8 = true) ∧ (linked.pow.started = false ∨ keyComplete linked = false)) ∧
    ((opening7.isUp) ∧ (listens (rxConfig opening7 keep1.session) keep1 = true) ∧ (opening7.pow.started = true) ∧ (frameSound (rxConfig opening7 keep1.session) keep1 tyKeepalive = true) ∧ (sessionOf opening7 keep1.session = some (theSess, true)) ∧ (rxBody keep1 [] = some ([])) ∧ (tagOf opening7 (some theSess.devNonce) (rxHeader keep1 tyKeepalive) ([]) = keep1.tag) ∧ (keep1.seq = 1)) ∧
    ((opening7.isUp) ∧ (opening7.hw.opening ≠ none)) ∧
    ((linked.hw.opening = none)) := by
  and_intros
  all_goals
    first
    | decide +kernel
    | exact rfl
    | exact tagged_tag _ _ _ _ _
    | exact (tag_keys (s := opening7) (t := open7) rfl _ _ _).trans (tagged_tag _ _ _ _ _)

theorem test_witness_SessionFrames :
    ((open7.isUp) ∧ (Verified open7 ack1 tyAck [])) ∧
    ((open7.isUp) ∧ (Verified open7 ack1 tyAck []) ∧ (open7.hw.waiting = [])) ∧
    ((open7.isUp) ∧ (InSequence open7 keep1 tyKeepalive [])) ∧
    ((open7.isUp) ∧ (InSequence open7 close1 tyClose [])) ∧
    ((open7.isUp) ∧ (InSequence open7 close1 tyClose [])) ∧
    ((open7.isUp) ∧ (InSequence open7 (doorFrame 0) tyDoorbell ((DbEntry.mk 0 0 0 0 :: ([])).flatMap doorBytes))) ∧
    ((open7.isUp) ∧ (InSequence open7 (doorFrame 1) tyDoorbell ((DbEntry.mk 1 0 0 0 :: ([])).flatMap doorBytes))) ∧
    ((open7.isUp) ∧ (InSequence open7 (doorFrame 2) tyDoorbell ((DbEntry.mk 2 0 0 0 :: ([])).flatMap doorBytes))) ∧
    ((open7.isUp) ∧ (InSequence open7 (doorFrame 3) tyDoorbell ((DbEntry.mk 3 0 0 0 :: ([])).flatMap doorBytes))) ∧
    ((open7.isUp) ∧ (InSequence open7 respFrame tyReadResp (leBytes 2 (3 : BitVec 16).toNat ++ leBytes 1 (0 : BitVec 8).toNat ++ [0] ++ ([1, 2, 3, 4, 5, 6, 7, 8])))) ∧
    ((readsSlot.isUp) ∧ (InSequence readsSlot slotFrame tyReadResp (leBytes 2 (3 : BitVec 16).toNat ++ leBytes 1 0 ++ [0] ++ (List.replicate 32 (7 : Byte)))) ∧ ((accepted readsSlot slotFrame).hw.reads.find? (fun x => x.id == (3 : BitVec 16) && x.sent) = some slotRead) ∧ (slotRead.for_ = .slots (0 : Fin 32) (0 : BitVec 32) 1) ∧ ((readsSlot.ring (0 : Fin 32)).reading = some slotRead.id) ∧ (((List.replicate 32 (7 : Byte)).take (slotFrame.length.toNat - 4)).length = slotRead.len)) ∧
    ((open7.isUp) ∧ (InSequence open7 rdFrame tyRegRd (regHead (0x10058 : Word) 2 false.toNat 0 ++ ([])))) ∧
    ((open7.isUp) ∧ (InSequence open7 wrFrame tyRegWr (regHead (0x10058 : Word) 1 false.toNat 0 ++ ([5] : List Word).flatMap (fun w => leBytes 4 w.toNat) ++ ([])))) := by
  and_intros
  all_goals
    first
    | decide +kernel
    | exact rfl
    | exact ⟨theSess, _, rfl, rfl, tagged_tag _ _ _ _ _⟩

theorem test_witness_RegisterFrames :
    ((((65 : BitVec 8).toNat < 1 ∨ 64 < (65 : BitVec 8).toNat ∨ rdFrame.length ≠ 8))) ∧
    ((((2 : BitVec 8).toNat < 1 ∨ 64 < (2 : BitVec 8).toNat ∨ wrFrame.length.toNat ≠ 8 + 4 * (2 : BitVec 8).toNat))) ∧
    ((1 ≤ (2 : BitVec 8).toNat) ∧ ((2 : BitVec 8).toNat ≤ 64) ∧ (rdFrame.length = 8) ∧ ((readRun open7 0x12 2 false).status ≠ 0)) ∧
    ((open7.isUp) ∧ (rd1Frame.length = 8) ∧ (InSequence open7 rd1Frame tyRegRd (regHead (0x10058 : Word) 1 false.toNat 0 ++ ([])))) ∧
    ((open7.isUp) ∧ (wrFrame.length = 12) ∧ (InSequence open7 wrFrame tyRegWr (regHead (0x10058 : Word) 1 false.toNat 0 ++ leBytes 4 (5 : Word).toNat)) ∧ ((accessWrite (accepted open7 wrFrame) .haywain (0x10058 : Word) (5 : Word)).reset = false)) := by
  and_intros
  all_goals
    first
    | decide +kernel
    | exact rfl
    | exact ⟨theSess, _, rfl, rfl, tagged_tag _ _ _ _ _⟩

theorem test_witness_SendWindow :
    ((open7.hw.unacked.length ≤ 64)) := by
  and_intros
  all_goals
    decide +kernel

theorem test_witness_SessionTimers :
    ((owed.isUp) ∧ (owed.hw.ackOwed = true) ∧ (owed.hw.cur ≠ none) ∧ (linkUsable owed (activeLink owed) = true)) ∧
    ((owedB.isUp) ∧ (owedB.hw.ackOwed = true) ∧ (owedB.hw.cur ≠ none) ∧ (linkUsable owedB (activeLink owedB) = false) ∧ (linkUsable owedB (linkOther (activeLink owedB)) = true)) ∧
    ((open7.hw.ackOwed = false)) ∧
    ((open7.takes .spi) ∧ (open7.hw.cur ≠ none)) ∧
    ((open7.takes .spi) ∧ (open7.hw.cur ≠ none) ∧ (open7.dma = []) ∧ ((∀ n, n < 32 → ringState open7 n ≠ 1 ∧ ringState open7 n ≠ 2)) ∧ (open7.fault.held = []) ∧ ((∀ q : Fin 8, open7.fld (F.evtQctlState q) ≠ 1))) ∧
    ((linked.takes .spi) ∧ (linked.hw.cur = none)) ∧
    ((open7.isUp) ∧ (open7.hw.cur = some theSess) ∧ (theSess.keepalive ≠ 0) ∧ (linkUsable open7 (activeLink open7) = true)) ∧
    ((open7.isUp) ∧ (open7.hw.cur = some theSess) ∧ (theSess.keepalive ≠ 0) ∧ (linkUsable open7 (activeLink open7) = true) ∧ (open7.hw.waiting = []) ∧ (open7.hw.unacked.length < 64)) ∧
    ((noKeep.hw.cur = some ({ theSess with keepalive := 0 })) ∧ (({ theSess with keepalive := 0 }).keepalive = 0)) ∧
    ((sentOne.isUp) ∧ (sentOne.hw.cur ≠ none) ∧ (sentOne.hw.unacked ≠ []) ∧ (linkUsable sentOne (activeLink sentOne) = true) ∧ (takeOverWaits sentOne = false) ∧ ((∀ f ∈ sentOne.hw.unacked, f.sends < 3))) ∧
    ((sentThrice.isUp) ∧ (sentThrice.hw.cur ≠ none) ∧ (linkUsable sentThrice (activeLink sentThrice) = true) ∧ (takeOverWaits sentThrice = false) ∧ (aged ∈ sentThrice.hw.unacked) ∧ (3 ≤ aged.sends)) := by
  and_intros
  all_goals
    first
    | decide +kernel
    | exact rfl
    | exact List.mem_singleton.mpr rfl

theorem test_witness_LinkEvents :
    ((open7.isUp) ∧ (linkAsleep open7 (.a) = false) ∧ (linkIsUp open7 (.a) = true) ∧ (open7.hw.waking.getLsbD (linkIdx (.a)) = false)) ∧
    ((bothUp.isUp) ∧ (linkAsleep bothUp (.b) = false) ∧ (linkIsUp bothUp (.b) = true) ∧ (bothUp.hw.waking.getLsbD (linkIdx (.b)) = false)) ∧
    ((bothUp.isUp) ∧ (linkAsleep bothUp .b = false) ∧ (linkIsUp bothUp .b = true) ∧ (bothUp.hw.waking.getLsbD (linkIdx .b) = false) ∧ (activeLink bothUp = .a) ∧ (FailsFirst bothUp (linkUnit .b))) ∧
    ((linkIsUp open7 (.b) = false) ∧ (open7.hw.waking.getLsbD (linkIdx (.b)) = false)) ∧
    ((linked.isUp) ∧ (Link.a = .a ∨ linked.pow.started = true) ∧ (linked.hw.cur = none) ∧ (activeLink linked = Link.a)) ∧
    ((open7.isUp) ∧ (Link.b = .a ∨ open7.pow.started = true)) ∧
    ((State.reset.pow.started = false)) ∧
    ((accepting.isUp) ∧ (linkIsUp accepting Link.a = true) ∧ (acceptsSleep accepting Link.a = true) ∧ (accepting.hw.unacked = []) ∧ (accepting.hw.waiting = []) ∧ (Link.a = .b ∨ accepting.flag F.pipePtpCfgEn = false)) ∧
    ((accepting.isUp) ∧ (linkIsUp accepting .a = true) ∧ (acceptsSleep accepting .a = true) ∧ (accepting.hw.unacked = []) ∧ (accepting.hw.waiting = [])) ∧
    ((linked.isUp) ∧ (linkIsUp linked Link.a = true) ∧ (acceptsSleep linked Link.a = false ∨ (activeLink linked = Link.a ∧ (linked.hw.unacked ≠ [] ∨ linked.hw.waiting ≠ [])))) ∧
    ((busyLink.isUp) ∧ (linkIsUp busyLink Link.a = true) ∧ (acceptsSleep busyLink Link.a = false ∨ (activeLink busyLink = Link.a ∧ (busyLink.hw.unacked ≠ [] ∨ busyLink.hw.waiting ≠ [])))) ∧
    ((asleepB.isUp) ∧ (linkAsleep asleepB Link.b = true)) ∧
    ((asleepB.takes .spi) ∧ (linkAsleep asleepB Link.b = true) ∧ (Link.b = .a ∨ asleepB.pow.started = true)) ∧
    ((State.reset.pow.started = false)) ∧
    ((linkAsleep open7 Link.b = false)) := by
  and_intros
  all_goals
    first
    | decide +kernel
    | exact rfl

theorem test_witness_AddressReplies :
    ((linked.isUp) ∧ (hears linked Link.a (NetFrame.mk true (BitVec.allOnes 48) none) = true) ∧ ((NetFrame.mk true (BitVec.allOnes 48) none).fcsOk = true) ∧ ((NetFrame.mk true (BitVec.allOnes 48) none).dstMac = (pageNow linked).mac ∨ (NetFrame.mk true (BitVec.allOnes 48) none).dstMac = BitVec.allOnes 48)) ∧
    ((linked.isUp) ∧ (hears linked Link.a (NetFrame.mk true (solicitedMac (pageNow linked).ip6Local) none) = true) ∧ ((NetFrame.mk true (solicitedMac (pageNow linked).ip6Local) none).fcsOk = true) ∧ ((NetFrame.mk true (solicitedMac (pageNow linked).ip6Local) none).dstMac = (pageNow linked).mac ∨ (NetFrame.mk true (solicitedMac (pageNow linked).ip6Local) none).dstMac = solicitedMac (pageNow linked).ip6Local)) ∧
    ((linked.isUp) ∧ (hears linked Link.a (NetFrame.mk false 0 none) = true) ∧ ((NetFrame.mk false 0 none).fcsOk = false ∨ ((NetFrame.mk false 0 none).dstMac ≠ (pageNow linked).mac ∧ (NetFrame.mk false 0 none).dstMac ≠ BitVec.allOnes 48))) ∧
    ((linked.isUp) ∧ (hears linked Link.a (NetFrame.mk true 5 none) = true) ∧ ((NetFrame.mk true 5 none).fcsOk = false ∨ ((NetFrame.mk true 5 none).dstMac ≠ (pageNow linked).mac ∧ (NetFrame.mk true 5 none).dstMac ≠ BitVec.allOnes 48))) ∧
    ((linked.isUp) ∧ (hears linked Link.a (NetFrame.mk false 0 none) = true) ∧ ((NetFrame.mk false 0 none).fcsOk = false ∨ ((NetFrame.mk false 0 none).dstMac ≠ (pageNow linked).mac ∧ (NetFrame.mk false 0 none).dstMac ≠ solicitedMac (pageNow linked).ip6Local))) ∧
    ((linked.isUp) ∧ (hears linked Link.a (NetFrame.mk true 5 none) = true) ∧ ((NetFrame.mk true 5 none).fcsOk = false ∨ ((NetFrame.mk true 5 none).dstMac ≠ (pageNow linked).mac ∧ (NetFrame.mk true 5 none).dstMac ≠ solicitedMac (pageNow linked).ip6Local))) ∧
    ((linked.isUp) ∧ ((NetFrame.mk true (BitVec.allOnes 48) none).fcsOk = true) ∧ ((1 : Word) ≠ (pageNow linked).ip4Local) ∧ ((NetFrame.mk true (BitVec.allOnes 48) none).dstMac = (pageNow linked).mac ∨ (NetFrame.mk true (BitVec.allOnes 48) none).dstMac = BitVec.allOnes 48)) ∧
    ((linked.isUp) ∧ ((NetFrame.mk true (solicitedMac (pageNow linked).ip6Local) none).fcsOk = true) ∧ ((1 : BitVec 128) ≠ (pageNow linked).ip6Local) ∧ ((NetFrame.mk true (solicitedMac (pageNow linked).ip6Local) none).dstMac = (pageNow linked).mac ∨ (NetFrame.mk true (solicitedMac (pageNow linked).ip6Local) none).dstMac = solicitedMac (pageNow linked).ip6Local)) ∧
    ((hears linked Link.a (NetFrame.mk true 0 (some 3)) = false)) ∧
    ((hears State.reset Link.a (NetFrame.mk true 0 none) = false)) ∧
    ((hears linked Link.a (NetFrame.mk true 0 (some 3)) = false)) ∧
    ((linked.hw.cur = none) ∧ (linked.hw.opening = none)) := by
  and_intros
  all_goals
    first
    | decide +kernel
    | exact rfl

theorem test_witness_EdgeOccurrences :
    (((counted 0).isUp) ∧ (assignedSource (4 : Fin 1024) = true) ∧ (isLevel (counted 0) (4 : Fin 1024) = false) ∧ (edgeFiltered (counted 0) (4 : Fin 1024) = false) ∧ ((counted 0).flag (F.evtSrcCfgEn (4 : Fin 1024)) = true) ∧ ((counted 0).fld (F.evtSrcStatCount (4 : Fin 1024)) = 0)) ∧
    (((countedAsleep 0).isUp) ∧ (assignedSource (4 : Fin 1024) = true) ∧ (isLevel (countedAsleep 0) (4 : Fin 1024) = false) ∧ (edgeFiltered (countedAsleep 0) (4 : Fin 1024) = false) ∧ ((countedAsleep 0).flag (F.evtSrcCfgEn (4 : Fin 1024)) = true) ∧ ((countedAsleep 0).fld (F.evtSrcStatCount (4 : Fin 1024)) = 0)) ∧
    (((counted 7).isUp) ∧ (assignedSource (4 : Fin 1024) = true) ∧ (isLevel (counted 7) (4 : Fin 1024) = false) ∧ (edgeFiltered (counted 7) (4 : Fin 1024) = false) ∧ ((counted 7).flag (F.evtSrcCfgEn (4 : Fin 1024)) = true) ∧ ((counted 7).fld (F.evtSrcStatCount (4 : Fin 1024)) ≠ 0) ∧ ((counted 7).fld (F.evtSrcStatCount (4 : Fin 1024)) ≠ 255)) ∧
    (((countedAsleep 7).isUp) ∧ (assignedSource (4 : Fin 1024) = true) ∧ (isLevel (countedAsleep 7) (4 : Fin 1024) = false) ∧ (edgeFiltered (countedAsleep 7) (4 : Fin 1024) = false) ∧ ((countedAsleep 7).flag (F.evtSrcCfgEn (4 : Fin 1024)) = true) ∧ ((countedAsleep 7).fld (F.evtSrcStatCount (4 : Fin 1024)) ≠ 0) ∧ ((countedAsleep 7).fld (F.evtSrcStatCount (4 : Fin 1024)) ≠ 255)) ∧
    (((countedAsleep 255).isUp) ∧ (assignedSource (4 : Fin 1024) = true) ∧ (isLevel (countedAsleep 255) (4 : Fin 1024) = false) ∧ (edgeFiltered (countedAsleep 255) (4 : Fin 1024) = false) ∧ ((countedAsleep 255).flag (F.evtSrcCfgEn (4 : Fin 1024)) = true) ∧ ((countedAsleep 255).fld (F.evtSrcStatCount (4 : Fin 1024)) = 255)) ∧
    ((on.isUp) ∧ (assignedSource (5 : Fin 1024) = true) ∧ (isLevel on (5 : Fin 1024) = false) ∧ (edgeFiltered on (5 : Fin 1024) = true ∨ on.flag (F.evtSrcCfgEn (5 : Fin 1024)) = false)) ∧
    ((filtered4.isUp) ∧ (assignedSource (4 : Fin 1024) = true) ∧ (isLevel filtered4 (4 : Fin 1024) = false) ∧ (edgeFiltered filtered4 (4 : Fin 1024) = true ∨ filtered4.flag (F.evtSrcCfgEn (4 : Fin 1024)) = false)) ∧
    ((assignedSource (1000 : Fin 1024) = false)) := by
  and_intros
  all_goals
    first
    | decide +kernel
    | exact rfl

theorem test_witness_LevelSources :
    ((warm.isUp) ∧ (assignedSource (0 : Fin 1024) = true) ∧ (isLevel warm (0 : Fin 1024) = true) ∧ (rawCond warm (0 : Fin 1024) = true)) ∧
    ((cooled.isUp) ∧ (assignedSource (0 : Fin 1024) = true) ∧ (isLevel cooled (0 : Fin 1024) = true) ∧ (rawCond cooled (0 : Fin 1024) = false)) ∧
    ((isLevel cooled (0 : Fin 1024) = true) ∧ (rawCond cooled (0 : Fin 1024) ≠ true)) ∧
    ((warmDue.isUp) ∧ (warmDue.sampleDue.contains (0 : Fin 1024).val = true) ∧ (isLevel warmDue (0 : Fin 1024) = true) ∧ (warmDue.flag (F.evtSrcCfgEn (0 : Fin 1024)) = true) ∧ (warmDue.flag (F.evtSrcStatAsserted (0 : Fin 1024)) = true) ∧ (warmDue.fld (F.evtSrcStatCount (0 : Fin 1024)) = 0)) ∧
    ((coldDue.isUp) ∧ (coldDue.sampleDue.contains (0 : Fin 1024).val = true) ∧ (isLevel coldDue (0 : Fin 1024) = false ∨ coldDue.flag (F.evtSrcCfgEn (0 : Fin 1024)) = false ∨ coldDue.flag (F.evtSrcStatAsserted (0 : Fin 1024)) = false ∨ coldDue.fld (F.evtSrcStatCount (0 : Fin 1024)) ≠ 0)) ∧
    ((on.sampleDue.contains (0 : Fin 1024).val = false)) ∧
    ((on.isUp) ∧ (snsLevel on (3 : Fin 8) ≠ true)) ∧
    ((on.isUp) ∧ (snsLevel on (3 : Fin 8) = false)) ∧
    ((waking.isUp) ∧ (waking.pow.wakeOut = true)) ∧
    ((on.pow.wakeOut = false)) := by
  and_intros
  all_goals
    first
    | decide +kernel
    | exact rfl

theorem test_witness_RecordIssue :
    (((pendingTwo 0).isUp) ∧ (nextSource (pendingTwo 0) = some 4)) ∧
    (((pendingTwo 1).isUp) ∧ (nextSource (pendingTwo 1) = some 4)) ∧
    ((nextSource on = none)) := by
  and_intros
  all_goals
    first
    | decide +kernel
    | exact rfl

theorem test_witness_Completions :
    ((on.takes .spi) ∧ (on.flag (F.evtSrcStatActive (4 : Fin 1024)) = false)) ∧
    ((activeFour.takes .spi) ∧ (activeFour.flag (F.evtSrcStatActive (4 : Fin 1024)) = true)) ∧
    ((activeWarm.takes .spi) ∧ (activeWarm.flag (F.evtSrcStatActive (0 : Fin 1024)) = true) ∧ (activeWarm.pow.started = false) ∧ (isLevel activeWarm (0 : Fin 1024) = true) ∧ (activeWarm.flag (F.evtSrcCfgEn (0 : Fin 1024)) = true) ∧ (activeWarm.flag (F.evtSrcStatAsserted (0 : Fin 1024)) = true) ∧ (activeWarm.fld (F.evtSrcStatCount (0 : Fin 1024)) = 0)) := by
  and_intros
  all_goals
    first
    | decide +kernel
    | exact rfl

theorem test_witness_EventControls :
    ((on.takes .spi)) ∧
    ((on.takes .spi)) ∧
    ((open7.takes .spi) ∧ (open7.hw.cur ≠ none)) ∧
    ((on.takes .spi)) ∧
    ((on.takes .spi)) ∧
    ((((open7.setFld (F.evtQctlQmask 0) 1).setReg (A.evtQpi 0) 3).takes .spi) ∧ (((open7.setFld (F.evtQctlQmask 0) 1).setReg (A.evtQpi 0) 3).flag (F.evtQctlQmask (0 : Fin 8)) = true) ∧ (((open7.setFld (F.evtQctlQmask 0) 1).setReg (A.evtQpi 0) 3).hw.cur ≠ none) ∧ (((open7.setFld (F.evtQctlQmask 0) 1).setReg (A.evtQpi 0) 3).reg (A.evtQpi (0 : Fin 8)) ≠ ((open7.setFld (F.evtQctlQmask 0) 1).setReg (A.evtQpi 0) 3).reg (A.evtHostCi (0 : Fin 8)))) ∧
    ((on.takes .spi) ∧ (on.flag (F.evtQctlQmask (0 : Fin 8)) = false)) ∧
    ((on.takes .spi)) ∧
    (((⟨A.evtSrcStat 4, 1, 0⟩ : Fld).addr = A.evtSrcStat 4) ∧ ((⟨A.evtSrcStat 4, 1, 0⟩ : Fld).hi < 29)) ∧
    (((F.evtSrcStatActive 4).addr = A.evtSrcStat 4) ∧ (29 < (F.evtSrcStatActive 4).lo)) := by
  and_intros
  all_goals
    first
    | decide +kernel
    | exact rfl

theorem test_witness_DescriptorsArrive :
    (((ringOf 1).isUp) ∧ (Serves (ringOf 1) (0 : Fin 32))) ∧
    ((ServesDma (ringOf 2) (0 : Fin 32) (0 : Fin 28)) ∧ (dmaCheck 0x40 copyBody = 0) ∧ (dmaCheck 0x41 (dmaBody 0 8 0x1004 7) = 0) ∧ (dmaCheck 0x42 (dmaBody 0 7 0x1004 0) = 0)) ∧
    ((ServesDma (ringOf 2) (0 : Fin 32) (0 : Fin 28)) ∧ (dmaCheck 0x40 badCopy ≠ 0) ∧ (dmaCheck 0x41 badCopy ≠ 0) ∧ (dmaCheck 0x42 badCopy ≠ 0)) ∧
    (((Instr.nop 0 hdr0 0).descriptor = some (0 : Fin 32)) ∧ (¬Serves on (0 : Fin 32))) := by
  and_intros
  all_goals
    first
    | decide +kernel
    | exact rfl
    | exact .inr ⟨rfl, by decide +kernel⟩
    | exact (fun h => absurd h.1 (by decide +kernel))

theorem test_witness_SceneStaging :
    ((ServesScene (ringOf 1) (0 : Fin 32))) ∧
    ((ServesScene (ringOf 1) (0 : Fin 32)) ∧ (jumpTarget jumpBody % 32 = 0)) ∧
    ((ServesScene (ringOf 1) (0 : Fin 32)) ∧ (jumpTarget badJump % 32 ≠ 0)) ∧
    ((ServesScene (ringOf 1) (0 : Fin 32)) ∧ (layerBlockOk blockBody = true)) ∧
    ((ServesScene (ringOf 1) (0 : Fin 32)) ∧ (objBlockOk objBlockBody = true)) ∧
    ((ServesScene (ringOf 1) (0 : Fin 32)) ∧ (lutOk lutBody = true)) ∧
    ((ServesScene (ringOf 1) (0 : Fin 32)) ∧ (layerBlockOk badLayerBody = false) ∧ (objBlockOk badObjBody = false) ∧ (lutOk badBody = false)) ∧
    ((ServesScene (ringOf 1) (0 : Fin 32)) ∧ (layerWordsOk layerBody = true)) ∧
    ((ServesScene (ringOf 1) (0 : Fin 32)) ∧ (objWordsOk objBody = true)) ∧
    ((ServesScene (ringOf 1) (0 : Fin 32)) ∧ (matrixOk matBody = true)) ∧
    ((ServesScene (ringOf 1) (0 : Fin 32)) ∧ (loftLoadOk loadBody = true) ∧ ((stagingOf (ringOf 1) (0 : Fin 32)).loads.length < 16) ∧ (((stagingOf (ringOf 1) (0 : Fin 32)).loads.map (·.len)).sum + loadLen loadBody ≤ 1048576)) ∧
    ((ServesScene (ringOf 1) (0 : Fin 32)) ∧ (loftLoadOk badBody = false ∨ 16 ≤ (stagingOf (ringOf 1) (0 : Fin 32)).loads.length ∨ 1048576 < ((stagingOf (ringOf 1) (0 : Fin 32)).loads.map (·.len)).sum + loadLen badBody)) ∧
    ((ServesScene (ringOf 1) (0 : Fin 32)) ∧ (fenceOk fenceBody = true) ∧ ((stagingOf (ringOf 1) (0 : Fin 32)).fences.length < 16) ∧ (fenceSpace fenceBody ≠ 0 ∨ fenceAddr fenceBody + 4 ≤ memEnd)) ∧
    ((ServesScene (ringOf 1) (0 : Fin 32)) ∧ (fenceOk (bodyOf [(4, 3), (8, 4096), (16, 9)]) = true) ∧ ((stagingOf (ringOf 1) (0 : Fin 32)).fences.length < 16) ∧ (fenceSpace (bodyOf [(4, 3), (8, 4096), (16, 9)]) ≠ 0 ∨ fenceAddr (bodyOf [(4, 3), (8, 4096), (16, 9)]) + 4 ≤ memEnd)) ∧
    ((ServesScene (ringOf 1) (0 : Fin 32)) ∧ (fenceOk (bodyOf [(5, 7)]) = false ∨ 16 ≤ (stagingOf (ringOf 1) (0 : Fin 32)).fences.length ∨ (fenceSpace (bodyOf [(5, 7)]) = 0 ∧ memEnd < fenceAddr (bodyOf [(5, 7)]) + 4))) ∧
    ((ServesScene (ringOf 1) (0 : Fin 32)) ∧ (fenceOk (bodyOf [(4, 3), (12, 0xFFFF)]) = false ∨ 16 ≤ (stagingOf (ringOf 1) (0 : Fin 32)).fences.length ∨ (fenceSpace (bodyOf [(4, 3), (12, 0xFFFF)]) = 0 ∧ memEnd < fenceAddr (bodyOf [(4, 3), (12, 0xFFFF)]) + 4))) ∧
    ((ServesScene (ringOf 1) (0 : Fin 32)) ∧ (commitOk (bodyOf [(6, 1)]) = false)) ∧
    ((ServesScene (ringOf 1) (0 : Fin 32)) ∧ (layerWordsOk badLayerBody = false)) ∧
    ((ServesScene (ringOf 1) (0 : Fin 32)) ∧ (objWordsOk badObjBody = false)) ∧
    ((ServesScene (ringOf 1) (0 : Fin 32)) ∧ (matrixOk badBody = false)) ∧
    ((ServesScene (ringOf 1) (0 : Fin 32)) ∧ (commitOk (0 : DescBody) = true) ∧ ((ringOf 1).precHeld = []) ∧ ((ringOf 1).scene.queue = []) ∧ ((ringOf 1).scene.inHand = none) ∧ ((ringOf 1).scene.armed = [])) := by
  and_intros
  all_goals
    first
    | decide +kernel
    | exact .inr ⟨rfl, by decide +kernel⟩
    | exact rfl

theorem test_witness_RingControls :
    ((ringIdle.takes .spi) ∧ (ringState ringIdle (0 : Fin 32) = 0) ∧ ((ringIdle.ring (0 : Fin 32)).chain = none) ∧ ((ringIdle.ring (0 : Fin 32)).inHand = none) ∧ ((ringIdle.ring (0 : Fin 32)).waitCommit = none) ∧ ((ringIdle.ring (0 : Fin 32)).buf = []) ∧ ((ringIdle.ring (0 : Fin 32)).stopping = false) ∧ ((ringIdle.ring (0 : Fin 32)).halt = none) ∧ (ringIdle.reg (A.ringPi (0 : Fin 32)) = ringIdle.reg (A.ringCi (0 : Fin 32))) ∧ (ringIdle.flag F.faultStateCoreFail = false)) ∧
    ((ringIdleDma.takes .spi) ∧ (ringState ringIdleDma (0 : Fin 32) = 0) ∧ ((ringIdleDma.ring (0 : Fin 32)).chain = none) ∧ ((ringIdleDma.ring (0 : Fin 32)).inHand = none) ∧ ((ringIdleDma.ring (0 : Fin 32)).waitCommit = none) ∧ ((ringIdleDma.ring (0 : Fin 32)).buf = []) ∧ ((ringIdleDma.ring (0 : Fin 32)).stopping = false) ∧ ((ringIdleDma.ring (0 : Fin 32)).halt = none) ∧ (ringIdleDma.reg (A.ringPi (0 : Fin 32)) = ringIdleDma.reg (A.ringCi (0 : Fin 32))) ∧ (ringIdleDma.flag F.faultStateCoreFail = false)) ∧
    ((coreFailed.takes .spi) ∧ (ringState coreFailed (0 : Fin 32) = 0) ∧ (coreFailed.flag F.faultStateCoreFail = true)) ∧
    ((ringWaits.takes .spi) ∧ (ringState ringWaits (0 : Fin 32) = 1) ∧ ((ringWaits.ring (0 : Fin 32)).chain = none) ∧ ((ringWaits.ring (0 : Fin 32)).inHand = none) ∧ ((ringWaits.ring (0 : Fin 32)).waitCommit = none) ∧ ((ringWaits.ring (0 : Fin 32)).buf = []) ∧ ((ringWaits.ring (0 : Fin 32)).halt = none) ∧ (handedOver ringWaits (0 : Fin 32) = false)) ∧
    ((cfgGood.takes .spi) ∧ (cfgGood.flag (F.ringCtlRun (0 : Fin 32)) = false) ∧ ((cfgGood.ring (0 : Fin 32)).stopping = false) ∧ ((cfgGood.ring (0 : Fin 32)).halt = none) ∧ (cfgBreaks cfgGood (0 : Fin 32) (cfgGood.reg (A.ringCfg (0 : Fin 32))) = false)) ∧
    ((cfgBad.takes .spi) ∧ (cfgBad.flag (F.ringCtlRun (0 : Fin 32)) = false) ∧ ((cfgBad.ring (0 : Fin 32)).stopping = false) ∧ ((cfgBad.ring (0 : Fin 32)).halt = none) ∧ (cfgBreaks cfgBad (0 : Fin 32) (cfgBad.reg (A.ringCfg (0 : Fin 32))) = true)) ∧
    ((ringWaits.flag (F.ringCtlRun (0 : Fin 32)) = true ∨ (ringWaits.ring (0 : Fin 32)).stopping = true ∨ (ringWaits.ring (0 : Fin 32)).halt ≠ none)) ∧
    ((ringStopped.takes .spi) ∧ (ringState ringStopped (0 : Fin 32) = 3) ∧ ((ringStopped.ring (0 : Fin 32)).chain = none) ∧ ((ringStopped.ring (0 : Fin 32)).inHand = none) ∧ ((ringStopped.ring (0 : Fin 32)).waitCommit = none) ∧ ((ringStopped.ring (0 : Fin 32)).buf = []) ∧ ((ringStopped.ring (0 : Fin 32)).stopping = false) ∧ ((ringStopped.ring (0 : Fin 32)).halt = none) ∧ (ringStopped.reg (A.ringPi (0 : Fin 32)) = ringStopped.reg (A.ringStopIndex (0 : Fin 32)) + 1)) ∧
    ((ringState ringWaits (0 : Fin 32) ≠ 3)) ∧
    ((on.takes .spi) ∧ (on.flag (F.ringPrecCfgEn (2 : Fin 8)) = false) ∧ ((0x701 : Word).getLsbD 0 = true) ∧ (precHeldOf on (2 : Fin 8) = [])) ∧
    ((polls.isUp) ∧ ((F.ringCfgPollEn (0 : Fin 32)).of (polls.ring (0 : Fin 32)).cfg ≠ 0) ∧ (ringState polls (0 : Fin 32) = 1 ∨ ringState polls (0 : Fin 32) = 2)) ∧
    (((F.ringCfgPollEn (0 : Fin 32)).of (on.ring (0 : Fin 32)).cfg = 0 ∨ (ringState on (0 : Fin 32) ≠ 1 ∧ ringState on (0 : Fin 32) ≠ 2))) := by
  and_intros
  all_goals
    first
    | decide +kernel
    | exact rfl

theorem test_witness_DoorbellEntries :
    ((ringState written3 (0 : Fin 32) ≠ 1) ∧ (ringState written3 (0 : Fin 32) ≠ 2) ∧ ((written3.ring (0 : Fin 32)).stopping = false) ∧ ((written3.ring (0 : Fin 32)).halt = none) ∧ (dist (18 : BitVec 32) (written3.reg (A.ringPi (0 : Fin 32))) ≤ ringSize written3 (0 : Fin 32)) ∧ (dist (18 : BitVec 32) (written3.reg (A.ringCplPi (0 : Fin 32))) ≤ ringSize written3 (0 : Fin 32))) ∧
    ((dist (on.reg (A.ringPi (0 : Fin 32))) (on.reg (A.ringCplPi (0 : Fin 32))) ≤ ringSize on (0 : Fin 32))) ∧
    ((ringState written3 (0 : Fin 32) ≠ 1) ∧ (ringState written3 (0 : Fin 32) ≠ 2) ∧ ((written3.ring (0 : Fin 32)).stopping = false) ∧ ((written3.ring (0 : Fin 32)).halt = none) ∧ ((written3.ring (0 : Fin 32)).held = []) ∧ (dist (3 : BitVec 32) (written3.reg (A.ringHostCi (0 : Fin 32))) ≤ dist (written3.reg (A.ringCplPi (0 : Fin 32))) (written3.reg (A.ringHostCi (0 : Fin 32))))) ∧
    ((precHeldOf written3 (0 : Fin 8) = []) ∧ (dist (3 : BitVec 32) (written3.reg (A.ringPrecHostCi (0 : Fin 8))) ≤ dist (written3.reg (A.ringPrecWr (0 : Fin 8))) (written3.reg (A.ringPrecHostCi (0 : Fin 8))))) ∧
    ((dist (3 : BitVec 32) (written3.reg (A.evtHostCi (0 : Fin 8))) ≤ dist (written3.reg (A.evtQpi (0 : Fin 8))) (written3.reg (A.evtHostCi (0 : Fin 8))))) ∧
    ((open7.isUp) ∧ ((doorFrame 0).length = 8) ∧ (InSequence open7 (doorFrame 0) tyDoorbell (doorBytes ⟨0, BitVec.ofNat 8 (0 : Fin 32), 0, (0 : BitVec 32)⟩)) ∧ (dist (0 : BitVec 32) (open7.reg (A.ringPi (0 : Fin 32))) ≤ ringSize open7 (0 : Fin 32)) ∧ (dist (0 : BitVec 32) (open7.reg (A.ringCplPi (0 : Fin 32))) ≤ ringSize open7 (0 : Fin 32))) ∧
    ((open7.isUp) ∧ ((doorFrame 1).length = 8) ∧ (InSequence open7 (doorFrame 1) tyDoorbell (doorBytes ⟨1, BitVec.ofNat 8 (0 : Fin 32), 0, (0 : BitVec 32)⟩)) ∧ (dist (0 : BitVec 32) (open7.reg (A.ringHostCi (0 : Fin 32))) ≤ dist (open7.reg (A.ringCplPi (0 : Fin 32))) (open7.reg (A.ringHostCi (0 : Fin 32))))) ∧
    ((open7.isUp) ∧ ((doorFrame 2).length = 8) ∧ (InSequence open7 (doorFrame 2) tyDoorbell (doorBytes ⟨2, BitVec.ofNat 8 (0 : Fin 8), 0, (0 : BitVec 32)⟩)) ∧ (dist (0 : BitVec 32) (open7.reg (A.ringPrecHostCi (0 : Fin 8))) ≤ dist (open7.reg (A.ringPrecWr (0 : Fin 8))) (open7.reg (A.ringPrecHostCi (0 : Fin 8))))) ∧
    ((open7.isUp) ∧ ((doorFrame 3).length = 8) ∧ (InSequence open7 (doorFrame 3) tyDoorbell (doorBytes ⟨3, BitVec.ofNat 8 (0 : Fin 8), 0, (0 : BitVec 32)⟩)) ∧ (dist (0 : BitVec 32) (open7.reg (A.evtHostCi (0 : Fin 8))) ≤ dist (open7.reg (A.evtQpi (0 : Fin 8))) (open7.reg (A.evtHostCi (0 : Fin 8))))) ∧
    (((4 ≤ (DbEntry.mk 4 0 0 0).kind.toNat ∨ ((DbEntry.mk 4 0 0 0).kind.toNat ≤ 1 ∧ 32 ≤ (DbEntry.mk 4 0 0 0).target.toNat) ∨ (2 ≤ (DbEntry.mk 4 0 0 0).kind.toNat ∧ 8 ≤ (DbEntry.mk 4 0 0 0).target.toNat) ∨ ((DbEntry.mk 4 0 0 0).kind = 0 ∧ (DbEntry.mk 4 0 0 0).target.toNat < 32 ∧ (ringSize on (DbEntry.mk 4 0 0 0).target.toNat < dist (DbEntry.mk 4 0 0 0).index (on.reg (A.ringPi (DbEntry.mk 4 0 0 0).target.toNat)) ∨ ringSize on (DbEntry.mk 4 0 0 0).target.toNat < dist (DbEntry.mk 4 0 0 0).index (on.reg (A.ringCplPi (DbEntry.mk 4 0 0 0).target.toNat)))) ∨ ((DbEntry.mk 4 0 0 0).kind = 1 ∧ (DbEntry.mk 4 0 0 0).target.toNat < 32 ∧ dist (on.reg (A.ringCplPi (DbEntry.mk 4 0 0 0).target.toNat)) (on.reg (A.ringHostCi (DbEntry.mk 4 0 0 0).target.toNat)) < dist (DbEntry.mk 4 0 0 0).index (on.reg (A.ringHostCi (DbEntry.mk 4 0 0 0).target.toNat))) ∨ ((DbEntry.mk 4 0 0 0).kind = 2 ∧ (DbEntry.mk 4 0 0 0).target.toNat < 8 ∧ dist (on.reg (A.ringPrecWr (DbEntry.mk 4 0 0 0).target.toNat)) (on.reg (A.ringPrecHostCi (DbEntry.mk 4 0 0 0).target.toNat)) < dist (DbEntry.mk 4 0 0 0).index (on.reg (A.ringPrecHostCi (DbEntry.mk 4 0 0 0).target.toNat))) ∨ ((DbEntry.mk 4 0 0 0).kind = 3 ∧ (DbEntry.mk 4 0 0 0).target.toNat < 8 ∧ dist (on.reg (A.evtQpi (DbEntry.mk 4 0 0 0).target.toNat)) (on.reg (A.evtHostCi (DbEntry.mk 4 0 0 0).target.toNat)) < dist (DbEntry.mk 4 0 0 0).index (on.reg (A.evtHostCi (DbEntry.mk 4 0 0 0).target.toNat)))))) ∧
    (((4 ≤ (DbEntry.mk 0 32 0 0).kind.toNat ∨ ((DbEntry.mk 0 32 0 0).kind.toNat ≤ 1 ∧ 32 ≤ (DbEntry.mk 0 32 0 0).target.toNat) ∨ (2 ≤ (DbEntry.mk 0 32 0 0).kind.toNat ∧ 8 ≤ (DbEntry.mk 0 32 0 0).target.toNat) ∨ ((DbEntry.mk 0 32 0 0).kind = 0 ∧ (DbEntry.mk 0 32 0 0).target.toNat < 32 ∧ (ringSize on (DbEntry.mk 0 32 0 0).target.toNat < dist (DbEntry.mk 0 32 0 0).index (on.reg (A.ringPi (DbEntry.mk 0 32 0 0).target.toNat)) ∨ ringSize on (DbEntry.mk 0 32 0 0).target.toNat < dist (DbEntry.mk 0 32 0 0).index (on.reg (A.ringCplPi (DbEntry.mk 0 32 0 0).target.toNat)))) ∨ ((DbEntry.mk 0 32 0 0).kind = 1 ∧ (DbEntry.mk 0 32 0 0).target.toNat < 32 ∧ dist (on.reg (A.ringCplPi (DbEntry.mk 0 32 0 0).target.toNat)) (on.reg (A.ringHostCi (DbEntry.mk 0 32 0 0).target.toNat)) < dist (DbEntry.mk 0 32 0 0).index (on.reg (A.ringHostCi (DbEntry.mk 0 32 0 0).target.toNat))) ∨ ((DbEntry.mk 0 32 0 0).kind = 2 ∧ (DbEntry.mk 0 32 0 0).target.toNat < 8 ∧ dist (on.reg (A.ringPrecWr (DbEntry.mk 0 32 0 0).target.toNat)) (on.reg (A.ringPrecHostCi (DbEntry.mk 0 32 0 0).target.toNat)) < dist (DbEntry.mk 0 32 0 0).index (on.reg (A.ringPrecHostCi (DbEntry.mk 0 32 0 0).target.toNat))) ∨ ((DbEntry.mk 0 32 0 0).kind = 3 ∧ (DbEntry.mk 0 32 0 0).target.toNat < 8 ∧ dist (on.reg (A.evtQpi (DbEntry.mk 0 32 0 0).target.toNat)) (on.reg (A.evtHostCi (DbEntry.mk 0 32 0 0).target.toNat)) < dist (DbEntry.mk 0 32 0 0).index (on.reg (A.evtHostCi (DbEntry.mk 0 32 0 0).target.toNat)))))) ∧
    (((4 ≤ (DbEntry.mk 3 8 0 0).kind.toNat ∨ ((DbEntry.mk 3 8 0 0).kind.toNat ≤ 1 ∧ 32 ≤ (DbEntry.mk 3 8 0 0).target.toNat) ∨ (2 ≤ (DbEntry.mk 3 8 0 0).kind.toNat ∧ 8 ≤ (DbEntry.mk 3 8 0 0).target.toNat) ∨ ((DbEntry.mk 3 8 0 0).kind = 0 ∧ (DbEntry.mk 3 8 0 0).target.toNat < 32 ∧ (ringSize on (DbEntry.mk 3 8 0 0).target.toNat < dist (DbEntry.mk 3 8 0 0).index (on.reg (A.ringPi (DbEntry.mk 3 8 0 0).target.toNat)) ∨ ringSize on (DbEntry.mk 3 8 0 0).target.toNat < dist (DbEntry.mk 3 8 0 0).index (on.reg (A.ringCplPi (DbEntry.mk 3 8 0 0).target.toNat)))) ∨ ((DbEntry.mk 3 8 0 0).kind = 1 ∧ (DbEntry.mk 3 8 0 0).target.toNat < 32 ∧ dist (on.reg (A.ringCplPi (DbEntry.mk 3 8 0 0).target.toNat)) (on.reg (A.ringHostCi (DbEntry.mk 3 8 0 0).target.toNat)) < dist (DbEntry.mk 3 8 0 0).index (on.reg (A.ringHostCi (DbEntry.mk 3 8 0 0).target.toNat))) ∨ ((DbEntry.mk 3 8 0 0).kind = 2 ∧ (DbEntry.mk 3 8 0 0).target.toNat < 8 ∧ dist (on.reg (A.ringPrecWr (DbEntry.mk 3 8 0 0).target.toNat)) (on.reg (A.ringPrecHostCi (DbEntry.mk 3 8 0 0).target.toNat)) < dist (DbEntry.mk 3 8 0 0).index (on.reg (A.ringPrecHostCi (DbEntry.mk 3 8 0 0).target.toNat))) ∨ ((DbEntry.mk 3 8 0 0).kind = 3 ∧ (DbEntry.mk 3 8 0 0).target.toNat < 8 ∧ dist (on.reg (A.evtQpi (DbEntry.mk 3 8 0 0).target.toNat)) (on.reg (A.evtHostCi (DbEntry.mk 3 8 0 0).target.toNat)) < dist (DbEntry.mk 3 8 0 0).index (on.reg (A.evtHostCi (DbEntry.mk 3 8 0 0).target.toNat)))))) ∧
    (((4 ≤ (DbEntry.mk 0 0 0 17).kind.toNat ∨ ((DbEntry.mk 0 0 0 17).kind.toNat ≤ 1 ∧ 32 ≤ (DbEntry.mk 0 0 0 17).target.toNat) ∨ (2 ≤ (DbEntry.mk 0 0 0 17).kind.toNat ∧ 8 ≤ (DbEntry.mk 0 0 0 17).target.toNat) ∨ ((DbEntry.mk 0 0 0 17).kind = 0 ∧ (DbEntry.mk 0 0 0 17).target.toNat < 32 ∧ (ringSize on (DbEntry.mk 0 0 0 17).target.toNat < dist (DbEntry.mk 0 0 0 17).index (on.reg (A.ringPi (DbEntry.mk 0 0 0 17).target.toNat)) ∨ ringSize on (DbEntry.mk 0 0 0 17).target.toNat < dist (DbEntry.mk 0 0 0 17).index (on.reg (A.ringCplPi (DbEntry.mk 0 0 0 17).target.toNat)))) ∨ ((DbEntry.mk 0 0 0 17).kind = 1 ∧ (DbEntry.mk 0 0 0 17).target.toNat < 32 ∧ dist (on.reg (A.ringCplPi (DbEntry.mk 0 0 0 17).target.toNat)) (on.reg (A.ringHostCi (DbEntry.mk 0 0 0 17).target.toNat)) < dist (DbEntry.mk 0 0 0 17).index (on.reg (A.ringHostCi (DbEntry.mk 0 0 0 17).target.toNat))) ∨ ((DbEntry.mk 0 0 0 17).kind = 2 ∧ (DbEntry.mk 0 0 0 17).target.toNat < 8 ∧ dist (on.reg (A.ringPrecWr (DbEntry.mk 0 0 0 17).target.toNat)) (on.reg (A.ringPrecHostCi (DbEntry.mk 0 0 0 17).target.toNat)) < dist (DbEntry.mk 0 0 0 17).index (on.reg (A.ringPrecHostCi (DbEntry.mk 0 0 0 17).target.toNat))) ∨ ((DbEntry.mk 0 0 0 17).kind = 3 ∧ (DbEntry.mk 0 0 0 17).target.toNat < 8 ∧ dist (on.reg (A.evtQpi (DbEntry.mk 0 0 0 17).target.toNat)) (on.reg (A.evtHostCi (DbEntry.mk 0 0 0 17).target.toNat)) < dist (DbEntry.mk 0 0 0 17).index (on.reg (A.evtHostCi (DbEntry.mk 0 0 0 17).target.toNat)))))) ∧
    (((4 ≤ (DbEntry.mk 1 0 0 1).kind.toNat ∨ ((DbEntry.mk 1 0 0 1).kind.toNat ≤ 1 ∧ 32 ≤ (DbEntry.mk 1 0 0 1).target.toNat) ∨ (2 ≤ (DbEntry.mk 1 0 0 1).kind.toNat ∧ 8 ≤ (DbEntry.mk 1 0 0 1).target.toNat) ∨ ((DbEntry.mk 1 0 0 1).kind = 0 ∧ (DbEntry.mk 1 0 0 1).target.toNat < 32 ∧ (ringSize on (DbEntry.mk 1 0 0 1).target.toNat < dist (DbEntry.mk 1 0 0 1).index (on.reg (A.ringPi (DbEntry.mk 1 0 0 1).target.toNat)) ∨ ringSize on (DbEntry.mk 1 0 0 1).target.toNat < dist (DbEntry.mk 1 0 0 1).index (on.reg (A.ringCplPi (DbEntry.mk 1 0 0 1).target.toNat)))) ∨ ((DbEntry.mk 1 0 0 1).kind = 1 ∧ (DbEntry.mk 1 0 0 1).target.toNat < 32 ∧ dist (on.reg (A.ringCplPi (DbEntry.mk 1 0 0 1).target.toNat)) (on.reg (A.ringHostCi (DbEntry.mk 1 0 0 1).target.toNat)) < dist (DbEntry.mk 1 0 0 1).index (on.reg (A.ringHostCi (DbEntry.mk 1 0 0 1).target.toNat))) ∨ ((DbEntry.mk 1 0 0 1).kind = 2 ∧ (DbEntry.mk 1 0 0 1).target.toNat < 8 ∧ dist (on.reg (A.ringPrecWr (DbEntry.mk 1 0 0 1).target.toNat)) (on.reg (A.ringPrecHostCi (DbEntry.mk 1 0 0 1).target.toNat)) < dist (DbEntry.mk 1 0 0 1).index (on.reg (A.ringPrecHostCi (DbEntry.mk 1 0 0 1).target.toNat))) ∨ ((DbEntry.mk 1 0 0 1).kind = 3 ∧ (DbEntry.mk 1 0 0 1).target.toNat < 8 ∧ dist (on.reg (A.evtQpi (DbEntry.mk 1 0 0 1).target.toNat)) (on.reg (A.evtHostCi (DbEntry.mk 1 0 0 1).target.toNat)) < dist (DbEntry.mk 1 0 0 1).index (on.reg (A.evtHostCi (DbEntry.mk 1 0 0 1).target.toNat)))))) ∧
    (((4 ≤ (DbEntry.mk 2 0 0 5).kind.toNat ∨ ((DbEntry.mk 2 0 0 5).kind.toNat ≤ 1 ∧ 32 ≤ (DbEntry.mk 2 0 0 5).target.toNat) ∨ (2 ≤ (DbEntry.mk 2 0 0 5).kind.toNat ∧ 8 ≤ (DbEntry.mk 2 0 0 5).target.toNat) ∨ ((DbEntry.mk 2 0 0 5).kind = 0 ∧ (DbEntry.mk 2 0 0 5).target.toNat < 32 ∧ (ringSize on (DbEntry.mk 2 0 0 5).target.toNat < dist (DbEntry.mk 2 0 0 5).index (on.reg (A.ringPi (DbEntry.mk 2 0 0 5).target.toNat)) ∨ ringSize on (DbEntry.mk 2 0 0 5).target.toNat < dist (DbEntry.mk 2 0 0 5).index (on.reg (A.ringCplPi (DbEntry.mk 2 0 0 5).target.toNat)))) ∨ ((DbEntry.mk 2 0 0 5).kind = 1 ∧ (DbEntry.mk 2 0 0 5).target.toNat < 32 ∧ dist (on.reg (A.ringCplPi (DbEntry.mk 2 0 0 5).target.toNat)) (on.reg (A.ringHostCi (DbEntry.mk 2 0 0 5).target.toNat)) < dist (DbEntry.mk 2 0 0 5).index (on.reg (A.ringHostCi (DbEntry.mk 2 0 0 5).target.toNat))) ∨ ((DbEntry.mk 2 0 0 5).kind = 2 ∧ (DbEntry.mk 2 0 0 5).target.toNat < 8 ∧ dist (on.reg (A.ringPrecWr (DbEntry.mk 2 0 0 5).target.toNat)) (on.reg (A.ringPrecHostCi (DbEntry.mk 2 0 0 5).target.toNat)) < dist (DbEntry.mk 2 0 0 5).index (on.reg (A.ringPrecHostCi (DbEntry.mk 2 0 0 5).target.toNat))) ∨ ((DbEntry.mk 2 0 0 5).kind = 3 ∧ (DbEntry.mk 2 0 0 5).target.toNat < 8 ∧ dist (on.reg (A.evtQpi (DbEntry.mk 2 0 0 5).target.toNat)) (on.reg (A.evtHostCi (DbEntry.mk 2 0 0 5).target.toNat)) < dist (DbEntry.mk 2 0 0 5).index (on.reg (A.evtHostCi (DbEntry.mk 2 0 0 5).target.toNat)))))) ∧
    (((4 ≤ (DbEntry.mk 3 0 0 5).kind.toNat ∨ ((DbEntry.mk 3 0 0 5).kind.toNat ≤ 1 ∧ 32 ≤ (DbEntry.mk 3 0 0 5).target.toNat) ∨ (2 ≤ (DbEntry.mk 3 0 0 5).kind.toNat ∧ 8 ≤ (DbEntry.mk 3 0 0 5).target.toNat) ∨ ((DbEntry.mk 3 0 0 5).kind = 0 ∧ (DbEntry.mk 3 0 0 5).target.toNat < 32 ∧ (ringSize on (DbEntry.mk 3 0 0 5).target.toNat < dist (DbEntry.mk 3 0 0 5).index (on.reg (A.ringPi (DbEntry.mk 3 0 0 5).target.toNat)) ∨ ringSize on (DbEntry.mk 3 0 0 5).target.toNat < dist (DbEntry.mk 3 0 0 5).index (on.reg (A.ringCplPi (DbEntry.mk 3 0 0 5).target.toNat)))) ∨ ((DbEntry.mk 3 0 0 5).kind = 1 ∧ (DbEntry.mk 3 0 0 5).target.toNat < 32 ∧ dist (on.reg (A.ringCplPi (DbEntry.mk 3 0 0 5).target.toNat)) (on.reg (A.ringHostCi (DbEntry.mk 3 0 0 5).target.toNat)) < dist (DbEntry.mk 3 0 0 5).index (on.reg (A.ringHostCi (DbEntry.mk 3 0 0 5).target.toNat))) ∨ ((DbEntry.mk 3 0 0 5).kind = 2 ∧ (DbEntry.mk 3 0 0 5).target.toNat < 8 ∧ dist (on.reg (A.ringPrecWr (DbEntry.mk 3 0 0 5).target.toNat)) (on.reg (A.ringPrecHostCi (DbEntry.mk 3 0 0 5).target.toNat)) < dist (DbEntry.mk 3 0 0 5).index (on.reg (A.ringPrecHostCi (DbEntry.mk 3 0 0 5).target.toNat))) ∨ ((DbEntry.mk 3 0 0 5).kind = 3 ∧ (DbEntry.mk 3 0 0 5).target.toNat < 8 ∧ dist (on.reg (A.evtQpi (DbEntry.mk 3 0 0 5).target.toNat)) (on.reg (A.evtHostCi (DbEntry.mk 3 0 0 5).target.toNat)) < dist (DbEntry.mk 3 0 0 5).index (on.reg (A.evtHostCi (DbEntry.mk 3 0 0 5).target.toNat)))))) := by
  and_intros
  all_goals
    first
    | decide +kernel
    | exact rfl
    | exact ⟨theSess, _, rfl, rfl, tagged_tag _ _ _ _ _⟩

theorem test_witness_DmaWrites :
    (((dmaHas 1 0x42 (dmaBody 0 0xA1B2C3D4 0x1004 0)).isUp) ∧ (((dmaHas 1 0x42 (dmaBody 0 0xA1B2C3D4 0x1004 0)).chan (0 : Fin 32)).inHand = some (dmaDescOf 0x42 (dmaBody 0 0xA1B2C3D4 0x1004 0))) ∧ (dmaWaits (servePorts (dmaHas 1 0x42 (dmaBody 0 0xA1B2C3D4 0x1004 0))) (0 : Fin 32) (dmaDescOf 0x42 (dmaBody 0 0xA1B2C3D4 0x1004 0)) = false) ∧ (((dmaHas 1 0x42 (dmaBody 0 0xA1B2C3D4 0x1004 0)).chan (0 : Fin 32)).failed = false) ∧ ((dmaDescOf 0x42 (dmaBody 0 0xA1B2C3D4 0x1004 0)).d.kind = 0x42) ∧ (dmaDstHost (dmaDescOf 0x42 (dmaBody 0 0xA1B2C3D4 0x1004 0)).d.body = false) ∧ (portAllows (dmaHas 1 0x42 (dmaBody 0 0xA1B2C3D4 0x1004 0)) (writeSub (0 : Fin 32)) (dmaDst (dmaDescOf 0x42 (dmaBody 0 0xA1B2C3D4 0x1004 0)).d.body) = true) ∧ (noBeats.bad = []) ∧ (noBeats.late = none) ∧ ((28 ≤ (0 : Fin 32).val → entryStatus (dmaDescOf 0x42 (dmaBody 0 0xA1B2C3D4 0x1004 0)).d = none))) ∧
    (((dmaHas 1 0x41 (dmaBody 0 8 0x1004 0xA1B2C3D4)).isUp) ∧ (((dmaHas 1 0x41 (dmaBody 0 8 0x1004 0xA1B2C3D4)).chan (0 : Fin 32)).inHand = some (dmaDescOf 0x41 (dmaBody 0 8 0x1004 0xA1B2C3D4))) ∧ (dmaWaits (servePorts (dmaHas 1 0x41 (dmaBody 0 8 0x1004 0xA1B2C3D4))) (0 : Fin 32) (dmaDescOf 0x41 (dmaBody 0 8 0x1004 0xA1B2C3D4)) = false) ∧ (((dmaHas 1 0x41 (dmaBody 0 8 0x1004 0xA1B2C3D4)).chan (0 : Fin 32)).failed = false) ∧ ((dmaDescOf 0x41 (dmaBody 0 8 0x1004 0xA1B2C3D4)).d.kind = 0x41) ∧ (dmaDstHost (dmaDescOf 0x41 (dmaBody 0 8 0x1004 0xA1B2C3D4)).d.body = false) ∧ (portAllows (dmaHas 1 0x41 (dmaBody 0 8 0x1004 0xA1B2C3D4)) (writeSub (0 : Fin 32)) (dmaDst (dmaDescOf 0x41 (dmaBody 0 8 0x1004 0xA1B2C3D4)).d.body) = true) ∧ (noBeats.bad = []) ∧ (noBeats.late = none) ∧ ((28 ≤ (0 : Fin 32).val → entryStatus (dmaDescOf 0x41 (dmaBody 0 8 0x1004 0xA1B2C3D4)).d = none)) ∧ (dmaLen (dmaDescOf 0x41 (dmaBody 0 8 0x1004 0xA1B2C3D4)).d.body % 4 = 0)) ∧
    (((dmaHas 1 0x40 copyBody).isUp) ∧ (((dmaHas 1 0x40 copyBody).chan (0 : Fin 32)).inHand = some (dmaDescOf 0x40 copyBody)) ∧ (dmaWaits (servePorts (dmaHas 1 0x40 copyBody)) (0 : Fin 32) (dmaDescOf 0x40 copyBody) = false) ∧ (((dmaHas 1 0x40 copyBody).chan (0 : Fin 32)).failed = false) ∧ (((dmaHas 1 0x40 copyBody).chan (0 : Fin 32)).got = []) ∧ ((dmaDescOf 0x40 copyBody).d.kind = 0x40) ∧ (dmaSrcHost (dmaDescOf 0x40 copyBody).d.body = false) ∧ (dmaDstHost (dmaDescOf 0x40 copyBody).d.body = false) ∧ (portAllows (dmaHas 1 0x40 copyBody) (readSub (0 : Fin 32)) (dmaSrc (dmaDescOf 0x40 copyBody).d.body) = true) ∧ (portAllows (dmaHas 1 0x40 copyBody) (writeSub (0 : Fin 32)) (dmaDst (dmaDescOf 0x40 copyBody).d.body) = true) ∧ (noBeats.bad = []) ∧ (noBeats.late = none) ∧ ((28 ≤ (0 : Fin 32).val → entryStatus (dmaDescOf 0x40 copyBody).d = none))) ∧
    (((dmaHas 1 0x42 (dmaBody 0 0xA1B2C3D4 0x1004 0)).isUp) ∧ (((dmaHas 1 0x42 (dmaBody 0 0xA1B2C3D4 0x1004 0)).chan (0 : Fin 28)).inHand = some (dmaDescOf 0x42 (dmaBody 0 0xA1B2C3D4 0x1004 0))) ∧ (((dmaHas 1 0x42 (dmaBody 0 0xA1B2C3D4 0x1004 0)).chan (0 : Fin 28)).queue = []) ∧ (dmaWaits (servePorts (dmaHas 1 0x42 (dmaBody 0 0xA1B2C3D4 0x1004 0))) (0 : Fin 28) (dmaDescOf 0x42 (dmaBody 0 0xA1B2C3D4 0x1004 0)) = false) ∧ (dmaRefused (dmaHas 1 0x42 (dmaBody 0 0xA1B2C3D4 0x1004 0)) (0 : Fin 28) (dmaDescOf 0x42 (dmaBody 0 0xA1B2C3D4 0x1004 0)) = false) ∧ (noBeats.bad = []) ∧ (noBeats.late = none)) ∧
    (((dmaHas 1 0x41 (dmaBody 2 8 0x1004 0xA1B2C3D4)).isUp) ∧ (((dmaHas 1 0x41 (dmaBody 2 8 0x1004 0xA1B2C3D4)).chan (0 : Fin 32)).inHand = some (dmaDescOf 0x41 (dmaBody 2 8 0x1004 0xA1B2C3D4))) ∧ (dmaDstHost (dmaDescOf 0x41 (dmaBody 2 8 0x1004 0xA1B2C3D4)).d.body = true)) ∧
    (((dmaHas 0 0x42 (dmaBody 0 0xA1B2C3D4 0x1004 0)).isUp) ∧ (((dmaHas 0 0x42 (dmaBody 0 0xA1B2C3D4 0x1004 0)).chan (0 : Fin 32)).inHand = some (dmaDescOf 0x42 (dmaBody 0 0xA1B2C3D4 0x1004 0))) ∧ (dmaWaits (servePorts (dmaHas 0 0x42 (dmaBody 0 0xA1B2C3D4 0x1004 0))) (0 : Fin 32) (dmaDescOf 0x42 (dmaBody 0 0xA1B2C3D4 0x1004 0)) = true)) ∧
    ((on.isUp) ∧ ((on.chan (0 : Fin 32)).inHand = none)) := by
  and_intros
  all_goals
    first
    | decide +kernel
    | exact rfl

theorem test_witness_DmaEngine :
    ((timerOn.isUp) ∧ (28 ≤ (28 : Fin 32).val) ∧ (tchKind timerOn (28 : Fin 32) = 2)) ∧
    ((timerReads.isUp) ∧ (28 ≤ (28 : Fin 32).val) ∧ (tchKind timerReads (28 : Fin 32) = 2) ∧ ((timerReads.unit (dmaUnit (28 : Fin 32))).retired = false) ∧ (timerReads.dmaHalted = false) ∧ ((timerReads.chan (28 : Fin 32)).runAt = none) ∧ ((timerReads.chan (28 : Fin 32)).inHand = none) ∧ (timerReads.reg64 (A.dmaTchBaseLo ((28 : Fin 32).val - 28)) / 32 * 32 + 32 ≤ memEnd) ∧ (portAllows timerReads (readSub (28 : Fin 32)) (timerReads.reg64 (A.dmaTchBaseLo ((28 : Fin 32).val - 28)) / 32 * 32) = true)) ∧
    ((timerReads.isUp) ∧ (28 ≤ (28 : Fin 32).val) ∧ (tchKind timerReads (28 : Fin 32) = 2) ∧ ((timerReads.unit (dmaUnit (28 : Fin 32))).retired = false) ∧ (timerReads.dmaHalted = false) ∧ ((timerReads.chan (28 : Fin 32)).runAt = none) ∧ ((timerReads.chan (28 : Fin 32)).inHand = none) ∧ (0x2000 = timerReads.reg64 (A.dmaTchBaseLo ((28 : Fin 32).val - 28)) / 32 * 32) ∧ (0x2000 + 32 ≤ memEnd) ∧ (portAllows timerReads (readSub (28 : Fin 32)) 0x2000 = true) ∧ (requests (fillBlocks timerReads) = []) ∧ ((∀ d, (timerReads.chan d).runRead = false)) ∧ (portServes timerReads 0 = true) ∧ (mayTake timerReads 0 (shapedReq (readSub (28 : Fin 32)) 0x2000 32 (0, 0)) = true) ∧ (0 < 4) ∧ (entryStatus (descOf (timerReads.load 0x2000 32) 0 false) = none)) ∧
    ((timedRuns.isUp) ∧ (28 ≤ (28 : Fin 32).val) ∧ (tchKind timedRuns (28 : Fin 32) = 2) ∧ ((timedRuns.unit (dmaUnit (28 : Fin 32))).retired = false) ∧ ((timedRuns.chan (28 : Fin 32)).runAt ≠ none)) ∧
    (((5 : Fin 32).val < 28 ∨ tchKind on (5 : Fin 32) ≠ 2)) ∧
    ((on.isUp)) ∧
    ((on.isUp) ∧ (on.dmaHalted = false)) ∧
    ((on.takes .spi)) ∧
    ((haltedOn.takes .spi) ∧ (haltedOn.dmaHalted = true) ∧ (haltedOn.dma = [])) := by
  and_intros
  all_goals
    first
    | decide +kernel
    | exact rfl
    | exact fun _ => rfl

theorem test_witness_Scans :
    (((scanAt 0x1000 64).takes .spi) ∧ (smFind (scanAt 0x1000 64).scans (3 : Fin 8) = none) ∧ ((scanAt 0x1000 64).fld (F.chkLenLen (3 : Fin 8)) ≠ 0) ∧ (inOneChannel ((scanAt 0x1000 64).reg64 (A.chkStartLo (3 : Fin 8))) ((scanAt 0x1000 64).fld (F.chkLenLen (3 : Fin 8))) = true)) ∧
    (((scanAt 0x1000 0).takes .spi) ∧ (smFind (scanAt 0x1000 0).scans (3 : Fin 8) = none) ∧ ((scanAt 0x1000 0).fld (F.chkLenLen (3 : Fin 8)) = 0 ∨ inOneChannel ((scanAt 0x1000 0).reg64 (A.chkStartLo (3 : Fin 8))) ((scanAt 0x1000 0).fld (F.chkLenLen (3 : Fin 8))) = false)) ∧
    (((scanAt 0x6FFFFFC0 128).takes .spi) ∧ (smFind (scanAt 0x6FFFFFC0 128).scans (3 : Fin 8) = none) ∧ ((scanAt 0x6FFFFFC0 128).fld (F.chkLenLen (3 : Fin 8)) = 0 ∨ inOneChannel ((scanAt 0x6FFFFFC0 128).reg64 (A.chkStartLo (3 : Fin 8))) ((scanAt 0x6FFFFFC0 128).fld (F.chkLenLen (3 : Fin 8))) = false)) ∧
    ((smFind scanning.scans (3 : Fin 8) ≠ none)) ∧
    ((scanning.takes .spi) ∧ (smFind scanning.scans (3 : Fin 8) ≠ none)) ∧
    ((smFind on.scans (3 : Fin 8) = none)) ∧
    ((on.isUp) ∧ (smFind on.scans (3 : Fin 8) = none)) ∧
    ((scanWaits.isUp) ∧ (smFind (servePorts scanWaits).scans (3 : Fin 8) = some ({ passOf with got := (0, 0) })) ∧ (({ passOf with got := (0, 0) }).got.1 < ({ passOf with got := (0, 0) }).len) ∧ (portAllows scanWaits (202 + (3 : Fin 8)) ({ passOf with got := (0, 0) }).start = true)) ∧
    ((scanning.isUp) ∧ (smFind (servePorts scanning).scans (3 : Fin 8) = some passOf) ∧ (passOf.len ≤ passOf.got.1) ∧ (passOf.dirty = false) ∧ (portAllows scanning (202 + (3 : Fin 8)) passOf.start = true) ∧ (scanning.flag (F.chkScanCfgRepeat (3 : Fin 8)) = false)) ∧
    ((scanning.isUp) ∧ (smFind scanning.scans (3 : Fin 8) = some passOf) ∧ (passOf.start ≤ 0x1005) ∧ (0x1005 < passOf.start + passOf.got.1) ∧ (0x1005 < 2 ^ 64) ∧ (portAllows scanning (202 + (3 : Fin 8)) passOf.start = true)) ∧
    ((scanRefused.isUp) ∧ (smFind scanRefused.scans (3 : Fin 8) = some passOf) ∧ (portAllows scanRefused (202 + (3 : Fin 8)) passOf.start = false)) := by
  and_intros
  all_goals
    first
    | decide +kernel
    | exact rfl

theorem test_witness_BusPositions :
    ((nextPosition leadIn2 2 = some (3, 10, false)) ∧ ((leadIn2.pipe 2).unit ≤ 63)) ∧
    ((nextPosition running2te 2 = some (11, 0, true)) ∧ ((running2te.pipe 2).unit ≤ 63)) ∧
    ((running2te.isUp) ∧ (generatorRuns running2te (2 : Fin 8) = true) ∧ (nextPosition running2te (2 : Fin 8) = some (11, 0, true))) ∧
    ((composing2.isUp) ∧ (generatorRuns composing2 (2 : Fin 8) = true) ∧ (nextPosition composing2 (2 : Fin 8) = some (1, 0, false))) ∧
    ((leadIn2.isUp) ∧ ((leadIn2.pipe (2 : Fin 8)).gen = .leadIn) ∧ ((leadIn2.pipe (2 : Fin 8)).fresh = false) ∧ ((leadIn2.pipe (2 : Fin 8)).unit < 63)) ∧
    ((composing2.isUp) ∧ ((composing2.pipe (2 : Fin 8)).gen = .running) ∧ (EntersLine composing2 (2 : Fin 8) 1) ∧ (1 < vActive composing2.reg (2 : Fin 8)) ∧ ((composing2.pipe (2 : Fin 8)).black = .none)) ∧
    ((watched2.isUp) ∧ ((watched2.pipe (2 : Fin 8)).gen = .running) ∧ (EntersLine watched2 (2 : Fin 8) 1) ∧ (1 < vActive watched2.reg (2 : Fin 8)) ∧ ((watched2.pipe (2 : Fin 8)).black = .none) ∧ (windowsOf watched2 2 = [5])) ∧
    ((relocks2.isUp) ∧ ((relocks2.pipe (2 : Fin 8)).gen ≠ .stopped) ∧ (EntersLine relocks2 (2 : Fin 8) 1) ∧ (1 < vActive relocks2.reg (2 : Fin 8)) ∧ ((relocks2.pipe (2 : Fin 8)).gen = .leadIn ∨ (relocks2.pipe (2 : Fin 8)).black ≠ .none)) ∧
    ((leadLine2.isUp) ∧ ((leadLine2.pipe (2 : Fin 8)).gen ≠ .stopped) ∧ (EntersLine leadLine2 (2 : Fin 8) 1) ∧ (1 < vActive leadLine2.reg (2 : Fin 8)) ∧ ((leadLine2.pipe (2 : Fin 8)).gen = .leadIn ∨ (leadLine2.pipe (2 : Fin 8)).black ≠ .none)) ∧
    ((blanks2.isUp) ∧ ((blanks2.pipe (2 : Fin 8)).gen ≠ .stopped) ∧ (EntersLine blanks2 (2 : Fin 8) 8) ∧ (vActive blanks2.reg (2 : Fin 8) ≤ 8)) ∧
    ((marks2.isUp) ∧ ((marks2.pipe (2 : Fin 8)).gen = .running) ∧ (nextPosition marks2 (2 : Fin 8) = some (1, 0, false)) ∧ (marks2.flag (F.pipeLpeEn (2 : Fin 8) (0 : Fin 4)) = true) ∧ (marks2.fld (F.pipeLpeLine (2 : Fin 8) (0 : Fin 4)) = 1) ∧ (marks2.fld (F.pipeLpeUnit (2 : Fin 8) (0 : Fin 4)) = 0) ∧ (edgeFiltered marks2 (64 + 16 * (2 : Fin 8).val + 4 + (0 : Fin 4).val) = false) ∧ (marks2.flag (F.evtSrcCfgEn (64 + 16 * (2 : Fin 8).val + 4 + (0 : Fin 4).val)) = true) ∧ (marks2.fld (F.evtSrcStatCount (64 + 16 * (2 : Fin 8).val + 4 + (0 : Fin 4).val)) = 0)) ∧
    ((drawnS.clsS = true) ∧ (samplesAt on 2 drawnS 0 0 = [((planarPx on 5 opaqueS 0 0), 255, false)]) ∧ ((planarPx on 5 opaqueS 0 0).a = 255) ∧ ((planarPx on 5 opaqueS 0 0).r ≤ 255) ∧ ((planarPx on 5 opaqueS 0 0).g ≤ 255) ∧ ((planarPx on 5 opaqueS 0 0).b ≤ 255)) ∧
    (((running2.pipe (2 : Fin 8)).gen = .stopped ∨ nextPosition running2 (2 : Fin 8) = none)) := by
  and_intros
  all_goals
    first
    | decide +kernel
    | exact rfl
    | (unfold EntersLine; decide +kernel)

theorem test_witness_FrameStarts :
    ((running2.isUp) ∧ (generatorRuns running2 (2 : Fin 8) = true) ∧ (startDue running2 (2 : Fin 8) = true) ∧ (pipeRuns (dueView (releaseSilentCams running2) (2 : Fin 8)) (2 : Fin 8) = true)) ∧
    ((running2.isUp) ∧ (generatorRuns running2 (2 : Fin 8) = true) ∧ (startDue running2 (2 : Fin 8) = true) ∧ ((∀ x ∈ running2.regs.pend, x.cam = none)) ∧ (pipeRuns (dueView running2 (2 : Fin 8)) (2 : Fin 8) = true)) ∧
    ((ending2.isUp) ∧ (generatorRuns ending2 (2 : Fin 8) = true) ∧ (startDue ending2 (2 : Fin 8) = true) ∧ (pipeRuns (dueView (releaseSilentCams ending2) (2 : Fin 8)) (2 : Fin 8) = false)) ∧
    ((endsFixed2.isUp) ∧ (generatorRuns endsFixed2 (2 : Fin 8) = true) ∧ (startDue endsFixed2 (2 : Fin 8) = true) ∧ (endsFixed2.regs.pend = [endPart]) ∧ (endPart.fixed = true) ∧ (endPart.pipe = some (2 : Fin 8)) ∧ (endPart.cam = none) ∧ ((endPart.words.map (·.1)).Nodup) ∧ (pipeRuns (dueView endsFixed2 (2 : Fin 8)) (2 : Fin 8) = false)) ∧
    ((generatorRuns on (2 : Fin 8) = false ∨ startDue on (2 : Fin 8) = false)) ∧
    ((generatorRuns running2te (2 : Fin 8) = false ∨ startDue running2te (2 : Fin 8) = false)) ∧
    ((timedOut2.isUp) ∧ (teTimedOut timedOut2 (2 : Fin 8) = true)) ∧
    ((timedOut2.isUp) ∧ (teTimedOut timedOut2 (2 : Fin 8) = true) ∧ (timedOut2.regs.pend = []) ∧ (pipeRuns timedOut2.reg (2 : Fin 8) = true)) ∧
    ((teTimedOut running2te (2 : Fin 8) = false)) ∧
    ((stooked.isUp) ∧ (stooked.scene.armed = []) ∧ (stooked.scene.readmit = []) ∧ ((stookPipes stooked.reg (2 : Fin 8)).filter (generatorRuns stooked) ≠ [])) ∧
    ((armedFree.isUp) ∧ (armedFree.scene.armed = [freePart]) ∧ (freePart.written = true) ∧ (freePart.committed = false) ∧ (freePart.fences = []) ∧ (freePart.pipes ≠ []) ∧ ((∀ q ∈ freePart.pipes, generatorRuns armedFree q.val = true ∧ stookOf armedFree.reg q = (2 : Fin 8))) ∧ (armedFree.scene.readmit = [])) ∧
    (((stookPipes on.reg (0 : Fin 8)).filter (generatorRuns on) = [])) := by
  and_intros
  all_goals
    first
    | decide +kernel
    | exact rfl

theorem test_witness_PipeLocks :
    ((pllOn.isUp) ∧ (pllOn.flag (F.pipePllCtlEn (1 : Fin 4)) = true)) ∧
    ((on.flag (F.pipePllCtlEn (1 : Fin 4)) = false)) ∧
    ((on.isUp)) ∧
    ((running2.isUp) ∧ (running2.flag (F.pipePllStatLocked (0 : Fin 4)) = false) ∧ (running2.regs.pend = []) ∧ ((∃ p : Fin 8, generatorRuns running2 p = true ∧ pllOf running2.reg p = (0 : Fin 4)))) ∧
    (((running2.setPipe 3 (running2.pipe 2)).isUp) ∧ ((running2.setPipe 3 (running2.pipe 2)).flag (F.pipePllStatLocked (0 : Fin 4)) = false) ∧ ((running2.setPipe 3 (running2.pipe 2)).regs.pend = []) ∧ ((∃ p : Fin 8, generatorRuns (running2.setPipe 3 (running2.pipe 2)) p = true ∧ pllOf (running2.setPipe 3 (running2.pipe 2)).reg p = (0 : Fin 4)))) ∧
    ((on.flag (F.pipePllStatLocked (0 : Fin 4)) = true ∨ (∀ p : Fin 8, generatorRuns on p = true → pllOf on.reg p ≠ (0 : Fin 4)))) ∧
    (((on.setFld (F.pipePllStatLocked 0) 1).flag (F.pipePllStatLocked (0 : Fin 4)) = true ∨ (∀ p : Fin 8, generatorRuns (on.setFld (F.pipePllStatLocked 0) 1) p = true → pllOf (on.setFld (F.pipePllStatLocked 0) 1).reg p ≠ (0 : Fin 4)))) ∧
    ((teOn.isUp) ∧ (teOn.flag (F.pipeTeEn (2 : Fin 8)) = true) ∧ (generatorRuns teOn (2 : Fin 8) = true) ∧ ((teOn.pipe (2 : Fin 8)).teDue = none)) ∧
    ((on.flag (F.pipeTeEn (2 : Fin 8)) = false ∨ generatorRuns on (2 : Fin 8) = false ∨ (on.pipe (2 : Fin 8)).teDue ≠ none)) ∧
    ((tracks.isUp) ∧ (tracks.flag (F.pipeCamLockEn (2 : Fin 8)) = true) ∧ (tracks.flag (F.pipeStatLock (2 : Fin 8)) = true)) ∧
    ((on.flag (F.pipeCamLockEn (2 : Fin 8)) = false ∨ on.flag (F.pipeStatLock (2 : Fin 8)) = false)) := by
  and_intros
  all_goals
    first
    | decide +kernel
    | exact rfl
    | exact (.inr (fun p h => absurd h (by revert p; decide +kernel)))
    | exact (.inl (by decide +kernel))

theorem test_witness_TimeBase :
    ((on.isUp) ∧ (on.pending = []) ∧ (on.time.fracNs < 1000000000) ∧ (on.time.ratePpb.natAbs ≤ 250000)) ∧
    ((ptpOn.isUp) ∧ (ptpRuns ptpOn = true) ∧ (ptpOn.fld F.pipePtpCfgDomain = (3 : BitVec 7).toNat) ∧ ((1000000 : Int) < 1000001)) ∧
    ((ptpOn.isUp) ∧ (ptpRuns ptpOn = true) ∧ (ptpOn.fld F.pipePtpCfgDomain = (3 : BitVec 7).toNat) ∧ ((1000000 : Int) ≤ 1000000) ∧ (-1000000000 ≤ (1000000 : Int))) ∧
    ((ptpOn.isUp) ∧ (ptpRuns ptpOn = true) ∧ (ptpOn.fld F.pipePtpCfgDomain = (3 : BitVec 7).toNat) ∧ ((-1000000000 : Int) ≤ 1000000) ∧ (-1000000000 ≤ (-1000000000 : Int))) ∧
    ((ptpOn.isUp) ∧ (ptpRuns ptpOn = true) ∧ (ptpOn.fld F.pipePtpCfgDomain = (3 : BitVec 7).toNat) ∧ ((-1000 : Int) ≤ 1000000) ∧ (-1000000000 ≤ (-1000 : Int))) ∧
    ((ptpOn.isUp) ∧ (ptpRuns ptpOn = true) ∧ (ptpOn.fld F.pipePtpCfgDomain = (3 : BitVec 7).toNat) ∧ ((1001 : Int) ≤ 1000000) ∧ (-1000000000 ≤ (1001 : Int))) ∧
    ((ptpOn.isUp) ∧ (ptpRuns ptpOn = true) ∧ (ptpOn.fld F.pipePtpCfgDomain = (3 : BitVec 7).toNat) ∧ ((-1000000001 : Int) < -1000000000)) ∧
    ((ptpRuns ptpOn = false ∨ ptpOn.fld F.pipePtpCfgDomain ≠ (4 : BitVec 7).toNat)) := by
  and_intros
  all_goals
    first
    | decide +kernel
    | exact rfl

theorem test_witness_PeerDelay :
    ((ptpOn.isUp) ∧ (ptpRuns ptpOn = true) ∧ (ptpOn.fld F.pipePtpCfgDomain = (3 : BitVec 7).toNat)) ∧
    ((ptpRuns ptpOn = false ∨ ptpOn.fld F.pipePtpCfgDomain ≠ (4 : BitVec 7).toNat)) ∧
    ((ptpOn.isUp) ∧ (ptpRuns ptpOn = true)) ∧
    ((ptpAsked.isUp) ∧ (ptpRuns ptpAsked = true) ∧ (ptpAsked.fld F.pipePtpCfgDomain = (3 : BitVec 7).toNat) ∧ (ptpAsked.time.pdelayOut = some 4)) ∧
    ((ptpAsked.time.pdelayOut ≠ some 5)) ∧
    ((ptpOn.isUp) ∧ (ptpOn.flag F.pipePtpCfgEn = true) ∧ (ptpOn.flag F.pipeTimeStatHoldover = false)) ∧
    ((on.flag F.pipePtpCfgEn = false ∨ on.flag F.pipeTimeStatHoldover = true)) := by
  and_intros
  all_goals
    first
    | decide +kernel
    | exact rfl

theorem test_witness_LaneGroups :
    ((rising1.isUp) ∧ (groupState rising1 (1 : Fin 8) = 1 ∨ groupState rising1 (1 : Fin 8) = 3) ∧ ((rising1.group (1 : Fin 8)).waitHpd = false) ∧ ((rising1.group (1 : Fin 8)).readyAt ≤ rising1.time.uptime)) ∧
    (((groupState on (1 : Fin 8) ≠ 1 ∧ groupState on (1 : Fin 8) ≠ 3) ∨ (on.group (1 : Fin 8)).waitHpd = true ∨ on.time.uptime < (on.group (1 : Fin 8)).readyAt)) ∧
    (((groupState waitsPower (1 : Fin 8) ≠ 1 ∧ groupState waitsPower (1 : Fin 8) ≠ 3) ∨ (waitsPower.group (1 : Fin 8)).waitHpd = true ∨ waitsPower.time.uptime < (waitsPower.group (1 : Fin 8)).readyAt)) ∧
    ((packet1.takes .spi) ∧ (packet1.flag (F.lanePktCtlBusy (1 : Fin 8)) = false) ∧ (sendsPackets packet1 (1 : Fin 8) = true) ∧ (packetLenOk packet1 (1 : Fin 8) = true)) ∧
    ((on.takes .spi) ∧ (on.flag (F.lanePktCtlBusy (1 : Fin 8)) = true ∨ sendsPackets on (1 : Fin 8) = false ∨ packetLenOk on (1 : Fin 8) = false)) ∧
    ((long1.takes .spi) ∧ (long1.flag (F.lanePktCtlBusy (1 : Fin 8)) = true ∨ sendsPackets long1 (1 : Fin 8) = false ∨ packetLenOk long1 (1 : Fin 8) = false)) ∧
    ((busy1.takes .spi) ∧ (busy1.flag (F.lanePktCtlBusy (1 : Fin 8)) = true ∨ sendsPackets busy1 (1 : Fin 8) = false ∨ packetLenOk busy1 (1 : Fin 8) = false)) ∧
    ((ready1.isUp) ∧ (ready1.pow.started = true) ∧ (ready1.flag (F.lanePktCtlBusy (1 : Fin 8)) = true) ∧ (listFirst ready1 (1 : Fin 8) = false) ∧ (ackError ready1 (1 : Fin 8) true ([3]) = false)) ∧
    ((ready1.isUp) ∧ (ready1.pow.started = true) ∧ (ready1.flag (F.lanePktCtlBusy (1 : Fin 8)) = true) ∧ (listFirst ready1 (1 : Fin 8) = false) ∧ (ackError ready1 (1 : Fin 8) false ([]) = false)) ∧
    ((reads1.isUp) ∧ (reads1.pow.started = true) ∧ (ackError reads1 (1 : Fin 8) false ([3]) = true)) ∧
    ((on.pow.started = false ∨ on.flag (F.lanePktCtlBusy (1 : Fin 8)) = false ∨ listFirst on (1 : Fin 8) = true)) ∧
    ((busy1.pow.started = false ∨ busy1.flag (F.lanePktCtlBusy (1 : Fin 8)) = false ∨ listFirst busy1 (1 : Fin 8) = true)) ∧
    ((State.reset.pow.started = false ∨ State.reset.flag (F.lanePktCtlBusy (1 : Fin 8)) = false ∨ listFirst State.reset (1 : Fin 8) = true)) ∧
    ((on.takes .spi)) ∧
    ((on.takes .spi)) := by
  and_intros
  all_goals
    first
    | decide +kernel
    | exact rfl

theorem test_witness_CameraPorts :
    ((camUp.isUp) ∧ (camReceives camUp (0 : Fin 6) = true) ∧ ((∀ x ∈ camUp.regs.pend, x.cam ≠ some (0 : Fin 6)))) ∧
    ((camSecond.isUp) ∧ (camReceives camSecond (0 : Fin 6) = true) ∧ ((∀ x ∈ camSecond.regs.pend, x.cam ≠ some (0 : Fin 6))) ∧ ((camSecond.cam 0).frame ≠ 0) ∧ (camSecond.fld (F.laneCamStatSlot 0) ≤ 1)) ∧
    ((camIn.isUp) ∧ (camReceives camIn (0 : Fin 6) = true) ∧ ((camIn.cam (0 : Fin 6)).inFrame = true)) ∧
    ((camIn.isUp) ∧ (camReceives camIn (0 : Fin 6) = true) ∧ ((camIn.cam (0 : Fin 6)).inFrame = true) ∧ (false = false ∨ ([1, 2, 3, 4, 5, 6]).length ≠ camIn.fld (F.laneCamSizeWidth (0 : Fin 6)) * camLinkBytes (camIn.fld (F.laneCamCfgDt (0 : Fin 6))))) ∧
    ((camIn.isUp) ∧ (camReceives camIn (0 : Fin 6) = true) ∧ ((camIn.cam (0 : Fin 6)).inFrame = true) ∧ (true = false ∨ ([1] : List Byte).length ≠ camIn.fld (F.laneCamSizeWidth (0 : Fin 6)) * camLinkBytes (camIn.fld (F.laneCamCfgDt (0 : Fin 6))))) ∧
    ((camPast.isUp) ∧ (camReceives camPast (0 : Fin 6) = true) ∧ ((camPast.cam (0 : Fin 6)).inFrame = true) ∧ (camPast.fld (F.laneCamSizeHeight (0 : Fin 6)) ≤ (camPast.cam (0 : Fin 6)).line) ∧ (([1, 2, 3, 4, 5, 6] : List Byte).length = camPast.fld (F.laneCamSizeWidth (0 : Fin 6)) * camLinkBytes (camPast.fld (F.laneCamCfgDt (0 : Fin 6))))) ∧
    ((camIn.isUp) ∧ (camReceives camIn (0 : Fin 6) = true) ∧ ((camIn.cam (0 : Fin 6)).inFrame = true) ∧ (camIn.flag (F.schedPolCfgEn (0 : Fin 6)) = false) ∧ ((camIn.cam (0 : Fin 6)).line < camIn.fld (F.laneCamSizeHeight (0 : Fin 6))) ∧ ((camIn.cam (0 : Fin 6)).waiting.length < 2) ∧ (portAllows camIn (96 + (0 : Fin 6)) (camLineAddr camIn (0 : Fin 6) (camIn.fld (F.laneCamStatSlot (0 : Fin 6))) (camIn.cam (0 : Fin 6)).line) = true) ∧ (([1, 2, 3, 4, 5, 6] : List Byte).length = camIn.fld (F.laneCamSizeWidth (0 : Fin 6)) * camLinkBytes (camIn.fld (F.laneCamCfgDt (0 : Fin 6))))) ∧
    ((camWaiting.isUp) ∧ ((camWaiting.cam (0 : Fin 6)).waiting = (0, 1, 1, ([1, 2, 3, 0] : List Byte)) :: ([])) ∧ (([1, 2, 3, 0] : List Byte).length ≤ ((servePorts camWaiting).cam (0 : Fin 6)).sent.1)) ∧
    ((camHeld.isUp) ∧ ((camHeld.cam (0 : Fin 6)).waiting = (0, 1, 1, ([1, 2, 3, 0] : List Byte)) :: ([])) ∧ (((servePorts camHeld).cam (0 : Fin 6)).sent.1 < ([1, 2, 3, 0] : List Byte).length)) ∧
    ((camIn.isUp) ∧ ((camIn.cam (0 : Fin 6)).waiting = [])) ∧
    ((camIn.isUp) ∧ (camReceives camIn (0 : Fin 6) = true)) ∧
    ((camReceives on (0 : Fin 6) = false)) := by
  and_intros
  all_goals
    first
    | decide +kernel
    | exact rfl
    | exact (fun _ h => by cases h)

theorem test_witness_UnitFailures :
    ((lateDma.isUp) ∧ (isDma (0x40 : BitVec 8).toNat = true) ∧ (failureKnown lateDma (0x40 : BitVec 8).toNat (4 : BitVec 8).toNat = true) ∧ (FailsFirst lateDma (0x40 : BitVec 8).toNat)) ∧
    ((late.isUp) ∧ (isDma (0x40 : BitVec 8).toNat = true) ∧ (failureKnown late (0x40 : BitVec 8).toNat (4 : BitVec 8).toNat = true) ∧ (FailsFirst late (0x40 : BitVec 8).toNat)) ∧
    ((late.isUp) ∧ (isMc (1 : BitVec 8).toNat = true) ∧ (failureKnown late (1 : BitVec 8).toNat (2 : BitVec 8).toNat = true) ∧ (FailsFirst late (1 : BitVec 8).toNat)) ∧
    ((bothUp.isUp) ∧ (isLink (0x61 : BitVec 8).toNat = true) ∧ ((10 : BitVec 8) = 9 ∨ (10 : BitVec 8) = 10) ∧ (FailsFirst bothUp (0x61 : BitVec 8).toNat) ∧ (linkAsleep bothUp (unitLink (0x61 : BitVec 8).toNat) = false) ∧ (activeLink bothUp ≠ unitLink (0x61 : BitVec 8).toNat)) ∧
    ((asleepB.isUp) ∧ (isLink (0x61 : BitVec 8).toNat = true) ∧ (linkAsleep asleepB (unitLink (0x61 : BitVec 8).toNat) = true)) ∧
    (((late.setFld (F.laneCfgEn 1) 1).isUp) ∧ ((0x31 : BitVec 8).toNat = 0x30 + (1 : Fin 8).val) ∧ (failureKnown (late.setFld (F.laneCfgEn 1) 1) (0x31 : BitVec 8).toNat (0x11 : BitVec 8).toNat = true) ∧ (FailsFirst (late.setFld (F.laneCfgEn 1) 1) (0x31 : BitVec 8).toNat)) ∧
    (((late.setUnit 1 { unitInit with recovery := true }).isUp) ∧ ((isMc (1 : BitVec 8).toNat || isLg (1 : BitVec 8).toNat || isDma (1 : BitVec 8).toNat) = true) ∧ (failureKnown (late.setUnit 1 { unitInit with recovery := true }) (1 : BitVec 8).toNat (2 : BitVec 8).toNat = true) ∧ (((late.setUnit 1 { unitInit with recovery := true }).unit (1 : BitVec 8).toNat).retired = false) ∧ ((late.setUnit 1 { unitInit with recovery := true }).fault.retest ≠ some (1 : BitVec 8).toNat) ∧ (((late.setUnit 1 { unitInit with recovery := true }).unit (1 : BitVec 8).toNat).recovery = true ∨ 3 ≤ (recentFails (late.setUnit 1 { unitInit with recovery := true }) (1 : BitVec 8).toNat).length)) ∧
    (((failing 1).isUp) ∧ ((isMc (1 : BitVec 8).toNat || isLg (1 : BitVec 8).toNat || isDma (1 : BitVec 8).toNat) = true) ∧ (failureKnown (failing 1) (1 : BitVec 8).toNat (2 : BitVec 8).toNat = true) ∧ (((failing 1).unit (1 : BitVec 8).toNat).retired = false) ∧ ((failing 1).fault.retest ≠ some (1 : BitVec 8).toNat) ∧ (((failing 1).unit (1 : BitVec 8).toNat).recovery = true ∨ 3 ≤ (recentFails (failing 1) (1 : BitVec 8).toNat).length)) ∧
    ((((failing 0x31).setFld (F.laneCfgEn 1) 1).isUp) ∧ ((isMc (0x31 : BitVec 8).toNat || isLg (0x31 : BitVec 8).toNat || isDma (0x31 : BitVec 8).toNat) = true) ∧ (failureKnown ((failing 0x31).setFld (F.laneCfgEn 1) 1) (0x31 : BitVec 8).toNat (0x11 : BitVec 8).toNat = true) ∧ ((((failing 0x31).setFld (F.laneCfgEn 1) 1).unit (0x31 : BitVec 8).toNat).retired = false) ∧ (((failing 0x31).setFld (F.laneCfgEn 1) 1).fault.retest ≠ some (0x31 : BitVec 8).toNat) ∧ ((((failing 0x31).setFld (F.laneCfgEn 1) 1).unit (0x31 : BitVec 8).toNat).recovery = true ∨ 3 ≤ (recentFails ((failing 0x31).setFld (F.laneCfgEn 1) 1) (0x31 : BitVec 8).toNat).length)) ∧
    (((((failing 0x31).setFld (F.laneCfgEn 1) 1).setFld (F.laneCfgPair 1) 1).isUp) ∧ ((isMc (0x31 : BitVec 8).toNat || isLg (0x31 : BitVec 8).toNat || isDma (0x31 : BitVec 8).toNat) = true) ∧ (failureKnown (((failing 0x31).setFld (F.laneCfgEn 1) 1).setFld (F.laneCfgPair 1) 1) (0x31 : BitVec 8).toNat (0x11 : BitVec 8).toNat = true) ∧ (((((failing 0x31).setFld (F.laneCfgEn 1) 1).setFld (F.laneCfgPair 1) 1).unit (0x31 : BitVec 8).toNat).retired = false) ∧ ((((failing 0x31).setFld (F.laneCfgEn 1) 1).setFld (F.laneCfgPair 1) 1).fault.retest ≠ some (0x31 : BitVec 8).toNat) ∧ (((((failing 0x31).setFld (F.laneCfgEn 1) 1).setFld (F.laneCfgPair 1) 1).unit (0x31 : BitVec 8).toNat).recovery = true ∨ 3 ≤ (recentFails (((failing 0x31).setFld (F.laneCfgEn 1) 1).setFld (F.laneCfgPair 1) 1) (0x31 : BitVec 8).toNat).length)) ∧
    (((failing 0x45).isUp) ∧ ((isMc (0x45 : BitVec 8).toNat || isLg (0x45 : BitVec 8).toNat || isDma (0x45 : BitVec 8).toNat) = true) ∧ (failureKnown (failing 0x45) (0x45 : BitVec 8).toNat (4 : BitVec 8).toNat = true) ∧ (((failing 0x45).unit (0x45 : BitVec 8).toNat).retired = false) ∧ ((failing 0x45).fault.retest ≠ some (0x45 : BitVec 8).toNat) ∧ (((failing 0x45).unit (0x45 : BitVec 8).toNat).recovery = true ∨ 3 ≤ (recentFails (failing 0x45) (0x45 : BitVec 8).toNat).length)) ∧
    (((failing 0x5D).isUp) ∧ ((isMc (0x5D : BitVec 8).toNat || isLg (0x5D : BitVec 8).toNat || isDma (0x5D : BitVec 8).toNat) = true) ∧ (failureKnown (failing 0x5D) (0x5D : BitVec 8).toNat (4 : BitVec 8).toNat = true) ∧ (((failing 0x5D).unit (0x5D : BitVec 8).toNat).retired = false) ∧ ((failing 0x5D).fault.retest ≠ some (0x5D : BitVec 8).toNat) ∧ (((failing 0x5D).unit (0x5D : BitVec 8).toNat).recovery = true ∨ 3 ≤ (recentFails (failing 0x5D) (0x5D : BitVec 8).toNat).length)) ∧
    ((failureKnown on (0x10 : BitVec 8).toNat (7 : BitVec 8).toNat = false)) ∧
    ((waitsHpd.isUp) ∧ ((waitsHpd.group (1 : Fin 8)).waitHpd = true)) ∧
    ((waitsHpd.isUp) ∧ ((waitsHpd.group (1 : Fin 8)).waitHpd = true) ∧ (FailsFirst waitsHpd (0x30 + (1 : Fin 8)))) ∧
    (((on.group (1 : Fin 8)).waitHpd = false)) ∧
    ((edp1.isUp) ∧ (edpUp edp1 (1 : Fin 8) = true) ∧ (FailsFirst edp1 (0x30 + (1 : Fin 8)))) ∧
    ((edpUp on (1 : Fin 8) = false)) := by
  and_intros
  all_goals
    first
    | decide +kernel
    | exact rfl

theorem test_witness_Recoveries :
    ((recovering.isUp) ∧ (recovering.fault.mcHand = some 1)) ∧
    ((on.fault.mcHand = none)) ∧
    ((linkRecovers.isUp) ∧ (linkIsUp linkRecovers Link.a = true)) ∧
    ((linkIsUp on Link.a = false)) ∧
    ((on.isUp) ∧ (channelOf 0x70000000 = some 1) ∧ (mcInService on 1 = true)) ∧
    ((on.isUp) ∧ (channelOf 0x70000000 = some 1) ∧ (mcInService on 1 = true)) ∧
    (((∀ m, channelOf 0x1C0000000 = some m → mcInService on m = false))) ∧
    ((rereads.isUp) ∧ (rereads.fault.reread.find? (fun x => x.1 == (1 : Fin 4).val) = some (1, .loft 2, 0x1000))) ∧
    ((rereads5.isUp) ∧ (rereads5.fault.reread.find? (fun x => x.1 == (1 : Fin 4).val) = some ((1 : Fin 4).val, .fetch 5, 0x1000))) ∧
    ((rereads.isUp) ∧ (rereads.fault.reread.find? (fun x => x.1 == (1 : Fin 4).val) = some ((1 : Fin 4).val, .loft 2, 0x1000))) ∧
    ((on.scene.twinBales = []) ∧ (on.scene.twinAsks = [])) ∧
    ((rereads.isUp) ∧ (rereads.fault.reread.find? (fun x => x.1 == (1 : Fin 4).val) = some (1, .loft 2, 0x1000)) ∧ (FailsFirst rereads (1 : Fin 4))) ∧
    ((on.fault.reread.find? (fun x => x.1 == (1 : Fin 4).val) = none)) := by
  and_intros
  all_goals
    first
    | decide +kernel
    | exact rfl
    | exact fun _ h => by cases h

theorem test_witness_LaneRotation :
    ((testing3.isUp) ∧ (testing3.fault.lane = some 3) ∧ (3 ≤ 16) ∧ (testing3.fault.testing = true) ∧ (testing3.fault.hold = false) ∧ ((testing3.unit (0x10 + 3)).retired = false)) ∧
    ((testing3.isUp) ∧ (testing3.fault.lane = some 3) ∧ (3 ≤ 16) ∧ (testing3.fault.testing = true) ∧ (testing3.fault.hold = false) ∧ (testing3.fault.notRun = 0)) ∧
    ((testing3.isUp) ∧ (testing3.fault.lane = some 3) ∧ (3 ≤ 16) ∧ (testing3.fault.testing = true) ∧ (testing3.fault.hold = false) ∧ (FailsFirst testing3 (0x10 + 3))) ∧
    ((failing3.isUp) ∧ (failing3.fault.lane = some 3) ∧ (3 ≤ 16) ∧ (failing3.fault.testing = true) ∧ (failing3.fault.hold = false) ∧ (3 ≤ lanesIn failing3) ∧ ((failing3.unit (0x10 + 3)).retired = false) ∧ (failing3.fault.retest ≠ some (0x10 + 3)) ∧ (3 ≤ (recentFails failing3 (0x10 + 3)).length)) ∧
    ((swapHeld3.isUp) ∧ (swapHeld3.fault.lane = some 3) ∧ (swapHeld3.fault.testing = false) ∧ (swapHeld3.fault.hold = true) ∧ (swapHeld3.fault.holdDone = some true) ∧ (swapHeld3.fault.reproof = true ∨ swapHeld3.fault.holdFrames ≠ [])) ∧
    ((on.isUp) ∧ (on.fault.lane = none ∨ on.fault.testing = false)) ∧
    ((tested3.isUp) ∧ (tested3.fault.lane = some 3) ∧ (tested3.fault.testing = false) ∧ (tested3.fault.hold = false) ∧ (tested3.fault.notRun ≠ 1) ∧ (lanesDue tested3 = []) ∧ (2 ≤ lanesIn tested3)) ∧
    ((tested16.isUp) ∧ (tested16.fault.lane = some 16) ∧ (tested16.fault.testing = false) ∧ (tested16.fault.hold = false) ∧ (tested16.fault.notRun ≠ 1) ∧ (lanesDue tested16 = []) ∧ (2 ≤ lanesIn tested16)) ∧
    ((again3.isUp) ∧ (again3.fault.lane = some 3) ∧ (again3.fault.testing = false) ∧ (again3.fault.hold = false) ∧ (again3.fault.notRun = 1)) ∧
    ((testing3.isUp) ∧ (testing3.fault.lane = none ∨ testing3.fault.testing = true)) ∧
    ((tested3.isUp) ∧ ((16 : Fin 17).val ≤ profileLanes tested3) ∧ (tested3.fault.lane ≠ none) ∧ (tested3.fault.lateFired.contains (16 : Fin 17).val = false) ∧ (tested3.fault.lane ≠ some (16 : Fin 17).val ∨ tested3.fault.testing = false)) ∧
    ((profileLanes on < (4 : Fin 17).val ∨ on.fault.lane = none ∨ on.fault.lateFired.contains (4 : Fin 17).val = true)) := by
  and_intros
  all_goals
    first
    | decide +kernel
    | exact rfl

theorem test_witness_Retests :
    ((on.takes .spi) ∧ ((0x45 : Word).getLsbD 31 = false)) ∧
    ((retired45.takes .spi) ∧ ((0x80000045 : Word).getLsbD 31 = true) ∧ (retired45.fault.retest = none) ∧ (retestable retired45 (F.faultRetestUnit.of (0x80000045 : Word)) = true)) ∧
    ((on.takes .spi) ∧ ((0x80000046 : Word).getLsbD 31 = true) ∧ (on.fault.retest ≠ none ∨ retestable on (F.faultRetestUnit.of (0x80000046 : Word)) = false)) ∧
    ((retest45.takes .spi) ∧ ((0x80000046 : Word).getLsbD 31 = true) ∧ (retest45.fault.retest ≠ none ∨ retestable retest45 (F.faultRetestUnit.of (0x80000046 : Word)) = false)) ∧
    ((retest45.isUp) ∧ (retest45.fault.retest = some 0x45) ∧ (lowestRunning retest45 ≠ none ∨ Lbist.pass ≠ .pass)) ∧
    ((retest45still.isUp) ∧ (retest45still.fault.retest = some 0x45) ∧ (lowestRunning retest45still ≠ none ∨ Lbist.fail ≠ .pass)) ∧
    ((on.fault.retest = none)) ∧
    ((recordWaits.isUp) ∧ (recordWaits.fault.held = oneRecord :: ([])) ∧ (recordWaits.flag F.faultRrecCfgEn = true) ∧ (canIssue recordWaits = true) ∧ (rrecFull recordWaits = false)) ∧
    ((on.fault.held = [] ∨ on.flag F.faultRrecCfgEn = false ∨ canIssue on = false ∨ rrecFull on = true)) ∧
    ((consumes.takes .spi) ∧ (dist (3 : Word) (consumes.reg A.faultRrecHostCi) ≤ dist (consumes.reg A.faultRrecWr) (consumes.reg A.faultRrecHostCi))) ∧
    ((dist (consumes.reg A.faultRrecWr) (consumes.reg A.faultRrecHostCi) < dist (4 : Word) (consumes.reg A.faultRrecHostCi))) ∧
    ((on.takes .spi) ∧ (on.flag F.faultRrecCfgEn = false) ∧ ((0x701 : Word).getLsbD 0 = true)) ∧
    ((recordWaits.takes .spi) ∧ ((0x700 : Word).getLsbD 0 = false)) ∧
    ((owes.isUp) ∧ (owes.fault.reproof = true)) ∧
    ((on.isUp) ∧ (on.fault.reproof = false)) := by
  and_intros
  all_goals
    first
    | decide +kernel
    | exact rfl
    | exact .inl (by decide +kernel)
    | exact .inr (by decide +kernel)

theorem test_witness_Verdicts :
    (((judged 0x10).isUp) ∧ ((judged 0x10).scene.inHand = some (.scene (emptyScene 0), (verdict 0x10))) ∧ ((judged 0x10).scene.queue = []) ∧ ((judged 0x10).scene.readmit = []) ∧ ((judged 0x10).scene.admitted = []) ∧ ((formed (judged 0x10) (verdict 0x10)).reason ≠ 0)) ∧
    (((judged 0).isUp) ∧ ((judged 0).scene.inHand = some (.scene (emptyScene 0), (verdict 0))) ∧ ((judged 0).scene.queue = []) ∧ ((judged 0).scene.readmit = []) ∧ ((judged 0).scene.admitted = []) ∧ ((judged 0).scene.armed = []) ∧ ((formed (judged 0) (verdict 0)).reason = 0) ∧ ((verdict 0).lift = 0) ∧ ((emptyScene 0).writes = (emptyScene (emptyScene 0).ring).writes) ∧ ((emptyScene 0).loads = []) ∧ ((emptyScene 0).readmitMc = 0) ∧ ((emptyScene 0).readmitLg = 0)) ∧
    ((layered.scene.armed = [])) ∧
    (((∀ a ∈ layered.scene.armed, partStopped layered a = false)) ∧ (oneLayer.readmitMc = 0) ∧ (oneLayer.readmitLg = 0)) ∧
    ((on.isUp) ∧ ((∀ sc v, on.scene.inHand ≠ some (.scene sc, v))) ∧ (on.scene.readmit = [])) ∧
    ((armedOn.isUp) ∧ (armedOn.scene.armed = [armedPart]) ∧ (armedPart.written = true) ∧ (armedPart.committed = false) ∧ (armedPart.due = false) ∧ (armedPart.fences = [hostFence]) ∧ (hostFence.host = true) ∧ (hostFence.signalled = false) ∧ (partStopped armedOn armedPart = false)) ∧
    ((on.isUp) ∧ (on.scene.armed = [])) ∧
    ((loading.isUp) ∧ (loadInHand (servePorts loading) (2 : Fin 8) = some (loadOf, 7)) ∧ (loadOf.len ≤ loadOf.got.1) ∧ (loadOf.skip = [])) ∧
    ((on.isUp) ∧ ((∀ l frame, loadInHand (servePorts on) (2 : Fin 8) = some (l, frame) → l.got.1 < l.len))) ∧
    ((layered.isUp) ∧ (5 = fetchCode layered (5 : Fin 96)) ∧ (layered.scene.releases = []) ∧ (layered.scene.flips = []) ∧ ((planarOf layered.scene.planar 5).en = true) ∧ ((planarOf layered.scene.planar 5).crcEn = false) ∧ (generatorRuns layered (planarOf layered.scene.planar 5).pipe = true) ∧ ((layered.pipe (planarOf layered.scene.planar 5).pipe).fetched.contains 5 = false) ∧ ((layered.pipe (planarOf layered.scene.planar 5).pipe).offFrame.contains 5 = false) ∧ ((layered.pipe (planarOf layered.scene.planar 5).pipe).heldOff.contains 5 = false)) ∧
    ((checked.isUp) ∧ (5 = fetchCode checked (5 : Fin 96)) ∧ ((planarOf checked.scene.planar 5).en = true) ∧ ((planarOf checked.scene.planar 5).crcEn = true) ∧ (crc32c (sourceBytes checked 5) ≠ (planarOf checked.scene.planar 5).srcCrc.toNat) ∧ (generatorRuns checked (planarOf checked.scene.planar 5).pipe = true) ∧ ((checked.pipe (planarOf checked.scene.planar 5).pipe).fetched.contains 5 = false) ∧ ((checked.pipe (planarOf checked.scene.planar 5).pipe).offFrame.contains 5 = false) ∧ ((checked.pipe (planarOf checked.scene.planar 5).pipe).heldOff.contains 5 = false)) ∧
    ((on.isUp) ∧ (5 = fetchCode on (5 : Fin 96)) ∧ ((planarOf on.scene.planar 5).en = false ∨ generatorRuns on (planarOf on.scene.planar 5).pipe = false ∨ (on.pipe (planarOf on.scene.planar 5).pipe).fetched.contains 5 = true)) := by
  and_intros
  all_goals
    first
    | decide +kernel
    | exact rfl
    | exact fun _ _ h => by cases h

theorem test_witness_Telltales :
    (((used6 1).isUp) ∧ (ttUsed (used6 1) 6 = true) ∧ (ttLit (used6 1) 6 = true)) ∧
    (((used6 0).isUp) ∧ (ttUsed (used6 0) 6 = true) ∧ (ttLit (used6 0) 6 = false) ∧ (((used6 0).tt 6).off = false)) ∧
    (((used6 1).isUp) ∧ (ttUsed (used6 1) 6 = true) ∧ (ttLit (used6 1) 6 = true)) ∧
    (((short6 0).isUp) ∧ (ttUsed (short6 0) 6 = true) ∧ ((short6 0).fld (F.lightTtStatFault 6) = 2) ∧ (((short6 0).tt 6).off = true)) ∧
    (((short6 1).isUp) ∧ (ttUsed (short6 1) 6 = true) ∧ ((short6 1).fld (F.lightTtStatFault 6) = 2) ∧ (((short6 1).tt 6).off = true)) ∧
    (((short6 2).isUp) ∧ (ttUsed (short6 2) 6 = true) ∧ ((short6 2).fld (F.lightTtStatFault 6) = 2) ∧ (((short6 2).tt 6).off = true)) ∧
    ((((used6 1).setFld (F.lightTtStatFault 6) 1).isUp) ∧ (ttUsed ((used6 1).setFld (F.lightTtStatFault 6) 1) 6 = true) ∧ (ttLit ((used6 1).setFld (F.lightTtStatFault 6) 1) 6 = true)) ∧
    ((ttUsed on 6 = false ∨ ttLit on 6 = false) ∧ (ttUsed on 6 = false ∨ (on.tt 6).off = false) ∧ (ttUsed on 6 = false ∨ ttLit on 6 = true)) ∧
    (((blinks 0).isUp) ∧ ((blinks 0).light.busyA = true)) ∧
    (((blinksB 0).isUp) ∧ ((blinksB 0).light.busyB = true)) ∧
    (((blinks 3).isUp) ∧ ((blinks 3).light.busyA = true)) ∧
    (((blinksB 3).isUp) ∧ ((blinksB 3).light.busyB = true)) ∧
    (((blinks 10).isUp) ∧ ((blinks 10).light.busyA = true)) ∧
    (((blinksB 10).isUp) ∧ ((blinksB 10).light.busyB = true)) ∧
    ((on.light.busyA = false) ∧ (on.light.busyB = false)) ∧
    ((bulbOn.isUp) ∧ (bulbOn.pow.bulb = true)) ∧
    ((on.pow.bulb = false)) := by
  and_intros
  all_goals
    first
    | decide +kernel
    | exact rfl

theorem test_witness_CanAndDimming :
    ((mapped.isUp) ∧ (canRuns mapped (0 : Fin 2) = true) ∧ (entryUsed mapped (9 : Fin 64) = true) ∧ (mapped.fld (F.lightMapIdBus (9 : Fin 64)) = (0 : Fin 2).val) ∧ (mapped.flag (F.lightMapIdIde (9 : Fin 64)) = false) ∧ (mapped.fld (F.lightMapIdId (9 : Fin 64)) % (if false then 2 ^ 29 else 2048) = (0x123 : BitVec 29).toNat % (if false then 2 ^ 29 else 2048)) ∧ (rawField mapped (9 : Fin 64) ([7, 8]) = some 7)) ∧
    ((mapped.isUp) ∧ (canRuns mapped (0 : Fin 2) = true) ∧ (entryUsed mapped (9 : Fin 64) = false ∨ mapped.fld (F.lightMapIdBus (9 : Fin 64)) ≠ (0 : Fin 2).val ∨ mapped.flag (F.lightMapIdIde (9 : Fin 64)) ≠ true ∨ rawField mapped (9 : Fin 64) ([7, 8]) = none ∨ mapped.fld (F.lightMapIdId (9 : Fin 64)) % (if true then 2 ^ 29 else 2048) ≠ (0x123 : BitVec 29).toNat % (if true then 2 ^ 29 else 2048))) ∧
    ((mapped.isUp) ∧ (canRuns mapped (0 : Fin 2) = true) ∧ (entryUsed mapped (9 : Fin 64) = false ∨ mapped.fld (F.lightMapIdBus (9 : Fin 64)) ≠ (0 : Fin 2).val ∨ mapped.flag (F.lightMapIdIde (9 : Fin 64)) ≠ false ∨ rawField mapped (9 : Fin 64) ([7, 8]) = none ∨ mapped.fld (F.lightMapIdId (9 : Fin 64)) % (if false then 2 ^ 29 else 2048) ≠ (0x124 : BitVec 29).toNat % (if false then 2 ^ 29 else 2048))) ∧
    ((canRuns on (0 : Fin 2) = false ∨ false = true)) ∧
    ((mapped.isUp) ∧ (entryUsed mapped (9 : Fin 64) = true) ∧ (mapped.flag (F.lightMapFieldTimeout (9 : Fin 64)) = true) ∧ ((mapped.mapEntry (9 : Fin 64)).timedOut = false)) ∧
    ((entryUsed on (9 : Fin 64) = false ∨ on.flag (F.lightMapFieldTimeout (9 : Fin 64)) = false ∨ (on.mapEntry (9 : Fin 64)).timedOut = true)) ∧
    ((sending0.isUp) ∧ (sending0.pow.started = true) ∧ (canRuns sending0 (0 : Fin 2) = true) ∧ (sending0.flag (F.lightCanTxidTxEn (0 : Fin 2)) = true) ∧ (sending0.flag (F.lightCanCtlListen (0 : Fin 2)) = false)) ∧
    ((on.pow.started = false ∨ canRuns on (0 : Fin 2) = false ∨ on.flag (F.lightCanTxidTxEn (0 : Fin 2)) = false ∨ on.flag (F.lightCanCtlListen (0 : Fin 2)) = true)) ∧
    ((canRates.isUp) ∧ (canRuns canRates (0 : Fin 2) = true)) ∧
    ((offBus0.isUp) ∧ (offBus0.fld (F.lightCanStatState (0 : Fin 2)) = 2)) ∧
    ((canRates.isUp) ∧ (canRuns canRates (0 : Fin 2) = true)) ∧
    ((dims.isUp) ∧ ((dims.pipe (2 : Fin 8)).gen = .running) ∧ (zonePipe (dims.zone (3 : Fin 40)) = (2 : Fin 8).val) ∧ (shows dims 2 = true)) ∧
    ((dark2.isUp) ∧ ((dark2.pipe (2 : Fin 8)).gen = .running) ∧ (zonePipe (dark2.zone (3 : Fin 40)) = (2 : Fin 8).val) ∧ (shows dark2 2 = false)) ∧
    (((on.pipe (2 : Fin 8)).gen ≠ .running ∨ (∀ i, i < 40 → zonePipe (on.zone i) ≠ (2 : Fin 8).val))) ∧
    ((on.isUp)) := by
  and_intros
  all_goals
    first
    | decide +kernel
    | exact rfl

theorem test_witness_BarnWrites :
    ((twoWords.isUp) ∧ (twoWords.barn.rawBusy = some (false, 3, ([(7, 0x0F1E2D3C), (9, 5)])))) ∧
    (((barnOf (fun b => { b with rawBusy := some (false, 0x3FFFF, []) })).isUp) ∧ ((barnOf (fun b => { b with rawBusy := some (false, 0x3FFFF, []) })).barn.rawBusy = some (false, 0x3FFFF, ([])))) ∧
    (((barnOf (fun b => { b with rawBusy := some (true, 0x10000, []), nor := [(0x10005, 3), (0x20000, 4)] })).isUp) ∧ ((barnOf (fun b => { b with rawBusy := some (true, 0x10000, []), nor := [(0x10005, 3), (0x20000, 4)] })).barn.rawBusy = some (true, 0x10000, ([])))) ∧
    (((barnOf (fun b => { b with rawBusy := some (true, 0x10000, []), nor := [(0x10005, 3), (0x20000, 4)] })).isUp) ∧ ((barnOf (fun b => { b with rawBusy := some (true, 0x10000, []), nor := [(0x10005, 3), (0x20000, 4)] })).barn.rawBusy = some (true, 0x10000, ([])))) ∧
    ((twoWords.isUp) ∧ (twoWords.barn.rawBusy = some (false, 3, ([(7, 0x0F1E2D3C), (9, 5)])))) ∧
    (((barnOf (fun b => { b with page := some (3, []) })).takes .spi) ∧ ((barnOf (fun b => { b with page := some (3, []) })).barn.rawBusy = none)) ∧
    ((on.takes .spi) ∧ (on.barn.rawBusy = none)) ∧
    ((on.takes .spi) ∧ (on.barn.rawBusy = none)) ∧
    ((((on.setFld F.barnJwCtlKey 17).setFld F.barnJwCtlLen 3).takes .spi) ∧ (((on.setFld F.barnJwCtlKey 17).setFld F.barnJwCtlLen 3).flag F.barnJwCtlBusy = false) ∧ (writeRefusal ((on.setFld F.barnJwCtlKey 17).setFld F.barnJwCtlLen 3).barn (((on.setFld F.barnJwCtlKey 17).setFld F.barnJwCtlLen 3).fld F.barnJwCtlKey) (((on.setFld F.barnJwCtlKey 17).setFld F.barnJwCtlLen 3).fld F.barnJwCtlLen) = 0) ∧ (((on.setFld F.barnJwCtlKey 17).setFld F.barnJwCtlLen 3).barn.jobHand = none) ∧ (((on.setFld F.barnJwCtlKey 17).setFld F.barnJwCtlLen 3).barn.jobs = [])) ∧
    (((on.setFld F.barnJwCtlKey 4096).takes .spi) ∧ ((on.setFld F.barnJwCtlKey 4096).flag F.barnJwCtlBusy = false) ∧ (writeRefusal (on.setFld F.barnJwCtlKey 4096).barn ((on.setFld F.barnJwCtlKey 4096).fld F.barnJwCtlKey) ((on.setFld F.barnJwCtlKey 4096).fld F.barnJwCtlLen) ≠ 0)) ∧
    ((jobHas.isUp) ∧ (jobHas.barn.jobHand = some jobOf) ∧ (hasRoom jobHas.barn (recordSize jobOf.payload.length) = true)) ∧
    ((noRoom.barn.jobHand = some jobOf) ∧ (hasRoom noRoom.barn (recordSize jobOf.payload.length) = false)) ∧
    ((on.takes .spi) ∧ (on.flag F.barnJrCtlBusy = false)) ∧
    ((readHas.isUp) ∧ (readHas.barn.readKey = some 17) ∧ (keyHolds readHas.barn 17 = (5, ([1, 2, 3] : List Byte))) ∧ (5 ≠ 0) ∧ (([1, 2, 3] : List Byte) ≠ []) ∧ (([1, 2, 3] : List Byte).length ≤ 240)) ∧
    ((jobHas.flag F.barnJwCtlBusy = true) ∧ (readHas.flag F.barnJrCtlBusy = true)) ∧
    (((barnOf (fun b => { b with sumDirty := true })).isUp) ∧ ((barnOf (fun b => { b with sumDirty := true })).barn.sumDirty = true)) ∧
    ((compacting.pow.started = true) ∧ (writerFree compacting.barn = true) ∧ (sectors.filter (mustCompact compacting.barn) = [0])) ∧
    ((failedSector.pow.started = true) ∧ (writerFree failedSector.barn = true) ∧ (sectors.filter (mustCompact failedSector.barn) = [0])) ∧
    ((gleanable.isUp) ∧ (victim gleanable.barn = some 0) ∧ ((erasedSectors gleanable.barn).length < 8) ∧ (gleaningNow gleanable.barn = false) ∧ (gleanable.barn.failed = []) ∧ (writerFree gleanable.barn = true)) ∧
    ((sectors.filter (mustCompact on.barn) = []) ∧ (victim on.barn = none ∨ 8 ≤ (erasedSectors on.barn).length ∨ gleaningNow on.barn = true ∨ on.barn.failed ≠ [])) ∧
    ((writerFree jobHas.barn = false)) ∧
    (((barnOf (fun b => { b with erasing := [5], nor := [(0x2005003, 9)] })).isUp) ∧ ((barnOf (fun b => { b with erasing := [5], nor := [(0x2005003, 9)] })).barn.erasing.contains 5 = true)) ∧
    ((on.barn.erasing.contains 5 = false)) ∧
    (((barnOf (fun b => { b with erasing := [5] })).isUp) ∧ ((barnOf (fun b => { b with erasing := [5] })).barn.erasing.contains (5 : Fin 128).val = true)) ∧
    ((jobHas.isUp) ∧ (jobHas.barn.erasing.contains (0 : Fin 128).val = false) ∧ (jobHas.barn.failed.contains (0 : Fin 128).val = false) ∧ (sectorState jobHas.barn (0 : Fin 128) ≠ 8)) ∧
    ((jobHas.isUp) ∧ (jobHas.barn.erasing.contains (9 : Fin 128).val = false) ∧ (jobHas.barn.failed.contains (9 : Fin 128).val = false) ∧ (sectorState jobHas.barn (9 : Fin 128) ≠ 8)) := by
  and_intros
  all_goals
    first
    | decide +kernel
    | exact rfl

theorem test_witness_PerfWindows :
    ((usMode.takes .spi) ∧ (usMode.flag F.perfCtlRun = false) ∧ (usMode.fld F.perfWinCfgRefPipe < profilePipes usMode) ∧ (usMode.flag F.perfWinCfgMode = true)) ∧
    ((on.takes .spi) ∧ (on.flag F.perfCtlRun = false) ∧ (on.fld F.perfWinCfgRefPipe < profilePipes on) ∧ (on.flag F.perfWinCfgMode = false)) ∧
    ((smallModule.takes .spi) ∧ (smallModule.flag F.perfCtlRun = false) ∧ (profilePipes smallModule ≤ smallModule.fld F.perfWinCfgRefPipe)) ∧
    ((window.flag F.perfCtlRun = true)) ∧
    ((on.flag F.perfCtlRun = false)) ∧
    ((waitsFrame.takes .spi) ∧ (waitsFrame.flag F.perfCtlRun = true) ∧ (waitsFrame.perf.startAt = none)) ∧
    ((window.takes .spi) ∧ (window.flag F.perfCtlRun = true) ∧ (window.perf.startAt = some 0) ∧ (F.perfWinCfgHold.of window.perf.cfg = 0 ∨ window.flag F.perfSnapStatReady = false)) ∧
    ((elapsed.isUp) ∧ (elapsed.flag F.perfCtlRun = true) ∧ (F.perfWinCfgMode.of elapsed.perf.cfg ≠ 0) ∧ (elapsed.perf.startAt = some 0) ∧ (elapsed.perf.turnAt + 1000 * max 100 (F.perfWinCfgN.of elapsed.perf.cfg) ≤ elapsed.time.uptime) ∧ (F.perfWinCfgHold.of elapsed.perf.cfg = 0 ∨ elapsed.flag F.perfSnapStatReady = false)) ∧
    ((holding.isUp) ∧ (holding.flag F.perfCtlRun = true) ∧ (F.perfWinCfgMode.of holding.perf.cfg ≠ 0) ∧ (holding.perf.startAt = some 0) ∧ (holding.perf.turnAt + 1000 * max 100 (F.perfWinCfgN.of holding.perf.cfg) ≤ holding.time.uptime) ∧ (F.perfWinCfgHold.of holding.perf.cfg ≠ 0) ∧ (holding.flag F.perfSnapStatReady = true)) ∧
    ((F.perfWinCfgMode.of window.perf.cfg = 0 ∨ window.time.uptime < window.perf.turnAt + 1000 * max 100 (F.perfWinCfgN.of window.perf.cfg))) ∧
    ((F.perfWinCfgMode.of on.perf.cfg = 0 ∨ on.time.uptime < on.perf.turnAt + 1000 * max 100 (F.perfWinCfgN.of on.perf.cfg))) := by
  and_intros
  all_goals
    first
    | decide +kernel
    | exact rfl

theorem test_witness_MemoryForm :
    ((State.reset.memOk = true)) := by
  and_intros
  all_goals
    decide +kernel

end Sys2Proof.Tests
end

section
/-! PROOFS. Register writes that are refused (spec 00, R17; spec 03, R78; spec 04, R89; spec 14, R357): which words are refused and
what a locked write changes, with the obligations of the scope chapter. -/

namespace Sys2Proof.Machine

/-! ### A register write that the module answers -/

/-- A register access on a path that the module answers runs its meaning on the state as it stands. -/
theorem whenServed_takes {s : State} {path : Path} (h : s.takes path) (f : State → State) :
    whenServed s path f = .next { f s with pending := s.pending } := by
  obtain ⟨hup, hserves⟩ := h
  rw [whenServed, whenUp_up s _ hup, if_pos hserves]

/-- REG_WRITE on a path that the module answers leaves one word written. -/
theorem leaves_regWrite {s : State} {path : Path} (h : s.takes path) (addr w : Word) :
    Leaves (.regWrite path addr w) s (writeWord s path addr w) :=
  whenServed_takes h fun s => writeWord s path addr w

/-- A mapped address is a multiple of 4. -/
theorem mod_four_of_findReg {a : Nat} {x : RegRow × Nat} (h : findReg a = some x) : a % 4 = 0 := by
  by_contra hne
  simp [findReg, hne] at h

/-- A write of a mapped word of the 16 blocks is a write of all 32 bits of its register. -/
theorem accessWrite_mapped {addr : Word} {x : RegRow × Nat} (hx : findReg addr.toNat = some x) (ha : addr.toNat < 0x100000)
    (s : State) (path : Path) (w : Word) :
    accessWrite s path addr w = writeAt s path addr.toNat addr.toNat w 0xFFFFFFFF := by
  have hal : isAlias addr.toNat = false := by simp [isAlias, ha]
  simp [accessWrite, mod_four_of_findReg hx, hal, ha]

/-! ### Refused writes -/

/-- A word that Haywain may not write is refused with DENIED (R89, R357). -/
theorem accessWrite_denied {addr : Word} {path : Path} (hmapped : (findReg addr.toNat).isSome = true)
    (ha : addr.toNat < 0x100000) (hd : haywainDenied path addr.toNat = true) (s : State) (w : Word) :
    accessWrite s path addr w = refuse s path addr.toNat 3 := by
  obtain ⟨x, hx⟩ := Option.isSome_iff_exists.1 hmapped
  rw [accessWrite_mapped hx ha, writeAt, hx]
  exact if_pos hd

/-- A word of a locked register is refused with LOCKED (R78). -/
theorem accessWrite_locked {addr : Word} {r : RegRow} {i : Nat} {path : Path} {s : State}
    (hx : findReg addr.toNat = some (r, i)) (ha : addr.toNat < 0x100000) (hd : haywainDenied path addr.toNat = false)
    (hk : isKey addr.toNat = false) (hl : isLocked s r addr.toNat = true) (w : Word) :
    accessWrite s path addr w = refuse s path addr.toNat 1 := by
  rw [accessWrite_mapped hx ha, writeAt, hx]
  simp [hd, hk, hl]

/-- Every locked write fires LOCK_VIOLATION once: what comes before it is the count and the address shown. -/
theorem firesLockViolation (s : State) (path : Path) (a : Nat) : FiresLockViolation s path a := by
  refine ⟨_, rfl, by simp, fun k => ?_⟩
  have hne : ∀ x < 0xA0000, A.evtSrcStat k ≠ x := fun x hx => by simp only [A.evtSrcStat]; omega
  rw [State.reg_setFld_other _ _ _ _ (hne _ (by decide)), State.reg_setFld_other _ _ _ _ (hne _ (by decide)),
    State.reg_addFld_other _ _ _ _ (hne _ (by decide))]

/-- A refused write is a locked-out one. -/
theorem lockedOut_of_refuse {s : State} {path : Path} {addr w : Word} {st : Nat}
    (h : accessWrite s path addr w = refuse s path addr.toNat st) : LockedOut s path addr w st :=
  ⟨h, rfl, firesLockViolation s path addr.toNat⟩

/-! ### What a locked write changes -/

/-- A locked write touches what raising an event touches, and no command that waits. -/
theorem lockedWrite_touches (s : State) (path : Path) (a : Nat) :
    TouchesOnly Part.shared s (lockedWrite s path a) ∧ (lockedWrite s path a).pending = s.pending :=
  State.touches_of_hide Part.shared rfl fun d => lockedWrite_hide (by decide) d s path a

/-- A refused REG_WRITE ends in the locked write. -/
theorem exec_regWrite_refused {s : State} {path : Path} {addr w : Word} {st : Nat} (h : s.takes path)
    (hr : accessWrite s path addr w = refuse s path addr.toNat st) :
    exec (.regWrite path addr w) s = .next (lockedWrite s path addr.toNat) := by
  have hw : writeWord s path addr w = lockedWrite s path addr.toNat := by rw [writeWord, hr]; rfl
  rw [leaves_regWrite h, hw, ← (lockedWrite_touches s path addr.toNat).2]

theorem not_evtReg_of_lt {a : Nat} (h : a < 0xA0000) : ¬evtReg a := fun he => absurd he.1 (by omega)

/-- Outside block EVT a locked write changes LOCK_VIOL and LOCK_VIOL_ADDR alone. -/
theorem lockedWrite_onlyRegs (s : State) (path : Path) (a : Nat) :
    OnlyRegs (fun x => x = A.sysLockViol ∨ x = A.sysLockViolAddr) s (lockedWrite s path a) := by
  intro x hx hevt
  obtain ⟨hcount, haddr⟩ := not_or.1 hx
  rw [lockedWrite, raise_reg _ _ _ (by decide) (by unfold evtReg; omega), State.reg_setFld_other _ _ _ _ haddr,
    State.reg_setFld_other _ _ _ _ haddr, State.reg_addFld_other _ _ _ _ hcount]

/-- A locked write adds 1 to LOCK_VIOL, which saturates. -/
theorem lockedWrite_count (s : State) (path : Path) (a : Nat) :
    (lockedWrite s path a).fld F.sysLockViolCount = min 65535 (s.fld F.sysLockViolCount + 1) := by
  rw [lockedWrite, raise_fld _ _ _ (by decide) (not_evtReg_of_lt (by decide)), State.fld_setFld_reg _ _ _ _ (by decide),
    State.fld_setFld_reg _ _ _ _ (by decide), State.fld_addFld_self _ _ _ ⟨by decide, by decide⟩, Nat.min_comm]
  rfl

/-- A locked write shows its path. -/
theorem lockedWrite_path (s : State) (path : Path) (a : Nat) :
    (lockedWrite s path a).fld F.sysLockViolAddrPath = pathCode path := by
  rw [lockedWrite, raise_fld _ _ _ (by decide) (not_evtReg_of_lt (by decide)),
    State.fld_setFld_other _ _ _ _ ⟨by decide, by decide⟩ ⟨by decide, by decide⟩ (.inr (.inr (by decide))),
    State.fld_setFld_self _ _ _ ⟨by decide, by decide⟩]
  cases path <;> rfl

/-- A locked write shows its address. -/
theorem lockedWrite_addr (s : State) (path : Path) {a : Nat} (h : a < 2 ^ 21) :
    (lockedWrite s path a).fld F.sysLockViolAddrAddr = a := by
  rw [lockedWrite, raise_fld _ _ _ (by decide) (not_evtReg_of_lt (by decide)),
    State.fld_setFld_self _ _ _ ⟨by decide, by decide⟩]
  exact Nat.mod_eq_of_lt h

/-! ### The register space beside the live words -/

/-- The register space without its live words. -/
def RegFile.besideLive (r : RegFile) : RegFile := { r with live := [] }

@[simp] theorem State.setFld_besideLive (s : State) (f : Fld) (v : Nat) :
    (s.setFld f v).regs.besideLive = s.regs.besideLive := rfl

@[simp] theorem State.addFld_besideLive (s : State) (f : Fld) (d : Nat) :
    (s.addFld f d).regs.besideLive = s.regs.besideLive := rfl

@[simp] theorem setAsleep_besideLive (s : State) (l : Link) (b : Bool) :
    (setAsleep s l b).regs.besideLive = s.regs.besideLive := by
  cases l <;> simp [setAsleep]

@[simp] theorem wakeLink_besideLive (s : State) (l : Link) : (wakeLink s l).regs.besideLive = s.regs.besideLive := by
  simp only [wakeLink]
  split <;> simp

@[simp] theorem wakeRequest_besideLive (s : State) : (wakeRequest s).regs.besideLive = s.regs.besideLive := by
  simp only [wakeRequest, wakeSome]
  split
  · simp
  · split <;> simp

@[simp] theorem wakeFor_besideLive (s : State) (k : Nat) : (wakeFor s k).regs.besideLive = s.regs.besideLive := by
  simp only [wakeFor]
  split <;> simp

@[simp] theorem countOccurrence_besideLive (s : State) (k : Nat) (b : Bool) :
    (countOccurrence s k b).regs.besideLive = s.regs.besideLive := by
  simp only [countOccurrence]
  split
  · simp
  · split <;> simp

@[simp] theorem markSpi_besideLive (s : State) (k : Nat) : (markSpi s k).regs.besideLive = s.regs.besideLive := by
  rw [markSpi]
  split <;> simp

/-- An occurrence writes live words of registers and nothing else of the register space. -/
@[simp] theorem raise_besideLive (s : State) (k : Nat) : (raise s k).regs.besideLive = s.regs.besideLive := by
  simp only [raise]
  split <;> simp

@[simp] theorem lockedWrite_besideLive (s : State) (path : Path) (a : Nat) :
    (lockedWrite s path a).regs.besideLive = s.regs.besideLive := by
  simp [lockedWrite]

@[simp] theorem lockedWrite_keys (s : State) (path : Path) (a : Nat) : (lockedWrite s path a).regs.keys = s.regs.keys := by
  have h := congrArg RegFile.keys (lockedWrite_besideLive s path a)
  exact h

@[simp] theorem lockedWrite_shadow (s : State) (path : Path) (a : Nat) : (lockedWrite s path a).regs.shadow = s.regs.shadow := by
  have h := congrArg RegFile.shadow (lockedWrite_besideLive s path a)
  exact h

/-! ### The locked words -/

/-- The lock bit that covers a register with LKW fields (R78). -/
def lockOf (s : State) (a : Nat) : Bool :=
  if a = A.sysProfile then s.flag F.sysProfileLock
  else if a = A.sysPodlStat then s.flag F.sysPodlStatLock
  else s.flag F.lightTtCfgLock

theorem isLocked_eq (s : State) (r : RegRow) (a : Nat) : isLocked s r a = (r.lkw != 0 && lockOf s a) := rfl

/-- A word of the 16 blocks whose register holds LKW fields and that every path may write while the lock is clear. -/
def lkwWord (a : Nat) : Bool :=
  decide (a < 0x100000) && !isKey a && !isTriggerReg a && (findReg a).any (fun x => x.1.lkw != 0)

/-- A write of a word whose lock is set is refused with LOCKED, whatever the path. -/
theorem accessWrite_lkwWord {s : State} {addr : Word} (hword : lkwWord addr.toNat = true) (hlock : lockOf s addr.toNat = true)
    (path : Path) (w : Word) : accessWrite s path addr w = refuse s path addr.toNat 1 := by
  simp only [lkwWord, Bool.and_eq_true, decide_eq_true_eq, Bool.not_eq_true', Option.any_eq_true] at hword
  obtain ⟨⟨⟨ha, hkey⟩, htrigger⟩, ⟨r, i⟩, hrow, hlkw⟩ := hword
  exact accessWrite_locked hrow ha (by simp [haywainDenied, hkey, htrigger]) hkey (by rw [isLocked_eq, hlkw, hlock]; rfl) w

/-- A locked write of a word with LKW fields leaves the word as it was. -/
theorem lockedWrite_reg_lkwWord {a : Nat} (hword : lkwWord a = true) (hblock : a < 0xA0000) (s : State) (path : Path) :
    (lockedWrite s path a).reg a = s.reg a := by
  refine lockedWrite_onlyRegs s path a a ?_ (.inl hblock)
  rintro (rfl | rfl) <;> exact absurd hword (by decide +kernel)

/-- The words that the statement names, each with its lock set: SYS.PROFILE, SYS.PODL_STAT and four words of LIGHT. -/
theorem lkwWord_of_lock_set {s : State} {addr : Word}
    (h : (addr = 0x20 ∧ s.flag F.sysProfileLock = true) ∨ (addr = 0x24 ∧ s.flag F.sysPodlStatLock = true) ∨
      ((addr = 0x90000 ∨ addr = 0x90004 ∨ addr = 0x91000 ∨ addr = 0x92000) ∧ s.flag F.lightTtCfgLock = true)) :
    lkwWord addr.toNat = true ∧ lockOf s addr.toNat = true ∧ addr.toNat < 0xA0000 := by
  obtain ⟨rfl, hlock⟩ | ⟨rfl, hlock⟩ | ⟨rfl | rfl | rfl | rfl, hlock⟩ := h <;>
    exact ⟨by decide +kernel, hlock, by decide⟩

/-- The key words and the registers of the triggered channels that the statement names are denied to Haywain. -/
theorem haywainDenied_of_named {addr : Word}
    (h : addr = 0x10040 ∨ addr = 0x10044 ∨ addr = 0x10048 ∨ addr = 0x1004C ∨ addr = 0xB2000 ∨ addr = 0xB2070) :
    (findReg addr.toNat).isSome = true ∧ addr.toNat < 0x100000 ∧ haywainDenied .haywain addr.toNat = true := by
  obtain rfl | rfl | rfl | rfl | rfl | rfl := h <;> decide +kernel

/-! ### STAGGER outside its range -/

/-- A module whose live STAGGER.STEP is 0, below the field's range of 20 to 255. -/
def staggerZero : State := State.reset.setReg A.sysStagger 0

theorem staggerZero_takes : staggerZero.takes .spi := ⟨rfl, rfl⟩

/-- A write of STAGGER brings the live word into the field's range too, not the shadow copy alone. -/
theorem writeWord_staggerZero_reg : (writeWord staggerZero .spi 0x28 0).reg A.sysStagger = 20 := by decide +kernel

end Sys2Proof.Machine

namespace Sys2Proof.Proofs.Scope

open Sys2Proof.Machine

/-- Settles O13: a refused write ends in the locked write, whose effects the lemmas above give part by part. -/
theorem lockedWrite : Obligations.LockedWrite := by
  refine ⟨fun path addr w s htakes hlocked => ?_, fun addr w s htakes hnamed => ?_⟩
  · obtain ⟨hword, hlock, hblock⟩ := lkwWord_of_lock_set hlocked
    have hrefused := accessWrite_lkwWord hword hlock path w
    exact ⟨lockedOut_of_refuse hrefused, _, exec_regWrite_refused htakes hrefused, lockedWrite_reg_lkwWord hword hblock s path,
      lockedWrite_count .., lockedWrite_path .., lockedWrite_addr s path (by omega), lockedWrite_onlyRegs s path addr.toNat,
      (lockedWrite_touches ..).1⟩
  · obtain ⟨hmapped, hblock, hdenied⟩ := haywainDenied_of_named hnamed
    have hrefused := accessWrite_denied hmapped hblock hdenied s w
    exact ⟨lockedOut_of_refuse hrefused, _, exec_regWrite_refused htakes hrefused, lockedWrite_count .., lockedWrite_path ..,
      lockedWrite_addr s .haywain (by omega), lockedWrite_keys .., lockedWrite_shadow ..,
      lockedWrite_onlyRegs s .haywain addr.toNat, (lockedWrite_touches ..).1⟩

/-- Refutes O11: its STAGGER clause says of every state that no live register changes, and where the live STEP lies below 20 a
write of STAGGER stores 20 there as well (`clampWord` acts on both copies). -/
theorem not_registerWrite : ¬ Obligations.RegisterWrite := by
  rintro ⟨-, -, -, hstagger, -⟩
  obtain ⟨t, hexec, -, -, hregs, -⟩ := hstagger .spi 0 staggerZero staggerZero_takes
  have hkept : t.reg A.sysStagger = 0 := (hregs _ id).trans (State.reg_setReg_self ..)
  have hleft : { writeWord staggerZero .spi 0x28 0 with pending := staggerZero.pending } = t :=
    Host.Outcome.next.inj ((leaves_regWrite staggerZero_takes 0x28 0).symm.trans hexec)
  have hraised : t.reg A.sysStagger = 20 := hleft ▸ writeWord_staggerZero_reg
  exact absurd (hkept.symm.trans hraised) (by decide)

end Sys2Proof.Proofs.Scope
end

section
/-! PROOFS. The form of device memory (spec 01, R20; spec 09, R231; spec 15, R373; logs 7, 42). Three operations change memory:
`State.store`, `State.loseMemory` and `resetBase`. Here one lemma for each operation that can reach one of them; of the rest the
frame lemmas say that they leave `mem` and `lost` alone. -/

namespace Sys2Proof.Machine

/-! ### What the form depends on -/

/-- Whether memory is in its form is asked of `mem` and `lost` alone: every other part may be hidden (the mask holds them all), and
the frame lemmas of operations that leave these two parts alone apply. -/
theorem memOk_eq_hide (s : State) : s.memOk = (s.hide 0xFFFFFE7FF State.reset).memOk := rfl

/-- A change outside `mem` and `lost` keeps the form of memory. -/
theorem memOk_frame {s t : State} (h : s.memOk = true)
    (e : t.hide 0xFFFFFE7FF State.reset = s.hide 0xFFFFFE7FF State.reset) : t.memOk = true :=
  (congrArg State.memOk e).trans h

theorem memOk_ite {c : Prop} [Decidable c] {a b : State} (ha : a.memOk = true) (hb : b.memOk = true) :
    (if c then a else b).memOk = true := by
  split
  · exact ha
  · exact hb

/-- What follows only under a condition, and leaves memory alone, keeps its form. -/
theorem memOk_ite_frame {c : Prop} [Decidable c] {a b : State} (hb : b.memOk = true)
    (e : a.hide 0xFFFFFE7FF State.reset = b.hide 0xFFFFFE7FF State.reset) : (if c then a else b).memOk = true :=
  memOk_ite (memOk_frame hb e) hb

theorem memOk_each {α : Type} {f : State → α → State} (hf : ∀ s x, s.memOk = true → (f s x).memOk = true)
    {s : State} (h : s.memOk = true) (l : List α) : (s.each l f).memOk = true := by
  induction l generalizing s with
  | nil => exact h
  | cons x l ih => exact ih (hf s x h)

/-! ### Bytes stored: lines of cameras and beats of descriptors -/

theorem camWritten_memOk {s : State} (h : s.memOk = true) (c : Nat) : (camWritten s c).memOk = true := by
  have served : (servePorts s).memOk = true := memOk_frame h (servePorts_hide rfl ..)
  unfold camWritten
  simp only []
  split
  · exact served
  · exact memOk_ite served (memOk_frame (State.store_ok _ _ _ served) (State.setCam_hide rfl ..))

theorem putBeat_memOk {s : State} (h : s.memOk = true) (b : DescBody) (off : Nat) (bs : List Byte) :
    (putBeat s b off bs).memOk = true :=
  memOk_ite (memOk_frame h (writeHost_hide rfl ..)) (memOk_ite h (State.store_ok _ _ _ h))

theorem keepDrained_memOk {s : State} (h : s.memOk = true) (c : Nat) (x : DmaDesc) : (keepDrained s c x).memOk = true :=
  putBeat_memOk h ..

theorem runBeats_memOk {s : State} (h : s.memOk = true) (c : Nat) (x : DmaDesc) (rep : BeatReport) :
    (runBeats s c x rep).1.memOk = true := by
  have late : ∀ (s : State) (e : Nat × Nat), s.memOk = true →
      (putBeat s x.d.body e.1 (lateBytes s x.d.body e.1 e.2)).freshen.memOk = true :=
    fun s e hs => memOk_frame (putBeat_memOk hs ..) (State.freshen_hide rfl ..)
  unfold runBeats
  rw [memOk_eq_hide]
  simp only [giveBack_hide, State.hide_ite, ite_self, Nat.reduceOr]
  rw [← memOk_eq_hide]
  exact memOk_each late (memOk_each (fun s e hs => putBeat_memOk hs ..) h _) _

theorem dmaDone_memOk {s : State} (h : s.memOk = true) (c : Nat) (rep : BeatReport) : (dmaDone s c rep).memOk = true := by
  have served : (servePorts s).memOk = true := memOk_frame h (servePorts_hide rfl ..)
  unfold dmaDone
  simp only []
  split
  · exact served
  · exact memOk_ite served (memOk_frame (runBeats_memOk served ..) (finishDma_hide rfl ..))

theorem dmaArrived_memOk {s : State} (h : s.memOk = true) (c key off : Nat) (bs : Option (List Byte)) :
    (dmaArrived s c key off bs).memOk = true := by
  unfold dmaArrived
  simp only []
  split
  · exact h
  · refine memOk_ite h ?_
    split
    · exact memOk_frame (keepDrained_memOk (memOk_frame h (State.setChan_hide rfl ..)) ..) (finishDma_hide rfl ..)
    · refine memOk_frame h ?_
      simp only [askHost_hide, servePorts_hide, State.setChan_hide, Nat.reduceOr]

theorem restartDesc_memOk {s : State} (h : s.memOk = true) (c : Nat) : (restartDesc s c).memOk = true := by
  unfold restartDesc
  split
  · exact h
  · next x _ =>
    refine memOk_frame (keepDrained_memOk h c x) ?_
    simp only [askHost_hide, State.setChan_hide, Nat.reduceOr]

theorem retireDma_memOk {s : State} (h : s.memOk = true) (c : Nat) : (retireDma s c).memOk = true := by
  unfold retireDma
  simp only []
  split
  · refine memOk_ite_frame ?_ ?_
    · split
      · exact memOk_frame (keepDrained_memOk h ..) (State.setFld_hide rfl ..)
      · exact h
    · simp only [triggerFollowers_hide, closeRun_hide, State.setFld_hide, Nat.reduceOr]
  · split
    · exact h
    · refine memOk_ite_frame ?_ (haltRing_hide rfl ..)
      have discarded : (discardFrom s c 0).memOk = true := memOk_frame h (discardFrom_hide rfl ..)
      split
      · next x _ =>
        refine memOk_frame (keepDrained_memOk discarded c x) ?_
        simp only [triggerFollowers_hide, closeCpl_hide, State.setFld_hide, State.setChan_hide, State.hide_ite, ite_self,
          Nat.reduceOr]
      · exact discarded

theorem deliver_memOk {s : State} (h : s.memOk = true) (r : ReadReq) (bs : Option (List Byte)) : (deliver s r bs).memOk = true := by
  unfold deliver
  split
  case h_11 => exact dmaArrived_memOk h ..
  all_goals
    refine memOk_frame h ?_
    simp only [State.setRing_hide, contentArrived_hide, contentFaulted_hide, descFault_hide, fenceArrived_hide, polled_hide,
      slotsArrived_hide, State.hide_ite, ite_self, Nat.reduceOr]

theorem settle_memOk {s : State} (h : s.memOk = true) : (settle s).memOk = true := memOk_frame h (settle_hide rfl ..)

theorem readAnswered_memOk {s : State} (h : s.memOk = true) (id : BitVec 16) (status : BitVec 8) (data : List Byte) :
    (readAnswered s id status data).memOk = true := by
  unfold readAnswered
  split
  · exact settle_memOk h
  · refine memOk_ite (settle_memOk h) (settle_memOk (deliver_memOk (memOk_frame h ?_) ..))
    simp only [pump_hide, State.hide_hw, Nat.reduceOr]

/-! ### Content lost: retirements of memory channels -/

theorem retireMc_memOk {s : State} (h : s.memOk = true) (m : Nat) : (retireMc s m).memOk = true := by
  unfold retireMc
  rw [memOk_eq_hide]
  simp only [fallFor_hide, oweReproof_hide, State.each_hide, State.hide_ite, ite_self, Nat.reduceOr, implies_true]
  rw [← memOk_eq_hide]
  refine State.loseMemory_ok _ m (memOk_frame h ?_)
  simp only [State.mapFault_hide, abandonLoads_hide, dropCamLines_hide, loseLayer_hide, markInFlight_hide, refuseScans_hide,
    setThrottle_hide, State.each_hide, Nat.reduceOr, implies_true]

theorem retireActions_memOk {s : State} (h : s.memOk = true) (u cause : Nat) : (retireActions s u cause).memOk = true :=
  memOk_ite (retireMc_memOk h u) <| memOk_ite (memOk_frame h (retireLane_hide rfl ..)) <|
    memOk_ite (memOk_frame h (dropGroup_hide rfl ..)) <|
    memOk_ite (retireDma_memOk (memOk_frame h (State.setUnit_hide rfl ..)) _) (memOk_frame h (retireLink_hide rfl ..))

theorem retireWith_memOk {s : State} (h : s.memOk = true) (u cause fails : Nat) {actions : State → State}
    (ha : ∀ s, s.memOk = true → (actions s).memOk = true) : (retireWith s u cause fails actions).memOk = true := by
  unfold retireWith
  rw [memOk_eq_hide]
  simp only [journalMap_hide, State.mapBarn_hide, flogEntry_hide, raise_hide, writtenIfOff_hide, Nat.reduceOr]
  rw [← memOk_eq_hide]
  refine ha _ (memOk_frame h ?_)
  simp only [State.addFld_hide, pushRecord_hide, markRetired_hide, Nat.reduceOr]

theorem retireUnit_memOk {s : State} (h : s.memOk = true) (u cause fails : Nat) : (retireUnit s u cause fails).memOk = true := by
  have first : (retireOne s u cause fails).memOk = true := retireWith_memOk h _ _ _ fun _ hs => retireActions_memOk hs ..
  unfold retireUnit
  simp only []
  split
  · exact memOk_ite first (retireWith_memOk first _ _ _ fun _ hs => memOk_frame hs (dropMate_hide rfl ..))
  · exact first

theorem recoverUnit_memOk {s : State} (h : s.memOk = true) (u cause : Nat) : (recoverUnit s u cause).memOk = true := by
  have opened : (if isMc u then openLead s u else s).memOk = true := memOk_ite (memOk_frame h (openLead_hide rfl ..)) h
  unfold recoverUnit
  generalize (if isMc u then openLead s u else s) = t at opened
  simp only []
  split
  · refine memOk_frame opened ?_
    simp only [nextRecovery_hide, State.mapFault_hide, State.setUnit_hide, Nat.reduceOr]
  · split
    · refine memOk_frame opened ?_
      rw [dropGroup_hide rfl]
      split <;> simp only [State.setUnit_hide, Nat.reduceOr]
    · split
      · exact restartDesc_memOk (memOk_frame opened (State.setUnit_hide rfl ..)) _
      · exact memOk_frame opened (State.setUnit_hide rfl ..)

theorem unitFails_memOk {s : State} (h : s.memOk = true) (u cause : Nat) : (unitFails s u cause).memOk = true := by
  unfold unitFails
  refine memOk_ite h (memOk_ite ?_ ?_)
  · refine memOk_frame (retireUnit_memOk (memOk_frame h ?_) ..) (nextRecovery_hide rfl ..)
    simp only [raise_hide, State.mapBarn_hide, State.addFld_hide, State.setUnit_hide, Nat.reduceOr]
  · refine recoverUnit_memOk (memOk_frame h ?_) ..
    simp only [raise_hide, State.mapBarn_hide, State.addFld_hide, State.setFld_hide, State.setUnit_hide, Nat.reduceOr]

theorem failover_memOk {s : State} (h : s.memOk = true) : (failover s).memOk = true := memOk_frame h (failover_hide rfl ..)

theorem linkFailed_memOk {s : State} (h : s.memOk = true) (l : Link) (cause : Nat) : (linkFailed s l cause).memOk = true := by
  have failed := unitFails_memOk h (linkUnit l) cause
  unfold linkFailed
  exact memOk_ite h (settle_memOk (memOk_ite failed (memOk_ite (failover_memOk failed) failed)))

theorem unitFailure_memOk {s : State} (h : s.memOk = true) (u cause : Nat) : (unitFailure s u cause).memOk = true :=
  memOk_ite h (memOk_ite (linkFailed_memOk h ..) (settle_memOk (unitFails_memOk h ..)))

theorem rereadDone_memOk {s : State} (h : s.memOk = true) (m : Nat) (correct : Bool) : (rereadDone s m correct).memOk = true := by
  unfold rereadDone
  split
  · exact h
  · refine memOk_ite (settle_memOk (memOk_frame h ?_)) (settle_memOk (unitFails_memOk (memOk_frame h ?_) ..))
    · simp only [raise_hide, State.mapBarn_hide, State.addFld_hide, State.mapFault_hide, Nat.reduceOr]
    · split <;> simp only [loseLoad_hide, loseBale_hide, State.mapFault_hide, Nat.reduceOr]

theorem laneFails_memOk {s : State} (h : s.memOk = true) (l : Nat) : (laneFails s l).memOk = true := by
  refine memOk_frame (unitFails_memOk h (0x10 + l) 7) ?_
  unfold laneFails
  simp only [oweReproof_hide, State.mapFault_hide, State.hide_ite, ite_self, Nat.reduceOr]

theorem laneLost_memOk {s : State} (h : s.memOk = true) (l : Nat) : (laneLost s l).memOk = true :=
  memOk_frame (unitFails_memOk h ..) (State.mapFault_hide rfl ..)

theorem lbistResult_memOk {s : State} (h : s.memOk = true) (r : Lbist) : (lbistResult s r).memOk = true := by
  unfold lbistResult
  split
  · exact h
  · refine memOk_ite h ?_
    cases r with
    | pass =>
      refine memOk_frame h ?_
      simp only [lanePass_hide, State.addFld_hide, State.mapFault_hide, State.setFld_hide, State.hide_ite, ite_self, Nat.reduceOr]
    | fail =>
      refine memOk_ite (laneLost_memOk (memOk_frame h ?_) _)
        (memOk_ite (memOk_frame h ?_) (laneFails_memOk (memOk_frame h ?_) _)) <;>
      simp only [State.setUnit_hide, State.addFld_hide, State.mapFault_hide, State.setFld_hide, Nat.reduceOr]
    | notRun =>
      refine memOk_ite (memOk_ite (laneLost_memOk (memOk_frame h ?_) _) (memOk_frame h ?_))
        (memOk_ite (memOk_frame h ?_) (memOk_frame h ?_)) <;>
      simp only [raise_hide, State.addFld_hide, State.mapFault_hide, State.setFld_hide, Nat.reduceOr]

theorem hpdHigh_memOk {s : State} (h : s.memOk = true) (g : Nat) (sinkOk : Bool) : (hpdHigh s g sinkOk).memOk = true := by
  have seen : (s.setGroup g { s.group g with waitHpd := false }).memOk = true := memOk_frame h (State.setGroup_hide rfl ..)
  exact memOk_ite h (memOk_ite seen (settle_memOk (unitFails_memOk seen ..)))

theorem packetEnds_memOk {s : State} (h : s.memOk = true) (g : Fin 8) (ok : Bool) (resp : List Byte) :
    (packetEnds s g ok resp).memOk = true := by
  have done : (packetDone s g ok resp).memOk = true := memOk_frame h (packetDone_hide rfl ..)
  exact memOk_ite (settle_memOk (unitFails_memOk done ..)) done

theorem retxTimeout_memOk {s : State} (h : s.memOk = true) : (retxTimeout s).memOk = true := by
  unfold retxTimeout
  refine memOk_ite h (memOk_ite (linkFailed_memOk h ..) (memOk_frame h ?_))
  simp only [resendAll_hide, State.hide_hw, Nat.reduceOr]

theorem linkDown_memOk {s : State} (h : s.memOk = true) (l : Link) : (linkDown s l).memOk = true := by
  have failed : (linkFailed (stopWaking (setUp s l false) l) l 10).memOk = true := by
    refine linkFailed_memOk (memOk_frame h ?_) l 10
    simp only [stopWaking_hide, setUp_hide, Nat.reduceOr]
  unfold linkDown
  exact memOk_ite h (memOk_ite_frame (memOk_ite (settle_memOk (failover_memOk failed)) failed) (holdOver_hide rfl ..))

/-! ### Resets and the start sequence -/

/-- A reset keeps memory with its lost channels, or empties both (log 41). -/
theorem resetBase_memOk {s : State} (h : s.memOk = true) (step1 : Bool) : (resetBase s step1).memOk = true := by
  unfold resetBase
  refine memOk_each (fun t i ht => memOk_frame ht ?_) ?_ _
  · simp only [setCond_hide, State.setFld_hide, Nat.reduceOr]
  · cases step1 with
    | true => rfl
    | false => exact h

theorem leaveOut_memOk {s : State} (h : s.memOk = true) (u cause : Nat) : (leaveOut s u cause).memOk = true := by
  unfold leaveOut
  refine memOk_ite (State.loseMemory_ok _ u (memOk_frame h (State.setUnit_hide rfl ..))) (memOk_frame h ?_)
  simp only [setGroupState_hide, State.setFld_hide, State.setUnit_hide, State.hide_ite, ite_self, Nat.reduceOr]

theorem retireFromMap_memOk {s : State} (h : s.memOk = true) : (retireFromMap s).memOk = true :=
  memOk_each (fun _ _ hs => memOk_ite (leaveOut_memOk hs ..) hs) h _

theorem startFails_memOk {s : State} (h : s.memOk = true) (u cause : Nat) (counted : Bool) :
    (startFails s u cause counted).memOk = true := by
  unfold startFails
  refine memOk_ite h ?_
  rw [memOk_eq_hide]
  simp only [journalMap_hide, State.mapBarn_hide, loseHost_hide, flogEntry_hide, raise_hide, writtenIfOff_hide, State.addFld_hide,
    pushRecord_hide, State.hide_ite, ite_self, Nat.reduceOr]
  rw [← memOk_eq_hide]
  refine leaveOut_memOk (memOk_frame h ?_) u cause
  simp only [linkFault_hide, raise_hide, State.mapBarn_hide, State.addFld_hide, State.hide_ite, ite_self, Nat.reduceOr]

theorem startRetires_memOk {s : State} (h : s.memOk = true) (u cause : Nat) : (startRetires s u cause).memOk = true := by
  have first := startFails_memOk h u cause true
  unfold startRetires
  simp only []
  split
  · exact startFails_memOk first ..
  · exact first

theorem trainChannels_memOk {s : State} (h : s.memOk = true) (bad : BitVec 4) : (trainChannels s bad).memOk = true :=
  memOk_each (fun _ _ hs =>
    memOk_ite hs (memOk_ite (startRetires_memOk hs ..) (memOk_frame hs (State.hide_pow _ _ _ rfl _)))) h _

theorem testUnits_memOk {s : State} (h : s.memOk = true) (rep : StartReport) : (testUnits s rep).memOk = true := by
  refine memOk_each (fun t u ht => memOk_ite ht ?_)
    (memOk_each (fun t u ht => memOk_ite (startRetires_memOk ht ..) ht) h _) _
  split
  · exact ht
  · exact startRetires_memOk ht ..
  · exact memOk_frame ht (raise_hide rfl ..)

theorem startSequence_memOk {s : State} (h : s.memOk = true) (step1 : Bool) (rep : StartReport) :
    (startSequence s step1 rep).memOk = true := by
  unfold startSequence
  simp only []
  split
  · exact memOk_frame h (State.hide_pow _ _ _ rfl _)
  · split
    · rw [memOk_eq_hide]
      simp only [enterService_hide, startOutputs_hide, loadParts_hide, coreFails_hide, State.hide_ite, ite_self, Nat.reduceOr]
      rw [← memOk_eq_hide]
      refine testUnits_memOk (trainChannels_memOk (retireFromMap_memOk (memOk_frame h ?_)) _) rep
      simp only [loadImage_hide, showBank_hide, startBarn_hide, showPower_hide, showFrontEnd_hide, Nat.reduceOr]
    · refine memOk_frame h ?_
      simp only [startBarn_hide, showPower_hide, showFrontEnd_hide, Nat.reduceOr]

theorem restart_memOk {s : State} (h : s.memOk = true) (step1 : Bool) (cause : Nat) (rep : StartReport) :
    (restart s step1 cause rep).memOk = true := by
  unfold restart
  refine memOk_ite_frame ?_ (State.mapBarn_hide rfl ..)
  refine startSequence_memOk (memOk_frame (resetBase_memOk (memOk_frame h ?_) _) (State.setReg_hide rfl ..)) ..
  simp only [lowerWake_hide, stopBarn_hide, State.hide_ite, ite_self, Nat.reduceOr]

theorem powerGood_memOk {s : State} (h : s.memOk = true) (rep : StartReport) : (powerGood s rep).memOk = true :=
  memOk_ite h (restart_memOk h ..)

theorem softReset_memOk {s : State} (h : s.memOk = true) (rep : StartReport) : (softReset s rep).memOk = true := restart_memOk h ..

/-! ### Register writes, which may ask for the soft reset -/

theorem accessWrite_memOk {s : State} (h : s.memOk = true) (path : Path) (addr w : Word) :
    (accessWrite s path addr w).s.memOk = true :=
  memOk_frame h (accessWrite_hide rfl ..)

theorem finishWrite_memOk {x : Written} (h : x.s.memOk = true) : (finishWrite x).memOk = true :=
  memOk_ite (softReset_memOk (memOk_frame h (State.freshen_hide rfl ..)) _) h

theorem writeWord_memOk {s : State} (h : s.memOk = true) (path : Path) (addr w : Word) : (writeWord s path addr w).memOk = true :=
  finishWrite_memOk (accessWrite_memOk h ..)

theorem resetWrite_memOk {s : State} (h : s.memOk = true) (path : Path) (w : Word) (rep : StartReport) :
    (resetWrite s path w rep).memOk = true :=
  memOk_ite (softReset_memOk (accessWrite_memOk h ..) rep) (accessWrite_memOk h ..)

theorem spiStore_memOk {s : State} (h : s.memOk = true) (inc : Bool) (ws : List Word) (a : BitVec 24) :
    (spiStore inc ws a s).memOk = true := by
  induction ws generalizing a s with
  | nil => exact h
  | cons w ws ih => exact memOk_ite (finishWrite_memOk (accessWrite_memOk h ..)) (ih (accessWrite_memOk h ..) _)

theorem writeRun_memOk {s : State} (h : s.memOk = true) (addr : Word) (fixed : Bool) (ws : List (Nat × Word)) :
    (writeRun s addr fixed ws).s.memOk = true := by
  unfold writeRun
  refine List.foldlRecOn (motive := fun x : RegRun => x.s.memOk = true) ws _ h fun x hx e _ => ?_
  split
  · exact hx
  · exact finishWrite_memOk (accessWrite_memOk hx ..)

theorem regWritten_memOk {s : State} (h : s.memOk = true) (f : RxFrame) (addr : Word) (count : BitVec 8) (fixed : Bool)
    (bs : List Byte) : (regWritten s f addr count fixed bs).memOk = true :=
  memOk_ite (settle_memOk (memOk_frame h (sendSeq_hide rfl ..)))
    (memOk_ite (writeRun_memOk h ..) (settle_memOk (memOk_frame (writeRun_memOk h ..) (sendSeq_hide rfl ..))))

/-! ### Received frames -/

/-- Outside what the frame itself asks for, taking a frame leaves memory as it was in every case. -/
theorem takeFrame_memOk {s : State} (h : s.memOk = true) (c : Sess) (isNew : Bool) (f : RxFrame) (sequenced : Bool)
    {act : State → State} (ha : ∀ s, s.memOk = true → (act s).memOk = true) :
    (takeFrame s c isNew f sequenced act).memOk = true := by
  unfold takeFrame
  refine memOk_ite ?unsequenced (memOk_ite (memOk_ite (ha _ ?confirmed) ?notFirst) (memOk_ite (ha _ ?accepted) ?outOfOrder))
  all_goals
    refine memOk_frame h ?_
    simp only [settle_hide, confirm_hide, acceptSeq_hide, sendAck_hide, pump_hide, backToA_hide, takeAck_hide, linkRecovered_hide,
      countRx_hide, State.hide_ite, ite_self, Nat.reduceOr]

theorem receive_memOk {s : State} (h : s.memOk = true) (f : RxFrame) (kind : Nat) (bytes : List Byte) (sequenced : Bool)
    {act : State → State} (ha : ∀ s, s.memOk = true → (act s).memOk = true) :
    (receive s f kind bytes sequenced act).memOk = true := by
  have rejected : (rejectFrame s).memOk = true := memOk_frame h (rejectFrame_hide rfl ..)
  unfold receive
  refine memOk_ite h (memOk_ite rejected ?_)
  split
  · exact rejected
  · exact h
  · exact memOk_ite (takeFrame_memOk h _ _ _ _ ha) (memOk_frame h (tagFails_hide rfl ..))

/-! ### Commands -/

/-- Every state that the answer completes with holds device memory in its canonical form. -/
def MemOkAfter (a : Answer) : Prop := ∀ t, a = .next t → t.memOk = true

theorem answer_memOk {s u : State} (h : u.memOk = true) : MemOkAfter (answer s u) := by
  intro t e
  cases e
  exact h

theorem whenUp_memOk {s : State} (h : s.memOk = true) {f : State → State} (hf : ∀ s, s.memOk = true → (f s).memOk = true) :
    MemOkAfter (whenUp s f) :=
  answer_memOk (memOk_ite (hf s h) h)

theorem whenServed_memOk {s : State} (h : s.memOk = true) {path : Path} {f : State → State}
    (hf : ∀ s, s.memOk = true → (f s).memOk = true) : MemOkAfter (whenServed s path f) :=
  whenUp_memOk h fun s hs => memOk_ite (hf s hs) hs

theorem whenUp_frame {s : State} (h : s.memOk = true) {f : State → State}
    (hf : ∀ s, (f s).hide 0xFFFFFE7FF State.reset = s.hide 0xFFFFFE7FF State.reset) : MemOkAfter (whenUp s f) :=
  whenUp_memOk h fun s hs => memOk_frame hs (hf s)

theorem whenServed_frame {s : State} (h : s.memOk = true) {path : Path} {f : State → State}
    (hf : ∀ s, (f s).hide 0xFFFFFE7FF State.reset = s.hide 0xFFFFFE7FF State.reset) : MemOkAfter (whenServed s path f) :=
  whenServed_memOk h fun s hs => memOk_frame hs (hf s)

theorem whenStarted_memOk {s : State} (h : s.memOk = true) {f : State → State}
    (hf : ∀ s, s.memOk = true → (f s).memOk = true) : MemOkAfter (whenStarted s f) :=
  whenUp_memOk h fun s hs => memOk_ite (hf s hs) hs

theorem idle_memOk {s : State} (h : s.memOk = true) : MemOkAfter (idle s) :=
  whenUp_frame h fun s => by
    simp only [portsGoOn_hide, releaseSilentCams_hide, countCorrected_hide, countPeriod_hide, refclkTick_hide, Nat.reduceOr]

/-- Every command keeps the form of memory: most leave memory alone, the others run the operations above. -/
theorem exec_memOk {s : State} (h : s.memOk = true) (c : Instr) : MemOkAfter (exec c s) := by
  unfold exec
  cases c with
  | powerGood _ => exact answer_memOk (powerGood_memOk h ..)
  | podlClassified _ _ _ => exact answer_memOk (memOk_frame h (classify_hide rfl ..))
  | resetN _ => exact whenUp_memOk h fun _ hs => restart_memOk hs ..
  | softReset _ _ _ => exact whenServed_memOk h fun _ hs => resetWrite_memOk hs ..
  | lineLoss => exact whenUp_frame h fun _ => loseLine_hide rfl ..
  | tempSample _ => exact whenUp_frame h fun _ => tempSample_hide rfl ..
  | vbusOvercurrent => exact whenUp_memOk h fun _ hs => memOk_ite_frame hs (openVbus_hide rfl ..)
  | vbusRetry _ => exact whenUp_frame h fun _ => vbusRetry_hide rfl ..
  | regWrite _ _ _ | counterClear _ _ | aliasWrite _ _ _ | writeLo _ _ _ | writeHi _ _ _ | indexWrite _ _ _
  | dataWrite _ _ _ =>
    exact whenServed_memOk h fun _ hs => writeWord_memOk hs ..
  | dataRead _ _ => exact whenServed_frame h fun _ => readWord_hide rfl ..
  | spiReadInc _ _ | spiReadFixed _ _ => exact whenUp_frame h fun _ => spiRead_hide rfl ..
  | spiWriteInc _ _ | spiWriteFixed _ _ => exact whenUp_memOk h fun _ hs => spiStore_memOk hs ..
  | strobe _ _ => exact whenServed_frame h fun _ => strobe_hide rfl ..
  | strobeProofDone => exact whenUp_frame h fun _ => strobeProved_hide rfl ..
  | openSession _ _ => exact whenUp_frame h fun _ => openFrame_hide rfl ..
  | openTimeout => exact whenUp_frame h fun _ => openTimeout_hide rfl ..
  | close _ =>
    exact whenUp_memOk h fun _ hs => receive_memOk hs _ _ _ _ fun s hs => by
      refine memOk_frame hs ?_
      simp only [settle_hide, closeSession_hide, sendAck_hide, Nat.reduceOr]
  | sessionCloseReg _ => exact whenServed_memOk h fun _ hs => settle_memOk (memOk_frame hs (closeSession_hide rfl ..))
  | ack _ => exact whenUp_memOk h fun _ hs => receive_memOk hs _ _ _ _ fun _ hs => hs
  | keepalive _ => exact whenUp_memOk h fun _ hs => receive_memOk hs _ _ _ _ fun _ hs => settle_memOk hs
  | ackDue => exact whenUp_memOk h fun _ hs => memOk_ite_frame hs (sendAck_hide rfl ..)
  | keepaliveTimer => exact whenUp_frame h fun _ => keepaliveDue_hide rfl ..
  | retxTimeout => exact whenUp_memOk h fun _ hs => retxTimeout_memOk hs ..
  | linkDown _ => exact whenUp_memOk h fun _ hs => linkDown_memOk hs ..
  | linkUp _ _ => exact whenUp_memOk h fun _ hs => memOk_ite_frame hs (linkUp_hide rfl ..)
  | linkSleepRequest _ => exact whenUp_frame h fun _ => sleepRequest_hide rfl ..
  | linkWakeup _ => exact whenUp_frame h fun _ => partnerWakes_hide rfl ..
  | linkWakeRequest _ _ => exact whenServed_frame h fun _ => wakeAsked_hide rfl ..
  | arpRequest _ _ _ _ _ | neighbourSolicitation _ _ _ _ _ =>
    exact whenStarted_memOk h fun _ hs => memOk_ite_frame hs (answerAddress_hide rfl ..)
  | doorbellSubmit _ _ _ _ | doorbellCplCi _ _ _ _ | doorbellPrecCi _ _ _ _ | doorbellEqCi _ _ _ _ =>
    exact whenUp_frame h fun _ => doorbell_hide rfl ..
  | ringPoll _ => exact whenUp_frame h fun _ => pollRing_hide rfl ..
  | readResp _ _ _ _ => exact whenUp_memOk h fun _ hs => receive_memOk hs _ _ _ _ fun _ hs => readAnswered_memOk hs ..
  | regRd _ _ _ _ _ => exact whenUp_memOk h fun _ hs => receive_memOk hs _ _ _ _ fun _ hs => memOk_frame hs (regRead_hide rfl ..)
  | regWr _ _ _ _ _ _ => exact whenUp_memOk h fun _ hs => receive_memOk hs _ _ _ _ fun _ hs => regWritten_memOk hs ..
  | ringRun _ _ => exact whenServed_frame h fun _ => startRing_hide rfl ..
  | ringStop _ _ => exact whenServed_frame h fun _ => stopRing_hide rfl ..
  | ringReset _ _ => exact whenServed_frame h fun _ => resetRing_hide rfl ..
  | ringResume _ _ => exact whenServed_frame h fun _ => resumeRing_hide rfl ..
  | precEnable _ _ _ => exact whenServed_frame h fun _ => enablePrec_hide rfl ..
  | nop _ _ _ | jump _ _ _ | layerWords _ _ _ | layerBlock _ _ _ | objWords _ _ _ | objBlock _ _ _ | lutLoad _ _ _
  | matrix _ _ _ | loftLoad _ _ _ | fenceAcq _ _ _ | commit _ _ _ | copy _ _ _ | fill _ _ _ | write32 _ _ _ =>
    exact whenUp_frame h fun _ => arrive_hide rfl ..
  | winnowProofEnd =>
    exact whenUp_memOk h fun _ hs => settle_memOk (memOk_frame (memOk_frame hs (sceneProved_hide rfl ..)) (readmitIdle_hide rfl ..))
  | dmaDescDone _ _ => exact whenUp_memOk h fun _ hs => settle_memOk (dmaDone_memOk hs ..)
  | triggerTimer _ =>
    exact whenUp_memOk h fun _ hs =>
      memOk_ite (memOk_frame (memOk_frame hs (triggerChan_hide rfl ..)) (serveRuns_hide rfl ..)) hs
  | engineHalt => exact whenUp_memOk h fun _ hs => settle_memOk (memOk_frame hs (engineHalt_hide rfl ..))
  | engineRestart _ =>
    exact whenServed_memOk h fun _ hs =>
      settle_memOk (memOk_each (fun _ _ ht => memOk_frame ht (startDma_hide rfl ..)) (memOk_frame hs (restartEngine_hide rfl ..)) _)
  | scanGo _ _ => exact whenServed_frame h fun _ => scanGo_hide rfl ..
  | scanStop _ _ => exact whenServed_frame h fun _ => scanStop_hide rfl ..
  | scanDone _ _ => exact whenUp_frame h fun _ => scanDone_hide rfl ..
  | frameStart _ _ => exact whenUp_frame h fun _ => frameStart_hide rfl ..
  | commitDeadline _ => exact whenUp_frame h fun _ => commitDeadline_hide rfl ..
  | fencePoll => exact whenUp_memOk h fun _ hs => settle_memOk (memOk_frame hs (fencePoll_hide rfl ..))
  | linePositionStep _ _ => exact whenUp_frame h fun _ => lineStep_hide rfl ..
  | lastBaleFetched _ => exact whenUp_memOk h fun _ hs => settle_memOk (memOk_frame hs (lastBale_hide rfl ..))
  | loftLoadDone _ => exact whenUp_frame h fun _ => loadDone_hide rfl ..
  | eccUncorrectable _ _ => exact whenUp_frame h fun _ => eccError_hide rfl ..
  | eccRereadDone _ _ => exact whenUp_memOk h fun _ hs => rereadDone_memOk hs ..
  | unitFailure _ _ => exact whenUp_memOk h fun _ hs => unitFailure_memOk hs ..
  | mcRecoveryDone => exact whenUp_frame h fun _ => mcRecovered_hide rfl ..
  | reproofDone => exact whenUp_memOk h fun _ hs => settle_memOk (memOk_frame hs (reproofDone_hide rfl ..))
  | linkRecoveryDone _ => exact whenUp_memOk h fun _ hs => memOk_ite_frame hs (linkRecovered_hide rfl ..)
  | retirementRecord => exact whenUp_frame h fun _ => issueRetirement_hide rfl ..
  | rrecConsume _ _ => exact whenServed_frame h fun _ => consumeRecords_hide rfl ..
  | rrecEnable _ _ => exact whenServed_frame h fun _ => enableRecords_hide rfl ..
  | retestGo _ _ => exact whenServed_frame h fun _ => retestWrite_hide rfl ..
  | retestDone _ => exact whenUp_frame h fun _ => retestEnds_hide rfl ..
  | rotationSwap => exact whenUp_memOk h fun _ hs => settle_memOk (memOk_frame hs (rotationSwap_hide rfl ..))
  | lbistResult _ => exact whenUp_memOk h fun _ hs => settle_memOk (lbistResult_memOk hs ..)
  | rotationLate _ => exact whenUp_frame h fun _ => rotationLate_hide rfl ..
  | pllLocked _ => exact whenUp_memOk h fun _ hs => memOk_ite_frame hs (pllLocked_hide rfl ..)
  | pllLockTimeout _ => exact whenUp_frame h fun _ => pllLockTimeout_hide rfl ..
  | teEdge _ => exact whenUp_frame h fun _ => teEdge_hide rfl ..
  | teMissing _ => exact whenUp_frame h fun _ => teMissing_hide rfl ..
  | camLockLost _ => exact whenUp_frame h fun _ => camLockLost_hide rfl ..
  | hpdHigh _ _ => exact whenUp_memOk h fun _ hs => hpdHigh_memOk hs ..
  | hpdLowTimeout _ | hpdPulse _ _ | hpdWaitTimeout _ =>
    exact whenUp_memOk h fun _ hs => memOk_ite (settle_memOk (unitFails_memOk hs ..)) hs
  | linkReady _ => exact whenUp_frame h fun _ => groupReady_hide rfl ..
  | pktGo _ _ => exact whenServed_frame h fun _ => packetGo_hide rfl ..
  | pktDone _ _ _ => exact whenStarted_memOk h fun _ hs => packetEnds_memOk hs ..
  | pktDataPush _ _ _ => exact whenServed_frame h fun _ => packetPush_hide rfl ..
  | pktDataPop _ _ =>
    exact whenServed_memOk h fun _ hs => memOk_frame (memOk_frame hs (packetPop_hide rfl ..)) (State.emit_hide rfl ..)
  | camFrameStart _ => exact whenUp_frame h fun _ => camFrameStart_hide rfl ..
  | camLine _ _ _ _ => exact whenUp_frame h fun _ => camLineIn_hide rfl ..
  | camLineWritten _ =>
    exact whenUp_memOk h fun _ hs => memOk_each (fun _ _ ht => memOk_frame ht (fetchAhead_hide rfl ..)) (camWritten_memOk hs _) _
  | camFrameEnd _ => exact whenUp_memOk h fun _ hs => memOk_ite_frame hs (camClose_hide rfl ..)
  | ptpSync _ _ _ => exact whenUp_memOk h fun _ hs => memOk_ite_frame hs (ptpSync_hide rfl ..)
  | ptpPdelayReq _ _ => exact whenUp_memOk h fun _ hs => memOk_ite_frame hs (State.emit_hide rfl ..)
  | ptpPdelayTimer | wakePulseEnd | ptpPdelayResp _ _ _ => exact whenUp_memOk h fun _ hs => memOk_ite hs hs
  | timeHoldover => exact whenUp_frame h fun _ => holdOver_hide rfl ..
  | zoneUpdate _ => exact whenUp_frame h fun _ => zoneUpdate_hide rfl ..
  | blinkPhase _ => exact whenUp_frame h fun _ => blinkStep_hide rfl ..
  | bulbCheckEnd =>
    exact whenUp_memOk h fun s hs => memOk_ite (memOk_frame (s := { s with pow := _ }) hs (refreshTelltales_hide rfl ..)) hs
  | ttOpenLoad _ => exact whenUp_memOk h fun _ hs => memOk_ite_frame hs (setTtFault_hide rfl ..)
  | ttOffTest _ _ =>
    exact whenUp_memOk h fun _ hs =>
      memOk_ite (memOk_ite (memOk_frame hs (setTtFault_hide rfl ..)) (memOk_frame hs (ttPass_hide rfl ..))) hs
  | ttShort _ =>
    exact whenUp_memOk h fun s hs => memOk_ite_frame hs (by
      simp only [refreshTelltales_hide, setTtFault_hide, State.setTt_hide, Nat.reduceOr])
  | ttShortRetry _ _ =>
    exact whenUp_memOk h fun s hs => memOk_ite_frame hs (by
      simp only [setTtFault_hide, ttPass_hide, State.setTt_hide, State.hide_ite, ite_self, Nat.reduceOr])
  | canFrameReceived _ _ _ _ _ =>
    exact whenUp_memOk h fun _ hs =>
      memOk_ite (memOk_frame (memOk_each (fun _ _ ht => memOk_frame ht (entryReceives_hide rfl ..)) hs _)
        (refreshTelltales_hide rfl ..)) hs
  | mapperTimeout _ =>
    exact whenUp_memOk h fun s hs => memOk_ite_frame hs (by
      simp only [raise_hide, refreshTelltales_hide, State.setMapEntry_hide, Nat.reduceOr])
  | canStatusTx _ => exact whenStarted_memOk h fun _ hs => memOk_ite_frame hs (State.emit_hide rfl ..)
  | busOff _ =>
    exact whenUp_memOk h fun _ hs => memOk_ite (memOk_frame (memOk_frame hs (State.setFld_hide rfl ..)) (raise_hide rfl ..)) hs
  | snsChange _ _ => exact answer_memOk (memOk_frame h (sensePin_hide rfl ..))
  | eventOccurrence _ _ => exact whenUp_frame h fun _ => occur_hide rfl ..
  | resample _ => exact whenUp_frame h fun _ => resample_hide rfl ..
  | eventRecordIssue =>
    exact whenUp_memOk h fun s hs => by
      split
      · exact memOk_frame hs (issueRecord_hide rfl ..)
      · exact hs
  | sourceComplete _ _ => exact whenServed_frame h fun _ => completeSource_hide rfl ..
  | sourceMask _ _ _ => exact whenServed_frame h fun _ => maskSource_hide rfl ..
  | queueSleep _ _ => exact whenServed_frame h fun _ => sleepQueue_hide rfl ..
  | queueAwake _ _ => exact whenServed_frame h fun _ => awakeQueue_hide rfl ..
  | qmaskClear _ _ => exact whenServed_frame h fun _ => writeQmask_hide rfl ..
  | spiFlagClear _ _ => exact whenServed_frame h fun _ => clearSpi_hide rfl ..
  | rawFlush _ => exact whenServed_frame h fun _ => rawFlush_hide rfl ..
  | rawErase _ => exact whenServed_frame h fun _ => rawErase_hide rfl ..
  | rawDone _ => exact whenUp_frame h fun _ => finishRaw_hide rfl ..
  | journalWrite _ => exact whenServed_frame h fun _ => journalGo_hide rfl ..
  | jwDone => exact whenUp_frame h fun _ => finishJob_hide rfl ..
  | journalRead _ => exact whenServed_frame h fun _ => journalRead_hide rfl ..
  | jrDone => exact whenUp_frame h fun _ => finishRead_hide rfl ..
  | gleanerRun => exact whenUp_frame h fun _ => gleanerRun_hide rfl ..
  | sectorRetired _ _ => exact whenUp_frame h fun _ => sectorFailed_hide rfl ..
  | faultSummaryWrite => exact whenUp_memOk h fun _ hs => memOk_ite_frame hs (State.mapBarn_hide rfl ..)
  | perfStart _ => exact whenServed_frame h fun _ => startWindows_hide rfl ..
  | perfStop _ => exact whenServed_frame h fun _ => stopWindows_hide rfl ..
  | perfWindowEnd => exact whenUp_frame h fun _ => windowTimeUp_hide rfl ..
  | pwmPeriodBoundary => exact whenUp_memOk h fun _ hs => hs
  | busOffRecovery _ | canBusError _ _ _ =>
    exact whenUp_memOk h fun s hs => memOk_ite_frame hs (by simp only [State.setFld_hide, Nat.reduceOr])
  | ttCheckPass _ => exact whenUp_memOk h fun _ hs => memOk_ite_frame hs (ttPass_hide rfl ..)
  | sectorEraseDone _ => exact whenUp_frame h fun _ => sectorErased_hide rfl ..

theorem step_memOk {s : State} (h : s.memOk = true) : MemOkAfter (step s) := by
  unfold step
  split
  · next c rest _ => exact exec_memOk (s := { s with pending := rest }) h c
  · exact idle_memOk h

end Sys2Proof.Machine

namespace Sys2Proof.Proofs.Architecture

open Sys2Proof.Machine

/-- Settles O59: memory changes only where bytes are stored, a channel loses its content or a reset begins, and each of these keeps
its form. -/
theorem memoryForm : Obligations.MemoryForm :=
  ⟨fun _ _ h => step_memOk h _, fun c _ _ h => exec_memOk h c _⟩

end Sys2Proof.Proofs.Architecture
end

section
/-! PROOFS. A module without its rails (spec 02, R41, R48, R51, R52, R59; log 45): every command but three asks for the rails first,
and what the three do without them. With the obligations on a line loss. -/

namespace Sys2Proof.Machine

/-! ### Commands that ask for the rails -/

/-- Every command but POWER_GOOD, PODL_CLASSIFIED and SNS_CHANGE is a command of a powered module. -/
theorem exec_eq_whenUp (c : Instr) (hgood : ∀ rep, c ≠ .powerGood rep) (hpodl : ∀ a b n, c ≠ .podlClassified a b n)
    (hsns : ∀ p l, c ≠ .snsChange p l) : ∃ f : State → State, ∀ s, exec c s = whenUp s f := by
  cases c with
  | powerGood rep => exact absurd rfl (hgood rep)
  | podlClassified cls watts noclass => exact absurd rfl (hpodl cls watts noclass)
  | snsChange pin level => exact absurd rfl (hsns pin level)
  | _ => exact ⟨_, fun _ => rfl⟩

/-- Without the rails such a command leaves the module as it was. -/
theorem exec_unpowered {c : Instr} {s : State} (hup : ¬s.isUp) (hgood : ∀ rep, c ≠ .powerGood rep)
    (hpodl : ∀ a b n, c ≠ .podlClassified a b n) (hsns : ∀ p l, c ≠ .snsChange p l) : exec c s = .next s := by
  obtain ⟨f, hf⟩ := exec_eq_whenUp c hgood hpodl hsns
  rw [hf, whenUp_not s f hup]

/-- A command's answer is the state that its meaning leaves, where that has left the queue alone. -/
theorem answer_eq_next {s t : State} (h : t.pending = s.pending) : answer s t = .next t := by
  rw [answer, ← h]

/-! ### Parts that two states share -/

theorem TouchesOnly.refl (l : List Part) (s : State) : TouchesOnly l s s := fun p _ => by cases p <;> rfl

/-! ### What is done without the rails -/

/-- The front end's class and the pins' levels: the registers that follow the balls without the rails. -/
def heldWithoutRails (a : Nat) : Prop := a = A.sysPodlStat ∨ ∃ i : Fin 8, a = A.evtSnsCfg i

/-- What a command but POWER_GOOD may change of a module that is down. -/
structure StaysDown (s t : State) : Prop where
  power : t.pow.power = .down
  pending : t.pending = s.pending
  touches : TouchesOnly [.regs, .pow] s t
  regs : SameRegsBut heldWithoutRails s t

theorem StaysDown.refl {s : State} (h : s.pow.power = .down) : StaysDown s s := ⟨h, rfl, .refl _ s, fun _ _ => rfl⟩

/-- Showing the front end writes SYS.PODL_STAT alone. -/
theorem showFrontEnd_reg_other (s : State) (locked : Bool) {a : Nat} (h : a ≠ A.sysPodlStat) :
    (showFrontEnd s locked).reg a = s.reg a := by
  rw [showFrontEnd, State.reg_setFld_other _ _ _ _ h, State.reg_setFld_other _ _ _ _ h, State.reg_setFld_other _ _ _ _ h]

@[simp] theorem showFrontEnd_pow (s : State) (locked : Bool) : (showFrontEnd s locked).pow = s.pow := rfl

/-- What a classification before the start changes. -/
theorem classify_touches (s : State) (cls : BitVec 6) (watts : Nat) (noclass : Bool) :
    TouchesOnly [.regs, .pow] s (classify s cls watts noclass) ∧ (classify s cls watts noclass).pending = s.pending :=
  State.touches_of_hide [.regs, .pow] rfl fun d => classify_hide (by decide) d s cls watts noclass

theorem exec_podlClassified (cls : BitVec 6) (watts : Nat) (noclass : Bool) (s : State) :
    exec (.podlClassified cls watts noclass) s = .next (classify s cls watts noclass) :=
  answer_eq_next (classify_touches s cls watts noclass).2

theorem classify_unstarted {s : State} (h : ¬(s.isUp ∧ s.pow.started = true)) (cls : BitVec 6) (watts : Nat) (noclass : Bool) :
    classify s cls watts noclass = showFrontEnd { s with pow := { s.pow with
      classified := true, podlClass := cls, podlWatts := watts, noclass := noclass } } true := by
  rw [classify, if_neg]
  rwa [Bool.and_eq_true, decide_eq_true_eq]

theorem staysDown_classify {s : State} (h : s.pow.power = .down) (cls : BitVec 6) (watts : Nat) (noclass : Bool) :
    StaysDown s (classify s cls watts noclass) := by
  have hstart : ¬(s.isUp ∧ s.pow.started = true) := by simp [State.isUp, h]
  obtain ⟨htouches, hpending⟩ := classify_touches s cls watts noclass
  refine ⟨?_, hpending, htouches, fun a ha => ?_⟩
  · rw [classify_unstarted hstart]
    exact h
  · rw [classify_unstarted hstart, showFrontEnd_reg_other _ _ fun e => ha (.inl e)]
    rfl

theorem sensePin_down {s : State} (h : s.pow.power = .down) (i : Nat) (level : Bool) :
    sensePin s i level = s.setFld (F.evtSnsCfgLevelNow i) level.toNat := by
  rw [sensePin, h]

theorem staysDown_sensePin {s : State} (h : s.pow.power = .down) (i : Fin 8) (level : Bool) :
    StaysDown s (sensePin s i level) := by
  rw [sensePin_down h]
  obtain ⟨htouches, hpending⟩ := State.touches_of_hide (s := s) (t := s.setFld (F.evtSnsCfgLevelNow i) level.toNat)
    [.regs, .pow] rfl fun d => State.setFld_hide (by decide) d ..
  exact ⟨h, hpending, htouches, fun a ha => State.reg_setFld_other _ _ _ _ fun e => ha (.inr ⟨i, e⟩)⟩

/-- Every command but POWER_GOOD keeps a module down that has lost its line. -/
theorem staysDown_exec {c : Instr} {s t : State} (h : s.pow.power = .down) (hgood : ∀ rep, c ≠ .powerGood rep)
    (ht : exec c s = .next t) : StaysDown s t := by
  by_cases hpodl : ∃ a b n, c = .podlClassified a b n
  · obtain ⟨cls, watts, noclass, rfl⟩ := hpodl
    cases ht.symm.trans (exec_podlClassified cls watts noclass s)
    exact staysDown_classify h cls watts noclass
  by_cases hsns : ∃ p l, c = .snsChange p l
  · obtain ⟨pin, level, rfl⟩ := hsns
    have hkept := staysDown_sensePin h pin level
    cases ht.symm.trans (answer_eq_next hkept.pending)
    exact hkept
  · have hup : ¬s.isUp := by simp [State.isUp, h]
    have hnext := exec_unpowered hup hgood (fun a b n e => hpodl ⟨a, b, n, e⟩) (fun p l e => hsns ⟨p, l, e⟩)
    cases ht.symm.trans hnext
    exact .refl h

/-- No step leads out of a line loss while no power-good waits. -/
theorem dark_step {s t : State} (h : s.dark) (ht : step s = .next t) : t.dark := by
  obtain ⟨hdown, hqueue⟩ := h
  unfold step at ht
  split at ht
  · next c rest hpending =>
    rw [hpending] at hqueue
    have hkept := staysDown_exec (s := { s with pending := rest }) hdown (hqueue c (by simp)) ht
    refine ⟨hkept.power, ?_⟩
    rw [hkept.pending]
    exact fun d hd => hqueue d (by simp [hd])
  · have hidle : idle s = .next s := whenUp_not s _ (by simp [hdown])
    cases ht.symm.trans hidle
    exact ⟨hdown, hqueue⟩

theorem powerGood_unstarted {s : State} (h : ¬(s.isUp ∧ s.pow.started = true)) (rep : StartReport) :
    powerGood s rep = restart s true 1 rep := by
  rw [powerGood, if_neg]
  rwa [Bool.and_eq_true, decide_eq_true_eq]

/-- POWER_GOOD starts every module that is not started. -/
theorem leaves_powerGood {s : State} (h : ¬(s.isUp ∧ s.pow.started = true)) (rep : StartReport) :
    Leaves (.powerGood rep) s (restart s true 1 rep) := by
  rw [← powerGood_unstarted h]
  rfl

end Sys2Proof.Machine

namespace Sys2Proof.Proofs.ModulePower

open Sys2Proof.Machine

/-- Settles O4: a module that is down runs no command but POWER_GOOD beyond the front end and the pins. -/
theorem downUntilPowerGood : Obligations.DownUntilPowerGood := by
  refine ⟨fun _ _ hdark ht => dark_step hdark ht, fun c s t hdown hgood ht => ?_, fun rep s hdown => ?_⟩
  · have hkept := staysDown_exec hdown hgood ht
    exact ⟨hkept.power, hkept.touches, hkept.regs⟩
  · exact leaves_powerGood (by simp [State.isUp, hdown]) rep

/-- Settles O5: every command but the three asks for the rails first. -/
theorem nothingWithoutPower : Obligations.NothingWithoutPower :=
  fun _ _ hup hgood hpodl hsns => exec_unpowered hup hgood hpodl hsns

end Sys2Proof.Proofs.ModulePower
end

section
/-! PROOFS. What raising an event changes of the power state and of the transport state: WAKE_OUT, and the wake-ups that are due or
under way (spec 13, R342, R344), nothing else. -/

namespace Sys2Proof.Machine

/-- The power state and the transport state without WAKE_OUT and the wake-ups: what raising an event leaves as it was. -/
def State.besideWake (s : State) : PowerState × HwState :=
  ({ s.pow with wakeOut := false }, { s.hw with wakeDue := 0, waking := 0 })

@[simp] theorem State.setFld_besideWake (s : State) (f : Fld) (v : Nat) : (s.setFld f v).besideWake = s.besideWake := rfl

@[simp] theorem State.addFld_besideWake (s : State) (f : Fld) (d : Nat) : (s.addFld f d).besideWake = s.besideWake := rfl

@[simp] theorem State.setSource_besideWake (s : State) (k : Nat) (v : Source) : (s.setSource k v).besideWake = s.besideWake := rfl

@[simp] theorem setAsleep_besideWake (s : State) (l : Link) (b : Bool) : (setAsleep s l b).besideWake = s.besideWake := by
  cases l <;> rfl

@[simp] theorem wakeLink_besideWake (s : State) (l : Link) : (wakeLink s l).besideWake = s.besideWake := by
  have h : (setAsleep (s.emit (.tc10Wakeup l)) l false).besideWake = s.besideWake := setAsleep_besideWake ..
  simp only [wakeLink]
  split
  · exact h
  · exact h

@[simp] theorem wakeSome_besideWake (s : State) : (wakeSome s).besideWake = s.besideWake := by
  unfold wakeSome
  split
  · rfl
  · split
    · exact wakeLink_besideWake s .a
    · exact wakeLink_besideWake s .b

@[simp] theorem wakeRequest_besideWake (s : State) : (wakeRequest s).besideWake = s.besideWake :=
  wakeSome_besideWake _

@[simp] theorem wakeFor_besideWake (s : State) (k : Nat) : (wakeFor s k).besideWake = s.besideWake := by
  simp only [wakeFor]
  split
  · exact wakeRequest_besideWake _
  · rfl

@[simp] theorem wakeAll_besideWake (s : State) : (wakeAll s).besideWake = s.besideWake :=
  State.each_keeps State.besideWake s _ _ wakeFor_besideWake

@[simp] theorem markSpi_besideWake (s : State) (k : Nat) : (markSpi s k).besideWake = s.besideWake := by
  unfold markSpi
  split <;> rfl

@[simp] theorem countOccurrence_besideWake (s : State) (k : Nat) (r : Bool) :
    (countOccurrence s k r).besideWake = s.besideWake := by
  simp only [countOccurrence]
  split
  · exact wakeFor_besideWake _ k
  · split <;> rfl

@[simp] theorem raise_besideWake (s : State) (k : Nat) : (raise s k).besideWake = s.besideWake := by
  simp only [raise]
  split
  · rw [countOccurrence_besideWake, markSpi_besideWake]
  · exact markSpi_besideWake s k

@[simp] theorem setCond_besideWake (s : State) (k : Nat) (c : Bool) : (setCond s k c).besideWake = s.besideWake := by
  simp only [setCond]
  split
  · split
    · rw [countOccurrence_besideWake, markSpi_besideWake, State.setFld_besideWake]
    · exact markSpi_besideWake _ k
  · rfl

@[simp] theorem reportCond_besideWake (s : State) (k : Nat) (c : Bool) : (reportCond s k c).besideWake = s.besideWake := by
  unfold reportCond
  split
  · exact setCond_besideWake s k c
  · rfl

/-- States that agree beside the wake-ups agree in the power state but WAKE_OUT. -/
theorem pow_of_besideWake {s t : State} (h : t.besideWake = s.besideWake) :
    { t.pow with wakeOut := false } = { s.pow with wakeOut := false } := congrArg Prod.fst h

/-- States that agree beside the wake-ups agree in the transport state but the wake-ups. -/
theorem hw_of_besideWake {s t : State} (h : t.besideWake = s.besideWake) :
    { t.hw with wakeDue := 0, waking := 0 } = { s.hw with wakeDue := 0, waking := 0 } := congrArg Prod.snd h

end Sys2Proof.Machine
end

section
/-! PROOFS. The PoDL front end, the switch of VBUS_OUT and the junction temperature (spec 02, R41, R44, R60). -/

namespace Sys2Proof.Machine

theorem Ends.of_next {c : Instr} {s t : State} {P : State → Prop} (h : exec c s = .next t) (hP : P t) : Ends c s P := ⟨t, h, hP⟩

/-- A command of a powered module ends in the state that its meaning leaves, where that leaves the queue alone. -/
theorem whenUp_next {s : State} (h : s.isUp) {f : State → State} (hf : (f s).pending = s.pending) : whenUp s f = .next (f s) := by
  rw [whenUp_up s f h, ← hf]

/-- Putting a field leaves a field apart from it alone: the side conditions as one fact to decide. -/
theorem State.fld_setFld_apart (s : State) {f g : Fld} (v : Nat)
    (h : (f.lo ≤ f.hi ∧ f.hi < 32) ∧ (g.lo ≤ g.hi ∧ g.hi < 32) ∧ (g.hi < f.lo ∨ f.hi < g.lo)) : (s.setFld f v).fld g = s.fld g :=
  s.fld_setFld_other f g v h.1 h.2.1 (.inr h.2.2)

/-- A field reads the value put into it, where that fits. -/
theorem State.fld_setFld_of_lt (s : State) {f : Fld} {v : Nat} (h : f.lo ≤ f.hi ∧ f.hi < 32) (hv : v < 2 ^ (f.hi - f.lo + 1)) :
    (s.setFld f v).fld f = v := by
  rw [State.fld_setFld_self s f v h, Nat.mod_eq_of_lt hv]

/-! ### The front end (R41) -/

/-- What SYS.PODL_STAT shows of the front end. -/
theorem showFrontEnd_class (s : State) (locked : Bool) :
    (showFrontEnd s locked).fld F.sysPodlStatClass = s.pow.podlClass.toNat := by
  rw [showFrontEnd, State.fld_setFld_apart _ _ (by decide),
    State.fld_setFld_apart _ _ (by decide), State.fld_setFld_of_lt _ (by decide) s.pow.podlClass.isLt]

theorem showFrontEnd_noclass (s : State) (locked : Bool) :
    (showFrontEnd s locked).fld F.sysPodlStatNoclass = s.pow.noclass.toNat := by
  rw [showFrontEnd, State.fld_setFld_apart _ _ (by decide), State.fld_setFld_of_lt _ (by decide) (Bool.toNat_lt _)]

theorem classify_started {s : State} (hup : s.isUp) (hstarted : s.pow.started = true) (cls : BitVec 6) (watts : Nat)
    (noclass : Bool) : classify s cls watts noclass = s := by
  have hup : s.pow.power = .up := hup
  simp [classify, hup, hstarted]

/-! ### VBUS_OUT (R44) -/

/-- The power state with the switch open. -/
def PowerState.openSwitch (p : PowerState) (retries : Nat) : PowerState :=
  { p with vbusClosed := false, vbusRetries := retries, vbusLatched := decide (3 ≤ retries) }

theorem openVbus_eq (s : State) (retries : Nat) : openVbus s retries = raise { s with pow := s.pow.openSwitch retries } 2 := rfl

/-- What the switch shows once it has opened. -/
theorem openVbus_pow (s : State) (retries : Nat) :
    (openVbus s retries).pow.vbusClosed = false ∧ (openVbus s retries).pow.vbusRetries = retries ∧
      (openVbus s retries).pow.vbusLatched = decide (3 ≤ retries) := by
  have h := pow_of_besideWake (raise_besideWake { s with pow := s.pow.openSwitch retries } 2)
  exact ⟨congrArg PowerState.vbusClosed h, congrArg PowerState.vbusRetries h, congrArg PowerState.vbusLatched h⟩

theorem openVbus_touches (s : State) (retries : Nat) :
    TouchesOnly Part.events s (openVbus s retries) ∧ (openVbus s retries).pending = s.pending :=
  State.touches_of_hide Part.events rfl fun d => openVbus_hide (by decide) d s retries

theorem openVbus_onlyRegs (s : State) (retries : Nat) : OnlyRegs (fun _ => False) s (openVbus s retries) := by
  intro a _ ha
  rw [openVbus_eq, raise_reg _ _ _ (by decide) (by unfold evtReg; omega)]
  rfl

theorem TouchesOnly.mono {l k : List Part} (hlk : ∀ p ∈ l, p ∈ k) {s t : State} (h : TouchesOnly l s t) : TouchesOnly k s t :=
  fun p hp => h p fun hl => hp (hlk p hl)

theorem openVbus_shared (s : State) (retries : Nat) : TouchesOnly Part.shared s (openVbus s retries) :=
  (openVbus_touches s retries).1.mono (by decide)

theorem vbusRetry_closes {s : State} (hopen : s.pow.vbusClosed = false) (hlatch : s.pow.vbusLatched = false) :
    vbusRetry s false = { s with pow := { s.pow with vbusClosed := true, vbusRetries := 0 } } := by
  simp [vbusRetry, hopen, hlatch]

theorem vbusRetry_opens {s : State} (hopen : s.pow.vbusClosed = false) (hlatch : s.pow.vbusLatched = false) :
    vbusRetry s true = openVbus s (s.pow.vbusRetries + 1) := by
  simp [vbusRetry, hopen, hlatch]

theorem vbusRetry_latched {s : State} (hlatch : s.pow.vbusLatched = true) (overcurrent : Bool) : vbusRetry s overcurrent = s := by
  simp [vbusRetry, hlatch]

theorem exec_vbusOvercurrent {s : State} (hup : s.isUp) (hclosed : s.pow.vbusClosed = true) :
    exec .vbusOvercurrent s = .next (openVbus s 0) := by
  have h : (if s.pow.vbusClosed then openVbus s 0 else s) = openVbus s 0 := if_pos hclosed
  rw [← h]
  exact whenUp_next hup (f := fun s => if s.pow.vbusClosed then openVbus s 0 else s) (by rw [h]; exact (openVbus_touches s 0).2)

theorem exec_vbusRetry {s : State} (hup : s.isUp) (overcurrent : Bool) :
    exec (.vbusRetry overcurrent) s = .next (vbusRetry s overcurrent) :=
  whenUp_next hup (f := fun s => vbusRetry s overcurrent) (State.touches_of_hide Part.events rfl fun d => vbusRetry_hide (by decide) d s overcurrent).2

/-! ### The junction temperature (R60) -/

/-- SYS.TEMP as a sample writes it: the junction and the warning. -/
def showTemp (s : State) (tj : BitVec 12) : State :=
  (s.setFld F.sysTempTj tj.toNat).setFld F.sysTempWarn (decide (480 ≤ tj.toInt)).toNat

/-- A sample before its trip begins or ends. -/
def sampled (s : State) (tj : BitVec 12) : State := reportCond (showTemp s tj) 0 (decide (480 ≤ tj.toInt))

/-- The end of a trip: TRIP clears and the channels leave self-refresh (log 54). -/
def endTrip (s : State) : State := { s.setFld F.sysTempTrip 0 with pow := { s.pow with selfRefresh := 0 } }

theorem endTrip_fld (s : State) (f : Fld) : (endTrip s).fld f = (s.setFld F.sysTempTrip 0).fld f := rfl

theorem endTrip_hide {m : Nat} (h : 6 ||| m = m) (d s : State) : (endTrip s).hide m d = s.hide m d := by
  rw [endTrip, State.hide_pow _ _ _ (mask_trans h (by decide)), State.setFld_hide (mask_trans h (by decide))]

theorem tempSample_eq (s : State) (tj : BitVec 12) :
    tempSample s tj =
      if 540 ≤ tj.toInt && !(sampled s tj).flag F.sysTempTrip then thermTrip (sampled s tj)
      else if tj.toInt < 460 && (sampled s tj).flag F.sysTempTrip then endTrip (sampled s tj)
      else sampled s tj := rfl

/-- Outside block EVT a sample writes SYS.TEMP alone. -/
theorem sampled_reg (s : State) (tj : BitVec 12) {a : Nat} (ha : ¬evtReg a) : (sampled s tj).reg a = (showTemp s tj).reg a :=
  reportCond_reg _ _ _ _ (by decide) ha

theorem sampled_fld (s : State) (tj : BitVec 12) {f : Fld} (hf : f.addr = A.sysTemp) :
    (sampled s tj).fld f = (showTemp s tj).fld f := by
  rw [State.fld, State.fld, sampled_reg s tj (by rw [hf]; exact not_evtReg_of_lt (by decide))]

theorem sampled_tj (s : State) (tj : BitVec 12) : (sampled s tj).fld F.sysTempTj = tj.toNat := by
  rw [sampled_fld s tj rfl, showTemp, State.fld_setFld_apart _ _ (by decide),
    State.fld_setFld_of_lt _ (by decide) tj.isLt]

theorem sampled_warn (s : State) (tj : BitVec 12) :
    (sampled s tj).fld F.sysTempWarn = (decide (480 ≤ tj.toInt)).toNat := by
  rw [sampled_fld s tj rfl, showTemp, State.fld_setFld_of_lt _ (by decide) (Bool.toNat_lt _)]

theorem sampled_trip (s : State) (tj : BitVec 12) : (sampled s tj).fld F.sysTempTrip = s.fld F.sysTempTrip := by
  rw [sampled_fld s tj rfl, showTemp, State.fld_setFld_apart _ _ (by decide),
    State.fld_setFld_apart _ _ (by decide)]

theorem sampled_hide {m : Nat} (h : 0x1000036 ||| m = m) (d s : State) (tj : BitVec 12) :
    (sampled s tj).hide m d = s.hide m d := by
  have hregs : 2 ||| m = m := mask_trans h (by decide)
  rw [sampled, reportCond_hide h, showTemp, State.setFld_hide hregs, State.setFld_hide hregs]

/-- What a sample touches before a trip begins or ends. -/
theorem sampled_touches (s : State) (tj : BitVec 12) : TouchesOnly Part.shared s (sampled s tj) :=
  (State.touches_of_hide Part.shared rfl fun d => sampled_hide (by decide) d s tj).1

theorem sampled_onlyRegs (s : State) (tj : BitVec 12) : OnlyRegs (· = A.sysTemp) s (sampled s tj) := by
  intro a ha hevt
  rw [sampled_reg s tj (by unfold evtReg; omega), showTemp, State.reg_setFld_other _ _ _ _ ha, State.reg_setFld_other _ _ _ _ ha]

theorem requestFallback_reg (s : State) (p a : Nat) : (requestFallback s p).reg a = s.reg a := by
  unfold requestFallback
  dsimp only
  split <;> rfl

/-- A fault-log entry writes FLOG_SEQ alone. -/
theorem flogEntry_reg (s : State) (kind unit cause fails : Nat) {a : Nat} (ha : a ≠ A.barnFlogSeq) :
    (flogEntry s kind unit cause fails).reg a = s.reg a :=
  State.reg_setFld_other _ _ _ _ ha

/-- A thermal trip sets TRIP and writes no other word below block EVT. -/
theorem thermTrip_reg (s : State) {a : Nat} (ha : a < 0xA0000) : (thermTrip s).reg a = (s.setFld F.sysTempTrip 1).reg a := by
  have hflog : a ≠ A.barnFlogSeq := fun e => absurd (e ▸ ha) (by decide)
  have hpipes : ((s.setFld F.sysTempTrip 1).each (List.range (profilePipes s)) requestFallback).reg a =
      (s.setFld F.sysTempTrip 1).reg a :=
    State.each_keeps (fun t => t.reg a) _ _ _ fun t p => requestFallback_reg t p a
  exact ((flogEntry_reg _ 4 0xFF 0 0 hflog).trans (raise_reg _ 1 a (by decide) (not_evtReg_of_lt ha))).trans hpipes

theorem thermTrip_temp (s : State) {f : Fld} (hf : f.addr = A.sysTemp) :
    (thermTrip s).fld f = (s.setFld F.sysTempTrip 1).fld f := by
  rw [State.fld, State.fld, thermTrip_reg s (by rw [hf]; decide)]

/-- What the word of SYS.TEMP holds after a sample, part by part: TRIP is what the sample's temperature makes of it. -/
theorem tempSample_temp (s : State) (tj : BitVec 12) :
    (tempSample s tj).fld F.sysTempTj = tj.toNat ∧ (tempSample s tj).fld F.sysTempWarn = (decide (480 ≤ tj.toInt)).toNat := by
  rw [tempSample_eq]
  split
  · rw [thermTrip_temp _ rfl, thermTrip_temp _ rfl, State.fld_setFld_apart _ _ (by decide), State.fld_setFld_apart _ _ (by decide)]
    exact ⟨sampled_tj s tj, sampled_warn s tj⟩
  · split
    · rw [endTrip_fld, endTrip_fld, State.fld_setFld_apart _ _ (by decide), State.fld_setFld_apart _ _ (by decide)]
      exact ⟨sampled_tj s tj, sampled_warn s tj⟩
    · exact ⟨sampled_tj s tj, sampled_warn s tj⟩

/-- TRIP is one bit. -/
theorem trip_eq_flag (s : State) : s.fld F.sysTempTrip = (s.flag F.sysTempTrip).toNat := by
  have h : s.fld F.sysTempTrip < 2 := s.fld_lt F.sysTempTrip
  unfold State.flag
  interval_cases s.fld F.sysTempTrip <;> rfl

theorem tempSample_trips {s : State} {tj : BitVec 12} (h : 540 ≤ tj.toInt) : (tempSample s tj).fld F.sysTempTrip = 1 := by
  have hcold : ¬tj.toInt < 460 := by omega
  rw [tempSample_eq]
  cases hflag : (sampled s tj).flag F.sysTempTrip
  · simp only [h, decide_true, Bool.not_false, Bool.and_self, if_true]
    rw [thermTrip_temp _ rfl, State.fld_setFld_of_lt _ (by decide) (by decide)]
  · simp only [hcold, decide_false, Bool.not_true, Bool.and_false, Bool.false_and, Bool.false_eq_true, if_false]
    rw [trip_eq_flag, hflag]
    rfl

theorem tempSample_cools {s : State} {tj : BitVec 12} (h : tj.toInt < 460) :
    (tempSample s tj).fld F.sysTempTrip = 0 ∧ TouchesOnly Part.shared s (tempSample s tj) := by
  have hhot : ¬540 ≤ tj.toInt := by omega
  rw [tempSample_eq]
  cases hflag : (sampled s tj).flag F.sysTempTrip
  · simp only [hhot, decide_false, Bool.false_and, Bool.and_false, Bool.false_eq_true, if_false]
    exact ⟨by rw [trip_eq_flag, hflag]; rfl, sampled_touches s tj⟩
  · simp only [hhot, h, decide_false, decide_true, Bool.false_and, Bool.and_self, Bool.false_eq_true, if_false, if_true]
    refine ⟨?_, (State.touches_of_hide Part.shared rfl fun d => ?_).1⟩
    · rw [endTrip_fld, State.fld_setFld_of_lt _ (by decide) (by decide)]
    · rw [endTrip_hide (by decide), sampled_hide (by decide)]

/-- Between the thresholds a sample does nothing more. -/
theorem tempSample_between {s : State} {tj : BitVec 12} (hlow : 460 ≤ tj.toInt) (hhigh : tj.toInt < 540) :
    tempSample s tj = sampled s tj := by
  have hcold : ¬tj.toInt < 460 := by omega
  have hhot : ¬540 ≤ tj.toInt := by omega
  simp only [tempSample_eq, hcold, hhot, decide_false, Bool.false_and, Bool.false_eq_true, if_false]

theorem exec_tempSample {s : State} (hup : s.isUp) (tj : BitVec 12) : exec (.tempSample tj) s = .next (tempSample s tj) :=
  whenUp_next hup (f := fun s => tempSample s tj)
    (State.touches_of_hide (Part.events ++ [.scene, .pipes, .barn]) rfl fun d => tempSample_hide (by decide) d s tj).2

end Sys2Proof.Machine

namespace Sys2Proof.Proofs.ModulePower

open Sys2Proof.Machine

/-- Settles O9: the sample first writes the word and the warning, then the trip begins or ends by the thresholds. -/
theorem temperature : Obligations.Temperature := by
  refine ⟨fun tj s hup => .of_next (exec_tempSample hup tj) (tempSample_temp s tj),
    fun tj s hup hhot => .of_next (exec_tempSample hup tj) (tempSample_trips hhot),
    fun tj s hup hcold => .of_next (exec_tempSample hup tj) (tempSample_cools hcold), fun tj s hup hlow hhigh => ?_⟩
  refine .of_next (exec_tempSample hup tj) ?_
  rw [tempSample_between hlow hhigh]
  exact ⟨sampled_trip s tj, sampled_touches s tj, sampled_onlyRegs s tj⟩

/-- Settles O10: each command of the front end and the switch ends in one named operation. -/
theorem powerFrontEnd : Obligations.PowerFrontEnd := by
  refine ⟨fun cls watts noclass s hoff => ?_, fun cls watts noclass s hup hstarted => ?_, fun s hup hclosed => ?_,
    fun s hup hopen hlatch => ?_, fun s hup hopen hlatch => ?_, fun overcurrent s hup hlatch => ?_⟩
  · refine .of_next (exec_podlClassified cls watts noclass s) ?_
    obtain ⟨htouches, -⟩ := classify_touches s cls watts noclass
    rw [classify_unstarted hoff] at htouches ⊢
    exact ⟨rfl, showFrontEnd_class .., showFrontEnd_noclass .., htouches, fun a ha => showFrontEnd_reg_other _ _ ha⟩
  · rw [exec_podlClassified, classify_started hup hstarted]
  · obtain ⟨hclosed', hretries, hlatch⟩ := openVbus_pow s 0
    exact .of_next (exec_vbusOvercurrent hup hclosed)
      ⟨hclosed', hlatch, hretries, openVbus_shared s 0, openVbus_onlyRegs s 0⟩
  · rw [Leaves, exec_vbusRetry hup, vbusRetry_closes hopen hlatch]
  · obtain ⟨hclosed, hretries, hlatched⟩ := openVbus_pow s (s.pow.vbusRetries + 1)
    refine .of_next (exec_vbusRetry hup true) ?_
    rw [vbusRetry_opens hopen hlatch]
    exact ⟨hclosed, hretries, by rw [hlatched, decide_eq_true_eq], openVbus_shared _ _, openVbus_onlyRegs _ _⟩
  · rw [exec_vbusRetry hup, vbusRetry_latched hlatch]

end Sys2Proof.Proofs.ModulePower
end

section
/-! PROOFS. LINE_LOSS (spec 02, R44, R51; spec 16, R402; log 53): what is done within the hold-up, and the blanked outputs it ends
with. -/

namespace Sys2Proof.Machine

/-! ### The form of LINE_LOSS -/

/-- The hold-up: the barn's writer ends, the module is in state POWER_DOWN and its lane groups are off. -/
def holdUp (s : State) (finished : Bool) : State :=
  let t := stopBarn (lowerWake (if s.pow.vbusClosed then raise s 2 else s)) finished
  let t := if handBegun s.barn && !finished then t else flogEntry t 3 0xFF 0 0
  (t.setFld F.sysStateState 4).each groups8 (fun s g => if groupState s g = 4 then s else setGroupState s g 0)

/-- A pipe whose generator stops. -/
def PipeRt.stop (r : PipeRt) : PipeRt := { r with gen := .stopped, black := .none }

/-- The outputs are blanked, memory refreshes itself and the module is down. -/
def blankOutputs (s : State) : State :=
  let refresh := BitVec.ofNat 4 ([0, 1, 2, 3].foldl (fun n m => if mcInService s m then n + 2 ^ m else n) 0)
  { s with
    pow := { s.pow with power := .down, started := false, bulb := false, wakeOut := false, vbusClosed := false,
                        selfRefresh := refresh },
    pipes := s.pipes.map (fun (e : Nat × PipeRt) => (e.1, e.2.stop)),
    light := { s.light with zones := [], blinkA := false, blinkB := false, busyA := false, busyB := false } }

theorem loseLine_eq (s : State) (finished : Bool) : loseLine s finished = blankOutputs (holdUp s finished) := by
  unfold loseLine
  extract_lets _ _ _ _ _ held
  have hheld : holdUp s finished = held := rfl
  rw [hheld]
  clear_value held
  rfl

/-! ### SYS.STATE -/

theorem setGroupState_reg_other (s : State) (g v : Nat) {a : Nat} (h : a < 0x80000) : (setGroupState s g v).reg a = s.reg a :=
  State.reg_setFld_other _ _ _ _ (by simp only [F.laneStatState, A.laneStat]; omega)

theorem holdUp_state (s : State) (finished : Bool) : (holdUp s finished).fld F.sysStateState = 4 := by
  unfold holdUp
  dsimp only
  generalize (if handBegun s.barn && !finished then _ else _ : State) = t
  refine Eq.trans (State.each_keeps (fun t => t.fld F.sysStateState) _ _ _ fun t g => ?_)
    (State.fld_setFld_of_lt t (by decide) (by decide))
  split
  · rfl
  · rw [State.fld, State.fld, setGroupState_reg_other _ _ _ (by decide)]

/-! ### The generators -/

/-- A table whose entries have all been changed alike. -/
theorem smFind_map {α : Type} (f : α → α) (m : SMap α) (k : Nat) :
    smFind (m.map fun e => (e.1, f e.2)) k = (smFind m k).map f := by
  induction m with
  | nil => rfl
  | cons e m ih =>
    simp only [List.map_cons, smFind]
    split
    · rfl
    · exact ih

theorem blankOutputs_gen (s : State) (p : Nat) : ((blankOutputs s).pipe p).gen = .stopped := by
  have h : (blankOutputs s).pipe p = ((smFind s.pipes p).map PipeRt.stop).getD pipeInit :=
    congrArg (·.getD pipeInit) (smFind_map PipeRt.stop s.pipes p)
  rw [h]
  cases smFind s.pipes p <;> rfl

/-! ### What LINE_LOSS leaves as it was -/

/-- The bytes of device memory are those of `mem` and `lost`. -/
theorem sameMemory_of_parts {s t : State} (hmem : t.mem = s.mem) (hlost : t.lost = s.lost) : SameMemory s t := fun a => by
  simp only [State.memByte, State.memUnlisted, hmem, hlost]

theorem loseLine_touches (s : State) (finished : Bool) :
    TouchesOnly (Part.events ++ [.free, .pipes, .light, .barn]) s (loseLine s finished) ∧
      (loseLine s finished).pending = s.pending :=
  State.touches_of_hide _ rfl fun d => loseLine_hide (by decide) d s finished

theorem exec_lineLoss {s : State} (hup : s.isUp) : exec .lineLoss s = .next (loseLine s (Config.recordFinished s.free)) :=
  whenUp_next hup (f := fun s => loseLine s (Config.recordFinished s.free)) (loseLine_touches s _).2

end Sys2Proof.Machine

namespace Sys2Proof.Proofs.ModulePower

open Sys2Proof.Machine

/-- Settles O6: the hold-up writes SYS.STATE, the blanking after it the rest, whether the record in hand was finished or not. -/
theorem lineLoss : Obligations.LineLoss := by
  intro s hup
  refine .of_next (exec_lineLoss hup) ?_
  generalize Config.recordFinished s.free = finished
  obtain ⟨htouches, hpending⟩ := loseLine_touches s finished
  have hmemory : SameMemory s (loseLine s finished) :=
    sameMemory_of_parts (htouches .mem (by decide)) (htouches .lost (by decide))
  have hdark (hqueue : NoPowerGood s.pending) : (loseLine s finished).dark :=
    ⟨by rw [loseLine_eq, blankOutputs], by rwa [hpending]⟩
  have hstate := holdUp_state s finished
  rw [loseLine_eq] at hmemory hdark htouches ⊢
  generalize holdUp s finished = t at *
  exact ⟨rfl, rfl, rfl, rfl, hstate, blankOutputs_gen t, rfl, hmemory, hdark, htouches⟩

end Sys2Proof.Proofs.ModulePower
end

section
/-! PROOFS. What a start sequence keeps while the boot image runs (spec 02, R48; spec 16, R386, R388): the rails, the place of the
start sequence, the absence of a session, and the bank that it runs from. `State.kept` holds these; for each operation that a write
of the boot image or a later step can reach, one lemma says that it leaves them as they were. -/

namespace Sys2Proof.Machine

/-! ### What is kept -/

/-- Bits 31 and 28 of BARN.RAW_CTL, which has no fields there. -/
def State.guardBits (s : State) : Bool × Bool :=
  ((s.reg A.barnRawCtl).getLsbD 31, (s.reg A.barnRawCtl).getLsbD 28)

/-- The bank in force, as BARN.BANK shows it. Where the guard bits are clear no source occurs whose SRC_CFG would stand at RAW_CTL
and its SRC_STAT at BANK (one of a number far beyond the 1,024), and without a session no record ring is written whose PREC_WR
would stand at BANK: so the operations below need no bound on the numbers that they compute. -/
def State.bankShown (s : State) : Option Nat :=
  if s.guardBits = (false, false) ∧ s.hw.cur = none then some (s.fld F.barnBankSel) else none

/-- The rails, the place of the start sequence, the session in hand, and the bank in force. -/
def State.kept (s : State) : (Power × Bool × Bool) × (Option Sess × Option Sess) × (Bool × Bool) × Option Nat :=
  ((s.pow.power, s.pow.started, s.pow.vled), (s.hw.cur, s.hw.opening), s.guardBits, s.bankShown)

/-- The parts of the power state that are kept. -/
def PowerState.kept (p : PowerState) : Power × Bool × Bool := (p.power, p.started, p.vled)

/-- The parts of the transport state that are kept. -/
def HwState.kept (x : HwState) : Option Sess × Option Sess := (x.cur, x.opening)

/-- States that agree in the power state, in the transport state, in the guard bits and, where the bank is shown, in SEL. -/
theorem State.kept_of_parts {s t : State} (hpow : t.pow.kept = s.pow.kept) (hhw : t.hw.kept = s.hw.kept)
    (hguard : t.guardBits = s.guardBits)
    (hsel : s.guardBits = (false, false) → s.hw.cur = none → t.fld F.barnBankSel = s.fld F.barnBankSel) : t.kept = s.kept := by
  have hcur : t.hw.cur = s.hw.cur := congrArg Prod.fst hhw
  have hbank : t.bankShown = s.bankShown := by
    unfold State.bankShown
    rw [hguard, hcur]
    split
    · next h => rw [hsel h.1 h.2]
    · rfl
  change (t.pow.kept, t.hw.kept, t.guardBits, t.bankShown) = (s.pow.kept, s.hw.kept, s.guardBits, s.bankShown)
  rw [hpow, hhw, hguard, hbank]

theorem State.guardBits_congr {s t : State} (h : t.reg A.barnRawCtl = s.reg A.barnRawCtl) : t.guardBits = s.guardBits := by
  rw [State.guardBits, State.guardBits, h]

theorem State.fld_congr {s t : State} {f : Fld} (h : t.reg f.addr = s.reg f.addr) : t.fld f = s.fld f := by
  rw [State.fld, State.fld, h]

/-- `State.kept` is asked of the registers, of the power state and of the transport state alone: every other part may be hidden, and
the frame lemmas of operations that leave these three alone apply. -/
theorem State.kept_of_hide {s t : State} (e : t.hide 0xFFFFFFFE9 State.reset = s.hide 0xFFFFFFFE9 State.reset) : t.kept = s.kept := by
  have h : (t.hide 0xFFFFFFFE9 State.reset).kept = (s.hide 0xFFFFFFFE9 State.reset).kept := congrArg State.kept e
  exact h

theorem State.kept_ite {c : Prop} [Decidable c] (a b : State) : (if c then a else b).kept = if c then a.kept else b.kept := by
  split <;> rfl

theorem State.each_kept {α : Type} (s : State) (l : List α) (f : State → α → State) (h : ∀ s x, (f s x).kept = s.kept) :
    (s.each l f).kept = s.kept :=
  State.each_keeps State.kept s l f h

/-- A change for each element of a list keeps what each of these changes keeps. -/
theorem State.each_kept_mem {α : Type} (s : State) (l : List α) (f : State → α → State)
    (h : ∀ s, ∀ x ∈ l, (f s x).kept = s.kept) : (s.each l f).kept = s.kept := by
  induction l generalizing s with
  | nil => rfl
  | cons x l ih =>
    exact (ih (f s x) fun s y hy => h s y (List.mem_cons_of_mem x hy)).trans (h s x List.mem_cons_self)

/-! ### Power and transport -/

theorem State.kept_pow (s : State) {p : PowerState} (hpower : p.power = s.pow.power) (hstarted : p.started = s.pow.started)
    (hvled : p.vled = s.pow.vled) : State.kept { s with pow := p } = s.kept :=
  State.kept_of_parts (by rw [PowerState.kept, PowerState.kept, hpower, hstarted, hvled]) rfl rfl fun _ _ => rfl

theorem State.kept_hw (s : State) {x : HwState} (hcur : x.cur = s.hw.cur) (hopening : x.opening = s.hw.opening) :
    State.kept { s with hw := x } = s.kept :=
  State.kept_of_parts rfl (by rw [HwState.kept, HwState.kept, hcur, hopening]) rfl fun _ _ => rfl

/-- The register space beside its live words. -/
theorem State.kept_regs (s : State) {r : RegFile} (h : r.live = s.regs.live) : State.kept { s with regs := r } = s.kept := by
  have hreg (a : Nat) : State.reg { s with regs := r } a = s.reg a := by rw [State.reg, State.reg, h]
  exact State.kept_of_parts rfl rfl (State.guardBits_congr (hreg _)) fun _ _ => State.fld_congr (hreg _)

/-! ### Register words -/

/-- An address that is not the one of BARN.RAW_CTL or BARN.BANK. -/
def sparesAddr (a : Nat) : Prop := a ≠ 0xE0008 ∧ a ≠ 0xE000C

/-- A word written elsewhere. -/
theorem State.setReg_kept (s : State) {a : Nat} (w : Word) (h : sparesAddr a) : (s.setReg a w).kept = s.kept :=
  State.kept_of_parts rfl rfl (State.guardBits_congr (State.reg_setReg_other _ _ _ _ (Ne.symm h.1)))
    fun _ _ => State.fld_congr (State.reg_setReg_other _ _ _ _ (Ne.symm h.2))

/-- A word written that agrees in the guard bits and in SEL. -/
theorem State.setReg_kept_bits (s : State) {a : Nat} {w : Word}
    (hraw : a = 0xE0008 → w.getLsbD 31 = (s.reg a).getLsbD 31 ∧ w.getLsbD 28 = (s.reg a).getLsbD 28)
    (hbank : a = 0xE000C → bits w 0 0 = bits (s.reg a) 0 0) : (s.setReg a w).kept = s.kept := by
  by_cases ha : a = 0xE0008
  · obtain ⟨h31, h28⟩ := hraw ha
    subst ha
    refine State.kept_of_parts rfl rfl ?_ fun _ _ => State.fld_congr (State.reg_setReg_other _ _ _ _ (by decide))
    change ((State.reg _ 0xE0008).getLsbD 31, (State.reg _ 0xE0008).getLsbD 28) = _
    rw [State.reg_setReg_self, h31, h28]
    rfl
  · by_cases hb : a = 0xE000C
    · have hsel := hbank hb
      subst hb
      refine State.kept_of_parts rfl rfl (State.guardBits_congr (State.reg_setReg_other _ _ _ _ (by decide))) fun _ _ => ?_
      change bits (State.reg _ 0xE000C) 0 0 = bits (s.reg 0xE000C) 0 0
      rw [State.reg_setReg_self, hsel]
    · exact s.setReg_kept w ⟨ha, hb⟩

/-- A field whose bits are apart from the ones that are kept, wherever it stands. -/
def Fld.spares (f : Fld) : Prop :=
  f.lo ≤ f.hi ∧ (f.addr = 0xE000C → 0 < f.lo) ∧ (f.addr = 0xE0008 → f.hi < 28 ∨ (28 < f.lo ∧ f.hi < 31))

theorem State.setFld_kept (s : State) {f : Fld} (v : Nat) (h : f.spares) : (s.setFld f v).kept = s.kept := by
  obtain ⟨hle, hbank, hraw⟩ := h
  refine State.setReg_kept_bits s (fun ha => ?_) fun ha => ?_
  · have hf := hraw ha
    rw [getLsbD_setBits _ _ _ _ _ (by decide), getLsbD_setBits _ _ _ _ _ (by decide), if_neg (by omega), if_neg (by omega)]
    exact ⟨rfl, rfl⟩
  · have hf := hbank ha
    refine Nat.eq_of_testBit_eq fun i => ?_
    rw [testBit_bits, testBit_bits]
    by_cases hi : i < 1
    · rw [getLsbD_setBits _ _ _ _ _ (by omega), if_neg (by omega)]
    · simp [hi]

theorem State.addFld_kept (s : State) {f : Fld} (d : Nat) (h : f.spares) : (s.addFld f d).kept = s.kept := s.setFld_kept _ h

theorem State.setShadow_kept (s : State) (a : Nat) (w : Word) : (s.setShadow a w).kept = s.kept := rfl

/-! ### Events -/

theorem setAsleep_kept (s : State) (l : Link) (b : Bool) : (setAsleep s l b).kept = s.kept := by
  cases l <;> exact State.setFld_kept _ _ (by unfold Fld.spares; decide)

theorem wakeLink_kept (s : State) (l : Link) : (wakeLink s l).kept = s.kept := by
  have h : (setAsleep (s.emit (.tc10Wakeup l)) l false).kept = s.kept := setAsleep_kept ..
  simp only [wakeLink]
  split
  · exact h
  · exact (State.kept_hw _ rfl rfl).trans h

theorem wakeSome_kept (s : State) : (wakeSome s).kept = s.kept := by
  simp only [wakeSome, wakeLink_kept, State.kept_ite, ite_self]

theorem wakeRequest_kept (s : State) : (wakeRequest s).kept = s.kept :=
  (wakeSome_kept _).trans (State.kept_pow s rfl rfl rfl)

theorem wakeFor_kept (s : State) (k : Nat) : (wakeFor s k).kept = s.kept := by
  simp only [wakeFor]
  split
  · refine (wakeRequest_kept _).trans ((State.kept_hw _ rfl rfl).trans (State.setFld_kept _ _ ?_))
    simp only [Fld.spares, F.evtQctlState, A.evtQctl]
    omega
  · rfl

theorem wakeAll_kept (s : State) : (wakeAll s).kept = s.kept := State.each_kept _ _ _ wakeFor_kept

theorem markSpi_kept (s : State) (k : Nat) : (markSpi s k).kept = s.kept := by
  unfold markSpi
  split
  · exact State.setFld_kept _ _ (by simp only [Fld.spares, F.evtSrcStatSpiFlag, A.evtSrcStat]; omega)
  · rfl

theorem bits_bit (w : Word) (i : Nat) : bits w i i = (w.getLsbD i).toNat := by
  refine Nat.eq_of_testBit_eq fun j => ?_
  rw [testBit_bits]
  cases j with
  | zero => cases w.getLsbD i <;> simp
  | succ j => cases w.getLsbD i <;> simp [Nat.testBit_succ]

/-- The count of a source that is enabled: one of a number so high that it would be counted where the bank is shown is enabled by a
guard bit. -/
theorem setCount_kept {s : State} {k : Nat} (h : s.flag (F.evtSrcCfgEn k) = true) (v : Nat) :
    (s.setFld (F.evtSrcStatCount k) v).kept = s.kept := by
  by_cases hk : A.evtSrcStat k = 0xE000C
  · have hk : k = 32257 := by simp only [A.evtSrcStat] at hk; omega
    subst hk
    refine State.kept_of_parts rfl rfl (State.guardBits_congr (State.reg_setFld_other _ _ _ _ (by decide))) fun hguard _ => ?_
    have hclear : s.fld (F.evtSrcCfgEn 32257) = 0 := (bits_bit _ _).trans (congrArg Bool.toNat (congrArg Prod.fst hguard))
    simp [State.flag, hclear] at h
  · exact State.setReg_kept _ _ ⟨by simp only [F.evtSrcStatCount, A.evtSrcStat]; omega, hk⟩

theorem countOccurrence_kept {s : State} {k : Nat} (h : s.flag (F.evtSrcCfgEn k) = true) (r : Bool) :
    (countOccurrence s k r).kept = s.kept := by
  simp only [countOccurrence]
  split
  · exact (wakeFor_kept _ k).trans (setCount_kept (s := s.setSource k _) h 1)
  · split
    · exact State.addFld_kept (s.setSource k _) 1 (by unfold Fld.spares; decide)
    · exact setCount_kept (s := s.setSource k _) h _

/-- EN of a source is no bit of SRC_STAT. -/
theorem setFld_srcCfgEn (s : State) (f : Fld) (v k : Nat) (h : f.addr % 8 = 4) :
    (s.setFld f v).flag (F.evtSrcCfgEn k) = s.flag (F.evtSrcCfgEn k) := by
  rw [State.flag, State.flag, State.fld_setFld_reg]
  simp only [F.evtSrcCfgEn, A.evtSrcCfg]
  omega

theorem markSpi_srcCfgEn (s : State) (k : Nat) : (markSpi s k).flag (F.evtSrcCfgEn k) = s.flag (F.evtSrcCfgEn k) := by
  unfold markSpi
  split
  · exact setFld_srcCfgEn _ _ _ _ (by simp only [F.evtSrcStatSpiFlag, A.evtSrcStat]; omega)
  · rfl

theorem raise_kept (s : State) (k : Nat) : (raise s k).kept = s.kept := by
  simp only [raise]
  split
  · next h =>
    rw [Bool.and_eq_true] at h
    exact (countOccurrence_kept h.1 false).trans (markSpi_kept s k)
  · exact markSpi_kept s k

theorem setCond_kept (s : State) (k : Nat) (c : Bool) : (setCond s k c).kept = s.kept := by
  have hasserted : (s.setFld (F.evtSrcStatAsserted k) c.toNat).kept = s.kept :=
    State.setFld_kept _ _ (by simp only [Fld.spares, F.evtSrcStatAsserted, A.evtSrcStat]; omega)
  simp only [setCond]
  split
  · split
    · next h =>
      rw [Bool.and_eq_true] at h
      exact (countOccurrence_kept h.1 false).trans ((markSpi_kept _ k).trans hasserted)
    · exact (markSpi_kept _ k).trans hasserted
  · exact hasserted

theorem reportCond_kept (s : State) (k : Nat) (c : Bool) : (reportCond s k c).kept = s.kept := by
  simp only [reportCond, setCond_kept, State.kept_ite, ite_self]

theorem sampleSource_kept (s : State) (k : Nat) : (sampleSource s k).kept = s.kept := by
  unfold sampleSource
  split
  · next h =>
    simp only [Bool.and_eq_true] at h
    exact (countOccurrence_kept ((markSpi_srcCfgEn s k).trans h.1.1.2) true).trans (markSpi_kept s k)
  · rfl

end Sys2Proof.Machine
end

section
/-! PROOFS. The fields and the words that the operations below write, each apart from what `State.kept` holds; and the parts of the
state that it does not ask for. -/

namespace Sys2Proof.Machine

theorem F.sysProfileLock_spares : F.sysProfileLock.spares := by unfold Fld.spares; decide
theorem F.sysProfileActive_spares : F.sysProfileActive.spares := by unfold Fld.spares; decide
theorem F.sysProfileClassProfile_spares : F.sysProfileClassProfile.spares := by unfold Fld.spares; decide
theorem F.sysProfileSel_spares : F.sysProfileSel.spares := by unfold Fld.spares; decide
theorem F.sysPodlStatLock_spares : F.sysPodlStatLock.spares := by unfold Fld.spares; decide
theorem F.sysPodlStatPAv_spares : F.sysPodlStatPAv.spares := by unfold Fld.spares; decide
theorem F.sysPodlStatBoardReserve_spares : F.sysPodlStatBoardReserve.spares := by unfold Fld.spares; decide
theorem F.sysPodlStatNoclass_spares : F.sysPodlStatNoclass.spares := by unfold Fld.spares; decide
theorem F.sysPodlStatClass_spares : F.sysPodlStatClass.spares := by unfold Fld.spares; decide
theorem F.sysStrobeStatReason_spares : F.sysStrobeStatReason.spares := by unfold Fld.spares; decide
theorem F.sysStrobeStatRefused_spares : F.sysStrobeStatRefused.spares := by unfold Fld.spares; decide
theorem F.sysLockViolCount_spares : F.sysLockViolCount.spares := by unfold Fld.spares; decide
theorem F.sysLockViolAddrPath_spares : F.sysLockViolAddrPath.spares := by unfold Fld.spares; decide
theorem F.sysLockViolAddrAddr_spares : F.sysLockViolAddrAddr.spares := by unfold Fld.spares; decide
theorem F.sysUnmappedCount_spares : F.sysUnmappedCount.spares := by unfold Fld.spares; decide
theorem F.ringLinkStatBRetired_spares : F.ringLinkStatBRetired.spares := by unfold Fld.spares; decide
theorem F.ringLinkStatARetired_spares : F.ringLinkStatARetired.spares := by unfold Fld.spares; decide
theorem F.ringLinkStatHostLost_spares : F.ringLinkStatHostLost.spares := by unfold Fld.spares; decide
theorem F.ringLinkStatActive_spares : F.ringLinkStatActive.spares := by unfold Fld.spares; decide
theorem F.ringSessionState_spares : F.ringSessionState.spares := by unfold Fld.spares; decide
theorem F.sceneSlipCntCount_spares : F.sceneSlipCntCount.spares := by unfold Fld.spares; decide
theorem F.sceneDropCntCount_spares : F.sceneDropCntCount.spares := by unfold Fld.spares; decide
theorem F.layerTwinReadsCount_spares : F.layerTwinReadsCount.spares := by unfold Fld.spares; decide
theorem F.objLoftFloorFloor_spares : F.objLoftFloorFloor.spares := by unfold Fld.spares; decide
theorem F.objFaultsCount_spares : F.objFaultsCount.spares := by unfold Fld.spares; decide
theorem F.schedGclLateCount_spares : F.schedGclLateCount.spares := by unfold Fld.spares; decide
theorem F.schedDebtDroppedCount_spares : F.schedDebtDroppedCount.spares := by unfold Fld.spares; decide
theorem F.schedThrottleReproof_spares : F.schedThrottleReproof.spares := by unfold Fld.spares; decide
theorem F.schedThrottleHeld_spares : F.schedThrottleHeld.spares := by unfold Fld.spares; decide
theorem F.laneLinkFailsCount_spares : F.laneLinkFailsCount.spares := by unfold Fld.spares; decide
theorem F.lightTtCfgLock_spares : F.lightTtCfgLock.spares := by unfold Fld.spares; decide
theorem F.lightForceSw_spares : F.lightForceSw.spares := by unfold Fld.spares; decide
theorem F.lightFbCtxCount_spares : F.lightFbCtxCount.spares := by unfold Fld.spares; decide
theorem F.lightFbCtxBase_spares : F.lightFbCtxBase.spares := by unfold Fld.spares; decide
theorem F.evtSaturationsCount_spares : F.evtSaturationsCount.spares := by unfold Fld.spares; decide
theorem F.evtStrayCplCount_spares : F.evtStrayCplCount.spares := by unfold Fld.spares; decide
theorem F.dmaEngineHalted_spares : F.dmaEngineHalted.spares := by unfold Fld.spares; decide
theorem F.dmaBadDescCount_spares : F.dmaBadDescCount.spares := by unfold Fld.spares; decide
theorem F.dmaTrigMissedCount_spares : F.dmaTrigMissedCount.spares := by unfold Fld.spares; decide
theorem F.faultStateCoreFail_spares : F.faultStateCoreFail.spares := by unfold Fld.spares; decide
theorem F.faultRetestUnit_spares : F.faultRetestUnit.spares := by unfold Fld.spares; decide
theorem F.faultRetestStatBusy_spares : F.faultRetestStatBusy.spares := by unfold Fld.spares; decide
theorem F.faultRetestStatResult_spares : F.faultRetestStatResult.spares := by unfold Fld.spares; decide
theorem F.faultRetestStatUnit_spares : F.faultRetestStatUnit.spares := by unfold Fld.spares; decide
theorem F.faultLastKind_spares : F.faultLastKind.spares := by unfold Fld.spares; decide
theorem F.faultLastFails_spares : F.faultLastFails.spares := by unfold Fld.spares; decide
theorem F.faultLastCause_spares : F.faultLastCause.spares := by unfold Fld.spares; decide
theorem F.faultLastUnit_spares : F.faultLastUnit.spares := by unfold Fld.spares; decide
theorem F.faultRrecCfgSize_spares : F.faultRrecCfgSize.spares := by unfold Fld.spares; decide
theorem F.faultRrecCfgEn_spares : F.faultRrecCfgEn.spares := by unfold Fld.spares; decide
theorem F.faultRrecHeldCount_spares : F.faultRrecHeldCount.spares := by unfold Fld.spares; decide
theorem F.faultFailuresCount_spares : F.faultFailuresCount.spares := by unfold Fld.spares; decide
theorem F.faultRetirementsCount_spares : F.faultRetirementsCount.spares := by unfold Fld.spares; decide
theorem F.barnRawCtlBusy_spares : F.barnRawCtlBusy.spares := by unfold Fld.spares; decide
theorem F.barnRawCtlErr_spares : F.barnRawCtlErr.spares := by unfold Fld.spares; decide
theorem F.barnBankNone_spares : F.barnBankNone.spares := by unfold Fld.spares; decide
theorem F.barnBankOther_spares : F.barnBankOther.spares := by unfold Fld.spares; decide
theorem F.barnJwCtlBusy_spares : F.barnJwCtlBusy.spares := by unfold Fld.spares; decide
theorem F.barnJwCtlStatus_spares : F.barnJwCtlStatus.spares := by unfold Fld.spares; decide
theorem F.barnJrCtlBusy_spares : F.barnJrCtlBusy.spares := by unfold Fld.spares; decide
theorem F.barnFlogSeqLseq_spares : F.barnFlogSeqLseq.spares := by unfold Fld.spares; decide
theorem F.barnCompactionsCount_spares : F.barnCompactionsCount.spares := by unfold Fld.spares; decide
theorem F.perfCtlRun_spares : F.perfCtlRun.spares := by unfold Fld.spares; decide
theorem F.perfSnapStatReady_spares : F.perfSnapStatReady.spares := by unfold Fld.spares; decide
theorem F.perfSnapStatPartial_spares : F.perfSnapStatPartial.spares := by unfold Fld.spares; decide
theorem F.perfSnapStatErr_spares : F.perfSnapStatErr.spares := by unfold Fld.spares; decide
theorem F.perfSnapStatSeq_spares : F.perfSnapStatSeq.spares := by unfold Fld.spares; decide
theorem F.perfMergedCount_spares : F.perfMergedCount.spares := by unfold Fld.spares; decide
theorem F.ringCtlRun_spares (i : Nat) : (F.ringCtlRun i).spares := by
  simp only [Fld.spares, F.ringCtlRun, A.ringCtl]
  omega
theorem F.ringStatCause_spares (i : Nat) : (F.ringStatCause i).spares := by
  simp only [Fld.spares, F.ringStatCause, A.ringStat]
  omega
theorem F.ringStatState_spares (i : Nat) : (F.ringStatState i).spares := by
  simp only [Fld.spares, F.ringStatState, A.ringStat]
  omega
theorem F.ringPrecCfgSize_spares (i : Nat) : (F.ringPrecCfgSize i).spares := by
  simp only [Fld.spares, F.ringPrecCfgSize, A.ringPrecCfg]
  omega
theorem F.ringPrecCfgEn_spares (i : Nat) : (F.ringPrecCfgEn i).spares := by
  simp only [Fld.spares, F.ringPrecCfgEn, A.ringPrecCfg]
  omega
theorem F.ringPrecHeldCount_spares (i : Nat) : (F.ringPrecHeldCount i).spares := by
  simp only [Fld.spares, F.ringPrecHeldCount, A.ringPrecHeld]
  omega
theorem F.layerSlotStatCause_spares (i : Nat) : (F.layerSlotStatCause i).spares := by
  simp only [Fld.spares, F.layerSlotStatCause, A.layerSlotStat]
  omega
theorem F.layerSlotStatOnTwin_spares (i : Nat) : (F.layerSlotStatOnTwin i).spares := by
  simp only [Fld.spares, F.layerSlotStatOnTwin, A.layerSlotStat]
  omega
theorem F.objPipeStatCause_spares (i : Nat) : (F.objPipeStatCause i).spares := by
  simp only [Fld.spares, F.objPipeStatCause, A.objPipeStat]
  omega
theorem F.pipeStatCause_spares (i : Nat) : (F.pipeStatCause i).spares := by
  simp only [Fld.spares, F.pipeStatCause, A.pipeStat]
  omega
theorem F.lanePktCtlBusy_spares (i : Nat) : (F.lanePktCtlBusy i).spares := by
  simp only [Fld.spares, F.lanePktCtlBusy, A.lanePktCtl]
  omega
theorem F.lanePktCtlErr_spares (i : Nat) : (F.lanePktCtlErr i).spares := by
  simp only [Fld.spares, F.lanePktCtlErr, A.lanePktCtl]
  omega
theorem F.laneStatCause_spares (i : Nat) : (F.laneStatCause i).spares := by
  simp only [Fld.spares, F.laneStatCause, A.laneStat]
  omega
theorem F.laneStatState_spares (i : Nat) : (F.laneStatState i).spares := by
  simp only [Fld.spares, F.laneStatState, A.laneStat]
  omega
theorem F.laneCamCfgStore_spares (i : Nat) : (F.laneCamCfgStore i).spares := by
  simp only [Fld.spares, F.laneCamCfgStore, A.laneCamCfg]
  omega
theorem F.laneCamStatActive_spares (i : Nat) : (F.laneCamStatActive i).spares := by
  simp only [Fld.spares, F.laneCamStatActive, A.laneCamStat]
  omega
theorem F.evtQctlState_spares (i : Nat) : (F.evtQctlState i).spares := by
  simp only [Fld.spares, F.evtQctlState, A.evtQctl]
  omega
theorem F.evtQctlQmask_spares (i : Nat) : (F.evtQctlQmask i).spares := by
  simp only [Fld.spares, F.evtQctlQmask, A.evtQctl]
  omega
theorem F.evtQctlSleep_spares (i : Nat) : (F.evtQctlSleep i).spares := by
  simp only [Fld.spares, F.evtQctlSleep, A.evtQctl]
  omega
theorem F.evtSrcCfgMask_spares (i : Nat) : (F.evtSrcCfgMask i).spares := by
  simp only [Fld.spares, F.evtSrcCfgMask, A.evtSrcCfg]
  omega
theorem F.evtSrcStatActive_spares (i : Nat) : (F.evtSrcStatActive i).spares := by
  simp only [Fld.spares, F.evtSrcStatActive, A.evtSrcStat]
  omega
theorem F.evtSrcStatAsserted_spares (i : Nat) : (F.evtSrcStatAsserted i).spares := by
  simp only [Fld.spares, F.evtSrcStatAsserted, A.evtSrcStat]
  omega
theorem F.evtSrcStatSpiFlag_spares (i : Nat) : (F.evtSrcStatSpiFlag i).spares := by
  simp only [Fld.spares, F.evtSrcStatSpiFlag, A.evtSrcStat]
  omega
theorem F.dmaChStatLastStatus_spares (i : Nat) : (F.dmaChStatLastStatus i).spares := by
  simp only [Fld.spares, F.dmaChStatLastStatus, A.dmaChStat]
  omega
theorem F.dmaTchStatStatus_spares (i : Nat) : (F.dmaTchStatStatus i).spares := by
  simp only [Fld.spares, F.dmaTchStatStatus, A.dmaTchStat]
  omega
theorem F.dmaTchStatBusy_spares (i : Nat) : (F.dmaTchStatBusy i).spares := by
  simp only [Fld.spares, F.dmaTchStatBusy, A.dmaTchStat]
  omega
theorem F.chkScanStatStatus_spares (i : Nat) : (F.chkScanStatStatus i).spares := by
  simp only [Fld.spares, F.chkScanStatStatus, A.chkScanStat]
  omega
theorem F.chkWinStatStatus_spares (i : Nat) : (F.chkWinStatStatus i).spares := by
  simp only [Fld.spares, F.chkWinStatStatus, A.chkWinStat]
  omega

theorem A.dmaTchRuns_spares (i : Nat) : sparesAddr (A.dmaTchRuns i) := by
  simp only [sparesAddr, A.dmaTchRuns]
  omega
theorem A.evtHostCi_spares (i : Nat) : sparesAddr (A.evtHostCi i) := by
  simp only [sparesAddr, A.evtHostCi]
  omega
theorem A.evtQpi_spares (i : Nat) : sparesAddr (A.evtQpi i) := by
  simp only [sparesAddr, A.evtQpi]
  omega
theorem A.faultRrecHostCi_spares : sparesAddr A.faultRrecHostCi := by unfold sparesAddr; decide
theorem A.faultRrecWr_spares : sparesAddr A.faultRrecWr := by unfold sparesAddr; decide
theorem A.perfSnapFrame_spares : sparesAddr A.perfSnapFrame := by unfold sparesAddr; decide
theorem A.ringCi_spares (i : Nat) : sparesAddr (A.ringCi i) := by
  simp only [sparesAddr, A.ringCi]
  omega
theorem A.ringCplPi_spares (i : Nat) : sparesAddr (A.ringCplPi i) := by
  simp only [sparesAddr, A.ringCplPi]
  omega
theorem A.ringHostCi_spares (i : Nat) : sparesAddr (A.ringHostCi i) := by
  simp only [sparesAddr, A.ringHostCi]
  omega
theorem A.ringPi_spares (i : Nat) : sparesAddr (A.ringPi i) := by
  simp only [sparesAddr, A.ringPi]
  omega
theorem A.ringPrecHostCi_spares (i : Nat) : sparesAddr (A.ringPrecHostCi i) := by
  simp only [sparesAddr, A.ringPrecHostCi]
  omega
theorem A.ringStopIndex_spares (i : Nat) : sparesAddr (A.ringStopIndex i) := by
  simp only [sparesAddr, A.ringStopIndex]
  omega
theorem A.sysBootVer_spares : sparesAddr A.sysBootVer := by unfold sparesAddr; decide
theorem A.sysResetCause_spares : sparesAddr A.sysResetCause := by unfold sparesAddr; decide
theorem State.kept_barn (s : State) (v0) : State.kept { s with barn := v0 } = s.kept := rfl
theorem State.kept_dmaHalted (s : State) (v0) : State.kept { s with dmaHalted := v0 } = s.kept := rfl
theorem State.kept_fault (s : State) (v0) : State.kept { s with fault := v0 } = s.kept := rfl
theorem State.kept_fetches (s : State) (v0) : State.kept { s with fetches := v0 } = s.kept := rfl
theorem State.kept_gcl (s : State) (v0) : State.kept { s with gcl := v0 } = s.kept := rfl
theorem State.kept_light (s : State) (v0) : State.kept { s with light := v0 } = s.kept := rfl
theorem State.kept_loft (s : State) (v0) : State.kept { s with loft := v0 } = s.kept := rfl
theorem State.kept_perf (s : State) (v0) : State.kept { s with perf := v0 } = s.kept := rfl
theorem State.kept_precHeld (s : State) (v0) : State.kept { s with precHeld := v0 } = s.kept := rfl
theorem State.kept_precSize (s : State) (v0) : State.kept { s with precSize := v0 } = s.kept := rfl
theorem State.kept_queueSizes (s : State) (v0) : State.kept { s with queueSizes := v0 } = s.kept := rfl
theorem State.kept_scans (s : State) (v0) : State.kept { s with scans := v0 } = s.kept := rfl
theorem State.kept_scene (s : State) (v0) : State.kept { s with scene := v0 } = s.kept := rfl
end Sys2Proof.Machine
end

section
/-! PROOFS. Frames, rings, scenes, gates and telltales keep what a start sequence has reached (`State.kept`). -/

namespace Sys2Proof.Machine

/-! ### Parts of the state -/

theorem State.setReg64_kept (s : State) {a : Nat} (v : Nat) (h : sparesAddr a) (h' : sparesAddr (a + 4)) :
    (s.setReg64 a v).kept = s.kept :=
  (State.setReg_kept _ _ h').trans (s.setReg_kept _ h)

theorem State.setRing_kept (s : State) (n : Nat) (r : Ring) : (s.setRing n r).kept = s.kept :=
  State.kept_of_hide (State.setRing_hide rfl ..)

theorem State.setPipe_kept (s : State) (p : Nat) (r : PipeRt) : (s.setPipe p r).kept = s.kept :=
  State.kept_of_hide (State.setPipe_hide rfl ..)

theorem State.setGate_kept (s : State) (m : Nat) (g : Gate) : (s.setGate m g).kept = s.kept :=
  State.kept_of_hide (State.setGate_hide rfl ..)

theorem State.setSource_kept (s : State) (k : Nat) (v : Source) : (s.setSource k v).kept = s.kept :=
  State.kept_of_hide (State.setSource_hide rfl ..)

theorem State.setWindow_kept (s : State) (n : Nat) (w : Window) : (s.setWindow n w).kept = s.kept :=
  State.kept_of_hide (State.setWindow_hide rfl ..)

theorem State.setChan_kept (s : State) (c : Nat) (d : DmaChan) : (s.setChan c d).kept = s.kept :=
  State.kept_of_hide (State.setChan_hide rfl ..)

theorem State.setCam_kept (s : State) (c : Nat) (v : Cam) : (s.setCam c v).kept = s.kept :=
  State.kept_of_hide (State.setCam_hide rfl ..)

theorem State.setGroup_kept (s : State) (g : Nat) (v : Group) : (s.setGroup g v).kept = s.kept :=
  State.kept_of_hide (State.setGroup_hide rfl ..)

theorem State.setUnit_kept (s : State) (u : Nat) (v : FUnit) : (s.setUnit u v).kept = s.kept :=
  State.kept_of_hide (State.setUnit_hide rfl ..)

theorem State.emit_kept (s : State) (o : Out) : (s.emit o).kept = s.kept :=
  State.kept_of_hide (State.emit_hide rfl ..)

theorem State.freshen_kept (s : State) : (s.freshen).kept = s.kept :=
  State.kept_of_hide (State.freshen_hide rfl ..)

theorem State.loseMemory_kept (s : State) (m : Nat) : (s.loseMemory m).kept = s.kept :=
  State.kept_of_hide (State.loseMemory_hide rfl ..)

theorem State.perfAdd_kept (s : State) (k d : Nat) : (s.perfAdd k d).kept = s.kept :=
  State.kept_of_hide (State.perfAdd_hide rfl ..)

/-! ### Counted accesses, frames and reads -/

theorem reportFull_kept (s : State) (q : Nat) : (reportFull s q).kept = s.kept := by
  simp only [reportFull, reportCond_kept]

theorem lockedWrite_kept (s : State) (p : Path) (a : Nat) : (lockedWrite s p a).kept = s.kept := by
  simp only [lockedWrite, State.addFld_kept, State.setFld_kept, raise_kept, F.sysLockViolCount_spares,
    F.sysLockViolAddrPath_spares, F.sysLockViolAddrAddr_spares]

theorem unmapped_kept (s : State) : (unmapped s).kept = s.kept := by
  simp only [unmapped, State.addFld_kept, F.sysUnmappedCount_spares]

theorem setActive_kept (s : State) (l : Link) : (setActive s l).kept = s.kept := by
  simp only [setActive, State.setFld_kept, F.ringLinkStatActive_spares]

theorem countTx_kept (s : State) (l : Link) (bytes : Nat) : (countTx s l bytes).kept = s.kept :=
  State.kept_of_hide (countTx_hide rfl ..)

theorem transmit_kept (s : State) (kind seq : Nat) (body : List Byte) (retx : Bool) :
    (transmit s kind seq body retx).kept = s.kept := by
  unfold transmit
  split
  · rfl
  · simp only [State.kept_hw, State.emit_kept, countTx_kept]

theorem sendNext_kept (s : State) : (sendNext s).kept = s.kept := by
  unfold sendNext
  split
  · rfl
  · exact (transmit_kept ..).trans (State.kept_hw _ rfl rfl)

theorem pumpFrames_kept (n : Nat) (s : State) : (pumpFrames n s).kept = s.kept := by
  induction n generalizing s with
  | zero => rfl
  | succ n ih => simp only [pumpFrames, ih, sendNext_kept, State.kept_ite, ite_self]

theorem ontoUsable_kept (s : State) : (ontoUsable s).kept = s.kept := by
  simp only [ontoUsable, setActive_kept, State.kept_ite, ite_self]

theorem pump_kept (s : State) : (pump s).kept = s.kept := by
  simp only [pump, ontoUsable_kept, pumpFrames_kept, wakeSome_kept, State.kept_ite, ite_self]

theorem sendSeq_kept (s : State) (kind : Nat) (body : List Byte) (readId : Option (BitVec 16)) :
    (sendSeq s kind body readId).kept = s.kept := by
  simp only [sendSeq, pump_kept, State.kept_hw, State.kept_ite, ite_self]

theorem writeFrame_kept (s : State) (addr : Nat) (bs : List Byte) : (writeFrame s addr bs).kept = s.kept := by
  simp only [writeFrame, sendSeq_kept]

theorem writePieces_kept (n : Nat) (s : State) (a : Nat) (bs : List Byte) : (writePieces n s a bs).kept = s.kept := by
  induction n generalizing s a bs with
  | zero => rfl
  | succ n ih => simp only [writePieces, ih, writeFrame_kept, State.kept_ite, ite_self]

theorem writeHost_kept (s : State) (a : Nat) (bs : List Byte) : (writeHost s a bs).kept = s.kept := by
  simp only [writeHost, writePieces_kept]

theorem sendRead_kept (s : State) (r : ReadReq) : (sendRead s r).kept = s.kept := by
  simp only [sendRead, sendSeq_kept, State.kept_hw, State.kept_ite, ite_self]

theorem pumpReads_kept (s : State) : (pumpReads s).kept = s.kept := State.each_kept _ _ _ sendRead_kept

theorem readHost_kept (s : State) (addr len : Nat) (p : ReadFor) : (readHost s addr len p).kept = s.kept := by
  simp only [readHost, pumpReads_kept, State.kept_hw]

/-! ### Completions and records -/

theorem issueCpl_kept (s : State) (n : Nat) (c : Cpl) : (issueCpl s n c).kept = s.kept := by
  simp only [issueCpl, State.setFld_kept, State.setReg_kept, raise_kept, writeHost_kept, State.kept_ite, ite_self,
    F.ringStatState_spares, A.ringCplPi_spares]

theorem issueHeld_kept (n k : Nat) (s : State) : (issueHeld n k s).kept = s.kept := by
  induction k generalizing s with
  | zero => rfl
  | succ k ih =>
    unfold issueHeld
    split
    · rfl
    · simp only [ih, issueCpl_kept, State.setRing_kept, State.kept_ite, ite_self]

theorem drainRing_kept (s : State) (n : Nat) : (drainRing s n).kept = s.kept := by
  simp only [drainRing, issueHeld_kept]

theorem takeKey_kept (s : State) : (takeKey s).2.kept = s.kept := by
  simp only [takeKey, State.kept_hw]

theorem openCpl_kept (s : State) (n key : Nat) (index : BitVec 32) (tag : BitVec 16) (chain : Bool) :
    (openCpl s n key index tag chain).kept = s.kept :=
  State.kept_of_hide (openCpl_hide rfl ..)

theorem closeCpl_kept (s : State) (n key status : Nat) (detail : BitVec 64) (nocpl : Bool) (dep : Option (BitVec 8)) :
    (closeCpl s n key status detail nocpl dep).kept = s.kept := by
  simp only [closeCpl, State.setRing_kept, drainRing_kept]

theorem complete_kept (s : State) (n : Nat) (index : BitVec 32) (h : DescHdr) (chain : Bool) (status : Nat) (detail : BitVec 64) :
    (complete s n index h chain status detail).kept = s.kept := by
  simp only [complete, closeCpl_kept, openCpl_kept, takeKey_kept]

theorem setPrecHeld_kept (s : State) (p : Nat) (l : List (List Byte)) : (setPrecHeld s p l).kept = s.kept := by
  simp only [setPrecHeld, State.setFld_kept, State.kept_precHeld, F.ringPrecHeldCount_spares]

theorem State.cur_of_kept {s t : State} (h : t.kept = s.kept) : t.hw.cur = s.hw.cur := congrArg (fun x => x.2.1.1) h

/-- With a session in hand the bank is not shown, and only RAW_CTL counts. -/
theorem State.setReg_kept_session {s : State} (h : sessionOpen s = true) {a : Nat} (ha : a ≠ A.barnRawCtl) (w : Word) :
    (s.setReg a w).kept = s.kept := by
  refine State.kept_of_parts rfl rfl (State.guardBits_congr (State.reg_setReg_other _ _ _ _ (Ne.symm ha))) fun _ hcur => ?_
  rw [sessionOpen, hcur] at h
  cases h

theorem sessionOpen_of_kept {s t : State} (h : t.kept = s.kept) : sessionOpen t = sessionOpen s := by
  rw [sessionOpen, sessionOpen, State.cur_of_kept h]

/-- WR of a record ring never stands at RAW_CTL. -/
theorem issuePrec_kept {s : State} (h : sessionOpen s = true) (p : Nat) (rec : List Byte) : (issuePrec s p rec).kept = s.kept := by
  simp only [issuePrec]
  refine (State.setReg_kept_session ((sessionOpen_of_kept (writeHost_kept ..)).trans h) ?_ _).trans (writeHost_kept ..)
  simp only [A.ringPrecWr, A.barnRawCtl]
  omega

theorem issuePrecs_kept (p n : Nat) (s : State) : (issuePrecs p n s).kept = s.kept := by
  induction n generalizing s with
  | zero => rfl
  | succ n ih =>
    unfold issuePrecs
    split
    · rfl
    · next r l _ =>
      have hheld : (setPrecHeld s p l).kept = s.kept := setPrecHeld_kept ..
      split
      · next h =>
        simp only [canIssue, Bool.and_eq_true] at h
        obtain ⟨⟨⟨hopen, -⟩, -⟩, -⟩ := h
        exact (ih _).trans ((issuePrec_kept ((sessionOpen_of_kept hheld).trans hopen) ..).trans hheld)
      · rfl

theorem drainPrec_kept (s : State) (p : Nat) : (drainPrec s p).kept = s.kept := by
  simp only [drainPrec, issuePrecs_kept]

theorem pipeRecord_kept (s : State) (p : Nat) (rec : List Byte) : (pipeRecord s p rec).kept = s.kept := by
  simp only [pipeRecord, drainPrec_kept, raise_kept, setPrecHeld_kept, State.kept_ite, ite_self]

theorem noteHeld_kept (s : State) : (noteHeld s).kept = s.kept := by
  simp only [noteHeld, State.setFld_kept, reportCond_kept, F.faultRrecHeldCount_spares]

/-! ### Rings and their descriptors -/

theorem haltRing_kept (s : State) (n cause : Nat) (stop : BitVec 32) : (haltRing s n cause stop).kept = s.kept := by
  simp only [haltRing, State.setFld_kept, State.setReg_kept, State.setRing_kept, raise_kept,
    F.ringStatState_spares, F.ringStatCause_spares, F.ringCtlRun_spares, A.ringStopIndex_spares, A.ringCi_spares]

theorem endRing_kept (s : State) (n cause : Nat) (stop : BitVec 32) : (endRing s n cause stop).kept = s.kept := by
  simp only [endRing, State.setRing_kept, haltRing_kept, State.kept_ite, ite_self]

theorem countBad_kept (s : State) (c : Nat) : (countBad s c).kept = s.kept := by
  simp only [countBad, State.addFld_kept, raise_kept, F.dmaBadDescCount_spares]

theorem failSlot_kept (s : State) (n : Nat) (index : BitVec 32) (tag : BitVec 16) (chain : Bool) (status : Nat) :
    (failSlot s n index tag chain status).kept = s.kept := by
  simp only [failSlot, complete_kept]

theorem readAhead_kept (s : State) (n : Nat) : (readAhead s n).kept = s.kept := by
  simp only [readAhead]
  split
  · rfl
  · split <;> simp only [readHost_kept, State.setRing_kept, State.kept_ite, ite_self]

theorem loopStop_kept (s : State) (n : Nat) (d : Desc) : (loopStop s n d).kept = s.kept := by
  simp only [loopStop, endRing_kept, failSlot_kept]

theorem stepChain_kept (s : State) (n : Nat) (d : Desc) : (stepChain s n d).kept = s.kept :=
  State.kept_of_hide (stepChain_hide rfl ..)

theorem pipeFault_kept (s : State) (p cause : Nat) : (pipeFault s p cause).kept = s.kept := by
  simp only [pipeFault, State.setFld_kept, raise_kept, F.pipeStatCause_spares]

theorem setBin_kept (s : State) (x : ObjView × SMap ObjView) : (setBin s x).kept = s.kept :=
  State.kept_of_hide (setBin_hide rfl ..)

theorem putCtxWords_kept (s : State) (ws : SMap Word) : (putCtxWords s ws).kept = s.kept :=
  State.kept_of_hide (putCtxWords_hide rfl ..)

theorem setOnTwin_kept (s : State) (code : Nat) (on : Bool) : (setOnTwin s code on).kept = s.kept := by
  simp only [setOnTwin, State.setFld_kept, State.kept_scene, State.kept_ite, ite_self, F.layerSlotStatOnTwin_spares]

theorem State.mapScene_kept (s : State) (f : SceneState → SceneState) : (s.mapScene f).kept = s.kept :=
  State.kept_of_hide (State.mapScene_hide rfl ..)

theorem setStaging_kept (s : State) (n : Nat) (c : Option Scene) : (setStaging s n c).kept = s.kept :=
  State.kept_of_hide (setStaging_hide rfl ..)

theorem keepBefore_kept (s : State) (n : Nat) : (keepBefore s n).kept = s.kept :=
  State.kept_of_hide (keepBefore_hide rfl ..)

theorem badDesc_kept (s : State) (n : Nat) (d : Desc) (status : Nat) : (badDesc s n d status).kept = s.kept := by
  simp only [badDesc, complete_kept, setStaging_kept]

theorem staged_kept (s : State) (n : Nat) (d : Desc) (f : Scene → Scene) : (staged s n d f).kept = s.kept := by
  simp only [staged, complete_kept, setStaging_kept]

theorem actLayerWords_kept (s : State) (n : Nat) (d : Desc) : (actLayerWords s n d).kept = s.kept := by
  simp only [actLayerWords, badDesc_kept, staged_kept, State.kept_ite, ite_self]

theorem actObjWords_kept (s : State) (n : Nat) (d : Desc) : (actObjWords s n d).kept = s.kept := by
  simp only [actObjWords, badDesc_kept, staged_kept, State.kept_ite, ite_self]

theorem actMatrix_kept (s : State) (n : Nat) (d : Desc) : (actMatrix s n d).kept = s.kept := by
  simp only [actMatrix, badDesc_kept, staged_kept, State.kept_ite, ite_self]

theorem actLoftLoad_kept (s : State) (n : Nat) (d : Desc) : (actLoftLoad s n d).kept = s.kept := by
  simp only [actLoftLoad, badDesc_kept, staged_kept, State.kept_ite, ite_self]

theorem actFenceAcq_kept (s : State) (n : Nat) (d : Desc) : (actFenceAcq s n d).kept = s.kept := by
  simp only [actFenceAcq, badDesc_kept, staged_kept, State.kept_ite, ite_self]

theorem readPieces_kept (s : State) (n key addr len : Nat) : (readPieces s n key addr len).kept = s.kept :=
  State.each_kept _ _ _ fun _ _ => readHost_kept ..

theorem beginContent_kept (s : State) (n : Nat) (d : Desc) : (beginContent s n d).kept = s.kept := by
  unfold beginContent
  split
  · exact badDesc_kept ..
  · simp only [readPieces_kept, State.setRing_kept, openCpl_kept, takeKey_kept]

theorem actLayerBlock_kept (s : State) (n : Nat) (d : Desc) : (actLayerBlock s n d).kept = s.kept := by
  simp only [actLayerBlock, beginContent_kept]

theorem actObjBlock_kept (s : State) (n : Nat) (d : Desc) : (actObjBlock s n d).kept = s.kept := by
  simp only [actObjBlock, beginContent_kept]

theorem actLutLoad_kept (s : State) (n : Nat) (d : Desc) : (actLutLoad s n d).kept = s.kept := by
  simp only [actLutLoad, beginContent_kept]

theorem submit_kept (s : State) (i : WItem) : (submit s i).kept = s.kept :=
  State.kept_of_hide (submit_hide rfl ..)

theorem handCommit_kept (s : State) (n : Nat) (d : Desc) : (handCommit s n d).kept = s.kept := by
  simp only [handCommit, openCpl_kept, setStaging_kept, submit_kept, takeKey_kept]

theorem actCommit_kept (s : State) (n : Nat) (d : Desc) : (actCommit s n d).kept = s.kept := by
  simp only [actCommit, State.setRing_kept, badDesc_kept, handCommit_kept, State.kept_ite, ite_self]

theorem actNop_kept (s : State) (n : Nat) (d : Desc) : (actNop s n d).kept = s.kept := by
  simp only [actNop, complete_kept]

theorem actJump_kept (s : State) (n : Nat) (d : Desc) : (actJump s n d).kept = s.kept := by
  simp only [actJump, State.setRing_kept, badDesc_kept, complete_kept, countBad_kept, State.kept_ite, ite_self]

/-! ### Gates, telltales, the shaper and the ports -/

theorem startGate_kept (s : State) (m : Nat) (l : GateList) (late : Bool) (n : Nat) : (startGate s m l late n).kept = s.kept := by
  simp only [startGate, State.addFld_kept, State.setGate_kept, raise_kept, State.kept_ite, ite_self, F.schedGclLateCount_spares]

theorem armGate_kept (s : State) (m : Nat) (l : GateList) : (armGate s m l).kept = s.kept := by
  simp only [armGate, State.setGate_kept, startGate_kept, State.kept_ite, ite_self]

theorem refreshTelltales_kept (s : State) : (refreshTelltales s).kept = s.kept :=
  State.kept_of_hide (refreshTelltales_hide rfl ..)

theorem changeForce_kept (s : State) {f : State → State} (h : ∀ t, (f t).kept = t.kept) : (changeForce s f).kept = s.kept := by
  simp only [changeForce, refreshTelltales_kept, raise_kept, h, State.kept_ite, ite_self]

theorem putCause_kept (s : State) (c p : Nat) (v : BitVec 8) : (putCause s c p v).kept = s.kept :=
  State.kept_of_hide (putCause_hide rfl ..)

theorem forceHold_kept (s : State) (c p : Nat) (on : Bool) : (forceHold s c p on).kept = s.kept :=
  changeForce_kept s fun _ => putCause_kept ..

theorem forceSw_kept (s : State) (on : Bool) : (forceSw s on).kept = s.kept :=
  changeForce_kept s fun t => t.setFld_kept _ F.lightForceSw_spares

theorem setLevel_kept (s : State) (k : Nat) (v : ℤ) : (setLevel s k v).kept = s.kept :=
  State.kept_of_hide (setLevel_hide rfl ..)

theorem settleLevels_kept (s : State) : (settleLevels s).kept = s.kept :=
  State.kept_of_hide (settleLevels_hide rfl ..)

theorem setThrottle_kept (s : State) (reproof : Bool) (held : Nat) : (setThrottle s reproof held).kept = s.kept := by
  simp only [setThrottle, State.setFld_kept, raise_kept, settleLevels_kept, State.kept_ite, ite_self,
    F.schedThrottleReproof_spares, F.schedThrottleHeld_spares]

theorem charge_kept (s : State) (k n : Nat) : (charge s k n).kept = s.kept :=
  State.kept_of_hide (charge_hide rfl ..)

theorem countBytes_kept (s : State) (k cls a n : Nat) : (countBytes s k cls a n).kept = s.kept :=
  State.kept_of_hide (countBytes_hide rfl ..)

theorem shaperChange_kept (old s : State) : (shaperChange old s).kept = s.kept := by
  simp only [shaperChange, State.addFld_kept, setLevel_kept, State.each_kept, implies_true, State.kept_ite, ite_self,
    F.schedDebtDroppedCount_spares]

theorem fillBlocks_kept (s : State) : (fillBlocks s).kept = s.kept :=
  State.kept_of_hide (fillBlocks_hide rfl ..)

theorem fenceRead_kept (s : State) (addr : Nat) : (fenceRead s addr).kept = s.kept :=
  State.kept_of_hide (fenceRead_hide rfl ..)

theorem takeTwin_kept (s : State) (mine : Nat × Nat × Bool → Bool) : (takeTwin s mine).kept = s.kept := by
  simp only [takeTwin, State.addFld_kept, State.kept_scene, F.layerTwinReadsCount_spares]

theorem moveProgress_kept (s : State) (k code : Nat) (f : Nat × Nat → Nat × Nat) : (moveProgress s k code f).kept = s.kept := by
  unfold moveProgress
  split
  · exact takeTwin_kept ..
  · split
    · rfl
    · split
      · exact State.setCam_kept ..
      · split
        · split <;> rfl
        · simp only [State.setChan_kept, fenceRead_kept, State.kept_scans, State.kept_ite, ite_self]

theorem startBurst_kept (s : State) (m : Nat) (r : Req) : (startBurst s m r).kept = s.kept := by
  simp only [startBurst, State.setGate_kept, charge_kept, countBytes_kept, moveProgress_kept, State.kept_ite, ite_self]

theorem cutBurst_kept (s : State) (m : Nat) : (cutBurst s m).kept = s.kept := by
  unfold cutBurst
  split
  · rfl
  · simp only [moveProgress_kept, State.freshen_kept, State.setGate_kept, State.kept_ite, ite_self]

theorem servePort_kept (k : Nat) (s : State) (m : Nat) : (servePort k s m).kept = s.kept := by
  induction k generalizing s with
  | zero => rfl
  | succ k ih =>
    simp only [servePort]
    split
    · exact fillBlocks_kept s
    · exact (ih _).trans ((startBurst_kept ..).trans (fillBlocks_kept s))

theorem servePorts_kept (s : State) : (servePorts s).kept = s.kept := by
  simp only [servePorts, cutBurst_kept, fillBlocks_kept, servePort_kept, State.each_kept, implies_true, State.kept_ite, ite_self]

/-! ### Armed scenes -/

theorem pipeEvent_kept (s : State) (p k : Nat) : (pipeEvent s p k).kept = s.kept := by
  simp only [pipeEvent, raise_kept]

theorem setArmed_kept (s : State) (a : Armed) : (setArmed s a).kept = s.kept :=
  State.kept_of_hide (setArmed_hide rfl ..)

theorem dropArmed_kept (s : State) (k : Nat) : (dropArmed s k).kept = s.kept :=
  State.kept_of_hide (dropArmed_hide rfl ..)

theorem slotFault_kept (s : State) (code cause : Nat) : (slotFault s code cause).kept = s.kept := by
  simp only [slotFault, State.setFld_kept, raise_kept, F.layerSlotStatCause_spares]

theorem offFrame_kept (s : State) (p code : Nat) : (offFrame s p code).kept = s.kept :=
  State.kept_of_hide (offFrame_hide rfl ..)

theorem holdOffPlanar_kept (s : State) (p n : Nat) : (holdOffPlanar s p n).kept = s.kept := by
  simp only [holdOffPlanar, State.setPipe_kept, forceHold_kept, State.kept_fetches]

theorem recheckClassS_kept (s : State) (p : Nat) : (recheckClassS s p).kept = s.kept := by
  simp only [recheckClassS, forceHold_kept]

theorem loseLayer_kept (s : State) (m n : Nat) : (loseLayer s m n).kept = s.kept := by
  simp only [loseLayer, State.setFld_kept, holdOffPlanar_kept, offFrame_kept, setOnTwin_kept, slotFault_kept,
    State.kept_fetches, State.kept_ite, ite_self, F.layerSlotStatCause_spares]

theorem addRelease_kept (s : State) (r : Release) : (addRelease s r).kept = s.kept :=
  State.kept_of_hide (addRelease_hide rfl ..)

theorem flushReleases_kept (s : State) (f : Release → Bool) : (flushReleases s f).kept = s.kept :=
  (State.each_kept _ _ _ fun _ _ => pipeRecord_kept ..).trans (State.mapScene_kept ..)

theorem flushFlips_kept (s : State) (f : FlipDue → Bool) : (flushFlips s f).kept = s.kept :=
  (State.each_kept _ _ _ fun _ _ => (pipeEvent_kept ..).trans (pipeRecord_kept ..)).trans (State.mapScene_kept ..)

theorem drainReleases_kept (s : State) : (drainReleases s).kept = s.kept := by
  simp only [drainReleases, flushFlips_kept, flushReleases_kept]

theorem releasesAtCommit_kept (s : State) (a : Armed) : (releasesAtCommit s a).kept = s.kept := by
  simp only [releasesAtCommit, drainReleases_kept, addRelease_kept, State.each_kept, implies_true, State.kept_ite, ite_self]

theorem objectFault_kept (s : State) (p cause : Nat) : (objectFault s p cause).kept = s.kept := by
  simp only [objectFault, State.addFld_kept, State.setFld_kept, raise_kept, F.objPipeStatCause_spares, F.objFaultsCount_spares]

theorem abandonLoad_kept (s : State) (l : LoftLoad) : (abandonLoad s l).kept = s.kept := by
  simp only [abandonLoad, State.mapScene_kept, objectFault_kept]

theorem makeLeaver_kept (s : State) (q n : Nat) : (makeLeaver s q n).kept = s.kept :=
  State.kept_of_hide (makeLeaver_hide rfl ..)

theorem takeArrived_kept (s : State) (p n : Nat) : (takeArrived s p n).kept = s.kept :=
  State.kept_of_hide (takeArrived_hide rfl ..)

theorem dropLeaver_kept (s : State) (c : Nat) : (dropLeaver s c).kept = s.kept :=
  State.kept_of_hide (dropLeaver_hide rfl ..)

theorem laySlot_kept (s : State) (w : Writes) (n c : Nat) : (laySlot s w n c).kept = s.kept :=
  State.kept_of_hide (laySlot_hide rfl ..)

theorem returnSlot_kept (s : State) (w : Writes) (p n c : Nat) : (returnSlot s w p n c).kept = s.kept := by
  simp only [returnSlot, State.setPipe_kept, setOnTwin_kept, State.kept_ite, ite_self]

theorem slotArrives_kept (s : State) (prior : Comp) (w : Writes) (p n : Nat) : (slotArrives s prior w p n).kept = s.kept := by
  simp only [slotArrives, State.mapScene_kept, State.setPipe_kept, laySlot_kept, makeLeaver_kept, recheckClassS_kept,
    returnSlot_kept, takeArrived_kept, State.kept_ite, ite_self]

theorem applySlot_kept (prior : Comp) (w : Writes) (p : Nat) (s : State) (n : Nat) : (applySlot prior w p s n).kept = s.kept := by
  simp only [applySlot, State.mapScene_kept, dropLeaver_kept, laySlot_kept, returnSlot_kept, slotArrives_kept, State.kept_ite,
    ite_self]

theorem darken_kept (s : State) (p : Nat) (frame : BitVec 32) : (darken s p frame).kept = s.kept := by
  simp only [darken, State.mapScene_kept, State.setPipe_kept, addRelease_kept, drainReleases_kept, recheckClassS_kept,
    setOnTwin_kept, State.kept_fetches, State.each_kept, implies_true]

theorem dropOff_kept (s : State) (key : Nat) (cs : List Nat) : (dropOff s key cs).kept = s.kept :=
  State.kept_of_hide (dropOff_hide rfl ..)

theorem leavePipe_kept (s : State) (k p : Nat) : (leavePipe s k p).kept = s.kept :=
  State.kept_of_hide (leavePipe_hide rfl ..)

theorem applyRest_kept (s : State) (a : Armed) (p : Nat) (frame : BitVec 32) : (applyRest s a p frame).kept = s.kept := by
  simp only [applyRest, abandonLoad_kept, State.setPipe_kept, dropOff_kept, putCtxWords_kept, State.mapScene_kept, setBin_kept,
    State.each_kept, implies_true]

theorem flipOf_kept (s : State) (a : Armed) (p : Nat) (frame : BitVec 32) : (flipOf s a p frame).kept = s.kept := by
  simp only [flipOf, State.mapScene_kept, pipeEvent_kept, State.kept_ite, ite_self]

theorem applyPart_kept (s : State) (k p : Nat) (frame : BitVec 32) (atStart : Bool) :
    (applyPart s k p frame atStart).kept = s.kept := by
  unfold applyPart
  split
  · rfl
  · simp only [applyRest_kept, applySlot_kept, State.setPipe_kept, recheckClassS_kept, forceHold_kept, pipeFault_kept, flipOf_kept,
      leavePipe_kept, loseLayer_kept, darken_kept, State.each_kept, implies_true, State.kept_ite, ite_self]

theorem queueReadmit_kept (s : State) (stooks : List Nat) (sc : Scene) : (queueReadmit s stooks sc).kept = s.kept :=
  State.kept_of_hide (queueReadmit_hide rfl ..)

theorem applyStopped_kept (s : State) (k : Nat) : (applyStopped s k).kept = s.kept := by
  unfold applyStopped
  split
  · rfl
  · simp only [releasesAtCommit_kept, setArmed_kept, applyPart_kept, State.each_kept, implies_true, State.kept_ite, ite_self]

theorem applyToStopped_kept (s : State) (k : Nat) : (applyToStopped s k).kept = s.kept := by
  unfold applyToStopped
  split
  · rfl
  · simp only [applyPart_kept, State.each_kept, implies_true, State.kept_ite, ite_self]

theorem askStopped_kept (s : State) (k : Nat) : (askStopped s k).kept = s.kept :=
  State.kept_of_hide (askStopped_hide rfl ..)

theorem armScene_kept (s : State) (sc : Scene) : (armScene s sc).kept = s.kept := by
  simp only [armScene, queueReadmit_kept, servePorts_kept, askStopped_kept, applyStopped_kept, State.mapScene_kept,
    State.each_kept, implies_true]

theorem liftHolds_kept (s : State) (lift : BitVec 4) : (liftHolds s lift).kept = s.kept := by
  simp only [liftHolds, setThrottle_kept, State.kept_ite, ite_self]

theorem armWritten_kept (s : State) : (armWritten s).kept = s.kept := by
  simp only [armWritten, armScene_kept, liftHolds_kept, State.mapScene_kept, State.each_kept, implies_true]

theorem dropPart_kept (s : State) (a : Armed) (reason : Nat) : (dropPart s a reason).kept = s.kept := by
  simp only [dropPart, pipeEvent_kept, pipeRecord_kept, State.addFld_kept, dropArmed_kept, State.each_kept, implies_true,
    F.sceneDropCntCount_spares]

theorem slipPart_kept (s : State) (a : Armed) : (slipPart s a).kept = s.kept := by
  simp only [slipPart, dropPart_kept, pipeEvent_kept, State.perfAdd_kept, State.addFld_kept, setArmed_kept, State.each_kept,
    implies_true, State.kept_ite, ite_self, F.sceneSlipCntCount_spares]

theorem dropAhead_kept (s : State) (a : Armed) : (dropAhead s a).kept = s.kept :=
  State.kept_of_hide (dropAhead_hide rfl ..)

theorem decidePart_kept (s : State) (k : Nat) : (decidePart s k).kept = s.kept := by
  unfold decidePart
  split
  · rfl
  · simp only [applyToStopped_kept, releasesAtCommit_kept, dropAhead_kept, slipPart_kept, setArmed_kept, State.kept_ite, ite_self]

theorem decideParts_kept (s : State) : (decideParts s).kept = s.kept := by
  simp only [decideParts, applyStopped_kept, decidePart_kept, State.each_kept, implies_true]

theorem requestFallback_kept (s : State) (p : Nat) : (requestFallback s p).kept = s.kept :=
  State.kept_of_hide (requestFallback_hide rfl ..)

theorem discardScenes_kept (s : State) : (discardScenes s).kept = s.kept :=
  State.kept_of_hide (discardScenes_hide rfl ..)

end Sys2Proof.Machine
end

section
/-! PROOFS. Lane groups, DMA, scans, event queues, the rings' run and the strobe keep what a start sequence has reached
(`State.kept`). -/

namespace Sys2Proof.Machine

/-! ### Lane groups and cameras -/

theorem setGroupState_kept (s : State) (g v : Nat) : (setGroupState s g v).kept = s.kept := by
  simp only [setGroupState, State.setFld_kept, F.laneStatState_spares]

theorem blackLine_kept (s : State) (p : Fin 8) (y : Nat) : (blackLine s p y).kept = s.kept :=
  State.kept_of_hide (blackLine_hide rfl ..)

theorem recheckLink_kept (s : State) (p : Nat) : (recheckLink s p).kept = s.kept := by
  simp only [recheckLink, forceHold_kept]

theorem waitLink_kept (s : State) (p : Nat) : (waitLink s p).kept = s.kept := by
  simp only [waitLink, State.setPipe_kept, recheckLink_kept, State.kept_ite, ite_self]

theorem bringUp_kept (s : State) (g st : Nat) : (bringUp s g st).kept = s.kept := by
  simp only [bringUp, State.setGroup_kept, setGroupState_kept]

theorem startGroup_kept (s : State) (g : Nat) : (startGroup s g).kept = s.kept := by
  simp only [startGroup, bringUp_kept, waitLink_kept, State.kept_ite, ite_self]

theorem linkFault_kept (s : State) (g cause : Nat) : (linkFault s g cause).kept = s.kept := by
  simp only [linkFault, State.addFld_kept, State.setFld_kept, raise_kept, F.laneStatCause_spares, F.laneLinkFailsCount_spares]

theorem packetGo_kept (s : State) (g : Nat) : (packetGo s g).kept = s.kept := by
  simp only [packetGo, State.setFld_kept, State.kept_ite, ite_self, F.lanePktCtlBusy_spares, F.lanePktCtlErr_spares]

theorem packetPush_kept (s : State) (g : Nat) (w : Word) : (packetPush s g w).kept = s.kept :=
  State.kept_of_hide (packetPush_hide rfl ..)

theorem camDropped_kept (s : State) (c frame : Nat) : (camDropped s c frame).kept = s.kept := by
  simp only [camDropped, State.setCam_kept, raise_kept, State.kept_ite, ite_self]

theorem camClose_kept (s : State) (c : Nat) : (camClose s c).kept = s.kept := by
  simp only [camClose, State.setCam_kept, State.setFld_kept, F.laneCamStatActive_spares]

theorem F.schedPolOverrunsCount_spares {i : Nat} (h : i < 16) : (F.schedPolOverrunsCount i).spares := by
  simp only [Fld.spares, F.schedPolOverrunsCount, A.schedPolOverruns]
  omega

theorem dropCamLines_kept (s : State) : (dropCamLines s).kept = s.kept := by
  refine State.each_kept_mem _ _ _ fun s c hc => ?_
  have hspares := F.schedPolOverrunsCount_spares (i := c) (by simp only [List.mem_cons, List.not_mem_nil, or_false] at hc; omega)
  simp only [camDropped_kept, State.addFld_kept, State.setCam_kept, State.each_kept, implies_true, hspares]

/-! ### DMA channels -/

theorem askHost_kept (c n : Nat) (s : State) : (askHost c n s).kept = s.kept := by
  induction n generalizing s with
  | zero => rfl
  | succ n ih =>
    simp only [askHost]
    split
    · rfl
    · simp only [ih, readHost_kept, State.setChan_kept, State.kept_ite, ite_self]

theorem noteStatus_kept (s : State) (c st : Nat) : (noteStatus s c st).kept = s.kept := by
  simp only [noteStatus, State.setFld_kept, State.kept_ite, ite_self, F.dmaTchStatStatus_spares]

theorem beginRun_kept (s : State) (c : Nat) : (beginRun s c).kept = s.kept := by
  simp only [beginRun, State.addFld_kept, State.setChan_kept, State.setFld_kept, raise_kept, State.kept_ite, ite_self,
    F.dmaTrigMissedCount_spares, F.dmaTchStatBusy_spares, F.dmaTchStatStatus_spares]

theorem closeRun_kept (s : State) (c : Nat) : (closeRun s c).kept = s.kept := by
  simp only [closeRun, State.setChan_kept, State.setFld_kept, State.setReg_kept, raise_kept, F.dmaTchStatBusy_spares,
    A.dmaTchRuns_spares]

theorem noteEntry_kept (s : State) (c st : Nat) : (noteEntry s c st).kept = s.kept := by
  simp only [noteEntry, State.setFld_kept, countBad_kept, noteStatus_kept, State.kept_ite, ite_self,
    F.dmaChStatLastStatus_spares]

theorem takeEntry_kept (s : State) (c a : Nat) : (takeEntry s c a).kept = s.kept :=
  State.kept_of_hide (takeEntry_hide rfl ..)

/-- The end of a run, which starts the channel's followers. -/
theorem foldl_beginRun_kept {k : Nat} (ih : ∀ s c, (runNext k s c).kept = s.kept) (s : State) (l : List Nat) :
    (l.foldl (fun s f =>
      let was := (s.chan f).runAt
      let s := beginRun s f
      if was.isNone then runNext k s f else s) s).kept = s.kept :=
  State.each_kept s l _ fun s f => by simp only [ih, beginRun_kept, State.kept_ite, ite_self]

theorem runNext_kept (k : Nat) (s : State) (c : Nat) : (runNext k s c).kept = s.kept := by
  induction k generalizing s c with
  | zero => rfl
  | succ k ih =>
    unfold runNext
    simp only []
    split
    · rfl
    · split
      · rfl
      · simp only [ih, noteEntry_kept, State.setChan_kept]
    · simp only [foldl_beginRun_kept ih, closeRun_kept, State.setFld_kept, noteStatus_kept, noteEntry_kept, takeEntry_kept,
        State.kept_ite, ite_self, F.dmaTchStatStatus_spares]

theorem endEntries_kept (s : State) : (endEntries s).kept = s.kept := by
  simp only [endEntries, runNext_kept, State.each_kept, implies_true, State.kept_ite, ite_self]

theorem takeEntries_kept (s : State) : (takeEntries s).kept = s.kept := by
  simp only [takeEntries, runNext_kept, State.each_kept, implies_true, State.kept_ite, ite_self]

theorem serveRuns_kept (s : State) : (serveRuns s).kept = s.kept := by
  simp only [serveRuns, servePorts_kept, takeEntries_kept]

theorem askAll_kept (s : State) : (askAll s).kept = s.kept := State.each_kept _ _ _ fun _ _ => askHost_kept ..

theorem triggerChan_kept (s : State) (c : Nat) : (triggerChan s c).kept = s.kept := by
  simp only [triggerChan, beginRun_kept, runNext_kept, State.kept_ite, ite_self]

theorem triggerFollowers_kept (s : State) (c : Nat) : (triggerFollowers s c).kept = s.kept :=
  State.each_kept _ _ _ triggerChan_kept

theorem endChanRecovery_kept (s : State) (c : Nat) : (endChanRecovery s c).kept = s.kept :=
  State.kept_of_hide (endChanRecovery_hide rfl ..)

theorem endDesc_kept (s : State) (c status : Nat) (detail : BitVec 64) (dep : Option (BitVec 8)) :
    (endDesc s c status detail dep).kept = s.kept := by
  simp only [endDesc]
  split
  · rfl
  · split
    · simp only [runNext_kept, noteStatus_kept, countBad_kept, endChanRecovery_kept, State.setFld_kept, State.setChan_kept,
        State.kept_ite, ite_self, F.dmaChStatLastStatus_spares]
    · simp only [triggerFollowers_kept, State.kept_ite, ite_self]
      split <;> simp only [closeCpl_kept, countBad_kept, endChanRecovery_kept, State.setFld_kept, State.setChan_kept,
        State.kept_ite, ite_self, F.dmaChStatLastStatus_spares]

theorem takeDescs_kept (k : Nat) (s : State) (c : Nat) : (takeDescs k s c).kept = s.kept := by
  induction k generalizing s with
  | zero => rfl
  | succ k ih =>
    unfold takeDescs
    simp only []
    split
    · simp only [ih, endDesc_kept, askHost_kept, State.setChan_kept, State.kept_ite, ite_self]
    · rfl

theorem startDma_kept (s : State) (c : Nat) : (startDma s c).kept = s.kept := by
  simp only [startDma, takeDescs_kept]

theorem handDma_kept (s : State) (n : Nat) (d : Desc) (at_ batch : Nat) (marks : List (BitVec 32)) :
    (handDma s n d at_ batch marks).kept = s.kept := by
  simp only [handDma, State.setChan_kept, openCpl_kept, startDma_kept, takeKey_kept]

theorem restartEngine_kept (s : State) : (restartEngine s).kept = s.kept := by
  simp only [restartEngine, State.setFld_kept, State.kept_dmaHalted, State.kept_ite, ite_self, F.dmaEngineHalted_spares]

theorem dropDma_kept (s : State) (c : Nat) : (dropDma s c).kept = s.kept :=
  State.kept_of_hide (dropDma_hide rfl ..)

/-! ### Scans and event queues -/

theorem endScan_kept (s : State) (e status : Nat) : (endScan s e status).kept = s.kept := by
  simp only [endScan, State.setFld_kept, raise_kept, State.kept_scans, F.chkScanStatStatus_spares]

theorem beginScan_kept (s : State) (e start len poly : Nat) : (beginScan s e start len poly).kept = s.kept := by
  simp only [beginScan, State.setFld_kept, endScan_kept, State.kept_scans, State.kept_ite, ite_self, F.chkScanStatStatus_spares]

theorem scanGo_kept (s : State) (e : Nat) : (scanGo s e).kept = s.kept := by
  simp only [scanGo, beginScan_kept, State.kept_ite, ite_self]

theorem scanStop_kept (s : State) (e : Nat) : (scanStop s e).kept = s.kept := by
  simp only [scanStop, endScan_kept, State.kept_ite, ite_self]

theorem sendNotify_kept (s : State) (q : Nat) : (sendNotify s q).kept = s.kept := by
  simp only [sendNotify, writeHost_kept, State.kept_ite, ite_self]

theorem notifyPending_kept (s : State) (q : Nat) : (notifyPending s q).kept = s.kept := by
  simp only [notifyPending, sendNotify_kept, State.kept_ite, ite_self]

theorem dropWake_kept (s : State) (q : Nat) : (dropWake s q).kept = s.kept := by
  simp only [dropWake, State.kept_hw]

theorem completeSource_kept (s : State) (k : Nat) : (completeSource s k).kept = s.kept := by
  simp only [completeSource, State.addFld_kept, State.setFld_kept, sampleSource_kept, wakeAll_kept, State.kept_ite, ite_self,
    F.evtSrcStatActive_spares, F.evtStrayCplCount_spares]

theorem maskSource_kept (s : State) (k : Nat) (m : Bool) : (maskSource s k m).kept = s.kept := by
  simp only [maskSource, State.setFld_kept, wakeFor_kept, F.evtSrcCfgMask_spares]

theorem clearSpi_kept (s : State) (k : Nat) : (clearSpi s k).kept = s.kept := by
  simp only [clearSpi, State.setFld_kept, F.evtSrcStatSpiFlag_spares]

theorem sleepQueue_kept (s : State) (q : Nat) : (sleepQueue s q).kept = s.kept := by
  simp only [sleepQueue, State.setFld_kept, dropWake_kept, wakeAll_kept, F.evtQctlSleep_spares, F.evtQctlState_spares]

theorem awakeQueue_kept (s : State) (q : Nat) : (awakeQueue s q).kept = s.kept := by
  simp only [awakeQueue, State.setFld_kept, dropWake_kept, notifyPending_kept, State.kept_ite, ite_self, F.evtQctlState_spares,
    F.evtQctlSleep_spares]

theorem writeQmask_kept (s : State) (q : Nat) (m : Bool) : (writeQmask s q m).kept = s.kept := by
  simp only [writeQmask, State.setFld_kept, sendNotify_kept, State.kept_ite, ite_self, F.evtQctlQmask_spares]

theorem F.evtSrcStatCount_spares {k : Nat} (h : k < 1024) : (F.evtSrcStatCount k).spares := by
  simp only [Fld.spares, F.evtSrcStatCount, A.evtSrcStat]
  omega

theorem countOccurrence_kept_of_lt (s : State) {k : Nat} (hk : k < 1024) (r : Bool) : (countOccurrence s k r).kept = s.kept := by
  simp only [countOccurrence, wakeFor_kept, State.setFld_kept, State.addFld_kept, State.setSource_kept, State.kept_ite, ite_self,
    F.evtSrcStatCount_spares hk, F.evtSaturationsCount_spares]

theorem sourceStrobed_kept (old s : State) {k : Nat} (hk : k < 1024) : (sourceStrobed old s k).kept = s.kept := by
  simp only [sourceStrobed, wakeFor_kept, State.setSource_kept, State.setFld_kept, countOccurrence_kept_of_lt _ hk, markSpi_kept,
    reportCond_kept, State.kept_ite, ite_self, F.evtSrcStatAsserted_spares, F.evtSrcStatCount_spares hk]

theorem queueStrobed_kept (old s : State) (q : Nat) : (queueStrobed old s q).kept = s.kept := by
  simp only [queueStrobed, reportFull_kept, State.setReg_kept, State.kept_queueSizes, State.setFld_kept, State.each_kept,
    implies_true, State.kept_ite, ite_self, A.evtQpi_spares, A.evtHostCi_spares, F.evtSrcStatActive_spares]

theorem evtStrobed_kept (old s : State) : (evtStrobed old s).kept = s.kept := by
  simp only [evtStrobed, wakeAll_kept]
  refine (State.each_kept_mem _ _ _ fun s k hk => sourceStrobed_kept old s ?_).trans (State.each_kept _ _ _ (queueStrobed_kept old))
  exact List.mem_range.1 (List.mem_filter.1 hk).1

/-! ### The run of the rings -/

theorem actScene_kept (s : State) (n : Nat) (d : Desc) : (actScene s n d).kept = s.kept := by
  unfold actScene
  split <;> simp only [actNop_kept, actJump_kept, actLayerWords_kept, actLayerBlock_kept, actObjWords_kept, actObjBlock_kept,
    actLutLoad_kept, actMatrix_kept, actLoftLoad_kept, actFenceAcq_kept, actCommit_kept, badDesc_kept]

theorem actDma_kept (s : State) (n : Nat) (d : Desc) (r : Ring) : (actDma s n d r).kept = s.kept := by
  unfold actDma
  split <;> simp only [actNop_kept, actJump_kept, handDma_kept]

theorem afterAct_kept (s : State) (n : Nat) (d : Desc) : (afterAct s n d).kept = s.kept :=
  State.kept_of_hide (afterAct_hide rfl ..)

theorem countHop_kept {s t : State} {n : Nat} {d : Desc} (h : countHop s n d = some t) : t.kept = s.kept := by
  simp only [countHop, Option.ite_none_left_eq_some, Option.some.injEq] at h
  rw [← h.2, State.setRing_kept]

theorem actOn_kept (s : State) (n : Nat) (d : Desc) : (actOn s n d).kept = s.kept := by
  simp only [actOn]
  split
  · simp only [loopStop_kept, keepBefore_kept, State.kept_ite, ite_self]
  · next t h =>
    have ht := countHop_kept h
    simp only [keepBefore_kept, State.kept_ite, ite_self] at ht
    simp only [afterAct_kept, actScene_kept, actDma_kept, State.kept_ite, ite_self, ht]

theorem runRing_kept (k : Nat) (s : State) (n : Nat) : (runRing k s n).kept = s.kept := by
  induction k generalizing s with
  | zero => rfl
  | succ k ih =>
    unfold runRing
    split
    · simp only [haltRing_kept, State.kept_ite, ite_self]
    · split
      · exact haltRing_kept ..
      · split
        · rfl
        · split
          · simp only [ih, stepChain_kept, handCommit_kept, State.setRing_kept, State.kept_ite, ite_self]
          · split
            · exact readAhead_kept ..
            · simp only [ih, actOn_kept, State.setRing_kept, State.kept_ite, ite_self]

theorem portsGoOn_kept (s : State) : (portsGoOn s).kept = s.kept := by
  simp only [portsGoOn, askAll_kept, decideParts_kept, endEntries_kept, serveRuns_kept]

theorem ringsGoOn_kept (s : State) : (ringsGoOn s).kept = s.kept := by
  simp only [ringsGoOn, runRing_kept, armWritten_kept, drainRing_kept, State.each_kept, implies_true]

theorem settle_kept (s : State) : (settle s).kept = s.kept := by
  simp only [settle, armWritten_kept, drainPrec_kept, drainReleases_kept, portsGoOn_kept, pumpReads_kept, ringsGoOn_kept,
    State.each_kept, implies_true]

theorem resetRing_kept (s : State) (n : Nat) : (resetRing s n).kept = s.kept := by
  have hregs : (s.each [A.ringPi n, A.ringCi n, A.ringCplPi n, A.ringHostCi n, A.ringStopIndex n] (·.setReg · 0)).kept = s.kept := by
    refine State.each_kept_mem _ _ _ fun s a ha => s.setReg_kept 0 ?_
    simp only [List.mem_cons, List.not_mem_nil, or_false] at ha
    rcases ha with rfl | rfl | rfl | rfl | rfl <;>
      simp only [A.ringPi_spares, A.ringCi_spares, A.ringCplPi_spares, A.ringHostCi_spares, A.ringStopIndex_spares]
  simp only [resetRing, hregs, State.setFld_kept, State.setRing_kept, State.mapScene_kept, setStaging_kept, State.kept_ite, ite_self,
    F.ringStatCause_spares, F.ringStatState_spares]

theorem startRing_kept (s : State) (n : Nat) : (startRing s n).kept = s.kept := by
  simp only [startRing, State.setFld_kept, State.setRing_kept, runRing_kept, State.kept_ite, ite_self,
    F.ringStatState_spares, F.ringCtlRun_spares]

theorem stopRing_kept (s : State) (n : Nat) : (stopRing s n).kept = s.kept := by
  simp only [stopRing, State.setFld_kept, State.setRing_kept, runRing_kept, State.kept_ite, ite_self, F.ringCtlRun_spares]

theorem resumeRing_kept (s : State) (n : Nat) : (resumeRing s n).kept = s.kept := by
  simp only [resumeRing, State.setFld_kept, State.setReg_kept, State.setRing_kept, runRing_kept, State.kept_ite, ite_self,
    F.ringCtlRun_spares, F.ringStatState_spares, F.ringStatCause_spares, A.ringCi_spares]

theorem writeRingCtl_kept (s : State) (n : Nat) (w : Word) : (writeRingCtl s n w).kept = s.kept := by
  simp only [writeRingCtl, resetRing_kept, resumeRing_kept, startRing_kept, stopRing_kept, State.kept_ite, ite_self]

theorem A.ringPrecWr_spares {p : Nat} (h : p < 1024) : sparesAddr (A.ringPrecWr p) := by
  simp only [sparesAddr, A.ringPrecWr]
  omega

theorem enablePrec_kept (s : State) {p : Nat} (h : p < 1024) (w : Word) : (enablePrec s p w).kept = s.kept := by
  have hcfg : ((s.setFld (F.ringPrecCfgSize p) ((F.ringPrecCfgSize p).of w)).setFld (F.ringPrecCfgEn p)
      ((F.ringPrecCfgEn p).of w)).kept = s.kept :=
    (State.setFld_kept _ _ (F.ringPrecCfgEn_spares p)).trans (s.setFld_kept _ (F.ringPrecCfgSize_spares p))
  refine (settle_kept _).trans ?_
  split
  · exact (State.kept_precSize _ _).trans
      ((State.setReg_kept _ _ (A.ringPrecHostCi_spares p)).trans ((State.setReg_kept _ _ (A.ringPrecWr_spares h)).trans hcfg))
  · exact hcfg

/-! ### Words strobed -/

theorem winStatus_kept (s : State) (w v : Nat) : (winStatus s w v).kept = s.kept := by
  simp only [winStatus, State.setFld_kept, F.chkWinStatStatus_spares]

theorem activeMerge_of_noShadow {s : State} {a : Nat} (h : srwMask a = 0) (w : Word) : activeMerge s a w = s.reg a := by
  rw [activeMerge, h]
  exact (congrArg _ BitVec.and_zero).trans (BitVec.or_zero.trans BitVec.and_allOnes)

/-- BARN.RAW_CTL and BARN.BANK have no shadow copy. -/
theorem applyWords_kept (s : State) (ws : SMap Word) : (applyWords s ws).kept = s.kept := by
  refine State.each_kept _ _ _ fun s e => State.setReg_kept_bits s (fun ha => ?_) fun ha => ?_
  · rw [activeMerge_of_noShadow (by rw [ha]; decide)]
    exact ⟨rfl, rfl⟩
  · rw [activeMerge_of_noShadow (by rw [ha]; decide)]

theorem groupChanged_kept (old s : State) (g : Nat) : (groupChanged old s g).kept = s.kept := by
  simp only [groupChanged, setGroupState_kept, State.setGroup_kept, bringUp_kept, waitLink_kept, startGroup_kept, recheckLink_kept,
    State.kept_ite, ite_self]

theorem camChanged_kept (old s : State) (c : Nat) : (camChanged old s c).kept = s.kept := by
  simp only [camChanged, camClose_kept, State.setCam_kept, State.setFld_kept, State.kept_ite, ite_self, F.laneCamCfgStore_spares]

theorem laneChanged_kept (old s : State) (l : List Nat) : (laneChanged old s l).kept = s.kept := by
  simp only [laneChanged, groupChanged_kept, camChanged_kept, State.each_kept, implies_true, State.kept_ite, ite_self]

theorem F.pipePllStatLocked_spares {n : Nat} (h : n < 16) : (F.pipePllStatLocked n).spares := by
  simp only [Fld.spares, F.pipePllStatLocked, A.pipePllStat]
  omega

theorem pllsChanged_kept (old s : State) : (pllsChanged old s).kept = s.kept := by
  refine State.each_kept_mem _ _ _ fun s n hn => ?_
  have hspares := F.pipePllStatLocked_spares (n := n) (by simp only [ports4, List.mem_cons, List.not_mem_nil, or_false] at hn; omega)
  simp only [State.setFld_kept, State.setPipe_kept, State.each_kept, implies_true, State.kept_ite, ite_self, hspares]

theorem startPipe_kept (s : State) (p : Nat) : (startPipe s p).kept = s.kept := by
  simp only [startPipe, State.setPipe_kept, blackLine_kept, forceHold_kept, recheckLink_kept, State.kept_fault,
    State.kept_ite, ite_self]

theorem listsChanged_kept (s : State) (ms : List Nat) : (listsChanged s ms).kept = s.kept :=
  State.each_kept _ _ _ fun _ _ => armGate_kept ..

theorem applyPend_kept (s : State) (x : PendPart) : (applyPend s x).kept = s.kept := by
  simp only [applyPend, applyWords_kept, laneChanged_kept, listsChanged_kept, pllsChanged_kept, State.kept_gcl, State.kept_ite,
    ite_self]

theorem fallbackProof_kept (s : State) : (fallbackProof s).kept = s.kept := by
  simp only [fallbackProof, State.setPipe_kept, raise_kept, State.each_kept, implies_true]

theorem distribute_kept (s : State) (blocks : BitVec 16) (words gcl : SMap Word) : (distribute s blocks words gcl).kept = s.kept := by
  have hregs (v) : (State.kept { s with regs := { s.regs with pend := v } }) = s.kept := s.kept_regs rfl
  simp only [distribute, fallbackProof_kept, startPipe_kept, pllsChanged_kept, evtStrobed_kept, laneChanged_kept, applyPend_kept,
    dropCamLines_kept, shaperChange_kept, applyWords_kept, hregs, State.each_kept, implies_true, State.kept_ite, ite_self]

theorem refuseStrobe_kept (s : State) (reason mask : Nat) : (refuseStrobe s reason mask).kept = s.kept := by
  simp only [refuseStrobe, State.setFld_kept, raise_kept, F.sysStrobeStatReason_spares, F.sysStrobeStatRefused_spares]

theorem replaceWaiting_kept (s : State) (blocks : BitVec 16) : (replaceWaiting s blocks).kept = s.kept :=
  State.kept_of_hide (replaceWaiting_hide rfl ..)

theorem strobe_kept (s : State) (w : Word) : (strobe s w).kept = s.kept := by
  simp only [strobe]
  split
  · rfl
  · split
    · exact submit_kept ..
    · split
      · exact refuseStrobe_kept ..
      · simp only [settle_kept, distribute_kept, replaceWaiting_kept]

end Sys2Proof.Machine
end

section
/-! PROOFS. The barn, the host's loss, the fault unit and the counters keep what a start sequence has reached (`State.kept`). -/

namespace Sys2Proof.Machine

/-! ### The barn -/

theorem State.mapBarn_kept (s : State) (f : BarnState → BarnState) : (s.mapBarn f).kept = s.kept :=
  State.kept_of_hide (State.mapBarn_hide rfl ..)

theorem flogEntry_kept (s : State) (kind unit cause fails : Nat) : (flogEntry s kind unit cause fails).kept = s.kept := by
  simp only [flogEntry, State.setFld_kept, State.kept_barn, F.barnFlogSeqLseq_spares]

theorem checkWorn_kept (s : State) : (checkWorn s).kept = s.kept := by
  simp only [checkWorn, State.mapBarn_kept, raise_kept, State.kept_ite, ite_self]

theorem retireSector_kept (s : State) (j : Nat) : (retireSector s j).kept = s.kept := by
  simp only [retireSector, State.mapBarn_kept, checkWorn_kept, flogEntry_kept, raise_kept]

theorem compactSector_kept (s : State) (j : Nat) : (compactSector s j).kept = s.kept := by
  simp only [compactSector, State.addFld_kept, State.mapBarn_kept, retireSector_kept, State.kept_ite, ite_self,
    F.barnCompactionsCount_spares]

theorem goOn_kept (s : State) : (goOn s).kept = s.kept := by
  simp only [goOn, compactSector_kept, State.each_kept, implies_true, State.kept_ite, ite_self]

theorem journalGo_kept (s : State) : (journalGo s).kept = s.kept := by
  simp only [journalGo, State.mapBarn_kept, State.setFld_kept, raise_kept, State.kept_ite, ite_self, F.barnJwCtlBusy_spares,
    F.barnJwCtlStatus_spares]

theorem journalRead_kept (s : State) : (journalRead s).kept = s.kept := by
  simp only [journalRead, State.mapBarn_kept, State.setFld_kept, State.kept_ite, ite_self, F.barnJrCtlBusy_spares]

theorem startProgram_kept (s : State) (page : Nat) (words : SMap Word) : (startProgram s page words).kept = s.kept := by
  simp only [startProgram, State.mapBarn_kept, State.setFld_kept, F.barnRawCtlBusy_spares]

theorem rawFlush_kept (s : State) : (rawFlush s).kept = s.kept := by
  unfold rawFlush
  split
  · rfl
  · split <;> exact startProgram_kept ..

theorem rawErase_kept (s : State) (path : Path) : (rawErase s path).kept = s.kept := by
  simp only [rawErase, State.mapBarn_kept, State.setFld_kept, State.kept_ite, ite_self, F.barnRawCtlBusy_spares,
    F.barnRawCtlErr_spares]

theorem pageWrite_kept (s : State) (k : Nat) (w : Word) : (pageWrite s k w).kept = s.kept := by
  simp only [pageWrite, State.mapBarn_kept, startProgram_kept, State.kept_ite, ite_self]

theorem barnWrite_kept (s : State) (table k : Nat) (w : Word) : (barnWrite s table k w).kept = s.kept := by
  simp only [barnWrite, State.mapBarn_kept, pageWrite_kept, State.kept_ite, ite_self]

theorem closeOpen_kept (top : Option Nat) (s : State) (j : Nat) : (closeOpen top s j).kept = s.kept := by
  simp only [closeOpen, State.mapBarn_kept, raise_kept, State.kept_ite, ite_self]

theorem readFlog_kept (s : State) : (readFlog s).kept = s.kept := by
  simp only [readFlog, State.mapBarn_kept, State.setFld_kept, F.barnFlogSeqLseq_spares]

theorem startBarn_kept (s : State) : (startBarn s).kept = s.kept := by
  simp only [startBarn, State.mapBarn_kept, closeOpen_kept, readFlog_kept, State.each_kept, implies_true]

theorem resumeBarn_kept (s : State) : (resumeBarn s).kept = s.kept := by
  simp only [resumeBarn, State.mapBarn_kept, goOn_kept]

/-! ### The loss of the host -/

/-- No session is open, and none is being opened. -/
def State.noSession (s : State) : Prop := s.hw.cur = none ∧ s.hw.opening = none

theorem State.noSession_of_kept {s t : State} (h : t.kept = s.kept) (hs : s.noSession) : t.noSession :=
  ⟨(State.cur_of_kept h).trans hs.1, (congrArg (fun x => x.2.1.2) h).trans hs.2⟩

theorem hostLost_kept {s : State} (h : s.noSession) : (hostLost s).kept = s.kept := by
  have hlost : ((s.setFld F.ringLinkStatHostLost 1).setFld F.ringSessionState 3).kept = s.kept :=
    (State.setFld_kept _ _ F.ringSessionState_spares).trans (s.setFld_kept _ F.ringLinkStatHostLost_spares)
  obtain ⟨hcur, hopening⟩ := State.noSession_of_kept hlost h
  simp only [hostLost, wakeAll_kept, requestFallback_kept, flogEntry_kept, raise_kept, discardScenes_kept, haltRing_kept,
    dropDma_kept, noteHeld_kept, refreshTelltales_kept, State.each_kept, implies_true, State.kept_ite, ite_self]
  exact (State.kept_hw _ hcur.symm hopening.symm).trans hlost

theorem loseHost_kept {s : State} (h : s.noSession) : (loseHost s).kept = s.kept := by
  simp only [loseHost, hostLost_kept h, State.kept_ite, ite_self]

theorem State.mapFault_kept (s : State) (f : FaultState → FaultState) : (s.mapFault f).kept = s.kept :=
  State.kept_of_hide (State.mapFault_hide rfl ..)

theorem pushRecord_kept (s : State) (u kind cause fails : Nat) : (pushRecord s u kind cause fails).kept = s.kept := by
  simp only [pushRecord, State.mapFault_kept, State.setFld_kept, F.faultLastKind_spares,
    F.faultLastFails_spares, F.faultLastCause_spares, F.faultLastUnit_spares]

theorem writtenIfOff_kept (s : State) : (writtenIfOff s).kept = s.kept := by
  simp only [writtenIfOff, State.mapFault_kept, noteHeld_kept, State.kept_ite, ite_self]

theorem consumeRecords_kept (s : State) (w : Word) : (consumeRecords s w).kept = s.kept := by
  simp only [consumeRecords, State.setReg_kept, noteHeld_kept, State.kept_ite, ite_self, A.faultRrecHostCi_spares]

theorem enableRecords_kept (s : State) (w : Word) : (enableRecords s w).kept = s.kept := by
  simp only [enableRecords, State.mapFault_kept, State.setFld_kept, State.setReg_kept, noteHeld_kept, settle_kept,
    writtenIfOff_kept, State.kept_ite, ite_self, F.faultRrecCfgEn_spares, F.faultRrecCfgSize_spares, A.faultRrecWr_spares,
    A.faultRrecHostCi_spares]

theorem journalMap_kept (s : State) : (journalMap s).kept = s.kept :=
  State.kept_of_hide (journalMap_hide rfl ..)

theorem checkLanes_kept (s : State) : (checkLanes s).kept = s.kept := by
  simp only [checkLanes, State.mapFault_kept, State.setPipe_kept, forceHold_kept, raise_kept, State.each_kept,
    implies_true, State.kept_ite, ite_self]

theorem retestWrite_kept (s : State) (w : Word) : (retestWrite s w).kept = s.kept := by
  simp only [retestWrite, State.mapFault_kept, State.setFld_kept, State.setUnit_kept, State.kept_ite, ite_self,
    F.faultRetestUnit_spares, F.faultRetestStatResult_spares, F.faultRetestStatUnit_spares, F.faultRetestStatBusy_spares]

/-! ### Slots and counters -/

theorem beginSlot_kept (s : State) (l : Nat) : (beginSlot s l).kept = s.kept :=
  State.kept_of_hide (beginSlot_hide rfl ..)

theorem clearCounters_kept (s : State) : (clearCounters s).kept = s.kept :=
  State.kept_of_hide (clearCounters_hide rfl ..)

theorem readWinCfg_kept (s : State) : (readWinCfg s).kept = s.kept :=
  State.kept_of_hide (readWinCfg_hide rfl ..)

theorem beginWindow_kept (s : State) : (beginWindow s).kept = s.kept :=
  State.kept_of_hide (beginWindow_hide rfl ..)

theorem takeSnapshot_kept (s : State) (start : Nat) (part : Bool) : (takeSnapshot s start part).kept = s.kept := by
  have hns (t : State) (v : Nat) : (t.setReg64 A.perfWinNsLo v).kept = t.kept :=
    t.setReg64_kept v (by unfold sparesAddr; decide) (by unfold sparesAddr; decide)
  have htime (t : State) (v : Nat) : (t.setReg64 A.perfSnapTimeLo v).kept = t.kept :=
    t.setReg64_kept v (by unfold sparesAddr; decide) (by unfold sparesAddr; decide)
  simp only [takeSnapshot, raise_kept, State.setFld_kept, State.setReg_kept, hns, htime, State.kept_perf,
    F.perfSnapStatSeq_spares, F.perfSnapStatReady_spares, F.perfSnapStatPartial_spares, A.perfSnapFrame_spares]

theorem endWindow_kept (s : State) (part : Bool) : (endWindow s part).kept = s.kept := by
  unfold endWindow
  split
  · rfl
  · simp only [readWinCfg_kept, State.kept_perf, raise_kept, State.addFld_kept, beginWindow_kept, clearCounters_kept,
      takeSnapshot_kept, State.kept_ite, ite_self, F.perfMergedCount_spares]

theorem haltWindows_kept (s : State) : (haltWindows s).kept = s.kept := by
  simp only [haltWindows, State.setFld_kept, State.kept_perf, F.perfCtlRun_spares]

theorem startWindows_kept (s : State) : (startWindows s).kept = s.kept := by
  simp only [startWindows, State.setFld_kept, beginWindow_kept, clearCounters_kept, readWinCfg_kept, State.kept_perf,
    State.kept_ite, ite_self, F.perfCtlRun_spares, F.perfSnapStatErr_spares]

theorem stopWindows_kept (s : State) : (stopWindows s).kept = s.kept := by
  simp only [stopWindows, endWindow_kept, haltWindows_kept, State.kept_ite, ite_self]

end Sys2Proof.Machine
end

section
/-! PROOFS. A register write and the steps of the start sequence keep what it has reached (`State.kept`); a write ends no session
where there is none. -/

namespace Sys2Proof.Machine

/-! ### Table words -/

theorem setBank_kept (s : State) (path : Path) (k : Nat) (b : IndexBank) : (setBank s path k b).kept = s.kept := by
  simp only [setBank, State.kept_regs]

theorem putTableWord_kept (k table : Nat) (s : State) (w : Nat) (v : Word) : (putTableWord k table s w v).kept = s.kept := by
  unfold putTableWord
  split
  · exact (State.mapScene_kept ..).trans (putCtxWords_kept ..)
  · exact (State.mapScene_kept ..).trans (State.kept_loft ..)
  · exact State.mapScene_kept ..
  · exact State.mapScene_kept ..
  · exact s.kept_regs rfl
  · exact barnWrite_kept ..
  · rfl

theorem writeData_kept (s : State) (path : Path) (k : Nat) (v : Word) : (writeData s path k v).1.kept = s.kept := by
  simp only [writeData, putTableWord_kept, setBank_kept, State.each_kept, implies_true, State.kept_ite, ite_self, apply_ite Prod.fst]

theorem writeIndex_kept (s : State) (path : Path) (k : Nat) (v m : Word) : (writeIndex s path k v m).kept = s.kept := by
  simp only [writeIndex, setBank_kept]

theorem closeSession_kept {s : State} (h : s.noSession) : (closeSession s).kept = s.kept := by
  rw [closeSession, sessionOpen, h.1]
  rfl

theorem wrote_kept (s : State) : (wrote s).s.kept = s.kept :=
  State.kept_of_hide (wrote_hide rfl ..)

/-! ### The rows of the register map -/

/-- A register is numbered below 1,024 within its row. -/
theorem RegRow.instanceAt_lt {r : RegRow} {a i : Nat} (h : r.instanceAt a = some i) (hcount : r.count ≤ 1024) : i < 1024 := by
  simp only [RegRow.instanceAt] at h
  grind

theorem findIn_mem {l : List RegRow} {a : Nat} {r : RegRow} {i : Nat} (h : findIn l a = some (r, i)) :
    r ∈ l ∧ r.instanceAt a = some i := by
  induction l with
  | nil => cases h
  | cons x l ih =>
    unfold findIn at h
    split at h
    · next hx =>
      cases h
      exact ⟨List.mem_cons_self, hx⟩
    · exact ⟨List.mem_cons_of_mem _ (ih h).1, (ih h).2⟩

theorem count_le_of_mem_blockRows {b : Nat} {r : RegRow} (h : r ∈ blockRows b) : r.count ≤ 1024 := by
  unfold blockRows at h
  revert r
  split <;> decide

theorem findReg_lt {a : Nat} {r : RegRow} {i : Nat} (h : findReg a = some (r, i)) : i < 1024 := by
  rw [findReg] at h
  split at h
  · obtain ⟨hmem, hat⟩ := findIn_mem h
    exact RegRow.instanceAt_lt hat (count_le_of_mem_blockRows hmem)
  · cases h

/-- A bit that no mask of the write reaches stays as it was. -/
theorem getLsbD_stored {w v m rw w1c w1s lock : Word} {n : Nat} (hn : n < 32) (hrw : rw.getLsbD n = false)
    (hw1c : w1c.getLsbD n = false) (hlock : lock.getLsbD n = false) :
    ((mergeBits w v (m &&& rw) &&& ~~~(v &&& m &&& w1c)) ||| (v &&& m &&& w1s &&& lock)).getLsbD n = w.getLsbD n := by
  simp only [mergeBits, BitVec.getLsbD_or, BitVec.getLsbD_and, BitVec.getLsbD_not, hrw, hw1c, hlock, hn]
  simp

theorem clampWord_barn {a i : Nat} (ha : a = 0xE0008 ∨ a = 0xE000C) (hi : i < 1024) (w : Word) : clampWord a i w = w := by
  have hcan : a ≠ A.lightCanCtl i := by unfold A.lightCanCtl; omega
  have hlamp : a ≠ A.lightTtCh i := by unfold A.lightTtCh; omega
  have hdma : a ≠ A.dmaChCfg i := by unfold A.dmaChCfg; omega
  have hperiod : a ≠ A.dmaTchPeriod i := by unfold A.dmaTchPeriod; omega
  rcases ha with rfl | rfl <;>
    rw [clampWord, if_neg (by decide), if_neg (by decide), if_neg (by decide), if_neg (by decide), if_neg hcan, if_neg hlamp,
      if_neg hdma, if_neg hperiod]

/-- A bit of a row that a plain write does not reach. -/
def RegRow.sparesBit (r : RegRow) (n : Nat) : Bool := !(r.rw ||| r.lkw).getLsbD n && !r.w1c.getLsbD n

/-- What every row of an address has, from the row that the map finds there. -/
theorem row_of_findReg {a j : Nat} {r : RegRow} (p : RegRow → Bool) (h : (findReg a).all (fun x => p x.1) = true)
    (hr : findReg a = some (r, j)) : p r = true := by
  rwa [hr] at h

/-! ### A write of a register -/

theorem storeBits_kept (s : State) {r : RegRow} {i j a : Nat} (hr : findReg a = some (r, j)) (hi : i < 1024) (v m : Word) :
    (storeBits s r i a v m).kept = s.kept := by
  have hbit (n : Nat) (hn : n < 32) (ha : a = 0xE0008 ∨ a = 0xE000C) (h : r.sparesBit n = true) :
      (clampWord a i ((mergeBits (s.reg a) v (m &&& (r.rw ||| r.lkw)) &&& ~~~(v &&& m &&& r.w1c)) |||
        (v &&& m &&& r.w1s &&& lockBits a))).getLsbD n = (s.reg a).getLsbD n := by
    simp only [RegRow.sparesBit, Bool.and_eq_true, Bool.not_eq_true'] at h
    have hlock : lockBits a = 0 := by rcases ha with rfl | rfl <;> rfl
    rw [clampWord_barn ha hi, getLsbD_stored hn h.1 h.2 (by rw [hlock]; exact BitVec.getLsbD_zero)]
  have hlive : (s.setReg a (clampWord a i ((mergeBits (s.reg a) v (m &&& (r.rw ||| r.lkw)) &&& ~~~(v &&& m &&& r.w1c)) |||
      (v &&& m &&& r.w1s &&& lockBits a)))).kept = s.kept := by
    refine State.setReg_kept_bits s (fun ha => ?_) fun ha => ?_
    · have hrow := row_of_findReg (fun r => r.sparesBit 31 && r.sparesBit 28) (by rw [ha]; decide) hr
      rw [Bool.and_eq_true] at hrow
      exact ⟨hbit 31 (by decide) (.inl ha) hrow.1, hbit 28 (by decide) (.inl ha) hrow.2⟩
    · rw [bits_bit, bits_bit, hbit 0 (by decide) (.inr ha) (row_of_findReg (·.sparesBit 0) (by rw [ha]; decide) hr)]
  simp only [storeBits, State.setShadow_kept, hlive, State.kept_ite, ite_self]

theorem holdLo_kept (s : State) (r : RegRow) (a : Nat) (v m : Word) : (holdLo s r a v m).kept = s.kept := by
  simp only [holdLo, State.kept_regs]

theorem takeHi_kept (s : State) {r : RegRow} {i a : Nat} (hr : findReg a = some (r, i)) (v m : Word) :
    (takeHi s r i a v m).kept = s.kept := by
  have hi := findReg_lt hr
  unfold takeHi
  simp only []
  split
  · next hlo _ => exact (storeBits_kept _ hr hi ..).trans ((State.kept_regs _ rfl).trans (storeBits_kept _ hlo hi ..))
  · exact (storeBits_kept _ hr hi ..).trans (State.kept_regs _ rfl)

theorem refuse_kept (s : State) (path : Path) (at_ status : Nat) : (refuse s path at_ status).s.kept = s.kept := by
  simp only [refuse, lockedWrite_kept]

theorem wakeAsked_kept (s : State) (l : Link) : (wakeAsked s l).kept = s.kept := by
  simp only [wakeAsked, wakeLink_kept, State.kept_ite, ite_self]

theorem takeProfile_kept (s : State) : (takeProfile s).kept = s.kept := by
  simp only [takeProfile, State.setFld_kept, F.sysProfileActive_spares]

theorem senseConfig_kept (s : State) (i : Nat) : (senseConfig s i).kept = s.kept := by
  simp only [senseConfig, setCond_kept]

theorem windowConfig_kept (s : State) (w : Nat) : (windowConfig s w).kept = s.kept := by
  simp only [windowConfig, State.setWindow_kept, winStatus_kept, State.kept_ite, ite_self]

theorem sparesAddr_of_isCounter {a i : Nat} {r : RegRow} (hr : findReg a = some (r, i)) (h : isCounter r = true) : sparesAddr a := by
  refine ⟨fun ha => ?_, fun ha => ?_⟩ <;>
  · have hrow := row_of_findReg (fun r => !isCounter r) (by rw [ha]; decide) hr
    simp [h] at hrow

theorem ite_kept {c : Prop} [Decidable c] {s a b : State} (ha : a.kept = s.kept) (hb : b.kept = s.kept) :
    (if c then a else b).kept = s.kept := by
  split
  · exact ha
  · exact hb

theorem trigger_kept {s : State} (h : s.noSession) (path : Path) (a i : Nat) (t : Word) : (trigger s path a i t).kept = s.kept := by
  have hsleep : (if t.getLsbD 8 then wakeAsked s .a else s).kept = s.kept := ite_kept (wakeAsked_kept ..) rfl
  have hscan : (if t.getLsbD 30 then scanStop s i else s).kept = s.kept := ite_kept (scanStop_kept ..) rfl
  have hperf : (if t.getLsbD 1 then stopWindows s else s).kept = s.kept := ite_kept (stopWindows_kept ..) rfl
  exact ite_kept (ite_kept rfl (strobe_kept ..)) <|
    ite_kept (ite_kept ((settle_kept _).trans (closeSession_kept h)) rfl) <|
    ite_kept (ite_kept ((wakeAsked_kept ..).trans hsleep) hsleep) <|
    ite_kept (ite_kept ((settle_kept _).trans ((State.each_kept _ _ _ startDma_kept).trans (restartEngine_kept s))) rfl) <|
    ite_kept (ite_kept ((scanGo_kept ..).trans hscan) hscan) <|
    ite_kept (ite_kept (packetGo_kept ..) rfl) <|
    ite_kept (ite_kept rfl (ite_kept (rawFlush_kept s) (ite_kept (rawErase_kept ..) rfl))) <|
    ite_kept (ite_kept (journalGo_kept s) rfl) <|
    ite_kept (ite_kept (journalRead_kept s) rfl) <|
    ite_kept (ite_kept ((startWindows_kept _).trans hperf) hperf) rfl

theorem followUp_kept (s : State) (a i : Nat) : (followUp s a i).kept = s.kept := by
  simp only [followUp, refreshTelltales_kept, senseConfig_kept, takeProfile_kept, windowConfig_kept, State.kept_ite, ite_self]

theorem writeView_kept (s : State) (path : Path) (v m : Word) : (writeView s path v m).kept = s.kept := by
  simp only [writeView, State.kept_regs, State.kept_ite, ite_self]

theorem writeResetCtl_kept (s : State) {r : RegRow} {i : Nat} (hr : findReg A.sysResetCtl = some (r, i)) (path : Path) (at_ : Nat)
    (v m : Word) : (writeResetCtl s r path at_ v m).s.kept = s.kept := by
  simp only [writeResetCtl, apply_ite Written.s, wrote_kept, storeBits_kept s hr (by decide : 0 < 1024), refuse_kept, State.kept_ite,
    ite_self]

/-- What an own rule of a register gives, if there is one. -/
theorem ite_some_kept {c : Prop} [Decidable c] {s t a : State} {b : Option State} (ha : a.kept = s.kept)
    (hb : b = some t → t.kept = s.kept) (h : (if c then some a else b) = some t) : t.kept = s.kept := by
  split at h
  · rw [← Option.some.inj h, ha]
  · exact hb h

theorem ownWrite_kept {s t : State} {a i : Nat} {v m : Word} (hi : i < 1024) (h : ownWrite s a i v m = some t) : t.kept = s.kept := by
  have hqmask : (if m.getLsbD 1 then writeQmask s i (v.getLsbD 1) else s).kept = s.kept := ite_kept (writeQmask_kept ..) rfl
  have hspi : (if (v &&& m).getLsbD 29 then clearSpi s i else s).kept = s.kept := ite_kept (clearSpi_kept ..) rfl
  unfold ownWrite at h
  refine ite_some_kept (writeRingCtl_kept ..) (fun h => ?_) h
  refine ite_some_kept (enablePrec_kept s hi _) (fun h => ?_) h
  refine ite_some_kept (retestWrite_kept ..) (fun h => ?_) h
  refine ite_some_kept (enableRecords_kept ..) (fun h => ?_) h
  refine ite_some_kept (consumeRecords_kept ..) (fun h => ?_) h
  refine ite_some_kept (packetPush_kept ..) (fun h => ?_) h
  refine ite_some_kept (ite_kept (forceSw_kept ..) rfl) (fun h => ?_) h
  refine ite_some_kept (ite_kept hqmask (ite_kept ((sleepQueue_kept ..).trans hqmask) ((awakeQueue_kept ..).trans hqmask)))
    (fun h => ?_) h
  exact ite_some_kept (b := none) (ite_kept ((completeSource_kept ..).trans hspi) hspi) (fun h => nomatch h) h

theorem causeField_spares {a i b : Nat} {f : Fld} (h : causeField a i = some (b, f)) : f.spares := by
  simp only [causeField] at h
  split_ifs at h <;> cases h <;>
    simp only [F.layerSlotStatCause_spares, F.objPipeStatCause_spares, F.pipeStatCause_spares, F.laneStatCause_spares]

theorem writePlain_kept {s : State} (h : s.noSession) (path : Path) {r : RegRow} {i a : Nat} (hr : findReg a = some (r, i))
    (v m : Word) : (writePlain s path r i a v m).kept = s.kept := by
  have hi := findReg_lt hr
  unfold writePlain
  split
  · exact writeView_kept ..
  · split
    · exact holdLo_kept ..
    · split
      · exact takeHi_kept s hr v m
      · split
        · next hcounter => simp only [State.setReg_kept, sparesAddr_of_isCounter hr hcounter, State.kept_ite, ite_self]
        · split
          · next hown => exact ownWrite_kept hi hown
          · next hf => simp only [State.setFld_kept, causeField_spares hf, State.kept_ite, ite_self]
          · refine Eq.trans (trigger_kept (State.noSession_of_kept ?_ h) ..) ?_ <;>
              simp only [followUp_kept, storeBits_kept _ hr hi, maskSource_kept, State.kept_ite, ite_self]

theorem writeKey_kept (s : State) (path : Path) (at_ a : Nat) (v m : Word) : (writeKey s path at_ a v m).s.kept = s.kept := by
  simp only [writeKey, refuse_kept, wrote_kept, State.kept_regs, State.kept_ite, ite_self, apply_ite Written.s]

theorem writeAt_kept {s : State} (h : s.noSession) (path : Path) (at_ a : Nat) (v m : Word) :
    (writeAt s path at_ a v m).s.kept = s.kept := by
  unfold writeAt
  split
  · exact unmapped_kept s
  · next r i hr =>
    split
    · exact refuse_kept ..
    · split
      · exact writeKey_kept ..
      · split
        · exact refuse_kept ..
        · split
          · next ha =>
            rw [ha] at hr
            exact writeResetCtl_kept s hr ..
          · split
            · exact (wrote_kept _).trans (writeIndex_kept ..)
            · exact writeData_kept ..
            · exact (wrote_kept _).trans (writePlain_kept h path hr v m)

theorem failBank_kept (s : State) (path : Path) (k : Nat) : (failBank s path k).kept = s.kept := by
  simp only [failBank, setBank_kept]

theorem aliasWrite_kept {s : State} (h : s.noSession) (path : Path) (a : Nat) (v : Word) :
    (aliasWrite s path a v).s.kept = s.kept := by
  unfold aliasWrite
  split
  · exact failBank_kept ..
  · exact writeAt_kept h ..

theorem accessWrite_kept {s : State} (h : s.noSession) (path : Path) (addr v : Word) :
    (accessWrite s path addr v).s.kept = s.kept := by
  simp only [accessWrite, apply_ite Written.s, aliasWrite_kept h, writeAt_kept h, unmapped_kept, State.kept_ite, ite_self]

/-! ### The boot image -/

theorem showFrontEnd_kept (s : State) (locked : Bool) : (showFrontEnd s locked).kept = s.kept := by
  simp only [showFrontEnd, State.setFld_kept, F.sysPodlStatClass_spares, F.sysPodlStatNoclass_spares, F.sysPodlStatLock_spares]

theorem showPower_kept (s : State) (reserve cls : Nat) : (showPower s reserve cls).kept = s.kept := by
  simp only [showPower, State.setFld_kept, takeProfile_kept, F.sysPodlStatPAv_spares,
    F.sysPodlStatBoardReserve_spares, F.sysProfileClassProfile_spares]

theorem bootApply_kept (s : State) (blocks : BitVec 16) (words gcl : SMap Word) : (bootApply s blocks words gcl).kept = s.kept := by
  simp only [bootApply, applyPend_kept, applyWords_kept, evtStrobed_kept, laneChanged_kept, pllsChanged_kept,
    shaperChange_kept, State.each_kept, implies_true, State.kept_ite, ite_self]

theorem bootStrobe_kept (s : State) (w : Word) : (bootStrobe s w).kept = s.kept := by
  simp only [bootStrobe]
  split
  · exact refuseStrobe_kept ..
  · exact bootApply_kept ..

theorem bootWrite_kept {x : State × Bool} (h : x.1.noSession) (e : Word × Word) : (bootWrite x e).1.kept = x.1.kept := by
  simp only [bootWrite, apply_ite Prod.fst, accessWrite_kept h, bootStrobe_kept, State.kept_ite, ite_self]

theorem bootWrites_kept {x : State × Bool} (h : x.1.noSession) (l : List (Word × Word)) : (bootWrites x l).1.kept = x.1.kept := by
  induction l generalizing x with
  | nil => rfl
  | cons e l ih => exact (ih (State.noSession_of_kept (bootWrite_kept h e) h)).trans (bootWrite_kept h e)

theorem imageFields_kept (s : State) (img : Config.BootImage) : (imageFields s img).kept = s.kept := by
  simp only [imageFields, State.setFld_kept, State.setReg_kept, State.kept_pow, F.objLoftFloorFloor_spares,
    F.lightFbCtxBase_spares, F.lightFbCtxCount_spares, F.sysProfileSel_spares, A.sysBootVer_spares]

theorem loadImage_kept {s : State} (h : s.noSession) (img : Config.BootImage) : (loadImage s img).1.kept = s.kept := by
  have hfields : (takeProfile (imageFields s img)).kept = s.kept := (takeProfile_kept _).trans (imageFields_kept ..)
  simp only [loadImage, showFrontEnd_kept, State.setFld_kept, F.sysProfileLock_spares]
  exact (bootWrites_kept (State.noSession_of_kept hfields h) _).trans hfields

theorem leaveOut_kept (s : State) (u cause : Nat) : (leaveOut s u cause).kept = s.kept := by
  simp only [leaveOut, State.loseMemory_kept, State.setFld_kept, State.setUnit_kept, setGroupState_kept, State.kept_ite,
    ite_self, F.ringLinkStatARetired_spares, F.ringLinkStatBRetired_spares]

/-! ### Training and tests -/

theorem retireFromMap_kept (s : State) : (retireFromMap s).kept = s.kept := by
  simp only [retireFromMap, leaveOut_kept, State.each_kept, implies_true, State.kept_ite, ite_self]

theorem loseHostIf_kept {c : Prop} [Decidable c] {s t : State} (hs : s.noSession) (h : t.kept = s.kept) :
    (if c then loseHost t else t).kept = s.kept := by
  simp only [loseHost_kept (State.noSession_of_kept h hs), h, State.kept_ite, ite_self]

theorem startFails_kept {s : State} (h : s.noSession) (u cause : Nat) (counted : Bool) :
    (startFails s u cause counted).kept = s.kept := by
  simp only [startFails]
  split
  · rfl
  · refine (journalMap_kept _).trans ((State.mapBarn_kept ..).trans (loseHostIf_kept h ?_))
    simp only [flogEntry_kept, raise_kept, writtenIfOff_kept, State.addFld_kept, pushRecord_kept, leaveOut_kept, linkFault_kept,
      State.mapBarn_kept, State.kept_ite, ite_self, F.faultFailuresCount_spares, F.faultRetirementsCount_spares]

theorem startRetires_kept {s : State} (h : s.noSession) (u cause : Nat) : (startRetires s u cause).kept = s.kept := by
  have hfirst := startFails_kept h u cause true
  simp only [startRetires]
  split
  · exact (startFails_kept (State.noSession_of_kept hfirst h) ..).trans hfirst
  · exact hfirst

/-- A change for each element of a list, none of which opens a session. -/
theorem State.each_kept_noSession {α : Type} {s : State} (hs : s.noSession) (l : List α) {f : State → α → State}
    (h : ∀ s x, s.noSession → (f s x).kept = s.kept) : (s.each l f).kept = s.kept := by
  induction l generalizing s with
  | nil => rfl
  | cons x l ih => exact (ih (State.noSession_of_kept (h s x hs) hs)).trans (h s x hs)

theorem trainChannels_kept {s : State} (h : s.noSession) (bad : BitVec 4) : (trainChannels s bad).kept = s.kept :=
  State.each_kept_noSession h _ fun s m hs => by
    simp only [startRetires_kept hs, State.kept_pow, State.kept_ite, ite_self]

theorem testUnits_kept {s : State} (h : s.noSession) (rep : StartReport) : (testUnits s rep).kept = s.kept := by
  have hfirst : (s.each allUnits fun s u =>
      if lbistOf rep.first u = .fail then startRetires s u (lbistCause u) else s).kept = s.kept :=
    State.each_kept_noSession h _ fun s u hs => by simp only [startRetires_kept hs, State.kept_ite, ite_self]
  refine (State.each_kept_noSession (State.noSession_of_kept hfirst h) _ fun s u hs => ?_).trans hfirst
  split
  · rfl
  · split
    · rfl
    · exact startRetires_kept hs ..
    · exact raise_kept ..

theorem forceUntilReset_kept (s : State) : (forceUntilReset s).kept = s.kept := by
  simp only [forceUntilReset, forceSw_kept, State.kept_light]

theorem coreFails_kept (s : State) : (coreFails s).kept = s.kept := by
  simp only [coreFails, State.setFld_kept, flogEntry_kept, forceUntilReset_kept, raise_kept, F.faultStateCoreFail_spares]

/-! ### The bank, the outputs and the service -/

theorem takePart_kept (s : State) (b i : Nat) : (takePart s b i).1.kept = s.kept := by
  simp only [takePart, apply_ite Prod.fst, raise_kept, State.setFld_kept, State.kept_ite, ite_self, F.barnBankOther_spares,
    F.barnBankNone_spares]

theorem loadGrounds_kept (s : State) (scene : Option (List Byte)) (tables : Option (List Byte)) :
    (loadGrounds s scene tables).kept = s.kept :=
  State.kept_of_hide (loadGrounds_hide rfl ..)

theorem keepBootArt_kept (s : State) (loft : List Host.Cell) (before : SceneState) : (keepBootArt s loft before).kept = s.kept :=
  State.kept_of_hide (keepBootArt_hide rfl ..)

theorem loadParts_kept {s : State} (h : s.noSession) (b : Nat) (held : Bool) : (loadParts s b held).kept = s.kept := by
  have hart : State.kept (takePart { (takePart s b 1).1 with loft := memWrite [] 0 ((takePart s b 1).2.getD []) } b 2).1 = s.kept :=
    (takePart_kept ..).trans ((State.kept_loft ..).trans (takePart_kept ..))
  have hscene := fun held l => (bootWrites_kept (x := (_, held)) (State.noSession_of_kept hart h) l).trans hart
  simp only [loadParts, fallbackProof_kept, State.setFld_kept, forceUntilReset_kept, F.lightTtCfgLock_spares,
    State.kept_ite, ite_self]
  refine Eq.trans (bootWrites_kept (State.noSession_of_kept ?_ h) _) ?_ <;>
    exact (loadGrounds_kept ..).trans ((takePart_kept ..).trans ((keepBootArt_kept ..).trans (hscene ..)))

theorem startOutputs_kept (s : State) : (startOutputs s).kept = s.kept := by
  simp only [startOutputs, startPipe_kept, State.setGroup_kept, startGroup_kept, State.each_kept, implies_true, State.kept_ite,
    ite_self]

/-- Steps 7 and 8 start the module and raise VLED, and keep the rest. -/
theorem enterService_kept (s : State) : (enterService s).kept = ((s.pow.power, true, true), s.kept.2) := by
  have hfirst : (checkLanes (beginSlot s 0)).kept = s.kept := (checkLanes_kept _).trans (beginSlot_kept ..)
  simp only [enterService, wakeAll_kept, settle_kept, resumeBarn_kept, refreshTelltales_kept]
  exact congrArg (fun x => ((x.1.1, true, true), x.2)) hfirst

end Sys2Proof.Machine
end

section
/-! PROOFS. Resets and the start sequence (spec 02, R41, R48; spec 03, R79, R80; spec 16, R386, R388; logs 8, 17, 37, 41, 69). -/

namespace Sys2Proof.Machine

/-! ### What is done before the reset -/

theorem lowerWake_besideWake (s : State) : (lowerWake s).besideWake = s.besideWake := by
  unfold lowerWake
  split <;> rfl

theorem State.mapBarn_besideWake (s : State) (f : BarnState → BarnState) : (s.mapBarn f).besideWake = s.besideWake := rfl

theorem writeHand_besideWake (s : State) (j : JJob) : (writeHand s j).besideWake = s.besideWake := by
  simp only [writeHand]
  split
  · rw [raise_besideWake, State.setFld_besideWake, State.setFld_besideWake, State.setFld_besideWake, State.mapBarn_besideWake]
  · exact State.mapBarn_besideWake ..

theorem tearRecord_besideWake (s : State) : (tearRecord s).besideWake = s.besideWake := by
  unfold tearRecord
  split
  · exact State.mapBarn_besideWake ..
  · rfl

theorem State.freshen_besideWake (s : State) : s.freshen.besideWake = s.besideWake := rfl

theorem stopBarn_besideWake (s : State) (finished : Bool) : (stopBarn s finished).besideWake = s.besideWake := by
  simp only [stopBarn, State.freshen_besideWake, State.mapBarn_besideWake]
  split
  · split
    · rw [writeHand_besideWake, State.mapBarn_besideWake]
    · rw [tearRecord_besideWake, State.mapBarn_besideWake]
  · exact State.mapBarn_besideWake ..

/-- The barn's work in hand is ended, where the rails are up. -/
def State.barnStopped (s : State) : State := if s.pow.power = .up then stopBarn s true else s

/-- The state that a reset begins with: the barn stops and WAKE_OUT falls. -/
def State.beforeReset (s : State) : State := lowerWake s.barnStopped

theorem beforeReset_besideWake (s : State) : s.beforeReset.besideWake = s.besideWake := by
  refine (lowerWake_besideWake _).trans ?_
  unfold State.barnStopped
  split
  · exact stopBarn_besideWake s true
  · rfl

theorem beforeReset_touches (s : State) : TouchesOnly (Part.events ++ [.free, .barn]) s s.beforeReset := by
  refine (State.touches_of_hide _ rfl fun d => (lowerWake_hide (by decide) d _).trans ?_).1
  unfold State.barnStopped
  split
  · exact stopBarn_hide (by decide) d s true
  · rfl

theorem beforeReset_barn (s : State) : s.beforeReset.barn = s.barnStopped.barn := by
  unfold State.beforeReset lowerWake
  split <;> rfl

theorem powerAfter_of_besideWake {s t : State} (h : t.besideWake = s.besideWake) (step1 : Bool) :
    powerAfter t.pow step1 = powerAfter s.pow step1 := by
  have hpow := congrArg (powerAfter · step1) (pow_of_besideWake h)
  exact hpow

/-! ### The reset -/

/-- Every register and every unit at reset, before the pins are sampled. -/
def State.resetCore (s : State) (step1 : Bool) : State :=
  { State.reset with
    pending := s.pending, free := s.free, out := s.out, pow := powerAfter s.pow step1,
    mem := if step1 then [] else s.mem, lost := if step1 then [] else s.lost, barn := { barnReset with nor := s.barn.nor } }

/-- A pin's level and the condition of its source, as a reset finds them. -/
def samplePin (s : State) (i : Nat) (level : Bool) : State :=
  setCond (s.setFld (F.evtSnsCfgLevelNow i) level.toNat) (760 + i) level

theorem resetBase_eq (s : State) (step1 : Bool) :
    resetBase s step1 = (s.resetCore step1).each pipes8 fun t i => samplePin t i (snsLevel s i) := rfl

theorem resetBase_besideWake (s : State) (step1 : Bool) : (resetBase s step1).besideWake = (s.resetCore step1).besideWake :=
  State.each_keeps State.besideWake _ _ _ fun _ _ => setCond_besideWake ..

theorem F.evtSnsCfgLevelNow_spares {i : Nat} (h : i < 8) : (F.evtSnsCfgLevelNow i).spares := by
  simp only [Fld.spares, F.evtSnsCfgLevelNow, A.evtSnsCfg]
  omega

theorem resetBase_kept (s : State) (step1 : Bool) : (resetBase s step1).kept = (s.resetCore step1).kept :=
  State.each_kept_mem _ _ _ fun _ _ hi =>
    (setCond_kept ..).trans (State.setFld_kept _ _ (F.evtSnsCfgLevelNow_spares (List.mem_range.1 hi)))

/-- The state at step 2: everything is reset, and SYS.RESET_CAUSE shows why. -/
def State.afterReset (s : State) (step1 : Bool) (cause : Nat) : State :=
  (resetBase s.beforeReset step1).setReg A.sysResetCause (BitVec.ofNat 32 cause)

theorem afterReset_cause (s : State) (step1 : Bool) (cause : Nat) :
    (s.afterReset step1 cause).reg A.sysResetCause = BitVec.ofNat 32 cause := State.reg_setReg_self ..

theorem afterReset_touches (s : State) (step1 : Bool) (cause : Nat) :
    TouchesOnly Part.events (s.beforeReset.resetCore step1) (s.afterReset step1 cause) :=
  (State.touches_of_hide _ rfl fun d => (State.setReg_hide (by decide) d ..).trans (State.each_hide _ _ _ _ _ fun _ _ =>
    (setCond_hide (by decide) d ..).trans (State.setFld_hide (by decide) d ..))).1

theorem afterReset_kept (s : State) (step1 : Bool) (cause : Nat) :
    (s.afterReset step1 cause).kept = ((.up, false, false), (none, none), (false, false), some 0) := by
  have hreset : (State.reset.guardBits, State.reset.bankShown) = ((false, false), some 0) := by decide
  refine (State.setReg_kept _ _ A.sysResetCause_spares).trans ((resetBase_kept ..).trans ?_)
  exact congrArg (fun x => (((Power.up, false, false), (none, none), x) : _ × (Option Sess × Option Sess) × _)) hreset

/-! ### What selects the profile and the bank -/

/-- What the profile and the switch of VBUS_OUT are taken from after a reset. -/
theorem afterReset_pow (s : State) (step1 : Bool) (cause : Nat) :
    (s.afterReset step1 cause).pow.noclass = (powerAfter s.pow step1).noclass ∧
    (s.afterReset step1 cause).pow.podlWatts = (powerAfter s.pow step1).podlWatts ∧
    (s.afterReset step1 cause).pow.vbusClosed = (powerAfter s.pow step1).vbusClosed := by
  have hbase := pow_of_besideWake (resetBase_besideWake s.beforeReset step1)
  have hnoclass := congrArg PowerState.noclass hbase
  have hwatts := congrArg PowerState.podlWatts hbase
  have hclosed := congrArg PowerState.vbusClosed hbase
  rw [← powerAfter_of_besideWake (beforeReset_besideWake s) step1]
  exact ⟨hnoclass, hwatts, hclosed⟩

theorem classProfile_congr {s t : State} (hnoclass : t.pow.noclass = s.pow.noclass) (hwatts : t.pow.podlWatts = s.pow.podlWatts)
    (reserve : Nat) : classProfile t reserve = classProfile s reserve := by
  rw [classProfile, classProfile, hnoclass, hwatts]

/-- A bank is judged by the NOR's bytes alone. -/
theorem norBytes_nor {b c : BarnState} (h : c.nor = b.nor) (a n : Nat) : norBytes c a n = norBytes b a n := by
  induction n generalizing a with
  | zero => rfl
  | succ n ih => rw [norBytes, norBytes, ih, norGet, norGet, h]

theorem partBytes_nor {b c : BarnState} (h : c.nor = b.nor) (k i : Nat) : partBytes c k i = partBytes b k i := by
  simp only [partBytes, partLen, norNat, norBytes_nor h]

theorem bankValid_nor {b c : BarnState} (h : c.nor = b.nor) (k : Nat) : bankValid c k = bankValid b k := by
  simp only [bankValid, bankGen, partGood, partCrc, partLen, norNat, partBytes_nor h, norBytes_nor h]
  rfl

theorem selectBank_nor {b c : BarnState} (h : c.nor = b.nor) : selectBank c = selectBank b := by
  simp only [selectBank, bankValid_nor h, bankGen, norNat, norBytes_nor h]
  rfl

theorem selectBank_lt {b : BarnState} {k : Nat} (h : selectBank b = some k) : k < 2 := by
  unfold selectBank at h
  split at h
  · cases h
  · cases h
    decide
  · cases h
    decide
  · split at h <;> cases h <;> decide

theorem afterReset_nor (s : State) (step1 : Bool) (cause : Nat) : (s.afterReset step1 cause).barn.nor = s.barnStopped.barn.nor := by
  rw [afterReset_touches s step1 cause .barn (by decide), ← beforeReset_barn]
  rfl

theorem afterReset_bank (s : State) (step1 : Bool) (cause : Nat) : selectBank (s.afterReset step1 cause).barn = bankAfter s :=
  selectBank_nor (afterReset_nor ..)

/-- The boot image of a bank, or none. -/
def bootImageOf (b : BarnState) (bank : Option Nat) : Option Config.BootImage :=
  bank.map fun k => Config.bootImage (partBytes b k 0)

/-- BOARD_RESERVE as the boot image gives it. -/
def reserveOf (img : Option Config.BootImage) : Nat :=
  match img with
  | some i => min 40 i.boardReserve
  | none => 0

theorem afterReset_reserve (s : State) (step1 : Bool) (cause : Nat) :
    reserveOf (bootImageOf (s.afterReset step1 cause).barn (selectBank (s.afterReset step1 cause).barn)) = reserveAfter s := by
  rw [afterReset_bank, reserveAfter]
  cases bankAfter s with
  | none => rfl
  | some b => simp only [bootImageOf, Option.map, reserveOf, partBytes_nor (afterReset_nor s step1 cause)]; rfl

theorem afterReset_class (s : State) (step1 : Bool) (cause : Nat) :
    classProfile (s.afterReset step1 cause) (reserveAfter s) = classAfter s step1 := by
  obtain ⟨hnoclass, hwatts, -⟩ := afterReset_pow s step1 cause
  exact classProfile_congr (s := { s with pow := powerAfter s.pow step1 }) hnoclass hwatts _

/-! ### The start sequence -/

/-- The profile and the power are shown and the barn starts, before the boot image runs. -/
def bootReady (s : State) (step1 : Bool) (reserve cls : Nat) : State := startBarn (showPower (showFrontEnd s step1) reserve cls)

/-- Steps 2 to 8 from a valid bank. -/
def bootFrom (s : State) (b : Nat) (img : Config.BootImage) (rep : StartReport) : State :=
  let x := loadImage (showBank s b) img
  let s := testUnits (trainChannels (retireFromMap x.1) rep.trainFail) rep
  let s := if rep.coreFail then coreFails s else s
  enterService (startOutputs (loadParts s b x.2))

theorem startSequence_off {s : State} {reserve : Nat} (hreserve : reserveOf (bootImageOf s.barn (selectBank s.barn)) = reserve)
    (h : classProfile s reserve = none) (step1 : Bool) (rep : StartReport) :
    startSequence s step1 rep = { s with pow := { s.pow with power := .off, vbusClosed := s.pow.vbusClosed && !step1 } } := by
  subst hreserve
  unfold startSequence
  extract_lets bank img reserve
  have hcls : classProfile s reserve = none := h
  rw [hcls]

theorem startSequence_noBank {s : State} {reserve cls : Nat} (hbank : selectBank s.barn = none)
    (hreserve : reserveOf (bootImageOf s.barn (selectBank s.barn)) = reserve) (h : classProfile s reserve = some cls)
    (step1 : Bool) (rep : StartReport) : startSequence s step1 rep = bootReady s step1 reserve cls := by
  subst hreserve
  unfold startSequence
  extract_lets bank img reserve
  have hcls : classProfile s reserve = some cls := h
  have hnone : bank = none := hbank
  rw [hcls]
  simp only [hnone]
  rfl

theorem startSequence_bank {s : State} {reserve cls b : Nat} (hbank : selectBank s.barn = some b)
    (hreserve : reserveOf (bootImageOf s.barn (selectBank s.barn)) = reserve) (h : classProfile s reserve = some cls)
    (step1 : Bool) (rep : StartReport) :
    startSequence s step1 rep = bootFrom (bootReady s step1 reserve cls) b (Config.bootImage (partBytes s.barn b 0)) rep := by
  subst hreserve
  unfold startSequence
  extract_lets bank img reserve
  have hcls : classProfile s reserve = some cls := h
  have himg : img = some (Config.bootImage (partBytes s.barn b 0)) := congrArg (bootImageOf s.barn) hbank
  have hsome : bank = some b := hbank
  rw [hcls]
  simp only [hsome, himg]
  rfl

/-! ### What the start sequence leaves -/

theorem bootReady_kept (s : State) (step1 : Bool) (reserve cls : Nat) : (bootReady s step1 reserve cls).kept = s.kept :=
  (startBarn_kept _).trans ((showPower_kept ..).trans (showFrontEnd_kept ..))

theorem bootReady_touches (s : State) (step1 : Bool) (reserve cls : Nat) :
    TouchesOnly (Part.events ++ [.barn]) s (bootReady s step1 reserve cls) :=
  (State.touches_of_hide _ rfl fun d => (startBarn_hide (by decide) d _).trans
    ((showPower_hide (by decide) d ..).trans (showFrontEnd_hide (by decide) d ..))).1

theorem closeOpen_reg (top : Option Nat) (s : State) (j : Nat) {a : Nat} (ha : ¬evtReg a) : (closeOpen top s j).reg a = s.reg a := by
  have htorn (c : Bool) : (if c then raise s 934 else s).reg a = s.reg a := by
    split
    · exact raise_reg _ _ _ (by decide) ha
    · rfl
  simp only [closeOpen]
  split
  · split
    · exact htorn _
    · exact htorn _
  · rfl

theorem readFlog_reg (s : State) {a : Nat} (h : a ≠ A.barnFlogSeq) : (readFlog s).reg a = s.reg a :=
  State.reg_setFld_other _ _ _ _ h

theorem State.mapBarn_reg (s : State) (f : BarnState → BarnState) (a : Nat) : (s.mapBarn f).reg a = s.reg a := rfl

theorem startBarn_reg (s : State) {a : Nat} (ha : ¬evtReg a) (hflog : a ≠ A.barnFlogSeq) : (startBarn s).reg a = s.reg a := by
  have hopen (t : State) (top : Option Nat) : (t.each sectors (closeOpen top)).reg a = t.reg a :=
    State.each_keeps (fun t => t.reg a) t sectors (closeOpen top) fun t j => closeOpen_reg top t j ha
  unfold startBarn
  rw [readFlog_reg _ hflog, State.mapBarn_reg, hopen, State.mapBarn_reg]

theorem bootReady_cause (s : State) (step1 : Bool) (reserve cls : Nat) :
    (bootReady s step1 reserve cls).reg A.sysResetCause = s.reg A.sysResetCause := by
  rw [bootReady, startBarn_reg _ (not_evtReg_of_lt (by decide)) (by decide), showPower, takeProfile,
    State.reg_setFld_other _ _ _ _ (by decide), State.reg_setFld_other _ _ _ _ (by decide),
    State.reg_setFld_other _ _ _ _ (by decide), State.reg_setFld_other _ _ _ _ (by decide),
    showFrontEnd_reg_other _ _ (by decide)]

theorem F.barnBankOtherValid_spares : F.barnBankOtherValid.spares := by unfold Fld.spares; decide

/-- The bank selected is the bank shown. -/
theorem showBank_kept {s : State} {b : Nat} (hb : b < 2) (hguard : s.guardBits = (false, false)) (hcur : s.hw.cur = none) :
    (showBank s b).kept = (s.kept.1, s.kept.2.1, (false, false), some b) := by
  refine (State.setFld_kept _ _ F.barnBankOtherValid_spares).trans ?_
  have hbits : (s.setFld F.barnBankSel b).guardBits = (false, false) :=
    (State.guardBits_congr (State.reg_setFld_other _ _ _ _ (by decide))).trans hguard
  have hshown : (s.setFld F.barnBankSel b).bankShown = some b := by
    rw [State.bankShown, if_pos ⟨hbits, hcur⟩, State.fld_setFld_of_lt _ (by decide) hb]
  change (_, _, (s.setFld F.barnBankSel b).guardBits, (s.setFld F.barnBankSel b).bankShown) = _
  rw [hbits, hshown]
  rfl

/-- The steps from the bank's selection to step 6. -/
theorem loadOutputs_kept {s : State} (hs : s.noSession) (b : Nat) (img : Config.BootImage) (rep : StartReport) :
    (startOutputs (loadParts
      (if rep.coreFail then coreFails (testUnits (trainChannels (retireFromMap (loadImage s img).1) rep.trainFail) rep)
        else testUnits (trainChannels (retireFromMap (loadImage s img).1) rep.trainFail) rep)
      b (loadImage s img).2)).kept = s.kept := by
  have hmap : (retireFromMap (loadImage s img).1).kept = s.kept := (retireFromMap_kept _).trans (loadImage_kept hs img)
  have htrained := (trainChannels_kept (State.noSession_of_kept hmap hs) rep.trainFail).trans hmap
  have htested := (testUnits_kept (State.noSession_of_kept htrained hs) rep).trans htrained
  have hcore := ite_kept (c := rep.coreFail = true) ((coreFails_kept _).trans htested) htested
  exact (startOutputs_kept _).trans ((loadParts_kept (State.noSession_of_kept hcore hs) ..).trans hcore)

/-- A start sequence from a bank ends in service, with that bank in force. -/
theorem bootFrom_kept {s : State} {b : Nat} (hb : b < 2) (hs : s.kept = ((.up, false, false), (none, none), (false, false), some 0))
    (img : Config.BootImage) (rep : StartReport) :
    (bootFrom s b img rep).kept = ((.up, true, true), (none, none), (false, false), some b) := by
  have hbank : (showBank s b).kept = ((.up, false, false), (none, none), (false, false), some b) := by
    rw [showBank_kept hb (congrArg (fun x => x.2.2.1) hs) (congrArg (fun x => x.2.1.1) hs), hs]
  have hsession : (showBank s b).noSession :=
    ⟨congrArg (fun x => x.2.1.1) hbank, congrArg (fun x => x.2.1.2) hbank⟩
  have hloaded := (loadOutputs_kept hsession b img rep).trans hbank
  exact (enterService_kept _).trans (congrArg (fun x => ((x.1.1, true, true), x.2)) hloaded)

/-! ### The whole reset -/

theorem restart_eq (s : State) (step1 : Bool) (cause : Nat) (rep : StartReport) :
    restart s step1 cause rep =
      if s.pow.power == .down then
        (startSequence (s.afterReset step1 (cause + 8 * (s.pow.power == .down).toNat)) step1 rep).mapBarn (countSummary · 2)
      else startSequence (s.afterReset step1 (cause + 8 * (s.pow.power == .down).toNat)) step1 rep := rfl

/-- What holds of the start sequence's end, whatever the barn counts, holds of the reset's end. -/
theorem restart_of_startSequence {P : State → Prop} (hbarn : ∀ t f, P t → P (t.mapBarn f)) {s : State} {step1 : Bool}
    {cause : Nat} {rep : StartReport}
    (h : P (startSequence (s.afterReset step1 (cause + 8 * (s.pow.power == .down).toNat)) step1 rep)) :
    P (restart s step1 cause rep) := by
  rw [restart_eq]
  split
  · exact hbarn _ _ h
  · exact h

theorem restart_off {s : State} {step1 : Bool} (h : classAfter s step1 = none) (cause : Nat) (rep : StartReport) :
    (restart s step1 cause rep).pow.power = .off ∧
      (restart s step1 cause rep).pow.vbusClosed = ((powerAfter s.pow step1).vbusClosed && !step1) := by
  refine restart_of_startSequence (P := fun t => t.pow.power = .off ∧ t.pow.vbusClosed = _) (fun _ _ h => h) ?_
  rw [startSequence_off (afterReset_reserve ..) ((afterReset_class ..).trans h)]
  obtain ⟨-, -, hclosed⟩ := afterReset_pow s step1 (cause + 8 * (s.pow.power == .down).toNat)
  exact ⟨rfl, congrArg (· && !step1) hclosed⟩

/-- What is kept, part by part. -/
theorem State.parts_of_kept {t : State} {p : Power} {started vled : Bool} {cur opening : Option Sess} {guard : Bool × Bool}
    {bank : Option Nat} (h : t.kept = ((p, started, vled), (cur, opening), guard, bank)) :
    t.pow.power = p ∧ t.pow.started = started ∧ t.pow.vled = vled ∧ t.hw.cur = cur ∧ t.hw.opening = opening ∧
      t.bankShown = bank := by
  simp only [State.kept, Prod.mk.injEq] at h
  obtain ⟨⟨hpower, hstarted, hvled⟩, ⟨hcur, hopening⟩, -, hbank⟩ := h
  exact ⟨hpower, hstarted, hvled, hcur, hopening, hbank⟩

theorem startedWith_of_kept {t : State} {b : Nat}
    (h : t.kept = ((.up, true, true), (none, none), (false, false), some b)) : StartedWith t b := by
  obtain ⟨hpower, hstarted, hvled, hcur, hopening, hbank⟩ := State.parts_of_kept h
  refine ⟨hpower, hstarted, hvled, hcur, hopening, ?_⟩
  unfold State.bankShown at hbank
  split at hbank
  · exact Option.some.inj hbank
  · cases hbank

theorem restart_bank {s : State} {step1 : Bool} {b : Nat} (hbank : bankAfter s = some b) (h : classAfter s step1 ≠ none)
    (cause : Nat) (rep : StartReport) : StartedWith (restart s step1 cause rep) b := by
  obtain ⟨cls, hcls⟩ := Option.ne_none_iff_exists'.1 h
  refine restart_of_startSequence (P := (StartedWith · b)) (fun _ _ h => h) ?_
  rw [startSequence_bank ((afterReset_bank ..).trans hbank) (afterReset_reserve ..) ((afterReset_class ..).trans hcls)]
  exact startedWith_of_kept (bootFrom_kept (selectBank_lt hbank) ((bootReady_kept ..).trans (afterReset_kept ..)) ..)

/-- A reset without a valid bank ends in step 2 (R388). -/
theorem restart_noBank {s : State} {step1 : Bool} (hbank : bankAfter s = none) (h : classAfter s step1 ≠ none) (cause : Nat)
    (rep : StartReport) :
    ResetHolds s (restart s step1 cause rep) (cause + 8 * (s.pow.power == .down).toNat) (!step1) := by
  obtain ⟨cls, hcls⟩ := Option.ne_none_iff_exists'.1 h
  refine restart_of_startSequence (P := (ResetHolds s · _ _)) (fun _ _ h => h) ?_
  rw [startSequence_noBank ((afterReset_bank ..).trans hbank) (afterReset_reserve ..) ((afterReset_class ..).trans hcls)]
  generalize cause + 8 * (s.pow.power == .down).toNat = causes
  obtain ⟨hpower, hstarted, -, hcur, -, -⟩ :=
    State.parts_of_kept ((bootReady_kept _ step1 (reserveAfter s) cls).trans (afterReset_kept s step1 causes))
  have hready := bootReady_touches (s.afterReset step1 causes) step1 (reserveAfter s) cls
  have hreset := afterReset_touches s step1 causes
  have hbefore := beforeReset_touches s
  refine ⟨(bootReady_cause ..).trans (afterReset_cause ..), hpower, hstarted, hcur,
    (hready .rings (by decide)).trans (hreset .rings (by decide)),
    (hready .scene (by decide)).trans (hreset .scene (by decide)), (hready .time (by decide)).trans (hreset .time (by decide)),
    fun hmemory => ?_⟩
  obtain rfl : step1 = false := by simpa using hmemory
  exact sameMemory_of_parts
    ((hready .mem (by decide)).trans ((hreset .mem (by decide)).trans (hbefore .mem (by decide))))
    ((hready .lost (by decide)).trans ((hreset .lost (by decide)).trans (hbefore .lost (by decide))))

/-! ### The commands that reset -/

theorem exec_resetN {s : State} (hup : s.isUp) (rep : StartReport) : Leaves (.resetN rep) s (restart s false 2 rep) :=
  whenUp_up s (fun s => restart s false 2 rep) hup

/-- A write of RESET_CTL with SOFT is decided by KEY alone (R79). -/
theorem accessWrite_soft (s : State) (path : Path) {w : Word} (hsoft : w.getLsbD 16 = true) :
    accessWrite s path (BitVec.ofNat 32 A.sysResetCtl) w =
      if s.fld F.sysResetCtlKey = 0xC0DE then { s := s, status := 0, reset := true } else refuse s path A.sysResetCtl 1 := by
  obtain ⟨⟨r, i⟩, hr⟩ := Option.isSome_iff_exists.1 (by decide : (findReg A.sysResetCtl).isSome = true)
  have hdenied : haywainDenied path A.sysResetCtl = false := by cases path <;> decide
  have hlocked : isLocked s r A.sysResetCtl = false := by
    have hlkw := row_of_findReg (·.lkw == 0) (by decide) hr
    simp only [beq_iff_eq] at hlkw
    simp [isLocked, hlkw]
  have hkey : isKey A.sysResetCtl = false := by decide
  rw [accessWrite_mapped (addr := BitVec.ofNat 32 A.sysResetCtl) hr (by decide)]
  change writeAt s path A.sysResetCtl A.sysResetCtl w 0xFFFFFFFF = _
  rw [writeAt, hr]
  simp [hdenied, hkey, hlocked, writeResetCtl, hsoft]

theorem exec_softReset {s : State} {path : Path} {w : Word} (h : s.takes path) (hkey : s.fld F.sysResetCtlKey = 0xC0DE)
    (hsoft : w.getLsbD 16 = true) (rep : StartReport) : Leaves (.softReset path w rep) s (restart s false 4 rep) := by
  have hwrite : resetWrite s path w rep = restart s false 4 rep := by
    rw [resetWrite, accessWrite_soft s path hsoft, if_pos hkey]
    rfl
  rw [← hwrite]
  exact whenServed_takes h fun s => resetWrite s path w rep

theorem exec_softReset_refused {s : State} {path : Path} {w : Word} (h : s.takes path) (hkey : s.fld F.sysResetCtlKey ≠ 0xC0DE)
    (hsoft : w.getLsbD 16 = true) (rep : StartReport) :
    Leaves (.softReset path w rep) s (lockedWrite s path A.sysResetCtl) := by
  have hwrite : resetWrite s path w rep = lockedWrite s path A.sysResetCtl := by
    rw [resetWrite, accessWrite_soft s path hsoft, if_neg hkey]
    rfl
  rw [← hwrite]
  exact whenServed_takes h fun s => resetWrite s path w rep

/-- What holds of the state that a command leaves, whatever waits, holds of its end. -/
theorem Ends.of_leaves {c : Instr} {s t : State} {P : State → Prop} (h : Leaves c s t) (hP : P { t with pending := s.pending }) :
    Ends c s P := ⟨_, h, hP⟩

end Sys2Proof.Machine

namespace Sys2Proof.Proofs.ModulePower

open Sys2Proof.Machine

/-- Settles O8: each command leaves the whole reset, which is followed through the bank's selection. -/
theorem resets : Obligations.Resets := by
  have hup {s : State} (hs : s.isUp) : (s.pow.power == .down) = false := by rw [hs]; rfl
  have hstay {s : State} {cause : Nat} (hs : s.isUp) (rep : StartReport) (hbank : bankAfter s = none)
      (hcls : classAfter s false ≠ none) : ResetHolds s (restart s false cause rep) cause true := by
    have h := restart_noBank hbank hcls cause rep
    rwa [hup hs] at h
  refine ⟨fun rep s hoff => leaves_powerGood hoff rep, fun rep s hs hstarted => ?_, fun rep s hs => exec_resetN hs rep,
    fun path w rep s h hkey hsoft => exec_softReset h hkey hsoft rep, fun rep s hoff hbank hcls => ?_,
    fun rep s hs hbank hcls => .of_leaves (exec_resetN hs rep) (hstay hs rep hbank hcls),
    fun path w rep s h hkey hsoft hbank hcls => .of_leaves (exec_softReset h hkey hsoft rep) (hstay h.1 rep hbank hcls),
    fun rep b s hoff hbank hcls => .of_leaves (leaves_powerGood hoff rep) (restart_bank hbank hcls 1 rep),
    fun rep b s hs hbank hcls => .of_leaves (exec_resetN hs rep) (restart_bank hbank hcls 2 rep),
    fun path w rep b s h hkey hsoft hbank hcls => .of_leaves (exec_softReset h hkey hsoft rep) (restart_bank hbank hcls 4 rep),
    fun rep s hoff hcls => .of_leaves (leaves_powerGood hoff rep) ?_, fun rep s hs hcls => .of_leaves (exec_resetN hs rep) ?_,
    fun path w rep s h hkey hsoft => exec_softReset_refused h hkey hsoft rep⟩
  · have hgood : powerGood s rep = s := by
      have hs : s.pow.power = .up := hs
      simp [powerGood, hs, hstarted]
    exact (answer_eq_next (congrArg State.pending hgood)).trans (congrArg _ hgood)
  · refine .of_leaves (leaves_powerGood hoff rep) ?_
    have h := restart_noBank hbank hcls 1 rep
    cases hdown : s.pow.power <;> rw [hdown] at h <;> exact h
  · obtain ⟨hpower, hclosed⟩ := restart_off hcls 1 rep
    exact ⟨hpower, hclosed.trans (Bool.and_false _)⟩
  · obtain ⟨hpower, hclosed⟩ := restart_off hcls 2 rep
    exact ⟨hpower, hclosed.trans (Bool.and_true _)⟩

end Sys2Proof.Proofs.ModulePower
end

section
/-! PROOFS. Commands and the queue (spec 03, R61; logs 1, 50), the state after reset (spec 03, R66, R79, R80). -/

namespace Sys2Proof.Machine

/-! ### Commands and the queue -/

/-- Every command is answered with a next state, which has the queue of the state that it ran in. -/
theorem exec_completes (c : Instr) (s : State) : ∃ t, exec c s = .next t ∧ t.pending = s.pending := by
  cases c <;> exact ⟨_, rfl, rfl⟩

/-- A step with a command in front takes it off the queue and leaves the rest. -/
theorem step_cons {c : Instr} {rest : List Instr} {s : State} (h : s.pending = c :: rest) :
    step s = exec c { s with pending := rest } := by
  rw [step, h]

theorem idle_pending {s t : State} (h : idle s = .next t) : t.pending = s.pending := by
  cases h
  rfl

/-- A step takes the command in front off the queue, where there is one, and adds none. -/
theorem step_pending {s t : State} (h : step s = .next t) : t.pending = s.pending.tail := by
  cases hq : s.pending with
  | nil =>
    rw [step, hq] at h
    rw [idle_pending h, hq]
    rfl
  | cons c rest =>
    obtain ⟨u, hu, hrest⟩ := exec_completes c { s with pending := rest }
    rw [step_cons hq, hu] at h
    cases h
    exact hrest

/-! ### The state after reset -/

/-- After reset a register holds the reset word of its row. -/
theorem reset_reg (a : Nat) : State.reset.reg a = resetWord a := rfl

theorem reset_shadowReg (a : Nat) : State.reset.shadowReg a = resetWord a := rfl

/-- The reset word of a mapped register is its row's, without the reserved bits. -/
theorem resetWord_of_findReg {a i : Nat} {r : RegRow} (h : findReg a = some (r, i)) : resetWord a = r.reset i &&& r.defined := by
  rw [resetWord, h]

end Sys2Proof.Machine

namespace Sys2Proof.Proofs.RegisterModel

open Sys2Proof.Machine

/-- Settles O1: the step's own case of a queue that is not empty. -/
theorem stepRunsFront : Obligations.StepRunsFront :=
  ⟨fun _ _ _ h => step_cons h, fun _ _ => step_cons rfl⟩

/-- Settles O2: every meaning ends in an answer, and an answer keeps the queue. -/
theorem commandsKeepQueue : Obligations.CommandsKeepQueue := by
  refine ⟨exec_completes, fun c rest s h => ?_, fun s t hok ht c hc => hok c ?_⟩
  · rw [step_cons h]
    exact exec_completes c { s with pending := rest }
  · rw [step_pending ht] at hc
    exact List.mem_of_mem_tail hc

/-- Settles O7: the registers by their rows, the rest as the reset state lists it. -/
theorem resetState : Obligations.ResetState := by
  refine ⟨rfl, rfl, rfl, by decide, by decide, by decide, by decide, by decide, rfl, rfl, rfl, fun _ => rfl, rfl, rfl, rfl,
    fun a r i h => ⟨?_, ?_⟩, fun c hc => ?_⟩
  · rw [reset_reg, resetWord_of_findReg h]
  · rw [reset_shadowReg, resetWord_of_findReg h]
  · cases hc

end Sys2Proof.Proofs.RegisterModel
end

section
/-! PROOFS. Accesses of one word that are answered: unmapped addresses, words that are stored and set nothing off, bit aliases,
counters, 64-bit pairs, INDEX registers and key words (spec 03, R61, R62, R72 to R78; spec 04, R89, R113). -/

namespace Sys2Proof.Machine

/-! ### What an access that is answered leaves -/

/-- A command that makes the access of a REG_WRITE ends in what the access leaves, where that asks for no reset. -/
theorem ends_access {c : Instr} {s : State} {path : Path} {addr w : Word} {x : Written} {P : State → Prop}
    (hc : exec c s = exec (.regWrite path addr w) s) (h : s.takes path) (hx : accessWrite s path addr w = x)
    (hreset : x.reset = false) (hpending : x.s.pending = s.pending) (hP : P x.s) : Ends c s P := by
  have hwritten : writeWord s path addr w = x.s := by
    rw [writeWord, hx, finishWrite, hreset]
    rfl
  refine ⟨x.s, ?_, hP⟩
  rw [hc, leaves_regWrite h, hwritten, ← hpending]

/-- DATA_READ on a path that the module answers ends with the word read logged. -/
theorem ends_dataRead {s t : State} {path : Path} {addr v : Word} {st : Nat} {P : State → Prop} (h : s.takes path)
    (hx : accessRead s path addr = (t, v, st)) (hpending : t.pending = s.pending) (hP : P (t.emit (.read path addr v))) :
    Ends (.dataRead path addr) s P := by
  refine ⟨t.emit (.read path addr v), ?_, hP⟩
  show whenServed s path (fun s => readWord s path addr) = _
  rw [whenServed_takes h, readWord, hx, ← hpending]
  rfl

/-- States that differ in the register space alone. -/
theorem touchesOnly_regs {s t : State} (h : t = { s with regs := t.regs }) : TouchesOnly [.regs] s t := by
  rw [h]
  exact (State.touches_of_hide [.regs] rfl fun d => State.hide_regs _ d s (by decide) t.regs).1

/-- States that differ in the register space and the log alone. -/
theorem touchesOnly_regs_out {s t : State} (h : t = { s with regs := t.regs, out := t.out }) : TouchesOnly [.regs, .out] s t := by
  rw [h]
  refine (State.touches_of_hide [.regs, .out] rfl fun d => ?_).1
  exact (State.hide_out _ d { s with regs := t.regs } (by decide) t.out).trans (State.hide_regs _ d s (by decide) t.regs)

/-! ### Unmapped addresses -/

/-- What an access to an unmapped address leaves. -/
def notMapped (s : State) : Written := { s := unmapped s, status := 2, reset := false }

/-- The DATA registers are mapped. -/
theorem dataPair_of_unmapped {a : Nat} (h : findReg a = none) : dataPair a = none := by
  by_contra hne
  have hdata : a ∈ [0x40004, 0x4000C, 0x30004, 0x70004, 0x60004, 0xE0004, 0xF0004] := by
    simp [dataPair, indexPair, A.objGranIndex, A.objLoftIndex, A.layerLutIndex, A.pipeLutIndex, A.schedGclIndex, A.barnIndex, A.perfSnapIndex] at hne ⊢
    omega
  have hmapped : ∀ a ∈ [0x40004, 0x4000C, 0x30004, 0x70004, 0x60004, 0xE0004, 0xF0004], (findReg a).isSome = true := by
    decide +kernel
  simpa [h] using hmapped a hdata

/-- An address that maps to no register, or that is not a multiple of 4 (R62). -/
def UnmappedAddr (a : Nat) : Prop :=
  a % 4 ≠ 0 ∨ 0x120000 ≤ a ∨ (a < 0x100000 ∧ findReg a = none) ∨ (isAlias a = true ∧ findReg (aliasReg a) = none)

theorem unmappedAddr_cases {a : Nat} (h : UnmappedAddr a) :
    a % 4 ≠ 0 ∨ (isAlias a = false ∧ ¬a < 0x100000) ∨ (isAlias a = false ∧ a < 0x100000 ∧ findReg a = none) ∨
      (isAlias a = true ∧ findReg (aliasReg a) = none) := by
  rcases h with h | h | ⟨h, hnone⟩ | h
  · exact .inl h
  · exact .inr (.inl ⟨by simp [isAlias]; omega, by omega⟩)
  · exact .inr (.inr (.inl ⟨by simp [isAlias, h], h, hnone⟩))
  · exact .inr (.inr (.inr h))

theorem accessWrite_unmapped {addr : Word} (h : UnmappedAddr addr.toNat) (s : State) (path : Path) (w : Word) :
    accessWrite s path addr w = notMapped s := by
  by_cases h4 : addr.toNat % 4 = 0
  · rcases unmappedAddr_cases h with h | ⟨hal, hge⟩ | ⟨hal, hlt, hnone⟩ | ⟨hal, hnone⟩
    · exact absurd h4 h
    · simp [accessWrite, h4, hal, hge, notMapped]
    · simp [accessWrite, h4, hal, hlt, writeAt, hnone, notMapped]
    · simp [accessWrite, h4, hal, aliasWrite, dataPair_of_unmapped hnone, writeAt, hnone, notMapped]
  · simp [accessWrite, h4, notMapped]

theorem accessRead_unmapped {addr : Word} (h : UnmappedAddr addr.toNat) (s : State) (path : Path) :
    accessRead s path addr = (unmapped s, 0, 2) := by
  by_cases h4 : addr.toNat % 4 = 0
  · rcases unmappedAddr_cases h with h | ⟨hal, hge⟩ | ⟨hal, hlt, hnone⟩ | ⟨hal, hnone⟩
    · exact absurd h4 h
    · simp [accessRead, h4, hal, hge]
    · simp [accessRead, h4, hal, hlt, readAt, hnone]
    · simp [accessRead, h4, hal, aliasRead, aliasReadBit, hnone]
  · simp [accessRead, h4]

theorem unmapped_count (s : State) : (unmapped s).fld F.sysUnmappedCount = min 65535 (s.fld F.sysUnmappedCount + 1) := by
  rw [unmapped, State.fld_addFld_self _ _ _ ⟨by decide, by decide⟩, Nat.min_comm]
  rfl

theorem unmapped_regs (s : State) : SameRegsBut (· = A.sysUnmapped) s (unmapped s) :=
  fun a ha => State.reg_addFld_other s F.sysUnmappedCount a 1 ha

/-! ### Registers whose write stores the word and sets nothing off -/

/-- A word that every path may write, that no lock covers, and that is neither RESET_CTL nor an INDEX or DATA register. -/
def plainWord (a : Nat) : Bool :=
  decide (a < 0x100000) && !isKey a && !isTriggerReg a && a != A.sysResetCtl && (indexPair a).isNone && (dataPair a).isNone &&
    (findReg a).any (fun x => x.1.lkw == 0)

theorem plainWord_iff {a i : Nat} {r : RegRow} (hr : findReg a = some (r, i)) : plainWord a = true ↔ a < 0x100000 ∧ isKey a = false ∧
    isTriggerReg a = false ∧ a ≠ A.sysResetCtl ∧ indexPair a = none ∧ dataPair a = none ∧ r.lkw = 0 := by
  simp [plainWord, hr, and_assoc]

theorem writeAt_plain {a i : Nat} {r : RegRow} (h : plainWord a = true) (hr : findReg a = some (r, i)) (s : State) (path : Path)
    (at_ : Nat) (v m : Word) : writeAt s path at_ a v m = wrote (writePlain s path r i a v m) := by
  obtain ⟨-, hkey, htrigger, hctl, hindex, hdata, hlkw⟩ := (plainWord_iff hr).1 h
  simp [writeAt, hr, haywainDenied, hkey, htrigger, isLocked, hlkw, hctl, hindex, hdata]

theorem accessWrite_plain {addr : Word} {a i : Nat} {r : RegRow} (ha : addr.toNat = a) (h : plainWord a = true)
    (hr : findReg a = some (r, i)) (s : State) (path : Path) (w : Word) :
    accessWrite s path addr w = wrote (writePlain s path r i a w 0xFFFFFFFF) := by
  subst ha
  rw [accessWrite_mapped hr ((plainWord_iff hr).1 h).1, writeAt_plain h hr]

/-- What a word without shadowed, locked or clamped bits holds after a store. -/
theorem storeBits_live {r : RegRow} {a i : Nat} (hsrw : r.srw = 0) (hlkw : r.lkw = 0) (hlock : lockBits a = 0)
    (hclamp : ∀ w, clampWord a i w = w) (s : State) (v m : Word) :
    storeBits s r i a v m = s.setReg a (mergeBits (s.reg a) v (m &&& r.rw) &&& ~~~(v &&& m &&& r.w1c)) := by
  simp [storeBits, hsrw, hlkw, hlock, hclamp]

@[simp] theorem and_ones (w : Word) : w &&& 0xFFFFFFFF#32 = w := BitVec.and_allOnes

/-- What a word of RW bits alone holds after a store. -/
theorem storeBits_rw {r : RegRow} {a i : Nat} (hw1c : r.w1c = 0) (hsrw : r.srw = 0) (hlkw : r.lkw = 0) (hlock : lockBits a = 0)
    (hclamp : ∀ w, clampWord a i w = w) (s : State) (v m : Word) :
    storeBits s r i a v m = s.setReg a (mergeBits (s.reg a) v (m &&& r.rw)) := by
  simp [storeBits_live hsrw hlkw hlock hclamp, hw1c]

/-- A write of RESET_CAUSE clears the bits of the causes where the word has ones. -/
theorem accessWrite_resetCause (s : State) (path : Path) (w : Word) :
    accessWrite s path 0x14 w = wrote (s.setReg A.sysResetCause (s.reg A.sysResetCause &&& ~~~(w &&& 0xF))) := by
  obtain ⟨r, hr, hrw, hw1c, hsrw, hlkw, hcounter⟩ : ∃ r, findReg A.sysResetCause = some (r, 0) ∧ r.rw = 0 ∧ r.w1c = 0xF ∧ r.srw = 0 ∧
      r.lkw = 0 ∧ isCounter r = false := ⟨_, rfl, rfl, rfl, rfl, rfl, rfl⟩
  have hplain : writePlain s path r 0 A.sysResetCause w 0xFFFFFFFF = storeBits s r 0 A.sysResetCause w 0xFFFFFFFF := by
    simp only [writePlain, hcounter]
    rfl
  rw [accessWrite_plain (a := A.sysResetCause) rfl (by decide +kernel) hr, hplain, storeBits_live hsrw hlkw rfl fun _ => rfl]
  simp [mergeBits, hrw, hw1c]

/-! ### Bit aliases -/

/-- A write of a one-bit word (ALIAS_WRITE) acts on the one bit of its register (R72, R73). -/
theorem accessWrite_alias {addr : Word} (hal : isAlias addr.toNat = true) (h4 : addr.toNat % 4 = 0)
    (hdata : dataPair (aliasReg addr.toNat) = none) (s : State) (path : Path) (w : Word) :
    accessWrite s path addr w = writeAt s path addr.toNat (aliasReg addr.toNat)
      (if w.getLsbD 0 then BitVec.ofNat 32 (2 ^ aliasBit addr.toNat) else 0) (BitVec.ofNat 32 (2 ^ aliasBit addr.toNat)) := by
  simp [accessWrite, h4, hal, aliasWrite, hdata]

/-- The word with one bit alone. -/
theorem getLsbD_two_pow (i j : Nat) : (BitVec.ofNat 32 (2 ^ i)).getLsbD j = (decide (j < 32) && decide (i = j)) := by
  rw [BitVec.getLsbD_ofNat, Nat.testBit_two_pow]

theorem writePlain_hwCtl {r : RegRow} (hcounter : isCounter r = false) (s : State) (path : Path) (v m : Word) :
    writePlain s path r 0 A.ringHwCtl v m = storeBits s r 0 A.ringHwCtl v m := by
  simp only [writePlain, hcounter]
  rfl

/-- The word of HW_CTL with the bits of a mask written: its 30 RW bits alone take a value. -/
def hwCtlWith (old v m : Word) : Word := mergeBits old v (m &&& 0x3FFFFFFF)

theorem writeAt_hwCtl (s : State) (path : Path) (at_ : Nat) (v m : Word) :
    writeAt s path at_ A.ringHwCtl v m = wrote (s.setReg A.ringHwCtl (hwCtlWith (s.reg A.ringHwCtl) v m)) := by
  obtain ⟨r, hr, hrw, hw1c, hsrw, hlkw, hcounter⟩ : ∃ r, findReg A.ringHwCtl = some (r, 0) ∧ r.rw = 0x3FFFFFFF ∧ r.w1c = 0 ∧
      r.srw = 0 ∧ r.lkw = 0 ∧ isCounter r = false := ⟨_, rfl, rfl, rfl, rfl, rfl, rfl⟩
  rw [writeAt_plain (by decide +kernel) hr, writePlain_hwCtl hcounter, storeBits_rw hw1c hsrw hlkw rfl fun _ => rfl, hrw]
  rfl

/-- One bit written: it takes the value where it is one of the 30, and every other bit stays. -/
theorem getLsbD_hwCtlWith_bit (old : Word) (b : Bool) (i j : Nat) :
    (hwCtlWith old (if b then BitVec.ofNat 32 (2 ^ i) else 0) (BitVec.ofNat 32 (2 ^ i))).getLsbD j =
      if j = i ∧ i < 30 then b else old.getLsbD j := by
  have hmask : (0x3FFFFFFF : Word).getLsbD j = decide (j < 30) := by
    show (BitVec.ofNat 32 (2 ^ 30 - 1)).getLsbD j = _
    rw [BitVec.getLsbD_ofNat, Nat.testBit_two_pow_sub_one]
    simp only [← Bool.decide_and]
    congr 1
    simp only [eq_iff_iff]
    omega
  have hvalue : (if b then BitVec.ofNat 32 (2 ^ i) else (0 : Word)).getLsbD j = (b && (BitVec.ofNat 32 (2 ^ i)).getLsbD j) := by
    cases b <;> simp
  simp only [hwCtlWith, mergeBits, BitVec.getLsbD_or, BitVec.getLsbD_and, BitVec.getLsbD_not, hmask, hvalue, getLsbD_two_pow]
  by_cases hj : j = i
  · subst hj
    by_cases h30 : j < 30
    · simp [h30, show j < 32 by omega]
    · by_cases h32 : j < 32
      · simp [h30, h32]
      · simp [h30, h32, BitVec.getLsbD_of_ge old j (by omega)]
  · by_cases h32 : j < 32
    · simp [hj, Ne.symm hj, h32]
    · simp [hj, h32, BitVec.getLsbD_of_ge old j (by omega)]

/-- The one-bit words of HW_CTL. -/
theorem aliasWord_hwCtl (i : Fin 32) :
    let a := (BitVec.ofNat 32 (0x102000 + 4 * i.val)).toNat
    isAlias a = true ∧ a % 4 = 0 ∧ aliasReg a = A.ringHwCtl ∧ aliasBit a = i.val := by
  revert i
  decide

theorem accessWrite_alias_hwCtl (s : State) (path : Path) (i : Fin 32) (w : Word) :
    accessWrite s path (BitVec.ofNat 32 (0x102000 + 4 * i.val)) w = wrote (s.setReg A.ringHwCtl
      (hwCtlWith (s.reg A.ringHwCtl) (if w.getLsbD 0 then BitVec.ofNat 32 (2 ^ i.val) else 0) (BitVec.ofNat 32 (2 ^ i.val)))) := by
  obtain ⟨hal, h4, hreg, hbit⟩ := aliasWord_hwCtl i
  rw [accessWrite_alias hal h4 (by rw [hreg]; rfl), hreg, hbit, writeAt_hwCtl]

/-! ### Counters -/

/-- A field that counts, in a register that CLR clears: the register's RO bits hold the field. -/
def clearedBy (f : Fld) : Bool :=
  plainWord f.addr && (findReg f.addr).any fun x =>
    f.addr != A.sysView && !isLo f.addr x.2 && !isHi f.addr x.2 && isCounter x.1 && x.1.ro == mask f.hi f.lo && decide (f.addr < 2 ^ 32)

theorem accessWrite_clear {f : Fld} (h : clearedBy f = true) (s : State) (path : Path) :
    accessWrite s path (BitVec.ofNat 32 f.addr) 0x80000000 = wrote (s.setReg f.addr (s.reg f.addr &&& ~~~mask f.hi f.lo)) := by
  simp only [clearedBy, Bool.and_eq_true, Option.any_eq_true, decide_eq_true_eq, Bool.not_eq_true', bne_iff_ne, beq_iff_eq] at h
  obtain ⟨hplain, ⟨r, i⟩, hr, ⟨⟨⟨⟨hview, hlo⟩, hhi⟩, hcounter⟩, hro⟩, hlt⟩ := h
  rw [accessWrite_plain (BitVec.toNat_ofNat .. ▸ Nat.mod_eq_of_lt hlt) hplain hr]
  replace hro : r.ro = mask f.hi f.lo := hro
  simp [writePlain, hview, hlo, hhi, hcounter, hro]

/-- A field reads 0 once its bits are cleared. -/
theorem bits_clear (w : Word) (hi lo : Nat) : bits (w &&& ~~~mask hi lo) hi lo = 0 := by
  apply Nat.eq_of_testBit_eq
  intro i
  rw [testBit_bits, Nat.zero_testBit, BitVec.getLsbD_and, BitVec.getLsbD_not, getLsbD_mask]
  by_cases h : i < hi - lo + 1
  · simp [h]
  · simp [h]

/-! ### 64-bit pairs -/

theorem accessWrite_macLo (s : State) (path : Path) (w : Word) :
    accessWrite s path 0x10008 w = wrote { s with regs := { s.regs with loHeld := smPut s.regs.loHeld A.ringMacLo w } } := by
  obtain ⟨r, hr⟩ : ∃ r, findReg A.ringMacLo = some (r, 0) := ⟨_, rfl⟩
  rw [accessWrite_plain (a := A.ringMacLo) rfl (by decide +kernel) hr]
  show wrote (holdLo s r A.ringMacLo w 0xFFFFFFFF) = _
  simp [holdLo, mergeBits]

/-- No LO word is held at an address any more. -/
def dropHeld (s : State) (a : Nat) : State := { s with regs := { s.regs with loHeld := smDel s.regs.loHeld a } }

/-- MAC_LO and MAC_HI as a write of MAC_HI leaves them: LO takes the word that it holds, if any. -/
def takeMac (s : State) (w : Word) : State :=
  (dropHeld (match smFind s.regs.loHeld A.ringMacLo with | some lo => s.setReg A.ringMacLo lo | none => s)
    A.ringMacLo).setReg A.ringMacHi
    ((s.reg A.ringMacHi &&& 0xFFFF0000) ||| (w &&& 0xFFFF))

theorem accessWrite_macHi (s : State) (path : Path) (w : Word) : accessWrite s path 0x1000C w = wrote (takeMac s w) := by
  obtain ⟨rl, hl, hlrw, hlw1c, hlsrw, hllkw⟩ : ∃ r, findReg A.ringMacLo = some (r, 0) ∧ r.rw = 0xFFFFFFFF ∧ r.w1c = 0 ∧
      r.srw = 0 ∧ r.lkw = 0 := ⟨_, rfl, rfl, rfl, rfl, rfl⟩
  obtain ⟨r, hr, hrw, hw1c, hsrw, hlkw⟩ : ∃ r, findReg A.ringMacHi = some (r, 0) ∧ r.rw = 0xFFFF ∧ r.w1c = 0 ∧
      r.srw = 0 ∧ r.lkw = 0 := ⟨_, rfl, rfl, rfl, rfl, rfl⟩
  have hlo (v : Word) : storeBits s rl 0 A.ringMacLo v 0xFFFFFFFF = s.setReg A.ringMacLo v := by
    rw [storeBits_rw hlw1c hlsrw hllkw rfl fun _ => rfl, hlrw]
    simp [mergeBits]
  have hhi (t : State) : storeBits t r 0 A.ringMacHi w 0xFFFFFFFF = t.setReg A.ringMacHi
      ((t.reg A.ringMacHi &&& 0xFFFF0000) ||| (w &&& 0xFFFF)) := by
    rw [storeBits_rw hw1c hsrw hlkw rfl fun _ => rfl, hrw]
    simp [mergeBits]
  have hlo' : findReg (A.ringMacHi - 4) = some (rl, 0) := hl
  rw [accessWrite_plain (a := A.ringMacHi) rfl (by decide +kernel) hr]
  show wrote (takeHi s r 0 A.ringMacHi w 0xFFFFFFFF) = _
  rw [takeHi, hlo', takeMac, show A.ringMacHi - 4 = A.ringMacLo from rfl]
  cases smFind s.regs.loHeld A.ringMacLo with
  | none => exact congrArg wrote (hhi _)
  | some lo =>
    have hother : (s.setReg A.ringMacLo lo).reg A.ringMacHi = s.reg A.ringMacHi := State.reg_setReg_other _ _ _ _ (by decide)
    simp only [hlo, hhi, ← hother]
    rfl

theorem takeMac_hi (s : State) (w : Word) :
    (takeMac s w).reg A.ringMacHi = ((s.reg A.ringMacHi &&& 0xFFFF0000) ||| (w &&& 0xFFFF)) :=
  State.reg_setReg_self ..

/-- LO has been written since the last write of HI: it takes the word that it holds. -/
theorem takeMac_held {s : State} {lo : Word} (h : smFind s.regs.loHeld A.ringMacLo = some lo) (w : Word) :
    takeMac s w = (dropHeld (s.setReg A.ringMacLo lo) A.ringMacLo).setReg A.ringMacHi
      ((s.reg A.ringMacHi &&& 0xFFFF0000) ||| (w &&& 0xFFFF)) := by
  rw [takeMac, h]

/-- Otherwise it keeps its word. -/
theorem takeMac_free {s : State} (h : smFind s.regs.loHeld A.ringMacLo = none) (w : Word) :
    takeMac s w = (dropHeld s A.ringMacLo).setReg A.ringMacHi ((s.reg A.ringMacHi &&& 0xFFFF0000) ||| (w &&& 0xFFFF)) := by
  rw [takeMac, h]

/-! ### INDEX registers -/

theorem writeAt_index {a i k : Nat} {r : RegRow} (hr : findReg a = some (r, i)) (hk : indexPair a = some k)
    (hkey : isKey a = false) (htrigger : isTriggerReg a = false) (hlkw : r.lkw = 0) (hctl : a ≠ A.sysResetCtl)
    (s : State) (path : Path) (at_ : Nat) (v m : Word) : writeAt s path at_ a v m = wrote (writeIndex s path k v m) := by
  simp [writeAt, hr, haywainDenied, hkey, htrigger, isLocked, hlkw, hctl, hk]

theorem pathCode_inj {p q : Path} (h : pathCode p = pathCode q) : p = q := by
  cases p <;> cases q <;> simp [pathCode] at h ⊢

/-- The number of a bank tells its path and its pair. -/
theorem bankKey_inj {p q : Path} {j k : Nat} (hj : j < 16) (hk : k < 16) (h : pathCode p * 16 + j = pathCode q * 16 + k) :
    p = q ∧ j = k := by
  exact ⟨pathCode_inj (by omega), by omega⟩

theorem bankOf_setBank_self (s : State) (path : Path) (k : Nat) (b : IndexBank) : bankOf (setBank s path k b) path k = b :=
  smGet_set_self ..

theorem bankOf_setBank_other (s : State) {p q : Path} {j k : Nat} (hj : j < 16) (hk : k < 16) (h : q ≠ p ∨ j ≠ k) (b : IndexBank) :
    bankOf (setBank s p k b) q j = bankOf s q j :=
  smGet_set_other _ _ _ _ _ _ fun e => by
    obtain ⟨rfl, rfl⟩ := bankKey_inj hj hk e
    exact h.elim (· rfl) (· rfl)

/-- The words of INDEX after a write of it (R76, R77). -/
def indexWritten (b : IndexBank) (w : Word) : IndexBank :=
  { b with index := ((b.index &&& 0xE0000000) ||| (w &&& 0x1FFFFFFF)) &&& ~~~(w &&& 0x20000000), buf := none }

theorem writeIndex_word (s : State) (path : Path) (k : Nat) (w : Word) :
    writeIndex s path k w 0xFFFFFFFF = setBank s path k (indexWritten (bankOf s path k) w) := by
  simp [writeIndex, indexWritten]

/-- The INDEX registers with their pairs. -/
theorem accessWrite_index {k : Fin 7} {a : Nat}
    (h : (k, a) ∈ [((0 : Fin 7), A.objGranIndex), (1, A.objLoftIndex), (2, A.layerLutIndex), (3, A.pipeLutIndex),
      (4, A.schedGclIndex), (5, A.barnIndex), (6, A.perfSnapIndex)]) (s : State) (path : Path) (w : Word) :
    accessWrite s path (BitVec.ofNat 32 a) w = wrote (setBank s path k (indexWritten (bankOf s path k) w)) := by
  obtain ⟨hlt, hk, hkey, htrigger, hctl, hrow⟩ : a < 0x100000 ∧ indexPair a = some k.val ∧ isKey a = false ∧
      isTriggerReg a = false ∧ a ≠ A.sysResetCtl ∧ (findReg a).any (fun x => x.1.lkw == 0) = true := by
    simp only [List.mem_cons, Prod.mk.injEq, List.not_mem_nil, or_false] at h
    obtain ⟨rfl, rfl⟩ | ⟨rfl, rfl⟩ | ⟨rfl, rfl⟩ | ⟨rfl, rfl⟩ | ⟨rfl, rfl⟩ | ⟨rfl, rfl⟩ | ⟨rfl, rfl⟩ := h <;> decide +kernel
  simp only [Option.any_eq_true, beq_iff_eq] at hrow
  obtain ⟨⟨r, i⟩, hr, hlkw⟩ := hrow
  have ha : (BitVec.ofNat 32 a).toNat = a := BitVec.toNat_ofNat .. ▸ Nat.mod_eq_of_lt (by omega)
  rw [accessWrite_mapped (by rw [ha]; exact hr) (by rw [ha]; exact hlt), ha,
    writeAt_index hr hk hkey htrigger hlkw hctl, writeIndex_word]

/-! ### Key words -/

/-- The key words are mapped, and no bit of them is shown. -/
theorem key_row (i : Fin 4) : ∃ r, findReg (A.ringKey i) = some (r, i.val) ∧ r.defined = 0xFFFFFFFF ∧ r.srw = 0 ∧
    isKey (A.ringKey i) = true ∧ isTriggerReg (A.ringKey i) = false := by
  match i with
  | 0 | 1 | 2 | 3 => exact ⟨_, rfl, rfl, rfl, rfl, rfl⟩

theorem key_toNat (i : Fin 4) : (BitVec.ofNat 32 (A.ringKey i)).toNat = A.ringKey i := by
  revert i
  decide

theorem accessWrite_key {path : Path} (hpath : path ≠ .haywain) (s : State) (i : Fin 4) (w : Word) :
    accessWrite s path (BitVec.ofNat 32 (A.ringKey i)) w = writeKey s path (A.ringKey i) (A.ringKey i) w 0xFFFFFFFF := by
  obtain ⟨r, hr, -, -, hkey, -⟩ := key_row i
  have hlt : A.ringKey i < 0x100000 := by simp only [A.ringKey]; omega
  rw [accessWrite_mapped (by rw [key_toNat]; exact hr) (by rw [key_toNat]; exact hlt), key_toNat, writeAt, hr]
  simp [haywainDenied, hpath, hkey]

/-- The first write of a key word is taken whole. -/
theorem accessWrite_key_first {path : Path} (hpath : path ≠ .haywain) {s : State} {i : Fin 4}
    (hnone : smFind s.regs.keys (A.ringKey i) = none) (w : Word) :
    accessWrite s path (BitVec.ofNat 32 (A.ringKey i)) w =
      wrote { s with regs := { s.regs with keys := smPut s.regs.keys (A.ringKey i) w } } := by
  rw [accessWrite_key hpath, writeKey, hnone]
  simp

/-- A later write of a key word is a locked write. -/
theorem accessWrite_key_later {path : Path} (hpath : path ≠ .haywain) {s : State} {i : Fin 4}
    (hsome : smFind s.regs.keys (A.ringKey i) ≠ none) (w : Word) :
    accessWrite s path (BitVec.ofNat 32 (A.ringKey i)) w = refuse s path (BitVec.ofNat 32 (A.ringKey i)).toNat 1 := by
  rw [accessWrite_key hpath, writeKey, if_pos (Option.isSome_iff_ne_none.2 hsome), key_toNat]

/-- A read of a key word shows the register behind it, not the key. -/
theorem accessRead_key (s : State) (path : Path) (i : Fin 4) :
    accessRead s path (BitVec.ofNat 32 (A.ringKey i)) = (s, s.reg (A.ringKey i), 0) := by
  obtain ⟨r, hr, hdefined, hsrw, -, -⟩ := key_row i
  have hplain : plainRead s path r i (A.ringKey i) = s.reg (A.ringKey i) := by
    have hderived (w : Word) : derivedWord s (A.ringKey i) i w = w := by
      match i with
      | 0 | 1 | 2 | 3 => rfl
    have hview : A.ringKey i ≠ A.sysView := by simp only [A.ringKey, A.sysView]; omega
    simp [plainRead, hview, hderived, hdefined, hsrw]
  have hread : readAt s path (A.ringKey i) = (s, s.reg (A.ringKey i), 0) := by
    obtain ⟨hdata, hindex, hpacket, hfault⟩ : dataPair (A.ringKey i) = none ∧ indexPair (A.ringKey i) = none ∧
        A.ringKey i ≠ A.lanePktData i ∧ A.ringKey i ≠ A.faultState := by
      clear hr hplain
      revert i
      decide
    simp [readAt, hr, hdata, hpacket, readSettled, hfault, peek, hindex, hplain]
  have hlt : A.ringKey i < 0x100000 := by simp only [A.ringKey]; omega
  have hal : isAlias (A.ringKey i) = false := by simp [isAlias, hlt]
  rw [accessRead, key_toNat, hread]
  simp [mod_four_of_findReg hr, hal, hlt]

end Sys2Proof.Machine

namespace Sys2Proof.Proofs.RegisterModel

open Sys2Proof.Machine

/-- Settles O12: either access leaves the same state, with the count one up. -/
theorem unmappedAccess : Obligations.UnmappedAccess := by
  intro path addr w s haddr
  have hread := accessRead_unmapped haddr s path
  have hwrite := accessWrite_unmapped haddr s path w
  refine ⟨by rw [hread], by rw [hwrite]; rfl, by rw [hread, hwrite]; rfl, fun htakes => ?_, fun htakes => ?_⟩
  · exact ends_access rfl htakes hwrite rfl rfl ⟨unmapped_count s, unmapped_regs s, touchesOnly_regs rfl⟩
  · exact ends_dataRead htakes hread rfl ⟨unmapped_count s, rfl, unmapped_regs s, touchesOnly_regs_out rfl⟩

/-- Settles O15: a key word's first write lists the key, and no read shows the list. -/
theorem keyWords : Obligations.KeyWords := by
  refine ⟨fun path i w s htakes hpath hnone => ?_, fun path i w s htakes hpath hsome => ?_, fun path i s hzero => ?_, by decide⟩
  · refine ends_access rfl htakes (accessWrite_key_first hpath hnone w) rfl rfl
      ⟨?_, fun a ha => ?_, fun _ _ => rfl, touchesOnly_regs rfl⟩
    · simp [wrote, smFind_put]
    · simp [wrote, smFind_put, ha]
  · refine ⟨_, exec_regWrite_refused htakes (accessWrite_key_later hpath hsome w), lockedWrite_keys .., ?_, lockedWrite_count ..⟩
    refine lockedWrite_onlyRegs s path _ _ ?_ (.inl ?_)
    · simp only [A.ringKey, A.sysLockViol, A.sysLockViolAddr]; omega
    · simp only [A.ringKey]; omega
  · rw [accessRead_key, hzero]

/-- Settles O16: LO waits in its own table until the write of HI. -/
theorem wordPairs : Obligations.WordPairs := by
  refine ⟨fun path w s htakes => ?_, fun path w lo s htakes hheld => ?_, fun path w s htakes hnone => ?_⟩
  · exact ends_access rfl htakes (accessWrite_macLo s path w) rfl rfl
      ⟨by simp [wrote, smFind_put], fun _ _ => rfl, touchesOnly_regs rfl⟩
  · have hmac := takeMac_held hheld w
    refine ends_access rfl htakes (accessWrite_macHi s path w) rfl (by rw [hmac]; rfl) ⟨?_, takeMac_hi s w, ?_, fun a ha => ?_, ?_⟩
    all_goals simp only [wrote, hmac]
    · exact (State.reg_setReg_other _ _ _ _ (by decide)).trans (State.reg_setReg_self ..)
    · exact (smFind_del ..).trans (if_pos rfl)
    · obtain ⟨hlo, hhi⟩ := not_or.1 ha
      exact (State.reg_setReg_other _ _ _ _ hhi).trans (State.reg_setReg_other _ _ _ _ hlo)
    · exact touchesOnly_regs rfl
  · have hmac := takeMac_free hnone w
    refine ends_access rfl htakes (accessWrite_macHi s path w) rfl (by rw [hmac]; rfl) ⟨takeMac_hi s w, fun a ha => ?_, ?_⟩
    all_goals simp only [wrote, hmac]
    · exact State.reg_setReg_other _ _ _ _ ha
    · exact touchesOnly_regs rfl

/-- Settles O17: the mask of a one-bit word has one bit, and CLR clears the bits that count. -/
theorem aliasAndClear : Obligations.AliasAndClear := by
  refine ⟨fun path i w s htakes => ?_, fun path s htakes f hf => ?_⟩
  · refine ends_access rfl htakes (accessWrite_alias_hwCtl s path i w) rfl rfl ⟨fun j => ?_, fun a ha => ?_, touchesOnly_regs rfl⟩
    · exact (congrArg (fun x => x.getLsbD j) (State.reg_setReg_self ..)).trans (getLsbD_hwCtlWith_bit ..)
    · exact State.reg_setReg_other _ _ _ _ ha
  · have hcleared : clearedBy f = true := by
      revert f
      decide +kernel
    refine ends_access rfl htakes (accessWrite_clear hcleared s path) rfl rfl ⟨?_, fun a ha => ?_, touchesOnly_regs rfl⟩
    · simp only [wrote, State.fld, State.reg_setReg_self, bits_clear]
    · exact State.reg_setReg_other _ _ _ _ ha

/-- Settles O20: the write of an INDEX register sets its path's bank of its pair. -/
theorem indexWrites : Obligations.IndexWrites := by
  rintro path w s htakes ⟨k, a⟩ he
  exact ends_access rfl htakes (accessWrite_index he s path w) rfl rfl ⟨bankOf_setBank_self .., fun q j hother =>
    bankOf_setBank_other s (by omega) (by omega) (hother.imp_right fun hne e => hne (Fin.ext e)) _, fun _ _ => rfl, touchesOnly_regs rfl⟩

end Sys2Proof.Proofs.RegisterModel
end

section
/-! PROOFS. Refusals: locked writes of a register through its own address or through a one-bit word, and strobes that their checks
or their proof refuse (spec 03, R71, R73, R78, R79, R82). -/

namespace Sys2Proof.Machine

/-! ### Refused writes of a register, through its own address or through a one-bit word -/

/-- A word that Haywain may not write is refused with DENIED. -/
theorem writeAt_denied {a : Nat} {x : RegRow × Nat} {path : Path} (hr : findReg a = some x) (hd : haywainDenied path a = true)
    (s : State) (at_ : Nat) (v m : Word) : writeAt s path at_ a v m = refuse s path at_ 3 := by
  simp [writeAt, hr, hd]

/-- A key word that has been written is refused with LOCKED. -/
theorem writeAt_keyTaken {a : Nat} {x : RegRow × Nat} {path : Path} {s : State} (hr : findReg a = some x)
    (hd : haywainDenied path a = false) (hkey : isKey a = true) (htaken : smFind s.regs.keys a ≠ none) (at_ : Nat) (v m : Word) :
    writeAt s path at_ a v m = refuse s path at_ 1 := by
  simp [writeAt, hr, hd, hkey, writeKey, Option.isSome_iff_ne_none.2 htaken]

/-- A word of a locked register is refused with LOCKED where the write touches a bit that the lock covers. -/
theorem writeAt_locked {a i : Nat} {r : RegRow} {path : Path} {s : State} {m : Word} (hr : findReg a = some (r, i))
    (hd : haywainDenied path a = false) (hkey : isKey a = false) (hl : isLocked s r a = true)
    (hm : m = 0xFFFFFFFF ∨ m &&& r.lkw ≠ 0) (at_ : Nat) (v : Word) : writeAt s path at_ a v m = refuse s path at_ 1 := by
  have hcovered : (isLocked s r a && (m == 0xFFFFFFFF || (m &&& r.lkw) != 0)) = true := by simpa [hl] using hm
  simp only [writeAt, hr, hd, hkey, hcovered, if_true, Bool.false_eq_true, if_false]

/-- RESET_CTL refuses a write with SOFT where KEY holds another value than 0xC0DE. -/
theorem writeAt_softRefused {s : State} (hkey : s.fld F.sysResetCtlKey ≠ 0xC0DE) {v m : Word} (hsoft : (v &&& m).getLsbD 16 = true)
    (path : Path) (at_ : Nat) : writeAt s path at_ A.sysResetCtl v m = refuse s path at_ 1 := by
  obtain ⟨r, hr, hlkw⟩ : ∃ r, findReg A.sysResetCtl = some (r, 0) ∧ r.lkw = 0 := ⟨_, rfl, rfl⟩
  obtain ⟨hk, ht⟩ : isKey A.sysResetCtl = false ∧ isTriggerReg A.sysResetCtl = false := by decide
  have hlocked : isLocked s r A.sysResetCtl = false := by simp [isLocked, hlkw]
  simp only [writeAt, hr, haywainDenied, hk, ht, hlocked, Bool.or_self, Bool.and_false, Bool.false_and, Bool.false_eq_true, if_false,
    if_true, writeResetCtl, hsoft, Bool.not_true, hkey]

theorem aliasBit_lt (a : Nat) : aliasBit a < 32 := by unfold aliasBit; omega

/-- The bit of a locked field meets the bits that the lock covers. -/
theorem two_pow_and_ne_zero {i : Nat} {w : Word} (hi : i < 32) (h : w.getLsbD i = true) : BitVec.ofNat 32 (2 ^ i) &&& w ≠ 0 := by
  intro hzero
  have hbit : (BitVec.ofNat 32 (2 ^ i) &&& w).getLsbD i = false := by rw [hzero]; exact BitVec.getLsbD_zero
  rw [BitVec.getLsbD_and, getLsbD_two_pow, h] at hbit
  simp [hi] at hbit

/-! ### Refused strobes -/

/-- A refused strobe fires STROBE_REFUSED once: what comes before it shows the reason and the blocks. -/
theorem refuseStrobe_fires (s : State) (reason mask : Nat) : ∃ u : State, refuseStrobe s reason mask = raise u 5 ∧ u.src = s.src ∧
    ∀ k : Fin 1024, u.reg (A.evtSrcStat k) = s.reg (A.evtSrcStat k) := by
  refine ⟨_, rfl, by simp, fun k => ?_⟩
  have hne : A.evtSrcStat k ≠ A.sysStrobeStat := by simp only [A.evtSrcStat, A.sysStrobeStat]; omega
  rw [State.reg_setFld_other _ _ _ _ hne, State.reg_setFld_other _ _ _ _ hne]

/-- The strobe in proof taken out of the winnow. -/
def proofTaken (s : State) : State := s.mapScene fun x => { x with inHand := none, proofDep := none }

/-- STROBE_PROOF_DONE of a refused strobe. -/
theorem exec_strobeProofDone_refused {s : State} {named blocks : BitVec 16} {words gcl : SMap Word} {v : Verdict} (hup : s.isUp)
    (hhand : s.scene.inHand = some (.strobe named blocks words gcl, v)) (hbad : v.reason ≠ 0) :
    Leaves .strobeProofDone s (settle (startProof (refuseStrobe (proofTaken s) v.reason.toNat named.toNat))) := by
  have hproved : strobeProved s = settle (startProof (refuseStrobe (proofTaken s) v.reason.toNat named.toNat)) := by
    simp only [strobeProved, hhand, hbad, if_false]
    rfl
  rw [← hproved]
  exact whenUp_up s strobeProved hup

/-- The words of a strobe: the whole shadow state of its blocks (R68). -/
def strobeSet (s : State) (blocks : BitVec 16) : SMap Word := (setBitsBelow 16 blocks.toNat).flatMap (shadowWords s)

/-- STROBE on a path that the module answers. -/
theorem leaves_strobe {s : State} {path : Path} (h : s.takes path) (w : Word) : Leaves (.strobe path w) s (strobe s w) :=
  whenServed_takes h fun s => strobe s w

theorem getLsbD_blocks (w : Word) {i : Nat} (hi : i < 16) : (w.setWidth 16 : BitVec 16).getLsbD i = w.getLsbD i := by
  simp [hi]

/-- A strobe of blocks that need no proof is refused for the first of its checks that fails. -/
theorem strobe_refused {s : State} {w : Word} (hnamed : w.setWidth 16 ≠ (0 : BitVec 16)) (h6 : w.getLsbD 6 = false)
    (h7 : w.getLsbD 7 = false) {x : Verdict}
    (hx : x ∈ (otherOwn s (w.setWidth 16) (strobeView s (strobeSet s (w.setWidth 16)))).head?) :
    strobe s w = refuseStrobe s x.reason.toNat (w.setWidth 16 : BitVec 16).toNat := by
  obtain ⟨rest, hchecks⟩ := List.head?_eq_some_iff.1 hx
  rw [strobeSet] at hchecks
  simp only [strobe, hnamed, if_false, getLsbD_blocks w (show 6 < 16 by decide), h6, getLsbD_blocks w (show 7 < 16 by decide), h7, hchecks]
  rfl

end Sys2Proof.Machine

namespace Sys2Proof.Proofs.RegisterModel

open Sys2Proof.Machine

/-- Settles O14: every form of a locked write is one refusal in `writeAt`, and a refused strobe one `refuseStrobe`. -/
theorem lockAndStrobeEvents : Obligations.LockAndStrobeEvents := by
  refine ⟨by decide, by decide, by decide, by decide, firesLockViolation, fun path addr w s r i hr hlt => ?_,
    fun path addr w s r i hal h4 hdata hr => ?_, fun path w rep s htakes hkey hsoft => exec_softReset_refused htakes hkey hsoft rep,
    refuseStrobe_fires, fun named blocks words gcl v s hup hhand hbad => exec_strobeProofDone_refused hup hhand hbad,
    fun path w s htakes hnamed h6 h7 x hx => strobe_refused hnamed h6 h7 hx ▸ leaves_strobe htakes w⟩
  · have hword := accessWrite_mapped hr hlt s path w
    refine ⟨fun hd => lockedOut_of_refuse (hword.trans (writeAt_denied hr hd ..)),
      fun hd hkey htaken => lockedOut_of_refuse (hword.trans (writeAt_keyTaken hr hd hkey htaken ..)),
      fun hd hkey hl => lockedOut_of_refuse (hword.trans (writeAt_locked hr hd hkey hl (.inl rfl) ..)),
      fun ha hkey hsoft => lockedOut_of_refuse (hword.trans ?_)⟩
    rw [ha]
    exact writeAt_softRefused hkey (by simpa using hsoft) path _
  · have hword := accessWrite_alias hal h4 hdata s path w
    refine ⟨fun hd => lockedOut_of_refuse (hword.trans (writeAt_denied hr hd ..)),
      fun hd hkey htaken => lockedOut_of_refuse (hword.trans (writeAt_keyTaken hr hd hkey htaken ..)),
      fun hd hkey hl hbit => lockedOut_of_refuse (hword.trans
        (writeAt_locked hr hd hkey hl (.inr (two_pow_and_ne_zero (aliasBit_lt _) hbit)) ..)),
      fun ha hbit hkey hw => lockedOut_of_refuse (hword.trans ?_)⟩
    rw [ha, hbit, hw]
    exact writeAt_softRefused hkey (by decide) path _

end Sys2Proof.Proofs.RegisterModel
end

section
/-! PROOFS. The SPI target (spec 03, R63): its transfers are accesses of one word each. -/

namespace Sys2Proof.Machine

/-! ### The SPI target -/

/-- Every path but Haywain is answered whenever the rails are up. -/
theorem takes_spi {s : State} (h : s.isUp) : s.takes .spi := ⟨h, Bool.or_true _⟩

/-- Over Haywain a module held in step 2 does nothing (R388). -/
theorem whenServed_held {s : State} (h : s.pow.started = false) (f : State → State) : whenServed s .haywain f = .next s := by
  have hserves : s.serves .haywain = false := by rw [State.serves, h]; rfl
  simp [whenServed, whenUp, answer, hserves]

/-- The words of a transfer, with the first one in front. -/
theorem spiWords_cons {bs : List Byte} (h : 4 ≤ bs.length) : spiWords bs = leWord bs :: spiWords (bs.drop 4) := by
  have hcount : bs.length / 4 = (bs.drop 4).length / 4 + 1 := by rw [List.length_drop]; omega
  simp only [spiWords, hcount, List.range_succ_eq_map, List.map_cons, List.map_map, List.drop_drop, Nat.mul_zero, List.drop_zero]
  congr 1
  refine List.map_congr_left fun i _ => ?_
  simp only [Function.comp_apply, Nat.mul_succ, Nat.add_comm]

/-- A transfer of fewer than four bytes writes no word. -/
theorem spiWords_short {bs : List Byte} (h : bs.length < 4) : spiWords bs = [] := by
  rw [spiWords, Nat.div_eq_of_lt h]
  rfl

theorem spiWords_one {bs : List Byte} (h : bs.length = 4) : spiWords bs = [leWord bs] := by
  rw [spiWords_cons (by omega), spiWords_short (by rw [List.length_drop]; omega)]

/-- One word stored over SPI is one word written. -/
theorem spiStore_one (inc : Bool) (w : Word) (a : BitVec 24) (s : State) :
    spiStore inc [w] a s = writeWord s .spi (a.setWidth 32) w := by
  rw [spiStore, writeWord]
  cases hreset : (accessWrite s .spi (a.setWidth 32) w).reset with
  | true => exact if_pos rfl
  | false =>
    rw [finishWrite, hreset]
    rfl

/-- A transfer goes on after a word that asks for no reset. -/
theorem spiStore_next {inc : Bool} {w : Word} {ws : List Word} {a : BitVec 24} {s : State}
    (h : (accessWrite s .spi (a.setWidth 32) w).reset = false) :
    spiStore inc (w :: ws) a s = spiStore inc ws (spiNext inc a) (accessWrite s .spi (a.setWidth 32) w).s := by
  rw [spiStore, h]
  rfl

theorem exec_spiWrite_one (addr : BitVec 24) {bytes : List Byte} (h : bytes.length = 4) (s : State) :
    exec (.spiWriteInc addr bytes) s = exec (.regWrite .spi (addr.setWidth 32) (leWord bytes)) s ∧
    exec (.spiWriteFixed addr bytes) s = exec (.regWrite .spi (addr.setWidth 32) (leWord bytes)) s := by
  have hserved : exec (.regWrite .spi (addr.setWidth 32) (leWord bytes)) s =
      whenUp s fun s => writeWord s .spi (addr.setWidth 32) (leWord bytes) := by
    show whenServed s .spi (fun s => writeWord s .spi (addr.setWidth 32) (leWord bytes)) = _
    simp [whenServed, State.serves]
  constructor
  · rw [hserved, ← funext (spiStore_one true (leWord bytes) addr), ← spiWords_one h]
    rfl
  · rw [hserved, ← funext (spiStore_one false (leWord bytes) addr), ← spiWords_one h]
    rfl

theorem exec_spiWrite_short (addr : BitVec 24) {bytes : List Byte} (h : bytes.length < 4) (s : State) :
    exec (.spiWriteInc addr bytes) s = .next s ∧ exec (.spiWriteFixed addr bytes) s = .next s := by
  have hstore (inc : Bool) : (whenUp s fun s => spiStore inc (spiWords bytes) addr s) = .next s := by
    simp [spiWords_short h, spiStore, whenUp, answer]
  exact ⟨hstore true, hstore false⟩

/-- The words that an SPI read brings are four bytes each. -/
theorem spiLoad_length (inc : Bool) (n : Nat) (a : BitVec 24) (s : State) : (spiLoad inc n a s).2.length = 4 * n := by
  induction n generalizing a s with
  | zero => rfl
  | succ n ih =>
    rw [spiLoad]
    simp only [List.length_append, ih, leBytes, List.length_cons, List.length_nil]
    omega

/-- Reads over SPI log nothing of their own and leave device memory as it was. -/
theorem spiLoad_touches (inc : Bool) (n : Nat) (a : BitVec 24) (s : State) :
    TouchesOnly [.free, .regs, .groups, .fault] s (spiLoad inc n a s).1 ∧ (spiLoad inc n a s).1.pending = s.pending :=
  State.touches_of_hide _ rfl fun d => spiLoad_hide (by decide) d inc n a s

/-- A read over SPI answers the dummy bytes and the words, and leaves device memory as it was. -/
theorem ends_spiRead {c : Instr} {s : State} (inc : Bool) (addr : BitVec 24) (count : Nat)
    (hc : ∀ s, exec c s = whenUp s fun s => spiRead s inc addr count) (hup : s.isUp) :
    Ends c s fun t => (∃ bytes, bytes.length = 4 * count ∧ t.out = s.out ++ [.spiData ([0, 0, 0, 0] ++ bytes)]) ∧ SameMemory s t := by
  obtain ⟨htouches, hpending⟩ := spiLoad_touches inc count addr s
  refine ⟨_, (hc s).trans (whenUp_next hup hpending), ⟨_, spiLoad_length inc count addr s, ?_⟩,
    sameMemory_of_parts (htouches .mem (by decide)) (htouches .lost (by decide))⟩
  have hout : (spiLoad inc count addr s).1.out = s.out := htouches .out (by decide)
  simp only [spiRead, State.emit, hout]
  rfl

/-- One word read over SPI. -/
theorem spiRead_one (s : State) (inc : Bool) (addr : BitVec 24) : spiRead s inc addr 1 = (accessRead s .spi (addr.setWidth 32)).1.emit
    (.spiData ([0, 0, 0, 0] ++ leBytes 4 (accessRead s .spi (addr.setWidth 32)).2.1.toNat)) := by
  simp [spiRead, spiLoad, List.replicate]

/-- Any other opcode is ignored. -/
theorem spiTransfer_ignored {op : Byte} (h1 : op ≠ 0x0B) (h2 : op ≠ 0x0D) (h3 : op ≠ 0x02) (h4 : op ≠ 0x0A) (rest : List Byte) :
    spiTransfer (op :: rest) = none := by
  match rest with
  | [] | [_] | [_, _] => rfl
  | a :: b :: c :: rest =>
    have hop {n : Byte} (h : op ≠ n) : op.toNat ≠ n.toNat := fun e => h (BitVec.eq_of_toNat_eq e)
    simp only [spiTransfer]
    split
    · exact absurd ‹_› (hop h1)
    · exact absurd ‹_› (hop h2)
    · exact absurd ‹_› (hop h3)
    · exact absurd ‹_› (hop h4)
    · rfl

end Sys2Proof.Machine

namespace Sys2Proof.Proofs.RegisterModel

open Sys2Proof.Machine

/-- Settles O18: the rows differ in name alone, and a transfer over SPI is such a write for each of its words. -/
theorem oneAccess : Obligations.OneAccess := by
  refine ⟨fun path addr w s htakes => leaves_regWrite htakes addr w, fun path addr w s => ⟨rfl, rfl, rfl, rfl, rfl, rfl⟩,
    fun addr w s hheld => ⟨whenServed_held hheld fun s => writeWord s .haywain addr w,
      whenServed_held hheld fun s => readWord s .haywain addr⟩, fun addr bytes s h => exec_spiWrite_one addr h s,
    fun bytes s hup h => ?_, fun addr bytes s h => exec_spiWrite_short addr h s, fun addr bytes s hup h hreset => ?_⟩
  · obtain ⟨hinc, hfixed⟩ := exec_spiWrite_one 0x14 h s
    have hends {c : Instr} (hc : exec c s = exec (.regWrite .spi 0x14 (leWord bytes)) s) : Ends c s fun t =>
        t.reg A.sysResetCause = s.reg A.sysResetCause &&& ~~~(leWord bytes &&& 0xF) ∧
        SameRegsBut (· = A.sysResetCause) s t ∧ TouchesOnly [.regs] s t :=
      ends_access hc (takes_spi hup) (accessWrite_resetCause s .spi _) rfl rfl
        ⟨State.reg_setReg_self .., fun a ha => State.reg_setReg_other _ _ _ _ ha, touchesOnly_regs rfl⟩
    exact ⟨hends hinc, hends hfixed⟩
  · have hstore (inc : Bool) : spiStore inc (spiWords bytes) addr s = spiStore inc (spiWords (bytes.drop 4)) (spiNext inc addr)
        (accessWrite s .spi (addr.setWidth 32) (leWord bytes)).s := by
      rw [spiWords_cons h, spiStore_next hreset]
    constructor
    · exact hstore true ▸ whenUp_up s (fun s => spiStore true (spiWords bytes) addr s) hup
    · exact hstore false ▸ whenUp_up s (fun s => spiStore false (spiWords bytes) addr s) hup

/-- Settles O19: the words of a transfer are the words that the SPI path reads, and its first byte alone tells the command. -/
theorem spiReads : Obligations.SpiReads := by
  refine ⟨fun addr count s hup => ends_spiRead true addr count (fun _ => rfl) hup,
    fun addr count s hup => ends_spiRead false addr count (fun _ => rfl) hup, fun addr s hup => ⟨?_, ?_⟩,
    fun a b c rest => ⟨rfl, rfl, rfl, rfl⟩, fun op rest h1 h2 h3 h4 => ?_⟩
  · exact spiRead_one s true addr ▸ whenUp_up s (fun s => spiRead s true addr 1) hup
  · show (whenUp s fun s => spiRead s false addr 1) = whenUp s fun s => spiRead s true addr 1
    simp only [spiRead_one]
  · exact spiTransfer_ignored h1 h2 h3 h4 rest

end Sys2Proof.Proofs.RegisterModel
end

section
/-! PROOFS. What a command can touch (spec 01, R22; spec 03, R61, R65): its meaning is an operation, or a few in a row, of which the
frame lemmas say what they leave as it was, and the parts that they name lie in the command's footprint. -/

namespace Sys2Proof.Machine

/-! ### Frames of compositions -/

theorem State.hide_ite_of {m : Nat} {d s a b : State} {c : Prop} [Decidable c] (ha : a.hide m d = s.hide m d)
    (hb : b.hide m d = s.hide m d) : (if c then a else b).hide m d = s.hide m d := by
  split
  · exact ha
  · exact hb

/-- What is done only under a condition. -/
theorem State.hide_when {m : Nat} {d s a : State} {c : Prop} [Decidable c] (ha : a.hide m d = s.hide m d) :
    (if c then a else s).hide m d = s.hide m d :=
  State.hide_ite_of ha rfl

/-! ### Answers within a list of parts -/

/-- An answer leaves every part outside a list as it was. -/
def AnswerWithin (l : List Part) (s : State) (a : Answer) : Prop := ∀ t, a = .next t → TouchesOnly l s t

theorem within_all (s : State) (a : Answer) : AnswerWithin Part.all s a := fun _ _ p hp => by
  cases p <;> exact absurd (by decide) hp

variable {l : List Part} {s : State} {f : State → State}

theorem within_answer {t : State} (h : ∀ d, t.hide (Part.mask l) d = s.hide (Part.mask l) d) : AnswerWithin l s (answer s t) := by
  intro u hu
  cases hu
  obtain ⟨htouches, hpending⟩ := State.touches_of_hide l rfl h
  rwa [← hpending]

/-- A command of a powered module touches what its operation touches. -/
theorem within_whenUp (h : ∀ d s, (f s).hide (Part.mask l) d = s.hide (Part.mask l) d) : AnswerWithin l s (whenUp s f) :=
  within_answer fun d => State.hide_when (h d s)

theorem within_whenServed {path : Path} (h : ∀ d s, (f s).hide (Part.mask l) d = s.hide (Part.mask l) d) :
    AnswerWithin l s (whenServed s path f) :=
  within_whenUp fun d s => State.hide_when (h d s)

theorem within_whenStarted (h : ∀ d s, (f s).hide (Part.mask l) d = s.hide (Part.mask l) d) : AnswerWithin l s (whenStarted s f) :=
  within_whenUp fun d s => State.hide_when (h d s)

/-- Every command touches its footprint alone. -/
theorem exec_within (c : Instr) (s : State) : AnswerWithin (footprint c) s (exec c s) := by
  unfold exec
  cases c with dsimp only [footprint]
  | powerGood _ | resetN _ | softReset _ _ _ | regWrite _ _ _ | counterClear _ _ | aliasWrite _ _ _ | writeLo _ _ _ | writeHi _ _ _
  | indexWrite _ _ _ | dataWrite _ _ _ | spiWriteInc _ _ | spiWriteFixed _ _ | regWr _ _ _ _ _ _ =>
    exact within_all _ _
  | podlClassified _ _ _ => exact within_answer fun _ => classify_hide rfl ..
  | lineLoss => exact within_whenUp fun _ _ => loseLine_hide rfl ..
  | tempSample _ => exact within_whenUp fun _ _ => tempSample_hide rfl ..
  | vbusOvercurrent => exact within_whenUp fun _ _ => State.hide_when (openVbus_hide rfl ..)
  | vbusRetry _ => exact within_whenUp fun _ _ => vbusRetry_hide rfl ..
  | dataRead _ _ => exact within_whenServed fun _ _ => readWord_hide rfl ..
  | spiReadInc _ _ | spiReadFixed _ _ => exact within_whenUp fun _ _ => spiRead_hide rfl ..
  | strobe _ _ => exact within_whenServed fun _ _ => strobe_hide rfl ..
  | strobeProofDone => exact within_whenUp fun _ _ => strobeProved_hide rfl ..
  | openSession _ _ => exact within_whenUp fun _ _ => openFrame_hide rfl ..
  | openTimeout => exact within_whenUp fun _ _ => openTimeout_hide rfl ..
  | close _ =>
    exact within_whenUp fun _ _ =>
      receive_hide rfl _ _ _ _ _ _ _ fun _ => (settle_hide rfl ..).trans ((closeSession_hide rfl ..).trans (sendAck_hide rfl ..))
  | sessionCloseReg _ => exact within_whenServed fun _ _ => (settle_hide rfl ..).trans (closeSession_hide rfl ..)
  | ack _ => exact within_whenUp fun _ _ => receive_hide rfl _ _ _ _ _ _ _ fun _ => rfl
  | keepalive _ => exact within_whenUp fun _ _ => receive_hide rfl _ _ _ _ _ _ _ fun _ => settle_hide rfl ..
  | ackDue => exact within_whenUp fun _ _ => State.hide_when (sendAck_hide rfl ..)
  | keepaliveTimer => exact within_whenUp fun _ _ => keepaliveDue_hide rfl ..
  | retxTimeout => exact within_whenUp fun _ _ => retxTimeout_hide rfl ..
  | linkDown _ => exact within_whenUp fun _ _ => linkDown_hide rfl ..
  | linkUp _ _ => exact within_whenUp fun _ _ => State.hide_when (linkUp_hide rfl ..)
  | linkSleepRequest _ => exact within_whenUp fun _ _ => sleepRequest_hide rfl ..
  | linkWakeup _ => exact within_whenUp fun _ _ => partnerWakes_hide rfl ..
  | linkWakeRequest _ _ => exact within_whenServed fun _ _ => wakeAsked_hide rfl ..
  | arpRequest _ _ _ _ _ | neighbourSolicitation _ _ _ _ _ =>
    exact within_whenStarted fun _ _ => State.hide_when (answerAddress_hide rfl ..)
  | doorbellSubmit _ _ _ _ | doorbellCplCi _ _ _ _ | doorbellPrecCi _ _ _ _ | doorbellEqCi _ _ _ _ =>
    exact within_whenUp fun _ _ => doorbell_hide rfl ..
  | ringPoll _ => exact within_whenUp fun _ _ => pollRing_hide rfl ..
  | readResp _ _ _ _ => exact within_whenUp fun _ _ => readResponse_hide rfl ..
  | regRd _ _ _ _ _ => exact within_whenUp fun _ _ => receive_hide rfl _ _ _ _ _ _ _ fun _ => regRead_hide rfl ..
  | ringRun _ _ => exact within_whenServed fun _ _ => startRing_hide rfl ..
  | ringStop _ _ => exact within_whenServed fun _ _ => stopRing_hide rfl ..
  | ringReset _ _ => exact within_whenServed fun _ _ => resetRing_hide rfl ..
  | ringResume _ _ => exact within_whenServed fun _ _ => resumeRing_hide rfl ..
  | precEnable _ _ _ => exact within_whenServed fun _ _ => enablePrec_hide rfl ..
  | nop _ _ _ | jump _ _ _ | layerWords _ _ _ | layerBlock _ _ _ | objWords _ _ _ | objBlock _ _ _ | lutLoad _ _ _
  | matrix _ _ _ | loftLoad _ _ _ | fenceAcq _ _ _ | commit _ _ _ | copy _ _ _ | fill _ _ _ | write32 _ _ _ =>
    exact within_whenUp fun _ _ => arrive_hide rfl ..
  | winnowProofEnd =>
    exact within_whenUp fun _ _ => (settle_hide rfl ..).trans ((readmitIdle_hide rfl ..).trans (sceneProved_hide rfl ..))
  | dmaDescDone _ _ => exact within_whenUp fun _ _ => (settle_hide rfl ..).trans (dmaDone_hide rfl ..)
  | triggerTimer _ => exact within_whenUp fun _ _ => State.hide_when ((serveRuns_hide rfl ..).trans (triggerChan_hide rfl ..))
  | engineHalt => exact within_whenUp fun _ _ => (settle_hide rfl ..).trans (engineHalt_hide rfl ..)
  | engineRestart _ =>
    exact within_whenServed fun _ _ =>
      (settle_hide rfl ..).trans ((State.each_hide _ _ _ _ _ fun _ _ => startDma_hide rfl ..).trans (restartEngine_hide rfl ..))
  | scanGo _ _ => exact within_whenServed fun _ _ => scanGo_hide rfl ..
  | scanStop _ _ => exact within_whenServed fun _ _ => scanStop_hide rfl ..
  | scanDone _ _ => exact within_whenUp fun _ _ => scanDone_hide rfl ..
  | frameStart _ _ => exact within_whenUp fun _ _ => frameStart_hide rfl ..
  | commitDeadline _ => exact within_whenUp fun _ _ => commitDeadline_hide rfl ..
  | fencePoll => exact within_whenUp fun _ _ => (settle_hide rfl ..).trans (fencePoll_hide rfl ..)
  | linePositionStep _ _ => exact within_whenUp fun _ _ => lineStep_hide rfl ..
  | lastBaleFetched _ => exact within_whenUp fun _ _ => (settle_hide rfl ..).trans (lastBale_hide rfl ..)
  | loftLoadDone _ => exact within_whenUp fun _ _ => loadDone_hide rfl ..
  | eccUncorrectable _ _ => exact within_whenUp fun _ _ => eccError_hide rfl ..
  | eccRereadDone _ _ => exact within_whenUp fun _ _ => rereadDone_hide rfl ..
  | unitFailure _ _ => exact within_whenUp fun _ _ => unitFailure_hide rfl ..
  | mcRecoveryDone => exact within_whenUp fun _ _ => mcRecovered_hide rfl ..
  | reproofDone => exact within_whenUp fun _ _ => (settle_hide rfl ..).trans (reproofDone_hide rfl ..)
  | linkRecoveryDone _ => exact within_whenUp fun _ _ => State.hide_when (linkRecovered_hide rfl ..)
  | retirementRecord => exact within_whenUp fun _ _ => issueRetirement_hide rfl ..
  | rrecConsume _ _ => exact within_whenServed fun _ _ => consumeRecords_hide rfl ..
  | rrecEnable _ _ => exact within_whenServed fun _ _ => enableRecords_hide rfl ..
  | retestGo _ _ => exact within_whenServed fun _ _ => retestWrite_hide rfl ..
  | retestDone _ => exact within_whenUp fun _ _ => retestEnds_hide rfl ..
  | rotationSwap => exact within_whenUp fun _ _ => (settle_hide rfl ..).trans (rotationSwap_hide rfl ..)
  | lbistResult _ => exact within_whenUp fun _ _ => (settle_hide rfl ..).trans (lbistResult_hide rfl ..)
  | rotationLate _ => exact within_whenUp fun _ _ => rotationLate_hide rfl ..
  | pllLocked _ => exact within_whenUp fun _ _ => State.hide_when (pllLocked_hide rfl ..)
  | pllLockTimeout _ => exact within_whenUp fun _ _ => pllLockTimeout_hide rfl ..
  | teEdge _ => exact within_whenUp fun _ _ => teEdge_hide rfl ..
  | teMissing _ => exact within_whenUp fun _ _ => teMissing_hide rfl ..
  | camLockLost _ => exact within_whenUp fun _ _ => camLockLost_hide rfl ..
  | hpdHigh _ _ => exact within_whenUp fun _ _ => hpdHigh_hide rfl ..
  | hpdLowTimeout _ | hpdPulse _ _ | hpdWaitTimeout _ =>
    exact within_whenUp fun _ _ => State.hide_when ((settle_hide rfl ..).trans (unitFails_hide rfl ..))
  | linkReady _ => exact within_whenUp fun _ _ => groupReady_hide rfl ..
  | pktGo _ _ => exact within_whenServed fun _ _ => packetGo_hide rfl ..
  | pktDone _ _ _ => exact within_whenStarted fun _ _ => packetEnds_hide rfl ..
  | pktDataPush _ _ _ => exact within_whenServed fun _ _ => packetPush_hide rfl ..
  | pktDataPop _ _ => exact within_whenServed fun _ _ => (State.emit_hide rfl ..).trans (packetPop_hide rfl ..)
  | camFrameStart _ => exact within_whenUp fun _ _ => camFrameStart_hide rfl ..
  | camLine _ _ _ _ => exact within_whenUp fun _ _ => camLineIn_hide rfl ..
  | camLineWritten _ =>
    exact within_whenUp fun _ _ => (State.each_hide _ _ _ _ _ fun _ _ => fetchAhead_hide rfl ..).trans (camWritten_hide rfl ..)
  | camFrameEnd _ => exact within_whenUp fun _ _ => State.hide_when (camClose_hide rfl ..)
  | ptpSync _ _ _ => exact within_whenUp fun _ _ => State.hide_when (ptpSync_hide rfl ..)
  | ptpPdelayReq _ _ => exact within_whenUp fun _ _ => State.hide_when (State.emit_hide rfl ..)
  | ptpPdelayTimer | wakePulseEnd => exact within_whenUp fun _ _ => State.hide_when ((State.emit_hide rfl ..).trans (rfl))
  | ptpPdelayResp _ _ _ => exact within_whenUp fun _ _ => State.hide_when (rfl)
  | timeHoldover => exact within_whenUp fun _ _ => holdOver_hide rfl ..
  | zoneUpdate _ => exact within_whenUp fun _ _ => zoneUpdate_hide rfl ..
  | blinkPhase _ => exact within_whenUp fun _ _ => blinkStep_hide rfl ..
  | bulbCheckEnd => exact within_whenUp fun _ _ => State.hide_when ((refreshTelltales_hide rfl ..).trans (rfl))
  | ttOpenLoad _ => exact within_whenUp fun _ _ => State.hide_when (setTtFault_hide rfl ..)
  | ttOffTest _ _ => exact within_whenUp fun _ _ => State.hide_when (State.hide_ite_of (setTtFault_hide rfl ..) (ttPass_hide rfl ..))
  | ttShort _ =>
    exact within_whenUp fun _ _ =>
      State.hide_when ((refreshTelltales_hide rfl ..).trans ((setTtFault_hide rfl ..).trans (State.setTt_hide rfl ..)))
  | ttShortRetry _ _ =>
    exact within_whenUp fun _ _ =>
      State.hide_when (State.hide_ite_of (State.hide_ite_of ((setTtFault_hide rfl ..).trans (State.setTt_hide rfl ..))
        (State.setTt_hide rfl ..)) (ttPass_hide rfl ..))
  | canFrameReceived _ _ _ _ _ =>
    exact within_whenUp fun _ _ =>
      State.hide_when ((refreshTelltales_hide rfl ..).trans (State.each_hide _ _ _ _ _ fun _ _ => entryReceives_hide rfl ..))
  | mapperTimeout _ =>
    exact within_whenUp fun _ _ =>
      State.hide_when ((raise_hide rfl ..).trans ((refreshTelltales_hide rfl ..).trans (State.setMapEntry_hide rfl ..)))
  | canStatusTx _ => exact within_whenStarted fun _ _ => State.hide_when (State.emit_hide rfl ..)
  | busOff _ => exact within_whenUp fun _ _ => State.hide_when ((raise_hide rfl ..).trans (State.setFld_hide rfl ..))
  | snsChange _ _ => exact within_answer fun _ => sensePin_hide rfl ..
  | eventOccurrence _ _ => exact within_whenUp fun _ _ => occur_hide rfl ..
  | resample _ => exact within_whenUp fun _ _ => resample_hide rfl ..
  | eventRecordIssue =>
    exact within_whenUp fun _ _ => by
      split
      · exact issueRecord_hide rfl ..
      · rfl
  | sourceComplete _ _ => exact within_whenServed fun _ _ => completeSource_hide rfl ..
  | sourceMask _ _ _ => exact within_whenServed fun _ _ => maskSource_hide rfl ..
  | queueSleep _ _ => exact within_whenServed fun _ _ => sleepQueue_hide rfl ..
  | queueAwake _ _ => exact within_whenServed fun _ _ => awakeQueue_hide rfl ..
  | qmaskClear _ _ => exact within_whenServed fun _ _ => writeQmask_hide rfl ..
  | spiFlagClear _ _ => exact within_whenServed fun _ _ => clearSpi_hide rfl ..
  | rawFlush _ => exact within_whenServed fun _ _ => rawFlush_hide rfl ..
  | rawErase _ => exact within_whenServed fun _ _ => rawErase_hide rfl ..
  | rawDone _ => exact within_whenUp fun _ _ => finishRaw_hide rfl ..
  | journalWrite _ => exact within_whenServed fun _ _ => journalGo_hide rfl ..
  | jwDone => exact within_whenUp fun _ _ => finishJob_hide rfl ..
  | journalRead _ => exact within_whenServed fun _ _ => journalRead_hide rfl ..
  | jrDone => exact within_whenUp fun _ _ => finishRead_hide rfl ..
  | gleanerRun => exact within_whenUp fun _ _ => gleanerRun_hide rfl ..
  | sectorRetired _ _ => exact within_whenUp fun _ _ => sectorFailed_hide rfl ..
  | faultSummaryWrite => exact within_whenUp fun _ _ => State.hide_when (State.mapBarn_hide rfl ..)
  | perfStart _ => exact within_whenServed fun _ _ => startWindows_hide rfl ..
  | perfStop _ => exact within_whenServed fun _ _ => stopWindows_hide rfl ..
  | perfWindowEnd => exact within_whenUp fun _ _ => windowTimeUp_hide rfl ..
  | pwmPeriodBoundary => exact within_whenUp fun _ _ => rfl
  | busOffRecovery _ | canBusError _ _ _ =>
    exact within_whenUp fun _ _ =>
      State.hide_when ((State.setFld_hide rfl ..).trans ((State.setFld_hide rfl ..).trans (State.setFld_hide rfl ..)))
  | ttCheckPass _ => exact within_whenUp fun _ _ => State.hide_when (ttPass_hide rfl ..)
  | sectorEraseDone _ => exact within_whenUp fun _ _ => sectorErased_hide rfl ..

end Sys2Proof.Machine

namespace Sys2Proof.Proofs.RegisterModel

open Sys2Proof.Machine

/-- Settles O60: each command is a few operations, and the parts that these name lie in its footprint. -/
theorem blockFrames : Obligations.BlockFrames :=
  ⟨fun c s t h => exec_within c s t h, fun s => (State.touches_of_hide Part.settled rfl fun d => settle_hide rfl d s).1⟩

end Sys2Proof.Proofs.RegisterModel
end

section
/-! PROOFS. The shadow state of a block (spec 03, R67, R68): a strobe's words are the shadow copies of its blocks, and applying them gives
every shadowed bit of the registers named. -/

namespace Sys2Proof.Machine

/-! ### Tables -/

/-- The addresses of a set of words. -/
def wordKeys (ws : SMap Word) : List Nat := ws.map fun e => e.1

theorem mem_wordKeys {ws : SMap Word} {a : Nat} : a ∈ wordKeys ws ↔ ∃ w, (a, w) ∈ ws := by
  simp [wordKeys]

theorem smFind_of_not_mem {m : SMap Word} {a : Nat} (h : a ∉ wordKeys m) : smFind m a = none := by
  induction m with
  | nil => rfl
  | cons e m ih =>
    simp only [wordKeys, List.map_cons, List.mem_cons, not_or] at h
    rw [smFind, if_neg (Ne.symm h.1)]
    exact ih h.2

theorem smFind_of_nodup {m : SMap Word} (h : (wordKeys m).Nodup) {e : Nat × Word} (he : e ∈ m) : smFind m e.1 = some e.2 := by
  induction m with
  | nil => cases he
  | cons x m ih =>
    obtain ⟨hx, hm⟩ := List.nodup_cons.1 h
    rcases List.mem_cons.1 he with rfl | he
    · exact if_pos rfl
    · have hne : x.1 ≠ e.1 := fun heq => hx (List.mem_map.2 ⟨e, he, heq.symm⟩)
      rw [smFind, if_neg hne]
      exact ih hm he

theorem mem_smPut_self (m : SMap Word) (a : Nat) (w : Word) : (a, w) ∈ smPut m a w := by
  induction m with
  | nil => exact List.mem_singleton.2 rfl
  | cons x m ih =>
    rw [smPut]
    split
    · exact List.mem_cons_self
    · split
      · exact List.mem_cons_self
      · exact List.mem_cons_of_mem _ ih

theorem mem_wordKeys_smPut {m : SMap Word} {a b : Nat} {w : Word} (h : b ∈ wordKeys m) : b ∈ wordKeys (smPut m a w) := by
  induction m with
  | nil => cases h
  | cons x m ih =>
    simp only [wordKeys, List.map_cons, List.mem_cons] at h
    rw [smPut]
    split
    · next heq => simpa [wordKeys, heq] using h
    · split
      · simpa [wordKeys] using Or.inr h
      · exact h.elim (fun h => h ▸ List.mem_cons_self) fun h => List.mem_cons_of_mem _ (ih h)

/-- A table filled with a function's values at some keys holds these values alone. -/
theorem mem_putAll {f : Nat → Word} {keys : List Nat} {m : SMap Word} {e : Nat × Word}
    (h : e ∈ keys.foldl (fun m a => smPut m a (f a)) m) : (e.1 ∈ keys ∧ e.2 = f e.1) ∨ e ∈ m := by
  induction keys generalizing m with
  | nil => exact .inr h
  | cons a keys ih =>
    rcases ih h with ⟨hmem, hval⟩ | hput
    · exact .inl ⟨List.mem_cons_of_mem _ hmem, hval⟩
    · rcases smMem_put hput with rfl | hold
      · exact .inl ⟨List.mem_cons_self, rfl⟩
      · exact .inr hold

theorem mem_wordKeys_putAll {f : Nat → Word} {keys : List Nat} {m : SMap Word} {a : Nat} (h : a ∈ keys ∨ a ∈ wordKeys m) :
    a ∈ wordKeys (keys.foldl (fun m a => smPut m a (f a)) m) := by
  induction keys generalizing m with
  | nil => exact h.resolve_left List.not_mem_nil
  | cons b keys ih =>
    refine ih ?_
    rcases h with h | h
    · rcases List.mem_cons.1 h with rfl | h
      · exact .inr (List.mem_map_of_mem (mem_smPut_self m a (f a)))
      · exact .inl h
    · exact .inr (mem_wordKeys_smPut h)

/-! ### Shadow words -/

theorem of_mem_shadowWords {s : State} {b : Nat} {e : Nat × Word} (h : e ∈ shadowWords s b) :
    e.1 ∈ blockKeys s b ∧ e.2 = activeMerge s e.1 (s.shadowReg e.1) :=
  (mem_putAll (f := fun a => activeMerge s a (s.shadowReg a)) h).resolve_right List.not_mem_nil

theorem block_of_mem_blockKeys {s : State} {a b : Nat} (h : a ∈ blockKeys s b) : a / 0x10000 = b := by
  rw [blockKeys, List.mem_eraseDups, List.mem_filter] at h
  exact beq_iff_eq.1 (Bool.and_eq_true_iff.1 h.2).1

/-- A register whose shadowed bits differ from the active ones is in the shadow set of its block. -/
theorem mem_blockKeys_of_ne {s : State} {a : Nat} (hsrw : srwMask a ≠ 0) (hne : s.reg a ≠ s.shadowReg a) :
    a ∈ blockKeys s (a / 0x10000) := by
  rw [blockKeys, List.mem_eraseDups, List.mem_filter]
  refine ⟨?_, Bool.and_eq_true_iff.2 ⟨beq_self_eq_true _, bne_iff_ne.2 hsrw⟩⟩
  by_contra hmem
  simp only [List.map_append, List.mem_append, not_or] at hmem
  obtain ⟨⟨⟨hlive, hshadow⟩, -⟩, -⟩ := hmem
  exact hne (by rw [State.reg, State.shadowReg, smGet, smGet, smFind_of_not_mem hlive, smFind_of_not_mem hshadow])

/-- A word of a strobe is the shadow state of a register of one of its blocks. -/
theorem of_mem_strobeSet {s : State} {blocks : BitVec 16} {e : Nat × Word} (h : e ∈ strobeSet s blocks) :
    blocks.getLsbD (e.1 / 0x10000) = true ∧ e.2 = activeMerge s e.1 (s.shadowReg e.1) := by
  obtain ⟨b, hb, he⟩ := List.mem_flatMap.1 h
  obtain ⟨hkey, hval⟩ := of_mem_shadowWords he
  rw [block_of_mem_blockKeys hkey]
  exact ⟨(List.mem_filter.1 hb).2, hval⟩

theorem mem_wordKeys_strobeSet {s : State} {blocks : BitVec 16} {a : Nat} (hblock : blocks.getLsbD (a / 0x10000) = true)
    (hsrw : srwMask a ≠ 0) (hne : s.reg a ≠ s.shadowReg a) : a ∈ wordKeys (strobeSet s blocks) := by
  have hkey := mem_wordKeys_putAll (f := fun a => activeMerge s a (s.shadowReg a)) (m := []) (.inl (mem_blockKeys_of_ne hsrw hne))
  obtain ⟨w, hw⟩ := mem_wordKeys.1 hkey
  have hlt : a / 0x10000 < 16 := BitVec.lt_of_getLsbD hblock
  exact mem_wordKeys.2 ⟨w, List.mem_flatMap.2 ⟨_, List.mem_filter.2 ⟨List.mem_range.2 hlt, hblock⟩, hw⟩⟩

/-! ### Words take force -/

/-- A word with some bits taken from another. -/
def takeBits (w v m : Word) : Word := (w &&& ~~~m) ||| (v &&& m)

theorem takeBits_takeBits (w v m : Word) : takeBits (takeBits w v m) v m = takeBits w v m := by
  ext i hi
  simp only [takeBits, BitVec.getElem_or, BitVec.getElem_and, BitVec.getElem_not]
  cases m[i] <;> simp

theorem takeBits_and (w v m : Word) : takeBits w v m &&& m = v &&& m := by
  ext i hi
  simp only [takeBits, BitVec.getElem_or, BitVec.getElem_and, BitVec.getElem_not]
  cases m[i] <;> simp

theorem takeBits_of_and_eq {w v m : Word} (h : w &&& m = v &&& m) : takeBits w v m = w := by
  rw [takeBits, ← h]
  ext i hi
  simp only [BitVec.getElem_or, BitVec.getElem_and, BitVec.getElem_not]
  cases m[i] <;> simp

theorem takeBits_congr {w v u m : Word} (h : v &&& m = u &&& m) : takeBits w v m = takeBits w u m := by
  rw [takeBits, takeBits, h]

theorem activeMerge_eq (s : State) (a : Nat) (w : Word) : activeMerge s a w = takeBits (s.reg a) w (srwMask a) := rfl

/-- A register after words whose shadowed bits are those of a function: taken from it where the words name the register. -/
theorem applyWords_reg {ws : SMap Word} {f : Nat → Word} (hws : ∀ e ∈ ws, e.2 &&& srwMask e.1 = f e.1 &&& srwMask e.1) (s : State)
    (a : Nat) : (applyWords s ws).reg a = if a ∈ wordKeys ws then takeBits (s.reg a) (f a) (srwMask a) else s.reg a := by
  induction ws generalizing s with
  | nil => rfl
  | cons e ws ih =>
    have hstep := ih (fun x hx => hws x (List.mem_cons_of_mem _ hx)) (s.setReg e.1 (activeMerge s e.1 e.2))
    have hunfold : applyWords s (e :: ws) = applyWords (s.setReg e.1 (activeMerge s e.1 e.2)) ws := rfl
    rw [hunfold, hstep]
    by_cases ha : a = e.1
    · subst ha
      have hself : (s.setReg e.1 (activeMerge s e.1 e.2)).reg e.1 = takeBits (s.reg e.1) (f e.1) (srwMask e.1) := by
        rw [State.reg_setReg_self, activeMerge_eq, takeBits_congr (hws e List.mem_cons_self)]
      rw [hself, takeBits_takeBits, ite_self]
      exact (if_pos List.mem_cons_self).symm
    · rw [State.reg_setReg_other _ _ _ _ ha]
      exact if_congr (by simp [wordKeys, ha]) rfl rfl

theorem applyWords_besideLive (s : State) (ws : SMap Word) : (applyWords s ws).regs.besideLive = s.regs.besideLive :=
  State.each_keeps (fun s => s.regs.besideLive) s ws _ fun _ _ => rfl

/-- The words of a strobe take force: every shadowed bit of its blocks takes its shadow bit. -/
theorem applyWords_strobeSet_reg {s t : State} {blocks : BitVec 16} (h : ∀ a, t.reg a = s.reg a) (a : Nat) :
    (applyWords t (strobeSet s blocks)).reg a =
      if blocks.getLsbD (a / 0x10000) then takeBits (s.reg a) (s.shadowReg a) (srwMask a) else s.reg a := by
  have hval : ∀ e ∈ strobeSet s blocks, e.2 &&& srwMask e.1 = s.shadowReg e.1 &&& srwMask e.1 := fun e he => by
    rw [(of_mem_strobeSet he).2, activeMerge_eq, takeBits_and]
  rw [applyWords_reg hval, h]
  by_cases hmem : a ∈ wordKeys (strobeSet s blocks)
  · obtain ⟨w, hw⟩ := mem_wordKeys.1 hmem
    rw [if_pos hmem, if_pos (of_mem_strobeSet hw).1]
  · rw [if_neg hmem]
    split
    · next hblock =>
      refine (takeBits_of_and_eq ?_).symm
      by_cases hsrw : srwMask a = 0
      · rw [hsrw]; exact BitVec.and_zero.trans BitVec.and_zero.symm
      · rw [not_not.1 fun hne => hmem (mem_wordKeys_strobeSet hblock hsrw hne)]
    · rfl

end Sys2Proof.Machine
end

section
/-! PROOFS. What events leave of the registers: outside block EVT all of them, and in EVT what has a shadow copy; they write status
registers of EVT alone, and these have none. -/

namespace Sys2Proof.Machine

/-! ### Registers through a mask -/

/-- The registers through a mask of bits, and the register file beside the live copy. -/
def State.seen (s : State) (M : Nat → Word) : (Nat → Word) × RegFile := (fun a => s.reg a &&& M a, s.regs.besideLive)

variable {M : Nat → Word} {s t : State}

theorem State.seen_of_regs (h : t.regs = s.regs) : t.seen M = s.seen M := by
  rw [State.seen, State.seen, h]
  exact congrArg (·, _) (funext fun a => congrArg (· &&& M a) (State.reg_congr h a))

/-- An operation that leaves the part of the registers leaves the register file. -/
theorem State.regs_of_hide {m : Nat} (hm : m.testBit 1 = false) (h : t.hide m s = s.hide m s) : t.regs = s.regs := by
  have hregs := congrArg State.regs h
  simpa only [State.hide, hm, Bool.false_eq_true, if_false] using hregs

theorem State.seen_of_hide {m : Nat} (hm : m.testBit 1 = false) (h : t.hide m s = s.hide m s) : t.seen M = s.seen M :=
  State.seen_of_regs (State.regs_of_hide hm h)

theorem State.seen_setReg {a : Nat} (h : M a = 0) (s : State) (w : Word) : (s.setReg a w).seen M = s.seen M := by
  refine congrArg (·, s.regs.besideLive) (funext fun b => ?_)
  by_cases hb : b = a
  · rw [hb, h]
    exact BitVec.and_zero.trans BitVec.and_zero.symm
  · rw [State.reg_setReg_other _ _ _ _ hb]

theorem State.seen_setFld {f : Fld} (h : M f.addr = 0) (s : State) (v : Nat) : (s.setFld f v).seen M = s.seen M :=
  State.seen_setReg h ..

theorem State.seen_addFld {f : Fld} (h : M f.addr = 0) (s : State) (d : Nat) : (s.addFld f d).seen M = s.seen M :=
  State.seen_setReg h ..

/-- What is done only under a condition. -/
theorem State.seen_when {c : Prop} [Decidable c] (h : c → t.seen M = s.seen M) : (if c then t else s).seen M = s.seen M := by
  split
  · next hc => exact h hc
  · rfl

theorem State.seen_ite {u : State} {c : Prop} [Decidable c] (ht : t.seen M = s.seen M) (hu : u.seen M = s.seen M) :
    (if c then t else u).seen M = s.seen M := by
  split
  · exact ht
  · exact hu

theorem State.seen_each {α : Type} {l : List α} {f : State → α → State} (h : ∀ s, ∀ x ∈ l, (f s x).seen M = s.seen M) (s : State) :
    (s.each l f).seen M = s.seen M := by
  induction l generalizing s with
  | nil => rfl
  | cons x l ih => exact (ih (fun s y hy => h s y (List.mem_cons_of_mem x hy)) (f s x)).trans (h s x List.mem_cons_self)

theorem State.reg_of_seen (h : t.seen M = s.seen M) (a : Nat) : t.reg a &&& M a = s.reg a &&& M a := congrFun (congrArg Prod.fst h) a

theorem State.besideLive_of_seen (h : t.seen M = s.seen M) : t.regs.besideLive = s.regs.besideLive := congrArg Prod.snd h

/-! ### Registers of EVT without a shadow copy -/

/-- A mask leaves out the registers of EVT that have no shadow copy. -/
def SparesStatus (M : Nat → Word) : Prop := ∀ a, a / 0x10000 = 10 → srwMask a = 0 → M a = 0

theorem sparesStatus_srwMask : SparesStatus srwMask := fun _ _ h => h

/-- A register of a row lies at its base and whole strides. -/
theorem RegRow.instanceAt_mod {r : RegRow} {a i n : Nat} (h : r.instanceAt a = some i) (hinner : r.inner ≤ 1) (hbase : n ∣ r.base)
    (hstride : n ∣ r.stride) : n ∣ a := by
  unfold RegRow.instanceAt at h
  split at h
  · cases h
  · next hle =>
    have hoff : r.base + (a - r.base) = a := by omega
    rw [← hoff]
    refine (Nat.dvd_add_right hbase).2 ?_
    dsimp only at h
    split at h
    · split at h
      · next hzero => exact hzero ▸ Nat.dvd_zero n
      · cases h
    · split at h
      · next hmod => exact hstride.trans (Nat.dvd_of_mod_eq_zero hmod.1)
      · cases h

/-- The registers of EVT with a shadow copy lie at multiples of 8. -/
theorem srwMask_of_not_dvd {a : Nat} (hblock : a / 0x10000 = 10) (ha : ¬8 ∣ a) : srwMask a = 0 := by
  have hrows : ∀ r ∈ blockRows 10, r.srw = 0 ∨ (r.inner ≤ 1 ∧ 8 ∣ r.base ∧ 8 ∣ r.stride) := by decide
  unfold srwMask
  split
  · next r i hr =>
    rw [findReg] at hr
    split at hr
    · obtain ⟨hmem, hat⟩ := findIn_mem hr
      refine (hrows r (hblock ▸ hmem)).resolve_right fun ⟨hinner, hbase, hstride⟩ => ha ?_
      exact RegRow.instanceAt_mod hat hinner hbase hstride
    · cases hr
  · rfl

theorem mem_knownSources {s : State} {k : Nat} (h : k ∈ knownSources s) : k < 1024 := by
  obtain ⟨e, -, he⟩ := List.mem_filterMap.1 h
  split at he
  · next hrange =>
    cases he
    simp only [Bool.and_eq_true] at hrange
    have hle := of_decide_eq_true hrange.1.2
    simp only [A.evtSrcStat] at hle ⊢
    omega
  · cases he

section
variable (hM : SparesStatus M)
include hM

theorem SparesStatus.srcStat {k : Nat} (hk : k < 1024) : M (A.evtSrcStat k) = 0 := by
  have hblock : A.evtSrcStat k / 0x10000 = 10 := by unfold A.evtSrcStat; omega
  exact hM _ hblock (srwMask_of_not_dvd hblock (by unfold A.evtSrcStat; omega))

theorem SparesStatus.queue {q : Nat} (hq : q < 8) : M (A.evtQctl q) = 0 ∧ M (A.evtQpi q) = 0 ∧ M (A.evtHostCi q) = 0 := by
  have hall : ∀ q : Fin 8, (A.evtQctl q / 0x10000 = 10 ∧ srwMask (A.evtQctl q) = 0) ∧
      (A.evtQpi q / 0x10000 = 10 ∧ srwMask (A.evtQpi q) = 0) ∧ A.evtHostCi q / 0x10000 = 10 ∧ srwMask (A.evtHostCi q) = 0 := by
    decide +kernel
  obtain ⟨⟨hctl, hctl'⟩, ⟨hpi, hpi'⟩, hci, hci'⟩ := hall ⟨q, hq⟩
  exact ⟨hM _ hctl hctl', hM _ hpi hpi', hM _ hci hci'⟩

theorem SparesStatus.saturations : M A.evtSaturations = 0 := hM _ (by decide) (by decide +kernel)

theorem SparesStatus.linkSleep : M A.evtLinkSleep = 0 := hM _ (by decide) (by decide +kernel)

/-! ### Events -/

theorem setAsleep_seen (s : State) (l : Link) (b : Bool) : (setAsleep s l b).seen M = s.seen M := by
  cases l <;> exact State.seen_setFld hM.linkSleep ..

theorem wakeLink_seen (s : State) (l : Link) : (wakeLink s l).seen M = s.seen M := by
  have hwoken : (setAsleep (s.emit (.tc10Wakeup l)) l false).seen M = s.seen M :=
    (setAsleep_seen hM ..).trans (State.seen_of_regs rfl)
  unfold wakeLink
  dsimp only
  split
  · exact hwoken
  · exact (State.seen_of_regs rfl).trans hwoken

theorem wakeSome_seen (s : State) : (wakeSome s).seen M = s.seen M := by
  unfold wakeSome
  split
  · rfl
  · split
    · exact wakeLink_seen hM ..
    · exact wakeLink_seen hM ..

theorem wakeRequest_seen (s : State) : (wakeRequest s).seen M = s.seen M :=
  (wakeSome_seen hM _).trans (State.seen_of_regs rfl)

theorem wakeFor_seen (s : State) (k : Nat) : (wakeFor s k).seen M = s.seen M := by
  have hq : s.fld (F.evtSrcCfgQueue k) < 8 := s.fld_lt_eight _ rfl
  have hstate : (s.setFld (F.evtQctlState (s.fld (F.evtSrcCfgQueue k))) 2).seen M = s.seen M :=
    State.seen_setFld (hM.queue hq).1 ..
  exact State.seen_when fun _ => (wakeRequest_seen hM _).trans ((State.seen_of_regs rfl).trans hstate)

theorem wakeAll_seen (s : State) : (wakeAll s).seen M = s.seen M := State.seen_each (fun s k _ => wakeFor_seen hM s k) s

section
variable {k : Nat} (hk : k < 1024)
include hk

theorem markSpi_seen (s : State) : (markSpi s k).seen M = s.seen M :=
  State.seen_when fun _ => State.seen_setFld (hM.srcStat hk) ..

theorem countOccurrence_seen (s : State) (b : Bool) : (countOccurrence s k b).seen M = s.seen M := by
  unfold countOccurrence
  dsimp only
  split
  · exact (wakeFor_seen hM ..).trans ((State.seen_setFld (hM.srcStat hk) ..).trans (State.seen_of_regs rfl))
  · split
    · exact (State.seen_addFld hM.saturations ..).trans (State.seen_of_regs rfl)
    · exact (State.seen_addFld (hM.srcStat hk) ..).trans (State.seen_of_regs rfl)

theorem raise_seen (s : State) : (raise s k).seen M = s.seen M :=
  (State.seen_when fun _ => countOccurrence_seen hM hk ..).trans (markSpi_seen hM hk s)

theorem setCond_seen (s : State) (c : Bool) : (setCond s k c).seen M = s.seen M := by
  have hasserted : (s.setFld (F.evtSrcStatAsserted k) c.toNat).seen M = s.seen M := State.seen_setFld (hM.srcStat hk) ..
  refine (State.seen_when fun _ => ?_).trans hasserted
  exact (State.seen_when fun _ => countOccurrence_seen hM hk ..).trans (markSpi_seen hM hk _)

theorem reportCond_seen (s : State) (c : Bool) : (reportCond s k c).seen M = s.seen M :=
  State.seen_when fun _ => setCond_seen hM hk ..

end

theorem reportFull_seen {q : Nat} (hq : q < 8) (s : State) : (reportFull s q).seen M = s.seen M :=
  reportCond_seen hM (by omega) ..

/-! ### What a strobe of EVT changes -/

theorem sourceStrobed_seen {k : Nat} (hk : k < 1024) (old s : State) : (sourceStrobed old s k).seen M = s.seen M := by
  have hmoved : ∀ {s : State} {x : Source} {c : Prop} [Decidable c], (if c then s.setSource k x else s).seen M = s.seen M :=
    State.seen_when fun _ => State.seen_of_regs rfl
  have hstat : ∀ {s : State} {hi lo v : Nat}, (s.setFld ⟨A.evtSrcStat k, hi, lo⟩ v).seen M = s.seen M :=
    State.seen_setFld (hM.srcStat hk) ..
  unfold sourceStrobed
  extract_lets _ s₁ was now s₂ off _ s₃
  have h₁ : s₁.seen M = s.seen M := hmoved
  have h₂ : s₂.seen M = s₁.seen M :=
    State.seen_ite rfl (State.seen_ite (State.seen_when fun _ => hstat) (reportCond_seen hM hk ..))
  have h₃ : s₃.seen M = s₂.seen M := State.seen_ite ((State.seen_of_regs (s := off) rfl).trans hstat) (State.seen_when fun _ =>
    (countOccurrence_seen hM hk ..).trans (markSpi_seen hM hk _))
  exact (wakeFor_seen hM ..).trans (h₃.trans (h₂.trans h₁))

theorem queueStrobed_seen {q : Nat} (hq : q < 8) (old s : State) : (queueStrobed old s q).seen M = s.seen M := by
  obtain ⟨-, hpi, hci⟩ := hM.queue hq
  unfold queueStrobed
  refine (reportFull_seen hM hq _).trans (State.seen_ite ?_ (State.seen_when fun _ => State.seen_each (fun s k hk => ?_) s))
  · exact (State.seen_setReg hci ..).trans ((State.seen_setReg hpi ..).trans (State.seen_of_regs rfl))
  · exact State.seen_when fun _ => State.seen_setFld (hM.srcStat (mem_knownSources hk)) ..

theorem evtStrobed_seen (old s : State) : (evtStrobed old s).seen M = s.seen M := by
  refine (wakeAll_seen hM _).trans ((State.seen_each (fun s k hk => ?_) _).trans (State.seen_each (fun s q hq => ?_) s))
  · exact sourceStrobed_seen hM (List.mem_range.1 (List.mem_filter.1 hk).1) old s
  · exact queueStrobed_seen hM (List.mem_range.1 hq) old s

end

end Sys2Proof.Machine
end

section
/-! PROOFS. What the lane field, the camera ports and the pipes leave of the registers that a strobe has set: they write status fields,
and none of these has a shadow copy. -/

namespace Sys2Proof.Machine

variable {s t : State}

/-! ### Status fields -/

theorem setBits_and {hi lo : Nat} {m : Word} (h : mask hi lo &&& m = 0) (w : Word) (v : Nat) : setBits w hi lo v &&& m = w &&& m := by
  ext i hi'
  have hbit : ((mask hi lo)[i] && m[i]) = false := by
    rw [← BitVec.getElem_and, h]
    exact BitVec.getElem_zero hi'
  simp only [setBits, BitVec.getElem_and, BitVec.getElem_or, BitVec.getElem_not]
  cases hm : m[i]
  · simp only [Bool.and_false]
  · rw [hm, Bool.and_true] at hbit
    simp [hbit]

/-- A field outside the mask of its register. -/
theorem State.seen_setFld_status {M : Nat → Word} {f : Fld} (h : mask f.hi f.lo &&& M f.addr = 0) (s : State) (v : Nat) :
    (s.setFld f v).seen M = s.seen M := by
  refine congrArg (·, s.regs.besideLive) (funext fun a => ?_)
  by_cases ha : a = f.addr
  · rw [ha, State.setFld, State.reg_setReg_self, setBits_and h]
  · rw [State.setFld, State.reg_setReg_other _ _ _ _ ha]

theorem setGroupState_seen {g : Nat} (hg : g < 8) (s : State) (v : Nat) : (setGroupState s g v).seen srwMask = s.seen srwMask := by
  have hall : ∀ g : Fin 8, srwMask (A.laneStat g) = 0 := by decide +kernel
  exact State.seen_setFld (M := srwMask) (f := F.laneStatState g) (hall ⟨g, hg⟩) s v

theorem setCamStore_seen {c : Nat} (hc : c < 6) (s : State) (v : Nat) :
    (s.setFld (F.laneCamCfgStore c) v).seen srwMask = s.seen srwMask := by
  have hall : ∀ c : Fin 6, mask 7 4 &&& srwMask (A.laneCamCfg c) = 0 := by decide +kernel
  exact State.seen_setFld_status (M := srwMask) (f := F.laneCamCfgStore c) (hall ⟨c, hc⟩) s v

theorem setCamActive_seen {c : Nat} (hc : c < 6) (s : State) (v : Nat) :
    (s.setFld (F.laneCamStatActive c) v).seen srwMask = s.seen srwMask := by
  have hall : ∀ c : Fin 6, srwMask (A.laneCamStat c) = 0 := by decide +kernel
  exact State.seen_setFld (M := srwMask) (f := F.laneCamStatActive c) (hall ⟨c, hc⟩) s v

theorem setPllLocked_seen {n : Nat} (hn : n ∈ ports4) (s : State) (v : Nat) :
    (s.setFld (F.pipePllStatLocked n) v).seen srwMask = s.seen srwMask := by
  have hall : ∀ n ∈ ports4, srwMask (A.pipePllStat n) = 0 := by decide +kernel
  exact State.seen_setFld (M := srwMask) (f := F.pipePllStatLocked n) (hall n hn) s v

/-! ### Force causes -/

theorem refreshTelltales_seen (s : State) : (refreshTelltales s).seen srwMask = s.seen srwMask :=
  State.seen_of_hide (m := 0x100000000) rfl (refreshTelltales_hide rfl ..)

theorem forceHold_seen (s : State) (c p : Nat) (b : Bool) : (forceHold s c p b).seen srwMask = s.seen srwMask := by
  have hput : (putCause s c p (if b then causeFlags s c p ||| 2 else causeFlags s c p &&& ~~~2)).seen srwMask = s.seen srwMask :=
    State.seen_of_regs rfl
  exact (refreshTelltales_seen _).trans
    ((State.seen_when fun _ => raise_seen sparesStatus_srwMask (by decide) _).trans hput)

theorem recheckLink_seen (s : State) (p : Nat) : (recheckLink s p).seen srwMask = s.seen srwMask := forceHold_seen ..

theorem waitLink_seen (s : State) (p : Nat) : (waitLink s p).seen srwMask = s.seen srwMask :=
  (recheckLink_seen ..).trans (State.seen_when fun _ => State.seen_of_regs rfl)

/-! ### LANE items -/

theorem bringUp_seen {g : Nat} (hg : g < 8) (s : State) (st : Nat) : (bringUp s g st).seen srwMask = s.seen srwMask :=
  (setGroupState_seen hg ..).trans (State.seen_of_regs rfl)

theorem startGroup_seen {g : Nat} (hg : g < 8) (s : State) : (startGroup s g).seen srwMask = s.seen srwMask := by
  have hup := bringUp_seen hg s 1
  exact State.seen_ite rfl (State.seen_ite hup ((waitLink_seen ..).trans hup))

theorem groupChanged_seen {g : Nat} (hg : g < 8) (old s : State) : (groupChanged old s g).seen srwMask = s.seen srwMask := by
  have hup := bringUp_seen hg s 3
  unfold groupChanged
  extract_lets a b seamless s₁ s₂ s₃
  have hoff : (setGroupState (s.setGroup g { s₁ with waitHpd := false, atBoot := false }) g 0).seen srwMask = s.seen srwMask :=
    (setGroupState_seen hg ..).trans (State.seen_of_regs rfl)
  have hlink : s₃.seen srwMask = s.seen srwMask := State.seen_ite (State.seen_ite rfl hoff)
    (State.seen_ite (State.seen_ite hup ((waitLink_seen ..).trans hup)) (State.seen_ite rfl (startGroup_seen hg s)))
  exact State.seen_ite rfl (State.seen_ite ((recheckLink_seen ..).trans hlink) hlink)

theorem camClose_seen {c : Nat} (hc : c < 6) (s : State) : (camClose s c).seen srwMask = s.seen srwMask :=
  (setCamActive_seen hc ..).trans (State.seen_of_regs rfl)

theorem camChanged_seen {c : Nat} (hc : c < 6) (old s : State) : (camChanged old s c).seen srwMask = s.seen srwMask := by
  unfold camChanged
  extract_lets s₁ moved _ s₂
  have h₁ : s₁.seen srwMask = s.seen srwMask := setCamStore_seen hc ..
  have h₂ : s₂.seen srwMask = s₁.seen srwMask := State.seen_when fun _ => State.seen_of_regs rfl
  exact (State.seen_when fun _ => camClose_seen hc s₂).trans (h₂.trans h₁)

theorem laneChanged_seen {l : List Nat} (hl : ∀ i ∈ l, i < 14) (old s : State) :
    (laneChanged old s l).seen srwMask = s.seen srwMask := by
  refine State.seen_each (fun s i hi => ?_) s
  split
  · next hg => exact groupChanged_seen hg old s
  · exact camChanged_seen (by have := hl i hi; omega) old s

/-! ### Pipes -/

theorem pllsChanged_seen (old s : State) : (pllsChanged old s).seen srwMask = s.seen srwMask := by
  unfold pllsChanged
  refine State.seen_each (fun s n hn => ?_) s
  split
  · rfl
  · refine (State.seen_each (fun s p _ => ?_) _).trans (setPllLocked_seen hn s 0)
    exact State.seen_when fun _ => State.seen_of_regs rfl

theorem blackLine_seen (s : State) (p : Fin 8) (y : Nat) : (blackLine s p y).seen srwMask = s.seen srwMask :=
  State.seen_when fun _ => State.seen_of_regs rfl

theorem startPipe_seen (s : State) (p : Nat) : (startPipe s p).seen srwMask = s.seen srwMask := by
  refine State.seen_ite rfl ?_
  extract_lets _ s₁ _ s₂
  have h₂ : s₂.seen srwMask = s.seen srwMask := State.seen_of_regs rfl
  exact (blackLine_seen ..).trans ((recheckLink_seen ..).trans ((forceHold_seen ..).trans h₂))

theorem fallbackProof_seen (s : State) : (fallbackProof s).seen srwMask = s.seen srwMask := by
  unfold fallbackProof
  extract_lets v bad out s₁
  have h₁ : s₁.seen srwMask = s.seen srwMask := by
    refine State.seen_each (fun s p _ => ?_) s
    exact State.seen_of_regs (t := s.setPipe p _) rfl
  refine (State.seen_each (fun s _ _ => ?_) s₁).trans h₁
  exact raise_seen sparesStatus_srwMask (by decide) s

theorem startProof_seen {M : Nat → Word} (s : State) : (startProof s).seen M = s.seen M :=
  State.seen_of_hide (m := 0x400) rfl (startProof_hide rfl ..)

end Sys2Proof.Machine
end

section
/-! PROOFS. Strobes (spec 03, R67 to R71): what they distribute, what they refuse and what they hand to the winnow. -/

namespace Sys2Proof.Machine

variable {s t : State}

/-! ### The words that apply at once -/

/-- The state with the parts of a strobe pending, in place of those of its blocks that have not reached their deadline (R70). -/
def withParts (s : State) (blocks : BitVec 16) (words gcl : SMap Word) : State :=
  { s with regs := { s.regs with
      pend := s.regs.pend.filter (fun x => x.fixed || !blocks.getLsbD x.block) ++ waitingParts s blocks words gcl } }

/-- The words of a strobe that wait for nothing. -/
def onceWords (s : State) (blocks : BitVec 16) (words : SMap Word) : SMap Word :=
  words.filter fun e => blocks.getLsbD (e.1 / 0x10000) && atOnce s (strobeView s words) e.1

theorem onceWords_eq {blocks : BitVec 16} {words : SMap Word}
    (h : ∀ e ∈ words, blocks.getLsbD (e.1 / 0x10000) = true ∧ atOnce s (strobeView s words) e.1 = true) :
    onceWords s blocks words = words :=
  List.filter_eq_self.2 fun e he => Bool.and_eq_true_iff.2 (h e he)

theorem atOnce_plain {v : View} {a : Nat} (h6 : a / 0x10000 ≠ 6) (h7 : a / 0x10000 ≠ 7) (h8 : a / 0x10000 ≠ 8) : atOnce s v a = true := by
  unfold atOnce
  split
  · contradiction
  · contradiction
  · contradiction
  · rfl

theorem atOnce_lane {v : View} (h : ∀ i ∈ laneItems, laneHost s v i = none) {a : Nat} (ha : a / 0x10000 = 8) : atOnce s v a = true := by
  have hall : laneItems.all (fun i => !((laneAddrs i).contains a && (laneHost s v i).isSome)) = true :=
    List.all_eq_true.2 fun i hi => by rw [h i hi, Option.isSome_none, Bool.and_false, Bool.not_false]
  unfold atOnce
  rw [ha]
  exact hall

theorem atOnce_pipe {v : View} (h : ∀ p, (s.pipe p).gen = .stopped) {a : Nat} (ha : a / 0x10000 = 7) : atOnce s v a = true := by
  have hstill : ∀ p, generatorRuns s p = false := fun p => by rw [generatorRuns, h p]; rfl
  have hfeeds : ∀ n, pllFeeds s n = false := fun n => by simp [pllFeeds, hstill]
  unfold atOnce
  rw [ha]
  simp [hstill, hfeeds]

/-- The words of blocks that neither the winnow nor a lane holds back all apply at once. -/
theorem onceWords_strobeSet {blocks : BitVec 16} (h6 : blocks.getLsbD 6 = false) (h7 : blocks.getLsbD 7 = false)
    (h8 : blocks.getLsbD 8 = false) : onceWords t blocks (strobeSet s blocks) = strobeSet s blocks := by
  refine onceWords_eq fun e he => ?_
  have hblock := (of_mem_strobeSet he).1
  have hne : ∀ {i}, blocks.getLsbD i = false → e.1 / 0x10000 ≠ i := fun hi h => by
    rw [h, hi] at hblock
    cases hblock
  exact ⟨hblock, atOnce_plain (hne h6) (hne h7) (hne h8)⟩

/-! ### Distribution -/

theorem distribute_plain {blocks : BitVec 16} (h : ∀ i ∈ [6, 7, 8, 10], blocks.getLsbD i = false) (s : State) (words : SMap Word) :
    distribute s blocks words [] = applyWords (withParts s blocks words []) (onceWords s blocks words) := by
  simp only [distribute, h 6 (by decide), h 7 (by decide), h 8 (by decide), h 10 (by decide), Bool.false_eq_true, if_false]
  rfl

theorem distribute_evt (s : State) (words : SMap Word) :
    distribute s 0x400 words [] = evtStrobed s (applyWords (withParts s 0x400 words []) (onceWords s 0x400 words)) := rfl

theorem distribute_lane (s : State) (words : SMap Word) :
    distribute s 0x100 words [] = laneChanged s (applyWords (withParts s 0x100 words []) (onceWords s 0x100 words))
      (laneItems.filter fun i => (laneHost s (strobeView s words) i).isNone) := rfl

/-- What PIPE changes beside the words leaves every shadowed bit. -/
theorem distribute_pipe_seen (s : State) (words gcl : SMap Word) :
    (distribute s 0x80 words gcl).seen srwMask = (applyWords (withParts s 0x80 words gcl) (onceWords s 0x80 words)).seen srwMask := by
  have hplls := pllsChanged_seen s (applyWords (withParts s 0x80 words gcl) (onceWords s 0x80 words))
  have hstart : ∀ t : State, (if t.pow.started then t.each pipes8 startPipe else t).seen srwMask = t.seen srwMask := fun t =>
    State.seen_when fun _ => State.seen_each (fun s p _ => startPipe_seen s p) t
  exact State.seen_ite ((hstart _).trans hplls) ((fallbackProof_seen _).trans ((hstart _).trans hplls))

/-- The set of a strobe that names one block. -/
theorem strobeSet_single {blocks : BitVec 16} {b : Nat} (h : setBitsBelow 16 blocks.toNat = [b]) (s : State) :
    strobeSet s blocks = shadowWords s b := by
  rw [strobeSet, h, List.flatMap_cons, List.flatMap_nil, List.append_nil]

/-! ### What a strobe does -/

theorem settles_of_leaves {c : Instr} {P : State → Prop} (h : Leaves c s (settle t)) (hP : P t) : Settles c s P := ⟨t, h, hP⟩

/-- A command whose operation changes nothing. -/
theorem whenUp_same {f : State → State} (h : f s = s) : whenUp s f = .next s := by
  rw [whenUp, h, ite_self]
  rfl

/-- A strobe of blocks that need no proof, all of whose checks pass. -/
theorem strobe_distributes {w : Word} (hnamed : w.setWidth 16 ≠ (0 : BitVec 16)) (h6 : w.getLsbD 6 = false) (h7 : w.getLsbD 7 = false)
    (hchecks : otherOwn s (w.setWidth 16) (strobeView s (strobeSet s (w.setWidth 16))) = []) :
    strobe s w = settle (distribute (replaceWaiting s (w.setWidth 16)) (w.setWidth 16) (strobeSet s (w.setWidth 16)) []) := by
  rw [strobeSet] at hchecks
  have h6' := (getLsbD_blocks w (show 6 < 16 by decide)).trans h6
  have h7' := (getLsbD_blocks w (show 7 < 16 by decide)).trans h7
  simp only [strobe, hnamed, h6', h7', hchecks, Bool.or_self, Bool.false_eq_true, if_false]
  rfl

/-- A strobe of SCHED or PIPE goes to the winnow. -/
theorem strobe_submits {w : Word} (h : (w.getLsbD 6 || w.getLsbD 7) = true) (s : State) :
    strobe s w = submit s (.strobe (w.setWidth 16) (w.setWidth 16) (strobeSet s (w.setWidth 16))
      (if w.getLsbD 6 then s.regs.gclShadow else [])) := by
  have h6 := getLsbD_blocks w (show 6 < 16 by decide)
  have h7 := getLsbD_blocks w (show 7 < 16 by decide)
  have hnamed : w.setWidth 16 ≠ (0 : BitVec 16) := fun hzero => by
    rw [hzero] at h6 h7
    rw [← h6, ← h7] at h
    cases h
  simp only [strobe, hnamed, if_false, h6, h7, h, if_true]
  rfl

/-- STROBE_PROOF_DONE of a good strobe. -/
theorem exec_strobeProofDone_good {named blocks : BitVec 16} {words gcl : SMap Word} {v : Verdict} (hup : s.isUp)
    (hhand : s.scene.inHand = some (.strobe named blocks words gcl, v)) (hgood : v.reason = 0) :
    Leaves .strobeProofDone s (settle (startProof (
      let t := distribute (proofTaken s) blocks words gcl
      if blocks.getLsbD 6 then liftHolds t v.lift else t))) := by
  have hproved : strobeProved s = settle (startProof (
      let t := distribute (proofTaken s) blocks words gcl
      if blocks.getLsbD 6 then liftHolds t v.lift else t)) := by
    simp only [strobeProved, hhand, hgood, if_true]
    rfl
  rw [← hproved]
  exact whenUp_up s strobeProved hup

theorem strobeProved_none (h : ∀ n b w g v, s.scene.inHand ≠ some (.strobe n b w g, v)) : strobeProved s = s := by
  unfold strobeProved
  split
  · next hhand => exact (h _ _ _ _ _ hhand).elim
  · rfl

/-! ### A refused strobe -/

/-- What a refused strobe shows: the reason, the blocks, and nothing else outside EVT. -/
theorem refuseStrobe_shows (s : State) (reason : BitVec 8) (named : BitVec 16) :
    (refuseStrobe s reason.toNat named.toNat).fld F.sysStrobeStatReason = reason.toNat ∧
    (refuseStrobe s reason.toNat named.toNat).fld F.sysStrobeStatRefused = s.fld F.sysStrobeStatRefused ||| named.toNat ∧
    OnlyRegs (· = A.sysStrobeStat) s (refuseStrobe s reason.toNat named.toNat) := by
  have hstat : ¬evtReg A.sysStrobeStat := not_evtReg_of_lt (by decide)
  have hmask : s.fld F.sysStrobeStatRefused ||| named.toNat < 2 ^ 16 := Nat.or_lt_two_pow (s.fld_lt _) named.isLt
  refine ⟨?_, ?_, fun a ha hblock => ?_⟩
  · rw [refuseStrobe, raise_fld _ _ _ (by decide) hstat, State.fld_setFld_apart _ _ (by decide),
      State.fld_setFld_of_lt _ (by decide) reason.isLt]
  · rw [refuseStrobe, raise_fld _ _ _ (by decide) hstat, State.fld_setFld_of_lt _ (by decide) hmask]
  · rw [refuseStrobe, raise_reg _ _ _ (by decide) (by unfold evtReg; omega), State.reg_setFld_other _ _ _ _ ha,
      State.reg_setFld_other _ _ _ _ ha]

/-! ### What a distributed strobe leaves -/

theorem RegFile.shadow_eq {x y : RegFile} (h : x.besideLive = y.besideLive) : x.shadow = y.shadow := by
  have hshadow := congrArg RegFile.shadow h
  exact hshadow

theorem RegFile.pend_eq {x y : RegFile} (h : x.besideLive = y.besideLive) : x.pend = y.pend := by
  have hpend := congrArg RegFile.pend h
  exact hpend

/-- The word of a strobe that names one block. -/
theorem getLsbD_single {blocks : BitVec 16} {b : Nat} (hb : b < 16) (h : ∀ i : Fin 16, blocks.getLsbD i = (i.val == b)) (n : Nat) :
    blocks.getLsbD n = (n == b) := by
  by_cases hn : n < 16
  · exact h ⟨n, hn⟩
  · rw [BitVec.getLsbD_of_ge _ _ (by omega)]
    exact (beq_false_of_ne (by omega)).symm

/-- Blocks without LANE and EVT: the shadowed bits of the blocks, and no other register. -/
theorem distribute_plain_reg {blocks : BitVec 16} (h : ∀ i ∈ [6, 7, 8, 10], blocks.getLsbD i = false) (s : State) :
    (∀ a, (distribute (replaceWaiting s blocks) blocks (strobeSet s blocks) []).reg a =
      if blocks.getLsbD (a / 0x10000) then takeBits (s.reg a) (s.shadowReg a) (srwMask a) else s.reg a) ∧
    (distribute (replaceWaiting s blocks) blocks (strobeSet s blocks) []).regs.shadow = s.regs.shadow ∧
    TouchesOnly [.regs, .scene] s (distribute (replaceWaiting s blocks) blocks (strobeSet s blocks) []) := by
  rw [distribute_plain h, onceWords_strobeSet (h 6 (by decide)) (h 7 (by decide)) (h 8 (by decide))]
  refine ⟨applyWords_strobeSet_reg fun _ => rfl, ?_, ?_⟩
  · exact (RegFile.shadow_eq (applyWords_besideLive _ _)).trans rfl
  · refine (State.touches_of_hide [.regs, .scene] rfl fun d => ?_).1
    exact (applyWords_hide rfl ..).trans ((State.hide_regs _ d (replaceWaiting s blocks) rfl _).trans (replaceWaiting_hide rfl ..))

/-- A mask of all bits outside EVT and of the shadowed bits in it. -/
def besideEvt (a : Nat) : Word := if a / 0x10000 = 10 then srwMask a else BitVec.allOnes 32

theorem sparesStatus_besideEvt : SparesStatus besideEvt := fun a ha h => by rw [besideEvt, if_pos ha, h]

/-- EVT: the shadowed bits of the block, and no register of another block. -/
theorem distribute_evt_leaves (s : State) {t : State} (ht : t = distribute (replaceWaiting s 0x400) 0x400 (strobeSet s 0x400) []) :
    (∀ a, a / 0x10000 = 10 → t.reg a &&& srwMask a = s.shadowReg a &&& srwMask a) ∧ t.regs.shadow = s.regs.shadow ∧
    OnlyRegs (fun _ => False) s t ∧ TouchesOnly (Part.events ++ [.scene, .queueSizes]) s t := by
  rw [distribute_evt, onceWords_strobeSet (by decide) (by decide) (by decide)] at ht
  have hwords : ∀ a, (applyWords (withParts (replaceWaiting s 0x400) 0x400 (strobeSet s 0x400) []) (strobeSet s 0x400)).reg a =
      if (0x400 : BitVec 16).getLsbD (a / 0x10000) then takeBits (s.reg a) (s.shadowReg a) (srwMask a) else s.reg a :=
    applyWords_strobeSet_reg fun _ => rfl
  have hseen : t.seen besideEvt = _ := ht ▸ evtStrobed_seen sparesStatus_besideEvt _ _
  refine ⟨fun a ha => ?_, ?_, fun a _ ha => ?_, ?_⟩
  · have hreg := State.reg_of_seen hseen a
    rw [hwords, ha, besideEvt, if_pos ha] at hreg
    exact hreg.trans (takeBits_and ..)
  · exact (RegFile.shadow_eq ((State.besideLive_of_seen hseen).trans (applyWords_besideLive _ _))).trans rfl
  · have hblock : a / 0x10000 ≠ 10 := by omega
    have hoff : (0x400 : BitVec 16).getLsbD (a / 0x10000) = false :=
      (getLsbD_single (b := 10) (by decide) (by decide) _).trans (beq_false_of_ne hblock)
    have hreg := State.reg_of_seen hseen a
    rw [hwords, hoff, besideEvt, if_neg hblock, BitVec.and_allOnes, BitVec.and_allOnes] at hreg
    exact hreg
  · rw [ht]
    refine (State.touches_of_hide (Part.events ++ [.scene, .queueSizes]) rfl fun d => ?_).1
    exact (evtStrobed_hide rfl ..).trans ((applyWords_hide rfl ..).trans
      ((State.hide_regs _ d (replaceWaiting s 0x400) rfl _).trans (replaceWaiting_hide rfl ..)))

/-- LANE: what was pending of it is replaced by the parts that wait now. -/
theorem distribute_lane_pend (s : State) (words : SMap Word) :
    (distribute s 0x100 words []).regs.shadow = s.regs.shadow ∧
    (distribute s 0x100 words []).regs.pend =
      s.regs.pend.filter (fun x => x.fixed || x.block != 8) ++ waitingParts s 0x100 words [] := by
  have hseen := laneChanged_seen (l := laneItems.filter fun i => (laneHost s (strobeView s words) i).isNone)
    (fun i hi => List.mem_range.1 (List.mem_filter.1 hi).1) s (applyWords (withParts s 0x100 words []) (onceWords s 0x100 words))
  have hfile := (State.besideLive_of_seen hseen).trans (applyWords_besideLive _ _)
  rw [distribute_lane]
  refine ⟨(RegFile.shadow_eq hfile).trans rfl, (RegFile.pend_eq hfile).trans ?_⟩
  simp only [withParts, getLsbD_single (blocks := 0x100) (b := 8) (by decide) (by decide)]
  rfl

/-- LANE where no item waits: the shadowed bits of the block. -/
theorem distribute_lane_reg (h : ∀ i ∈ laneItems, laneHost s (strobeView s (strobeSet s 0x100)) i = none) {a : Nat}
    (ha : a / 0x10000 = 8) :
    (distribute (replaceWaiting s 0x100) 0x100 (strobeSet s 0x100) []).reg a &&& srwMask a = s.shadowReg a &&& srwMask a := by
  have honce : onceWords (replaceWaiting s 0x100) 0x100 (strobeSet s 0x100) = strobeSet s 0x100 := onceWords_eq fun e he => by
    have hblock := (of_mem_strobeSet he).1
    have height : e.1 / 0x10000 = 8 := by rwa [getLsbD_single (b := 8) (by decide) (by decide), beq_iff_eq] at hblock
    exact ⟨hblock, atOnce_lane h height⟩
  have hseen := laneChanged_seen
    (l := laneItems.filter fun i => (laneHost (replaceWaiting s 0x100) (strobeView (replaceWaiting s 0x100) (strobeSet s 0x100)) i).isNone)
    (fun i hi => List.mem_range.1 (List.mem_filter.1 hi).1) (replaceWaiting s 0x100)
    (applyWords (withParts (replaceWaiting s 0x100) 0x100 (strobeSet s 0x100) []) (strobeSet s 0x100))
  rw [distribute_lane, honce]
  refine (State.reg_of_seen hseen a).trans ?_
  have hwords := applyWords_strobeSet_reg (t := withParts (replaceWaiting s 0x100) 0x100 (strobeSet s 0x100) []) (s := s) (blocks := 0x100)
    (fun _ => rfl) a
  rw [hwords, ha]
  exact takeBits_and ..

/-- PIPE with every pipe stopped: each word of its set. -/
theorem distribute_pipe_reg {words : SMap Word} (hstill : ∀ p, (s.pipe p).gen = .stopped) (hkeys : (wordKeys words).Nodup)
    (gcl : SMap Word) {e : Nat × Word} (he : e ∈ words) (hblock : e.1 / 0x10000 = 7) :
    (distribute s 0x80 words gcl).reg e.1 &&& srwMask e.1 = e.2 &&& srwMask e.1 := by
  have honce : e ∈ onceWords s 0x80 words := by
    refine List.mem_filter.2 ⟨he, ?_⟩
    rw [atOnce_pipe hstill hblock, hblock]
    decide
  have hnodup : (wordKeys (onceWords s 0x80 words)).Nodup := hkeys.sublist (List.filter_sublist.map _)
  have hfind : ∀ x ∈ onceWords s 0x80 words, x.2 = (smFind (onceWords s 0x80 words) x.1).getD 0 := fun x hx => by
    rw [smFind_of_nodup hnodup hx, Option.getD_some]
  refine (State.reg_of_seen (distribute_pipe_seen s words gcl) e.1).trans ?_
  rw [applyWords_reg (f := fun a => (smFind (onceWords s 0x80 words) a).getD 0) fun x hx => by rw [← hfind x hx],
    if_pos (mem_wordKeys.2 ⟨e.2, honce⟩), takeBits_and, ← hfind e honce]

end Sys2Proof.Machine

namespace Sys2Proof.Proofs.RegisterModel

open Sys2Proof.Machine

/-- Settles O22: a strobe's words are the shadow state of its blocks, and beside them a distribution changes status registers alone. -/
theorem strobes : Obligations.Strobes := by
  have hset8 : ∀ s, strobeSet s 0x100 = shadowWords s 8 := strobeSet_single (by decide)
  refine ⟨fun path w s htakes hnamed h6 h7 hchecks => ?_, fun path w s htakes hnamed h6 h7 x hx => ?_,
    fun path w s htakes hnamed hplain hchecks => ?_, fun path s htakes => ?_, fun path s htakes hchecks => ?_,
    fun path s htakes hchecks hhosts => ?_, fun path w s htakes hwinnow => ?_, fun path w s hnone => ?_,
    fun named blocks words gcl v s hup hhand hbad => ?_, fun named blocks words gcl v s hup hhand hgood => ?_,
    fun named words gcl v s hup hhand hgood hstill hkeys => ?_, fun s hnone => ?_⟩
  · exact strobe_distributes hnamed h6 h7 hchecks ▸ leaves_strobe htakes w
  · obtain ⟨hreason, hrefused, hregs⟩ := refuseStrobe_shows s x.reason (w.setWidth 16)
    refine Ends.of_leaves (strobe_refused hnamed h6 h7 hx ▸ leaves_strobe htakes w) ⟨hreason, hrefused, hregs, ?_⟩
    exact (State.touches_of_hide Part.events rfl fun d => refuseStrobe_hide rfl d s _ _).1
  · have hbit : ∀ i ∈ [6, 7, 8, 10], (w.setWidth 16 : BitVec 16).getLsbD i = false := fun i hi => by
      rw [getLsbD_blocks w (by revert i; decide), hplain i hi]
    refine settles_of_leaves ?_ (distribute_plain_reg hbit s)
    exact strobe_distributes hnamed (hplain 6 (by decide)) (hplain 7 (by decide)) hchecks ▸ leaves_strobe htakes w
  · refine settles_of_leaves ?_ (distribute_evt_leaves s rfl)
    exact strobe_distributes (w := 0x400) (by decide) (by decide) (by decide) rfl ▸ leaves_strobe htakes 0x400
  · rw [← hset8] at hchecks ⊢
    refine settles_of_leaves ?_ (distribute_lane_pend (replaceWaiting s 0x100) (strobeSet s 0x100))
    exact strobe_distributes (w := 0x100) (by decide) (by decide) (by decide) hchecks ▸ leaves_strobe htakes 0x100
  · rw [← hset8] at hchecks hhosts
    refine settles_of_leaves ?_ fun a ha => distribute_lane_reg hhosts ha
    exact strobe_distributes (w := 0x100) (by decide) (by decide) (by decide) hchecks ▸ leaves_strobe htakes 0x100
  · exact strobe_submits hwinnow s ▸ leaves_strobe htakes w
  · have hidle : strobe s w = s := if_pos hnone
    exact whenUp_same ((if_congr Iff.rfl hidle rfl).trans (ite_self s))
  · obtain ⟨hreason, hrefused, hregs⟩ := refuseStrobe_shows (proofTaken s) v.reason named
    have hregs' := State.regs_of_hide (m := 0x400) rfl
      (startProof_hide rfl _ (refuseStrobe (proofTaken s) v.reason.toNat named.toNat))
    refine settles_of_leaves (exec_strobeProofDone_refused hup hhand hbad)
      ⟨(State.fld_congr (State.reg_congr hregs' _)).trans hreason, (State.fld_congr (State.reg_congr hregs' _)).trans hrefused,
        fun a ha hblock => (State.reg_congr hregs' a).trans (hregs a ha hblock), ?_⟩
    refine (State.touches_of_hide (Part.events ++ [.scene]) rfl fun d => ?_).1
    exact (startProof_hide rfl ..).trans ((refuseStrobe_hide rfl ..).trans (State.mapScene_hide rfl d s _))
  · exact exec_strobeProofDone_good hup hhand hgood
  · refine settles_of_leaves (exec_strobeProofDone_good hup hhand hgood) fun e he hblock => ?_
    refine (State.reg_of_seen (startProof_seen _) e.1).trans ?_
    exact distribute_pipe_reg (s := proofTaken s) hstill hkeys gcl he hblock
  · exact whenUp_same (strobeProved_none hnone)

end Sys2Proof.Proofs.RegisterModel
end

section
/-! PROOFS. What sending frames changes (spec 04, R88, R93, R94, R113): the transport state alone, and of the registers LINK_STAT,
where the module moves to the link that carries frames. -/

namespace Sys2Proof.Machine

/-! ### The transport state -/

@[simp] theorem countTx_hw (s : State) (l : Link) (n : Nat) : (countTx s l n).hw = s.hw := by
  simp only [countTx, State.perfAdd]
  split <;> split <;> rfl

/-- Without a session nothing is sent. -/
theorem transmit_closed {s : State} (h : sessionOpen s = false) (kind seq : Nat) (body : List Byte) (retx : Bool) :
    transmit s kind seq body retx = s := by
  rw [sessionOpen, Option.isSome_eq_false_iff, Option.isNone_iff_eq_none] at h
  simp only [transmit, h]

/-- A frame that goes out carries the ACK value, so that none is owed any more. -/
theorem transmit_hw {s : State} (h : sessionOpen s = true) (kind seq : Nat) (body : List Byte) (retx : Bool) :
    (transmit s kind seq body retx).hw = { s.hw with ackOwed := false } := by
  obtain ⟨c, hc⟩ := Option.isSome_iff_exists.1 h
  simp only [transmit, hc, State.emit, countTx_hw]

@[simp] theorem ontoUsable_hw (s : State) : (ontoUsable s).hw = s.hw := by
  simp only [ontoUsable]
  split <;> rfl

theorem sessionOpen_of_hw {s t : State} (h : t.hw.cur = s.hw.cur) : sessionOpen t = sessionOpen s := by
  rw [sessionOpen, sessionOpen, h]

theorem wakeLink_hw (s : State) (l : Link) : (wakeLink s l).hw = { s.hw with waking := (wakeLink s l).hw.waking } := by
  have hasleep : (setAsleep (s.emit (.tc10Wakeup l)) l false).hw = s.hw := by cases l <;> rfl
  simp only [wakeLink]
  split
  · rw [hasleep]
  · rw [hasleep]

/-- Waking a link leaves the frames and the session. -/
theorem wakeSome_hw (s : State) : (wakeSome s).hw = { s.hw with waking := (wakeSome s).hw.waking } := by
  unfold wakeSome
  split
  · rfl
  · split
    · exact wakeLink_hw ..
    · exact wakeLink_hw ..

/-- The frame that has waited longest goes out last of those that are out, with the next SEQ. -/
theorem sendNext_hw {s : State} (hopen : sessionOpen s = true) {f : TxFrame} {r : List TxFrame} (h : s.hw.waiting = f :: r) :
    (sendNext s).hw = { s.hw with waiting := r, unacked := s.hw.unacked ++ [{ f with seq := s.hw.txNext }],
                                  txNext := s.hw.txNext + 1, ackOwed := false } := by
  simp only [sendNext, h]
  exact transmit_hw (s := { s with hw := { s.hw with
    waiting := r, unacked := s.hw.unacked ++ [{ f with seq := s.hw.txNext }], txNext := s.hw.txNext + 1 } }) hopen ..

/-- What is done frame by frame while frames wait and the window has room. -/
theorem pumpFrames_induct {P : State → Prop} (hstep : ∀ s f r, P s → s.hw.waiting = f :: r → s.hw.unacked.length < 64 → P (sendNext s))
    (n : Nat) {s : State} (h : P s) : P (pumpFrames n s) := by
  induction n generalizing s with
  | zero => exact h
  | succ n ih =>
    unfold pumpFrames
    split
    · exact h
    · next hgo =>
      simp only [Bool.or_eq_true, List.isEmpty_iff, decide_eq_true_eq, not_or] at hgo
      obtain ⟨f, r, hw⟩ := List.exists_cons_of_ne_nil hgo.1
      exact ih (hstep s f r h hw (by omega))

/-- Sending what waits either sends frame by frame on the link that carries frames, or wakes a link, or leaves the state. -/
theorem pump_induct {P : State → Prop} {s : State} (hsame : P s) (hwake : P (wakeSome s)) (honto : P (ontoUsable s))
    (hstep : ∀ s f r, sessionOpen s = true → P s → s.hw.waiting = f :: r → s.hw.unacked.length < 64 → P (sendNext s)) : P (pump s) := by
  simp only [pump]
  split
  · exact hsame
  · next hopen =>
    simp only [Bool.or_eq_true, Bool.not_eq_true', not_or, Bool.not_eq_false] at hopen
    split
    · refine (pumpFrames_induct (P := fun t => sessionOpen t = true ∧ P t) (fun t f r ht hw hroom => ⟨?_, hstep t f r ht.1 ht.2 hw hroom⟩) _
        ⟨(sessionOpen_of_hw (congrArg HwState.cur (ontoUsable_hw s))).trans hopen.2, honto⟩).2
      rw [← ht.1]
      exact sessionOpen_of_hw (by rw [sendNext_hw ht.1 hw])
    · exact hwake

/-! ### The send window and the send order (R93, R94) -/

theorem sendOrder_of_frames {s t : State} (hu : t.hw.unacked = s.hw.unacked) (hw : t.hw.waiting = s.hw.waiting) :
    t.sendOrder = s.sendOrder := by
  rw [State.sendOrder, State.sendOrder, hu, hw]

/-- A frame that goes out keeps its place. -/
theorem sendNext_sendOrder {s : State} (hopen : sessionOpen s = true) {f : TxFrame} {r : List TxFrame} (h : s.hw.waiting = f :: r) :
    (sendNext s).sendOrder = s.sendOrder := by
  rw [State.sendOrder, State.sendOrder, sendNext_hw hopen h, h]
  simp

theorem pump_sendOrder (s : State) : (pump s).sendOrder = s.sendOrder := by
  refine pump_induct (P := fun t => t.sendOrder = s.sendOrder) rfl ?_ ?_ fun t f r hopen ht hw _ => (sendNext_sendOrder hopen hw).trans ht
  · exact sendOrder_of_frames (by rw [wakeSome_hw]) (by rw [wakeSome_hw])
  · exact sendOrder_of_frames (by rw [ontoUsable_hw]) (by rw [ontoUsable_hw])

theorem pump_window {s : State} (h : s.hw.unacked.length ≤ 64) : (pump s).hw.unacked.length ≤ 64 := by
  refine pump_induct (P := fun t => t.hw.unacked.length ≤ 64) h ?_ ?_ fun t f r hopen _ hw hroom => ?_
  · rw [wakeSome_hw]
    exact h
  · rwa [ontoUsable_hw]
  · rw [sendNext_hw hopen hw, List.length_append, List.length_singleton]
    omega

theorem sendSeq_window {s : State} (h : s.hw.unacked.length ≤ 64) (kind : Nat) (body : List Byte) (id : Option (BitVec 16)) :
    (sendSeq s kind body id).hw.unacked.length ≤ 64 := by
  unfold sendSeq
  split
  · exact pump_window h
  · exact h

end Sys2Proof.Machine

namespace Sys2Proof.Proofs.HaywainRings

open Sys2Proof.Machine

/-- Settles O27: frames go out one by one while fewer than 64 are unacknowledged, each behind those that are out. -/
theorem sendWindow : Obligations.SendWindow :=
  fun s h => ⟨pump_window h, sendSeq_window h, pump_sendOrder s⟩

end Sys2Proof.Proofs.HaywainRings
end

section
/-! PROOFS. Received frames (spec 04, R84 to R87, R93, R99, R115; spec 18, R417; log 19): what each check lets through, and register
access by frames. -/

namespace Sys2Proof.Machine

/-! ### A frame's way through its checks -/

/-- A command that is a frame does nothing but receive it; an ACK alone is not sequenced. -/
theorem exec_message {c : Instr} {f : RxFrame} {kind : Nat} {bytes : List Byte} (h : messageOf c = some (f, kind, bytes)) :
    ∃ act, ∀ s, exec c s = whenUp s fun s => receive s f kind bytes (kind != tyAck) act := by
  cases c <;> first
    | (cases h; exact ⟨_, fun _ => rfl⟩)
    | exact nomatch h

theorem receive_unheard {s : State} {f : RxFrame} (h : listens (rxConfig s f.session) f = false) (kind : Nat) (bytes : List Byte)
    (seq : Bool) (act : State → State) : receive s f kind bytes seq act = s := by
  rw [receive, h]
  rfl

theorem receive_rejected {s : State} {f : RxFrame} {kind : Nat} (hl : listens (rxConfig s f.session) f = true)
    (h : s.pow.started = false ∨ frameSound (rxConfig s f.session) f kind = false ∨ sessionOf s f.session = none) (bytes : List Byte)
    (seq : Bool) (act : State → State) : receive s f kind bytes seq act = rejectFrame s := by
  simp only [receive, hl, Bool.not_true, Bool.false_eq_true, if_false]
  split
  · rfl
  · next hgood =>
    simp only [Bool.or_eq_true, Bool.not_eq_true', not_or, Bool.not_eq_false] at hgood
    rcases h with h | h | h
    · rw [hgood.1] at h; cases h
    · rw [hgood.2] at h; cases h
    · rw [h]

/-- A frame that passes every check but the tag's: what the tag decides. -/
theorem receive_checked {s : State} {f : RxFrame} {kind : Nat} {bytes body : List Byte} {x : Sess × Bool}
    (hl : listens (rxConfig s f.session) f = true) (hstarted : s.pow.started = true)
    (hsound : frameSound (rxConfig s f.session) f kind = true) (hx : sessionOf s f.session = some x) (hbody : rxBody f bytes = some body)
    (seq : Bool) (act : State → State) :
    receive s f kind bytes seq act =
      if tagOf s (some x.1.devNonce) (rxHeader f kind) body = f.tag then takeFrame s x.1 x.2 f seq act else tagFails s := by
  simp only [receive, hl, hstarted, hsound, hx, hbody, Bool.not_true, Bool.or_self, Bool.false_eq_true, if_false]

/-- A verified frame of the session in hand acts through its header, and then by its place in the sequence. -/
theorem receive_verified {s : State} {f : RxFrame} {kind : Nat} {bytes : List Byte} (h : Verified s f kind bytes) (seq : Bool)
    (act : State → State) :
    receive s f kind bytes seq act =
      if !seq then settle (received s f)
      else if f.seq = (received s f).hw.rxLast + 1 then act (accepted s f)
      else settle (if dist (received s f).hw.rxLast f.seq < 2 ^ 31 then sendAck (received s f) else received s f) := by
  obtain ⟨hl, hstarted, hsound, c, body, hc, hbody, htag⟩ := h
  rw [receive_checked hl hstarted hsound hc hbody, if_pos htag]
  rfl

/-- A sequenced frame that is next in sequence acts. -/
theorem receive_inSequence {s : State} {f : RxFrame} {kind : Nat} {bytes : List Byte} (h : InSequence s f kind bytes)
    (act : State → State) : receive s f kind bytes true act = act (accepted s f) := by
  rw [receive_verified h.1, Bool.not_true, if_neg Bool.false_ne_true, if_pos h.2]

/-- A command of a powered module leaves what its meaning leaves. -/
theorem leaves_whenUp {c : Instr} {s : State} {f : State → State} {t : State} (hc : exec c s = whenUp s f) (hup : s.isUp) (ht : f s = t) :
    Leaves c s t := by
  rw [Leaves, hc, whenUp_up s f hup, ht]

/-- A frame that is next in sequence leaves what its own effect leaves. -/
theorem leaves_inSequence {c : Instr} {s t : State} {f : RxFrame} {kind : Nat} {bytes : List Byte} {act : State → State}
    (h : InSequence s f kind bytes) (hup : s.isUp) (hc : exec c s = whenUp s fun s => receive s f kind bytes true act)
    (ht : act (accepted s f) = t) : Leaves c s t :=
  leaves_whenUp hc hup ((receive_inSequence h act).trans ht)

/-! ### A frame that is dropped -/

theorem rejectFrame_count (s : State) : (rejectFrame s).fld F.ringRxRejectCount = min 65535 (s.fld F.ringRxRejectCount + 1) := by
  rw [rejectFrame, State.fld_addFld_self _ _ _ ⟨by decide, by decide⟩, Nat.min_comm]
  rfl

theorem rejectFrame_regs (s : State) : SameRegsBut (· = A.ringRxReject) s (rejectFrame s) :=
  fun a ha => State.reg_addFld_other s F.ringRxRejectCount a 1 ha

/-- A dropped frame is counted, and changes nothing else. -/
theorem ends_rejected {c : Instr} {s : State} (h : Leaves c s (rejectFrame s)) :
    Ends c s fun t => t.fld F.ringRxRejectCount = min 65535 (s.fld F.ringRxRejectCount + 1) ∧
      SameRegsBut (· = A.ringRxReject) s t ∧ TouchesOnly [.regs] s t :=
  .of_leaves h ⟨rejectFrame_count s, rejectFrame_regs s, touchesOnly_regs rfl⟩

/-- Outside block EVT a frame with a wrong tag changes RX_REJECT alone. -/
theorem tagFails_reg (s : State) {a : Nat} (ha : ¬evtReg a) : (tagFails s).reg a = (rejectFrame s).reg a := by
  unfold tagFails
  dsimp only
  split
  · exact raise_reg _ 234 a (by decide) ha
  · split
    · exact raise_reg _ 234 a (by decide) ha
    · rfl

theorem tagFails_touches (s : State) : TouchesOnly Part.events s (tagFails s) ∧ (tagFails s).pending = s.pending :=
  State.touches_of_hide Part.events rfl fun d => tagFails_hide (by decide) d s

/-! ### Runs of register reads (R99) -/

theorem accessRead_status (s : State) (path : Path) (addr : Word) : (accessRead s path addr).2.2 ≤ 4 := by
  have hat : ∀ a, (readAt s path a).2.2 ≤ 4 := fun a => by
    unfold readAt
    split
    · exact Nat.le_of_ble_eq_true rfl
    · split
      · dsimp only
        split <;> exact Nat.le_of_ble_eq_true rfl
      · split <;> exact Nat.zero_le 4
  have hbit : ∀ b i, (aliasReadBit s path b i).2.2 ≤ 4 := fun b i => by
    unfold aliasReadBit
    split <;> exact Nat.le_of_ble_eq_true rfl
  unfold accessRead
  dsimp only
  split
  · exact Nat.le_of_ble_eq_true rfl
  · split
    · exact hbit ..
    · split
      · exact hat _
      · exact Nat.le_of_ble_eq_true rfl

/-- A run reads its last word from the state that the words before it left. -/
theorem readRun_succ (s : State) (a : Word) (n : Nat) (x : Bool) :
    readRun s a (n + 1) x = (readRun s a n x).note (accessRead (readRun s a n x).s .haywain (wordAddr a x n)).1 n
      (wordRead s a x n).2 (leBytes 4 (wordRead s a x n).1.toNat) := by
  rw [readRun, List.range_succ, List.foldl_append]
  rfl

theorem readRun_memory (s : State) (a : Word) (n : Nat) (x : Bool) : SameMemory s (readRun s a n x).s :=
  have htouches := (State.touches_of_hide [.free, .regs, .groups, .fault] rfl fun d => readRun_hide (by decide) d s a n x).1
  sameMemory_of_parts (htouches .mem (by decide)) (htouches .lost (by decide))

theorem readRun_bytes (s : State) (a : Word) (n : Nat) (x : Bool) :
    (readRun s a n x).bytes = (List.range n).flatMap fun i => leBytes 4 (wordRead s a x i).1.toNat := by
  induction n with
  | zero => rfl
  | succ n ih => rw [readRun_succ, RegRun.note, ih, List.range_succ, List.flatMap_append, List.flatMap_singleton]

/-- STATUS and FIRST_BAD of a run: of the first word that is not OK, and 0 where all are. -/
theorem readRun_status (s : State) (a : Word) (n : Nat) (x : Bool) :
    (readRun s a n x).status ≤ 4 ∧
    ((readRun s a n x).status = 0 → (readRun s a n x).bad = 0 ∧ ∀ i < n, (wordRead s a x i).2 = 0) ∧
    ((readRun s a n x).status ≠ 0 → (readRun s a n x).bad < n ∧
      (readRun s a n x).status = (wordRead s a x (readRun s a n x).bad).2 ∧ ∀ i < (readRun s a n x).bad, (wordRead s a x i).2 = 0) := by
  induction n with
  | zero => exact ⟨Nat.zero_le 4, fun _ => ⟨rfl, fun i hi => absurd hi (Nat.not_lt_zero i)⟩, fun h => absurd rfl h⟩
  | succ n ih =>
    obtain ⟨hle, hok, hbad⟩ := ih
    rw [readRun_succ, RegRun.note]
    dsimp only
    by_cases hs : (readRun s a n x).status = 0
    · obtain ⟨hb, hall⟩ := hok hs
      by_cases hw : (wordRead s a x n).2 = 0
      · simp only [hs, hw, hb, if_true, ne_eq, not_true_eq_false, decide_false, Bool.and_false, Bool.false_eq_true, if_false]
        exact ⟨Nat.zero_le 4, fun _ => ⟨trivial, fun i hi => (Nat.lt_succ_iff_lt_or_eq.1 hi).elim (hall i) fun e => e ▸ hw⟩,
          fun h => h.elim⟩
      · simp only [hs, hw, if_true, ne_eq, not_false_eq_true, decide_true, Bool.and_true]
        exact ⟨accessRead_status .., fun h => h.elim, fun _ => ⟨Nat.lt_succ_self n, trivial, hall⟩⟩
    · obtain ⟨hlt, heq, hall⟩ := hbad hs
      simp only [hs, if_false, decide_false, Bool.false_and, Bool.false_eq_true]
      exact ⟨hle, fun h => h.elim, fun _ => ⟨by omega, heq, hall⟩⟩

/-! ### Register frames (R99) -/

theorem countOk_iff (n : BitVec 8) : countOk n = true ↔ 1 ≤ n.toNat ∧ n.toNat ≤ 64 := by
  simp [countOk]

theorem regRead_malformed {f : RxFrame} {n : BitVec 8} (h : n.toNat < 1 ∨ 64 < n.toNat ∨ f.length ≠ 8) (s : State) (a : Word) (x : Bool) :
    regRead s f a n x = settle (sendSeq s tyRegRdResp (regHead a n 5 0) none) := by
  rw [regRead, if_pos]
  simp only [Bool.or_eq_true, Bool.not_eq_true', ← Bool.not_eq_true, countOk_iff, decide_eq_true_eq]
  exact h.elim (fun h => .inl (by omega)) fun h => h.imp_left fun h => by omega

theorem regRead_good {f : RxFrame} {n : BitVec 8} (hlo : 1 ≤ n.toNat) (hhi : n.toNat ≤ 64) (hf : f.length = 8) (s : State) (a : Word)
    (x : Bool) :
    regRead s f a n x = settle (sendSeq (readRun s a n.toNat x).s tyRegRdResp
      (regHead a n (readRun s a n.toNat x).status (readRun s a n.toNat x).bad ++ (readRun s a n.toNat x).bytes) none) := by
  rw [regRead, (countOk_iff n).2 ⟨hlo, hhi⟩, hf]
  rfl

theorem regWritten_malformed {f : RxFrame} {n : BitVec 8} (h : n.toNat < 1 ∨ 64 < n.toNat ∨ f.length.toNat ≠ 8 + 4 * n.toNat) (s : State)
    (a : Word) (x : Bool) (bs : List Byte) : regWritten s f a n x bs = settle (sendSeq s tyRegWrResp (regHead a n 5 0) none) := by
  rw [regWritten, if_pos]
  simp only [Bool.or_eq_true, Bool.not_eq_true', ← Bool.not_eq_true, countOk_iff, decide_eq_true_eq]
  omega

theorem wordAddr_zero (a : Word) (x : Bool) : wordAddr a x 0 = a := by
  cases x <;> simp [wordAddr]

/-- A run of one word. -/
theorem readRun_one (s : State) (a : Word) (x : Bool) :
    (readRun s a 1 x).s = (accessRead s .haywain a).1 ∧ (readRun s a 1 x).status = (accessRead s .haywain a).2.2 ∧
    (readRun s a 1 x).bad = 0 ∧ (readRun s a 1 x).bytes = leBytes 4 (accessRead s .haywain a).2.1.toNat := by
  have hone : readRun s a 1 x = readStep a x (runInit s) 0 := rfl
  rw [hone, readStep, wordAddr_zero]
  exact ⟨rfl, rfl, ite_self _, rfl⟩

theorem leNat_leBytes (n v : Nat) : leNat (leBytes n v) = v % 256 ^ n := by
  induction n generalizing v with
  | zero => simp [leBytes, leNat, Nat.mod_one]
  | succ n ih =>
    rw [leBytes, leNat, ih, BitVec.toNat_ofNat, Nat.pow_succ' (n := n), Nat.mod_mul]

theorem leBytes_length (n v : Nat) : (leBytes n v).length = n := by
  induction n generalizing v with
  | zero => rfl
  | succ n ih => rw [leBytes, List.length_cons, ih]

theorem leWord_leBytes (w : Word) : leWord (leBytes 4 w.toNat) = w := by
  rw [leWord, List.take_of_length_le (by rw [leBytes_length]), leNat_leBytes, Nat.mod_eq_of_lt (show w.toNat < 256 ^ 4 from w.isLt),
    BitVec.ofNat_toNat, BitVec.setWidth_eq]

theorem regHead_length (a : Word) (n : BitVec 8) (i j : Nat) : (regHead a n i j).length = 8 := by
  simp only [regHead, List.length_append, leBytes_length, List.length_singleton]

/-- A REG_RD of one word answers with it. -/
theorem regRead_one {f : RxFrame} (hf : f.length = 8) (s : State) (a : Word) (x : Bool) :
    regRead s f a 1 x = settle (sendSeq (accessRead s .haywain a).1 tyRegRdResp
      (regHead a 1 (accessRead s .haywain a).2.2 0 ++ leBytes 4 (accessRead s .haywain a).2.1.toNat) none) := by
  obtain ⟨hs, hstatus, hbad, hbytes⟩ := readRun_one s a x
  rw [regRead_good (by decide) (by decide) hf, show (1 : BitVec 8).toNat = 1 from rfl, hs, hstatus, hbad, hbytes]

/-- The words of a body of one word. -/
theorem bodyWords_one (a w : Word) (n : BitVec 8) (i j : Nat) : bodyWords (regHead a n i j ++ leBytes 4 w.toNat) 1 = [(0, w)] := by
  rw [bodyWords, List.range_one, List.map_singleton, Nat.mul_zero, List.drop_left' (regHead_length a n i j), leWord_leBytes]

/-- A run of one write. -/
theorem writeRun_one (s : State) (a : Word) (x : Bool) (w : Word) :
    (writeRun s a x [(0, w)]).s = finishWrite (accessWrite s .haywain a w) ∧
    (writeRun s a x [(0, w)]).status = (accessWrite s .haywain a w).status ∧ (writeRun s a x [(0, w)]).bad = 0 ∧
    (writeRun s a x [(0, w)]).reset = (accessWrite s .haywain a w).reset := by
  rw [writeRun, List.foldl_cons, List.foldl_nil, if_neg (show ¬(runInit s).reset = true from Bool.false_ne_true), wordAddr_zero]
  exact ⟨rfl, rfl, ite_self _, rfl⟩

/-- A REG_WR of one word writes it and answers with its status. -/
theorem regWritten_one {s : State} {f : RxFrame} (hf : f.length = 12) {a w : Word} (hreset : (accessWrite s .haywain a w).reset = false)
    (x : Bool) :
    regWritten s f a 1 x (regHead a 1 x.toNat 0 ++ leBytes 4 w.toNat) =
      settle (sendSeq (finishWrite (accessWrite s .haywain a w)) tyRegWrResp (regHead a 1 (accessWrite s .haywain a w).status 0) none) := by
  obtain ⟨hs, hstatus, hbad, hrun⟩ := writeRun_one s a x w
  have hgood : ¬(!countOk 1 || decide (f.length.toNat ≠ 8 + 4 * (1 : BitVec 8).toNat)) = true := by
    rw [hf]
    decide
  rw [regWritten, if_neg hgood, show (1 : BitVec 8).toNat = 1 from rfl, bodyWords_one]
  dsimp only
  rw [hs, hstatus, hbad, hrun, hreset, if_neg Bool.false_ne_true]

end Sys2Proof.Machine

namespace Sys2Proof.Proofs.HaywainRings

open Sys2Proof.Machine

/-- Settles O23: a frame is dropped at the first check that it fails, and one that passes all of them acts by its place in the
sequence. -/
theorem frameChecks : Obligations.FrameChecks := by
  refine ⟨fun c f kind bytes s hm hl => ?_, fun c f kind bytes s hup hm hl hbad => ?_,
    fun c f kind bytes x body s hup hm hl hstarted hsound hx hbody htag => ?_, fun c f kind bytes s hup hm hkind hv hseq hahead => ?_,
    fun c f kind bytes s hup hm hkind hv hseq hbehind => ?_⟩ <;> obtain ⟨act, hc⟩ := exec_message hm
  · exact (hc s).trans (whenUp_same (receive_unheard hl ..))
  · exact ends_rejected (leaves_whenUp (hc s) hup (receive_rejected hl hbad ..))
  · have hleaves := leaves_whenUp (hc s) hup ((receive_checked hl hstarted hsound hx hbody ..).trans (if_neg htag))
    refine .of_leaves hleaves ⟨?_, fun a ha hevt => ?_, (tagFails_touches s).1⟩
    · exact (State.fld_congr (tagFails_reg s (not_evtReg_of_lt (by decide)))).trans (rejectFrame_count s)
    · exact (tagFails_reg s (by unfold evtReg; omega)).trans (rejectFrame_regs s a ha)
  · refine leaves_whenUp (hc s) hup ((receive_verified hv ..).trans ?_)
    rw [bne_iff_ne.2 hkind, Bool.not_true, if_neg Bool.false_ne_true, if_neg hseq, if_neg (Nat.not_lt.2 hahead)]
  · refine leaves_whenUp (hc s) hup ((receive_verified hv ..).trans ?_)
    rw [bne_iff_ne.2 hkind, Bool.not_true, if_neg Bool.false_ne_true, if_neg hseq, if_pos hbehind]

/-- Settles O26: a run of reads is taken word by word, and a frame of one word is one access. -/
theorem registerFrames : Obligations.RegisterFrames := by
  refine ⟨fun s f a n x h => regRead_malformed h s a x, fun s f a n x bs h => regWritten_malformed h s a x bs,
    fun s f a n x hlo hhi hf => regRead_good hlo hhi hf s a x, fun s a n x => ?_, fun f a x e s hup hf hseq => ?_,
    fun f a x w s hup hf hseq hreset => ?_⟩
  · obtain ⟨hle, hok, hbad⟩ := readRun_status s a n x
    exact ⟨readRun_memory s a n x, hle, readRun_bytes s a n x, by rw [readRun_succ]; rfl, hok, hbad⟩
  · exact settles_of_leaves (leaves_inSequence hseq hup rfl (regRead_one hf (accepted s f) a x)) rfl
  · have hbytes : regHead a 1 x.toNat 0 ++ [w].flatMap (fun w => leBytes 4 w.toNat) ++ [] = regHead a 1 x.toNat 0 ++ leBytes 4 w.toNat := by
      rw [List.flatMap_singleton, List.append_nil]
    refine settles_of_leaves (leaves_inSequence (act := fun s => regWritten s f a 1 x _) hseq hup ?_
      (regWritten_one (s := accepted s f) hf hreset x)) rfl
    rw [← hbytes]
    rfl

end Sys2Proof.Proofs.HaywainRings
end

section
/-! PROOFS. Address resolution (spec 04, R85; spec 18, R417; logs 19, 81): what a heard request is answered with. -/

namespace Sys2Proof.Machine

theorem started_of_hears {s : State} {l : Link} {f : NetFrame} (h : hears s l f = true) : s.pow.started = true :=
  (Bool.and_eq_true_iff.1 h).1

theorem answerAddress_dropped {s : State} {f : NetFrame} {many : BitVec 48}
    (h : f.fcsOk = false ∨ (f.dstMac ≠ (pageNow s).mac ∧ f.dstMac ≠ many)) (mine : Bool) (reply : Out) :
    answerAddress s f many mine reply = rejectFrame s := by
  refine if_pos ?_
  rw [Bool.not_eq_true', Bool.and_eq_false_iff, Bool.or_eq_false_iff, beq_eq_false_iff_ne, beq_eq_false_iff_ne]
  exact h

theorem answerAddress_sound {s : State} {f : NetFrame} {many : BitVec 48} (hfcs : f.fcsOk = true)
    (hdst : f.dstMac = (pageNow s).mac ∨ f.dstMac = many) (mine : Bool) (reply : Out) :
    answerAddress s f many mine reply = if mine then s.emit reply else s := by
  refine if_neg ?_
  rw [Bool.not_eq_true', Bool.and_eq_false_iff, Bool.or_eq_false_iff, beq_eq_false_iff_ne, beq_eq_false_iff_ne, hfcs]
  exact fun h => h.elim (nomatch ·) fun h => hdst.elim h.1 h.2

/-- A request that a started module hears leaves what answering it leaves. -/
theorem leaves_heard {c : Instr} {s t : State} {l : Link} {f : NetFrame} {act : State → State} (h : hears s l f = true) (hup : s.isUp)
    (hc : exec c s = whenStarted s fun s => if hears s l f then act s else s) (ht : act s = t) : Leaves c s t :=
  leaves_whenUp hc hup (by simp only [started_of_hears h, h, if_true, ht])

/-- A request that the module does not hear, or that answering leaves as it is, does nothing. -/
theorem exec_unanswered {c : Instr} {s : State} {l : Link} {f : NetFrame} {act : State → State}
    (hc : exec c s = whenStarted s fun s => if hears s l f then act s else s) (h : hears s l f = true → act s = s) : exec c s = .next s := by
  refine hc.trans (whenUp_same ?_)
  dsimp only
  split
  · split
    · next hheard => exact h hheard
    · rfl
  · rfl

theorem exec_arpRequest (l : Link) (f : NetFrame) (t ip : BitVec 32) (mac : BitVec 48) (s : State) :
    exec (.arpRequest l f t ip mac) s = whenStarted s fun s =>
      if hears s l f then
        answerAddress s f (BitVec.allOnes 48) (t == (pageNow s).ip4Local)
          (.arpReply l (tagOut (pageNow s).hwCtl) (pageNow s).mac t mac ip)
      else s := rfl

theorem exec_neighbourSolicitation (l : Link) (f : NetFrame) (t ip : BitVec 128) (mac : BitVec 48) (s : State) :
    exec (.neighbourSolicitation l f t ip mac) s = whenStarted s fun s =>
      if hears s l f then
        answerAddress s f (solicitedMac (pageNow s).ip6Local) (t == (pageNow s).ip6Local)
          (.neighbourAdvert l (tagOut (pageNow s).hwCtl) (pageNow s).mac t mac ip)
      else s := rfl

end Sys2Proof.Machine

namespace Sys2Proof.Proofs.HaywainRings

open Sys2Proof.Machine

/-- Settles O30: a request is not heard, or dropped, or for another address, or answered. -/
theorem addressReplies : Obligations.AddressReplies := by
  refine ⟨fun l f ip mac s hup hl hfcs hdst => ?_, fun l f ip mac s hup hl hfcs hdst => ?_,
    fun l f t ip mac s hup hl hbad =>
      ends_rejected (leaves_heard hl hup (exec_arpRequest l f t ip mac s) (answerAddress_dropped hbad ..)),
    fun l f t ip mac s hup hl hbad =>
      ends_rejected (leaves_heard hl hup (exec_neighbourSolicitation l f t ip mac s) (answerAddress_dropped hbad ..)),
    fun l f t ip mac s hup hfcs ht hdst => exec_unanswered (exec_arpRequest l f t ip mac s) fun _ => ?_,
    fun l f t ip mac s hup hfcs ht hdst => exec_unanswered (exec_neighbourSolicitation l f t ip mac s) fun _ => ?_,
    fun l f t ip mac s hl => exec_unanswered (exec_arpRequest l f t ip mac s) fun h => absurd (hl.symm.trans h) Bool.false_ne_true,
    fun l f t ip mac s hl =>
      exec_unanswered (exec_neighbourSolicitation l f t ip mac s) fun h => absurd (hl.symm.trans h) Bool.false_ne_true,
    fun s => ⟨fun hcur hopening => ?_, fun c hc => ?_⟩⟩
  · exact leaves_heard hl hup (exec_arpRequest l f _ ip mac s) ((answerAddress_sound hfcs hdst ..).trans (if_pos (beq_self_eq_true _)))
  · exact leaves_heard hl hup (exec_neighbourSolicitation l f _ ip mac s)
      ((answerAddress_sound hfcs hdst ..).trans (if_pos (beq_self_eq_true _)))
  · exact (answerAddress_sound hfcs hdst ..).trans (if_neg (ne_true_of_eq_false (beq_false_of_ne ht)))
  · exact (answerAddress_sound hfcs hdst ..).trans (if_neg (ne_true_of_eq_false (beq_false_of_ne ht)))
  · rw [pageNow, hcur, hopening]
    rfl
  · rw [pageNow, hc]
    rfl

end Sys2Proof.Proofs.HaywainRings
end

section
/-! PROOFS. What lasts while the module goes on (spec 04, R92, R104, R109, R111, R143; spec 14, R348): `settle` and the operations under
it write no register that only the host's indices or the session commands set, and end and open no session. `State.lasting` holds
these, with `rg` also the registers of the rings, and with `dm` what the DMA channels 0 to 27 have in hand and their LAST_STATUS. One
lemma for each operation says what it leaves. -/

namespace Sys2Proof.Machine

/-! ### What lasts -/

/-- SESSION, HOP_LIMIT and the indices that the host alone sets; with `rg` every register of a ring. -/
def lastingReg (rg : Bool) (a : Nat) : Prop :=
  a = A.ringSession ∨ a = A.ringHopLimit ∨ (0x11000 ≤ a ∧ a < 0x12000 ∧ (rg = true ∨ a % 64 = 0x24 ∨ a % 64 = 0x30)) ∨
  (0x12000 ≤ a ∧ a < 0x12100 ∧ a % 32 = 0x10)

/-- The session, the one being opened, the last SEQ received; without a session nothing waits and nothing is owed anew. -/
def HwState.lasting (x : HwState) : Option Sess × Option Sess × BitVec 32 × Option (List TxFrame × List TxFrame × BitVec 32 × Bool) :=
  (x.cur, x.opening, x.rxLast, if x.cur.isNone then some (x.unacked, x.waiting, x.txNext, x.ackOwed) else none)

/-- What a channel has in hand, and what waits for it. -/
def DmaChan.lasting (x : DmaChan) : Option (BitVec 8 × DescBody × BitVec 32) × List DmaDesc :=
  (x.inHand.map fun y => (y.d.kind, y.d.body, y.d.index), x.queue)

/-- What lasts of a state. -/
def State.lasting (rg dm : Bool) (s : State) :
    ((a : Nat) → lastingReg rg a → Word) × (Option Sess × Option Sess × BitVec 32 × Option (List TxFrame × List TxFrame × BitVec 32 × Bool)) ×
    ((c : Nat) → dm = true → c < 28 → Nat × Option (BitVec 8 × DescBody × BitVec 32) × List DmaDesc) :=
  (fun a _ => s.reg a, s.hw.lasting, fun c _ _ => (s.fld (F.dmaChStatLastStatus c), (s.chan c).lasting))

variable {rg dm : Bool} {s t : State}

theorem State.lasting_of_parts (hreg : ∀ a, lastingReg rg a → t.reg a = s.reg a) (hhw : t.hw.lasting = s.hw.lasting)
    (hdma : dm = true → ∀ c < 28, t.fld (F.dmaChStatLastStatus c) = s.fld (F.dmaChStatLastStatus c) ∧ (t.chan c).lasting = (s.chan c).lasting) :
    t.lasting rg dm = s.lasting rg dm :=
  Prod.ext (funext fun a => funext (hreg a)) (Prod.ext hhw (funext fun c => funext fun hd => funext fun hc =>
    Prod.ext (hdma hd c hc).1 (hdma hd c hc).2))

/-- What lasts is asked of the registers, of the transport state and of the channels alone. -/
theorem State.lasting_of_hide (e : t.hide 0xFF7FFFFED State.reset = s.hide 0xFF7FFFFED State.reset) : t.lasting rg dm = s.lasting rg dm := by
  have h : (t.hide 0xFF7FFFFED State.reset).lasting rg dm = (s.hide 0xFF7FFFFED State.reset).lasting rg dm := congrArg (State.lasting rg dm) e
  exact h

theorem State.reg_of_lasting (h : t.lasting rg dm = s.lasting rg dm) {a : Nat} (ha : lastingReg rg a) : t.reg a = s.reg a :=
  congrFun (congrFun (congrArg Prod.fst h) a) ha

theorem State.hw_of_lasting (h : t.lasting rg dm = s.lasting rg dm) : t.hw.lasting = s.hw.lasting := congrArg (fun x => x.2.1) h

theorem State.dma_of_lasting (h : t.lasting rg true = s.lasting rg true) {c : Nat} (hc : c < 28) :
    t.fld (F.dmaChStatLastStatus c) = s.fld (F.dmaChStatLastStatus c) ∧ (t.chan c).lasting = (s.chan c).lasting :=
  Prod.ext_iff.1 (congrFun (congrFun (congrFun (congrArg (fun x => x.2.2) h) c) rfl) hc)

theorem State.lasting_ite {p : Prop} [Decidable p] (a b : State) :
    (if p then a else b).lasting rg dm = if p then a.lasting rg dm else b.lasting rg dm := by
  split <;> rfl

theorem State.each_lasts {α : Type} (s : State) (l : List α) (f : State → α → State)
    (h : ∀ s x, (f s x).lasting rg dm = s.lasting rg dm) : (s.each l f).lasting rg dm = s.lasting rg dm :=
  State.each_keeps (State.lasting rg dm) s l f h

theorem State.each_lasts_mem {α : Type} (s : State) (l : List α) (f : State → α → State)
    (h : ∀ s, ∀ x ∈ l, (f s x).lasting rg dm = s.lasting rg dm) : (s.each l f).lasting rg dm = s.lasting rg dm := by
  induction l generalizing s with
  | nil => rfl
  | cons x l ih =>
    exact (ih (f s x) fun s y hy => h s y (List.mem_cons_of_mem x hy)).trans (h s x List.mem_cons_self)

/-! ### Register words, the transport and the channels -/

/-- An address of no register that lasts. -/
def asideAddr (rg dm : Bool) (a : Nat) : Prop := ¬lastingReg rg a ∧ (dm = false ∨ a % 16 ≠ 4 ∨ a < 0xB1004 ∨ 0xB11C4 ≤ a)

/-- A field of no register that lasts; in CH_STAT one beside LAST_STATUS. -/
def Fld.aside (rg : Bool) (f : Fld) : Prop :=
  ¬lastingReg rg f.addr ∧ (f.addr % 16 ≠ 4 ∨ f.addr < 0xB1004 ∨ 0xB11C4 ≤ f.addr ∨ (f.lo ≤ f.hi ∧ (f.hi < 8 ∨ 15 < f.lo)))

theorem State.setReg_lasts (s : State) {a : Nat} (w : Word) (h : asideAddr rg dm a) : (s.setReg a w).lasting rg dm = s.lasting rg dm := by
  refine State.lasting_of_parts (fun _ hb => State.reg_setReg_other _ _ _ _ fun e => h.1 (e ▸ hb)) rfl fun hd c hc =>
    ⟨State.fld_congr (State.reg_setReg_other _ _ _ _ ?_), rfl⟩
  have ha := h.2
  simp only [hd, Bool.true_eq_false, false_or] at ha
  simp only [F.dmaChStatLastStatus, A.dmaChStat]
  omega

/-- A field beside bits 8 to 15 leaves these. -/
theorem bits_setBits_beside (w : Word) {f : Fld} (v : Nat) (hle : f.lo ≤ f.hi) (h : f.hi < 8 ∨ 15 < f.lo) :
    bits (setBits w f.hi f.lo v) 15 8 = bits w 15 8 := by
  refine Nat.eq_of_testBit_eq fun i => ?_
  rw [testBit_bits, testBit_bits]
  by_cases hi : i < 15 + 1 - 8
  · rw [getLsbD_setBits _ _ _ _ _ (by omega), if_neg (by omega)]
  · simp [hi]

theorem State.setFld_lasts (s : State) {f : Fld} (v : Nat) (h : f.aside rg) : (s.setFld f v).lasting rg dm = s.lasting rg dm := by
  refine State.lasting_of_parts (fun _ hb => State.reg_setFld_other _ _ _ _ fun e => h.1 (e ▸ hb)) rfl fun _ c hc => ⟨?_, rfl⟩
  by_cases hf : f.addr = A.dmaChStat c
  · have hin : f.addr % 16 = 4 ∧ 0xB1004 ≤ f.addr ∧ f.addr < 0xB11C4 := by
      rw [hf, A.dmaChStat]
      omega
    obtain ⟨hle, hapart⟩ : f.lo ≤ f.hi ∧ (f.hi < 8 ∨ 15 < f.lo) := by
      have ha := h.2
      omega
    show bits ((s.setFld f v).reg (A.dmaChStat c)) 15 8 = bits (s.reg (A.dmaChStat c)) 15 8
    rw [← hf, State.setFld, State.reg_setReg_self]
    exact bits_setBits_beside _ v hle hapart
  · exact State.fld_congr (State.reg_setFld_other _ _ _ _ (Ne.symm hf))

theorem State.addFld_lasts (s : State) {f : Fld} (v : Nat) (h : f.aside rg) : (s.addFld f v).lasting rg dm = s.lasting rg dm :=
  s.setFld_lasts _ h

/-- LAST_STATUS of a triggered channel. -/
theorem State.setLastStatus_lasts (s : State) {c : Nat} (v : Nat) (h : dm = true → 28 ≤ c) :
    (s.setFld (F.dmaChStatLastStatus c) v).lasting rg dm = s.lasting rg dm := by
  refine State.lasting_of_parts (fun a ha => State.reg_setFld_other _ _ _ _ ?_) rfl fun hd b hb =>
    ⟨State.fld_congr (State.reg_setFld_other _ _ _ _ ?_), rfl⟩
  · simp only [lastingReg, A.ringSession, A.ringHopLimit] at ha
    simp only [F.dmaChStatLastStatus, A.dmaChStat]
    omega
  · have hc := h hd
    simp only [F.dmaChStatLastStatus, A.dmaChStat]
    omega

theorem State.lasts_hw (s : State) {x : HwState} (h : x.lasting = s.hw.lasting) : State.lasting rg dm { s with hw := x } = s.lasting rg dm :=
  State.lasting_of_parts (fun _ _ => rfl) h fun _ _ _ => ⟨rfl, rfl⟩

theorem State.setChan_lasts (s : State) {c : Nat} {x : DmaChan} (h : dm = true → c < 28 → x.lasting = (s.chan c).lasting) :
    (s.setChan c x).lasting rg dm = s.lasting rg dm := by
  refine State.lasting_of_parts (fun _ _ => rfl) rfl fun hd b hb => ⟨rfl, ?_⟩
  rw [State.chan_setChan]
  split
  · next e => exact e ▸ h hd (e ▸ hb)
  · rfl

/-! ### The registers that are written -/

theorem A.dmaTchRuns_aside (i : Nat) : asideAddr rg dm (A.dmaTchRuns i) := by
  simp only [asideAddr, A.dmaTchRuns, lastingReg, A.ringSession, A.ringHopLimit]
  omega

theorem A.ringCi_aside (i : Nat) : asideAddr false dm (A.ringCi i) := by
  simp only [asideAddr, A.ringCi, lastingReg, A.ringSession, A.ringHopLimit, Bool.false_eq_true, false_or]
  omega

theorem A.ringCplPi_aside (i : Nat) : asideAddr false dm (A.ringCplPi i) := by
  simp only [asideAddr, A.ringCplPi, lastingReg, A.ringSession, A.ringHopLimit, Bool.false_eq_true, false_or]
  omega

theorem A.ringStopIndex_aside (i : Nat) : asideAddr false false (A.ringStopIndex i) := by
  simp only [asideAddr, A.ringStopIndex, lastingReg, A.ringSession, A.ringHopLimit, Bool.false_eq_true, false_or, true_or, and_true]
  omega

theorem F.dmaBadDescCount_aside : F.dmaBadDescCount.aside rg := by
  simp only [Fld.aside, F.dmaBadDescCount, A.dmaBadDesc, lastingReg, A.ringSession, A.ringHopLimit]
  omega

theorem F.dmaTchStatBusy_aside (i : Nat) : (F.dmaTchStatBusy i).aside rg := by
  simp only [Fld.aside, F.dmaTchStatBusy, A.dmaTchStat, lastingReg, A.ringSession, A.ringHopLimit]
  omega

theorem F.dmaTchStatStatus_aside (i : Nat) : (F.dmaTchStatStatus i).aside rg := by
  simp only [Fld.aside, F.dmaTchStatStatus, A.dmaTchStat, lastingReg, A.ringSession, A.ringHopLimit]
  omega

theorem F.dmaTrigMissedCount_aside : F.dmaTrigMissedCount.aside rg := by
  simp only [Fld.aside, F.dmaTrigMissedCount, A.dmaTrigMissed, lastingReg, A.ringSession, A.ringHopLimit]
  omega

theorem F.faultRrecHeldCount_aside : F.faultRrecHeldCount.aside rg := by
  simp only [Fld.aside, F.faultRrecHeldCount, A.faultRrecHeld, lastingReg, A.ringSession, A.ringHopLimit]
  omega

theorem F.layerSlotStatCause_aside (i : Nat) : (F.layerSlotStatCause i).aside rg := by
  simp only [Fld.aside, F.layerSlotStatCause, A.layerSlotStat, lastingReg, A.ringSession, A.ringHopLimit]
  omega

theorem F.layerSlotStatOnTwin_aside (i : Nat) : (F.layerSlotStatOnTwin i).aside rg := by
  simp only [Fld.aside, F.layerSlotStatOnTwin, A.layerSlotStat, lastingReg, A.ringSession, A.ringHopLimit]
  omega

theorem F.layerTwinReadsCount_aside : F.layerTwinReadsCount.aside rg := by
  simp only [Fld.aside, F.layerTwinReadsCount, A.layerTwinReads, lastingReg, A.ringSession, A.ringHopLimit]
  omega

theorem F.objFaultsCount_aside : F.objFaultsCount.aside rg := by
  simp only [Fld.aside, F.objFaultsCount, A.objFaults, lastingReg, A.ringSession, A.ringHopLimit]
  omega

theorem F.objPipeStatCause_aside (i : Nat) : (F.objPipeStatCause i).aside rg := by
  simp only [Fld.aside, F.objPipeStatCause, A.objPipeStat, lastingReg, A.ringSession, A.ringHopLimit]
  omega

theorem F.pipeStatCause_aside (i : Nat) : (F.pipeStatCause i).aside rg := by
  simp only [Fld.aside, F.pipeStatCause, A.pipeStat, lastingReg, A.ringSession, A.ringHopLimit]
  omega

theorem F.ringCtlRun_aside (i : Nat) : (F.ringCtlRun i).aside false := by
  simp only [Fld.aside, F.ringCtlRun, A.ringCtl, lastingReg, A.ringSession, A.ringHopLimit, Bool.false_eq_true, false_or]
  omega

theorem F.ringLinkStatActive_aside : F.ringLinkStatActive.aside rg := by
  simp only [Fld.aside, F.ringLinkStatActive, A.ringLinkStat, lastingReg, A.ringSession, A.ringHopLimit]
  omega

theorem F.ringPrecHeldCount_aside (i : Nat) : (F.ringPrecHeldCount i).aside rg := by
  simp only [Fld.aside, F.ringPrecHeldCount, A.ringPrecHeld, lastingReg, A.ringSession, A.ringHopLimit]
  omega

theorem F.ringStatCause_aside (i : Nat) : (F.ringStatCause i).aside false := by
  simp only [Fld.aside, F.ringStatCause, A.ringStat, lastingReg, A.ringSession, A.ringHopLimit, Bool.false_eq_true, false_or]
  omega

theorem F.ringStatState_aside (i : Nat) : (F.ringStatState i).aside false := by
  simp only [Fld.aside, F.ringStatState, A.ringStat, lastingReg, A.ringSession, A.ringHopLimit, Bool.false_eq_true, false_or]
  omega

theorem F.sceneDropCntCount_aside : F.sceneDropCntCount.aside rg := by
  simp only [Fld.aside, F.sceneDropCntCount, A.sceneDropCnt, lastingReg, A.ringSession, A.ringHopLimit]
  omega

theorem F.sceneSlipCntCount_aside : F.sceneSlipCntCount.aside rg := by
  simp only [Fld.aside, F.sceneSlipCntCount, A.sceneSlipCnt, lastingReg, A.ringSession, A.ringHopLimit]
  omega

theorem F.schedThrottleHeld_aside : F.schedThrottleHeld.aside rg := by
  simp only [Fld.aside, F.schedThrottleHeld, A.schedThrottle, lastingReg, A.ringSession, A.ringHopLimit]
  omega

theorem F.schedThrottleReproof_aside : F.schedThrottleReproof.aside rg := by
  simp only [Fld.aside, F.schedThrottleReproof, A.schedThrottle, lastingReg, A.ringSession, A.ringHopLimit]
  omega

theorem F.evtSrcStatSpiFlag_aside (i : Nat) : (F.evtSrcStatSpiFlag i).aside rg := by
  simp only [Fld.aside, F.evtSrcStatSpiFlag, A.evtSrcStat, lastingReg, A.ringSession, A.ringHopLimit]
  omega

theorem F.evtSrcStatCount_aside (i : Nat) : (F.evtSrcStatCount i).aside rg := by
  simp only [Fld.aside, F.evtSrcStatCount, A.evtSrcStat, lastingReg, A.ringSession, A.ringHopLimit]
  omega

theorem F.evtSrcStatAsserted_aside (i : Nat) : (F.evtSrcStatAsserted i).aside rg := by
  simp only [Fld.aside, F.evtSrcStatAsserted, A.evtSrcStat, lastingReg, A.ringSession, A.ringHopLimit]
  omega

theorem F.evtSaturationsCount_aside : F.evtSaturationsCount.aside rg := by
  simp only [Fld.aside, F.evtSaturationsCount, A.evtSaturations, lastingReg, A.ringSession, A.ringHopLimit]
  omega

theorem F.evtLinkSleepAAsleep_aside : F.evtLinkSleepAAsleep.aside rg := by
  simp only [Fld.aside, F.evtLinkSleepAAsleep, A.evtLinkSleep, lastingReg, A.ringSession, A.ringHopLimit]
  omega

theorem F.evtLinkSleepBAsleep_aside : F.evtLinkSleepBAsleep.aside rg := by
  simp only [Fld.aside, F.evtLinkSleepBAsleep, A.evtLinkSleep, lastingReg, A.ringSession, A.ringHopLimit]
  omega

theorem A.ringPrecWr_aside (i : Nat) : asideAddr rg dm (A.ringPrecWr i) := by
  simp only [asideAddr, A.ringPrecWr, lastingReg, A.ringSession, A.ringHopLimit]
  omega

/-! ### Parts of the state -/

theorem State.lasts_scene (s : State) (v : SceneState) : State.lasting rg dm { s with scene := v } = s.lasting rg dm := rfl
theorem State.lasts_fetches (s : State) (v : SMap Fetch) : State.lasting rg dm { s with fetches := v } = s.lasting rg dm := rfl
theorem State.lasts_precHeld (s : State) (v : SMap (List (List Byte))) : State.lasting rg dm { s with precHeld := v } = s.lasting rg dm := rfl

theorem State.setRing_lasts (s : State) (n : Nat) (r : Ring) : (s.setRing n r).lasting rg dm = s.lasting rg dm :=
  State.lasting_of_hide (State.setRing_hide rfl ..)

theorem State.setPipe_lasts (s : State) (p : Nat) (r : PipeRt) : (s.setPipe p r).lasting rg dm = s.lasting rg dm :=
  State.lasting_of_hide (State.setPipe_hide rfl ..)

theorem State.setGate_lasts (s : State) (m : Nat) (g : Gate) : (s.setGate m g).lasting rg dm = s.lasting rg dm :=
  State.lasting_of_hide (State.setGate_hide rfl ..)

theorem State.setSource_lasts (s : State) (k : Nat) (v : Source) : (s.setSource k v).lasting rg dm = s.lasting rg dm :=
  State.lasting_of_hide (State.setSource_hide rfl ..)

theorem State.setCam_lasts (s : State) (c : Nat) (v : Cam) : (s.setCam c v).lasting rg dm = s.lasting rg dm :=
  State.lasting_of_hide (State.setCam_hide rfl ..)

theorem State.emit_lasts (s : State) (o : Out) : (s.emit o).lasting rg dm = s.lasting rg dm :=
  State.lasting_of_hide (State.emit_hide rfl ..)

theorem State.freshen_lasts (s : State) : (s.freshen).lasting rg dm = s.lasting rg dm :=
  State.lasting_of_hide (State.freshen_hide rfl ..)

theorem State.perfAdd_lasts (s : State) (k d : Nat) : (s.perfAdd k d).lasting rg dm = s.lasting rg dm :=
  State.lasting_of_hide (State.perfAdd_hide rfl ..)

theorem State.mapScene_lasts (s : State) (f : SceneState → SceneState) : (s.mapScene f).lasting rg dm = s.lasting rg dm :=
  State.lasting_of_hide (State.mapScene_hide rfl ..)

/-! ### Events -/

theorem setAsleep_lasts (s : State) (l : Link) (b : Bool) : (setAsleep s l b).lasting rg dm = s.lasting rg dm := by
  cases l
  · exact State.setFld_lasts _ _ F.evtLinkSleepAAsleep_aside
  · exact State.setFld_lasts _ _ F.evtLinkSleepBAsleep_aside

theorem wakeLink_lasts (s : State) (l : Link) : (wakeLink s l).lasting rg dm = s.lasting rg dm := by
  have h : (setAsleep (s.emit (.tc10Wakeup l)) l false).lasting rg dm = s.lasting rg dm := setAsleep_lasts ..
  simp only [wakeLink]
  split
  · exact h
  · exact (State.lasts_hw _ rfl).trans h

theorem wakeSome_lasts (s : State) : (wakeSome s).lasting rg dm = s.lasting rg dm := by
  simp only [wakeSome, wakeLink_lasts, State.lasting_ite, ite_self]

theorem wakeRequest_lasts (s : State) : (wakeRequest s).lasting rg dm = s.lasting rg dm :=
  (wakeSome_lasts _).trans (State.lasting_of_hide rfl)

/-- QCTL of a queue that a source names. -/
theorem setQctlState_lasts (s : State) (k v : Nat) :
    (s.setFld (F.evtQctlState (s.fld (F.evtSrcCfgQueue k))) v).lasting rg dm = s.lasting rg dm := by
  have hq : s.fld (F.evtSrcCfgQueue k) < 2 ^ 3 := s.fld_lt (F.evtSrcCfgQueue k)
  refine State.setFld_lasts _ _ ?_
  simp only [Fld.aside, F.evtQctlState, A.evtQctl, lastingReg, A.ringSession, A.ringHopLimit]
  omega

theorem wakeFor_lasts (s : State) (k : Nat) : (wakeFor s k).lasting rg dm = s.lasting rg dm := by
  simp only [wakeFor]
  split
  · exact (wakeRequest_lasts _).trans ((State.lasts_hw _ rfl).trans (setQctlState_lasts ..))
  · rfl

theorem wakeAll_lasts (s : State) : (wakeAll s).lasting rg dm = s.lasting rg dm := State.each_lasts _ _ _ wakeFor_lasts

theorem markSpi_lasts (s : State) (k : Nat) : (markSpi s k).lasting rg dm = s.lasting rg dm := by
  simp only [markSpi, State.setFld_lasts, State.lasting_ite, ite_self, F.evtSrcStatSpiFlag_aside]

theorem countOccurrence_lasts (s : State) (k : Nat) (r : Bool) : (countOccurrence s k r).lasting rg dm = s.lasting rg dm := by
  simp only [countOccurrence, wakeFor_lasts, State.setFld_lasts, State.addFld_lasts, State.setSource_lasts, State.lasting_ite, ite_self,
    F.evtSrcStatCount_aside, F.evtSaturationsCount_aside]

theorem raise_lasts (s : State) (k : Nat) : (raise s k).lasting rg dm = s.lasting rg dm := by
  simp only [raise, countOccurrence_lasts, markSpi_lasts, State.lasting_ite, ite_self]

theorem setCond_lasts (s : State) (k : Nat) (c : Bool) : (setCond s k c).lasting rg dm = s.lasting rg dm := by
  simp only [setCond, countOccurrence_lasts, markSpi_lasts, State.setFld_lasts, State.lasting_ite, ite_self, F.evtSrcStatAsserted_aside]

theorem reportCond_lasts (s : State) (k : Nat) (c : Bool) : (reportCond s k c).lasting rg dm = s.lasting rg dm := by
  simp only [reportCond, setCond_lasts, State.lasting_ite, ite_self]

theorem reportFull_lasts (s : State) (q : Nat) : (reportFull s q).lasting rg dm = s.lasting rg dm := by
  simp only [reportFull, reportCond_lasts]

/-! ### Frames and reads -/

theorem setActive_lasts (s : State) (l : Link) : (setActive s l).lasting rg dm = s.lasting rg dm := by
  simp only [setActive, State.setFld_lasts, F.ringLinkStatActive_aside]

theorem countTx_lasts (s : State) (l : Link) (bytes : Nat) : (countTx s l bytes).lasting rg dm = s.lasting rg dm :=
  State.lasting_of_hide (countTx_hide rfl ..)

/-- With a session in hand the frames and what is owed may change. -/
theorem HwState.lasting_of_open {x y : HwState} (hcur : y.cur = x.cur) (hopen : x.cur.isSome = true) (hopening : y.opening = x.opening)
    (hlast : y.rxLast = x.rxLast) : y.lasting = x.lasting := by
  obtain ⟨c, hc⟩ := Option.isSome_iff_exists.1 hopen
  simp only [HwState.lasting, hcur, hc, hopening, hlast, Option.isNone_some, Bool.false_eq_true, if_false]

theorem State.lasts_ackOwed {s : State} (h : s.hw.cur.isSome = true) (owed : Bool) :
    State.lasting rg dm { s with hw := { s.hw with ackOwed := owed } } = s.lasting rg dm :=
  State.lasts_hw _ (HwState.lasting_of_open rfl h rfl rfl)

theorem transmit_lasts (s : State) (kind seq : Nat) (body : List Byte) (retx : Bool) :
    (transmit s kind seq body retx).lasting rg dm = s.lasting rg dm := by
  simp only [transmit]
  split
  · rfl
  · next c hc =>
    refine (State.lasts_ackOwed (s := State.emit _ _) ?_ _).trans ((State.emit_lasts ..).trans (countTx_lasts ..))
    simp only [State.emit, countTx_hw, hc, Option.isSome_some]

theorem sendNext_lasts {s : State} (h : sessionOpen s = true) : (sendNext s).lasting rg dm = s.lasting rg dm := by
  unfold sendNext
  split
  · rfl
  · exact (transmit_lasts ..).trans (State.lasts_hw _ (HwState.lasting_of_open rfl h rfl rfl))

theorem ontoUsable_lasts (s : State) : (ontoUsable s).lasting rg dm = s.lasting rg dm := by
  simp only [ontoUsable, setActive_lasts, State.lasting_ite, ite_self]

theorem pump_lasts (s : State) : (pump s).lasting rg dm = s.lasting rg dm :=
  pump_induct (P := fun t => t.lasting rg dm = s.lasting rg dm) rfl (wakeSome_lasts s) (ontoUsable_lasts s)
    fun _ _ _ hopen ht _ _ => (sendNext_lasts hopen).trans ht

theorem sendSeq_lasts (s : State) (kind : Nat) (body : List Byte) (readId : Option (BitVec 16)) :
    (sendSeq s kind body readId).lasting rg dm = s.lasting rg dm := by
  unfold sendSeq
  split
  · next h => exact (pump_lasts _).trans (State.lasts_hw _ (HwState.lasting_of_open rfl h rfl rfl))
  · rfl

theorem writeFrame_lasts (s : State) (addr : Nat) (bs : List Byte) : (writeFrame s addr bs).lasting rg dm = s.lasting rg dm := by
  simp only [writeFrame, sendSeq_lasts]

theorem writePieces_lasts (n : Nat) (s : State) (a : Nat) (bs : List Byte) : (writePieces n s a bs).lasting rg dm = s.lasting rg dm := by
  induction n generalizing s a bs with
  | zero => rfl
  | succ n ih => simp only [writePieces, ih, writeFrame_lasts, State.lasting_ite, ite_self]

theorem writeHost_lasts (s : State) (a : Nat) (bs : List Byte) : (writeHost s a bs).lasting rg dm = s.lasting rg dm := by
  simp only [writeHost, writePieces_lasts]

theorem sendRead_lasts (s : State) (r : ReadReq) : (sendRead s r).lasting rg dm = s.lasting rg dm := by
  unfold sendRead
  split
  · rfl
  · exact (sendSeq_lasts ..).trans (State.lasts_hw _ rfl)

theorem pumpReads_lasts (s : State) : (pumpReads s).lasting rg dm = s.lasting rg dm := State.each_lasts _ _ _ sendRead_lasts

theorem readHost_lasts (s : State) (addr len : Nat) (p : ReadFor) : (readHost s addr len p).lasting rg dm = s.lasting rg dm :=
  (pumpReads_lasts _).trans (State.lasts_hw _ rfl)

/-! ### Completions and records -/

theorem issueCpl_lasts (s : State) (n : Nat) (c : Cpl) : (issueCpl s n c).lasting false dm = s.lasting false dm := by
  simp only [issueCpl, State.setFld_lasts, State.setReg_lasts, raise_lasts, writeHost_lasts, State.lasting_ite, ite_self,
    F.ringStatState_aside, A.ringCplPi_aside]

theorem issueHeld_lasts (n k : Nat) (s : State) : (issueHeld n k s).lasting false dm = s.lasting false dm := by
  induction k generalizing s with
  | zero => rfl
  | succ k ih =>
    unfold issueHeld
    split
    · rfl
    · simp only [ih, issueCpl_lasts, State.setRing_lasts, State.lasting_ite, ite_self]

theorem drainRing_lasts (s : State) (n : Nat) : (drainRing s n).lasting false dm = s.lasting false dm := by
  simp only [drainRing, issueHeld_lasts]

theorem takeKey_lasts (s : State) : (takeKey s).2.lasting rg dm = s.lasting rg dm := State.lasts_hw _ rfl

theorem openCpl_lasts (s : State) (n key : Nat) (index : BitVec 32) (tag : BitVec 16) (chain : Bool) :
    (openCpl s n key index tag chain).lasting rg dm = s.lasting rg dm :=
  State.lasting_of_hide (openCpl_hide rfl ..)

theorem closeCpl_lasts (s : State) (n key status : Nat) (detail : BitVec 64) (nocpl : Bool) (dep : Option (BitVec 8)) :
    (closeCpl s n key status detail nocpl dep).lasting false dm = s.lasting false dm := by
  simp only [closeCpl, State.setRing_lasts, drainRing_lasts]

theorem complete_lasts (s : State) (n : Nat) (index : BitVec 32) (h : DescHdr) (chain : Bool) (status : Nat) (detail : BitVec 64) :
    (complete s n index h chain status detail).lasting false dm = s.lasting false dm := by
  simp only [complete, closeCpl_lasts, openCpl_lasts, takeKey_lasts]

theorem setPrecHeld_lasts (s : State) (p : Nat) (l : List (List Byte)) : (setPrecHeld s p l).lasting rg dm = s.lasting rg dm := by
  simp only [setPrecHeld, State.setFld_lasts, State.lasts_precHeld, F.ringPrecHeldCount_aside]

theorem issuePrec_lasts (s : State) (p : Nat) (rec : List Byte) : (issuePrec s p rec).lasting rg dm = s.lasting rg dm := by
  simp only [issuePrec, State.setReg_lasts, writeHost_lasts, A.ringPrecWr_aside]

theorem issuePrecs_lasts (p n : Nat) (s : State) : (issuePrecs p n s).lasting rg dm = s.lasting rg dm := by
  induction n generalizing s with
  | zero => rfl
  | succ n ih =>
    unfold issuePrecs
    split
    · rfl
    · simp only [ih, issuePrec_lasts, setPrecHeld_lasts, State.lasting_ite, ite_self]

theorem drainPrec_lasts (s : State) (p : Nat) : (drainPrec s p).lasting rg dm = s.lasting rg dm := issuePrecs_lasts ..

theorem pipeRecord_lasts (s : State) (p : Nat) (rec : List Byte) : (pipeRecord s p rec).lasting rg dm = s.lasting rg dm := by
  simp only [pipeRecord, drainPrec_lasts, raise_lasts, setPrecHeld_lasts, State.lasting_ite, ite_self]

theorem noteHeld_lasts (s : State) : (noteHeld s).lasting rg dm = s.lasting rg dm := by
  simp only [noteHeld, State.setFld_lasts, reportCond_lasts, F.faultRrecHeldCount_aside]

/-! ### Rings -/

theorem haltRing_lasts (s : State) (n cause : Nat) (stop : BitVec 32) : (haltRing s n cause stop).lasting false false = s.lasting false false := by
  simp only [haltRing, State.setFld_lasts, State.setReg_lasts, State.setRing_lasts, raise_lasts,
    F.ringStatState_aside, F.ringStatCause_aside, F.ringCtlRun_aside, A.ringStopIndex_aside, A.ringCi_aside]

theorem endRing_lasts (s : State) (n cause : Nat) (stop : BitVec 32) : (endRing s n cause stop).lasting false false = s.lasting false false := by
  simp only [endRing, State.setRing_lasts, haltRing_lasts, State.lasting_ite, ite_self]

theorem countBad_lasts (s : State) (c : Nat) : (countBad s c).lasting rg dm = s.lasting rg dm := by
  simp only [countBad, State.addFld_lasts, raise_lasts, F.dmaBadDescCount_aside]

theorem failSlot_lasts (s : State) (n : Nat) (index : BitVec 32) (tag : BitVec 16) (chain : Bool) (status : Nat) :
    (failSlot s n index tag chain status).lasting false dm = s.lasting false dm := by
  simp only [failSlot, complete_lasts]

theorem readAhead_lasts (s : State) (n : Nat) : (readAhead s n).lasting false dm = s.lasting false dm := by
  simp only [readAhead]
  split
  · rfl
  · split <;> simp only [readHost_lasts, State.setRing_lasts, State.lasting_ite, ite_self]

theorem loopStop_lasts (s : State) (n : Nat) (d : Desc) : (loopStop s n d).lasting false false = s.lasting false false := by
  simp only [loopStop, endRing_lasts, failSlot_lasts]

theorem stepChain_lasts (s : State) (n : Nat) (d : Desc) : (stepChain s n d).lasting rg dm = s.lasting rg dm :=
  State.lasting_of_hide (stepChain_hide rfl ..)

theorem pipeFault_lasts (s : State) (p cause : Nat) : (pipeFault s p cause).lasting rg dm = s.lasting rg dm := by
  simp only [pipeFault, State.setFld_lasts, raise_lasts, F.pipeStatCause_aside]

theorem setBin_lasts (s : State) (x : ObjView × SMap ObjView) : (setBin s x).lasting rg dm = s.lasting rg dm :=
  State.lasting_of_hide (setBin_hide rfl ..)

theorem putCtxWords_lasts (s : State) (ws : SMap Word) : (putCtxWords s ws).lasting rg dm = s.lasting rg dm :=
  State.lasting_of_hide (putCtxWords_hide rfl ..)

theorem setOnTwin_lasts (s : State) (code : Nat) (on : Bool) : (setOnTwin s code on).lasting rg dm = s.lasting rg dm := by
  simp only [setOnTwin, State.setFld_lasts, State.lasts_scene, State.lasting_ite, ite_self, F.layerSlotStatOnTwin_aside]

theorem setStaging_lasts (s : State) (n : Nat) (c : Option Scene) : (setStaging s n c).lasting rg dm = s.lasting rg dm :=
  State.lasting_of_hide (setStaging_hide rfl ..)

theorem keepBefore_lasts (s : State) (n : Nat) : (keepBefore s n).lasting rg dm = s.lasting rg dm :=
  State.lasting_of_hide (keepBefore_hide rfl ..)

/-! ### Descriptors of SCENE rings -/

theorem badDesc_lasts (s : State) (n : Nat) (d : Desc) (status : Nat) : (badDesc s n d status).lasting false dm = s.lasting false dm := by
  simp only [badDesc, complete_lasts, setStaging_lasts]

theorem staged_lasts (s : State) (n : Nat) (d : Desc) (f : Scene → Scene) : (staged s n d f).lasting false dm = s.lasting false dm := by
  simp only [staged, complete_lasts, setStaging_lasts]

theorem actLayerWords_lasts (s : State) (n : Nat) (d : Desc) : (actLayerWords s n d).lasting false dm = s.lasting false dm := by
  simp only [actLayerWords, badDesc_lasts, staged_lasts, State.lasting_ite, ite_self]

theorem actObjWords_lasts (s : State) (n : Nat) (d : Desc) : (actObjWords s n d).lasting false dm = s.lasting false dm := by
  simp only [actObjWords, badDesc_lasts, staged_lasts, State.lasting_ite, ite_self]

theorem actMatrix_lasts (s : State) (n : Nat) (d : Desc) : (actMatrix s n d).lasting false dm = s.lasting false dm := by
  simp only [actMatrix, badDesc_lasts, staged_lasts, State.lasting_ite, ite_self]

theorem actLoftLoad_lasts (s : State) (n : Nat) (d : Desc) : (actLoftLoad s n d).lasting false dm = s.lasting false dm := by
  simp only [actLoftLoad, badDesc_lasts, staged_lasts, State.lasting_ite, ite_self]

theorem actFenceAcq_lasts (s : State) (n : Nat) (d : Desc) : (actFenceAcq s n d).lasting false dm = s.lasting false dm := by
  simp only [actFenceAcq, badDesc_lasts, staged_lasts, State.lasting_ite, ite_self]

theorem readPieces_lasts (s : State) (n key addr len : Nat) : (readPieces s n key addr len).lasting rg dm = s.lasting rg dm :=
  State.each_lasts _ _ _ fun _ _ => readHost_lasts ..

theorem beginContent_lasts (s : State) (n : Nat) (d : Desc) : (beginContent s n d).lasting false dm = s.lasting false dm := by
  unfold beginContent
  split
  · exact badDesc_lasts ..
  · simp only [readPieces_lasts, State.setRing_lasts, openCpl_lasts, takeKey_lasts]

theorem actLayerBlock_lasts (s : State) (n : Nat) (d : Desc) : (actLayerBlock s n d).lasting false dm = s.lasting false dm := by
  simp only [actLayerBlock, beginContent_lasts]

theorem actObjBlock_lasts (s : State) (n : Nat) (d : Desc) : (actObjBlock s n d).lasting false dm = s.lasting false dm := by
  simp only [actObjBlock, beginContent_lasts]

theorem actLutLoad_lasts (s : State) (n : Nat) (d : Desc) : (actLutLoad s n d).lasting false dm = s.lasting false dm := by
  simp only [actLutLoad, beginContent_lasts]

theorem submit_lasts (s : State) (i : WItem) : (submit s i).lasting rg dm = s.lasting rg dm :=
  State.lasting_of_hide (submit_hide rfl ..)

theorem handCommit_lasts (s : State) (n : Nat) (d : Desc) : (handCommit s n d).lasting rg dm = s.lasting rg dm := by
  simp only [handCommit, openCpl_lasts, setStaging_lasts, submit_lasts, takeKey_lasts]

theorem actCommit_lasts (s : State) (n : Nat) (d : Desc) : (actCommit s n d).lasting false dm = s.lasting false dm := by
  simp only [actCommit, State.setRing_lasts, badDesc_lasts, handCommit_lasts, State.lasting_ite, ite_self]

theorem actNop_lasts (s : State) (n : Nat) (d : Desc) : (actNop s n d).lasting false dm = s.lasting false dm := by
  simp only [actNop, complete_lasts]

theorem actJump_lasts (s : State) (n : Nat) (d : Desc) : (actJump s n d).lasting false dm = s.lasting false dm := by
  simp only [actJump, State.setRing_lasts, badDesc_lasts, complete_lasts, countBad_lasts, State.lasting_ite, ite_self]

/-! ### Telltales, levels and ports -/

theorem refreshTelltales_lasts (s : State) : (refreshTelltales s).lasting rg dm = s.lasting rg dm :=
  State.lasting_of_hide (refreshTelltales_hide rfl ..)

theorem changeForce_lasts (s : State) {f : State → State} (h : ∀ t, (f t).lasting rg dm = t.lasting rg dm) : (changeForce s f).lasting rg dm = s.lasting rg dm := by
  simp only [changeForce, refreshTelltales_lasts, raise_lasts, h, State.lasting_ite, ite_self]

theorem putCause_lasts (s : State) (c p : Nat) (v : BitVec 8) : (putCause s c p v).lasting rg dm = s.lasting rg dm :=
  State.lasting_of_hide (putCause_hide rfl ..)

theorem forceHold_lasts (s : State) (c p : Nat) (on : Bool) : (forceHold s c p on).lasting rg dm = s.lasting rg dm :=
  changeForce_lasts s fun _ => putCause_lasts ..

theorem settleLevels_lasts (s : State) : (settleLevels s).lasting rg dm = s.lasting rg dm :=
  State.lasting_of_hide (settleLevels_hide rfl ..)

theorem setThrottle_lasts (s : State) (reproof : Bool) (held : Nat) : (setThrottle s reproof held).lasting rg dm = s.lasting rg dm := by
  simp only [setThrottle, State.setFld_lasts, raise_lasts, settleLevels_lasts, State.lasting_ite, ite_self,
    F.schedThrottleReproof_aside, F.schedThrottleHeld_aside]

theorem charge_lasts (s : State) (k n : Nat) : (charge s k n).lasting rg dm = s.lasting rg dm :=
  State.lasting_of_hide (charge_hide rfl ..)

theorem countBytes_lasts (s : State) (k cls a n : Nat) : (countBytes s k cls a n).lasting rg dm = s.lasting rg dm :=
  State.lasting_of_hide (countBytes_hide rfl ..)

theorem fillBlocks_lasts (s : State) : (fillBlocks s).lasting rg dm = s.lasting rg dm := by
  refine State.each_lasts _ _ _ fun s c => ?_
  dsimp only
  split
  · rfl
  · split
    · rfl
    · exact State.setChan_lasts _ fun _ _ => rfl

theorem fenceRead_lasts (s : State) (addr : Nat) : (fenceRead s addr).lasting rg dm = s.lasting rg dm :=
  State.lasting_of_hide (fenceRead_hide rfl ..)

theorem takeTwin_lasts (s : State) (mine : Nat × Nat × Bool → Bool) : (takeTwin s mine).lasting rg dm = s.lasting rg dm := by
  simp only [takeTwin, State.addFld_lasts, State.lasts_scene, F.layerTwinReadsCount_aside]

theorem moveProgress_lasts (s : State) (k code : Nat) (f : Nat × Nat → Nat × Nat) :
    (moveProgress s k code f).lasting rg dm = s.lasting rg dm := by
  have hchan (c : Nat) : (s.setChan c (if k % 2 ≠ 0 then { s.chan c with wr := f (s.chan c).wr }
      else if (s.chan c).inHand.isNone then { s.chan c with runRead := true } else { s.chan c with rd := f (s.chan c).rd })).lasting rg dm =
      s.lasting rg dm :=
    State.setChan_lasts _ fun _ _ => by split <;> [rfl; (split <;> rfl)]
  unfold moveProgress
  split
  · exact takeTwin_lasts ..
  · split
    · rfl
    · split
      · exact State.setCam_lasts ..
      · split
        · split <;> rfl
        · split
          · exact hchan _
          · split
            · exact fenceRead_lasts ..
            · rfl

theorem startBurst_lasts (s : State) (m : Nat) (r : Req) : (startBurst s m r).lasting rg dm = s.lasting rg dm := by
  simp only [startBurst, State.setGate_lasts, charge_lasts, countBytes_lasts, moveProgress_lasts, State.lasting_ite, ite_self]

theorem cutBurst_lasts (s : State) (m : Nat) : (cutBurst s m).lasting rg dm = s.lasting rg dm := by
  unfold cutBurst
  split
  · rfl
  · simp only [moveProgress_lasts, State.freshen_lasts, State.setGate_lasts, State.lasting_ite, ite_self]

theorem servePort_lasts (k : Nat) (s : State) (m : Nat) : (servePort k s m).lasting rg dm = s.lasting rg dm := by
  induction k generalizing s with
  | zero => rfl
  | succ k ih =>
    simp only [servePort]
    split
    · exact fillBlocks_lasts s
    · exact (ih _).trans ((startBurst_lasts ..).trans (fillBlocks_lasts s))

theorem servePorts_lasts (s : State) : (servePorts s).lasting rg dm = s.lasting rg dm := by
  simp only [servePorts, cutBurst_lasts, fillBlocks_lasts, servePort_lasts, State.each_lasts, implies_true, State.lasting_ite, ite_self]

/-! ### Scenes -/

theorem pipeEvent_lasts (s : State) (p k : Nat) : (pipeEvent s p k).lasting rg dm = s.lasting rg dm := by
  simp only [pipeEvent, raise_lasts]

theorem setArmed_lasts (s : State) (a : Armed) : (setArmed s a).lasting rg dm = s.lasting rg dm :=
  State.lasting_of_hide (setArmed_hide rfl ..)

theorem dropArmed_lasts (s : State) (k : Nat) : (dropArmed s k).lasting rg dm = s.lasting rg dm :=
  State.lasting_of_hide (dropArmed_hide rfl ..)

theorem slotFault_lasts (s : State) (code cause : Nat) : (slotFault s code cause).lasting rg dm = s.lasting rg dm := by
  simp only [slotFault, State.setFld_lasts, raise_lasts, F.layerSlotStatCause_aside]

theorem offFrame_lasts (s : State) (p code : Nat) : (offFrame s p code).lasting rg dm = s.lasting rg dm :=
  State.lasting_of_hide (offFrame_hide rfl ..)

theorem holdOffPlanar_lasts (s : State) (p n : Nat) : (holdOffPlanar s p n).lasting rg dm = s.lasting rg dm := by
  simp only [holdOffPlanar, State.setPipe_lasts, forceHold_lasts, State.lasts_fetches]

theorem recheckClassS_lasts (s : State) (p : Nat) : (recheckClassS s p).lasting rg dm = s.lasting rg dm := by
  simp only [recheckClassS, forceHold_lasts]

theorem loseLayer_lasts (s : State) (m n : Nat) : (loseLayer s m n).lasting rg dm = s.lasting rg dm := by
  simp only [loseLayer, State.setFld_lasts, holdOffPlanar_lasts, offFrame_lasts, setOnTwin_lasts, slotFault_lasts,
    State.lasts_fetches, State.lasting_ite, ite_self, F.layerSlotStatCause_aside]

theorem addRelease_lasts (s : State) (r : Release) : (addRelease s r).lasting rg dm = s.lasting rg dm :=
  State.lasting_of_hide (addRelease_hide rfl ..)

theorem flushReleases_lasts (s : State) (f : Release → Bool) : (flushReleases s f).lasting rg dm = s.lasting rg dm :=
  (State.each_lasts _ _ _ fun _ _ => pipeRecord_lasts ..).trans (State.mapScene_lasts ..)

theorem flushFlips_lasts (s : State) (f : FlipDue → Bool) : (flushFlips s f).lasting rg dm = s.lasting rg dm :=
  (State.each_lasts _ _ _ fun _ _ => (pipeEvent_lasts ..).trans (pipeRecord_lasts ..)).trans (State.mapScene_lasts ..)

theorem drainReleases_lasts (s : State) : (drainReleases s).lasting rg dm = s.lasting rg dm := by
  simp only [drainReleases, flushFlips_lasts, flushReleases_lasts]

theorem releasesAtCommit_lasts (s : State) (a : Armed) : (releasesAtCommit s a).lasting rg dm = s.lasting rg dm := by
  simp only [releasesAtCommit, drainReleases_lasts, addRelease_lasts, State.each_lasts, implies_true, State.lasting_ite, ite_self]

theorem objectFault_lasts (s : State) (p cause : Nat) : (objectFault s p cause).lasting rg dm = s.lasting rg dm := by
  simp only [objectFault, State.addFld_lasts, State.setFld_lasts, raise_lasts, F.objPipeStatCause_aside, F.objFaultsCount_aside]

theorem abandonLoad_lasts (s : State) (l : LoftLoad) : (abandonLoad s l).lasting rg dm = s.lasting rg dm := by
  simp only [abandonLoad, State.mapScene_lasts, objectFault_lasts]

theorem makeLeaver_lasts (s : State) (q n : Nat) : (makeLeaver s q n).lasting rg dm = s.lasting rg dm :=
  State.lasting_of_hide (makeLeaver_hide rfl ..)

theorem takeArrived_lasts (s : State) (p n : Nat) : (takeArrived s p n).lasting rg dm = s.lasting rg dm :=
  State.lasting_of_hide (takeArrived_hide rfl ..)

theorem dropLeaver_lasts (s : State) (c : Nat) : (dropLeaver s c).lasting rg dm = s.lasting rg dm :=
  State.lasting_of_hide (dropLeaver_hide rfl ..)

theorem laySlot_lasts (s : State) (w : Writes) (n c : Nat) : (laySlot s w n c).lasting rg dm = s.lasting rg dm :=
  State.lasting_of_hide (laySlot_hide rfl ..)

theorem returnSlot_lasts (s : State) (w : Writes) (p n c : Nat) : (returnSlot s w p n c).lasting rg dm = s.lasting rg dm := by
  simp only [returnSlot, State.setPipe_lasts, setOnTwin_lasts, State.lasting_ite, ite_self]

theorem slotArrives_lasts (s : State) (prior : Comp) (w : Writes) (p n : Nat) : (slotArrives s prior w p n).lasting rg dm = s.lasting rg dm := by
  simp only [slotArrives, State.mapScene_lasts, State.setPipe_lasts, laySlot_lasts, makeLeaver_lasts, recheckClassS_lasts,
    returnSlot_lasts, takeArrived_lasts, State.lasting_ite, ite_self]

theorem applySlot_lasts (prior : Comp) (w : Writes) (p : Nat) (s : State) (n : Nat) : (applySlot prior w p s n).lasting rg dm = s.lasting rg dm := by
  simp only [applySlot, State.mapScene_lasts, dropLeaver_lasts, laySlot_lasts, returnSlot_lasts, slotArrives_lasts, State.lasting_ite,
    ite_self]

theorem darken_lasts (s : State) (p : Nat) (frame : BitVec 32) : (darken s p frame).lasting rg dm = s.lasting rg dm := by
  simp only [darken, State.mapScene_lasts, State.setPipe_lasts, addRelease_lasts, drainReleases_lasts, recheckClassS_lasts,
    setOnTwin_lasts, State.lasts_fetches, State.each_lasts, implies_true]

theorem dropOff_lasts (s : State) (key : Nat) (cs : List Nat) : (dropOff s key cs).lasting rg dm = s.lasting rg dm :=
  State.lasting_of_hide (dropOff_hide rfl ..)

theorem leavePipe_lasts (s : State) (k p : Nat) : (leavePipe s k p).lasting rg dm = s.lasting rg dm :=
  State.lasting_of_hide (leavePipe_hide rfl ..)

theorem applyRest_lasts (s : State) (a : Armed) (p : Nat) (frame : BitVec 32) : (applyRest s a p frame).lasting rg dm = s.lasting rg dm := by
  simp only [applyRest, abandonLoad_lasts, State.setPipe_lasts, dropOff_lasts, putCtxWords_lasts, State.mapScene_lasts, setBin_lasts,
    State.each_lasts, implies_true]

theorem flipOf_lasts (s : State) (a : Armed) (p : Nat) (frame : BitVec 32) : (flipOf s a p frame).lasting rg dm = s.lasting rg dm := by
  simp only [flipOf, State.mapScene_lasts, pipeEvent_lasts, State.lasting_ite, ite_self]

theorem applyPart_lasts (s : State) (k p : Nat) (frame : BitVec 32) (atStart : Bool) :
    (applyPart s k p frame atStart).lasting rg dm = s.lasting rg dm := by
  unfold applyPart
  split
  · rfl
  · simp only [applyRest_lasts, applySlot_lasts, State.setPipe_lasts, recheckClassS_lasts, forceHold_lasts, pipeFault_lasts, flipOf_lasts,
      leavePipe_lasts, loseLayer_lasts, darken_lasts, State.each_lasts, implies_true, State.lasting_ite, ite_self]

theorem queueReadmit_lasts (s : State) (stooks : List Nat) (sc : Scene) : (queueReadmit s stooks sc).lasting rg dm = s.lasting rg dm :=
  State.lasting_of_hide (queueReadmit_hide rfl ..)

theorem applyStopped_lasts (s : State) (k : Nat) : (applyStopped s k).lasting rg dm = s.lasting rg dm := by
  unfold applyStopped
  split
  · rfl
  · simp only [releasesAtCommit_lasts, setArmed_lasts, applyPart_lasts, State.each_lasts, implies_true, State.lasting_ite, ite_self]

theorem applyToStopped_lasts (s : State) (k : Nat) : (applyToStopped s k).lasting rg dm = s.lasting rg dm := by
  unfold applyToStopped
  split
  · rfl
  · simp only [applyPart_lasts, State.each_lasts, implies_true, State.lasting_ite, ite_self]

theorem askStopped_lasts (s : State) (k : Nat) : (askStopped s k).lasting rg dm = s.lasting rg dm :=
  State.lasting_of_hide (askStopped_hide rfl ..)

theorem armScene_lasts (s : State) (sc : Scene) : (armScene s sc).lasting rg dm = s.lasting rg dm := by
  simp only [armScene, queueReadmit_lasts, servePorts_lasts, askStopped_lasts, applyStopped_lasts, State.mapScene_lasts,
    State.each_lasts, implies_true]

theorem liftHolds_lasts (s : State) (lift : BitVec 4) : (liftHolds s lift).lasting rg dm = s.lasting rg dm := by
  simp only [liftHolds, setThrottle_lasts, State.lasting_ite, ite_self]

theorem armWritten_lasts (s : State) : (armWritten s).lasting rg dm = s.lasting rg dm := by
  simp only [armWritten, armScene_lasts, liftHolds_lasts, State.mapScene_lasts, State.each_lasts, implies_true]

theorem dropPart_lasts (s : State) (a : Armed) (reason : Nat) : (dropPart s a reason).lasting rg dm = s.lasting rg dm := by
  simp only [dropPart, pipeEvent_lasts, pipeRecord_lasts, State.addFld_lasts, dropArmed_lasts, State.each_lasts, implies_true,
    F.sceneDropCntCount_aside]

theorem slipPart_lasts (s : State) (a : Armed) : (slipPart s a).lasting rg dm = s.lasting rg dm := by
  simp only [slipPart, dropPart_lasts, pipeEvent_lasts, State.perfAdd_lasts, State.addFld_lasts, setArmed_lasts, State.each_lasts,
    implies_true, State.lasting_ite, ite_self, F.sceneSlipCntCount_aside]

theorem dropAhead_lasts (s : State) (a : Armed) : (dropAhead s a).lasting rg dm = s.lasting rg dm :=
  State.lasting_of_hide (dropAhead_hide rfl ..)

theorem decidePart_lasts (s : State) (k : Nat) : (decidePart s k).lasting rg dm = s.lasting rg dm := by
  unfold decidePart
  split
  · rfl
  · simp only [applyToStopped_lasts, releasesAtCommit_lasts, dropAhead_lasts, slipPart_lasts, setArmed_lasts, State.lasting_ite, ite_self]

theorem decideParts_lasts (s : State) : (decideParts s).lasting rg dm = s.lasting rg dm := by
  simp only [decideParts, applyStopped_lasts, decidePart_lasts, State.each_lasts, implies_true]

/-! ### Channels and runs -/

theorem askHost_lasts (c n : Nat) (s : State) : (askHost c n s).lasting rg dm = s.lasting rg dm := by
  induction n generalizing s with
  | zero => rfl
  | succ n ih =>
    unfold askHost
    dsimp only
    split
    · rfl
    · split
      · exact (ih _).trans ((readHost_lasts ..).trans (State.setChan_lasts _ fun _ _ => rfl))
      · rfl

theorem noteStatus_lasts (s : State) (c st : Nat) : (noteStatus s c st).lasting rg dm = s.lasting rg dm := by
  simp only [noteStatus, State.setFld_lasts, State.lasting_ite, ite_self, F.dmaTchStatStatus_aside]

/-- A change of a triggered channel. -/
theorem State.setTrigChan_lasts (s : State) {c : Nat} (x : DmaChan) (h : dm = true → 28 ≤ c) :
    (s.setChan c x).lasting rg dm = s.lasting rg dm :=
  s.setChan_lasts fun hd hc => absurd (h hd) (Nat.not_le.2 hc)

theorem beginRun_lasts (s : State) {c : Nat} (h : dm = true → 28 ≤ c) : (beginRun s c).lasting rg dm = s.lasting rg dm := by
  simp only [beginRun, State.addFld_lasts, State.setTrigChan_lasts _ _ h, State.setFld_lasts, raise_lasts, State.lasting_ite, ite_self,
    F.dmaTrigMissedCount_aside, F.dmaTchStatBusy_aside, F.dmaTchStatStatus_aside]

theorem closeRun_lasts (s : State) {c : Nat} (h : dm = true → 28 ≤ c) : (closeRun s c).lasting rg dm = s.lasting rg dm := by
  simp only [closeRun, State.setTrigChan_lasts _ _ h, State.setFld_lasts, State.setReg_lasts, raise_lasts, F.dmaTchStatBusy_aside,
    A.dmaTchRuns_aside]

theorem noteEntry_lasts (s : State) {c : Nat} (st : Nat) (h : dm = true → 28 ≤ c) : (noteEntry s c st).lasting rg dm = s.lasting rg dm := by
  simp only [noteEntry, State.setLastStatus_lasts _ _ h, countBad_lasts, noteStatus_lasts, State.lasting_ite, ite_self]

theorem takeEntry_lasts (s : State) {c : Nat} (a : Nat) (h : dm = true → 28 ≤ c) : (takeEntry s c a).lasting rg dm = s.lasting rg dm :=
  State.setTrigChan_lasts _ _ h

theorem le_of_mem_channels4 : ∀ {c : Nat}, c ∈ channels4 → 28 ≤ c :=
  fun {c} => (by decide : ∀ c ∈ channels4, 28 ≤ c) c

/-- The channels that a channel triggers are triggered channels. -/
theorem le_of_mem_followers {s : State} {c f : Nat} (h : f ∈ followers s c) : 28 ≤ f := le_of_mem_channels4 (List.mem_filter.1 h).1

theorem foldl_beginRun_lasts {k : Nat} (ih : ∀ s c, (dm = true → 28 ≤ c) → (runNext k s c).lasting rg dm = s.lasting rg dm) (s : State)
    (l : List Nat) (hl : ∀ f ∈ l, 28 ≤ f) :
    (l.foldl (fun s f =>
      let was := (s.chan f).runAt
      let s := beginRun s f
      if was.isNone then runNext k s f else s) s).lasting rg dm = s.lasting rg dm :=
  State.each_lasts_mem s l _ fun s f hf => by
    have hf : dm = true → 28 ≤ f := fun _ => hl f hf
    simp only [ih _ _ hf, beginRun_lasts _ hf, State.lasting_ite, ite_self]

theorem runNext_lasts (k : Nat) (s : State) {c : Nat} (h : dm = true → 28 ≤ c) : (runNext k s c).lasting rg dm = s.lasting rg dm := by
  induction k generalizing s c with
  | zero => rfl
  | succ k ih =>
    have hfollow (t : State) (l : List Nat) (hl : ∀ f ∈ l, 28 ≤ f) := foldl_beginRun_lasts (fun s c => ih s (c := c)) t l hl
    have hfinish (t : State) := (hfollow (closeRun t c) (followers t c) fun _ => le_of_mem_followers).trans (closeRun_lasts t h)
    unfold runNext
    simp only []
    split
    · rfl
    · split
      · rfl
      · simp only [ih _ h, noteEntry_lasts _ _ h, State.setTrigChan_lasts _ _ h]
    · simp only [hfinish, State.setFld_lasts, noteStatus_lasts, noteEntry_lasts _ _ h, takeEntry_lasts _ _ h,
        State.lasting_ite, ite_self, F.dmaTchStatStatus_aside]

theorem endEntries_lasts (s : State) : (endEntries s).lasting rg dm = s.lasting rg dm :=
  State.each_lasts_mem _ _ _ fun s c hc => by
    simp only [runNext_lasts _ _ fun _ => le_of_mem_channels4 hc, State.lasting_ite, ite_self]

theorem takeEntries_lasts (s : State) : (takeEntries s).lasting rg dm = s.lasting rg dm :=
  State.each_lasts_mem _ _ _ fun s c hc => by
    simp only [runNext_lasts _ _ fun _ => le_of_mem_channels4 hc, State.lasting_ite, ite_self]

theorem serveRuns_lasts (s : State) : (serveRuns s).lasting rg dm = s.lasting rg dm := by
  simp only [serveRuns, servePorts_lasts, takeEntries_lasts]

theorem askAll_lasts (s : State) : (askAll s).lasting rg dm = s.lasting rg dm := State.each_lasts _ _ _ fun _ _ => askHost_lasts ..

theorem triggerChan_lasts (s : State) {c : Nat} (h : dm = true → 28 ≤ c) : (triggerChan s c).lasting rg dm = s.lasting rg dm := by
  simp only [triggerChan, beginRun_lasts _ h, runNext_lasts _ _ h, State.lasting_ite, ite_self]

theorem triggerFollowers_lasts (s : State) (c : Nat) : (triggerFollowers s c).lasting rg dm = s.lasting rg dm :=
  State.each_lasts_mem _ _ _ fun s _ hf => triggerChan_lasts s fun _ => le_of_mem_followers hf

theorem endChanRecovery_lasts (s : State) (c : Nat) : (endChanRecovery s c).lasting rg dm = s.lasting rg dm :=
  State.lasting_of_hide (endChanRecovery_hide rfl ..)

theorem State.setAnyChan_lasts (s : State) (c : Nat) (x : DmaChan) : (s.setChan c x).lasting rg false = s.lasting rg false :=
  s.setChan_lasts fun h => nomatch h

theorem State.setAnyLastStatus_lasts (s : State) (c v : Nat) :
    (s.setFld (F.dmaChStatLastStatus c) v).lasting rg false = s.lasting rg false :=
  s.setLastStatus_lasts v fun h => nomatch h

theorem endDesc_lasts (s : State) (c status : Nat) (detail : BitVec 64) (dep : Option (BitVec 8)) :
    (endDesc s c status detail dep).lasting false false = s.lasting false false := by
  have hnext (s : State) : (runNext runFuel s c).lasting false false = s.lasting false false := runNext_lasts _ _ fun h => nomatch h
  simp only [endDesc]
  split
  · rfl
  · split
    · simp only [hnext, noteStatus_lasts, countBad_lasts, endChanRecovery_lasts, State.setAnyLastStatus_lasts, State.setAnyChan_lasts,
        State.lasting_ite, ite_self]
    · simp only [triggerFollowers_lasts, State.lasting_ite, ite_self]
      split <;> simp only [closeCpl_lasts, countBad_lasts, endChanRecovery_lasts, State.setAnyLastStatus_lasts, State.setAnyChan_lasts,
        State.lasting_ite, ite_self]

theorem takeDescs_lasts (k : Nat) (s : State) (c : Nat) : (takeDescs k s c).lasting false false = s.lasting false false := by
  induction k generalizing s with
  | zero => rfl
  | succ k ih =>
    unfold takeDescs
    simp only []
    split
    · simp only [ih, endDesc_lasts, askHost_lasts, State.setAnyChan_lasts, State.lasting_ite, ite_self]
    · rfl

theorem startDma_lasts (s : State) (c : Nat) : (startDma s c).lasting false false = s.lasting false false := by
  simp only [startDma, takeDescs_lasts]

theorem handDma_lasts (s : State) (n : Nat) (d : Desc) (at_ batch : Nat) (marks : List (BitVec 32)) :
    (handDma s n d at_ batch marks).lasting false false = s.lasting false false := by
  simp only [handDma, State.setAnyChan_lasts, openCpl_lasts, startDma_lasts, takeKey_lasts]

/-! ### Notifications -/

theorem sendNotify_lasts (s : State) (q : Nat) : (sendNotify s q).lasting rg dm = s.lasting rg dm := by
  simp only [sendNotify, writeHost_lasts, State.lasting_ite, ite_self]

theorem notifyPending_lasts (s : State) (q : Nat) : (notifyPending s q).lasting rg dm = s.lasting rg dm := by
  simp only [notifyPending, sendNotify_lasts, State.lasting_ite, ite_self]

/-! ### Rings and ports go on -/

theorem actScene_lasts (s : State) (n : Nat) (d : Desc) : (actScene s n d).lasting false dm = s.lasting false dm := by
  unfold actScene
  split <;> simp only [actNop_lasts, actJump_lasts, actLayerWords_lasts, actLayerBlock_lasts, actObjWords_lasts, actObjBlock_lasts,
    actLutLoad_lasts, actMatrix_lasts, actLoftLoad_lasts, actFenceAcq_lasts, actCommit_lasts, badDesc_lasts]

theorem actDma_lasts (s : State) (n : Nat) (d : Desc) (r : Ring) : (actDma s n d r).lasting false false = s.lasting false false := by
  unfold actDma
  split <;> simp only [actNop_lasts, actJump_lasts, handDma_lasts]

theorem afterAct_lasts (s : State) (n : Nat) (d : Desc) : (afterAct s n d).lasting rg dm = s.lasting rg dm :=
  State.lasting_of_hide (afterAct_hide rfl ..)

theorem countHop_lasts {s t : State} {n : Nat} {x : Desc} (h : countHop s n x = some t) : t.lasting rg dm = s.lasting rg dm := by
  simp only [countHop, Option.ite_none_left_eq_some, Option.some.injEq] at h
  rw [← h.2, State.setRing_lasts]

theorem actOn_lasts (s : State) (n : Nat) (d : Desc) : (actOn s n d).lasting false false = s.lasting false false := by
  simp only [actOn]
  split
  · simp only [loopStop_lasts, keepBefore_lasts, State.lasting_ite, ite_self]
  · next t h =>
    have ht := countHop_lasts (rg := false) (dm := false) h
    simp only [keepBefore_lasts, State.lasting_ite, ite_self] at ht
    simp only [afterAct_lasts, actScene_lasts, actDma_lasts, State.lasting_ite, ite_self, ht]

theorem runRing_lasts (k : Nat) (s : State) (n : Nat) : (runRing k s n).lasting false false = s.lasting false false := by
  induction k generalizing s with
  | zero => rfl
  | succ k ih =>
    unfold runRing
    split
    · simp only [haltRing_lasts, State.lasting_ite, ite_self]
    · split
      · exact haltRing_lasts ..
      · split
        · rfl
        · split
          · simp only [ih, stepChain_lasts, handCommit_lasts, State.setRing_lasts, State.lasting_ite, ite_self]
          · split
            · exact readAhead_lasts ..
            · simp only [ih, actOn_lasts, State.setRing_lasts, State.lasting_ite, ite_self]

theorem portsGoOn_lasts (s : State) : (portsGoOn s).lasting rg dm = s.lasting rg dm := by
  simp only [portsGoOn, askAll_lasts, decideParts_lasts, endEntries_lasts, serveRuns_lasts]

theorem ringsGoOn_lasts (s : State) : (ringsGoOn s).lasting false false = s.lasting false false := by
  simp only [ringsGoOn, runRing_lasts, armWritten_lasts, drainRing_lasts, State.each_lasts, implies_true]

theorem settle_lasts (s : State) : (settle s).lasting false false = s.lasting false false := by
  simp only [settle, armWritten_lasts, drainPrec_lasts, drainReleases_lasts, portsGoOn_lasts, pumpReads_lasts, ringsGoOn_lasts,
    State.each_lasts, implies_true]

theorem stopRing_lasts (s : State) (n : Nat) : (stopRing s n).lasting false false = s.lasting false false := by
  simp only [stopRing, State.setFld_lasts, State.setRing_lasts, runRing_lasts, State.lasting_ite, ite_self, F.ringCtlRun_aside]

end Sys2Proof.Machine
end

section
/-! PROOFS. The links (spec 04, R95, R96; spec 13, R343, R344; spec 03, R83): what UP, sleep and waking change, and a link's transient
failure (spec 15, R367, R368). -/

namespace Sys2Proof.Machine

/-! ### UP, ASLEEP and ACTIVE -/

theorem linkIsUp_of_reg {s t : State} (h : t.reg A.ringLinkStat = s.reg A.ringLinkStat) : linkIsUp t = linkIsUp s := by
  funext l
  cases l
  · exact congrArg (· != 0) (State.fld_congr h)
  · exact congrArg (· != 0) (State.fld_congr h)

theorem linkAsleep_of_reg {s t : State} (h : t.reg A.evtLinkSleep = s.reg A.evtLinkSleep) : linkAsleep t = linkAsleep s := by
  funext l
  cases l
  · exact congrArg (· != 0) (State.fld_congr h)
  · exact congrArg (· != 0) (State.fld_congr h)

theorem activeLink_of_fld {s t : State} (h : t.fld F.ringLinkStatActive = s.fld F.ringLinkStatActive) : activeLink t = activeLink s := by
  rw [activeLink, activeLink, State.flag, State.flag, h]

theorem linkIsUp_of_regs {s t : State} (h : t.regs = s.regs) : linkIsUp t = linkIsUp s := linkIsUp_of_reg (State.reg_congr h _)

/-- A field apart from UP of both links. -/
theorem linkIsUp_setFld (s : State) {f : Fld} (v : Nat) (h : f.addr ≠ A.ringLinkStat ∨ (1 < f.lo ∧ f.lo ≤ f.hi ∧ f.hi < 32)) :
    linkIsUp (s.setFld f v) = linkIsUp s := by
  rcases h with h | ⟨hlo, hle, hhi⟩
  · exact linkIsUp_of_reg (State.reg_setFld_other _ _ _ _ (Ne.symm h))
  · funext l
    cases l
    · exact congrArg (· != 0) (State.fld_setFld_apart _ _ ⟨⟨hle, hhi⟩, by decide, .inl (Nat.lt_trans Nat.zero_lt_one hlo)⟩)
    · exact congrArg (· != 0) (State.fld_setFld_apart _ _ ⟨⟨hle, hhi⟩, by decide, .inl hlo⟩)

theorem flag_setFld_bool (s : State) {f : Fld} (h : f.lo ≤ f.hi ∧ f.hi < 32) (b : Bool) : (s.setFld f b.toNat).flag f = b := by
  have hlt : b.toNat < 2 ^ (f.hi - f.lo + 1) := (Nat.lt_succ_of_le (Bool.toNat_le b)).trans_le (Nat.pow_le_pow_right (by decide) (by omega) : 2 ^ 1 ≤ _)
  rw [State.flag, State.fld_setFld_of_lt s h hlt]
  cases b <;> rfl

theorem linkIsUp_setUp (s : State) (l : Link) (b : Bool) : linkIsUp (setUp s l b) l = b := by
  cases l <;> exact flag_setFld_bool s (by decide) b

theorem linkAsleep_setAsleep (s : State) (l : Link) (b : Bool) : linkAsleep (setAsleep s l b) l = b := by
  cases l <;> exact flag_setFld_bool s (by decide) b

theorem setUp_reg (s : State) (l : Link) (b : Bool) {a : Nat} (ha : a ≠ A.ringLinkStat) : (setUp s l b).reg a = s.reg a := by
  cases l <;> exact State.reg_setFld_other _ _ _ _ ha

theorem setAsleep_reg_other (s : State) (l : Link) (b : Bool) {a : Nat} (ha : a ≠ A.evtLinkSleep) : (setAsleep s l b).reg a = s.reg a := by
  cases l <;> exact State.reg_setFld_other _ _ _ _ ha

theorem activeLink_setUp (s : State) (l : Link) (b : Bool) : activeLink (setUp s l b) = activeLink s := by
  cases l <;> exact activeLink_of_fld (State.fld_setFld_apart _ _ (by decide))

/-! ### UP lasts while frames go out -/

theorem linkIsUp_transmit (s : State) (kind seq : Nat) (body : List Byte) (retx : Bool) :
    linkIsUp (transmit s kind seq body retx) = linkIsUp s :=
  linkIsUp_of_regs (State.regs_of_hide (by decide) (transmit_hide (m := 0x800000030) rfl s s kind seq body retx))

theorem linkIsUp_setActive (s : State) (l : Link) : linkIsUp (setActive s l) = linkIsUp s :=
  linkIsUp_setFld s _ (.inr (by decide))

theorem linkIsUp_ontoUsable (s : State) : linkIsUp (ontoUsable s) = linkIsUp s := by
  rw [ontoUsable]
  split
  · exact linkIsUp_setActive ..
  · rfl

theorem linkIsUp_wakeSome (s : State) : linkIsUp (wakeSome s) = linkIsUp s :=
  linkIsUp_of_reg (wakeSome_reg s _ (not_evtReg_of_lt (by decide)))

theorem linkIsUp_sendNext (s : State) : linkIsUp (sendNext s) = linkIsUp s :=
  linkIsUp_of_regs (State.regs_of_hide (by decide) (sendNext_hide (m := 0x800000030) rfl s s))

theorem linkIsUp_pump (s : State) : linkIsUp (pump s) = linkIsUp s :=
  pump_induct (P := fun t => linkIsUp t = linkIsUp s) rfl (linkIsUp_wakeSome s) (linkIsUp_ontoUsable s)
    fun t _ _ _ ht _ _ => (linkIsUp_sendNext t).trans ht

theorem linkIsUp_resendAll (s : State) : linkIsUp (resendAll s) = linkIsUp s :=
  State.each_keeps linkIsUp _ _ _ fun t f =>
    (linkIsUp_setFld _ _ (.inl (by decide))).trans (linkIsUp_transmit t f.kind.toNat f.seq.toNat f.body true)

theorem linkIsUp_raise (s : State) {k : Nat} (hk : k < 4096) : linkIsUp (raise s k) = linkIsUp s :=
  linkIsUp_of_reg (raise_reg s k _ hk (not_evtReg_of_lt (by decide)))

theorem linkIsUp_switchOver (s : State) : linkIsUp (switchOver s) = linkIsUp s :=
  (linkIsUp_pump _).trans ((linkIsUp_raise _ (by decide)).trans ((linkIsUp_setFld _ _ (.inl (by decide))).trans
    ((linkIsUp_resendAll _).trans (linkIsUp_setActive ..))))

theorem linkIsUp_sendAck (s : State) : linkIsUp (sendAck s) = linkIsUp s := by
  simp only [sendAck]
  split
  · exact (linkIsUp_transmit ..).trans (linkIsUp_ontoUsable s)
  · exact linkIsUp_wakeSome _

/-! ### A link comes up -/

/-- The PHY of a link is up and set as HW_CTL has it: the link is awake and on its way no more. -/
def linkCame (s : State) (l : Link) (partner : Bool) : State :=
  let t := (stopWaking (setAsleep (setUp s l true) l false) l).emit
    (.phyMode l (phyMaster (hwCtlNow s) l) (phyNegotiates (hwCtlNow s) l) (phyAt1000 (hwCtlNow s) l partner))
  if l == .a then t.setFld F.ringLinkStatA1000 (phyAt1000 (hwCtlNow s) l partner).toNat else t

/-- What LINK_UP does once the PHY is set. -/
theorem linkUp_eq (s : State) (l : Link) (partner : Bool) :
    linkUp s l partner = settle (
      let wasWaking := s.hw.waking.getLsbD (linkIdx l)
      let t := linkCame s l partner
      let t := if activeLink t != l && (sessionOpen t || wasWaking) && sendingWaits t && linkUsable t l then switchOver t else pump t
      if wasWaking && t.hw.ackOwed && sessionOpen t then sendAck t else t) := rfl

theorem linkIsUp_linkCame (s : State) (l : Link) (partner : Bool) : linkIsUp (linkCame s l partner) l = true := by
  have hup : linkIsUp (stopWaking (setAsleep (setUp s l true) l false) l) l = true :=
    (congrFun (linkIsUp_of_reg (setAsleep_reg_other (setUp s l true) l false (by decide))) l).trans (linkIsUp_setUp s l true)
  cases l
  · exact (congrFun (linkIsUp_setFld _ _ (.inr (by decide))) .a).trans hup
  · exact hup

theorem linkAsleep_linkCame (s : State) (l : Link) (partner : Bool) : linkAsleep (linkCame s l partner) l = false := by
  have hawake := linkAsleep_setAsleep (setUp s l true) l false
  cases l
  · exact (congrFun (linkAsleep_of_reg (State.reg_setFld_other _ _ _ _ (by decide))) .a).trans hawake
  · exact hawake

theorem linkCame_hw (s : State) (l : Link) (partner : Bool) :
    (linkCame s l partner).hw = { s.hw with waking := s.hw.waking &&& ~~~(BitVec.ofNat 2 (1 <<< linkIdx l)) } := by
  cases l <;> rfl

theorem getLsbD_clearWaking (w : BitVec 2) (l : Link) : (w &&& ~~~(BitVec.ofNat 2 (1 <<< linkIdx l))).getLsbD (linkIdx l) = false := by
  cases l <;> revert w <;> decide

theorem linkCame_waking (s : State) (l : Link) (partner : Bool) : (linkCame s l partner).hw.waking.getLsbD (linkIdx l) = false := by
  rw [linkCame_hw]
  exact getLsbD_clearWaking _ l

theorem linkCame_out (s : State) (l : Link) (partner : Bool) :
    (linkCame s l partner).out = s.out ++
      [.phyMode l (phyMaster (hwCtlNow s) l) (phyNegotiates (hwCtlNow s) l) (phyAt1000 (hwCtlNow s) l partner)] := by
  cases l <;> rfl

theorem linkCame_regs (s : State) (l : Link) (partner : Bool) :
    SameRegsBut (fun a => a = A.ringLinkStat ∨ a = A.evtLinkSleep) s (linkCame s l partner) := by
  intro a ha
  obtain ⟨hstat, hsleep⟩ := not_or.1 ha
  have hcame := (setAsleep_reg_other (setUp s l true) l false hsleep).trans (setUp_reg s l true hstat)
  cases l
  · exact (State.reg_setFld_other _ _ _ _ hstat).trans hcame
  · exact hcame

theorem activeLink_linkCame (s : State) (l : Link) (partner : Bool) : activeLink (linkCame s l partner) = activeLink s := by
  have hcame : activeLink (setAsleep (setUp s l true) l false) = activeLink s :=
    (activeLink_of_fld (State.fld_congr (setAsleep_reg_other _ l false (by decide)))).trans (activeLink_setUp s l true)
  cases l
  · exact (activeLink_of_fld (State.fld_setFld_apart _ _ (by decide))).trans hcame
  · exact hcame

/-- States that differ in the register space, the transport state and the log alone. -/
theorem touchesOnly_regs_hw_out {s t : State} (h : t = { s with regs := t.regs, hw := t.hw, out := t.out }) :
    TouchesOnly [.regs, .hw, .out] s t := by
  rw [h]
  refine (State.touches_of_hide [.regs, .hw, .out] rfl fun d => ?_).1
  exact (State.hide_out _ d { s with regs := t.regs, hw := t.hw } (by decide) t.out).trans
    ((State.hide_hw _ d { s with regs := t.regs } (by decide) t.hw).trans (State.hide_regs _ d s (by decide) t.regs))

theorem linkCame_touches (s : State) (l : Link) (partner : Bool) : TouchesOnly [.regs, .hw, .out] s (linkCame s l partner) :=
  touchesOnly_regs_hw_out (by cases l <;> rfl)

/-! ### A transient failure -/

/-- A failure of a unit is counted. -/
def failureCounted (s : State) (u : Nat) : State :=
  raise (((s.setUnit u { s.unit u with fails := recentFails s u ++ [s.time.uptime] }).addFld F.faultFailuresCount 1).mapBarn
    fun b => countSummary b 0) 27

/-- A transient failure of a unit is counted in FAILURES and shown in LAST. -/
def failureNoted (s : State) (u cause : Nat) : State :=
  ((((failureCounted s u).setFld F.faultLastKind 1).setFld F.faultLastFails (recentFails s u ++ [s.time.uptime]).length).setFld
    F.faultLastCause cause).setFld F.faultLastUnit u

theorem raise_fault (s : State) (k : Nat) : (raise s k).fault = s.fault := by
  have h := congrArg State.fault (raise_hide (m := 0x1000036) rfl s s k)
  exact h

theorem failureCounted_unit (s : State) (u v : Nat) :
    (failureCounted s u).unit v = if v = u then { s.unit u with fails := recentFails s u ++ [s.time.uptime] } else s.unit v :=
  (congrArg (fun x : FaultState => smGet unitInit x.units v) (raise_fault _ _)).trans (State.unit_setUnit ..)

theorem failureNoted_unit (s : State) (u cause v : Nat) :
    (failureNoted s u cause).unit v = if v = u then { s.unit u with fails := recentFails s u ++ [s.time.uptime] } else s.unit v :=
  failureCounted_unit s u v

/-- A first failure of a unit is noted, and the unit goes into recovery. -/
theorem unitFails_transient {s : State} {u : Nat} (h : FailsFirst s u) (hawake : (isLink u && linkAsleep s (unitLink u)) = false)
    (cause : Nat) : unitFails s u cause = recoverUnit (failureNoted s u cause) u cause := by
  obtain ⟨hserving, hsound, hretest, hfew⟩ := h
  have htransient : ¬(decide (4 ≤ (recentFails s u ++ [s.time.uptime]).length) || ((failureCounted s u).unit u).recovery) = true := by
    rw [failureCounted_unit, if_pos rfl, hsound, List.length_append, List.length_singleton, Bool.or_false, decide_eq_true_eq]
    omega
  rw [unitFails, hserving, hawake, decide_eq_false hretest, if_neg (by decide)]
  exact if_neg htransient

theorem failureCounted_reg (s : State) (u : Nat) {a : Nat} (hevt : ¬evtReg a) (ha : a ≠ A.faultFailures) :
    (failureCounted s u).reg a = s.reg a :=
  (raise_reg _ 27 a (by decide) hevt).trans (State.reg_addFld_other (s.setUnit u _) F.faultFailuresCount a 1 ha)

theorem failureNoted_reg_counted (s : State) (u cause : Nat) {a : Nat} (ha : a ≠ A.faultLast) :
    (failureNoted s u cause).reg a = (failureCounted s u).reg a :=
  (State.reg_setFld_other _ F.faultLastUnit a _ ha).trans ((State.reg_setFld_other _ F.faultLastCause a _ ha).trans
    ((State.reg_setFld_other _ F.faultLastFails a _ ha).trans (State.reg_setFld_other _ F.faultLastKind a _ ha)))

theorem failureNoted_reg (s : State) (u cause : Nat) {a : Nat} (hevt : ¬evtReg a) (hfailures : a ≠ A.faultFailures)
    (hlast : a ≠ A.faultLast) : (failureNoted s u cause).reg a = s.reg a :=
  (failureNoted_reg_counted s u cause hlast).trans (failureCounted_reg s u hevt hfailures)

theorem failureCounted_count (s : State) (u : Nat) :
    (failureCounted s u).fld F.faultFailuresCount = min 16777215 (s.fld F.faultFailuresCount + 1) :=
  (raise_fld _ 27 F.faultFailuresCount (by decide) (by unfold evtReg; decide)).trans
    ((State.fld_addFld_self (s.setUnit u _) F.faultFailuresCount 1 (by unfold Fld.ok; decide)).trans (Nat.min_comm _ _))

theorem failureNoted_shown {s : State} {u cause : Nat} (hfew : (recentFails s u).length ≤ 2) (hu : u < 2 ^ 8) (hcause : cause < 2 ^ 8) :
    FailureShown s (failureNoted s u cause) u cause := by
  have hlen : (recentFails s u ++ [s.time.uptime]).length = (recentFails s u).length + 1 := by
    rw [List.length_append, List.length_singleton]
  refine ⟨(State.fld_congr (failureNoted_reg_counted s u cause (by decide))).trans (failureCounted_count s u), ?_, ?_, ?_, ?_⟩
  · rw [failureNoted, State.fld_setFld_apart _ _ (by decide), State.fld_setFld_apart _ _ (by decide),
      State.fld_setFld_apart _ _ (by decide), State.fld_setFld_of_lt _ (by decide) (by decide)]
  · exact State.fld_setFld_of_lt _ (by decide) hu
  · rw [failureNoted, State.fld_setFld_apart _ _ (by decide)]
    exact State.fld_setFld_of_lt _ (by decide) hcause
  · rw [failureNoted, State.fld_setFld_apart _ _ (by decide), State.fld_setFld_apart _ _ (by decide), hlen]
    exact State.fld_setFld_of_lt _ (by decide) (show (recentFails s u).length + 1 < 2 ^ 4 by omega)

/-- A link in recovery. -/
theorem recoverUnit_link (s : State) (l : Link) (cause : Nat) :
    recoverUnit s (linkUnit l) cause = s.setUnit (linkUnit l) { s.unit (linkUnit l) with recovery := true } := by
  cases l <;> rfl

theorem FailureShown.congr {s t t' : State} {u cause : Nat} (hregs : t'.regs = t.regs) (h : FailureShown s t u cause) :
    FailureShown s t' u cause := by
  have hfld (f : Fld) : t'.fld f = t.fld f := State.fld_congr (State.reg_congr hregs _)
  rw [FailureShown, hfld, hfld, hfld, hfld, hfld]
  exact h

/-- A link that is awake recovers from a first failure. -/
theorem recovers_link {s : State} {l : Link} {cause : Nat} (h : FailsFirst s (linkUnit l)) (hawake : linkAsleep s l = false)
    (hcause : cause < 2 ^ 8) : Recovers s (unitFails s (linkUnit l) cause) (linkUnit l) cause := by
  have hasleep : (isLink (linkUnit l) && linkAsleep s (unitLink (linkUnit l))) = false := by cases l <;> exact hawake
  have hshown := failureNoted_shown (s := s) (u := linkUnit l) (cause := cause) h.2.2.2 (by cases l <;> decide) hcause
  rw [unitFails_transient h hasleep, recoverUnit_link]
  refine ⟨?_, fun v hv => ?_, hshown.congr (State.setUnit_regs _ _ _)⟩
  · rw [State.unit_setUnit, if_pos rfl, failureNoted_unit, if_pos rfl]
  · rw [State.unit_setUnit, if_neg hv, failureNoted_unit, if_neg hv]

/-- Outside EVT a link's first failure changes FAILURES and LAST alone. -/
theorem unitFails_link_reg {s : State} {l : Link} {cause : Nat} (h : FailsFirst s (linkUnit l)) (hawake : linkAsleep s l = false) {a : Nat}
    (hevt : ¬evtReg a) (hfailures : a ≠ A.faultFailures) (hlast : a ≠ A.faultLast) :
    (unitFails s (linkUnit l) cause).reg a = s.reg a := by
  have hasleep : (isLink (linkUnit l) && linkAsleep s (unitLink (linkUnit l))) = false := by cases l <;> exact hawake
  rw [unitFails_transient h hasleep, recoverUnit_link]
  rw [State.reg_congr (State.setUnit_regs _ _ _)]
  exact failureNoted_reg s _ cause hevt hfailures hlast

/-! ### A link goes down -/

/-- LINK_DOWN of a link that is up, awake and on its way to nothing. -/
theorem linkDown_sound {s : State} {l : Link} (hawake : linkAsleep s l = false) (hisup : linkIsUp s l = true)
    (hway : s.hw.waking.getLsbD (linkIdx l) = false) :
    linkDown s l = if l = .a then holdOver (linkFailed (stopWaking (setUp s l false) l) l 10)
      else linkFailed (stopWaking (setUp s l false) l) l 10 := by
  simp only [linkDown, hawake, hisup, hway, Bool.true_or, Bool.not_true, Bool.or_self, Bool.false_and, Bool.false_eq_true, if_false,
    beq_iff_eq]

theorem linkDown_out {s : State} {l : Link} (hdown : linkIsUp s l = false) (hway : s.hw.waking.getLsbD (linkIdx l) = false) :
    linkDown s l = s := by
  simp only [linkDown, hdown, hway, Bool.or_self, Bool.not_false, Bool.or_true, if_true]

/-- A link that fails while the module sends on the other one. -/
theorem linkFailed_inactive {s : State} {l : Link} {cause : Nat} (hawake : linkAsleep s l = false)
    (h : activeLink (unitFails s (linkUnit l) cause) ≠ l) : linkFailed s l cause = settle (unitFails s (linkUnit l) cause) := by
  simp only [linkFailed, hawake, Bool.false_eq_true, if_false, if_neg h, ite_self]

/-- Without a session nothing is sent. -/
theorem pump_closed {s : State} (h : sessionOpen s = false) : pump s = s := by
  simp only [pump, h, Bool.not_false, Bool.or_true, if_true]

/-- LINK_UP of the link that the module sends on, without a session. -/
theorem linkUp_closed {s : State} {l : Link} (hcur : s.hw.cur = none) (hactive : activeLink s = l) (partner : Bool) :
    linkUp s l partner = settle (linkCame s l partner) := by
  have hclosed : sessionOpen (linkCame s l partner) = false := by
    rw [sessionOpen, linkCame_hw, hcur]
    rfl
  have hsame : (activeLink (linkCame s l partner) != l) = false := by
    rw [activeLink_linkCame, hactive, bne_self_eq_false]
  simp only [linkUp_eq, hclosed, hsame, Bool.false_and, Bool.and_false, Bool.false_eq_true, if_false, pump_closed hclosed]

/-- Whatever else LINK_UP does, the link is up. -/
theorem linkIsUp_linkUp (s : State) (l : Link) (partner : Bool) : ∃ u, linkUp s l partner = settle u ∧ linkIsUp u l = true := by
  refine ⟨_, linkUp_eq s l partner, (congrFun (?_ : _ = linkIsUp (linkCame s l partner)) l).trans (linkIsUp_linkCame s l partner)⟩
  dsimp only
  split <;> split
  · rw [linkIsUp_sendAck, linkIsUp_switchOver]
  · rw [linkIsUp_switchOver]
  · rw [linkIsUp_sendAck, linkIsUp_pump]
  · rw [linkIsUp_pump]

/-! ### Sleep and waking -/

theorem sleepRequest_accepted {s : State} {l : Link} (hisup : linkIsUp s l = true) (haccept : acceptsSleep s l = true)
    (hunacked : s.hw.unacked = []) (hwaiting : s.hw.waiting = []) :
    sleepRequest s l =
      let t := setAsleep (setUp (s.emit (.tc10SleepAccept l)) l false) l true
      if l == .a then holdOver t else t := by
  simp only [sleepRequest, hisup, haccept, hunacked, hwaiting, List.isEmpty_nil, Bool.and_self, Bool.not_true, Bool.and_false,
    Bool.not_false, Bool.false_eq_true, if_false, if_true]

theorem sleepRequest_rejected {s : State} {l : Link} (hisup : linkIsUp s l = true)
    (h : acceptsSleep s l = false ∨ (activeLink s = l ∧ (s.hw.unacked ≠ [] ∨ s.hw.waiting ≠ []))) :
    sleepRequest s l = s.emit (.tc10SleepReject l) := by
  have hrefused : (acceptsSleep s l && !(activeLink s == l && !(s.hw.unacked.isEmpty && s.hw.waiting.isEmpty))) = false := by
    rcases h with h | ⟨hactive, hfull⟩
    · rw [h, Bool.false_and]
    · have hfull : (s.hw.unacked.isEmpty && s.hw.waiting.isEmpty) = false := by
        rw [Bool.and_eq_false_iff, List.isEmpty_eq_false_iff, List.isEmpty_eq_false_iff]
        exact hfull
      rw [hactive, hfull, beq_self_eq_true, Bool.not_false, Bool.and_true, Bool.not_true, Bool.and_false]
  simp only [sleepRequest, hisup, hrefused, Bool.not_true, Bool.false_eq_true, if_false]

/-- A link that is put to sleep: not up, asleep, and nothing else changes but the log. -/
theorem slept_shows (s : State) (l : Link) (o : Out) :
    linkIsUp (setAsleep (setUp (s.emit o) l false) l true) l = false ∧ linkAsleep (setAsleep (setUp (s.emit o) l false) l true) l = true ∧
    (setAsleep (setUp (s.emit o) l false) l true).out = s.out ++ [o] ∧
    SameRegsBut (fun a => a = A.ringLinkStat ∨ a = A.evtLinkSleep) s (setAsleep (setUp (s.emit o) l false) l true) ∧
    TouchesOnly [.regs, .out] s (setAsleep (setUp (s.emit o) l false) l true) := by
  refine ⟨?_, linkAsleep_setAsleep .., by cases l <;> rfl, fun a ha => ?_, touchesOnly_regs_out (by cases l <;> rfl)⟩
  · rw [linkIsUp_of_reg (setAsleep_reg_other _ l true (by decide))]
    exact linkIsUp_setUp ..
  · obtain ⟨hstat, hsleep⟩ := not_or.1 ha
    exact (setAsleep_reg_other _ l true hsleep).trans (setUp_reg (s.emit o) l false hstat)

/-- A link that is woken: awake, and the wake-up sent. -/
theorem wakeLink_shows (s : State) (l : Link) :
    linkAsleep (wakeLink s l) l = false ∧ (wakeLink s l).out = s.out ++ [.tc10Wakeup l] ∧
    SameRegsBut (· = A.evtLinkSleep) s (wakeLink s l) := by
  have hasleep : linkAsleep (setAsleep (s.emit (.tc10Wakeup l)) l false) l = false := linkAsleep_setAsleep ..
  have hout : (setAsleep (s.emit (.tc10Wakeup l)) l false).out = s.out ++ [.tc10Wakeup l] := by cases l <;> rfl
  have hregs : SameRegsBut (· = A.evtLinkSleep) s (setAsleep (s.emit (.tc10Wakeup l)) l false) := fun a ha =>
    setAsleep_reg_other _ l false ha
  simp only [wakeLink]
  split
  · exact ⟨hasleep, hout, hregs⟩
  · exact ⟨hasleep, hout, hregs⟩

/-- A command on a path that the module answers, where its meaning leaves the queue alone. -/
theorem whenServed_next {s : State} {path : Path} {f : State → State} (h : s.takes path) (hf : (f s).pending = s.pending) :
    whenServed s path f = .next (f s) := by
  rw [whenServed_takes h, ← hf]

/-- A command on a path whose operation changes nothing. -/
theorem whenServed_same {s : State} {path : Path} {f : State → State} (h : f s = s) : whenServed s path f = .next s :=
  whenUp_same (by rw [h, ite_self])

theorem holdOver_off {s : State} (h : s.flag F.pipePtpCfgEn = false) : holdOver s = s := by
  rw [holdOver, h]
  rfl

end Sys2Proof.Machine

namespace Sys2Proof.Proofs.HaywainRings

open Sys2Proof.Machine

/-- Settles O29: a link that goes down fails at once, one that comes up takes what waits, and one that sleeps is woken from either
side. -/
theorem linkEvents : Obligations.LinkEvents := by
  refine ⟨fun l s hup hawake hisup hway => leaves_whenUp (f := fun s => linkDown s l) rfl hup ?_,
    fun s hup hawake hisup hway hactive hfirst => ?_,
    fun l s hdown hway => whenUp_same (f := fun s => linkDown s l) ?_, fun l partner s hup hdriven hcur hactive => ?_,
    fun l partner s hup hdriven => ?_,
    fun partner s hheld => whenUp_same (f := fun s => if Link.b == .a || s.pow.started then linkUp s .b partner else s) ?_,
    fun l s hup hisup haccept hunacked hwaiting hhold => ?_,
    fun s hup hisup haccept hunacked hwaiting => leaves_whenUp (f := fun s => sleepRequest s .a) rfl hup ?_,
    fun l s hup hisup hrefused => leaves_whenUp (f := fun s => sleepRequest s l) rfl hup ?_,
    fun l s hup hasleep => ?_, fun path l s htakes hasleep hdriven => ?_, fun path s hheld => ?_, fun path l s hawake => ?_⟩
  · exact linkDown_sound hawake hisup hway
  · have hawake' : linkAsleep (stopWaking (setUp s .b false) .b) .b = false :=
      (congrFun (linkAsleep_of_reg (setUp_reg s .b false (by decide))) .b).trans hawake
    have hfirst' : FailsFirst (stopWaking (setUp s .b false) .b) (linkUnit .b) := hfirst
    have hreg {a : Nat} := unitFails_link_reg (cause := 10) (a := a) hfirst' hawake'
    have hother : activeLink (unitFails (stopWaking (setUp s .b false) .b) (linkUnit .b) 10) ≠ .b := by
      rw [activeLink_of_fld (State.fld_congr (hreg (not_evtReg_of_lt (by decide)) (by decide) (by decide)))]
      exact ne_of_eq_of_ne ((activeLink_setUp s .b false).trans hactive) (by decide)
    refine settles_of_leaves (leaves_whenUp (f := fun s => linkDown s .b) rfl hup
      ((linkDown_sound hawake hisup hway).trans (linkFailed_inactive hawake' hother))) ⟨?_, ?_⟩
    · rw [linkIsUp_of_reg (hreg (not_evtReg_of_lt (by decide)) (by decide) (by decide))]
      exact linkIsUp_setUp s .b false
    · obtain ⟨hunit, hothers, hcount, hshown⟩ := recovers_link (cause := 10) hfirst' hawake' (by decide)
      refine ⟨hunit, hothers, hcount.trans ?_, hshown⟩
      rw [State.fld_congr (t := stopWaking (setUp s .b false) .b) (setUp_reg s .b false (by decide))]
  · exact linkDown_out hdown hway
  · have hdriven' : (l == .a || s.pow.started) = true := by rw [Bool.or_eq_true, beq_iff_eq]; exact hdriven
    refine settles_of_leaves (leaves_whenUp (f := fun s => if l == .a || s.pow.started then linkUp s l partner else s) rfl hup
      ((if_pos hdriven').trans (linkUp_closed hcur hactive partner))) ?_
    refine ⟨linkIsUp_linkCame .., linkAsleep_linkCame .., linkCame_waking .., linkCame_out .., ?_, linkCame_regs s l partner,
      linkCame_touches s l partner⟩
    rintro rfl
    exact State.fld_setFld_of_lt _ (by decide) (Nat.lt_succ_of_le (Bool.toNat_le _))
  · have hdriven' : (l == .a || s.pow.started) = true := by rw [Bool.or_eq_true, beq_iff_eq]; exact hdriven
    obtain ⟨u, hu, hisup⟩ := linkIsUp_linkUp s l partner
    exact settles_of_leaves (leaves_whenUp (f := fun s => if l == .a || s.pow.started then linkUp s l partner else s) rfl hup
      ((if_pos hdriven').trans hu)) hisup
  · exact if_neg (by rw [hheld]; decide)
  · have hslept : sleepRequest s l = setAsleep (setUp (s.emit (.tc10SleepAccept l)) l false) l true := by
      rw [sleepRequest_accepted hisup haccept hunacked hwaiting]
      dsimp only
      split
      · next hl =>
        obtain rfl := eq_of_beq hl
        refine holdOver_off ?_
        rw [State.flag, State.fld_congr ((setAsleep_reg_other _ .a true (by decide)).trans (setUp_reg _ .a false (by decide)))]
        exact hhold.resolve_left (by decide)
      · rfl
    have hpending : (setAsleep (setUp (s.emit (.tc10SleepAccept l)) l false) l true).pending = s.pending := by cases l <;> rfl
    refine Ends.of_next (whenUp_next (f := fun s => sleepRequest s l) hup (by rw [hslept, hpending])) ?_
    rw [hslept]
    exact slept_shows s l _
  · exact sleepRequest_accepted hisup haccept hunacked hwaiting
  · exact sleepRequest_rejected hisup hrefused
  · have hwoken : partnerWakes s l = { setAsleep s l false with
        hw := { s.hw with waking := s.hw.waking ||| BitVec.ofNat 2 (1 <<< linkIdx l) } } := by
      cases l <;> exact if_pos hasleep
    obtain ⟨htouches, hpending⟩ := State.touches_of_hide [.regs, .hw] rfl fun d => partnerWakes_hide rfl d s l
    refine Ends.of_next (whenUp_next (f := fun s => partnerWakes s l) hup hpending) ⟨?_, ?_, fun a ha => ?_, htouches⟩
    · rw [hwoken]
      exact linkAsleep_setAsleep s l false
    · rw [hwoken]
    · rw [hwoken]
      exact setAsleep_reg_other s l false ha
  · have hwoken : wakeAsked s l = wakeLink s l := by
      refine if_pos ?_
      rw [hasleep, Bool.true_and, Bool.or_eq_true, beq_iff_eq]
      exact hdriven
    obtain ⟨htouches, hpending⟩ := State.touches_of_hide [.regs, .hw, .out] rfl fun d => wakeLink_hide rfl d s l
    obtain ⟨hawake, hout, hregs⟩ := wakeLink_shows s l
    refine Ends.of_next (whenServed_next (f := fun s => wakeAsked s l) htakes (by rw [hwoken, hpending])) ?_
    rw [hwoken]
    exact ⟨hawake, hout, hregs, htouches⟩
  · exact whenServed_same (f := fun s => wakeAsked s .b) (if_neg (by rw [hheld, Bool.or_false, Bool.and_eq_true]; exact fun h => nomatch h.2))
  · have hneg : ¬linkAsleep s l = true := by rw [hawake]; exact Bool.false_ne_true
    exact ⟨whenUp_same (f := fun s => partnerWakes s l) (if_neg hneg),
      whenServed_same (f := fun s => wakeAsked s l) (if_neg fun h => hneg (Bool.and_eq_true_iff.1 h).1)⟩

end Sys2Proof.Proofs.HaywainRings
end

section
/-! PROOFS. Two statements that fail: what ending a session (spec 04, R92) and a descriptor that arrives (spec 04, R103; spec 14, R348)
leave of states that no run of the module reaches. -/

namespace Sys2Proof.Machine

/-! ### A ring that does not run -/

theorem State.rings_of_hide {s t : State} {m : Nat} (hm : m.testBit 6 = false) (h : t.hide m s = s.hide m s) : t.rings = s.rings := by
  have hrings := congrArg State.rings h
  simpa only [State.hide, hm, Bool.false_eq_true, if_false] using hrings

theorem ring_of_rings {s t : State} (h : t.rings = s.rings) (n : Nat) : t.ring n = s.ring n := congrArg (smGet ringInit · n) h

theorem ring_pending (t : State) (q : List Instr) (n : Nat) : State.ring { t with pending := q } n = t.ring n := rfl

/-- STAT of a ring lasts where no ring goes on. -/
theorem ringState_of_lasting {s t : State} {dm : Bool} (h : t.lasting true dm = s.lasting true dm) {n : Nat} (hn : n < 32) :
    ringState t n = ringState s n := by
  refine State.fld_congr (State.reg_of_lasting h ?_)
  simp only [lastingReg, F.ringStatState, A.ringStat, true_or, and_true]
  omega

/-- Without a completion that waits none is issued. -/
theorem drainRing_nil {s : State} {n : Nat} (h : (s.ring n).held = []) : drainRing s n = s := by
  rw [drainRing, h]
  rfl

/-- A ring that neither runs nor is about to stop does not go on. -/
theorem runRing_idle {s : State} {n : Nat} (hhalt : (s.ring n).halt = none) (hstopping : (s.ring n).stopping = false)
    (hstate : ringState s n ≠ 1 ∧ ringState s n ≠ 2) (k : Nat) : runRing k s n = s := by
  cases k with
  | zero => rfl
  | succ k =>
    have hdue : stopDue s n = false := by rw [stopDue, hstopping, Bool.false_and]
    have hrun : (!(ringState s n == 1 || ringState s n == 2)) = true := by
      rw [beq_false_of_ne hstate.1, beq_false_of_ne hstate.2]
      rfl
    unfold runRing
    rw [hhalt]
    dsimp only
    rw [hdue, hrun, if_neg Bool.false_ne_true, if_pos rfl]

/-- What goes on before the rings do. -/
def beforeRings (s : State) : State := (drainReleases s).each ((drainReleases s).precHeld.map (·.1)) drainPrec

theorem beforeRings_rings (s : State) : (beforeRings s).rings = s.rings :=
  State.rings_of_hide (m := 0x8010004b6) (by decide)
    ((State.each_hide _ _ _ _ _ fun s _ => drainPrec_hide rfl ..).trans (drainReleases_hide rfl ..))

theorem beforeRings_lasts (s : State) {rg dm : Bool} : (beforeRings s).lasting rg dm = s.lasting rg dm :=
  (State.each_lasts _ _ _ drainPrec_lasts).trans (drainReleases_lasts s)

theorem settle_eq (s : State) : settle s = portsGoOn (pumpReads (armWritten (ringsGoOn (beforeRings s)))) := rfl

/-- With one ring, its completions are written, what they arm is armed, and it goes on. -/
theorem ringsGoOn_one {s : State} {n : Nat} (h : s.rings.map (·.1) = [n]) :
    ringsGoOn s = runRing ringFuel (armWritten (drainRing s n)) n := by
  rw [ringsGoOn, h, State.each, State.each, List.foldl_cons, List.foldl_cons, List.foldl_nil, List.foldl_nil]

theorem armWritten_rings (s : State) : (armWritten s).rings = s.rings :=
  State.rings_of_hide (m := 0x969d744b7) (by decide) (armWritten_hide rfl s s)

theorem pumpReads_rings (s : State) : (pumpReads s).rings = s.rings :=
  State.rings_of_hide (m := 0x800000032) (by decide) (pumpReads_hide rfl s s)

theorem portsGoOn_rings (s : State) : (portsGoOn s).rings = s.rings :=
  State.rings_of_hide (m := 0x969d744b7) (by decide) (portsGoOn_hide rfl s s)

/-- A ring that does not go on, the module's only one, is as it was. -/
theorem settle_ring_idle {s : State} {n : Nat} (hn : n < 32) (hrings : s.rings.map (·.1) = [n]) (hheld : (s.ring n).held = [])
    (hhalt : (s.ring n).halt = none) (hstopping : (s.ring n).stopping = false) (hstate : ringState s n ≠ 1 ∧ ringState s n ≠ 2) :
    (settle s).ring n = s.ring n := by
  have hdrained : drainRing (beforeRings s) n = beforeRings s := drainRing_nil (by rw [ring_of_rings (beforeRings_rings s), hheld])
  have harmed : (armWritten (beforeRings s)).rings = s.rings := (armWritten_rings _).trans (beforeRings_rings s)
  have harmedState : ringState (armWritten (beforeRings s)) n = ringState s n :=
    ringState_of_lasting ((armWritten_lasts (dm := false) _).trans (beforeRings_lasts s)) hn
  have hgo : ringsGoOn (beforeRings s) = armWritten (beforeRings s) := by
    rw [ringsGoOn_one (by rw [beforeRings_rings, hrings]), hdrained]
    refine runRing_idle ?_ ?_ (by rw [harmedState]; exact hstate) _
    · rw [ring_of_rings harmed, hhalt]
    · rw [ring_of_rings harmed, hstopping]
  refine ring_of_rings ?_ n
  rw [settle_eq, portsGoOn_rings, pumpReads_rings, armWritten_rings, hgo, harmed]

end Sys2Proof.Machine

namespace Sys2Proof.Proofs.HaywainRings

open Sys2Proof.Machine Sys2Proof.Tests

/-! ### A ring that ended with a descriptor left over -/

/-- A descriptor that a ring has read. -/
def leftOver : Desc := { kind := 0x40, h := hdr0, body := copyBody, index := 0, chain := false }

/-- A session is open, and ring 0, a DMA ring in IDLE, still holds a descriptor that it has read. -/
def idleWithDesc : State := open7.setRing 0 { ringInit with cfg := 2, buf := [leftOver] }

/-- Ending the session drops the descriptor. -/
theorem sessionCloseReg_drops :
    (match exec (.sessionCloseReg .debug) idleWithDesc with
      | .next t => (t.ring 0).buf.isEmpty
      | _ => true) = true := by
  decide +kernel

/-- Refutes O28: a ring that is not running may hold a descriptor that it has read, which ending the session drops; a part of the state
beside the registers, the transport and the telltales then changes, though no channel and no running ring has anything in hand. -/
theorem not_sessionTimers : ¬Obligations.SessionTimers := by
  rintro ⟨-, -, -, -, hclose, -⟩
  have htakes : idleWithDesc.takes .debug := by
    unfold State.takes State.isUp
    decide +kernel
  obtain ⟨u, hu, -, -, hregs, htouches⟩ := hclose .debug idleWithDesc htakes (by decide +kernel) (by decide +kernel) (by decide +kernel)
    (by decide +kernel) (by decide +kernel)
  have hrings : u.rings = idleWithDesc.rings := htouches .rings (by decide)
  have hring : u.ring 0 = idleWithDesc.ring 0 := ring_of_rings hrings 0
  have hstate : ringState u 0 = ringState idleWithDesc 0 := State.fld_congr (hregs (A.ringStat 0) (by decide))
  have hkept : (settle u).ring 0 = idleWithDesc.ring 0 := by
    refine (settle_ring_idle (by decide) ?_ ?_ ?_ ?_ ?_).trans hring
    · rw [hrings]
      decide +kernel
    · rw [hring]
      decide +kernel
    · rw [hring]
      decide +kernel
    · rw [hring]
      decide +kernel
    · rw [hstate]
      decide +kernel
  have hdropped := sessionCloseReg_drops
  rw [hu] at hdropped
  dsimp only at hdropped
  rw [ring_pending, hkept] at hdropped
  exact absurd hdropped (by decide +kernel)

/-! ### A channel table out of order -/

/-- A FILL of 8 bytes. -/
def fillDesc : DmaDesc := dmaDescOf 0x41 (dmaBody 0 8 0x1004 7)

/-- Ring 0 serves a DMA descriptor, and a scene is admitted whose completion is written. The table of the channels lists channel 3, with
40 descriptors waiting, behind channel 5. -/
def channelsOutOfOrder : State :=
  { ringOf 2 with
    dma := [(5, { dmaInit with asked := 1 }), (3, { dmaInit with inHand := some fillDesc, queue := List.replicate 40 fillDesc })],
    scene := { (ringOf 2).scene with admitted := [(emptyScene 1, 0)] } }

/-- The scene is armed, so that the ports serve the FILL of channel 3 and list that channel once more, now in its place; with its
descriptors counted twice the prefetch store is full, and ring 0 does not act on what arrives. -/
theorem copy_notTaken :
    (match exec (.copy 0 hdr0 copyBody) channelsOutOfOrder with
      | .next t => (t.chan 0).inHand.isNone
      | _ => true) = true := by
  decide +kernel

/-- Refutes O36: a state whose channel table is not in key order, with a scene about to be armed. -/
theorem not_descriptorsArrive : ¬Obligations.DescriptorsArrive := by
  rintro ⟨-, hgood, -, -⟩
  have hserves : ServesDma channelsOutOfOrder 0 0 := by
    unfold ServesDma Serves State.isUp
    decide +kernel
  obtain ⟨t, ht, hhand, -⟩ := (hgood 0 hdr0 copyBody 0 channelsOutOfOrder hserves).1 (by decide +kernel)
  have hnone := copy_notTaken
  rw [ht] at hnone
  have hnone : (t.chan 0).inHand = none := Option.isNone_iff_eq_none.1 hnone
  rw [show ((0 : Fin 28) : Nat) = 0 from rfl, hnone] at hhand
  exact nomatch hhand

end Sys2Proof.Proofs.HaywainRings
end

section
/-! PROOFS. Ring controls (spec 04, R103, R105, R111, R114; log 80): what RUN, STOP, RESET and RESUME do to a ring with nothing in hand,
the enable of a pipe record ring, and polls. -/

namespace Sys2Proof.Machine

/-! ### A ring with nothing in hand -/

/-- Ring `n` has nothing in hand: no chain, no descriptor read or waiting, and no stop that waits. -/
def RingEmpty (s : State) (n : Nat) : Prop :=
  (s.ring n).chain = none ∧ (s.ring n).inHand = none ∧ (s.ring n).waitCommit = none ∧ (s.ring n).buf = [] ∧ (s.ring n).halt = none

theorem headReady_nil {s : State} {n : Nat} (h : (s.ring n).buf = []) : headReady s n = none := by
  simp only [headReady, h, ite_self]

theorem dist_self (a : BitVec 32) : dist a a = 0 := by
  rw [dist, BitVec.sub_self]
  rfl

/-- With CI at PI there is nothing to read. -/
theorem readAhead_end {s : State} {n : Nat} (hchain : (s.ring n).chain = none) (h : s.reg (A.ringPi n) = s.reg (A.ringCi n)) :
    readAhead s n = s := by
  simp only [readAhead, hchain, h, dist_self, Nat.zero_min, decide_true, Bool.true_or, if_true, ite_self]

/-- A ring that waits for nothing but the host's next slot does not go on. -/
theorem runRing_end {s : State} {n : Nat} (hempty : RingEmpty s n) (hstopping : (s.ring n).stopping = false)
    (h : s.reg (A.ringPi n) = s.reg (A.ringCi n)) (k : Nat) : runRing k s n = s := by
  obtain ⟨hchain, -, hwait, hbuf, hhalt⟩ := hempty
  cases k with
  | zero => rfl
  | succ k =>
    have hdue : stopDue s n = false := by rw [stopDue, hstopping, Bool.false_and]
    unfold runRing
    rw [hhalt]
    dsimp only
    rw [hdue, if_neg Bool.false_ne_true, hwait, headReady_nil hbuf]
    dsimp only
    rw [readAhead_end hchain h, ite_self]

/-- A ring that is to stop and has nothing in hand stops at the slot before CI. -/
theorem runRing_stops {s : State} {n : Nat} (hempty : RingEmpty s n) (hstopping : (s.ring n).stopping = true)
    (hhanded : handedOver s n = false) (k : Nat) : runRing (k + 1) s n = haltRing s n 3 (s.reg (A.ringCi n) - 1) := by
  obtain ⟨hchain, hhand, hwait, hbuf, hhalt⟩ := hempty
  have hdue : stopDue s n = true := by
    simp only [stopDue, ringBusy, hstopping, hchain, hhand, hwait, hhanded, Option.isSome_none, Option.any_none, Bool.or_self, Bool.not_false,
      Bool.and_self]
  have hslot : takeSlot s n = s.reg (A.ringCi n) := by rw [takeSlot, hwait, hbuf]
  unfold runRing
  rw [hhalt]
  dsimp only
  rw [hdue, if_pos rfl, hslot]

theorem fld_setStatState (s : State) (n : Nat) {v : Nat} (h : v < 8) : (s.setFld (F.ringStatState n) v).fld (F.ringStatState n) = v :=
  State.fld_setFld_of_lt s (show 0 ≤ 2 ∧ 2 < 32 by decide) h

theorem fld_setStatCause (s : State) (n : Nat) {v : Nat} (h : v < 16) : (s.setFld (F.ringStatCause n) v).fld (F.ringStatCause n) = v :=
  State.fld_setFld_of_lt s (show 8 ≤ 11 ∧ 11 < 32 by decide) h

theorem fld_setCtlRun (s : State) (n : Nat) {v : Nat} (h : v < 2) : (s.setFld (F.ringCtlRun n) v).fld (F.ringCtlRun n) = v :=
  State.fld_setFld_of_lt s (show 0 ≤ 0 ∧ 0 < 32 by decide) h

theorem statState_setStatCause (s : State) (n v : Nat) : (s.setFld (F.ringStatCause n) v).fld (F.ringStatState n) = s.fld (F.ringStatState n) :=
  State.fld_setFld_apart s v (show (8 ≤ 11 ∧ 11 < 32) ∧ (0 ≤ 2 ∧ 2 < 32) ∧ (2 < 8 ∨ 11 < 0) by decide)

theorem statCause_setStatState (s : State) (n v : Nat) : (s.setFld (F.ringStatState n) v).fld (F.ringStatCause n) = s.fld (F.ringStatCause n) :=
  State.fld_setFld_apart s v (show (0 ≤ 2 ∧ 2 < 32) ∧ (8 ≤ 11 ∧ 11 < 32) ∧ (11 < 0 ∨ 2 < 8) by decide)

theorem haltRing_regs (s : State) {n : Nat} (hn : n < 32) (cause : Nat) (stop : BitVec 32) {a : Nat} (hevt : ¬evtReg a)
    (h : ¬(a = A.ringCtl n ∨ a = A.ringStat n ∨ a = A.ringStopIndex n ∨ a = A.ringCi n)) : (haltRing s n cause stop).reg a = s.reg a := by
  obtain ⟨hctl, h⟩ := not_or.1 h
  obtain ⟨hstat, h⟩ := not_or.1 h
  obtain ⟨hstop, hci⟩ := not_or.1 h
  rw [haltRing, raise_reg _ _ a (by omega) hevt]
  exact (State.reg_setFld_other _ (F.ringCtlRun n) a _ hctl).trans ((State.reg_setReg_other _ _ a _ hci).trans
    ((State.reg_setReg_other _ _ a _ hstop).trans ((State.reg_setFld_other _ (F.ringStatCause n) a _ hstat).trans
      (State.reg_setFld_other _ (F.ringStatState n) a _ hstat))))

/-- A ring stops for the host: STOPPED with cause HOST_STOP, RUN at 0, STOP_INDEX and CI behind it. -/
theorem haltRing_shows (s : State) {n : Nat} (hn : n < 32) (stop : BitVec 32) :
    ringState (haltRing s n 3 stop) n = 3 ∧ (haltRing s n 3 stop).fld (F.ringStatCause n) = 3 ∧
    (haltRing s n 3 stop).fld (F.ringCtlRun n) = 0 ∧ (haltRing s n 3 stop).reg (A.ringStopIndex n) = stop ∧
    (haltRing s n 3 stop).reg (A.ringCi n) = stop + 1 := by
  have hevt {a : Nat} (ha : a = A.ringCtl n ∨ a = A.ringStat n ∨ a = A.ringStopIndex n ∨ a = A.ringCi n) : ¬evtReg a := by
    simp only [A.ringCtl, A.ringStat, A.ringStopIndex, A.ringCi] at ha
    exact not_evtReg_of_lt (by omega)
  have hapart : A.ringStat n ≠ A.ringCtl n ∧ A.ringStopIndex n ≠ A.ringCtl n ∧ A.ringCi n ≠ A.ringCtl n ∧ A.ringStat n ≠ A.ringCi n ∧
      A.ringStat n ≠ A.ringStopIndex n ∧ A.ringStopIndex n ≠ A.ringCi n := by
    simp only [A.ringCtl, A.ringStat, A.ringStopIndex, A.ringCi]
    omega
  obtain ⟨hstatCtl, hstopCtl, hciCtl, hstatCi, hstatStop, hstopCi⟩ := hapart
  rw [ringState, haltRing]
  refine ⟨?_, ?_, ?_, ?_, ?_⟩
  · rw [raise_fld _ _ _ (by omega) (hevt (.inr (.inl rfl))), State.fld_setFld_reg _ _ _ _ hstatCtl,
      State.fld_congr (State.reg_setReg_other _ _ _ _ hstatCi), State.fld_congr (State.reg_setReg_other _ _ _ _ hstatStop),
      statState_setStatCause, fld_setStatState _ _ (by decide)]
    rfl
  · rw [raise_fld _ _ _ (by omega) (hevt (.inr (.inl rfl))), State.fld_setFld_reg _ _ _ _ hstatCtl,
      State.fld_congr (State.reg_setReg_other _ _ _ _ hstatCi), State.fld_congr (State.reg_setReg_other _ _ _ _ hstatStop),
      fld_setStatCause _ _ (by decide)]
  · rw [raise_fld _ _ _ (by omega) (hevt (.inl rfl)), fld_setCtlRun _ _ (by decide)]
  · rw [raise_reg _ _ _ (by omega) (hevt (.inr (.inr (.inl rfl)))), State.reg_setFld_other _ _ _ _ hstopCtl,
      State.reg_setReg_other _ _ _ _ hstopCi, State.reg_setReg_self]
  · rw [raise_reg _ _ _ (by omega) (hevt (.inr (.inr (.inr rfl)))), State.reg_setFld_other _ _ _ _ hciCtl, State.reg_setReg_self]

/-! ### RUN, STOP and RESUME -/

/-- RUN of an IDLE ring: RUN 1, STATE RUN. -/
def ringStarted (s : State) (n : Nat) : State := (s.setFld (F.ringCtlRun n) 1).setFld (F.ringStatState n) 1

theorem ringCtl_ne_ringStat (n : Nat) : A.ringCtl n ≠ A.ringStat n := by
  simp only [A.ringCtl, A.ringStat]
  omega

theorem ringStarted_shows (s : State) (n : Nat) :
    ringState (ringStarted s n) n = 1 ∧ (ringStarted s n).fld (F.ringCtlRun n) = 1 ∧
    SameRegsBut (fun a => a = A.ringCtl n ∨ a = A.ringStat n) s (ringStarted s n) ∧ TouchesOnly [.regs] s (ringStarted s n) := by
  refine ⟨fld_setStatState _ _ (by decide), ?_, fun a ha => ?_, touchesOnly_regs rfl⟩
  · rw [ringStarted, State.fld_setFld_reg _ _ _ _ (ringCtl_ne_ringStat n), fld_setCtlRun _ _ (by decide)]
  · obtain ⟨hctl, hstat⟩ := not_or.1 ha
    exact (State.reg_setFld_other _ (F.ringStatState n) a _ hstat).trans (State.reg_setFld_other _ (F.ringCtlRun n) a _ hctl)

theorem startRing_end {s : State} {n : Nat} (hstate : ringState s n = 0) (hempty : RingEmpty s n) (hstopping : (s.ring n).stopping = false)
    (h : s.reg (A.ringPi n) = s.reg (A.ringCi n)) (hcore : s.flag F.faultStateCoreFail = false) : startRing s n = ringStarted s n := by
  have hends : (ringStarted s n).reg (A.ringPi n) = (ringStarted s n).reg (A.ringCi n) := by
    obtain ⟨-, -, hregs, -⟩ := ringStarted_shows s n
    rw [hregs _ (by simp only [A.ringPi, A.ringCtl, A.ringStat]; omega), hregs _ (by simp only [A.ringCi, A.ringCtl, A.ringStat]; omega), h]
  simp only [startRing, hstate, hcore, Bool.and_false, Bool.false_eq_true, if_false, if_true, decide_true]
  exact runRing_end (s := ringStarted s n) hempty hstopping hends _

theorem startRing_failed {s : State} {n : Nat} (hstate : ringState s n = 0) (hcore : s.flag F.faultStateCoreFail = true) :
    startRing s n = s.setFld (F.ringStatState n) 5 := by
  simp only [startRing, hstate, hcore, decide_true, Bool.and_self, if_true]

/-- A ring whose RUN is written 0. -/
def ringStopping (s : State) (n : Nat) : State := (s.setRing n { s.ring n with stopping := true }).setFld (F.ringCtlRun n) 0

theorem ringStopping_ring (s : State) (n : Nat) : (ringStopping s n).ring n = { s.ring n with stopping := true } :=
  (State.ring_setRing s n n _).trans (if_pos rfl)

/-- Handing over is asked of the rings, the scene and the channels. -/
theorem handedOver_ringStopping (s : State) (n : Nat) : handedOver (ringStopping s n) n = handedOver s n := by
  have hkind : ringKind (ringStopping s n) n = ringKind s n := by rw [ringKind, ringStopping_ring]; rfl
  have hchannel : ringChannel (ringStopping s n) n = ringChannel s n := by rw [ringChannel, ringStopping_ring]; rfl
  have howed : commitOwed (ringStopping s n) n = commitOwed s n := by rw [commitOwed, ringStopping_ring]; rfl
  rw [handedOver, hkind, hchannel, howed]
  rfl

theorem stopRing_empty {s : State} {n : Nat} (hstate : ringState s n = 1) (hempty : RingEmpty s n) (hhanded : handedOver s n = false) :
    stopRing s n = haltRing (ringStopping s n) n 3 (s.reg (A.ringCi n) - 1) := by
  have hci : (ringStopping s n).reg (A.ringCi n) = s.reg (A.ringCi n) :=
    State.reg_setFld_other _ (F.ringCtlRun n) _ _ (by simp only [A.ringCi, F.ringCtlRun, A.ringCtl]; omega)
  have hempty' : RingEmpty (ringStopping s n) n := by
    rw [RingEmpty, ringStopping_ring]
    exact hempty
  rw [← hci, ← runRing_stops hempty' (by rw [ringStopping_ring]) (by rw [handedOver_ringStopping, hhanded]) 39]
  simp only [stopRing, hstate, decide_true, Bool.true_or, if_true]
  rfl

/-! ### RESET -/

/-- Ring `n` with its indices at 0, nothing staged, and no cause of a stop. -/
def ringCleared (s : State) (n : Nat) : State :=
  let t := s.each [A.ringPi n, A.ringCi n, A.ringCplPi n, A.ringHostCi n, A.ringStopIndex n] fun s a => s.setReg a 0
  ((setStaging t n none).mapScene fun x => { x with before := x.before.filter fun c => c.ring.val != n }).setFld (F.ringStatCause n) 0

/-- Ring `n` as RESET takes it from its registers. -/
def ringTaken (s : State) (n : Nat) : Ring :=
  { ringInit with cfg := s.reg (A.ringCfg n), sq := s.reg64 (A.ringSqLo n) / 32 * 32, cq := s.reg64 (A.ringCqLo n) / 16 * 16,
                  poll := s.reg64 (A.ringPollLo n) / 8 * 8, pollIv := max 10 (s.fld (F.ringPollIvUs n)) }

/-- Words at addresses of a list are set to 0. -/
theorem reg_each_zero (l : List Nat) (s : State) (a : Nat) : (s.each l fun s a => s.setReg a 0).reg a = if a ∈ l then 0 else s.reg a := by
  induction l generalizing s with
  | nil => rfl
  | cons b l ih =>
    refine (ih (s.setReg b 0)).trans ?_
    by_cases hl : a ∈ l
    · rw [if_pos hl, if_pos (List.mem_cons_of_mem b hl)]
    · rw [if_neg hl]
      by_cases hb : a = b
      · rw [hb, State.reg_setReg_self, if_pos List.mem_cons_self]
      · rw [State.reg_setReg_other _ _ _ _ hb, if_neg (fun h => (List.mem_cons.1 h).elim hb hl)]

theorem ringCleared_reg (s : State) (n : Nat) {a : Nat} (h : a ≠ A.ringStat n) :
    (ringCleared s n).reg a =
      if a ∈ [A.ringPi n, A.ringCi n, A.ringCplPi n, A.ringHostCi n, A.ringStopIndex n] then 0 else s.reg a :=
  (State.reg_setFld_other _ (F.ringStatCause n) a _ h).trans (reg_each_zero _ s a)

theorem cfgBreaks_of_rings {s t : State} (h : t.rings = s.rings) (n : Nat) (cfg : Word) : cfgBreaks t n cfg = cfgBreaks s n cfg := by
  have hkind (m : Nat) : ringKind t m = ringKind s m := by rw [ringKind, ringKind, ring_of_rings h]
  have hchannel (m : Nat) : ringChannel t m = ringChannel s m := by rw [ringChannel, ringChannel, ring_of_rings h]
  simp only [cfgBreaks, hkind, hchannel]

theorem ringCleared_rings (s : State) (n : Nat) : (ringCleared s n).rings = s.rings :=
  State.rings_of_hide (m := 0x402) (by decide) ((State.setFld_hide rfl ..).trans ((State.mapScene_hide rfl ..).trans
    ((setStaging_hide rfl ..).trans (State.each_hide _ _ _ _ _ fun _ _ => State.setReg_hide rfl ..))))

/-- Nothing is staged for a ring whose staging sets are gone. -/
theorem stagingOf_filtered {s : State} {n : Nat} {l : List Scene} (h : s.scene.staging = l.filter (fun c => c.ring.val != n)) :
    stagingOf s n = emptyScene n := by
  have hnone : s.scene.staging.find? (fun c => c.ring.val == n) = none := by
    rw [h, List.find?_eq_none]
    intro c hc
    have hne := (List.mem_filter.1 hc).2
    rw [bne, Bool.not_eq_true'] at hne
    rw [hne]
    exact Bool.false_ne_true
  rw [stagingOf, hnone]
  rfl

theorem ringCleared_staging (s : State) (n : Nat) :
    (ringCleared s n).scene.staging = s.scene.staging.filter (fun c => c.ring.val != n) :=
  List.append_nil _

/-- RESET of a ring that is not busy. -/
theorem resetRing_eq {s : State} {n : Nat} (hrun : s.flag (F.ringCtlRun n) = false) (hstopping : (s.ring n).stopping = false)
    (hhalt : (s.ring n).halt = none) :
    resetRing s n =
      if cfgBreaks s n (s.reg (A.ringCfg n)) then ((ringCleared s n).setRing n ringInit).setFld (F.ringStatState n) 5
      else ((ringCleared s n).setRing n (ringTaken s n)).setFld (F.ringStatState n) 0 := by
  have hkept {a : Nat} (ha : a = A.ringCfg n ∨ a = A.ringSqLo n ∨ a = A.ringSqLo n + 4 ∨ a = A.ringCqLo n ∨ a = A.ringCqLo n + 4 ∨
      a = A.ringPollLo n ∨ a = A.ringPollLo n + 4 ∨ a = A.ringPollIv n) : (ringCleared s n).reg a = s.reg a := by
    simp only [A.ringCfg, A.ringSqLo, A.ringCqLo, A.ringPollLo, A.ringPollIv] at ha
    rw [ringCleared_reg s n (by simp only [A.ringStat]; omega), if_neg]
    simp only [List.mem_cons, List.not_mem_nil, or_false, A.ringPi, A.ringCi, A.ringCplPi, A.ringHostCi, A.ringStopIndex]
    omega
  have htaken : ringTaken (ringCleared s n) n = ringTaken s n := by
    simp only [ringTaken, State.reg64, State.fld, F.ringPollIvUs, hkept, true_or, or_true]
  rw [← cfgBreaks_of_rings (ringCleared_rings s n), ← htaken]
  simp only [resetRing, hrun, hstopping, hhalt, Option.isSome_none, Bool.or_self, Bool.false_eq_true, if_false]
  rw [ringTaken, hkept (.inl rfl)]
  rfl

/-- RESUME of a STOPPED ring: CI behind STOP_INDEX, RUN 1, and no cause of a stop. -/
def ringResumed (s : State) (n : Nat) : State :=
  ((((s.setRing n { s.ring n with batch := 0 }).setReg (A.ringCi n) (s.reg (A.ringStopIndex n) + 1)).setFld (F.ringCtlRun n) 1).setFld
    (F.ringStatState n) (if cplFull s n then 2 else 1)).setFld (F.ringStatCause n) 0

theorem ringResumed_ring (s : State) (n : Nat) : (ringResumed s n).ring n = { s.ring n with batch := 0 } :=
  (State.ring_setRing s n n _).trans (if_pos rfl)

theorem ringResumed_regs (s : State) (n : Nat) :
    SameRegsBut (fun a => a = A.ringCtl n ∨ a = A.ringStat n ∨ a = A.ringCi n) s (ringResumed s n) := by
  intro a ha
  obtain ⟨hctl, h⟩ := not_or.1 ha
  obtain ⟨hstat, hci⟩ := not_or.1 h
  exact (State.reg_setFld_other _ (F.ringStatCause n) a _ hstat).trans ((State.reg_setFld_other _ (F.ringStatState n) a _ hstat).trans
    ((State.reg_setFld_other _ (F.ringCtlRun n) a _ hctl).trans (State.reg_setReg_other _ _ a _ hci)))

theorem ringResumed_shows (s : State) (n : Nat) :
    (ringResumed s n).reg (A.ringCi n) = s.reg (A.ringStopIndex n) + 1 ∧ ringState (ringResumed s n) n = (if cplFull s n then 2 else 1) ∧
    (ringResumed s n).fld (F.ringStatCause n) = 0 ∧ (ringResumed s n).fld (F.ringCtlRun n) = 1 := by
  have hapart : A.ringCi n ≠ A.ringStat n ∧ A.ringCi n ≠ A.ringCtl n ∧ A.ringCtl n ≠ A.ringStat n := by
    simp only [A.ringCi, A.ringStat, A.ringCtl]
    omega
  obtain ⟨hciStat, hciCtl, hctlStat⟩ := hapart
  rw [ringState, ringResumed]
  refine ⟨?_, ?_, fld_setStatCause _ _ (by decide), ?_⟩
  · rw [State.reg_setFld_other _ _ _ _ hciStat, State.reg_setFld_other _ _ _ _ hciStat, State.reg_setFld_other _ _ _ _ hciCtl,
      State.reg_setReg_self]
  · rw [statState_setStatCause, fld_setStatState _ _ (by split <;> decide)]
  · rw [State.fld_setFld_reg _ _ _ _ hctlStat, State.fld_setFld_reg _ _ _ _ hctlStat, fld_setCtlRun _ _ (by decide)]

theorem ringResumed_touches (s : State) (n : Nat) : TouchesOnly [.regs, .rings] s (ringResumed s n) := by
  refine (State.touches_of_hide [.regs, .rings] rfl fun d => ?_).1
  exact (State.setFld_hide rfl ..).trans ((State.setFld_hide rfl ..).trans ((State.setFld_hide rfl ..).trans
    ((State.setReg_hide rfl ..).trans (State.setRing_hide rfl ..))))

theorem resumeRing_end {s : State} {n : Nat} (hstate : ringState s n = 3) (hempty : RingEmpty s n) (hstopping : (s.ring n).stopping = false)
    (h : s.reg (A.ringPi n) = s.reg (A.ringStopIndex n) + 1) : resumeRing s n = ringResumed s n := by
  have hpi : (ringResumed s n).reg (A.ringPi n) = (ringResumed s n).reg (A.ringCi n) := by
    rw [ringResumed_regs s n _ (by simp only [A.ringPi, A.ringCtl, A.ringStat, A.ringCi]; omega), (ringResumed_shows s n).1, h]
  have hfull : cplFull ((s.setRing n { s.ring n with batch := 0 }).setReg (A.ringCi n) (s.reg (A.ringStopIndex n) + 1)) n = cplFull s n := by
    have hreg {a : Nat} (ha : a = A.ringCplPi n ∨ a = A.ringHostCi n) :
        ((s.setRing n { s.ring n with batch := 0 }).setReg (A.ringCi n) (s.reg (A.ringStopIndex n) + 1)).reg a = s.reg a :=
      State.reg_setReg_other _ _ _ _ (by simp only [A.ringCplPi, A.ringHostCi] at ha; simp only [A.ringCi]; omega)
    have hring : ((s.setRing n { s.ring n with batch := 0 }).setReg (A.ringCi n) (s.reg (A.ringStopIndex n) + 1)).ring n =
        { s.ring n with batch := 0 } := (State.ring_setRing s n n _).trans (if_pos rfl)
    rw [cplFull, cplFull, ringSize, ringSizeLog, hring, hreg (.inl rfl), hreg (.inr rfl)]
    rfl
  have hempty' : RingEmpty (ringResumed s n) n := by
    rw [RingEmpty, ringResumed_ring]
    exact hempty
  rw [← runRing_end hempty' (by rw [ringResumed_ring]; exact hstopping) hpi ringFuel]
  simp only [resumeRing, hstate, if_true, ringResumed, hfull]

/-- Ring `n` after a RESET: cleared, with its entry and STATE. -/
def ringReset (s : State) (n : Nat) (r : Ring) (v : Nat) : State := ((ringCleared s n).setRing n r).setFld (F.ringStatState n) v

theorem ringReset_ring (s : State) (n : Nat) (r : Ring) (v : Nat) : (ringReset s n r v).ring n = r :=
  (ring_of_rings (State.setFld_rings ..) n).trans ((State.ring_setRing (ringCleared s n) n n r).trans (if_pos rfl))

theorem ringReset_zero (s : State) (n : Nat) (r : Ring) (v : Nat) {a : Nat}
    (h : a ∈ [A.ringPi n, A.ringCi n, A.ringCplPi n, A.ringHostCi n, A.ringStopIndex n]) : (ringReset s n r v).reg a = 0 := by
  have hstat : a ≠ A.ringStat n := by
    simp only [List.mem_cons, List.not_mem_nil, or_false, A.ringPi, A.ringCi, A.ringCplPi, A.ringHostCi, A.ringStopIndex] at h
    simp only [A.ringStat]
    omega
  exact (State.reg_setFld_other _ (F.ringStatState n) a _ hstat).trans ((ringCleared_reg s n hstat).trans (if_pos h))

theorem ringReset_cause (s : State) (n : Nat) (r : Ring) (v : Nat) : (ringReset s n r v).fld (F.ringStatCause n) = 0 :=
  (statCause_setStatState _ n v).trans (fld_setStatCause _ n (by decide))

theorem ringReset_staging (s : State) (n : Nat) (r : Ring) (v : Nat) : stagingOf (ringReset s n r v) n = emptyScene n := by
  refine stagingOf_filtered (l := s.scene.staging) ?_
  rw [ringReset, State.setFld_scene, State.setRing_scene, ringCleared_staging]

theorem ringReset_touches (s : State) (n : Nat) (r : Ring) (v : Nat) :
    TouchesOnly [.regs, .rings, .scene] s (ringReset s n r v) ∧ (ringReset s n r v).pending = s.pending :=
  State.touches_of_hide [.regs, .rings, .scene] rfl fun _ => (State.setFld_hide rfl ..).trans ((State.setRing_hide rfl ..).trans
    ((State.setFld_hide rfl ..).trans ((State.mapScene_hide rfl ..).trans
      ((setStaging_hide rfl ..).trans (State.each_hide _ _ _ _ _ fun _ _ => State.setReg_hide rfl ..)))))

/-- A ring that runs, or has something to finish, is not reset. -/
theorem resetRing_busy {s : State} {n : Nat} (h : s.flag (F.ringCtlRun n) = true ∨ (s.ring n).stopping = true ∨ (s.ring n).halt ≠ none) :
    resetRing s n = s := by
  have hbusy : (s.flag (F.ringCtlRun n) || (s.ring n).stopping || (s.ring n).halt.isSome) = true := by
    simpa only [Bool.or_eq_true, Option.isSome_iff_ne_none, or_assoc] using h
  rw [resetRing, if_pos hbusy]

theorem resumeRing_same {s : State} {n : Nat} (h : ringState s n ≠ 3) : resumeRing s n = s := by
  rw [resumeRing, if_neg h]

theorem haltRing_touches (s : State) (n : Nat) (cause : Nat) (stop : BitVec 32) :
    TouchesOnly (Part.shared ++ [.rings]) s (haltRing (ringStopping s n) n cause stop) ∧
    (haltRing (ringStopping s n) n cause stop).pending = s.pending :=
  State.touches_of_hide (Part.shared ++ [.rings]) rfl fun _ =>
    (haltRing_hide rfl ..).trans ((State.setFld_hide rfl ..).trans (State.setRing_hide rfl ..))

/-! ### Pipe record rings and polls -/

/-- PREC_CFG written with EN, and the indices of the pipe record ring at 0. -/
def precZeroed (s : State) (p : Nat) (w : Word) : State :=
  (((s.setFld (F.ringPrecCfgSize p) ((F.ringPrecCfgSize p).of w)).setFld (F.ringPrecCfgEn p) 1).setReg (A.ringPrecWr p) 0).setReg
    (A.ringPrecHostCi p) 0

/-- A pipe record ring as its enable leaves it. -/
def precEnabled (s : State) (p : Nat) (w : Word) : State :=
  { precZeroed s p w with precSize := smSet 4 s.precSize p (max 4 (min 16 ((F.ringPrecCfgSize p).of w))) }

theorem precEn_of {w : Word} (h : w.getLsbD 0 = true) (p : Nat) : (F.ringPrecCfgEn p).of w = 1 :=
  (bits_bit w 0).trans (by rw [h]; rfl)

theorem fld_setPrecEn (s : State) (p : Nat) : (s.setFld (F.ringPrecCfgEn p) 1).fld (F.ringPrecCfgEn p) = 1 :=
  State.fld_setFld_of_lt s (show 0 ≤ 0 ∧ 0 < 32 by decide) (show 1 < 2 by decide)

theorem enablePrec_rises {s : State} {p : Nat} {w : Word} (hoff : s.flag (F.ringPrecCfgEn p) = false) (hw : w.getLsbD 0 = true) :
    enablePrec s p w = settle (precEnabled s p w) := by
  have hsize : ((s.setFld (F.ringPrecCfgSize p) ((F.ringPrecCfgSize p).of w)).setFld (F.ringPrecCfgEn p) 1).fld (F.ringPrecCfgSize p) =
      (F.ringPrecCfgSize p).of w := by
    refine (State.fld_setFld_apart _ 1 (show (0 ≤ 0 ∧ 0 < 32) ∧ (8 ≤ 12 ∧ 12 < 32) ∧ (12 < 0 ∨ 0 < 8) by decide)).trans ?_
    exact State.fld_setFld_of_lt s (show 8 ≤ 12 ∧ 12 < 32 by decide) (bits_lt w 12 8)
  have hen : ((s.setFld (F.ringPrecCfgSize p) ((F.ringPrecCfgSize p).of w)).setFld (F.ringPrecCfgEn p) 1).flag (F.ringPrecCfgEn p) = true := by
    rw [State.flag, fld_setPrecEn]
    rfl
  simp only [enablePrec, precEn_of hw, hoff, hen, hsize, Bool.not_false, Bool.and_self, if_true]
  rfl

theorem precEnabled_reg (s : State) (p : Nat) (w : Word) (a : Nat) : (precEnabled s p w).reg a = (precZeroed s p w).reg a :=
  State.reg_congr (by rw [precEnabled]) a

theorem precEnabled_touches (s : State) (p : Nat) (w : Word) : TouchesOnly [.regs, .precSize] s (precEnabled s p w) := by
  refine (State.touches_of_hide [.regs, .precSize] rfl fun d => ?_).1
  exact (State.hide_precSize _ d (precZeroed s p w) (by decide) _).trans ((State.setReg_hide rfl ..).trans ((State.setReg_hide rfl ..).trans
    ((State.setFld_hide rfl ..).trans (State.setFld_hide rfl ..))))

theorem precEnabled_shows (s : State) (p : Nat) (w : Word) :
    (precEnabled s p w).fld (F.ringPrecCfgEn p) = 1 ∧ (precEnabled s p w).reg (A.ringPrecWr p) = 0 ∧
    (precEnabled s p w).reg (A.ringPrecHostCi p) = 0 ∧
    precSize (precEnabled s p w) p = 2 ^ max 4 (min 16 ((F.ringPrecCfgSize p).of w)) := by
  have hapart : A.ringPrecCfg p ≠ A.ringPrecWr p ∧ A.ringPrecCfg p ≠ A.ringPrecHostCi p ∧ A.ringPrecWr p ≠ A.ringPrecHostCi p := by
    simp only [A.ringPrecCfg, A.ringPrecWr, A.ringPrecHostCi]
    omega
  obtain ⟨hcfgWr, hcfgCi, hwrCi⟩ := hapart
  have hwr : (precZeroed s p w).reg (A.ringPrecWr p) = 0 := by
    rw [precZeroed, State.reg_setReg_other _ _ _ _ hwrCi, State.reg_setReg_self]
  have hci : (precZeroed s p w).reg (A.ringPrecHostCi p) = 0 := State.reg_setReg_self ..
  have hen : (precZeroed s p w).fld (F.ringPrecCfgEn p) = 1 := by
    rw [precZeroed, State.fld_congr (State.reg_setReg_other _ _ _ _ hcfgCi), State.fld_congr (State.reg_setReg_other _ _ _ _ hcfgWr),
      fld_setPrecEn]
  refine ⟨(State.fld_congr (precEnabled_reg ..)).trans hen, (precEnabled_reg ..).trans hwr, (precEnabled_reg ..).trans hci, ?_⟩
  exact congrArg (2 ^ ·) (smGet_set_self 4 s.precSize p _)

/-- What a wanted read is for. -/
def ReadReq.want (r : ReadReq) : Nat × Nat × ReadFor := (r.addr, r.len, r.for_)

theorem wakeSome_reads (s : State) : (wakeSome s).hw.reads = s.hw.reads := by rw [wakeSome_hw]

theorem pump_reads (s : State) : (pump s).hw.reads = s.hw.reads :=
  pump_induct (P := fun t => t.hw.reads = s.hw.reads) rfl (wakeSome_reads s) (by rw [ontoUsable_hw])
    fun t f r hopen ht hw _ => by rw [sendNext_hw hopen hw, ht]

theorem sendSeq_reads (s : State) (kind : Nat) (body : List Byte) (id : Option (BitVec 16)) :
    (sendSeq s kind body id).hw.reads = s.hw.reads := by
  unfold sendSeq
  split
  · exact pump_reads _
  · rfl

/-- Sending a read marks it sent. -/
theorem sendRead_want (s : State) (r : ReadReq) : (sendRead s r).hw.reads.map ReadReq.want = s.hw.reads.map ReadReq.want := by
  unfold sendRead
  split
  · rfl
  · rw [sendSeq_reads, List.map_map]
    refine List.map_congr_left fun x _ => ?_
    rw [Function.comp_apply]
    split <;> rfl

theorem pumpReads_want (s : State) : (pumpReads s).hw.reads.map ReadReq.want = s.hw.reads.map ReadReq.want :=
  State.each_keeps (fun t : State => t.hw.reads.map ReadReq.want) s _ _ sendRead_want

theorem readHost_want (s : State) (addr len : Nat) (p : ReadFor) :
    (readHost s addr len p).hw.reads.map ReadReq.want = s.hw.reads.map ReadReq.want ++ [(addr, len, p)] :=
  (pumpReads_want _).trans List.map_append

theorem pollRing_polls {s : State} {n : Fin 32} (hpoll : (F.ringCfgPollEn n).of (s.ring n).cfg ≠ 0)
    (hstate : ringState s n = 1 ∨ ringState s n = 2) : pollRing s n = readHost s (s.ring n).poll 8 (.poll n) := by
  have hruns : (ringState s n == 1 || ringState s n == 2) = true := by simpa only [Bool.or_eq_true, beq_iff_eq] using hstate
  have hn : Fin.ofNat 32 n = n := Fin.ofNat_val_eq_self n
  rw [pollRing, hruns, hn, Bool.and_true, if_pos (decide_eq_true hpoll)]

theorem pollRing_same {s : State} {n : Nat} (h : (F.ringCfgPollEn n).of (s.ring n).cfg = 0 ∨ (ringState s n ≠ 1 ∧ ringState s n ≠ 2)) :
    pollRing s n = s := by
  unfold pollRing
  split
  · next hon =>
    simp only [Bool.and_eq_true, decide_eq_true_eq, Bool.or_eq_true, beq_iff_eq] at hon
    obtain ⟨hpoll, hruns⟩ := hon
    exact (h.elim hpoll fun hnot => hruns.elim hnot.1 hnot.2).elim
  · rfl

end Sys2Proof.Machine

namespace Sys2Proof.Proofs.HaywainRings

open Sys2Proof.Machine

/-- Settles O38: with nothing in hand a ring that goes on is left as it is, or stops; the rest is what each control writes. -/
theorem ringControls : Obligations.RingControls := by
  unfold Obligations.RingControls
  refine ⟨fun path n s htakes hstate hchain hhand hwait hbuf hstopping hhalt hend hcore => ?_, fun path n s htakes hstate hcore => ?_,
    fun path n s htakes hstate hchain hhand hwait hbuf hhalt hhanded => ?_, fun path n s htakes hrun hstopping hhalt hcfg => ?_,
    fun path n s htakes hrun hstopping hhalt hcfg => ?_, fun path n s hbusy => ?_,
    fun path n s htakes hstate hchain hhand hwait hbuf hstopping hhalt hend => ?_, fun path n s hstate => ?_,
    fun path p w s htakes hoff hw _ => ?_, fun n s hup hpoll hstate => ?_, fun n s h => ?_⟩
  · have hstarts := startRing_end hstate ⟨hchain, hhand, hwait, hbuf, hhalt⟩ hstopping hend hcore
    refine Ends.of_next (whenServed_next (f := fun s => startRing s n) htakes (by rw [hstarts]; rfl)) ?_
    rw [hstarts]
    exact ringStarted_shows s n
  · have hfails := startRing_failed hstate hcore
    refine Ends.of_next (whenServed_next (f := fun s => startRing s n) htakes (by rw [hfails]; rfl)) ?_
    rw [hfails]
    exact ⟨fld_setStatState _ _ (by decide), fun a ha => State.reg_setFld_other s (F.ringStatState n) a 5 ha, touchesOnly_regs rfl⟩
  · have hstops := stopRing_empty hstate ⟨hchain, hhand, hwait, hbuf, hhalt⟩ hhanded
    obtain ⟨htouches, hpending⟩ := haltRing_touches s n 3 (s.reg (A.ringCi n) - 1)
    refine Ends.of_next (whenServed_next (f := fun s => stopRing s n) htakes (by rw [hstops, hpending])) ?_
    rw [hstops]
    obtain ⟨hstopped, hcause, hrun, hstop, hci⟩ := haltRing_shows (ringStopping s n) n.isLt (s.reg (A.ringCi n) - 1)
    rw [BitVec.sub_add_cancel] at hci
    refine ⟨hstopped, hcause, hrun, hstop, hci, fun a ha hevt => ?_, htouches⟩
    by_cases hac : a = A.ringCi n
    · rw [hac, hci]
    · obtain ⟨hctl, hrest⟩ := not_or.1 ha
      obtain ⟨hstat, hstopIndex⟩ := not_or.1 hrest
      rw [haltRing_regs _ n.isLt _ _ (by simp only [evtReg]; omega) (by simp only [hctl, hstat, hstopIndex, hac, or_self, not_false_eq_true])]
      exact State.reg_setFld_other _ (F.ringCtlRun n) a 0 hctl
  · have hresets := resetRing_eq hrun hstopping hhalt
    rw [hcfg, if_neg Bool.false_ne_true] at hresets
    obtain ⟨htouches, hpending⟩ := ringReset_touches s n (ringTaken s n) 0
    refine Ends.of_next (whenServed_next (f := fun s => resetRing s n) htakes (by rw [hresets]; exact hpending)) ?_
    rw [hresets]
    have hzero {a : Nat} := ringReset_zero s n (ringTaken s n) 0 (a := a)
    have hring := ringReset_ring s n (ringTaken s n) 0
    refine ⟨fld_setStatState _ _ (by decide), ringReset_cause .., hzero (by simp), hzero (by simp), hzero (by simp), hzero (by simp),
      hzero (by simp), congrArg Ring.cfg hring, congrArg Ring.held hring, congrArg Ring.sq hring, ringReset_staging .., htouches⟩
  · have hresets := resetRing_eq hrun hstopping hhalt
    rw [hcfg, if_pos rfl] at hresets
    obtain ⟨htouches, hpending⟩ := ringReset_touches s n ringInit 5
    refine Ends.of_next (whenServed_next (f := fun s => resetRing s n) htakes (by rw [hresets]; exact hpending)) ?_
    rw [hresets]
    exact ⟨fld_setStatState _ _ (by decide), ringReset_ring .., htouches⟩
  · exact whenServed_same (f := fun s => resetRing s n) (resetRing_busy hbusy)
  · have hresumes := resumeRing_end hstate ⟨hchain, hhand, hwait, hbuf, hhalt⟩ hstopping hend
    refine Ends.of_next (whenServed_next (f := fun s => resumeRing s n) htakes (by rw [hresumes]; rfl)) ?_
    rw [hresumes]
    obtain ⟨hci, hstate, hcause, hrun⟩ := ringResumed_shows s n
    exact ⟨hci, hstate, hcause, hrun, ringResumed_regs s n, ringResumed_touches s n⟩
  · exact whenServed_same (f := fun s => resumeRing s n) (resumeRing_same hstate)
  · obtain ⟨hen, hwr, hci, hsize⟩ := precEnabled_shows s p w
    exact ⟨precEnabled s p w, (whenServed_takes htakes fun s => enablePrec s p w).trans (by rw [enablePrec_rises hoff hw]),
      hen, hwr, hci, hsize, precEnabled_touches s p w⟩
  · have hpolls := pollRing_polls hpoll hstate
    refine Ends.of_leaves (leaves_whenUp (f := fun s => pollRing s n) rfl hup hpolls) ⟨readHost_want .., ?_, ?_⟩
    · exact (State.rings_of_hide (by decide) (readHost_hide (m := 0x800000032) rfl s s (s.ring n).poll 8 (.poll n)) :
        (readHost s (s.ring n).poll 8 (.poll n)).rings = s.rings)
    · obtain ⟨htouches, -⟩ := State.touches_of_hide [.regs, .hw, .out, .perf] rfl fun d => readHost_hide rfl d s (s.ring n).poll 8 (.poll n)
      exact sameMemory_of_parts (htouches .mem (by decide)) (htouches .lost (by decide))
  · exact whenUp_same (f := fun s => pollRing s n) (pollRing_same h)

end Sys2Proof.Proofs.HaywainRings
end

section
/-! PROOFS. DOORBELL entries (spec 04, R104; spec 13, R337; log 60): each index that an entry sets stands after it; an entry that is not
accepted changes BAD_DB and raises its event. A frame in sequence leaves the indices before its entries act. -/

namespace Sys2Proof.Machine

/-! ### Registers that sending frames writes -/

/-- The registers that sending a frame, or waking a link for it, can write. -/
def sentReg (a : Nat) : Prop := a = A.ringLinkStat ∨ a = A.ringRetx ∨ a = A.evtLinkSleep

/-- A field of a register among those that may be written leaves every other register. -/
theorem State.reg_setFld_beside {P : Nat → Prop} (s : State) {f : Fld} (v : Nat) (h : P f.addr) {a : Nat} (ha : ¬P a) :
    (s.setFld f v).reg a = s.reg a :=
  State.reg_setFld_other s f a v fun e => ha (e ▸ h)

variable {a : Nat}

theorem wakeLink_beside (s : State) (l : Link) (ha : a ≠ A.evtLinkSleep) : (wakeLink s l).reg a = s.reg a := by
  have hasleep : (setAsleep (s.emit (.tc10Wakeup l)) l false).reg a = s.reg a := setAsleep_reg_other _ l false ha
  simp only [wakeLink]
  split
  · exact hasleep
  · exact hasleep

theorem wakeSome_beside (s : State) (ha : a ≠ A.evtLinkSleep) : (wakeSome s).reg a = s.reg a := by
  rw [wakeSome]
  split
  · rfl
  · split
    · exact wakeLink_beside s .a ha
    · exact wakeLink_beside s .b ha

theorem setActive_beside (s : State) (l : Link) (ha : ¬sentReg a) : (setActive s l).reg a = s.reg a :=
  s.reg_setFld_beside _ (.inl rfl) ha

theorem transmit_regs (s : State) (kind seq : Nat) (body : List Byte) (retx : Bool) : (transmit s kind seq body retx).regs = s.regs :=
  State.regs_of_hide (by decide) (transmit_hide (m := 0x800000030) rfl s s kind seq body retx)

theorem pump_beside (s : State) (ha : ¬sentReg a) : (pump s).reg a = s.reg a := by
  refine pump_induct (P := fun t => t.reg a = s.reg a) rfl (wakeSome_beside s fun e => ha (.inr (.inr e))) ?_ fun t _ _ _ ht _ _ => ?_
  · rw [ontoUsable]
    split
    · exact setActive_beside s _ ha
    · rfl
  · exact (State.reg_congr (State.regs_of_hide (by decide) (sendNext_hide (m := 0x800000030) rfl t t)) a).trans ht

theorem sendSeq_beside (s : State) (kind : Nat) (body : List Byte) (id : Option (BitVec 16)) (ha : ¬sentReg a) :
    (sendSeq s kind body id).reg a = s.reg a := by
  unfold sendSeq
  split
  · exact pump_beside _ ha
  · rfl

theorem writePieces_beside (n : Nat) (s : State) (addr : Nat) (bs : List Byte) (ha : ¬sentReg a) :
    (writePieces n s addr bs).reg a = s.reg a := by
  induction n generalizing s addr bs with
  | zero => rfl
  | succ n ih =>
    rw [writePieces]
    split
    · rfl
    · exact (ih _ _ _).trans (sendSeq_beside _ _ _ _ ha)

theorem resendAll_beside (s : State) (ha : ¬sentReg a) : (resendAll s).reg a = s.reg a :=
  State.each_keeps (fun t => t.reg a) _ _ _ fun t f =>
    ((transmit t f.kind.toNat f.seq.toNat f.body true).reg_setFld_beside _ (.inr (.inl rfl)) ha).trans
      (State.reg_congr (transmit_regs ..) a)

theorem backToA_beside (s : State) (l : Link) (ha : ¬sentReg a) : (backToA s l).reg a = s.reg a := by
  rw [backToA]
  split
  · exact (resendAll_beside _ ha).trans (setActive_beside (freshCounts s) .a ha)
  · rfl

/-! ### A frame in sequence, before it acts -/

theorem received_reg (s : State) (f : RxFrame) (ha : ¬sentReg a) : (received s f).reg a = s.reg a := by
  have hcounted : (linkRecovered (countRx s f) f.link).regs = s.regs :=
    State.regs_of_hide (m := 0xA00000000) (by decide) ((linkRecovered_hide rfl s ..).trans (countRx_hide rfl ..))
  exact (pump_beside _ ha).trans ((backToA_beside _ _ ha).trans (State.reg_congr hcounted a))

theorem accepted_reg (s : State) (f : RxFrame) (ha : ¬sentReg a) : (accepted s f).reg a = s.reg a := received_reg s f ha

theorem accepted_rings (s : State) (f : RxFrame) : (accepted s f).rings = s.rings :=
  State.rings_of_hide (m := 0xA00000032) (by decide) ((acceptSeq_hide rfl s ..).trans ((pump_hide rfl ..).trans ((backToA_hide rfl ..).trans
    ((takeAck_hide rfl ..).trans ((linkRecovered_hide rfl ..).trans (countRx_hide rfl ..))))))

theorem ringSize_of_rings {s t : State} (h : t.rings = s.rings) (n : Nat) : ringSize t n = ringSize s n := by
  rw [ringSize, ringSizeLog, ring_of_rings h, ringSize, ringSizeLog]

/-! ### Registers that an event writes -/

/-- The registers that counting an occurrence, or waking for it, can write. -/
def noteReg (a : Nat) : Prop := a = A.evtLinkSleep ∨ a = A.evtSaturations ∨ (∃ q < 8, a = A.evtQctl q) ∨ 0xA1000 ≤ a

theorem noteReg_srcStat (k : Nat) : noteReg (A.evtSrcStat k) := .inr (.inr (.inr (by simp only [A.evtSrcStat]; omega)))

theorem noteReg_qctl (s : State) (k : Nat) : noteReg (A.evtQctl (s.fld (F.evtSrcCfgQueue k))) :=
  .inr (.inr (.inl ⟨_, s.fld_lt_eight _ rfl, rfl⟩))

theorem wakeFor_beside (s : State) (k : Nat) (ha : ¬noteReg a) : (wakeFor s k).reg a = s.reg a := by
  simp only [wakeFor]
  split
  · exact (wakeSome_beside _ fun e => ha (.inl e)).trans (s.reg_setFld_beside _ (noteReg_qctl s k) ha)
  · rfl

theorem markSpi_beside (s : State) (k : Nat) (ha : ¬noteReg a) : (markSpi s k).reg a = s.reg a := by
  rw [markSpi]
  split
  · exact s.reg_setFld_beside _ (noteReg_srcStat k) ha
  · rfl

theorem countOccurrence_beside (s : State) (k : Nat) (r : Bool) (ha : ¬noteReg a) : (countOccurrence s k r).reg a = s.reg a := by
  simp only [countOccurrence]
  split
  · exact (wakeFor_beside _ k ha).trans (State.reg_setFld_beside (s.setSource k _) _ (noteReg_srcStat k) ha)
  · split
    · exact State.reg_setFld_beside (s.setSource k _) _ (.inr (.inl rfl)) ha
    · exact State.reg_setFld_beside (s.setSource k _) _ (noteReg_srcStat k) ha

theorem reportCond_beside (s : State) (k : Nat) (c : Bool) (ha : ¬noteReg a) : (reportCond s k c).reg a = s.reg a := by
  have hcond : (s.setFld (F.evtSrcStatAsserted k) c.toNat).reg a = s.reg a := s.reg_setFld_beside _ (noteReg_srcStat k) ha
  simp only [reportCond, setCond]
  split
  · split
    · split
      · exact (countOccurrence_beside _ _ _ ha).trans ((markSpi_beside _ _ ha).trans hcond)
      · exact (markSpi_beside _ _ ha).trans hcond
    · exact hcond
  · rfl

theorem notifyPending_beside (s : State) (q : Nat) (ha : ¬sentReg a) : (notifyPending s q).reg a = s.reg a := by
  simp only [notifyPending, sendNotify]
  split
  · split
    · rfl
    · exact writePieces_beside _ _ _ _ ha
  · rfl

/-! ### Entries that are accepted -/

theorem queueConsumed_hostCi (s : State) (q : Fin 8) (index : BitVec 32) :
    (queueConsumed s q index).reg (A.evtHostCi q) = index := by
  have hsent : ¬sentReg (A.evtHostCi q) := by
    simp only [sentReg, A.evtHostCi, A.ringLinkStat, A.ringRetx, A.evtLinkSleep]
    omega
  have hnote : ¬noteReg (A.evtHostCi q) := by
    have := q.isLt
    simp only [noteReg, A.evtHostCi, A.evtLinkSleep, A.evtSaturations, A.evtQctl]
    omega
  rw [queueConsumed, notifyPending_beside _ _ hsent, reportFull, reportCond_beside _ _ _ hnote, State.reg_setReg_self]

/-- The ring with the batch that a new PI makes. -/
def ringMarked (s : State) (n : Nat) (index : BitVec 32) : State :=
  (s.setRing n { s.ring n with marks := (s.ring n).marks ++ [s.reg (A.ringPi n)] }).setReg (A.ringPi n) index

theorem submitIndex_accepted {s : State} {n : Nat} {index : BitVec 32} (hpi : dist index (s.reg (A.ringPi n)) ≤ ringSize s n)
    (hcpl : dist index (s.reg (A.ringCplPi n)) ≤ ringSize s n) :
    submitIndex s n index = if index = s.reg (A.ringPi n) then s else runRing ringFuel (ringMarked s n index) n := by
  rw [submitIndex, if_pos (by simp only [hpi, hcpl, decide_true, Bool.and_self])]
  rfl

theorem consumeIndex_accepted {s : State} {n : Nat} {index : BitVec 32}
    (h : dist index (s.reg (A.ringHostCi n)) ≤ dist (s.reg (A.ringCplPi n)) (s.reg (A.ringHostCi n))) :
    consumeIndex s n index =
      drainRing (runRing ringFuel (drainRing (unpause (s.setReg (A.ringHostCi n) index) n) n) n) n := if_pos h

theorem precIndex_accepted {s : State} {p : Nat} {index : BitVec 32}
    (h : dist index (s.reg (A.ringPrecHostCi p)) ≤ dist (s.reg (A.ringPrecWr p)) (s.reg (A.ringPrecHostCi p))) :
    precIndex s p index = drainPrec (s.setReg (A.ringPrecHostCi p) index) p := if_pos h

theorem unpause_lasts (s : State) (n : Nat) : (unpause s n).lasting false false = s.lasting false false := by
  simp only [unpause, State.setFld_lasts, State.lasting_ite, ite_self, F.ringStatState_aside]

theorem lastingReg_ringPi (n : Fin 32) : lastingReg false (A.ringPi n) := by
  have := n.isLt
  simp only [lastingReg, A.ringPi]
  omega

theorem lastingReg_ringHostCi (n : Fin 32) : lastingReg false (A.ringHostCi n) := by
  have := n.isLt
  simp only [lastingReg, A.ringHostCi]
  omega

theorem lastingReg_precHostCi (p : Fin 8) : lastingReg false (A.ringPrecHostCi p) := by
  have := p.isLt
  simp only [lastingReg, A.ringPrecHostCi]
  omega

theorem rxLast_of_lasting {s t : State} {rg dm : Bool} (h : t.lasting rg dm = s.lasting rg dm) : t.hw.rxLast = s.hw.rxLast :=
  congrArg (fun x => x.2.2.1) (State.hw_of_lasting h)

/-- What an accepted entry leaves: its index, and the SEQ last received. -/
def IndexSet (s t : State) (a : Nat) (index : BitVec 32) : Prop := t.reg a = index ∧ t.hw.rxLast = s.hw.rxLast

theorem IndexSet.of_lasts {s u t : State} {index : BitVec 32} {rg dm : Bool} (h : IndexSet s u a index)
    (hlasts : t.lasting rg dm = u.lasting rg dm) (ha : lastingReg rg a) : IndexSet s t a index :=
  ⟨(State.reg_of_lasting hlasts ha).trans h.1, (rxLast_of_lasting hlasts).trans h.2⟩

theorem submitIndex_sets {s : State} {n : Fin 32} {index : BitVec 32} (hpi : dist index (s.reg (A.ringPi n)) ≤ ringSize s n)
    (hcpl : dist index (s.reg (A.ringCplPi n)) ≤ ringSize s n) : IndexSet s (submitIndex s n index) (A.ringPi n) index := by
  rw [submitIndex_accepted hpi hcpl]
  split
  · next hsame => exact ⟨hsame.symm, rfl⟩
  · exact IndexSet.of_lasts (u := ringMarked s n index) ⟨State.reg_setReg_self .., rfl⟩ (runRing_lasts ..) (lastingReg_ringPi n)

theorem consumeIndex_sets {s : State} {n : Fin 32} {index : BitVec 32}
    (h : dist index (s.reg (A.ringHostCi n)) ≤ dist (s.reg (A.ringCplPi n)) (s.reg (A.ringHostCi n))) :
    IndexSet s (consumeIndex s n index) (A.ringHostCi n) index := by
  rw [consumeIndex_accepted h]
  exact IndexSet.of_lasts (u := s.setReg (A.ringHostCi n) index) ⟨State.reg_setReg_self .., rfl⟩
    ((drainRing_lasts ..).trans ((runRing_lasts ..).trans ((drainRing_lasts ..).trans (unpause_lasts ..)))) (lastingReg_ringHostCi n)

theorem precIndex_sets {s : State} {p : Fin 8} {index : BitVec 32}
    (h : dist index (s.reg (A.ringPrecHostCi p)) ≤ dist (s.reg (A.ringPrecWr p)) (s.reg (A.ringPrecHostCi p))) :
    IndexSet s (precIndex s p index) (A.ringPrecHostCi p) index := by
  rw [precIndex_accepted h]
  exact IndexSet.of_lasts (u := s.setReg (A.ringPrecHostCi p) index) ⟨State.reg_setReg_self .., rfl⟩ (drainPrec_lasts (dm := false) ..)
    (lastingReg_precHostCi p)

theorem queueConsumed_sets (s : State) (q : Fin 8) (index : BitVec 32) :
    IndexSet s (queueConsumed s q index) (A.evtHostCi q) index := by
  refine ⟨queueConsumed_hostCi s q index, rxLast_of_lasting (rg := false) (dm := false) ?_⟩
  refine (notifyPending_lasts ..).trans ((reportFull_lasts ..).trans (State.setReg_lasts s index ?_))
  simp only [asideAddr, A.evtHostCi, lastingReg, A.ringSession, A.ringHopLimit]
  omega

/-! ### Which entry does what -/

theorem fin32_mod (n : Fin 32) : (n : Nat) % 256 = n := Nat.mod_eq_of_lt (n.isLt.trans (by decide))

theorem fin8_mod (q : Fin 8) : (q : Nat) % 256 = q := Nat.mod_eq_of_lt (q.isLt.trans (by decide))

theorem doorEntry_submit (s : State) (n : Fin 32) (z : BitVec 16) (index : BitVec 32) :
    doorEntry s ⟨0, BitVec.ofNat 8 n, z, index⟩ = submitIndex s n index := by
  simp [doorEntry, fin32_mod, n.isLt]

theorem doorEntry_consume (s : State) (n : Fin 32) (z : BitVec 16) (index : BitVec 32) :
    doorEntry s ⟨1, BitVec.ofNat 8 n, z, index⟩ = consumeIndex s n index := by
  simp [doorEntry, fin32_mod, n.isLt]

theorem doorEntry_prec (s : State) (p : Fin 8) (z : BitVec 16) (index : BitVec 32) :
    doorEntry s ⟨2, BitVec.ofNat 8 p, z, index⟩ = precIndex s p index := by
  simp [doorEntry, fin8_mod, p.isLt]

theorem doorEntry_queue {s : State} {q : Fin 8} {index : BitVec 32}
    (h : dist index (s.reg (A.evtHostCi q)) ≤ dist (s.reg (A.evtQpi q)) (s.reg (A.evtHostCi q))) (z : BitVec 16) :
    doorEntry s ⟨3, BitVec.ofNat 8 q, z, index⟩ = queueConsumed s q index := by
  simp [doorEntry, fin8_mod, q.isLt, h]

/-- An entry that is not accepted. -/
def Unaccepted (e : DbEntry) (s : State) : Prop :=
  4 ≤ e.kind.toNat ∨ (e.kind.toNat ≤ 1 ∧ 32 ≤ e.target.toNat) ∨ (2 ≤ e.kind.toNat ∧ 8 ≤ e.target.toNat) ∨
  (e.kind = 0 ∧ e.target.toNat < 32 ∧ (ringSize s e.target.toNat < dist e.index (s.reg (A.ringPi e.target.toNat)) ∨
    ringSize s e.target.toNat < dist e.index (s.reg (A.ringCplPi e.target.toNat)))) ∨
  (e.kind = 1 ∧ e.target.toNat < 32 ∧ dist (s.reg (A.ringCplPi e.target.toNat)) (s.reg (A.ringHostCi e.target.toNat)) <
    dist e.index (s.reg (A.ringHostCi e.target.toNat))) ∨
  (e.kind = 2 ∧ e.target.toNat < 8 ∧ dist (s.reg (A.ringPrecWr e.target.toNat)) (s.reg (A.ringPrecHostCi e.target.toNat)) <
    dist e.index (s.reg (A.ringPrecHostCi e.target.toNat))) ∨
  (e.kind = 3 ∧ e.target.toNat < 8 ∧ dist (s.reg (A.evtQpi e.target.toNat)) (s.reg (A.evtHostCi e.target.toNat)) <
    dist e.index (s.reg (A.evtHostCi e.target.toNat)))

/-- An entry whose KIND has no such target. -/
theorem doorEntry_nowhere {s : State} {e : DbEntry}
    (h : 4 ≤ e.kind.toNat ∨ (e.kind.toNat ≤ 1 ∧ 32 ≤ e.target.toNat) ∨ (2 ≤ e.kind.toNat ∧ 8 ≤ e.target.toNat)) :
    doorEntry s e = badDoorbell s := by
  have h0 : ¬(e.kind = 0 ∧ e.target.toNat < 32) := fun ⟨hk, ht⟩ => by
    have hval : e.kind.toNat = 0 := congrArg BitVec.toNat hk
    omega
  have h1 : ¬(e.kind = 1 ∧ e.target.toNat < 32) := fun ⟨hk, ht⟩ => by
    have hval : e.kind.toNat = 1 := congrArg BitVec.toNat hk
    omega
  have h2 : ¬(e.kind = 2 ∧ e.target.toNat < 8) := fun ⟨hk, ht⟩ => by
    have hval : e.kind.toNat = 2 := congrArg BitVec.toNat hk
    omega
  have h3 : ¬(e.kind = 3 ∧ e.target.toNat < 8) := fun ⟨hk, ht⟩ => by
    have hval : e.kind.toNat = 3 := congrArg BitVec.toNat hk
    omega
  simp only [doorEntry, Bool.and_eq_true, decide_eq_true_eq, h0, h1, h2, h3, false_and, if_false]

theorem doorEntry_unaccepted {e : DbEntry} {s : State} (h : Unaccepted e s) : doorEntry s e = badDoorbell s := by
  obtain h | h | h | ⟨hk, ht, h⟩ | ⟨hk, ht, h⟩ | ⟨hk, ht, h⟩ | ⟨hk, ht, h⟩ := h
  · exact doorEntry_nowhere (.inl h)
  · exact doorEntry_nowhere (.inr (.inl h))
  · exact doorEntry_nowhere (.inr (.inr h))
  · have hfar : ¬(dist e.index (s.reg (A.ringPi e.target.toNat)) ≤ ringSize s e.target.toNat ∧
        dist e.index (s.reg (A.ringCplPi e.target.toNat)) ≤ ringSize s e.target.toNat) := by omega
    simp [doorEntry, submitIndex, hk, ht, hfar]
  · simp [doorEntry, consumeIndex, hk, ht, Nat.not_le.2 h]
  · simp [doorEntry, precIndex, hk, ht, Nat.not_le.2 h]
  · simp [doorEntry, hk, ht, Nat.not_le.2 h]

theorem badDoorbell_shows (s : State) :
    (∃ u : State, badDoorbell s = raise u 235 ∧ u.src = s.src ∧ SameRegsBut (· = A.ringBadDb) s u) ∧
    (badDoorbell s).fld F.ringBadDbCount = min 65535 (s.fld F.ringBadDbCount + 1) ∧
    OnlyRegs (· = A.ringBadDb) s (badDoorbell s) ∧ TouchesOnly Part.shared s (badDoorbell s) := by
  have hcounted : SameRegsBut (· = A.ringBadDb) s (s.addFld F.ringBadDbCount 1) := fun a ha => State.reg_setFld_other s _ a _ ha
  refine ⟨⟨_, rfl, State.addFld_src .., hcounted⟩, ?_, fun a ha hevt => ?_, ?_⟩
  · rw [badDoorbell, raise_fld _ _ _ (by decide) (not_evtReg_of_lt (by decide)), State.fld_addFld_self _ _ _ ⟨by decide, by decide⟩,
      Nat.min_comm]
    rfl
  · exact (raise_reg _ _ a (by decide) (by simp only [evtReg]; omega)).trans (hcounted a ha)
  · exact (State.touches_of_hide Part.shared rfl fun d => badDoorbell_hide rfl d s).1

/-- A DOORBELL of one entry, next in sequence. -/
theorem settles_doorbell {c : Instr} {s : State} {f : RxFrame} {e : DbEntry} {P : State → Prop} (hup : s.isUp) (hlength : f.length = 8)
    (hseq : InSequence s f tyDoorbell (doorBytes e)) (hc : exec c s = whenUp s fun s => doorbell s f [e])
    (hP : P (doorEntry (accepted s f) e)) : Settles c s P := by
  rw [← List.append_nil (doorBytes e)] at hseq
  refine settles_of_leaves (leaves_inSequence (bytes := [e].flatMap doorBytes) hseq hup hc ?_) hP
  rw [hlength]
  rfl

end Sys2Proof.Machine

namespace Sys2Proof.Proofs.HaywainRings

open Sys2Proof.Machine

/-- Settles O39: the index that an entry sets lasts through what its ring or queue then does. -/
theorem doorbellEntries : Obligations.DoorbellEntries := by
  unfold Obligations.DoorbellEntries
  refine ⟨fun n z index s hrun hpause hstopping hhalt hpi hcpl => ?_, fun n z s hcpl => ?_,
    fun n z index s hrun hpause hstopping hhalt hheld h => ?_, fun p z index s hheld h => ?_, fun q z index s h => ?_,
    fun f n index s hup hlength hseq hpi hcpl => ?_, fun f n index s hup hlength hseq h => ?_,
    fun f p index s hup hlength hseq h => ?_, fun f q index s hup hlength hseq h => ?_, fun e s h => ?_⟩
  · have hring : (ringMarked s n index).ring n = { s.ring n with marks := (s.ring n).marks ++ [s.reg (A.ringPi n)] } :=
      (State.ring_setRing s n n _).trans (if_pos rfl)
    have hstate : ringState (ringMarked s n index) n = ringState s n :=
      State.fld_congr (State.reg_setReg_other _ _ _ _ (by simp only [F.ringStatState, A.ringStat, A.ringPi]; omega))
    rw [doorEntry_submit, submitIndex_accepted hpi hcpl, runRing_idle (by rw [hring]; exact hhalt) (by rw [hring]; exact hstopping)
      (by rw [hstate]; exact ⟨hrun, hpause⟩)]
    split
    · next hsame => exact ⟨hsame.symm, fun _ _ => rfl, fun p _ => by cases p <;> rfl⟩
    · exact ⟨State.reg_setReg_self .., fun a ha => State.reg_setReg_other _ _ _ _ ha,
        (State.touches_of_hide [.regs, .rings] rfl fun _ => (State.setReg_hide rfl ..).trans (State.setRing_hide rfl ..)).1⟩
  · have hzero : dist (s.reg (A.ringPi n)) (s.reg (A.ringPi n)) ≤ ringSize s n := by
      rw [dist_self]
      exact Nat.zero_le _
    rw [doorEntry_submit, submitIndex_accepted hzero hcpl, if_pos rfl]
  · have hstate : ringState (s.setReg (A.ringHostCi n) index) n = ringState s n :=
      State.fld_congr (State.reg_setReg_other _ _ _ _ (by simp only [F.ringStatState, A.ringStat, A.ringHostCi]; omega))
    have hunpause : unpause (s.setReg (A.ringHostCi n) index) n = s.setReg (A.ringHostCi n) index := by
      simp only [unpause, hstate, hpause, decide_false, Bool.false_and, Bool.false_eq_true, if_false]
    have hdrain : drainRing (s.setReg (A.ringHostCi n) index) n = s.setReg (A.ringHostCi n) index := drainRing_nil hheld
    have hidle : runRing ringFuel (s.setReg (A.ringHostCi n) index) n = s.setReg (A.ringHostCi n) index :=
      runRing_idle (s := s.setReg (A.ringHostCi n) index) hhalt hstopping (by rw [hstate]; exact ⟨hrun, hpause⟩) _
    rw [doorEntry_consume, consumeIndex_accepted h, hunpause, hdrain, hidle, hdrain]
  · have hdrain : drainPrec (s.setReg (A.ringPrecHostCi p) index) p = s.setReg (A.ringPrecHostCi p) index := by
      have hheld' : precHeldOf (s.setReg (A.ringPrecHostCi p) index) p = [] := hheld
      rw [drainPrec, hheld']
      rfl
    rw [doorEntry_prec, precIndex_accepted h, hdrain]
  · rw [doorEntry_queue h]
    exact queueConsumed_hostCi s q index
  · refine settles_doorbell (e := ⟨0, BitVec.ofNat 8 n, 0, index⟩) hup hlength hseq rfl ?_
    have hpi' : (accepted s f).reg (A.ringPi n) = s.reg (A.ringPi n) :=
      accepted_reg s f (by simp only [sentReg, A.ringPi, A.ringLinkStat, A.ringRetx, A.evtLinkSleep]; omega)
    have hcpl' : (accepted s f).reg (A.ringCplPi n) = s.reg (A.ringCplPi n) :=
      accepted_reg s f (by simp only [sentReg, A.ringCplPi, A.ringLinkStat, A.ringRetx, A.evtLinkSleep]; omega)
    rw [doorEntry_submit]
    exact submitIndex_sets (by rw [hpi', ringSize_of_rings (accepted_rings s f)]; exact hpi)
      (by rw [hcpl', ringSize_of_rings (accepted_rings s f)]; exact hcpl)
  · refine settles_doorbell (e := ⟨1, BitVec.ofNat 8 n, 0, index⟩) hup hlength hseq rfl ?_
    have hci : (accepted s f).reg (A.ringHostCi n) = s.reg (A.ringHostCi n) :=
      accepted_reg s f (by simp only [sentReg, A.ringHostCi, A.ringLinkStat, A.ringRetx, A.evtLinkSleep]; omega)
    have hcpl : (accepted s f).reg (A.ringCplPi n) = s.reg (A.ringCplPi n) :=
      accepted_reg s f (by simp only [sentReg, A.ringCplPi, A.ringLinkStat, A.ringRetx, A.evtLinkSleep]; omega)
    rw [doorEntry_consume]
    exact consumeIndex_sets (by rw [hci, hcpl]; exact h)
  · refine settles_doorbell (e := ⟨2, BitVec.ofNat 8 p, 0, index⟩) hup hlength hseq rfl ?_
    have hci : (accepted s f).reg (A.ringPrecHostCi p) = s.reg (A.ringPrecHostCi p) :=
      accepted_reg s f (by simp only [sentReg, A.ringPrecHostCi, A.ringLinkStat, A.ringRetx, A.evtLinkSleep]; omega)
    have hwr : (accepted s f).reg (A.ringPrecWr p) = s.reg (A.ringPrecWr p) :=
      accepted_reg s f (by simp only [sentReg, A.ringPrecWr, A.ringLinkStat, A.ringRetx, A.evtLinkSleep]; omega)
    rw [doorEntry_prec]
    exact precIndex_sets (by rw [hci, hwr]; exact h)
  · refine settles_doorbell (e := ⟨3, BitVec.ofNat 8 q, 0, index⟩) hup hlength hseq rfl ?_
    have hci : (accepted s f).reg (A.evtHostCi q) = s.reg (A.evtHostCi q) :=
      accepted_reg s f (by simp only [sentReg, A.evtHostCi, A.ringLinkStat, A.ringRetx, A.evtLinkSleep]; omega)
    have hpi : (accepted s f).reg (A.evtQpi q) = s.reg (A.evtQpi q) :=
      accepted_reg s f (by simp only [sentReg, A.evtQpi, A.ringLinkStat, A.ringRetx, A.evtLinkSleep]; omega)
    rw [doorEntry_queue (by rw [hci, hpi]; exact h)]
    exact queueConsumed_sets (accepted s f) q index
  · rw [doorEntry_unaccepted h]
    exact badDoorbell_shows s

end Sys2Proof.Proofs.HaywainRings
end

section
/-! PROOFS. Frames of a session (spec 04, R88, R92, R93, R95, R104, R112): a verified frame acts through its header; one in sequence has
its own effect before the rings go on. What a CLOSE sets lasts through the end of the rings' work. -/

namespace Sys2Proof.Machine

/-! ### The header of a verified frame -/

theorem State.hw_of_hide {s t : State} {m : Nat} (hm : m.testBit 4 = false) (h : t.hide m s = s.hide m s) : t.hw = s.hw := by
  simpa only [State.hide, hm, Bool.false_eq_true, if_false] using congrArg State.hw h

/-- Sending a frame leaves the frames that are out and those that wait. -/
theorem transmit_frames (s : State) (kind seq : Nat) (body : List Byte) (retx : Bool) :
    (transmit s kind seq body retx).hw.unacked = s.hw.unacked ∧ (transmit s kind seq body retx).hw.waiting = s.hw.waiting := by
  cases hopen : sessionOpen s with
  | true =>
    rw [transmit_hw hopen]
    exact ⟨rfl, rfl⟩
  | false =>
    rw [transmit_closed hopen]
    exact ⟨rfl, rfl⟩

/-- The frames that are out, marked as sent again. -/
def resent (s : State) : State := { s with hw := { s.hw with unacked := s.hw.unacked.map fun f => { f with retx := true } } }

theorem resendAll_frames (s : State) : (resendAll s).hw.unacked = (resent s).hw.unacked ∧ (resendAll s).hw.waiting = s.hw.waiting := by
  have hsent : ∀ (t : State) (f : TxFrame), _ := fun t f => transmit_frames t f.kind.toNat f.seq.toNat f.body true
  exact ⟨State.each_keeps (fun t : State => t.hw.unacked) (resent s) (resent s).hw.unacked _ fun t f => (hsent t f).1,
    State.each_keeps (fun t : State => t.hw.waiting) (resent s) (resent s).hw.unacked _ fun t f => (hsent t f).2⟩

/-- Frames sent again keep their SEQ and their order. -/
theorem resendAll_seqs (s : State) :
    (resendAll s).hw.unacked.map (·.seq) = s.hw.unacked.map (·.seq) ∧ (resendAll s).hw.waiting = s.hw.waiting := by
  obtain ⟨hunacked, hwaiting⟩ := resendAll_frames s
  refine ⟨?_, hwaiting⟩
  rw [hunacked, resent, List.map_map]
  rfl

theorem backToA_seqs (s : State) (l : Link) :
    (backToA s l).hw.unacked.map (·.seq) = s.hw.unacked.map (·.seq) ∧ (backToA s l).hw.waiting = s.hw.waiting := by
  rw [backToA]
  split
  · obtain ⟨hseqs, hwaiting⟩ := resendAll_seqs (setActive (freshCounts s) .a)
    refine ⟨hseqs.trans ?_, hwaiting⟩
    exact List.map_map.trans rfl
  · exact ⟨rfl, rfl⟩

theorem countedRx_hw (s : State) (f : RxFrame) : (linkRecovered (countRx s f) f.link).hw = s.hw :=
  State.hw_of_hide (m := 0xA00000000) (by decide) ((linkRecovered_hide rfl s ..).trans (countRx_hide rfl ..))

theorem pump_empty {s : State} (h : s.hw.waiting = []) : pump s = s := by
  rw [pump, h]
  rfl

/-- With nothing waiting the frames that stay are those that ACK does not reach, and READ_REQs. -/
theorem received_seqs {s : State} (h : s.hw.waiting = []) (f : RxFrame) :
    (received s f).hw.unacked.map (·.seq) =
      (s.hw.unacked.filter fun g => g.readId.isSome || decide (2 ^ 31 ≤ dist f.ack g.seq)).map (·.seq) := by
  have hhw := countedRx_hw s f
  obtain ⟨hseqs, hwaiting⟩ := backToA_seqs (takeAck (linkRecovered (countRx s f) f.link) f.ack) f.link
  have hempty : (backToA (takeAck (linkRecovered (countRx s f) f.link) f.ack) f.link).hw.waiting = [] := by
    rw [hwaiting, takeAck, hhw, h]
  rw [received, pump_empty hempty, hseqs, takeAck, hhw]

variable {rg dm : Bool}

theorem resendAll_lasts (s : State) (hopen : sessionOpen s = true) : (resendAll s).lasting rg dm = s.lasting rg dm := by
  refine (State.each_lasts _ _ _ fun t f => ?_).trans (State.lasts_hw s (HwState.lasting_of_open rfl hopen rfl rfl))
  refine (State.addFld_lasts _ 1 ?_).trans (transmit_lasts ..)
  simp only [Fld.aside, F.ringRetxCount, A.ringRetx, lastingReg, A.ringSession, A.ringHopLimit]
  omega

theorem backToA_lasts (s : State) (l : Link) (hopen : sessionOpen s = true) : (backToA s l).lasting rg dm = s.lasting rg dm := by
  rw [backToA]
  split
  · exact (resendAll_lasts (setActive (freshCounts s) .a) hopen).trans ((setActive_lasts ..).trans
      (State.lasts_hw s (HwState.lasting_of_open rfl hopen rfl rfl)))
  · rfl

theorem takeAck_lasts (s : State) (ack : BitVec 32) (hopen : sessionOpen s = true) : (takeAck s ack).lasting rg dm = s.lasting rg dm :=
  State.lasts_hw s (HwState.lasting_of_open rfl hopen rfl rfl)

/-- The header of a frame leaves the session, and what lasts with it. -/
theorem received_lasts {s : State} (hopen : sessionOpen s = true) (f : RxFrame) : (received s f).lasting rg dm = s.lasting rg dm := by
  have hcounted : (linkRecovered (countRx s f) f.link).lasting rg dm = s.lasting rg dm :=
    State.lasting_of_hide ((linkRecovered_hide rfl ..).trans (countRx_hide rfl ..))
  have hhw : sessionOpen (linkRecovered (countRx s f) f.link) = true :=
    (sessionOpen_of_hw (congrArg HwState.cur (countedRx_hw s f))).trans hopen
  exact (pump_lasts _).trans ((backToA_lasts (takeAck (linkRecovered (countRx s f) f.link) f.ack) f.link hhw).trans
    ((takeAck_lasts _ f.ack hhw).trans hcounted))

theorem sessionOpen_of_verified {s : State} {f : RxFrame} {kind : Nat} {bytes : List Byte} (h : Verified s f kind bytes) :
    sessionOpen s = true := by
  obtain ⟨-, -, -, c, body, hc, -, -⟩ := h
  unfold sessionOf at hc
  split at hc
  · next x hx =>
    obtain ⟨hcur, -⟩ := Option.filter_eq_some_iff.1 hx
    rw [sessionOpen, hcur]
    rfl
  · exact nomatch hc
  · exact nomatch hc

/-! ### The end of a session -/

theorem rollBack_lasts (s : State) (n : Nat) (x : DmaDesc) : (rollBack s n x).lasting false dm = s.lasting false dm :=
  (State.setReg_lasts _ _ (A.ringCi_aside n)).trans (State.setRing_lasts ..)

theorem dropBuf_lasts (s : State) (n : Nat) : (dropBuf s n).lasting false dm = s.lasting false dm := by
  simp only [dropBuf]
  split
  · exact (State.setReg_lasts _ _ (A.ringCi_aside n)).trans (State.setRing_lasts ..)
  · exact State.setRing_lasts ..

theorem discardFrom_lasts (s : State) (c keep : Nat) : (discardFrom s c keep).lasting false false = s.lasting false false := by
  simp only [discardFrom]
  split
  · exact (rollBack_lasts ..).trans (State.setAnyChan_lasts ..)
  · exact dropBuf_lasts ..
  · rfl

theorem abandonDma_lasts (s : State) (c : Nat) : (abandonDma s c).lasting false false = s.lasting false false := by
  simp only [abandonDma]
  split
  · split
    · exact (discardFrom_lasts ..).trans (State.setAnyChan_lasts ..)
    · exact discardFrom_lasts ..
  · exact discardFrom_lasts ..

theorem dropSlot_lasts (s : State) (n : Nat) (slot : BitVec 32) : (dropSlot s n slot).lasting false false = s.lasting false false := by
  simp only [dropSlot]
  exact (State.setRing_lasts ..).trans (State.setAnyChan_lasts ..)

theorem closeRing_lasts (s : State) (n : Nat) : (closeRing s n).lasting false false = s.lasting false false := by
  simp only [closeRing]
  split
  · rfl
  · split
    · refine (endRing_lasts ..).trans ?_
      split
      · exact (setStaging_lasts ..).trans (State.setFld_lasts _ _ (F.ringCtlRun_aside n))
      · exact (dropSlot_lasts ..).trans (State.setFld_lasts _ _ (F.ringCtlRun_aside n))
    · exact (stopRing_lasts ..).trans (State.setRing_lasts ..)

/-- The state in which the work of a closed session ends: no session, and nothing of it. -/
def sessionGone (s : State) : State :=
  ({ s with hw := { s.hw with cur := none, unacked := [], waiting := [], reads := [], ackOwed := false, rxLast := 0, txNext := 1 } }).setFld
    F.ringSessionState (if s.hw.opening.isSome then 1 else 0)

theorem closeSession_lasts {s : State} (hopen : sessionOpen s = true) :
    (closeSession s).lasting false false = (sessionGone s).lasting false false := by
  simp only [closeSession, hopen, Bool.not_true, Bool.false_eq_true, if_false]
  exact (wakeAll_lasts _).trans ((State.each_lasts _ _ _ closeRing_lasts).trans ((noteHeld_lasts _).trans
    ((refreshTelltales_lasts _).trans (State.each_lasts _ _ _ abandonDma_lasts))))

theorem lastingReg_session (rg : Bool) : lastingReg rg A.ringSession := .inl rfl

/-- What a CLOSE leaves of the session. -/
theorem closeSession_shows {s : State} (hopen : sessionOpen s = true) :
    (closeSession s).hw.cur = none ∧ (closeSession s).hw.unacked = [] ∧ (closeSession s).hw.waiting = [] ∧
    (closeSession s).hw.rxLast = 0 ∧ (closeSession s).hw.txNext = 1 ∧ (closeSession s).hw.ackOwed = false ∧
    (closeSession s).fld F.ringSessionState = (if s.hw.opening = none then 0 else 1) := by
  have hlasts := closeSession_lasts hopen
  have hhw : (closeSession s).hw.lasting = (none, s.hw.opening, 0, some ([], [], 1, false)) := State.hw_of_lasting hlasts
  have hcur : (closeSession s).hw.cur = none := congrArg Prod.fst hhw
  have hrest := congrArg (fun x => x.2.2) hhw
  simp only [HwState.lasting, hcur, Option.isNone_none, if_true, Prod.mk.injEq, Option.some.injEq] at hrest
  obtain ⟨hlast, hunacked, hwaiting, hnext, howed⟩ := hrest
  refine ⟨hcur, hunacked, hwaiting, hlast, hnext, howed, ?_⟩
  have hstate : (sessionGone s).fld F.ringSessionState = if s.hw.opening.isSome then 1 else 0 :=
    State.fld_setFld_of_lt _ (by decide) (by split <;> decide)
  rw [State.fld_congr (State.reg_of_lasting hlasts (lastingReg_session false)), hstate]
  cases s.hw.opening <;> rfl

theorem sendAck_lasts {s : State} (hopen : sessionOpen s = true) : (sendAck s).lasting rg dm = s.lasting rg dm := by
  simp only [sendAck]
  split
  · exact (transmit_lasts ..).trans (ontoUsable_lasts s)
  · exact (wakeSome_lasts _).trans (State.lasts_ackOwed hopen true)

theorem opening_of_lasting {s t : State} (h : t.lasting rg dm = s.lasting rg dm) : t.hw.opening = s.hw.opening :=
  congrArg (fun x => x.2.1) (State.hw_of_lasting h)

theorem cur_of_lasting {s t : State} (h : t.lasting rg dm = s.lasting rg dm) : t.hw.cur = s.hw.cur :=
  congrArg Prod.fst (State.hw_of_lasting h)

/-- A frame in sequence is accepted in the session in hand. -/
theorem accepted_session {s : State} (hopen : sessionOpen s = true) (f : RxFrame) :
    sessionOpen (sendAck (accepted s f)) = true ∧ (sendAck (accepted s f)).hw.opening = s.hw.opening := by
  have hreceived := received_lasts (rg := false) (dm := false) hopen f
  have haccepted : sessionOpen (accepted s f) = true := (sessionOpen_of_hw (cur_of_lasting hreceived)).trans hopen
  have hopening : (received s f).hw.opening = s.hw.opening := opening_of_lasting hreceived
  have hacked := sendAck_lasts (rg := false) (dm := false) haccepted
  exact ⟨(sessionOpen_of_hw (cur_of_lasting hacked)).trans haccepted, (opening_of_lasting hacked).trans hopening⟩

/-! ### The answer to a read -/

/-- What a read brought, and the reads and frames without it. -/
def readTaken (s : State) (id : BitVec 16) : State :=
  pump { s with hw := { s.hw with reads := s.hw.reads.filter (fun x => x.id != id),
                                  unacked := s.hw.unacked.filter (fun f => f.readId != some id) } }

theorem readAnswered_whole {s : State} {id : BitVec 16} {r : ReadReq} {bs : List Byte}
    (hfind : s.hw.reads.find? (fun x => x.id == id && x.sent) = some r) (hlen : bs.length = r.len) :
    readAnswered s id 0 bs = settle (deliver (readTaken s id) r (some bs)) := by
  simp only [readAnswered, hfind, hlen, ne_eq, not_true_eq_false, decide_true, decide_false, Bool.and_false, Bool.false_eq_true, if_false,
    if_true]
  rfl

theorem readTaken_rings (s : State) (id : BitVec 16) : (readTaken s id).rings = s.rings :=
  State.rings_of_hide (m := 0x800000032) (by decide) ((pump_hide rfl s _).trans (State.hide_hw _ s s (by decide) _))

/-- The slots of a read join those in hand, and CI counts them. -/
theorem slotsArrived_shows (s : State) (n : Nat) (first : BitVec 32) (count : Nat) (bs : List Byte) :
    ((slotsArrived s n first count bs).ring n).reading = none ∧
    (slotsArrived s n first count bs).reg (A.ringCi n) = first + BitVec.ofNat 32 count ∧
    ((slotsArrived s n first count bs).ring n).buf =
      (s.ring n).buf ++ (List.range count).map (fun i => descOf (bs.drop (32 * i)) (first + BitVec.ofNat 32 i) false) := by
  have hring : (slotsArrived s n first count bs).ring n = { s.ring n with
      reading := none,
      buf := (s.ring n).buf ++ (List.range count).map fun i => descOf (bs.drop (32 * i)) (first + BitVec.ofNat 32 i) false } :=
    (ring_of_rings (State.setReg_rings ..) n).trans ((State.ring_setRing s n n _).trans (if_pos rfl))
  exact ⟨congrArg Ring.reading hring, State.reg_setReg_self .., congrArg Ring.buf hring⟩

end Sys2Proof.Machine

namespace Sys2Proof.Proofs.HaywainRings

open Sys2Proof.Machine

/-- Settles O25: each frame by its row of the dispatch; what a CLOSE clears lasts while the rings' work ends. -/
theorem sessionFrames : Obligations.SessionFrames := by
  unfold Obligations.SessionFrames
  refine ⟨fun f s hup h => ?_, fun f s hup h hwaiting => ?_, fun f s hup h => ?_, fun f s hup h => ?_, fun f s hup h => ?_,
    fun f t i r s hup h => ?_, fun f t i r s hup h => ?_, fun f t i r s hup h => ?_, fun f t i r s hup h => ?_,
    fun f id st d s hup h => ?_, fun f id d n first count r s hup h hfind hfor hreading hlen => ?_,
    fun f a n x e s hup h => ?_, fun f a n x ws e s hup h => ?_⟩
  · exact leaves_whenUp (f := fun s => receive s f tyAck [] false id) rfl hup (receive_verified h false id)
  · refine settles_of_leaves (leaves_whenUp (f := fun s => receive s f tyAck [] false id) rfl hup (receive_verified h false id))
      ⟨received_seqs hwaiting f, ?_⟩
    exact rxLast_of_lasting (received_lasts (rg := false) (dm := false) (sessionOpen_of_verified h) f)
  · exact leaves_inSequence h hup rfl rfl
  · exact leaves_inSequence h hup rfl rfl
  · obtain ⟨hopen, hopening⟩ := accepted_session (sessionOpen_of_verified h.1) f
    refine settles_of_leaves (t := closeSession (sendAck (accepted s f))) (leaves_inSequence h hup rfl rfl) ?_
    rw [← hopening]
    exact closeSession_shows hopen
  · exact leaves_inSequence h hup rfl rfl
  · exact leaves_inSequence h hup rfl rfl
  · exact leaves_inSequence h hup rfl rfl
  · exact leaves_inSequence h hup rfl rfl
  · exact leaves_inSequence h hup rfl rfl
  · have hreads := readAnswered_whole hfind hlen
    have hring : (readTaken (accepted s f) id).ring n = s.ring n :=
      ring_of_rings ((readTaken_rings ..).trans (accepted_rings s f)) n
    have hslots : deliver (readTaken (accepted s f) id) r (some (d.take (f.length.toNat - 4))) =
        slotsArrived (readTaken (accepted s f) id) n first count (d.take (f.length.toNat - 4)) := by
      simp only [deliver, hfor, hring, hreading, if_true]
    rw [hslots] at hreads
    refine settles_of_leaves (leaves_inSequence h hup rfl hreads) ?_
    rw [← hring]
    exact slotsArrived_shows ..
  · exact leaves_inSequence h hup rfl rfl
  · exact leaves_inSequence h hup rfl rfl

end Sys2Proof.Proofs.HaywainRings
end

section
/-! PROOFS. Sessions begin (spec 04, R88 to R91; log 73): what an OPEN leaves, what its confirmation leaves, and what stands once it is
abandoned. -/

namespace Sys2Proof.Machine

/-! ### OPEN -/

theorem headerBytes_length (version kind session seq ack length : Nat) (retx : Bool) :
    (headerBytes version kind session seq ack length retx).length = 16 := by
  simp only [headerBytes, List.length_append, leBytes_length]

theorem openAckBytes_length (s : State) (c : Sess) : (openAckBytes s c).length = 48 := by
  simp only [openAckBytes, List.length_append, headerBytes_length, leBytes_length]

theorem rxBody_whole {f : RxFrame} {bytes : List Byte} (h : bytes.length = f.length.toNat) : rxBody f bytes = some bytes := by
  rw [rxBody, ← h, if_pos (Nat.le_refl _), List.take_length]

/-- The session that an OPEN begins. -/
def sessOpened (s : State) (f : RxFrame) (n : BitVec 64) : Sess := sessAtOpen s s.hw.nextId (Config.nonce s.free) n f.link

/-- A session is being opened. -/
def opened (s : State) (f : RxFrame) (n : BitVec 64) : State :=
  ({ s with hw := { s.hw with opening := some (sessOpened s f n),
                              nextId := if s.hw.nextId = 0xFFFF then 1 else s.hw.nextId + 1 } }).freshen

/-- SESSION of a module whose session is being opened. -/
def openingShown (s : State) (f : RxFrame) (n : BitVec 64) : State :=
  if sessionOpen s then opened s f n else (opened s f n).setFld F.ringSessionState 1

theorem answerOpen_eq (s : State) (f : RxFrame) (n : BitVec 64) :
    answerOpen s f n = countTx ((openingShown s f n).emit (.openAck f.link
      (wrapOf (sessOpened s f n) (openAckBytes (openingShown s f n) (sessOpened s f n)))
      (openAckBytes (openingShown s f n) (sessOpened s f n)))) f.link 24 := rfl

theorem openingShown_hw (s : State) (f : RxFrame) (n : BitVec 64) :
    (openingShown s f n).hw = { s.hw with opening := some (sessOpened s f n),
                                          nextId := if s.hw.nextId = 0xFFFF then 1 else s.hw.nextId + 1 } := by
  rw [openingShown]
  split <;> rfl

theorem openingShown_out (s : State) (f : RxFrame) (n : BitVec 64) : (openingShown s f n).out = s.out := by
  rw [openingShown]
  split <;> rfl

theorem State.out_of_hide {s t : State} {m : Nat} (hm : m.testBit 5 = false) (h : t.hide m s = s.hide m s) : t.out = s.out := by
  simpa only [State.hide, hm, Bool.false_eq_true, if_false] using congrArg State.out h

theorem answerOpen_out (s : State) (f : RxFrame) (n : BitVec 64) :
    ∃ w bs, (answerOpen s f n).out = s.out ++ [.openAck f.link w bs] ∧ bs.length = 48 := by
  refine ⟨wrapOf (sessOpened s f n) (openAckBytes (openingShown s f n) (sessOpened s f n)),
    openAckBytes (openingShown s f n) (sessOpened s f n), ?_, openAckBytes_length ..⟩
  rw [answerOpen_eq, State.out_of_hide (by decide) (countTx_hide (m := 0x800000000) rfl ..)]
  exact congrArg (· ++ _) (openingShown_out s f n)

theorem answerOpen_hw (s : State) (f : RxFrame) (n : BitVec 64) :
    (answerOpen s f n).hw = { s.hw with opening := some (sessOpened s f n),
                                        nextId := if s.hw.nextId = 0xFFFF then 1 else s.hw.nextId + 1 } := by
  rw [answerOpen_eq, countTx_hw, State.emit_hw, openingShown_hw]

theorem answerOpen_state {s : State} (h : s.hw.cur = none) (f : RxFrame) (n : BitVec 64) :
    (answerOpen s f n).fld F.ringSessionState = 1 := by
  have hclosed : sessionOpen s = false := by rw [sessionOpen, h, Option.isSome_none]
  have hregs : (answerOpen s f n).regs = (openingShown s f n).regs := by
    rw [answerOpen_eq, State.regs_of_hide (by decide) (countTx_hide (m := 0x800000000) rfl ..), State.emit_regs]
  rw [State.fld_congr (State.reg_congr hregs _), openingShown, if_neg (by rw [hclosed]; exact Bool.false_ne_true)]
  exact State.fld_setFld_of_lt _ (by decide) (by decide)

/-- A good OPEN is counted and answered. -/
theorem openFrame_good {s : State} {f : RxFrame} {n : BitVec 64} (hl : listens (sessAtOpen s 0 0 0 f.link) f = true)
    (hstarted : s.pow.started = true) (hkey : keyComplete s = true) (htransport : transportOf (sessAtOpen s 0 0 0 f.link) ≠ 3)
    (hsound : frameSound (sessAtOpen s 0 0 0 f.link) f tyOpen = true) (hlength : f.length = 8)
    (htag : tagOf s none (rxHeader f tyOpen) (leBytes 8 n.toNat) = f.tag) : openFrame s f n = answerOpen (countRx s f) f n := by
  have hbody : rxBody f (leBytes 8 n.toNat) = some (leBytes 8 n.toNat) := rxBody_whole (by rw [leBytes_length, hlength]; rfl)
  simp only [openFrame, hl, hstarted, hkey, beq_false_of_ne htransport, hsound, hbody, htag, hlength, Bool.not_true, Bool.or_self,
    Bool.false_eq_true, if_false, if_true, ne_eq, not_true_eq_false]

theorem openFrame_dropped {s : State} {f : RxFrame} {n : BitVec 64} (hl : listens (sessAtOpen s 0 0 0 f.link) f = true)
    (h : s.pow.started = false ∨ keyComplete s = false) : openFrame s f n = rejectFrame s := by
  have hdrop : (!s.pow.started || !keyComplete s) = true := by
    obtain h | h := h
    · rw [h]
      rfl
    · rw [h, Bool.not_false, Bool.or_true]
  simp only [openFrame, hl, hdrop, Bool.not_true, Bool.true_or, Bool.false_eq_true, if_false, if_true]

/-! ### Confirmation -/

/-- The session in hand once its host's first frame is verified; WRITEs of an old one wait. -/
def confirmed (s : State) (c : Sess) : State :=
  ((({ s with hw := { s.hw with
    cur := some c, opening := none, txNext := 1, rxLast := 1, unacked := [], ackOwed := true,
    waiting := ((s.hw.unacked ++ s.hw.waiting).filter (fun (f : TxFrame) => f.kind.toNat == tyWrite)).map
      (fun (f : TxFrame) => { f with retx := false, sends := 0 }),
    reads := s.hw.reads.map (fun (r : ReadReq) => { r with sent := false }) } }).setFld F.ringSessionState 2).setFld F.ringSessionId c.id.toNat).setFld
    F.ringLinkStatHostLost 0

theorem notifyAtConfirm_lasts {rg dm : Bool} (s : State) : (notifyAtConfirm s).lasting rg dm = s.lasting rg dm := by
  refine State.each_lasts _ _ _ fun s q => ?_
  split
  · exact notifyPending_lasts ..
  · rfl

theorem confirm_lasts (s : State) (c : Sess) : (confirm s c).lasting false false = (confirmed s c).lasting false false :=
  (settle_lasts _).trans ((notifyAtConfirm_lasts _).trans ((raise_lasts ..).trans ((pumpReads_lasts _).trans ((pump_lasts _).trans
    ((noteHeld_lasts _).trans ((refreshTelltales_lasts _).trans (ontoUsable_lasts _)))))))

theorem confirmed_shows (s : State) (c : Sess) :
    (confirmed s c).fld F.ringSessionState = 2 ∧ (confirmed s c).fld F.ringSessionId = c.id.toNat := by
  have hstate : F.ringSessionState.addr ≠ F.ringLinkStatHostLost.addr := by decide
  have hid : F.ringSessionId.addr ≠ F.ringLinkStatHostLost.addr := by decide
  constructor
  · rw [confirmed, State.fld_setFld_reg _ _ _ _ hstate, State.fld_setFld_apart _ _ (by decide)]
    exact State.fld_setFld_of_lt _ (by decide) (by decide)
  · rw [confirmed, State.fld_setFld_reg _ _ _ _ hid]
    exact State.fld_setFld_of_lt _ (by decide) c.id.isLt

/-- Session `c` is the one in hand, its first frame was the last received, and SESSION shows it. -/
def InHand (c : Sess) (t : State) : Prop :=
  t.hw.cur = some c ∧ t.hw.opening = none ∧ t.hw.rxLast = 1 ∧ t.fld F.ringSessionState = 2 ∧ t.fld F.ringSessionId = c.id.toNat

theorem InHand.with_pending {c : Sess} {t : State} (h : InHand c t) (q : List Instr) : InHand c { t with pending := q } := h

/-- A session in hand lasts. -/
theorem InHand.of_lasts {c : Sess} {s t : State} (h : InHand c s) (hlasts : t.lasting false false = s.lasting false false) : InHand c t := by
  obtain ⟨hcur, hopening, hlast, hstate, hid⟩ := h
  have hsession := State.reg_of_lasting hlasts (lastingReg_session false)
  exact ⟨(cur_of_lasting hlasts).trans hcur, (opening_of_lasting hlasts).trans hopening, (rxLast_of_lasting hlasts).trans hlast,
    (State.fld_congr (f := F.ringSessionState) hsession).trans hstate, (State.fld_congr (f := F.ringSessionId) hsession).trans hid⟩

theorem inHand_confirmed (s : State) (c : Sess) : InHand c (confirmed s c) := by
  obtain ⟨hstate, hid⟩ := confirmed_shows s c
  exact ⟨rfl, rfl, rfl, hstate, hid⟩

/-- The first frame of a session that is being opened, verified. -/
theorem receive_first {s : State} {f : RxFrame} {kind : Nat} {bytes body : List Byte} {c : Sess}
    (hl : listens (rxConfig s f.session) f = true) (hstarted : s.pow.started = true)
    (hsound : frameSound (rxConfig s f.session) f kind = true) (hx : sessionOf s f.session = some (c, true))
    (hbody : rxBody f bytes = some body) (htag : tagOf s (some c.devNonce) (rxHeader f kind) body = f.tag) (hseq : f.seq = 1)
    (act : State → State) :
    receive s f kind bytes true act = act (confirm (backToA (linkRecovered (countRx s f) f.link) f.link) c) := by
  rw [receive_checked hl hstarted hsound hx hbody, if_pos htag]
  simp only [takeFrame, Bool.not_true, Bool.false_eq_true, if_false, if_true, hseq]

/-! ### Abandonment -/

/-- A session that is not confirmed in time is no longer being opened. -/
def openAbandoned (s : State) : State := { s with hw := { s.hw with opening := none } }

theorem openTimeout_eq {s : State} (h : s.hw.opening ≠ none) :
    openTimeout s = if sessionOpen s then openAbandoned s
      else (openAbandoned s).setFld F.ringSessionState (if s.flag F.ringLinkStatHostLost then 3 else 0) := by
  obtain ⟨c, hc⟩ := Option.ne_none_iff_exists'.1 h
  rw [openTimeout, hc, Option.isNone_some, if_neg Bool.false_ne_true]
  rfl

theorem openTimeout_none {s : State} (h : s.hw.opening = none) : openTimeout s = s := by
  rw [openTimeout, h, Option.isNone_none, if_pos rfl]

theorem openTimeout_shows {s : State} (h : s.hw.opening ≠ none) :
    (openTimeout s).hw = { s.hw with opening := none } ∧
    (openTimeout s).fld F.ringSessionState = (if s.hw.cur ≠ none then s.fld F.ringSessionState
      else if s.flag F.ringLinkStatHostLost then 3 else 0) ∧
    SameRegsBut (· = A.ringSession) s (openTimeout s) := by
  have hkept : (openAbandoned s).hw = { s.hw with opening := none } := rfl
  rw [openTimeout_eq h, sessionOpen]
  cases hcur : s.hw.cur with
  | some c => exact ⟨hkept, (if_pos nofun).symm, fun _ _ => rfl⟩
  | none =>
    refine ⟨hkept, Eq.trans ?_ (if_neg fun hne => hne rfl).symm, fun a ha => State.reg_setFld_other (openAbandoned s) F.ringSessionState a _ ha⟩
    exact State.fld_setFld_of_lt (openAbandoned s) (by decide) (show (if s.flag F.ringLinkStatHostLost then 3 else 0) < 4 by split <;> decide)

theorem openTimeout_touches (s : State) : TouchesOnly [.regs, .hw] s (openTimeout s) ∧ (openTimeout s).pending = s.pending :=
  State.touches_of_hide [.regs, .hw] rfl fun d => openTimeout_hide rfl d s

end Sys2Proof.Machine

namespace Sys2Proof.Proofs.HaywainRings

open Sys2Proof.Machine

/-- Settles O24: an OPEN by what it writes; a confirmation by what lasts of it through all that then goes on. -/
theorem openSession : Obligations.OpenSession := by
  unfold Obligations.OpenSession
  refine ⟨fun f n s hup hl hstarted hkey htransport hsound hlength htag => ?_, fun f n s hup hl hdrop => ?_,
    fun f c body s hup hl hstarted hsound hx hbody htag hseq => ?_, fun s hup hopening => ?_, fun s hopening => ?_⟩
  · have hgood := openFrame_good hl hstarted hkey htransport hsound hlength htag
    have hcounted : (countRx s f).hw = s.hw := State.hw_of_hide (m := 0x800000000) (by decide) (countRx_hide rfl ..)
    have hhw := answerOpen_hw (countRx s f) f n
    have hcur : (answerOpen (countRx s f) f n).hw.cur = s.hw.cur := by rw [hhw, hcounted]
    have hid : (answerOpen (countRx s f) f n).hw.opening.map (·.id) = some s.hw.nextId := by rw [hhw, ← hcounted]; rfl
    have hnonce : (answerOpen (countRx s f) f n).hw.opening.map (·.hostNonce) = some n := by rw [hhw]; rfl
    have hlink : (answerOpen (countRx s f) f n).hw.opening.map (·.link) = some f.link := by rw [hhw]; rfl
    have hnext : (answerOpen (countRx s f) f n).hw.nextId = if s.hw.nextId = 0xFFFF then 1 else s.hw.nextId + 1 := by rw [hhw, hcounted]
    have hout : (countRx s f).out = s.out := State.out_of_hide (m := 0x800000000) (by decide) (countRx_hide rfl ..)
    obtain ⟨w, bs, hacked, hbytes⟩ := answerOpen_out (countRx s f) f n
    rw [hout] at hacked
    obtain ⟨htouches, -⟩ := State.touches_of_hide [.free, .regs, .hw, .out, .perf] rfl fun d =>
      (answerOpen_hide rfl d (countRx s f) f n).trans (countRx_hide rfl ..)
    have hstate (h : s.hw.cur = none) : (answerOpen (countRx s f) f n).fld F.ringSessionState = 1 :=
      answerOpen_state ((congrArg HwState.cur hcounted).trans h) f n
    exact .of_leaves (leaves_whenUp (f := fun s => openFrame s f n) rfl hup hgood)
      ⟨hcur, hid, hnonce, hlink, hnext, hstate, ⟨w, bs, hacked, hbytes⟩, htouches⟩
  · exact ends_rejected (leaves_whenUp (f := fun s => openFrame s f n) rfl hup (openFrame_dropped hl hdrop))
  · have hleaves : Leaves (.keepalive f) s (settle (confirm (backToA (linkRecovered (countRx s f) f.link) f.link) c)) :=
      leaves_whenUp (f := fun s => receive s f tyKeepalive [] true settle) rfl hup
        (receive_first hl hstarted hsound hx hbody htag hseq settle)
    have hinHand : InHand c (settle (confirm (backToA (linkRecovered (countRx s f) f.link) f.link) c)) :=
      (inHand_confirmed _ c).of_lasts ((settle_lasts _).trans (confirm_lasts ..))
    exact ⟨hleaves, .of_leaves hleaves (hinHand.with_pending s.pending)⟩
  · obtain ⟨hhw, hstate, hregs⟩ := openTimeout_shows hopening
    exact .of_leaves (leaves_whenUp (f := openTimeout) rfl hup rfl) ⟨hhw, hstate, hregs, (openTimeout_touches s).1⟩
  · exact whenUp_same (f := openTimeout) (openTimeout_none hopening)

end Sys2Proof.Proofs.HaywainRings
end

section
/-! PROOFS. What the descriptors of a SCENE ring stage (spec 05, R117, R120, R124; spec 04, R111): a statement that fails. A COMMIT waits
while a pipe that its scene touches holds 64 records, and what is written first once a descriptor arrives, the releases that are due,
can itself bring the held records to 64. -/

namespace Sys2Proof.Proofs.SceneCommit

open Sys2Proof.Machine Sys2Proof.Tests

/-- A release of a buffer of pipe 0 whose last frame is over. -/
def dueRelease : Release :=
  { pipe := 0, slot := 1, addr := 0, tag := 0, twin := false, frame := 0, port := none, past := true }

/-- A staging set of ring 0 with one word of slot 0, which pipe 0 shows. -/
def stagedWord : Scene := { emptyScene 0 with writes := { (emptyScene 0).writes with layer := [(0, 0)] } }

/-- Ring 0 serves a descriptor and no session is open. Pipe 0 holds no record, but 64 releases of it are due, and ring 0 has staged a
word that touches it. -/
def releasesDue : State :=
  { (ringOf 1).setFld (F.ringPrecCfgEn 0) 1 with
    scene := { (ringOf 1).scene with staging := [stagedWord], releases := List.replicate 64 dueRelease } }

/-- The releases become held records before the ring acts, so that the COMMIT waits and its set stays open. -/
theorem commit_keepsStaging :
    (match exec (.commit 0 hdr0 0) releasesDue with
      | .next t => (stagingOf t 0).writes.layer
      | _ => []) = [(0, 0)] := by
  decide +kernel

/-- Refutes O37: its clause on a COMMIT that need not wait asks that no record is held, and a state may have 64 records due. -/
theorem not_sceneStaging : ¬Obligations.SceneStaging := by
  rintro ⟨-, -, -, -, -, -, -, -, -, -, -, -, -, -, -, -, -, -, hcommit⟩
  have hserves : ServesScene releasesDue 0 := by
    unfold ServesScene Serves State.isUp
    decide +kernel
  obtain ⟨t, ht, hempty, -⟩ := hcommit 0 hdr0 0 releasesDue hserves (by decide +kernel) rfl rfl rfl rfl
  have hkept := commit_keepsStaging
  rw [ht] at hkept
  have hnone : (stagingOf t 0).writes.layer = [] := congrArg (fun c => c.writes.layer) hempty
  exact absurd (hnone.symm.trans hkept) (by decide)

end Sys2Proof.Proofs.SceneCommit
end

section
/-! PROOFS. What the gates of the ports are judged by (spec 09, R243 to R246), and the bales asked of the twin (spec 06, R167): the
pipes, the gates and HTIME of pipe 0 stay as they are under every operation of a ring and of a channel, no part is armed, and no bale
comes. One lemma for each operation says so, as those on `State.lasting` do. -/

namespace Sys2Proof.Machine

/-! ### What is watched -/

/-- What a gate says of its list in force. -/
def Gate.inForce (g : Gate) : Option GateList × Nat × Nat × Bool := (g.run, g.entry, g.left, g.openRef)

/-- HTIME of pipe 0, the pipes, the lists in force, and whether a part is armed. -/
def State.gating (s : State) : (Word × Word) × SMap PipeRt × (Nat → Option GateList × Nat × Nat × Bool) × Bool :=
  ((s.reg (A.pipeHtime0 0), s.reg (A.pipeHtime1 0)), s.pipes, fun m => (s.gate m).inForce, s.scene.armed.isEmpty)

/-- With these the bales that are asked of the twin. -/
def State.still (s : State) : ((Word × Word) × SMap PipeRt × (Nat → Option GateList × Nat × Nat × Bool) × Bool) ×
    List (Nat × Nat × Bool) :=
  (s.gating, s.scene.twinAsks)

variable {s t : State}

theorem State.gating_of_still (h : t.still = s.still) : t.gating = s.gating := congrArg Prod.fst h

theorem State.asks_of_still (h : t.still = s.still) : t.scene.twinAsks = s.scene.twinAsks := congrArg Prod.snd h

theorem State.armed_of_gating (h : t.gating = s.gating) : t.scene.armed.isEmpty = s.scene.armed.isEmpty :=
  congrArg (fun x => x.2.2.2) h

/-- Beside the registers and the scene only the pipes and the gates are watched. -/
theorem State.still_of_parts (h0 : t.reg (A.pipeHtime0 0) = s.reg (A.pipeHtime0 0)) (h1 : t.reg (A.pipeHtime1 0) = s.reg (A.pipeHtime1 0))
    (e : t.hide 0xFFFEFBBFF State.reset = s.hide 0xFFFEFBBFF State.reset) : t.still = s.still := by
  have hpipes : t.pipes = s.pipes := show (t.hide 0xFFFEFBBFF State.reset).pipes = (s.hide 0xFFFEFBBFF State.reset).pipes from
    congrArg State.pipes e
  have hgates : t.gates = s.gates := show (t.hide 0xFFFEFBBFF State.reset).gates = (s.hide 0xFFFEFBBFF State.reset).gates from
    congrArg State.gates e
  have hscene : t.scene = s.scene := show (t.hide 0xFFFEFBBFF State.reset).scene = (s.hide 0xFFFEFBBFF State.reset).scene from
    congrArg State.scene e
  simp only [State.still, State.gating, State.gate, h0, h1, hpipes, hgates, hscene]

theorem State.still_of_hide (e : t.hide 0xFFFEFBBFD State.reset = s.hide 0xFFFEFBBFD State.reset) : t.still = s.still := by
  have h : (t.hide 0xFFFEFBBFD State.reset).still = (s.hide 0xFFFEFBBFD State.reset).still := congrArg State.still e
  exact h

theorem State.still_ite {p : Prop} [Decidable p] (a b : State) : (if p then a else b).still = if p then a.still else b.still := by
  split <;> rfl

theorem State.gating_ite {p : Prop} [Decidable p] (a b : State) :
    (if p then a else b).gating = if p then a.gating else b.gating := by
  split <;> rfl

theorem State.each_still {α : Type} (s : State) (l : List α) (f : State → α → State) (h : ∀ s x, (f s x).still = s.still) :
    (s.each l f).still = s.still :=
  State.each_keeps State.still s l f h

/-! ### Registers -/

/-- An address other than HTIME of pipe 0. -/
def besideHtime (a : Nat) : Prop := a ≠ A.pipeHtime0 0 ∧ a ≠ A.pipeHtime1 0

theorem State.setReg_still (s : State) {a : Nat} (w : Word) (h : besideHtime a) : (s.setReg a w).still = s.still := by
  obtain ⟨h0, h1⟩ := h
  exact State.still_of_parts (State.reg_setReg_other _ _ _ _ h0.symm) (State.reg_setReg_other _ _ _ _ h1.symm) rfl

theorem State.setFld_still (s : State) {f : Fld} (v : Nat) (h : besideHtime f.addr) : (s.setFld f v).still = s.still :=
  s.setReg_still _ h

theorem State.addFld_still (s : State) {f : Fld} (v : Nat) (h : besideHtime f.addr) : (s.addFld f v).still = s.still :=
  s.setFld_still _ h

/-- A register below the pipes' blocks or above them. -/
theorem besideHtime_of_range {a : Nat} (h : a < 0x71000 ∨ 0x72000 ≤ a) : besideHtime a := by
  simp only [besideHtime, A.pipeHtime0, A.pipeHtime1]
  omega

/-- A register of a ring's block: its offset there is no offset of HTIME. -/
theorem besideHtime_of_offset {a : Nat} (h : a % 64 ≠ 0x08 ∧ a % 64 ≠ 0x0C) : besideHtime a := by
  simp only [besideHtime, A.pipeHtime0, A.pipeHtime1]
  omega

theorem A.ringCi_besideHtime (i : Nat) : besideHtime (A.ringCi i) := besideHtime_of_offset (by simp only [A.ringCi]; omega)
theorem A.ringCplPi_besideHtime (i : Nat) : besideHtime (A.ringCplPi i) := besideHtime_of_offset (by simp only [A.ringCplPi]; omega)
theorem A.ringStopIndex_besideHtime (i : Nat) : besideHtime (A.ringStopIndex i) :=
  besideHtime_of_offset (by simp only [A.ringStopIndex]; omega)
theorem F.ringCtlRun_besideHtime (i : Nat) : besideHtime (F.ringCtlRun i).addr :=
  besideHtime_of_offset (by simp only [F.ringCtlRun, A.ringCtl]; omega)
theorem F.ringStatState_besideHtime (i : Nat) : besideHtime (F.ringStatState i).addr :=
  besideHtime_of_offset (by simp only [F.ringStatState, A.ringStat]; omega)
theorem F.ringStatCause_besideHtime (i : Nat) : besideHtime (F.ringStatCause i).addr :=
  besideHtime_of_offset (by simp only [F.ringStatCause, A.ringStat]; omega)
theorem F.dmaBadDescCount_besideHtime : besideHtime F.dmaBadDescCount.addr := besideHtime_of_range (by decide)
theorem F.dmaTrigMissedCount_besideHtime : besideHtime F.dmaTrigMissedCount.addr := besideHtime_of_range (by decide)
theorem F.layerTwinReadsCount_besideHtime : besideHtime F.layerTwinReadsCount.addr := besideHtime_of_range (by decide)
theorem F.schedThrottleHeld_besideHtime : besideHtime F.schedThrottleHeld.addr := besideHtime_of_range (by decide)
theorem F.schedThrottleReproof_besideHtime : besideHtime F.schedThrottleReproof.addr := besideHtime_of_range (by decide)
theorem A.dmaTchRuns_besideHtime (i : Nat) : besideHtime (A.dmaTchRuns i) :=
  besideHtime_of_range (by simp only [A.dmaTchRuns]; omega)
theorem F.dmaTchStatBusy_besideHtime (i : Nat) : besideHtime (F.dmaTchStatBusy i).addr :=
  besideHtime_of_range (by simp only [F.dmaTchStatBusy, A.dmaTchStat]; omega)
theorem F.dmaTchStatStatus_besideHtime (i : Nat) : besideHtime (F.dmaTchStatStatus i).addr :=
  besideHtime_of_range (by simp only [F.dmaTchStatStatus, A.dmaTchStat]; omega)
theorem F.dmaChStatLastStatus_besideHtime (i : Nat) : besideHtime (F.dmaChStatLastStatus i).addr :=
  besideHtime_of_range (by simp only [F.dmaChStatLastStatus, A.dmaChStat]; omega)

theorem not_noteReg_htime {a : Nat} (h : a = A.pipeHtime0 0 ∨ a = A.pipeHtime1 0) : ¬noteReg a := by
  simp only [A.pipeHtime0, A.pipeHtime1] at h
  simp only [noteReg, A.evtLinkSleep, A.evtSaturations, A.evtQctl]
  omega

theorem not_sentReg_htime {a : Nat} (h : a = A.pipeHtime0 0 ∨ a = A.pipeHtime1 0) : ¬sentReg a := by
  simp only [A.pipeHtime0, A.pipeHtime1] at h
  simp only [sentReg, A.evtLinkSleep, A.ringLinkStat, A.ringRetx]
  omega

/-! ### Events, frames, reads -/

theorem raise_beside (s : State) (k : Nat) {a : Nat} (ha : ¬noteReg a) : (raise s k).reg a = s.reg a := by
  simp only [raise]
  split
  · exact (countOccurrence_beside _ _ _ ha).trans (markSpi_beside _ _ ha)
  · exact markSpi_beside _ _ ha

theorem raise_still (s : State) (k : Nat) : (raise s k).still = s.still :=
  State.still_of_parts (raise_beside s k (not_noteReg_htime (.inl rfl))) (raise_beside s k (not_noteReg_htime (.inr rfl)))
    (raise_hide rfl ..)

theorem sendSeq_still (s : State) (kind : Nat) (body : List Byte) (id : Option (BitVec 16)) : (sendSeq s kind body id).still = s.still :=
  State.still_of_parts (sendSeq_beside s kind body id (not_sentReg_htime (.inl rfl)))
    (sendSeq_beside s kind body id (not_sentReg_htime (.inr rfl))) (sendSeq_hide rfl ..)

theorem writeHost_still (s : State) (a : Nat) (bs : List Byte) : (writeHost s a bs).still = s.still :=
  State.still_of_parts (writePieces_beside _ s a bs (not_sentReg_htime (.inl rfl)))
    (writePieces_beside _ s a bs (not_sentReg_htime (.inr rfl))) (writeHost_hide rfl ..)

theorem State.still_hw (s : State) (x : HwState) : State.still { s with hw := x } = s.still := rfl

theorem sendRead_still (s : State) (r : ReadReq) : (sendRead s r).still = s.still := by
  unfold sendRead
  split
  · rfl
  · exact sendSeq_still ..

theorem pumpReads_still (s : State) : (pumpReads s).still = s.still := State.each_still _ _ _ sendRead_still

theorem readHost_still (s : State) (addr len : Nat) (p : ReadFor) : (readHost s addr len p).still = s.still := pumpReads_still _

/-! ### Parts of the state -/

theorem State.setRing_still (s : State) (n : Nat) (r : Ring) : (s.setRing n r).still = s.still :=
  State.still_of_hide (State.setRing_hide rfl ..)

theorem State.setChan_still (s : State) (c : Nat) (x : DmaChan) : (s.setChan c x).still = s.still :=
  State.still_of_hide (State.setChan_hide rfl ..)

/-- What changes the scene beside the armed parts and what is asked of the twin. -/
theorem State.mapScene_still (s : State) {f : SceneState → SceneState} (harmed : (f s.scene).armed = s.scene.armed)
    (hasks : (f s.scene).twinAsks = s.scene.twinAsks) : (s.mapScene f).still = s.still := by
  show ((_, _, _, (f s.scene).armed.isEmpty), (f s.scene).twinAsks) = s.still
  rw [harmed, hasks]
  rfl

/-! ### Completions and rings -/

theorem issueCpl_still (s : State) (n : Nat) (c : Cpl) : (issueCpl s n c).still = s.still := by
  simp only [issueCpl, State.setFld_still, State.setReg_still, raise_still, writeHost_still, State.still_ite, ite_self,
    F.ringStatState_besideHtime, A.ringCplPi_besideHtime]

theorem issueHeld_still (n k : Nat) (s : State) : (issueHeld n k s).still = s.still := by
  induction k generalizing s with
  | zero => rfl
  | succ k ih =>
    unfold issueHeld
    split
    · rfl
    · simp only [ih, issueCpl_still, State.setRing_still, State.still_ite, ite_self]

theorem drainRing_still (s : State) (n : Nat) : (drainRing s n).still = s.still := issueHeld_still ..

theorem takeKey_still (s : State) : (takeKey s).2.still = s.still := rfl

theorem openCpl_still (s : State) (n key : Nat) (index : BitVec 32) (tag : BitVec 16) (chain : Bool) :
    (openCpl s n key index tag chain).still = s.still := State.setRing_still ..

theorem closeCpl_still (s : State) (n key status : Nat) (detail : BitVec 64) (nocpl : Bool) (dep : Option (BitVec 8)) :
    (closeCpl s n key status detail nocpl dep).still = s.still := by
  simp only [closeCpl, State.setRing_still, drainRing_still]

theorem complete_still (s : State) (n : Nat) (index : BitVec 32) (h : DescHdr) (chain : Bool) (status : Nat) (detail : BitVec 64) :
    (complete s n index h chain status detail).still = s.still := by
  simp only [complete, closeCpl_still, openCpl_still, takeKey_still]

theorem haltRing_still (s : State) (n cause : Nat) (stop : BitVec 32) : (haltRing s n cause stop).still = s.still := by
  simp only [haltRing, State.setFld_still, State.setReg_still, State.setRing_still, raise_still, F.ringStatState_besideHtime,
    F.ringStatCause_besideHtime, F.ringCtlRun_besideHtime, A.ringStopIndex_besideHtime, A.ringCi_besideHtime]

theorem endRing_still (s : State) (n cause : Nat) (stop : BitVec 32) : (endRing s n cause stop).still = s.still := by
  simp only [endRing, State.setRing_still, haltRing_still, State.still_ite, ite_self]

theorem countBad_still (s : State) (c : Nat) : (countBad s c).still = s.still := by
  simp only [countBad, State.addFld_still, raise_still, F.dmaBadDescCount_besideHtime]

theorem readAhead_still (s : State) (n : Nat) : (readAhead s n).still = s.still := by
  simp only [readAhead]
  split
  · rfl
  · split <;> simp only [readHost_still, State.setRing_still, State.still_ite, ite_self]

theorem loopStop_still (s : State) (n : Nat) (d : Desc) : (loopStop s n d).still = s.still := by
  simp only [loopStop, failSlot, endRing_still, complete_still]

theorem stepChain_still (s : State) (n : Nat) (d : Desc) : (stepChain s n d).still = s.still :=
  State.still_of_hide (stepChain_hide rfl ..)

/-! ### Descriptors of SCENE rings -/

theorem setStaging_still (s : State) (n : Nat) (c : Option Scene) : (setStaging s n c).still = s.still :=
  State.mapScene_still s rfl rfl

theorem keepBefore_still (s : State) (n : Nat) : (keepBefore s n).still = s.still := State.mapScene_still s rfl rfl

theorem badDesc_still (s : State) (n : Nat) (d : Desc) (status : Nat) : (badDesc s n d status).still = s.still := by
  simp only [badDesc, complete_still, setStaging_still]

theorem staged_still (s : State) (n : Nat) (d : Desc) (f : Scene → Scene) : (staged s n d f).still = s.still := by
  simp only [staged, complete_still, setStaging_still]

theorem readPieces_still (s : State) (n key addr len : Nat) : (readPieces s n key addr len).still = s.still :=
  State.each_still _ _ _ fun _ _ => readHost_still ..

theorem beginContent_still (s : State) (n : Nat) (d : Desc) : (beginContent s n d).still = s.still := by
  unfold beginContent
  split
  · exact badDesc_still ..
  · simp only [readPieces_still, State.setRing_still, openCpl_still, takeKey_still]

theorem startProof_still (s : State) : (startProof s).still = s.still := by
  unfold startProof
  split
  · rfl
  · split
    · rfl
    · exact State.mapScene_still s rfl rfl

theorem handCommit_still (s : State) (n : Nat) (d : Desc) : (handCommit s n d).still = s.still := by
  simp only [handCommit, submit, startProof_still]
  exact (State.mapScene_still _ rfl rfl).trans ((setStaging_still ..).trans ((openCpl_still ..).trans (takeKey_still s)))

theorem actCommit_still (s : State) (n : Nat) (d : Desc) : (actCommit s n d).still = s.still := by
  simp only [actCommit, State.setRing_still, badDesc_still, handCommit_still, State.still_ite, ite_self]

theorem actJump_still (s : State) (n : Nat) (d : Desc) : (actJump s n d).still = s.still := by
  simp only [actJump, State.setRing_still, badDesc_still, complete_still, countBad_still, State.still_ite, ite_self]

theorem actScene_still (s : State) (n : Nat) (d : Desc) : (actScene s n d).still = s.still := by
  unfold actScene
  split <;> simp only [actNop, actJump_still, actLayerWords, actLayerBlock, actObjWords, actObjBlock, actLutLoad, actMatrix, actLoftLoad,
    actFenceAcq, actCommit_still, complete_still, beginContent_still, staged_still, badDesc_still, State.still_ite, ite_self]

/-! ### Runs, channels and DMA rings -/

theorem noteStatus_still (s : State) (c st : Nat) : (noteStatus s c st).still = s.still := by
  simp only [noteStatus, State.setFld_still, State.still_ite, ite_self, F.dmaTchStatStatus_besideHtime]

theorem beginRun_still (s : State) (c : Nat) : (beginRun s c).still = s.still := by
  simp only [beginRun, State.addFld_still, State.setChan_still, State.setFld_still, raise_still, State.still_ite, ite_self,
    F.dmaTrigMissedCount_besideHtime, F.dmaTchStatBusy_besideHtime, F.dmaTchStatStatus_besideHtime]

theorem closeRun_still (s : State) (c : Nat) : (closeRun s c).still = s.still := by
  simp only [closeRun, State.setChan_still, State.setFld_still, State.setReg_still, raise_still, F.dmaTchStatBusy_besideHtime,
    A.dmaTchRuns_besideHtime]

theorem noteEntry_still (s : State) (c st : Nat) : (noteEntry s c st).still = s.still := by
  simp only [noteEntry, State.setFld_still, countBad_still, noteStatus_still, State.still_ite, ite_self,
    F.dmaChStatLastStatus_besideHtime]

theorem takeEntry_still (s : State) (c a : Nat) : (takeEntry s c a).still = s.still := State.setChan_still ..

theorem runNext_still (k : Nat) (s : State) (c : Nat) : (runNext k s c).still = s.still := by
  induction k generalizing s c with
  | zero => rfl
  | succ k ih =>
    have hfollow (t : State) (l : List Nat) : (l.foldl (fun s f =>
        let was := (s.chan f).runAt
        let s := beginRun s f
        if was.isNone then runNext k s f else s) t).still = t.still :=
      State.each_still t l _ fun s f => by simp only [ih, beginRun_still, State.still_ite, ite_self]
    unfold runNext
    simp only []
    split
    · rfl
    · split
      · rfl
      · simp only [ih, noteEntry_still, State.setChan_still]
    · simp only [hfollow, closeRun_still, State.setFld_still, noteStatus_still, noteEntry_still, takeEntry_still, State.still_ite,
        ite_self, F.dmaTchStatStatus_besideHtime]

theorem triggerFollowers_still (s : State) (c : Nat) : (triggerFollowers s c).still = s.still :=
  State.each_still _ _ _ fun s f => by simp only [triggerChan, beginRun_still, runNext_still, State.still_ite, ite_self]

theorem endChanRecovery_still (s : State) (c : Nat) : (endChanRecovery s c).still = s.still :=
  State.still_of_hide (endChanRecovery_hide rfl ..)

theorem endDesc_still (s : State) (c status : Nat) (detail : BitVec 64) (dep : Option (BitVec 8)) :
    (endDesc s c status detail dep).still = s.still := by
  simp only [endDesc]
  split
  · rfl
  · split
    · simp only [runNext_still, noteStatus_still, countBad_still, endChanRecovery_still, State.setFld_still, State.setChan_still,
        State.still_ite, ite_self, F.dmaChStatLastStatus_besideHtime]
    · simp only [triggerFollowers_still, State.still_ite, ite_self]
      split <;> simp only [closeCpl_still, countBad_still, endChanRecovery_still, State.setFld_still, State.setChan_still,
        State.still_ite, ite_self, F.dmaChStatLastStatus_besideHtime]

theorem askHost_still (c k : Nat) (s : State) : (askHost c k s).still = s.still := by
  induction k generalizing s with
  | zero => rfl
  | succ k ih =>
    unfold askHost
    dsimp only
    split
    · rfl
    · simp only [ih, readHost_still, State.setChan_still, State.still_ite, ite_self]

theorem takeDescs_still (k : Nat) (s : State) (c : Nat) : (takeDescs k s c).still = s.still := by
  induction k generalizing s with
  | zero => rfl
  | succ k ih =>
    unfold takeDescs
    simp only []
    split
    · simp only [ih, endDesc_still, askHost_still, State.setChan_still, State.still_ite, ite_self]
    · rfl

theorem handDma_still (s : State) (n : Nat) (d : Desc) (at_ batch : Nat) (marks : List (BitVec 32)) :
    (handDma s n d at_ batch marks).still = s.still := by
  simp only [handDma, startDma, takeDescs_still, State.setChan_still, openCpl_still, takeKey_still]

theorem actDma_still (s : State) (n : Nat) (d : Desc) (r : Ring) : (actDma s n d r).still = s.still := by
  unfold actDma
  split <;> simp only [actNop, complete_still, actJump_still, handDma_still]

theorem endEntries_still (s : State) : (endEntries s).still = s.still :=
  State.each_still _ _ _ fun s c => by simp only [runNext_still, State.still_ite, ite_self]

theorem takeEntries_still (s : State) : (takeEntries s).still = s.still :=
  State.each_still _ _ _ fun s c => by simp only [runNext_still, State.still_ite, ite_self]

theorem askAll_still (s : State) : (askAll s).still = s.still := State.each_still _ _ _ fun _ _ => askHost_still ..

/-! ### A ring goes on -/

theorem afterAct_still (s : State) (n : Nat) (d : Desc) : (afterAct s n d).still = s.still := by
  simp only [afterAct, stepChain_still, State.still_ite, ite_self]

theorem countHop_still {n : Nat} {d : Desc} (h : countHop s n d = some t) : t.still = s.still := by
  simp only [countHop, Option.ite_none_left_eq_some, Option.some.injEq] at h
  rw [← h.2, State.setRing_still]

theorem actOn_still (s : State) (n : Nat) (d : Desc) : (actOn s n d).still = s.still := by
  have hbefore : (if d.chain then s else keepBefore s n).still = s.still := by
    simp only [keepBefore_still, State.still_ite, ite_self]
  simp only [actOn]
  split
  · exact (loopStop_still ..).trans hbefore
  · next t h =>
    simp only [afterAct_still, actScene_still, actDma_still, State.still_ite, ite_self]
    exact (countHop_still h).trans hbefore

theorem runRing_still (k : Nat) (s : State) (n : Nat) : (runRing k s n).still = s.still := by
  induction k generalizing s with
  | zero => rfl
  | succ k ih =>
    unfold runRing
    split
    · simp only [haltRing_still, State.still_ite, ite_self]
    · split
      · exact haltRing_still ..
      · split
        · rfl
        · split
          · simp only [ih, stepChain_still, handCommit_still, State.setRing_still, State.still_ite, ite_self]
          · split
            · exact readAhead_still ..
            · simp only [ih, actOn_still, State.setRing_still, State.still_ite, ite_self]

end Sys2Proof.Machine
end

section
/-! PROOFS. The ports' service and `settle` (spec 09, R234, R243, R244): while every gate is shut no burst starts, so what is asked of the
twin stays asked; and while nothing is armed the gates are judged by the same before and after. -/

namespace Sys2Proof.Machine

variable {s t : State}

/-! ### A gate that is about to close -/

theorem RefLine.unitAt_eq (l : RefLine) (u : Nat) : l.unitAt u = ((u * l.ht / 64 : Nat) : Rat) * l.pix := by
  have hsplit : u * l.ht = u % 64 * l.ht + u / 64 * l.ht * 64 := by
    conv_lhs => rw [← Nat.mod_add_div u 64]
    ring
  rw [RefLine.unitAt, hsplit, Nat.add_mul_div_right _ _ (by decide), Nat.add_comm]

theorem pixelNs_nonneg (v : View) (p : Nat) : 0 ≤ pixelNs v p := div_nonneg (Nat.cast_nonneg _) (Nat.cast_nonneg _)

theorem unitTime_nonneg (s : State) (p n : Nat) : 0 ≤ unitTime s p n := by
  have hle : (s.pipe p).unit * (refLine s.reg p).ht / 64 ≤ ((s.pipe p).unit + n) * (refLine s.reg p).ht / 64 :=
    Nat.div_le_div_right (Nat.mul_le_mul_right _ (Nat.le_add_right ..))
  have hmono : (refLine s.reg p).unitAt (s.pipe p).unit ≤ (refLine s.reg p).unitAt ((s.pipe p).unit + n) := by
    rw [RefLine.unitAt_eq, RefLine.unitAt_eq]
    exact mul_le_mul_of_nonneg_right (Nat.cast_le.2 hle) (pixelNs_nonneg ..)
  exact add_nonneg (Nat.cast_nonneg _) (sub_nonneg.2 hmono)

theorem comingLists_nonneg {m : Nat} {e : GateList × Nat × Rat} (h : e ∈ comingLists s m) : 0 ≤ e.2.2 := by
  have hstart {l : GateList} {u : Nat} (h : e ∈ if refDark s l.ref then [] else [(l, u, unitTime s l.ref u)]) : 0 ≤ e.2.2 := by
    split at h
    · cases h
    · rw [List.mem_singleton.1 h]
      exact unitTime_nonneg ..
  have hwait {w : Option GateList} (h : e ∈ match w with
      | none => []
      | some w => if refDark s w.ref then [] else [(w, unitsToStart s s.reg w 0, unitTime s w.ref (unitsToStart s s.reg w 0))]) :
      0 ≤ e.2.2 := by
    cases w with
    | none => cases h
    | some w => exact hstart h
  simp only [comingLists] at h
  split at h
  · exact hwait h
  · rcases List.mem_append.1 h with h | h
    · exact hwait (List.mem_filter.1 h).1
    · exact hstart h

/-- A closing before any list takes over is the next one. -/
theorem closesAfter_of_le (s : State) (cls : Nat) {c : Rat} {l : List (GateList × Nat × Rat)} (h : ∀ e ∈ l, c ≤ e.2.2) :
    closesAfter s cls (some c) l = some c := by
  cases l with
  | nil => rfl
  | cons e l =>
    have he : (some c).any (fun x => decide (x ≤ e.2.2)) = true := decide_eq_true (h e List.mem_cons_self)
    rw [closesAfter, if_pos he]

/-- A list whose first entry opens every class and whose second entry opens none. -/
def closingList : GateList := { entries := [(1, 63), (1, 0)], ref := 0, baseFrame := 0, baseLine := 0, baseSteps := none }

/-- Every port's gate is in the last unit before it closes, and that unit takes no time: fewer than 64 pixels make a line of pipe 0. -/
def State.shut (s : State) : Bool :=
  decide (hTotal s.reg 0 < 64) && decide ((s.pipe 0).unit = 0) && decide ((s.pipe 0).unitAt = 0) &&
  ports4.all fun m => decide ((s.gate m).inForce = (some closingList, 0, 1, false))

theorem State.shut_congr (h : t.gating = s.gating) : t.shut = s.shut := by
  have h0 : t.reg (A.pipeHtime0 0) = s.reg (A.pipeHtime0 0) := congrArg (fun x => x.1.1) h
  have h1 : t.reg (A.pipeHtime1 0) = s.reg (A.pipeHtime1 0) := congrArg (fun x => x.1.2) h
  have hpipes : t.pipes = s.pipes := congrArg (fun x => x.2.1) h
  have hgates (m : Nat) : (t.gate m).inForce = (s.gate m).inForce := congrFun (congrArg (fun x => x.2.2.1) h) m
  have htotal : hTotal t.reg 0 = hTotal s.reg 0 := by
    simp only [hTotal, hActive, vf, F.pipeHtime0Hactive, F.pipeHtime0Hfp, F.pipeHtime1Hsync, F.pipeHtime1Hbp, h0, h1]
  have hpipe : t.pipe 0 = s.pipe 0 := congrArg (smGet pipeInit · 0) hpipes
  have hlists : (fun m => decide ((t.gate m).inForce = (some closingList, 0, 1, false))) =
      fun m => decide ((s.gate m).inForce = (some closingList, 0, 1, false)) := funext fun m => by rw [hgates]
  rw [State.shut, State.shut, htotal, hpipe, hlists]

/-- The queue of a state beside its gates and its scene state. -/
theorem State.scene_pending (s : State) (l : List Instr) : State.scene { s with pending := l } = s.scene := rfl

theorem State.shut_pending (s : State) (l : List Instr) : State.shut { s with pending := l } = s.shut := rfl

theorem guardOf_pos (s : State) {cls : Nat} (h : cls < 6) : 0 < guardOf s cls := by
  simp only [guardOf]
  split
  · interval_cases cls <;> decide
  · interval_cases cls <;> decide

/-- No burst of any class fits before a gate that is about to close. -/
theorem gateFits_of_shut (h : s.shut = true) {m : Nat} (hm : m ∈ ports4) (cls : Nat) : gateFits s m cls = false := by
  simp only [State.shut, Bool.and_eq_true, decide_eq_true_eq, List.all_eq_true] at h
  obtain ⟨⟨⟨htotal, hunit⟩, hat⟩, hgates⟩ := h
  obtain ⟨hrun, hentry, hleft, hopen⟩ : (s.gate m).run = some closingList ∧ (s.gate m).entry = 0 ∧ (s.gate m).left = 1 ∧
      (s.gate m).openRef = false := by
    simpa only [Gate.inForce, Prod.mk.injEq] using hgates m hm
  by_cases hcls : cls < 6
  · have hnext : unitsOpen closingList.entries cls 0 1 = some 1 := by interval_cases cls <;> decide
    have hnow : unitTime s 0 1 = 0 := by
      have hzero : 1 * (refLine s.reg 0).ht / 64 = 0 := by
        rw [Nat.one_mul]
        exact Nat.div_eq_of_lt htotal
      simp only [unitTime, hunit, hat, RefLine.unitAt_eq, Nat.zero_add, hzero, Nat.zero_div, Nat.cast_zero, zero_mul,
        sub_zero, add_zero]
    have hcloses : closesAt s m cls closingList = some 0 := by
      rw [closesAt, hentry, hleft, hnext, Option.map_some]
      show closesAfter s cls (some (unitTime s 0 1)) _ = _
      rw [hnow]
      exact closesAfter_of_le s cls fun e he => comingLists_nonneg he
    have hguard : ¬((guardOf s cls + s.time.uptime : Nat) : Rat) ≤ 0 :=
      not_le.2 (Nat.cast_pos.2 (Nat.add_pos_left (guardOf_pos s hcls) _))
    simp only [gateFits, hrun, hopen, hcloses, hguard, decide_false, Bool.and_false, Bool.or_self]
  · have hbit : (63 : BitVec 6).getLsbD cls = false := BitVec.getLsbD_of_ge _ _ (Nat.not_lt.1 hcls)
    have hentries : nth (0, (0 : BitVec 6)) closingList.entries 0 = (1, 63) := rfl
    simp only [gateFits, gateOpens, hrun, hopen, hentry, hentries, hbit, Bool.or_self, Bool.false_and]

/-! ### Bursts -/

theorem chooseReq_nil (last : SMap Nat) : chooseReq [] last = none := rfl

theorem mayTake_of_shut (h : s.shut = true) {m : Nat} (hm : m ∈ ports4) (r : Req) : mayTake s m r = false := by
  simp only [mayTake, gateFits_of_shut h hm, Bool.and_false, Bool.false_and]

theorem chooseBurst_of_shut (h : s.shut = true) {m : Nat} (hm : m ∈ ports4) : chooseBurst s m = none := by
  have hnone : (requests s).filter (mayTake s m) = [] :=
    List.filter_eq_nil_iff.2 fun r _ => by rw [mayTake_of_shut h hm]; exact Bool.false_ne_true
  rw [chooseBurst, hnone, chooseReq_nil, ite_self]

theorem urgent_of_shut (h : s.shut = true) {m : Nat} (hm : m ∈ ports4) : urgent s m = false := by
  simp only [urgent, mayTake_of_shut h hm, Bool.and_false, List.any_eq_false, Bool.false_eq_true, not_false_eq_true, implies_true]

theorem cutBurst_of_shut (h : s.shut = true) {m : Nat} (hm : m ∈ ports4) : cutBurst s m = s := by
  unfold cutBurst
  split
  · rfl
  · simp only [urgent_of_shut h hm, Bool.and_false, Bool.false_and, Bool.false_eq_true, if_false]

theorem fillBlocks_still (s : State) : (fillBlocks s).still = s.still := State.still_of_hide (fillBlocks_hide rfl ..)

theorem fillBlocks_shut (s : State) : (fillBlocks s).shut = s.shut := State.shut_congr (State.gating_of_still (fillBlocks_still s))

/-! ### What the service moves -/

theorem takeTwin_gating (s : State) (mine : Nat × Nat × Bool → Bool) : (takeTwin s mine).gating = s.gating :=
  (State.gating_of_still (State.addFld_still _ _ F.layerTwinReadsCount_besideHtime)).trans rfl

theorem fenceRead_gating (s : State) (addr : Nat) : (fenceRead s addr).gating = s.gating := by
  have harmed : (fenceRead s addr).scene.armed.isEmpty = s.scene.armed.isEmpty := List.isEmpty_map
  show (_, _, _, (fenceRead s addr).scene.armed.isEmpty) = s.gating
  rw [harmed]
  rfl

theorem State.setCam_gating (s : State) (c : Nat) (x : Cam) : (s.setCam c x).gating = s.gating := rfl

theorem State.setChan_gating (s : State) (c : Nat) (x : DmaChan) : (s.setChan c x).gating = s.gating :=
  State.gating_of_still (s.setChan_still c x)

theorem moveProgress_gating (s : State) (k code : Nat) (f : Nat × Nat → Nat × Nat) : (moveProgress s k code f).gating = s.gating := by
  unfold moveProgress
  split
  · exact takeTwin_gating ..
  · split
    · rfl
    · split
      · exact State.setCam_gating ..
      · split
        · split <;> rfl
        · split
          · exact State.setChan_gating ..
          · split
            · exact fenceRead_gating ..
            · rfl

/-- A gate keeps its list in force. -/
theorem State.setGate_gating (s : State) (m : Nat) {g : Gate} (h : g.inForce = (s.gate m).inForce) : (s.setGate m g).gating = s.gating := by
  have hgates : (fun k => ((s.setGate m g).gate k).inForce) = fun k => (s.gate k).inForce := by
    funext k
    rw [State.gate_setGate]
    split
    · next e => exact e ▸ h
    · rfl
  show (_, _, (fun k => ((s.setGate m g).gate k).inForce), _) = s.gating
  rw [hgates]
  rfl

theorem charge_gating (s : State) (k n : Nat) : (charge s k n).gating = s.gating :=
  State.gating_of_still (State.still_of_hide (charge_hide rfl ..))

theorem countBytes_gating (s : State) (k cls a n : Nat) : (countBytes s k cls a n).gating = s.gating :=
  State.gating_of_still (State.still_of_hide (countBytes_hide rfl ..))

theorem startBurst_gating (s : State) (m : Nat) (r : Req) : (startBurst s m r).gating = s.gating := by
  refine (State.setGate_gating _ m ?_).trans ?_
  · split <;> rfl
  · simp only [moveProgress_gating, charge_gating, countBytes_gating, State.gating_ite, ite_self]

theorem cutBurst_gating (s : State) (m : Nat) : (cutBurst s m).gating = s.gating := by
  unfold cutBurst
  split
  · rfl
  · simp only [moveProgress_gating, State.gating_ite]
    split
    · exact State.setGate_gating s m rfl
    · rfl

theorem servePort_gating (k : Nat) (s : State) (m : Nat) : (servePort k s m).gating = s.gating := by
  induction k generalizing s with
  | zero => rfl
  | succ k ih =>
    have hfill : (fillBlocks s).gating = s.gating := State.gating_of_still (fillBlocks_still s)
    simp only [servePort]
    split
    · exact hfill
    · exact (ih _).trans ((startBurst_gating ..).trans hfill)

theorem servePort_asks (k : Nat) (s : State) {m : Nat} (hm : m ∈ ports4) (h : s.shut = true) :
    (servePort k s m).scene.twinAsks = s.scene.twinAsks := by
  cases k with
  | zero => rfl
  | succ k =>
    simp only [servePort, chooseBurst_of_shut ((fillBlocks_shut s).trans h) hm]
    exact State.asks_of_still (fillBlocks_still s)

/-! ### What keeps the twin waiting -/

/-- While nothing is armed the gates are judged by the same as before; and where they are shut, the twin is asked for the same bales. -/
def Waits (s t : State) : Prop :=
  s.scene.armed.isEmpty = true → t.gating = s.gating ∧ (s.shut = true → t.scene.twinAsks = s.scene.twinAsks)

theorem Waits.of_still (h : t.still = s.still) : Waits s t := fun _ => ⟨State.gating_of_still h, fun _ => State.asks_of_still h⟩

theorem Waits.trans {r : State} (h : Waits r s) (h' : Waits s t) : Waits r t := fun harmed => by
  obtain ⟨hg, ha⟩ := h harmed
  obtain ⟨hg', ha'⟩ := h' ((State.armed_of_gating hg).trans harmed)
  exact ⟨hg'.trans hg, fun hs => (ha' ((State.shut_congr hg).trans hs)).trans (ha hs)⟩

theorem State.each_waits_mem {α : Type} (s : State) (l : List α) (f : State → α → State) (h : ∀ s, ∀ x ∈ l, Waits s (f s x)) :
    Waits s (s.each l f) := by
  induction l generalizing s with
  | nil => exact Waits.of_still rfl
  | cons x l ih =>
    exact (h s x List.mem_cons_self).trans (ih (f s x) fun s y hy => h s y (List.mem_cons_of_mem x hy))

theorem servePort_waits (k : Nat) (s : State) {m : Nat} (hm : m ∈ ports4) : Waits s (servePort k s m) :=
  fun _ => ⟨servePort_gating k s m, servePort_asks k s hm⟩

theorem cutBurst_waits (s : State) {m : Nat} (hm : m ∈ ports4) : Waits s (cutBurst s m) :=
  fun _ => ⟨cutBurst_gating s m, fun h => by rw [cutBurst_of_shut h hm]⟩

theorem servePorts_waits (s : State) : Waits s (servePorts s) := by
  have hfill : Waits s (fillBlocks s) := Waits.of_still (fillBlocks_still s)
  unfold servePorts
  dsimp only
  split
  · exact hfill
  · exact hfill.trans (State.each_waits_mem _ _ _ fun s m hm => (cutBurst_waits s hm).trans (servePort_waits _ _ hm))

/-! ### Arming, and what goes on -/

theorem queueReadmit_still (s : State) (stooks : List Nat) (sc : Scene) : (queueReadmit s stooks sc).still = s.still := by
  unfold queueReadmit
  split
  · rfl
  · exact State.mapScene_still s rfl rfl

/-- A scene is armed while no part is: the ports serve, and its READMIT units wait. -/
theorem armScene_of_nil (sc : Scene) (h : s.scene.armed = []) :
    armScene s sc = queueReadmit (servePorts (s.mapScene fun x => { x with armed := [] })) [] sc := by
  simp only [armScene, partsWithKey, State.mapScene, h, List.map_nil, List.filter_nil, List.flatMap_nil, List.eraseDups_nil, State.each,
    List.foldl_nil]

theorem armScene_waits (s : State) (sc : Scene) : Waits s (armScene s sc) := fun harmed => by
  have hnil : s.scene.armed = [] := List.isEmpty_iff.1 harmed
  have hmap : Waits s (s.mapScene fun x => { x with armed := [] }) := Waits.of_still (State.mapScene_still s hnil.symm rfl)
  rw [armScene_of_nil sc hnil]
  exact ((hmap.trans (servePorts_waits _)).trans (Waits.of_still (queueReadmit_still ..))) harmed

theorem setThrottle_still (s : State) (reproof : Bool) (held : Nat) : (setThrottle s reproof held).still = s.still := by
  have hlevels : (settleLevels s).still = s.still := State.still_of_hide (settleLevels_hide rfl ..)
  simp only [setThrottle, State.setFld_still, raise_still, hlevels, State.still_ite, ite_self, F.schedThrottleReproof_besideHtime,
    F.schedThrottleHeld_besideHtime]

theorem liftHolds_still (s : State) (lift : BitVec 4) : (liftHolds s lift).still = s.still := by
  simp only [liftHolds, setThrottle_still, State.still_ite, ite_self]

theorem armWritten_waits (s : State) : Waits s (armWritten s) :=
  (Waits.of_still (State.mapScene_still s rfl rfl)).trans (State.each_waits_mem _ _ _ fun s c _ =>
    (Waits.of_still (liftHolds_still s c.2)).trans (armScene_waits _ _))

theorem decideParts_waits (s : State) : Waits s (decideParts s) := fun harmed => by
  have hnil : s.scene.armed = [] := List.isEmpty_iff.1 harmed
  have hsame : decideParts s = s := by
    simp only [decideParts, hnil, List.filter_nil, List.map_nil, State.each, List.foldl_nil]
  rw [hsame]
  exact ⟨rfl, fun _ => rfl⟩

theorem ringsGoOn_waits (s : State) : Waits s (ringsGoOn s) :=
  ((Waits.of_still (State.each_still _ _ _ drainRing_still)).trans (armWritten_waits _)).trans
    (Waits.of_still (State.each_still _ _ _ (runRing_still ringFuel)))

theorem serveRuns_waits (s : State) : Waits s (serveRuns s) :=
  ((servePorts_waits s).trans (Waits.of_still (takeEntries_still _))).trans (servePorts_waits _)

theorem portsGoOn_waits (s : State) : Waits s (portsGoOn s) :=
  (((Waits.of_still (endEntries_still s)).trans (serveRuns_waits _)).trans (Waits.of_still (askAll_still _))).trans (decideParts_waits _)

/-! ### The records before the rings -/

theorem State.scene_of_hide {m : Nat} (hm : m.testBit 10 = false) (h : t.hide m s = s.hide m s) : t.scene = s.scene := by
  have hscene := congrArg State.scene h
  simpa only [State.hide, hm, Bool.false_eq_true, if_false] using hscene

theorem pipeRecord_scene (s : State) (p : Nat) (rec : List Byte) : (pipeRecord s p rec).scene = s.scene :=
  State.scene_of_hide (m := 0x8010000b6) (by decide) (pipeRecord_hide rfl s s p rec)

theorem pipeEvent_scene (s : State) (p k : Nat) : (pipeEvent s p k).scene = s.scene :=
  State.scene_of_hide (m := 0x1000036) (by decide) (raise_hide rfl s s _)

theorem drainPrec_scene (s : State) (p : Nat) : (drainPrec s p).scene = s.scene :=
  State.scene_of_hide (m := 0x8000000b2) (by decide) (drainPrec_hide rfl s s p)

/-- What is armed and what is asked of the twin. -/
def SceneState.asking (x : SceneState) : List Armed × List (Nat × Nat × Bool) := (x.armed, x.twinAsks)

theorem flushReleases_asking (s : State) (f : Release → Bool) : (flushReleases s f).scene.asking = s.scene.asking :=
  State.each_keeps (fun t => t.scene.asking) _ _ _ fun _ _ => congrArg SceneState.asking (pipeRecord_scene ..)

theorem flushFlips_asking (s : State) (f : FlipDue → Bool) : (flushFlips s f).scene.asking = s.scene.asking :=
  State.each_keeps (fun t => t.scene.asking) _ _ _ fun _ _ =>
    congrArg SceneState.asking ((pipeEvent_scene ..).trans (pipeRecord_scene ..))

theorem drainReleases_asking (s : State) : (drainReleases s).scene.asking = s.scene.asking :=
  (flushReleases_asking ..).trans ((flushFlips_asking ..).trans (flushReleases_asking ..))

theorem beforeRings_asking (s : State) : (beforeRings s).scene.asking = s.scene.asking :=
  (State.each_keeps (fun t => t.scene.asking) _ _ _ fun _ _ => congrArg SceneState.asking (drainPrec_scene ..)).trans
    (drainReleases_asking s)

/-- With nothing armed and every gate shut in the end, the twin was asked for what it still is. -/
theorem settle_asks (harmed : s.scene.armed = []) (hshut : (settle s).shut = true) : (settle s).scene.twinAsks = s.scene.twinAsks := by
  have hasking : (beforeRings s).scene.armed = s.scene.armed ∧ (beforeRings s).scene.twinAsks = s.scene.twinAsks :=
    Prod.ext_iff.1 (beforeRings_asking s)
  have hwaits : Waits (beforeRings s) (settle s) :=
    (((ringsGoOn_waits _).trans (armWritten_waits _)).trans (Waits.of_still (pumpReads_still _))).trans (portsGoOn_waits _)
  obtain ⟨hgating, hasks⟩ := hwaits (by rw [hasking.1, harmed]; rfl)
  exact (hasks ((State.shut_congr hgating).symm.trans hshut)).trans hasking.2

end Sys2Proof.Machine
end

section
/-! PROOFS. Verdicts (spec 05, R124, R135; spec 06, R167; spec 09, R244): a statement that fails. An admitted scene that touches nothing is
armed at once, which lets the ports serve what the twin is asked for; its clause leaves the scene state as it was, before `settle`. Where
`settle` finds the gates shut behind that service, no state before it accounts for what came. -/

namespace Sys2Proof.Proofs.SceneCommit

open Sys2Proof.Machine Sys2Proof.Tests

/-- A gate in the last unit before its list closes. -/
def closingGate : Gate := { gateInit with run := some closingList, left := 1 }

/-- A scene that touches nothing is in proof, admitted, and one bale is asked of the twin. The gates close after one unit, which is long
while HTIME1 of pipe 0 is all ones. A record ring numbered 12,160, whose WR is that register and whose EN is the low bit of HTIME0, holds
one record, that `settle` writes: the next WR is 0, and the unit takes no time. No run leads to a ring of that number; the statement
is about every state. -/
def askWaits : State :=
  { (((open7.setReg (A.pipeClk 0) 1).setReg (A.pipePllDen 0) 1).setReg (A.pipeHtime0 0) 1).setReg (A.pipeHtime1 0) 0xFFFFFFFF with
    gates := ports4.map fun m => (m, closingGate)
    precHeld := [(12160, [[]])]
    scene := { open7.scene with inHand := some (.scene (emptyScene 0), verdict 0), twinAsks := [(0, 0, false)] } }

/-- A state in which every gate is shut and nothing is asked of the twin. -/
def asksServed : Answer → Bool
  | .next t => t.shut && t.scene.twinAsks.isEmpty
  | _ => false

theorem winnowProofEnd_asksServed : asksServed (exec .winnowProofEnd askWaits) = true := by decide +kernel

/-- Arming the scene serves the bale, and in the end the gates are shut. -/
theorem winnowProofEnd_servesAsk {t : State} (h : exec .winnowProofEnd askWaits = .next t) :
    t.shut = true ∧ t.scene.twinAsks = [] := by
  have hserved := winnowProofEnd_asksServed
  rw [h, asksServed, Bool.and_eq_true, List.isEmpty_iff] at hserved
  exact hserved

/-- Whatever state `settle` goes on from, the twin was asked for nothing there: nothing can have come behind shut gates. -/
theorem winnowProofEnd_accounts {u : State} {l : List Instr} (h : exec .winnowProofEnd askWaits = .next { settle u with pending := l })
    (harmed : u.scene.armed = []) : u.scene.twinAsks = [] := by
  obtain ⟨hshut, hserved⟩ := winnowProofEnd_servesAsk h
  rw [State.shut_pending] at hshut
  rw [State.scene_pending] at hserved
  exact (settle_asks harmed hshut).symm.trans hserved

/-- Refutes O54: its clause on a scene that touches nothing has the bales asked of the twin as they were before `settle`, and arming the
scene serves them; in `askWaits` the gates are shut once `settle` goes on, so that it cannot have served them itself. -/
theorem not_verdicts : ¬Obligations.Verdicts := by
  rintro ⟨-, hadmitted, -⟩
  obtain ⟨u, hexec, hscene, -⟩ := hadmitted (emptyScene 0) (verdict 0) askWaits rfl rfl rfl rfl rfl rfl (by decide +kernel) rfl rfl rfl
    rfl rfl
  have harmed : u.scene.armed = [] := congrArg SceneState.armed hscene
  have hasked : u.scene.twinAsks = [(0, 0, false)] := congrArg SceneState.twinAsks hscene
  exact List.cons_ne_nil _ _ (hasked.symm.trans (winnowProofEnd_accounts hexec harmed))

end Sys2Proof.Proofs.SceneCommit
end

section
/-! PROOFS. The rotation of the lane under test (spec 08, R205 to R209; spec 15, R368, R373): what a result shows, what a lane that fails
leaves when it recovers and when it is retired, and what a swap begins. -/

namespace Sys2Proof.Machine

/-! ### The lanes in service and the pipes that run -/

theorem pipesRunning_congr {s t : State} (h : t.pipes = s.pipes) : pipesRunning t = pipesRunning s := by
  have hruns : generatorRuns t = generatorRuns s := by
    funext p
    rw [generatorRuns, generatorRuns, State.pipe, State.pipe, h]
  rw [pipesRunning, pipesRunning, hruns]

theorem profileLanes_congr {s t : State} (h : t.reg A.sysProfile = s.reg A.sysProfile) : profileLanes t = profileLanes s := by
  have hprofile : profileOf t = profileOf s := State.fld_congr h
  rw [profileLanes, profileLanes, hprofile]

/-- The lanes of the profile that are not retired, the one under hold among them. -/
def lanesServing (s : State) : List Nat :=
  (List.range 17).filter fun k => decide (k ≤ profileLanes s) && !(s.unit (0x10 + k)).retired

theorem lanesIn_eq (s : State) : lanesIn s = (lanesServing s).length - s.fault.holdFail.toNat := rfl

theorem mem_lanesServing {s : State} {k : Nat} :
    k ∈ lanesServing s ↔ k < 17 ∧ k ≤ profileLanes s ∧ (s.unit (0x10 + k)).retired = false := by
  rw [lanesServing, List.mem_filter, List.mem_range, Bool.and_eq_true, decide_eq_true_eq, Bool.not_eq_true']

/-- A change of one lane takes at most that one out of service. -/
theorem lanesServing_length_le {s t : State} {l : Nat} (hprofile : t.reg A.sysProfile = s.reg A.sysProfile)
    (hunits : ∀ v, v ≠ 0x10 + l → t.unit v = s.unit v) : (lanesServing s).length ≤ (lanesServing t).length + 1 := by
  have hsub : lanesServing s ⊆ l :: lanesServing t := fun k hk => by
    obtain ⟨hlt, hle, hserving⟩ := mem_lanesServing.1 hk
    by_cases hkl : k = l
    · exact hkl ▸ List.mem_cons_self
    · refine List.mem_cons_of_mem _ (mem_lanesServing.2 ⟨hlt, ?_, ?_⟩)
      · rwa [profileLanes_congr hprofile]
      · rwa [hunits _ (by omega)]
  exact (List.subperm_of_subset (List.nodup_range.filter _) hsub).length_le

theorem lanesIn_congr {s t : State} (hprofile : t.reg A.sysProfile = s.reg A.sysProfile) (hunits : t.fault.units = s.fault.units)
    (hhold : t.fault.holdFail = s.fault.holdFail) : lanesIn t = lanesIn s := by
  have hunit : t.unit = s.unit := by
    funext v
    rw [State.unit, State.unit, hunits]
  rw [lanesIn, lanesIn, profileLanes_congr hprofile, hunit, hhold]

/-- While two lanes are in service the rotation goes on (R210). -/
theorem checkLanes_of_two {s : State} (h : 2 ≤ lanesIn s) : checkLanes s = s := by
  have hone : ¬((decide (lanesIn s = 1) && s.fault.lane.isSome) = true) := by
    rw [Bool.and_eq_true, decide_eq_true_eq]
    omega
  simp only [checkLanes]
  rw [if_neg (by omega), if_neg hone]

/-! ### A result shows -/

/-- A result of lane `l` shows with its code in the lane's register and is counted in a field; the test is over, and a late rotation of
the lane counts anew. `n` tests in a row were not run. -/
def resultShown (s : State) (l code : Nat) (f : Fld) (n : Nat) : State :=
  (((s.mapFault fun x => { x with testing := false, lateFired := x.lateFired.filter (· != l) }).setFld
    (F.blendLaneStatResult l) code).addFld f 1).mapFault fun x => { x with notRun := n }

theorem resultShown_fault (s : State) (l code : Nat) (f : Fld) (n : Nat) :
    (resultShown s l code f n).fault =
      { s.fault with testing := false, notRun := n, lateFired := s.fault.lateFired.filter (· != l) } := rfl

theorem resultShown_unit (s : State) (l code : Nat) (f : Fld) (n : Nat) : (resultShown s l code f n).unit = s.unit := rfl

theorem resultShown_regs (s : State) (l code : Nat) (f : Fld) (n : Nat) :
    SameRegsBut (fun a => a = A.blendLaneStat l ∨ a = f.addr) s (resultShown s l code f n) := by
  intro a ha
  obtain ⟨hstat, hcount⟩ := not_or.1 ha
  exact (State.reg_addFld_other _ f a 1 hcount).trans (State.reg_setFld_other _ (F.blendLaneStatResult l) a code hstat)

theorem resultShown_touches (s : State) (l code : Nat) (f : Fld) (n : Nat) :
    TouchesOnly [.regs, .fault] s (resultShown s l code f n) :=
  (State.touches_of_hide [.regs, .fault] rfl fun d => (State.mapFault_hide (by decide) d _ _).trans
    ((State.addFld_hide (by decide) d _ _ _).trans ((State.setFld_hide (by decide) d _ _ _).trans
      (State.mapFault_hide (by decide) d _ _)))).1

/-- A field that is not the result of a lane. -/
def Fld.besideResult (f : Fld) (l : Nat) : Prop := f.ok ∧ (f.addr ≠ A.blendLaneStat l ∨ 5 < f.lo)

theorem blendLaneStatResult_ok (l : Nat) : (F.blendLaneStatResult l).ok := ⟨(by decide : 4 ≤ 5), (by decide : 5 < 32)⟩

theorem resultShown_result (s : State) {l code : Nat} {f : Fld} (n : Nat) (hf : f.besideResult l) (hcode : code < 4) :
    (resultShown s l code f n).fld (F.blendLaneStatResult l) = code := by
  obtain ⟨hok, hbeside⟩ := hf
  exact (State.fld_setFld_other _ f (F.blendLaneStatResult l) _ hok (blendLaneStatResult_ok l) (hbeside.imp Ne.symm .inl)).trans
    (State.fld_setFld_of_lt _ (blendLaneStatResult_ok l) hcode)

theorem resultShown_count (s : State) (l code : Nat) {f : Fld} (n : Nat) (hf : f.besideResult l) :
    (resultShown s l code f n).fld f = min (2 ^ (f.hi - f.lo + 1) - 1) (s.fld f + 1) := by
  obtain ⟨hok, hbeside⟩ := hf
  refine (State.fld_addFld_self _ f 1 hok).trans ?_
  rw [State.fld_setFld_other _ (F.blendLaneStatResult l) f _ (blendLaneStatResult_ok l) hok (hbeside.imp_right .inr), Nat.min_comm]
  rfl

theorem besideResult_passes (l : Nat) : (F.blendLaneStatPasses l).besideResult l :=
  ⟨⟨(by decide : 8 ≤ 23), (by decide : 23 < 32)⟩, .inr (by decide : 5 < 8)⟩

theorem besideResult_fails {l : Nat} : F.blendTestFailsCount.besideResult l :=
  ⟨⟨by decide, by decide⟩, .inl (by simp only [F.blendTestFailsCount, A.blendTestFails, A.blendLaneStat]; omega)⟩

theorem besideResult_notRun {l : Nat} : F.blendTestNotRunCount.besideResult l :=
  ⟨⟨by decide, by decide⟩, .inl (by simp only [F.blendTestNotRunCount, A.blendTestNotRun, A.blendLaneStat]; omega)⟩

theorem blendLaneStat_lt {l : Nat} (hl : l ≤ 16) : A.blendLaneStat l < 0xA0000 := by
  rw [A.blendLaneStat]
  omega

theorem sysProfile_lt (l : Nat) : A.sysProfile < A.blendLaneStat l := by
  rw [A.blendLaneStat, A.sysProfile]
  omega

/-! ### LBIST_RESULT, result by result -/

/-- A result without a test. -/
theorem lbistResult_untested {s : State} (h : s.fault.lane = none ∨ s.fault.testing = false) (r : Lbist) : lbistResult s r = s := by
  rw [lbistResult]
  split
  · rfl
  next l hlane =>
    have htesting : s.fault.testing = false := h.resolve_left (by rw [hlane]; exact Option.some_ne_none l)
    rw [htesting]
    rfl

section
variable {s : State} {l : Nat} (hlane : s.fault.lane = some l) (htesting : s.fault.testing = true) (hhold : s.fault.hold = false)
include hlane htesting hhold

/-- A pass of a lane in service brings no failure (R206). -/
theorem lbistResult_pass (hserving : (s.unit (0x10 + l)).retired = false) :
    lbistResult s .pass = resultShown s l 1 (F.blendLaneStatPasses l) 0 := by
  have hpass : lanePass (resultShown s l 1 (F.blendLaneStatPasses l) 0) l = resultShown s l 1 (F.blendLaneStatPasses l) 0 := by
    simp only [lanePass, resultShown_unit, hserving, Bool.false_eq_true, if_false]
  simp only [lbistResult, hlane, htesting, Bool.not_true, Bool.false_eq_true, if_false]
  exact (if_neg (by rw [Bool.not_eq_true]; exact hhold)).trans hpass

/-- The first test that is not run brings no failure. -/
theorem lbistResult_notRun (hfirst : s.fault.notRun = 0) :
    lbistResult s .notRun = resultShown s l 3 F.blendTestNotRunCount 1 := by
  simp only [lbistResult, hlane, htesting, Bool.not_true, Bool.false_eq_true, if_false]
  refine (if_neg (by rw [Bool.not_eq_true]; exact hhold)).trans ((if_neg ?_).trans ?_)
  · show ¬2 ≤ s.fault.notRun + 1
    omega
  · show resultShown s l 3 F.blendTestNotRunCount (s.fault.notRun + 1) = _
    rw [hfirst]

/-- A lane in service fails its test. -/
theorem lbistResult_fail (hserving : (s.unit (0x10 + l)).retired = false) :
    lbistResult s .fail = laneFails (resultShown s l 2 F.blendTestFailsCount 0) l := by
  simp only [lbistResult, hlane, htesting, Bool.not_true, Bool.false_eq_true, if_false]
  exact (if_neg (by rw [Bool.not_eq_true]; exact hhold)).trans (if_neg (by rw [Bool.not_eq_true]; exact hserving))

end

/-! ### A re-proof is owed -/

theorem restartProof_fault (s : State) : (restartProof s).fault = s.fault := by
  have h := congrArg State.fault (restartProof_hide (m := 0x400) rfl s s)
  exact h

theorem oweReproof_fault (s : State) (retired : Option (BitVec 8)) :
    (oweReproof s retired).fault = { s.fault with reproof := true } := by
  cases retired with
  | none => exact restartProof_fault _
  | some u => exact restartProof_fault _

theorem oweReproof_regs (s : State) (retired : Option (BitVec 8)) : (oweReproof s retired).regs = s.regs :=
  State.regs_of_hide (m := 0x200000400) rfl (oweReproof_hide rfl s s retired)

theorem oweReproof_pipes (s : State) (retired : Option (BitVec 8)) : (oweReproof s retired).pipes = s.pipes := by
  have h := congrArg State.pipes (oweReproof_hide (m := 0x200000400) rfl s s retired)
  exact h

/-! ### A lane fails and recovers -/

theorem isLink_lane {l : Nat} (hl : l ≤ 16) : isLink (0x10 + l) = false := by
  simp only [isLink, Bool.or_eq_false_iff, beq_eq_false_iff_ne]
  omega

theorem isLg_lane {l : Nat} (hl : l ≤ 16) : isLg (0x10 + l) = false := by
  simp only [isLg, Bool.and_eq_false_iff, decide_eq_false_iff_not]
  omega

theorem isMc_lane (l : Nat) : isMc (0x10 + l) = false := decide_eq_false (by omega)

theorem isDma_lane {l : Nat} (hl : l ≤ 16) : isDma (0x10 + l) = false := by
  simp only [isDma, Bool.and_eq_false_iff, decide_eq_false_iff_not]
  omega

theorem isLane_lane {l : Nat} (hl : l ≤ 16) : isLane (0x10 + l) = true := by
  simp only [isLane, Bool.and_eq_true, decide_eq_true_eq]
  omega

/-- A lane in recovery. -/
theorem recoverUnit_lane (s : State) {l : Nat} (hl : l ≤ 16) (cause : Nat) :
    recoverUnit s (0x10 + l) cause = s.setUnit (0x10 + l) { s.unit (0x10 + l) with recovery := true } := by
  simp only [recoverUnit, isMc_lane, isLg_lane hl, isDma_lane hl, Bool.false_eq_true, if_false]

/-- A lane's first failure is noted, and the lane goes into recovery. -/
theorem unitFails_lane_transient {s : State} {l : Nat} (hl : l ≤ 16) (h : FailsFirst s (0x10 + l)) (cause : Nat) :
    unitFails s (0x10 + l) cause = (failureNoted s (0x10 + l) cause).setUnit (0x10 + l)
      { (failureNoted s (0x10 + l) cause).unit (0x10 + l) with recovery := true } := by
  rw [unitFails_transient h (by rw [isLink_lane hl, Bool.false_and]), recoverUnit_lane _ hl]

theorem recovers_lane {s : State} {l cause : Nat} (hl : l ≤ 16) (h : FailsFirst s (0x10 + l)) (hcause : cause < 2 ^ 8) :
    Recovers s (unitFails s (0x10 + l) cause) (0x10 + l) cause := by
  obtain ⟨-, -, -, hfew⟩ := id h
  rw [unitFails_lane_transient hl h]
  refine ⟨?_, fun v hv => ?_, (failureNoted_shown hfew (by omega) hcause).congr (State.setUnit_regs _ _ _)⟩
  · rw [State.unit_setUnit, if_pos rfl, failureNoted_unit, if_pos rfl]
  · rw [State.unit_setUnit, if_neg hv, failureNoted_unit, if_neg hv]

/-- Raising an event does not reach the pipes. -/
theorem raise_pipes (s : State) (k : Nat) : (raise s k).pipes = s.pipes := by
  have h := congrArg State.pipes (raise_hide (m := 0x1000036) rfl s s k)
  exact h

theorem failureCounted_pipes (s : State) (u : Nat) : (failureCounted s u).pipes = s.pipes := raise_pipes _ 27

theorem failureNoted_pipes (s : State) (u cause : Nat) : (failureNoted s u cause).pipes = s.pipes := by
  rw [failureNoted, State.setFld_pipes, State.setFld_pipes, State.setFld_pipes, State.setFld_pipes, failureCounted_pipes]

theorem failureCounted_fault (s : State) (u : Nat) : (failureCounted s u).fault =
    { s.fault with units := smSet unitInit s.fault.units u { s.unit u with fails := recentFails s u ++ [s.time.uptime] } } :=
  raise_fault _ 27

theorem Recovers.congr {s t t' : State} {u cause : Nat} (hunits : t'.fault.units = t.fault.units) (hregs : t'.regs = t.regs)
    (h : Recovers s t u cause) : Recovers s t' u cause := by
  obtain ⟨hunit, hothers, hshown⟩ := h
  have heq (v : Nat) : t'.unit v = t.unit v := by rw [State.unit, State.unit, hunits]
  exact ⟨(heq u).trans hunit, fun v hv => (heq v).trans (hothers v hv), hshown.congr hregs⟩

/-- States that agree in the units, in the uptime and in FAILURES judge a recovery alike. -/
theorem Recovers.of_same {s r t : State} {u cause : Nat} (hunit : r.unit = s.unit) (htime : r.time = s.time)
    (hcount : r.reg A.faultFailures = s.reg A.faultFailures) (h : Recovers r t u cause) : Recovers s t u cause := by
  have hrecent : recentFails r u = recentFails s u := by rw [recentFails, recentFails, hunit, htime]
  have hfailures : r.fld F.faultFailuresCount = s.fld F.faultFailuresCount := State.fld_congr hcount
  rw [Recovers, FailureShown, hunit, htime, hrecent, hfailures] at h
  exact h

/-- The swap is held for a lane that has failed, until its retest and a frame start of each of these pipes. -/
def swapHeld (s : State) (frames : List Nat) : State :=
  s.mapFault fun x => { x with hold := true, holdFail := true, holdDone := none, holdFrames := frames, notRun := 0 }

theorem swapHeld_regs (s : State) (frames : List Nat) : (swapHeld s frames).regs = s.regs := rfl

/-- A lane that recovers from a failure of its test holds the swap until its retest, and a re-proof is owed (R208, R209). -/
theorem laneFails_transient {s : State} {l : Nat} (hl : l ≤ 16) (h : FailsFirst s (0x10 + l)) :
    laneFails s l = oweReproof (swapHeld (unitFails s (0x10 + l) 7) (pipesRunning s)) none := by
  obtain ⟨hserving, -⟩ := id h
  obtain ⟨hunit, -⟩ := recovers_lane (cause := 7) hl h (by decide)
  have hgone : ((unitFails s (0x10 + l) 7).unit (0x10 + l)).retired = false := by rw [hunit]; exact hserving
  have hpipes : pipesRunning (unitFails s (0x10 + l) 7) = pipesRunning s := by
    rw [unitFails_lane_transient hl h]
    exact pipesRunning_congr ((State.setUnit_pipes _ _ _).trans (failureNoted_pipes s _ _))
  simp only [laneFails, swapHeld, hgone, hpipes, Bool.false_and, Bool.false_eq_true, if_false, Bool.not_false]

/-- Such a failure changes FAILURES and LAST alone, outside block EVT. -/
theorem laneFails_reg {s : State} {l : Nat} (hl : l ≤ 16) (h : FailsFirst s (0x10 + l)) {a : Nat} (hevt : ¬evtReg a)
    (hfailures : a ≠ A.faultFailures) (hlast : a ≠ A.faultLast) : (laneFails s l).reg a = s.reg a := by
  have hfails : (unitFails s (0x10 + l) 7).reg a = s.reg a := by
    rw [unitFails_lane_transient hl h, State.reg_congr (State.setUnit_regs _ _ _)]
    exact failureNoted_reg s (0x10 + l) 7 hevt hfailures hlast
  rw [laneFails_transient hl h, State.reg_congr ((oweReproof_regs _ _).trans (swapHeld_regs _ _)), hfails]

theorem laneFails_recovers {s : State} {l : Nat} (hl : l ≤ 16) (h : FailsFirst s (0x10 + l)) :
    Recovers s (laneFails s l) (0x10 + l) 7 := by
  have hunits := congrArg FaultState.units (oweReproof_fault (swapHeld (unitFails s (0x10 + l) 7) (pipesRunning s)) none)
  rw [laneFails_transient hl h]
  exact (recovers_lane hl h (by decide)).congr hunits (oweReproof_regs (swapHeld _ _) none)

/-- The hold that such a failure begins. -/
theorem laneFails_holds {s : State} {l : Nat} (hl : l ≤ 16) (h : FailsFirst s (0x10 + l)) :
    (laneFails s l).fault.hold = true ∧ (laneFails s l).fault.holdFail = true ∧ (laneFails s l).fault.holdDone = none ∧
      (laneFails s l).fault.reproof = true ∧ (laneFails s l).fault.testing = s.fault.testing ∧
      (laneFails s l).fault.holdFrames = pipesRunning s := by
  have htesting : (unitFails s (0x10 + l) 7).fault.testing = s.fault.testing := by
    have hcounted := congrArg FaultState.testing (failureCounted_fault s (0x10 + l))
    rw [unitFails_lane_transient hl h]
    exact hcounted
  rw [laneFails_transient hl h, oweReproof_fault]
  exact ⟨rfl, rfl, rfl, rfl, htesting, rfl⟩

/-! ### What the rotation reads of a retirement -/

/-- The fault manager without its records and without the recoveries of memory channels. -/
def FaultState.besideRecords (x : FaultState) : FaultState :=
  { x with held := [], nextSeq := 0, mcQueue := [], mcHand := none }

/-- What the rotation reads: the fault manager beside records and the recoveries of memory channels, and the pipes. -/
def State.rotating (s : State) : FaultState × SMap PipeRt := (s.fault.besideRecords, s.pipes)

theorem State.rotating_of_hide {s t : State} (e : t.hide 0xDFFFFBFFF State.reset = s.hide 0xDFFFFBFFF State.reset) :
    t.rotating = s.rotating := by
  have h : (t.hide 0xDFFFFBFFF State.reset).rotating = (s.hide 0xDFFFFBFFF State.reset).rotating := congrArg State.rotating e
  exact h

theorem writtenIfOff_rotating (s : State) : (writtenIfOff s).rotating = s.rotating := by
  refine (State.rotating_of_hide (noteHeld_hide rfl ..)).trans ?_
  split
  · rfl
  · rfl

theorem nextRecovery_rotating (s : State) : (nextRecovery s).rotating = s.rotating := by
  rw [nextRecovery]
  split
  · rfl
  · rfl

/-- A unit that is retired, in LAST, in its record and in RETIREMENTS, before the actions of its kind. -/
def retirementNoted (s : State) (u cause fails : Nat) : State :=
  (pushRecord (markRetired s u cause) u 1 cause fails).addFld F.faultRetirementsCount 1

theorem pushRecord_fault (s : State) (u kind cause fails : Nat) :
    (pushRecord s u kind cause fails).fault.besideRecords = s.fault.besideRecords := by
  simp only [pushRecord, State.setFld_fault]
  rfl

theorem pushRecord_pipes (s : State) (u kind cause fails : Nat) : (pushRecord s u kind cause fails).pipes = s.pipes := by
  simp only [pushRecord, State.setFld_pipes]
  rfl

theorem pushRecord_reg (s : State) (u kind cause fails : Nat) {a : Nat} (ha : a ≠ A.faultLast) :
    (pushRecord s u kind cause fails).reg a = s.reg a := by
  simp only [pushRecord]
  rw [State.reg_setFld_other _ _ _ _ ha, State.reg_setFld_other _ _ _ _ ha, State.reg_setFld_other _ _ _ _ ha,
    State.reg_setFld_other _ _ _ _ ha]
  rfl

theorem retirementNoted_rotating (s : State) (u cause fails : Nat) :
    (retirementNoted s u cause fails).rotating = (markRetired s u cause).rotating := by
  rw [retirementNoted, State.rotating, State.addFld_fault, State.addFld_pipes, pushRecord_fault, pushRecord_pipes]
  rfl

theorem retirementNoted_reg (s : State) (u cause fails : Nat) {a : Nat} (hlast : a ≠ A.faultLast) (hcount : a ≠ A.faultRetirements) :
    (retirementNoted s u cause fails).reg a = s.reg a := by
  rw [retirementNoted, State.reg_addFld_other _ _ _ _ hcount, pushRecord_reg _ _ _ _ _ hlast]
  rfl

theorem State.lane_of_rotating {s t : State} (h : t.rotating = s.rotating) : t.fault.lane = s.fault.lane :=
  congrArg (fun x : FaultState × SMap PipeRt => x.1.lane) h

theorem State.reproof_of_rotating {s t : State} (h : t.rotating = s.rotating) : t.fault.reproof = s.fault.reproof :=
  congrArg (fun x : FaultState × SMap PipeRt => x.1.reproof) h

theorem State.pipes_of_rotating {s t : State} (h : t.rotating = s.rotating) : t.pipes = s.pipes := congrArg Prod.snd h

theorem State.unit_of_rotating {s t : State} (h : t.rotating = s.rotating) : t.unit = s.unit := by
  have hunits : t.fault.units = s.fault.units := congrArg (fun x : FaultState × SMap PipeRt => x.1.units) h
  funext v
  rw [State.unit, State.unit, hunits]

/-- After the actions of its kind the retirement of a unit is recorded, logged and journaled: the rotation reads nothing of that. -/
theorem retireWith_rotating (s : State) (u cause fails : Nat) (actions : State → State) :
    (retireWith s u cause fails actions).rotating = (actions (retirementNoted s u cause fails)).rotating :=
  (State.rotating_of_hide ((journalMap_hide rfl ..).trans ((State.mapBarn_hide rfl ..).trans ((flogEntry_hide rfl ..).trans
    (raise_hide rfl ..))))).trans (writtenIfOff_rotating _)

theorem settleLevels_regs (s : State) : (settleLevels s).regs = s.regs :=
  State.each_keeps State.regs _ _ _ fun _ _ => rfl

/-- The throttle writes THROTTLE alone, outside block EVT. -/
theorem setThrottle_reg (s : State) (reproof : Bool) (held : Nat) {a : Nat} (hevt : ¬evtReg a) (ha : a ≠ A.schedThrottle) :
    (setThrottle s reproof held).reg a = s.reg a := by
  have hset : (((settleLevels s).setFld F.schedThrottleReproof reproof.toNat).setFld F.schedThrottleHeld held).reg a = s.reg a := by
    rw [State.reg_setFld_other _ _ _ _ ha, State.reg_setFld_other _ _ _ _ ha, State.reg_congr (settleLevels_regs s)]
  simp only [setThrottle]
  split
  · exact (raise_reg _ _ _ (by decide) hevt).trans hset
  · exact hset

theorem setThrottle_fault (s : State) (reproof : Bool) (held : Nat) : (setThrottle s reproof held).fault = s.fault := by
  have h := congrArg State.fault (setThrottle_hide (m := 0x1400036) rfl s s reproof held)
  exact h

theorem setThrottle_pipes (s : State) (reproof : Bool) (held : Nat) : (setThrottle s reproof held).pipes = s.pipes := by
  have h := congrArg State.pipes (setThrottle_hide (m := 0x1400036) rfl s s reproof held)
  exact h

/-- The throttle of a lane's retirement, which ends the hold of its failure. -/
def laneThrottled (s : State) : State :=
  (setThrottle s true (s.fld F.schedThrottleHeld)).mapFault fun x => { x with holdFail := false }

theorem retireLane_eq (s : State) (u : Nat) :
    retireLane s u = oweReproof (checkLanes (laneThrottled s)) (some (BitVec.ofNat 8 u)) := rfl

theorem laneThrottled_fault (s : State) : (laneThrottled s).fault = { s.fault with holdFail := false } :=
  congrArg (fun x : FaultState => { x with holdFail := false }) (setThrottle_fault ..)

theorem lanesIn_laneThrottled (s : State) : lanesIn (laneThrottled s) = (lanesServing s).length :=
  lanesIn_congr (s := s.mapFault fun x => { x with holdFail := false })
    (setThrottle_reg s true _ (by unfold evtReg; decide) (by decide)) (congrArg FaultState.units (laneThrottled_fault s))
    (congrArg FaultState.holdFail (laneThrottled_fault s))

/-- A lane that is retired while two others serve: the rotation goes on, and a re-proof is owed. -/
theorem retireLane_rotating {s : State} (h : 2 ≤ (lanesServing s).length) (u : Nat) :
    (retireLane s u).rotating = (s.mapFault fun x => { x with holdFail := false, reproof := true }).rotating := by
  rw [retireLane_eq, checkLanes_of_two (by rwa [lanesIn_laneThrottled]), State.rotating, oweReproof_fault, oweReproof_pipes,
    laneThrottled_fault]
  exact congrArg (_, ·) (setThrottle_pipes s true _)

/-! ### A lane fails for the last time -/

/-- The fourth failure of a lane in 10 ms retires it (R368, R373). -/
theorem unitFails_lane_last {s : State} {l : Nat} (hl : l ≤ 16) (hserving : (s.unit (0x10 + l)).retired = false)
    (hretest : s.fault.retest ≠ some (0x10 + l)) (hmany : 3 ≤ (recentFails s (0x10 + l)).length) (cause : Nat) :
    ∃ fails, unitFails s (0x10 + l) cause = nextRecovery (retireWith (failureCounted s (0x10 + l)) (0x10 + l) cause fails
      fun t => retireLane t (0x10 + l)) := by
  have hlast : (decide (4 ≤ (recentFails s (0x10 + l) ++ [s.time.uptime]).length) ||
      ((failureCounted s (0x10 + l)).unit (0x10 + l)).recovery) = true := by
    rw [List.length_append, List.length_singleton, decide_eq_true (by omega), Bool.true_or]
  have hactions : (fun t => retireActions t (0x10 + l) cause) = fun t => retireLane t (0x10 + l) := by
    funext t
    simp only [retireActions, isMc_lane, isLane_lane hl, Bool.false_eq_true, if_false, if_true]
  refine ⟨(recentFails s (0x10 + l) ++ [s.time.uptime]).length, ?_⟩
  rw [unitFails, hserving, isLink_lane hl, decide_eq_false hretest, Bool.false_and, if_neg (by decide)]
  refine (if_pos hlast).trans (congrArg nextRecovery ?_)
  simp only [retireUnit, retireOne, isLg_lane hl, hactions, Bool.false_eq_true, if_false]
  rfl

/-- A unit out of service, with a re-proof owed and no lane under hold. -/
def goneFromRotation (s : State) (u cause : Nat) : State :=
  (markRetired s u cause).mapFault fun x => { x with holdFail := false, reproof := true }

theorem goneFromRotation_retired (s : State) (u cause : Nat) : ((goneFromRotation s u cause).unit u).retired = true := by
  have hmarked := State.unit_setUnit s u u
    { s.unit u with cause := cause, recovery := false, retired := true, ready := false, passes := 0, pendingIn := false }
  exact congrArg FUnit.retired (hmarked.trans (if_pos rfl))

theorem goneFromRotation_lane (s : State) (u cause : Nat) : (goneFromRotation s u cause).fault.lane = s.fault.lane := rfl

theorem goneFromRotation_reproof (s : State) (u cause : Nat) : (goneFromRotation s u cause).fault.reproof = true := rfl

theorem goneFromRotation_pipes (s : State) (u cause : Nat) : (goneFromRotation s u cause).pipes = s.pipes := rfl

/-- Where three lanes were in service, the rotation goes on without the one retired, and a re-proof is owed. -/
theorem unitFails_lane_retires {s : State} {l : Nat} (hl : l ≤ 16) (hserving : (s.unit (0x10 + l)).retired = false)
    (hretest : s.fault.retest ≠ some (0x10 + l)) (hmany : 3 ≤ (recentFails s (0x10 + l)).length) (hlanes : 3 ≤ lanesIn s)
    (cause : Nat) :
    (unitFails s (0x10 + l) cause).rotating = (goneFromRotation (failureCounted s (0x10 + l)) (0x10 + l) cause).rotating := by
  obtain ⟨fails, hfails⟩ := unitFails_lane_last hl hserving hretest hmany cause
  have hnoted := retirementNoted_rotating (failureCounted s (0x10 + l)) (0x10 + l) cause fails
  have hothers : ∀ v, v ≠ 0x10 + l → (retirementNoted (failureCounted s (0x10 + l)) (0x10 + l) cause fails).unit v = s.unit v :=
    fun v hv => by
      rw [State.unit_of_rotating hnoted, markRetired, State.unit_setUnit, if_neg hv, failureCounted_unit, if_neg hv]
  have hprofile : (retirementNoted (failureCounted s (0x10 + l)) (0x10 + l) cause fails).reg A.sysProfile = s.reg A.sysProfile := by
    rw [retirementNoted_reg _ _ _ _ (by decide) (by decide), failureCounted_reg _ _ (not_evtReg_of_lt (by decide)) (by decide)]
  have htwo := lanesServing_length_le hprofile hothers
  rw [lanesIn_eq] at hlanes
  rw [hfails, nextRecovery_rotating, retireWith_rotating, retireLane_rotating (by omega)]
  exact congrArg (fun x : FaultState × SMap PipeRt => ({ x.1 with holdFail := false, reproof := true }, x.2)) hnoted

/-- A lane that its failed test retires: the swap is held until its re-proof has ended and each running pipe has begun a frame (R209). -/
theorem laneFails_last {s : State} {l : Nat} (hl : l ≤ 16) (hlane : s.fault.lane = some l)
    (hserving : (s.unit (0x10 + l)).retired = false) (hretest : s.fault.retest ≠ some (0x10 + l))
    (hmany : 3 ≤ (recentFails s (0x10 + l)).length) (hlanes : 3 ≤ lanesIn s) :
    ((laneFails s l).unit (0x10 + l)).retired = true ∧ (laneFails s l).fault.hold = true ∧
      (laneFails s l).fault.holdDone = some false ∧ (laneFails s l).fault.holdFrames = pipesRunning s ∧
      (laneFails s l).fault.reproof = true := by
  have hafter := unitFails_lane_retires hl hserving hretest hmany hlanes 7
  have hgone : ((unitFails s (0x10 + l) 7).unit (0x10 + l)).retired = true := by
    rw [State.unit_of_rotating hafter, goneFromRotation_retired]
  have hpipes : (unitFails s (0x10 + l) 7).pipes = s.pipes := by
    rw [State.pipes_of_rotating hafter, goneFromRotation_pipes, failureCounted_pipes]
  have hrotates : (unitFails s (0x10 + l) 7).fault.lane = some l := by
    rw [State.lane_of_rotating hafter, goneFromRotation_lane, failureCounted_fault]
    exact hlane
  have hreproof : (unitFails s (0x10 + l) 7).fault.reproof = true := by
    rw [State.reproof_of_rotating hafter, goneFromRotation_reproof]
  have hheld : laneFails s l = (unitFails s (0x10 + l) 7).mapFault fun x =>
      { x with hold := true, holdFail := false, holdDone := some false, holdFrames := pipesRunning s, notRun := 0 } := by
    simp only [laneFails, hgone, pipesRunning_congr hpipes, if_true, Bool.true_and, Bool.not_true, State.mapFault, hrotates,
      Option.isNone_some, Bool.false_eq_true, if_false]
  rw [hheld]
  exact ⟨hgone, rfl, rfl, rfl, hreproof⟩

/-! ### ROTATION_SWAP -/

theorem rotationSwap_tests {s : State} (h : s.fault.lane = none ∨ s.fault.testing = true) : rotationSwap s = s := by
  rw [rotationSwap]
  split
  · rfl
  next l hlane =>
    rw [h.resolve_left (by rw [hlane]; exact Option.some_ne_none l)]
    rfl

section
variable {s : State} {l : Nat} (hlane : s.fault.lane = some l) (htesting : s.fault.testing = false)
include hlane htesting

/-- No swap comes before the re-proof and a frame start of each running pipe (R209). -/
theorem rotationSwap_held {ok : Bool} (hhold : s.fault.hold = true) (hdone : s.fault.holdDone = some ok)
    (hwaits : s.fault.reproof = true ∨ s.fault.holdFrames ≠ []) : rotationSwap s = s := by
  have hblocked : (s.fault.reproof || !s.fault.holdFrames.isEmpty) = true := by
    rw [Bool.or_eq_true, Bool.not_eq_true', List.isEmpty_eq_false_iff]
    exact hwaits
  simp only [rotationSwap, hlane, htesting, hhold, hdone, hblocked, Bool.false_eq_true, if_false, if_true]

/-- A test that was not run is done again (R205). -/
theorem rotationSwap_again (hhold : s.fault.hold = false) (hnotRun : s.fault.notRun = 1) :
    rotationSwap s = s.mapFault fun x => { x with testing := true, slotAt := s.time.uptime } := by
  simp only [rotationSwap, hlane, htesting, hhold, hnotRun, Bool.false_eq_true, if_false, if_true]

theorem rotationSwap_swaps (hhold : s.fault.hold = false) (hnotRun : s.fault.notRun ≠ 1) : rotationSwap s = swapLanes s l := by
  simp only [rotationSwap, hlane, htesting, hhold, hnotRun, Bool.false_eq_true, if_false]

end

/-- A slot of lane `n` has begun, another one waits out, and the swap is counted. -/
def slotBegun (s : State) (n : Nat) (waits : Option Nat) : State :=
  ((beginSlot s n).mapFault fun x => { x with waitLane := waits }).addFld F.blendSwapsCount 1

theorem slotBegun_regs (s : State) (n : Nat) (waits : Option Nat) : SameRegsBut (· = A.blendSwaps) s (slotBegun s n waits) :=
  fun a ha => State.reg_addFld_other _ F.blendSwapsCount a 1 ha

theorem slotBegun_count (s : State) (n : Nat) (waits : Option Nat) :
    (slotBegun s n waits).fld F.blendSwapsCount = min 16777215 (s.fld F.blendSwapsCount + 1) :=
  (State.fld_addFld_self _ F.blendSwapsCount 1 ⟨by decide, by decide⟩).trans (Nat.min_comm _ _)

theorem slotBegun_touches (s : State) (n : Nat) (waits : Option Nat) : TouchesOnly [.regs, .fault] s (slotBegun s n waits) :=
  (State.touches_of_hide [.regs, .fault] rfl fun d => (State.addFld_hide (by decide) d _ _ _).trans
    ((State.mapFault_hide (by decide) d _ _).trans (State.mapFault_hide (by decide) d _ _))).1

/-- The lane that waits out at a swap: none, unless the next lane is retired (R207). -/
def waitsOut (s : State) (l : Nat) : Option Nat :=
  if (s.unit (0x10 + nextLane s l)).retired then (if (s.unit (0x10 + l)).retired then s.fault.waitLane else some l) else none

/-- A swap while no lane is due to return begins the slot of the next lane of the profile (R205, R207). -/
theorem swapLanes_begins {s : State} (hdue : lanesDue s = []) (hlanes : 2 ≤ lanesIn s) (l : Nat) :
    swapLanes s l = slotBegun s (nextLane s l) (waitsOut s l) := by
  simp only [swapLanes, hdue, State.each, List.foldl_nil]
  exact checkLanes_of_two (le_of_le_of_eq hlanes (lanesIn_congr (slotBegun_regs s _ _ _ (by decide)) rfl rfl).symm)

/-! ### ROTATION_LATE -/

theorem rotationLate_ignored {s : State} {l : Nat}
    (h : profileLanes s < l ∨ s.fault.lane = none ∨ s.fault.lateFired.contains l = true) : rotationLate s l = s := by
  refine if_pos ?_
  rcases h with h | h | h
  · simp only [h, decide_true, Bool.true_or]
  · simp only [h, Option.isNone_none, Bool.or_true, Bool.true_or]
  · simp only [h, Bool.or_true, Bool.true_or]

/-- ROTATION_LATE of a lane of the profile that has not fired since its last result. -/
theorem rotationLate_fires {s : State} {l : Nat} (hprofile : l ≤ profileLanes s) (hlane : s.fault.lane ≠ none)
    (hfired : s.fault.lateFired.contains l = false) (htest : s.fault.lane ≠ some l ∨ s.fault.testing = false) :
    rotationLate s l = raise (s.mapFault fun x => { x with lateFired := x.lateFired ++ [l] }) 7 := by
  refine if_neg ?_
  have htest' : (decide (s.fault.lane = some l) && s.fault.testing) = false := by
    rwa [Bool.and_eq_false_iff, decide_eq_false_iff_not]
  rw [hfired, htest', decide_eq_false (by omega), Option.isNone_eq_false_iff.2 (Option.isSome_iff_ne_none.2 hlane)]
  decide

theorem rotationLate_touches (s : State) (l : Nat) :
    TouchesOnly [.regs, .pow, .hw, .out, .src, .fault] s (rotationLate s l) ∧ (rotationLate s l).pending = s.pending :=
  State.touches_of_hide [.regs, .pow, .hw, .out, .src, .fault] rfl fun d => rotationLate_hide (by decide) d s l

theorem rotationLate_onlyRegs (s : State) (l : Nat) : OnlyRegs (fun _ => False) s (rotationLate s l) := by
  intro a _ ha
  rw [rotationLate]
  split
  · rfl
  · exact raise_reg _ 7 a (by decide) (by unfold evtReg; omega)

/-! ### The commands -/

theorem leaves_lbistResult {s t : State} {r : Lbist} (hup : s.isUp) (h : lbistResult s r = t) : Leaves (.lbistResult r) s (settle t) :=
  leaves_whenUp (f := fun s => settle (lbistResult s r)) rfl hup (congrArg settle h)

theorem leaves_rotationSwap {s t : State} (hup : s.isUp) (h : rotationSwap s = t) : Leaves .rotationSwap s (settle t) :=
  leaves_whenUp (f := fun s => settle (rotationSwap s)) rfl hup (congrArg settle h)

theorem exec_rotationLate {s : State} (hup : s.isUp) (l : Fin 17) : exec (.rotationLate l) s = .next (rotationLate s l) :=
  whenUp_next (f := fun s => rotationLate s l) hup (rotationLate_touches s l).2

end Sys2Proof.Machine

namespace Sys2Proof.Proofs.BlendColour

open Sys2Proof.Machine

/-- Settles O52, result by result and swap by swap: each command's equation names the state that is left before what waits goes on. -/
theorem laneRotation : Obligations.LaneRotation := by
  refine ⟨fun l s hup hlane hl htesting hhold hserving => ?pass, fun l s hup hlane hl htesting hhold hfirst => ?notRun,
    fun l s hup hlane hl htesting hhold hfails => ?recovers,
    fun l s hup hlane hl htesting hhold hlanes hserving hretest hmany => ?retires,
    fun l ok s hup hlane htesting hhold hdone hwaits => leaves_rotationSwap hup (rotationSwap_held hlane htesting hhold hdone hwaits),
    fun r s hup h => leaves_lbistResult hup (lbistResult_untested h r),
    fun l s hup hlane htesting hhold hnotRun hdue hlanes => ?swaps,
    fun l s hup hlane htesting hhold hnotRun => leaves_rotationSwap hup (rotationSwap_again hlane htesting hhold hnotRun),
    fun s hup h => leaves_rotationSwap hup (rotationSwap_tests h),
    fun l s hup hprofile hlane hfired htest => ?late,
    fun l s h => whenUp_same (f := fun s => rotationLate s l) (rotationLate_ignored h)⟩
  case pass =>
    exact settles_of_leaves (leaves_lbistResult hup (lbistResult_pass hlane htesting hhold hserving))
      ⟨resultShown_result s 0 (besideResult_passes l) (by decide), resultShown_count s l 1 0 (besideResult_passes l),
        resultShown_fault s l 1 _ 0, fun a ha => resultShown_regs s l 1 _ 0 a (not_or.2 ⟨ha, ha⟩), resultShown_touches s l 1 _ 0⟩
  case notRun =>
    exact settles_of_leaves (leaves_lbistResult hup (lbistResult_notRun hlane htesting hhold hfirst))
      ⟨resultShown_result s 1 besideResult_notRun (by decide), resultShown_count s l 3 1 besideResult_notRun,
        resultShown_fault s l 3 _ 1, resultShown_regs s l 3 F.blendTestNotRunCount 1, resultShown_touches s l 3 _ 1⟩
  case recovers =>
    obtain ⟨hserving, -⟩ := id hfails
    have hshown : FailsFirst (resultShown s l 2 F.blendTestFailsCount 0) (0x10 + l) := hfails
    obtain ⟨hheld, hheldFail, hdone, howed, htested, hframes⟩ := laneFails_holds hl hshown
    have hfld {f : Fld} (hf : f.addr < 0xA0000) := State.fld_congr (f := f) (laneFails_reg hl hshown
      (not_evtReg_of_lt hf) (ne_of_lt (hf.trans (by decide))) (ne_of_lt (hf.trans (by decide))))
    have hcount := resultShown_regs s l 2 F.blendTestFailsCount 0 A.faultFailures
      (not_or.2 ⟨ne_of_gt ((blendLaneStat_lt hl).trans (by decide)), by decide⟩)
    exact settles_of_leaves (leaves_lbistResult hup (lbistResult_fail hlane htesting hhold hserving))
      ⟨hheld, hheldFail, hdone, howed, htested, hframes,
        (hfld (blendLaneStat_lt hl)).trans (resultShown_result s 0 besideResult_fails (by decide)),
        (hfld (by decide)).trans (resultShown_count s l 2 0 besideResult_fails),
        (laneFails_recovers hl hshown).of_same (resultShown_unit s l 2 _ 0) rfl hcount⟩
  case retires =>
    have hprofile := resultShown_regs s l 2 F.blendTestFailsCount 0 A.sysProfile (not_or.2 ⟨ne_of_lt (sysProfile_lt l), by decide⟩)
    have hshown : lanesIn (resultShown s l 2 F.blendTestFailsCount 0) = lanesIn s := lanesIn_congr hprofile rfl rfl
    exact settles_of_leaves (leaves_lbistResult hup (lbistResult_fail hlane htesting hhold hserving))
      (laneFails_last (s := resultShown s l 2 F.blendTestFailsCount 0) hl hlane hserving hretest hmany (hlanes.trans_eq hshown.symm))
  case swaps =>
    have hbegins := (rotationSwap_swaps hlane htesting hhold hnotRun).trans (swapLanes_begins hdue hlanes l)
    exact settles_of_leaves (leaves_rotationSwap hup hbegins)
      ⟨rfl, rfl, rfl, rfl, rfl, rfl, slotBegun_count .., slotBegun_regs s _ _, slotBegun_touches s _ _⟩
  case late =>
    refine .of_next (exec_rotationLate hup l) ⟨?_, rotationLate_onlyRegs s l, (rotationLate_touches s l).1.mono (by decide)⟩
    rw [rotationLate_fires hprofile hlane hfired htest, raise_fault]
    rfl

end Sys2Proof.Proofs.BlendColour
end

section
/-! PROOFS. Scan-out and time (spec 10, R258 to R266): what PTP_SYNC leaves for each range of the offset, what a period of REFCLK adds
to the clocks, and what it leaves where nothing is asked of the ports. Two statements fail: a step of the bus notes when its unit
begins, and a pipe that stops at its frame start notes the peak of the frame that ends. -/

namespace Sys2Proof.Machine

variable {s t : State}

/-! ### gPTP (R263, R264) -/

theorem ptp_heard {d : BitVec 7} (hruns : ptpRuns s = true) (hdomain : s.fld F.pipePtpCfgDomain = d.toNat) :
    (ptpRuns s && s.fld F.pipePtpCfgDomain == d.toNat) = true := by
  rw [hruns, hdomain, beq_self_eq_true, Bool.and_self]

theorem ptp_unheard {d : BitVec 7} (h : ptpRuns s = false ∨ s.fld F.pipePtpCfgDomain ≠ d.toNat) :
    ¬(ptpRuns s && s.fld F.pipePtpCfgDomain == d.toNat) = true := by
  rw [Bool.and_eq_true, beq_iff_eq]
  rintro ⟨hruns, hdomain⟩
  exact h.elim (fun h => absurd hruns (by rw [h]; decide)) fun h => h hdomain

theorem raise_time (s : State) (k : Nat) : (raise s k).time = s.time :=
  (State.touches_of_hide Part.events rfl fun d => raise_hide rfl d s k).1 .time (by decide)

/-- The holdover that begins: HOLDOVER set, a slew ended. -/
theorem holdOver_on (hen : s.flag F.pipePtpCfgEn = true) (hfirst : s.flag F.pipeTimeStatHoldover = false) :
    holdOver s = raise { s.setFld F.pipeTimeStatHoldover 1 with time := { s.time with slew := 0 } } 26 := by
  rw [holdOver, hen, hfirst]
  rfl

theorem holdOver_again (h : s.flag F.pipeTimeStatHoldover = true) : holdOver s = s := by
  rw [holdOver, h, Bool.not_true, Bool.and_false]
  rfl

theorem holdOver_touches (s : State) : TouchesOnly (Part.shared ++ [.time]) s (holdOver s) ∧ (holdOver s).pending = s.pending := by
  obtain ⟨htouches, hpending⟩ := State.touches_of_hide (Part.events ++ [.time]) rfl fun d => holdOver_hide rfl d s
  exact ⟨htouches.mono (by decide), hpending⟩

theorem exec_timeHoldover (hup : s.isUp) : exec .timeHoldover s = .next (holdOver s) := whenUp_next hup (holdOver_touches s).2

/-! ### An occurrence that is counted first (R327) -/

theorem markSpi_count (s : State) (k : Nat) : (markSpi s k).fld (F.evtSrcStatCount k) = s.fld (F.evtSrcStatCount k) := by
  rw [markSpi]
  split
  · exact State.fld_setFld_apart _ _ (by simp only [F.evtSrcStatSpiFlag, F.evtSrcStatCount]; decide)
  · rfl

theorem markSpi_touches (s : State) (k : Nat) : TouchesOnly [.regs] s (markSpi s k) :=
  (State.touches_of_hide [.regs] rfl fun d => markSpi_hide rfl d s k).1

theorem markSpi_edgeFiltered (s : State) (k : Nat) : edgeFiltered (markSpi s k) k = edgeFiltered s k := by
  have hreg : (markSpi s k).reg (A.evtSrcCfg k) = s.reg (A.evtSrcCfg k) := by
    rw [markSpi]
    split
    · exact State.reg_setFld_other _ _ _ _ (by simp only [F.evtSrcStatSpiFlag, A.evtSrcStat, A.evtSrcCfg]; omega)
    · rfl
  have hfilter : (markSpi s k).fld (F.evtSrcCfgFilter k) = s.fld (F.evtSrcCfgFilter k) := State.fld_congr hreg
  have hsrc : (markSpi s k).src = s.src := markSpi_touches s k .src (by decide)
  have htime : (markSpi s k).time = s.time := markSpi_touches s k .time (by decide)
  simp only [edgeFiltered, State.source, hsrc, htime, hfilter]

theorem wakeFor_srcStat (s : State) (k j : Nat) : (wakeFor s k).reg (A.evtSrcStat j) = s.reg (A.evtSrcStat j) := by
  have hqueue : s.fld (F.evtSrcCfgQueue k) < 8 := s.fld_lt_eight _ rfl
  simp only [wakeFor]
  split
  · refine (wakeSome_beside _ (by simp only [A.evtSrcStat, A.evtLinkSleep]; omega)).trans (s.reg_setFld_other _ _ _ ?_)
    simp only [F.evtQctlState, A.evtQctl, A.evtSrcStat]
    omega
  · rfl

theorem wakeFor_src (s : State) (k : Nat) : (wakeFor s k).src = s.src :=
  (State.touches_of_hide [.regs, .pow, .hw, .out] rfl fun d => wakeFor_hide rfl d s k).1 .src (by decide)

/-- An occurrence that is counted while none is held: COUNT is 1, with the time of the base. -/
theorem raise_first {k : Nat} (hfilter : edgeFiltered s k = false) (hen : s.flag (F.evtSrcCfgEn k) = true)
    (hcount : s.fld (F.evtSrcStatCount k) = 0) :
    (raise s k).fld (F.evtSrcStatCount k) = 1 ∧ ((raise s k).source k).stamp = s.time.base := by
  have htime : (markSpi s k).time = s.time := markSpi_touches s k .time (by decide)
  have hraise : raise s k = countOccurrence (markSpi s k) k false := by
    simp only [raise, markSpi_srcCfgEn, markSpi_edgeFiltered, hen, hfilter, Bool.not_false, Bool.and_self, if_true]
  rw [hraise, countOccurrence, if_pos ((markSpi_count s k).trans hcount)]
  constructor
  · exact (State.fld_congr (wakeFor_srcStat ..)).trans (State.fld_setFld_of_lt _ (by simp only [F.evtSrcStatCount]; decide)
      (by simp only [F.evtSrcStatCount]; decide))
  · rw [State.source, wakeFor_src]
    show (State.source (State.setSource _ k _) k).stamp = _
    rw [State.source_setSource, if_pos rfl, htime]

/-! ### PTP_SYNC (R264) -/

/-- The clocks as PTP_SYNC leaves them, the offset, and the end of a holdover. -/
def ptpNoted (s : State) (off : Int) (t : TimeState) : State :=
  (({ s with time := t }).setFld F.pipePtpOffsetOffset (unsigned 32 (max (-2147483648) (min 2147483647 off)))).setFld
    F.pipeTimeStatHoldover 0

/-- The clocks once PTP_SYNC has set the rate. -/
def TimeState.synced (t : TimeState) (rate : Int) : TimeState :=
  { t with ratePpb := max (-250000) (min 250000 rate), lastSync := some t.uptime }

theorem TimeState.synced_rate (t : TimeState) (rate : Int) : (t.synced rate).ratePpb.natAbs ≤ 250000 := by
  simp only [TimeState.synced]
  omega

/-- The base steps forward. -/
def ptpStepped (s : State) (off rate : Int) : State :=
  ((ptpNoted s off { s.time.synced rate with base := s.time.base + BitVec.ofInt 64 off, slew := 0 }).addFld
    F.pipeTimeStatSteps 1).setFld F.pipeTimeStatSynced 1

theorem ptpSync_far {off : Int} (h : 1000000 < off) (rate : Int) : ptpSync s off rate = raise (ptpStepped s off rate) 25 := by
  rw [ptpSync, if_pos h]
  rfl

theorem ptpSync_near {off : Int} (hle : off ≤ 1000000) (hge : -1000000000 ≤ off) (rate : Int) :
    ptpSync s off rate = (ptpNoted s off { s.time.synced rate with slew := off * 1000000000 }).setFld F.pipeTimeStatSynced
      (decide (off.natAbs ≤ 1000)).toNat := by
  rw [ptpSync, if_neg (by omega), if_neg (by omega)]
  rfl

theorem ptpSync_behind {off : Int} (h : off < -1000000000) (rate : Int) :
    ptpSync s off rate = (ptpNoted s off { s.time with lastSync := some s.time.uptime, slew := 0 }).setFld F.pipeTimeStatSynced 0 := by
  rw [ptpSync, if_neg (by omega), if_pos h]
  rfl

theorem ptpNoted_reg (s : State) (off : Int) (t : TimeState) {a : Nat} (h : ¬(a = A.pipePtpOffset ∨ a = A.pipeTimeStat)) :
    (ptpNoted s off t).reg a = s.reg a := by
  obtain ⟨hoffset, hstat⟩ := not_or.1 h
  rw [ptpNoted, State.reg_setFld_other _ _ _ _ hstat, State.reg_setFld_other _ _ _ _ hoffset]
  rfl

theorem ptpNoted_steps (s : State) (off : Int) (t : TimeState) :
    (ptpNoted s off t).fld F.pipeTimeStatSteps = s.fld F.pipeTimeStatSteps := by
  rw [ptpNoted, State.fld_setFld_apart _ _ (by decide), State.fld_setFld_reg _ _ _ _ (by decide)]
  rfl

theorem ptpNoted_touches (s : State) (off : Int) (t : TimeState) (f : Fld) (v : Nat) :
    TouchesOnly [.regs, .time] s ((ptpNoted s off t).setFld f v) := by
  refine (State.touches_of_hide [.regs, .time] rfl fun d => ?_).1
  rw [State.setFld_hide rfl, ptpNoted, State.setFld_hide rfl, State.setFld_hide rfl]
  rfl

theorem ptpStepped_reg (s : State) (off rate : Int) {a : Nat} (h : ¬(a = A.pipePtpOffset ∨ a = A.pipeTimeStat)) :
    (ptpStepped s off rate).reg a = s.reg a := by
  obtain ⟨-, hstat⟩ := not_or.1 h
  rw [ptpStepped, State.reg_setFld_other _ _ _ _ hstat, State.reg_addFld_other _ _ _ _ hstat, ptpNoted_reg s off _ h]

theorem ptpStepped_steps (s : State) (off rate : Int) :
    (ptpStepped s off rate).fld F.pipeTimeStatSteps = min 255 (s.fld F.pipeTimeStatSteps + 1) := by
  rw [ptpStepped, State.fld_setFld_apart _ _ (by decide), State.fld_addFld_self _ _ _ ⟨by decide, by decide⟩, ptpNoted_steps,
    Nat.min_comm]
  rfl

theorem ptpSync_touches (s : State) (off rate : Int) :
    TouchesOnly (Part.shared ++ [.time]) s (ptpSync s off rate) ∧ (ptpSync s off rate).pending = s.pending := by
  obtain ⟨htouches, hpending⟩ := State.touches_of_hide (Part.events ++ [.time]) rfl fun d => ptpSync_hide rfl d s off rate
  exact ⟨htouches.mono (by decide), hpending⟩

/-- PTP_SYNC of the domain in hand. -/
theorem exec_ptpSync {d : BitVec 7} {off : Int} (hup : s.isUp) (hruns : ptpRuns s = true)
    (hdomain : s.fld F.pipePtpCfgDomain = d.toNat) (rate : Int) : exec (.ptpSync d off rate) s = .next (ptpSync s off rate) := by
  have htest : (if ptpRuns s && s.fld F.pipePtpCfgDomain == d.toNat then ptpSync s off rate else s) = ptpSync s off rate :=
    if_pos (ptp_heard hruns hdomain)
  rw [← htest]
  refine whenUp_next (f := fun s => if ptpRuns s && s.fld F.pipePtpCfgDomain == d.toNat then ptpSync s off rate else s) hup ?_
  rw [htest]
  exact (ptpSync_touches s off rate).2

/-- What a forward step of the base shows, before TIME_STEP counts it. -/
theorem ptpStepped_shows (s : State) (off rate : Int) {k : Nat} (hk : k < 1024) :
    edgeFiltered (ptpStepped s off rate) k = edgeFiltered s k ∧
    (ptpStepped s off rate).flag (F.evtSrcCfgEn k) = s.flag (F.evtSrcCfgEn k) ∧
    (ptpStepped s off rate).fld (F.evtSrcStatCount k) = s.fld (F.evtSrcStatCount k) := by
  have hcfg : (ptpStepped s off rate).reg (A.evtSrcCfg k) = s.reg (A.evtSrcCfg k) :=
    ptpStepped_reg s off rate (by simp only [A.evtSrcCfg, A.pipePtpOffset, A.pipeTimeStat]; omega)
  have hstat : (ptpStepped s off rate).reg (A.evtSrcStat k) = s.reg (A.evtSrcStat k) :=
    ptpStepped_reg s off rate (by simp only [A.evtSrcStat, A.pipePtpOffset, A.pipeTimeStat]; omega)
  have hfilter : (ptpStepped s off rate).fld (F.evtSrcCfgFilter k) = s.fld (F.evtSrcCfgFilter k) := State.fld_congr hcfg
  have hen : (ptpStepped s off rate).fld (F.evtSrcCfgEn k) = s.fld (F.evtSrcCfgEn k) := State.fld_congr hcfg
  refine ⟨?_, by rw [State.flag, State.flag, hen], State.fld_congr hstat⟩
  rw [edgeFiltered, edgeFiltered, hfilter]
  rfl

/-! ### A period of REFCLK (R263, R265; log 2) -/

/-- What a powered module does in a period of REFCLK. -/
def idled (s : State) : State := portsGoOn (releaseSilentCams (countCorrected (countPeriod (refclkTick s))))

theorem idled_touches (s : State) :
    TouchesOnly (Part.events ++ [.free, .precHeld, .scene, .pipes, .camLines, .camLags, .camEarly, .gates, .gcl, .levels, .fetches,
      .dma, .scans, .cams, .groups, .light, .perf]) (refclkTick s) (idled s) ∧ (idled s).pending = s.pending := by
  refine State.touches_of_hide _ rfl fun d => ?_
  rw [idled, portsGoOn_hide rfl, releaseSilentCams_hide rfl, countCorrected_hide rfl, countPeriod_hide rfl]

/-- A step on an empty queue is a period of REFCLK. -/
theorem step_idle (hqueue : s.pending = []) (hup : s.isUp) : step s = .next (idled s) := by
  rw [step, hqueue]
  exact whenUp_next (f := idled) hup (idled_touches s).2

theorem step_unpowered (hqueue : s.pending = []) (hup : ¬s.isUp) : step s = .next s := by
  rw [step, hqueue]
  exact whenUp_not s _ hup

theorem idled_time (s : State) : (idled s).time = (refclkTick s).time := (idled_touches s).1 .time (by decide)

/-- The rate in force over a period, with a slew at the limit. -/
def TimeState.pace (t : TimeState) : Int := if t.slew = 0 then t.ratePpb else if 0 < t.slew then 250000 else -250000

/-- What a period adds to the base in units of 10⁻⁹ ns, with the fraction that stood. -/
def TimeState.gain (t : TimeState) : Nat := t.fracNs + (40000000000 + 40 * t.pace).toNat

theorem refclkTick_base (s : State) : (refclkTick s).time.base = s.time.base + BitVec.ofNat 64 (s.time.gain / 1000000000) := rfl

theorem refclkTick_fracNs (s : State) : (refclkTick s).time.fracNs = s.time.gain % 1000000000 := rfl

/-- A period adds 39 to 41 whole ns. -/
theorem TimeState.gain_bounds {t : TimeState} (hfrac : t.fracNs < 1000000000) (hrate : t.ratePpb.natAbs ≤ 250000) :
    39 ≤ t.gain / 1000000000 ∧ t.gain / 1000000000 ≤ 41 := by
  have hpace : -250000 ≤ t.pace ∧ t.pace ≤ 250000 := by
    unfold TimeState.pace
    split
    · omega
    · split <;> omega
  unfold TimeState.gain
  omega

/-! ### A module in which nothing moves (R243) -/

/-- What each subscriber of the ports has still to move. -/
def State.asked (s : State) : List Nat := (planarReqs s ++ twinReqs s ++ transfers s).map Req.left

theorem requests_eq_nil : requests s = [] ↔ ∀ n ∈ s.asked, n = 0 := by
  simp only [requests, State.asked, List.filter_eq_nil_iff, List.forall_mem_map, decide_eq_true_eq, Nat.not_lt, Nat.le_zero]

theorem planarReqs_left (h : t.fetches = s.fetches) : (planarReqs t).map Req.left = (planarReqs s).map Req.left := by
  simp only [planarReqs, h, List.map_flatMap]
  refine List.flatMap_congr fun e _ => ?_
  cases e.2.lines with
  | nil => rfl
  | cons l ls =>
    dsimp only
    split
    · rfl
    · simp only [List.map_cons, List.map_nil]

theorem twinReqs_left (s : State) : (twinReqs s).map Req.left = s.scene.twinAsks.map fun _ => 64 := by
  unfold twinReqs
  rw [List.map_map]
  exact List.map_congr_left fun ⟨_, _, _⟩ _ => rfl

theorem camReqs_left (h : t.cams = s.cams) : (camReqs t).map Req.left = (camReqs s).map Req.left := by
  simp only [camReqs, h, List.map_flatMap]
  refine List.flatMap_congr fun e _ => ?_
  cases e.2.waiting <;> rfl

theorem transfers_left (hscene : t.scene = s.scene) (hcams : t.cams = s.cams) (hscans : t.scans = s.scans) (hdma : s.dma = [])
    (hdma' : t.dma = []) : (transfers t).map Req.left = (transfers s).map Req.left := by
  simp only [transfers, List.map_append, camReqs_left hcams, loadReqs, loadInHand, dmaReqs, scanReqs, fenceReqs, hscene, hscans, hdma,
    hdma', List.flatMap_nil]

/-- Where the channels have nothing in hand, what is asked depends on the fetches, the scene, the cameras and the scans. -/
theorem asked_congr (hfetches : t.fetches = s.fetches) (hscene : t.scene = s.scene) (hcams : t.cams = s.cams)
    (hscans : t.scans = s.scans) (hdma : s.dma = []) (hdma' : t.dma = []) : t.asked = s.asked := by
  simp only [State.asked, List.map_append, planarReqs_left hfetches, twinReqs_left, hscene,
    transfers_left hscene hcams hscans hdma hdma']

theorem State.each_eq_self {α : Type} (s : State) (l : List α) (f : State → α → State) (h : ∀ x ∈ l, f s x = s) :
    s.each l f = s := by
  induction l with
  | nil => rfl
  | cons x l ih =>
    rw [State.each, List.foldl_cons, h x List.mem_cons_self]
    exact ih fun y hy => h y (List.mem_cons_of_mem x hy)

theorem servePorts_idle (hdma : s.dma = []) (hasked : requests s = []) : servePorts s = s := by
  have hfill : fillBlocks s = s := by
    rw [fillBlocks, hdma]
    rfl
  rw [servePorts, hfill, hasked]
  rfl

theorem chan_idle (hdma : s.dma = []) (c : Nat) : s.chan c = dmaInit := by
  rw [State.chan, hdma]
  rfl

theorem endEntries_idle (hdma : s.dma = []) : endEntries s = s :=
  s.each_eq_self _ _ fun c _ => by
    rw [chan_idle hdma]
    rfl

theorem takeEntries_idle (hdma : s.dma = []) : takeEntries s = s :=
  s.each_eq_self _ _ fun c _ => by
    rw [chan_idle hdma]
    rfl

theorem askAll_idle (hdma : s.dma = []) : askAll s = s := by
  rw [askAll, hdma]
  rfl

theorem decideParts_idle (harmed : s.scene.armed = []) : decideParts s = s := by
  rw [decideParts, harmed]
  rfl

/-- Nothing asked, no channel at work and no part armed: the ports leave the state as it is. -/
theorem portsGoOn_idle (hdma : s.dma = []) (hasked : requests s = []) (harmed : s.scene.armed = []) : portsGoOn s = s := by
  rw [portsGoOn, endEntries_idle hdma, serveRuns, servePorts_idle hdma hasked, takeEntries_idle hdma, servePorts_idle hdma hasked,
    askAll_idle hdma, decideParts_idle harmed]

theorem releaseSilentCams_idle (h : ∀ x ∈ s.regs.pend, x.cam = none) : releaseSilentCams s = s := by
  rw [releaseSilentCams, if_neg]
  simpa using h

/-- The clocks and the counters after a period, before the ports go on. -/
def periodCounted (s : State) : State := countCorrected (countPeriod (refclkTick s))

theorem periodCounted_touches (s : State) :
    TouchesOnly [.free, .regs, .time, .perf] s (periodCounted s) ∧ (periodCounted s).pending = s.pending := by
  refine State.touches_of_hide _ rfl fun d => ?_
  rw [periodCounted, countCorrected_hide rfl, countPeriod_hide rfl]
  rfl

/-- What a period counts of the corrected errors of one memory channel. -/
def correctedOn (s : State) (m : Nat) : State :=
  if mcInService s m then (s.addFld (F.faultMcCeCount m) (Config.corrected s.free)).freshen else s

theorem correctedOn_reg (s : State) {a : Nat} (m : Nat) (h : a ≠ A.faultMcCe m) : (correctedOn s m).reg a = s.reg a := by
  rw [correctedOn]
  split
  · exact s.reg_addFld_other _ _ _ h
  · rfl

theorem countPeriod_refclkTick_regs (s : State) : (countPeriod (refclkTick s)).regs = s.regs :=
  State.regs_of_hide (t := countPeriod (refclkTick s)) (s := refclkTick s) (m := 0x800000000) (by decide) (countPeriod_hide rfl ..)

theorem periodCounted_reg (s : State) {a : Nat} (h : ∀ m : Fin 4, a ≠ A.faultMcCe m) : (periodCounted s).reg a = s.reg a :=
  calc (periodCounted s).reg a
    _ = (correctedOn (correctedOn (correctedOn (correctedOn (countPeriod (refclkTick s)) 0) 1) 2) 3).reg a := rfl
    _ = (countPeriod (refclkTick s)).reg a := by
      rw [correctedOn_reg _ 3 (h 3), correctedOn_reg _ 2 (h 2), correctedOn_reg _ 1 (h 1), correctedOn_reg _ 0 (h 0)]
    _ = s.reg a := State.reg_congr (countPeriod_refclkTick_regs s) a

theorem periodCounted_pend (s : State) : (periodCounted s).regs.pend = s.regs.pend := by
  refine (State.each_keeps (·.regs.pend) _ _ _ fun s m => ?_).trans (congrArg RegFile.pend (countPeriod_refclkTick_regs s))
  split <;> rfl

theorem idled_idle (hasks : requests s = []) (hdma : s.dma = []) (harmed : s.scene.armed = [])
    (hcams : ∀ x ∈ s.regs.pend, x.cam = none) : idled s = periodCounted s := by
  obtain ⟨htouches, -⟩ := periodCounted_touches s
  have hpend : (periodCounted s).regs.pend = s.regs.pend := periodCounted_pend s
  have hdma' : (periodCounted s).dma = [] := (htouches .dma (by decide)).trans hdma
  have hscene : (periodCounted s).scene = s.scene := htouches .scene (by decide)
  have hasked : (periodCounted s).asked = s.asked := asked_congr (htouches .fetches (by decide)) hscene (htouches .cams (by decide))
    (htouches .scans (by decide)) hdma hdma'
  have hasks' : requests (periodCounted s) = [] := requests_eq_nil.2 (by rw [hasked]; exact requests_eq_nil.1 hasks)
  show portsGoOn (releaseSilentCams (periodCounted s)) = _
  rw [releaseSilentCams_idle (by rw [hpend]; exact hcams), portsGoOn_idle hdma' hasks' (by rw [hscene, harmed])]

/-! ### The pipes behind a command -/

theorem State.pipes_of_hide {m : Nat} (hm : m.testBit 14 = false) (h : t.hide m s = s.hide m s) : t.pipes = s.pipes := by
  have hpipes := congrArg State.pipes h
  simpa only [State.hide, hm, Bool.false_eq_true, if_false] using hpipes

theorem State.pipes_of_gating (h : t.gating = s.gating) : t.pipes = s.pipes := congrArg (fun g => g.2.1) h

theorem beforeRings_pipes (s : State) : (beforeRings s).pipes = s.pipes :=
  State.pipes_of_hide (m := 0x8010004b6) (by decide)
    ((State.each_hide _ _ _ _ _ fun s _ => drainPrec_hide rfl ..).trans (drainReleases_hide rfl ..))

/-- Where no part is armed, what goes on after a command leaves the pipes as they are. -/
theorem settle_pipes (harmed : s.scene.armed = []) : (settle s).pipes = s.pipes := by
  have hasking : (beforeRings s).scene.armed = s.scene.armed := congrArg Prod.fst (beforeRings_asking s)
  have hwaits : Waits (beforeRings s) (settle s) :=
    (((ringsGoOn_waits _).trans (armWritten_waits _)).trans (Waits.of_still (pumpReads_still _))).trans (portsGoOn_waits _)
  obtain ⟨hgating, -⟩ := hwaits (by rw [hasking, harmed]; rfl)
  exact (State.pipes_of_gating hgating).trans (beforeRings_pipes s)

theorem settle_pipe (harmed : s.scene.armed = []) (p : Nat) : (settle s).pipe p = s.pipe p :=
  congrArg (smGet pipeInit · p) (settle_pipes harmed)

end Sys2Proof.Machine

namespace Sys2Proof.Proofs.ScanoutTiming

open Sys2Proof.Machine

/-- Settles O47, command by command: each meaning's test holds or fails by the clause's hypotheses. -/
theorem peerDelay : Obligations.PeerDelay := by
  refine ⟨fun d q s hup hruns hdomain => leaves_whenUp rfl hup (if_pos (ptp_heard hruns hdomain)),
    fun d q s h => whenUp_same (if_neg (ptp_unheard h)), fun s hup hruns => leaves_whenUp rfl hup (if_pos hruns),
    fun d q n s hup hruns hdomain hout => leaves_whenUp rfl hup (if_pos ?_), fun d q n s hout => whenUp_same (if_neg ?_),
    fun s hup hen hfirst => .of_next (exec_timeHoldover hup) ⟨?_, ?_, fun a ha hevt => ?_, (holdOver_touches s).1⟩,
    fun s h => whenUp_same (h.elim holdOver_off holdOver_again)⟩
  · rw [ptp_heard hruns hdomain, hout, beq_self_eq_true, Bool.and_self]
  · rw [Bool.and_eq_true, beq_iff_eq]
    exact fun h => hout h.2
  · rw [holdOver_on hen hfirst, raise_fld _ _ _ (by decide) (not_evtReg_of_lt (by decide))]
    exact State.fld_setFld_of_lt s (by decide) (by decide)
  · rw [holdOver_on hen hfirst, raise_time]
  · rw [holdOver_on hen hfirst, raise_reg _ _ _ (by decide) (by unfold evtReg; omega)]
    exact State.reg_setFld_other s _ _ _ ha

/-- Settles O46: a period gains what its pace gives, and PTP_SYNC has one equation for each range of the offset. -/
theorem timeBase : Obligations.TimeBase := by
  refine ⟨fun s hup hqueue hfrac hrate => ⟨idled s, step_idle hqueue hup, ?_⟩,
    fun d off rate s hup hruns hdomain hfar => .of_next (exec_ptpSync hup hruns hdomain rate) ?far,
    fun d off rate s hup hruns hdomain hle hge => .of_next (exec_ptpSync hup hruns hdomain rate) ?near,
    fun d off rate s hup hruns hdomain hbehind => .of_next (exec_ptpSync hup hruns hdomain rate) ?behind,
    fun d off rate s h => whenUp_same (if_neg (ptp_unheard h))⟩
  · obtain ⟨hlow, hhigh⟩ := TimeState.gain_bounds hfrac hrate
    have hgained : ((idled s).time.base - s.time.base).toNat = s.time.gain / 1000000000 := by
      rw [idled_time, refclkTick_base, add_sub_cancel_left, BitVec.toNat_ofNat, Nat.mod_eq_of_lt (by omega)]
    rw [hgained, idled_time, refclkTick_fracNs]
    exact ⟨Nat.mod_lt _ (by decide), rfl, hlow, hhigh⟩
  case far =>
    have hfld {f : Fld} (hf : f.addr < 0xA0000) := raise_fld (ptpStepped s off rate) 25 f (by decide) (not_evtReg_of_lt hf)
    have htouches := (ptpSync_touches s off rate).1
    rw [ptpSync_far hfar] at htouches ⊢
    rw [raise_time, hfld (by decide), hfld (by decide)]
    refine ⟨rfl, rfl, s.time.synced_rate rate, rfl, State.fld_setFld_of_lt _ (by decide) (by decide), ptpStepped_steps .., ?_, ?_,
      htouches⟩
    · intro hfilter hen hcount
      obtain ⟨hfilter', hen', hcount'⟩ := ptpStepped_shows s off rate (k := 25) (by decide)
      exact raise_first (hfilter'.trans hfilter) (hen'.trans hen) (hcount'.trans hcount)
    · intro a ha hevt
      rw [raise_reg _ _ _ (by decide) (by unfold evtReg; omega), ptpStepped_reg s off rate ha]
  case near =>
    rw [ptpSync_near hle hge]
    exact ⟨rfl, State.fld_setFld_of_lt _ (by decide) (Bool.toNat_lt _),
      fun a ha => (State.reg_setFld_other _ _ _ _ (not_or.1 ha).2).trans (ptpNoted_reg s off _ ha), ptpNoted_touches _ _ _ _ _⟩
  case behind =>
    rw [ptpSync_behind hbehind]
    exact ⟨rfl, State.fld_setFld_of_lt _ (by decide) (by decide), ptpNoted_touches _ _ _ _ _⟩

/-- Settles O3: a period touches no ring, no memory and no unit, and where nothing is asked, held or armed it only counts. -/
theorem idlePeriod : Obligations.IdlePeriod := by
  refine ⟨fun s hqueue hup => ⟨idled s, step_idle hqueue hup, ?_⟩, fun s hqueue hup hasks hdma harmed hcams => ?_,
    fun s hqueue hup => step_unpowered hqueue hup⟩
  · obtain ⟨htouches, -⟩ := idled_touches s
    exact ⟨congrArg TimeState.uptime (idled_time s), htouches .rings (by decide),
      sameMemory_of_parts (htouches .mem (by decide)) (htouches .lost (by decide)), htouches .fault (by decide)⟩
  · have hidle := idled_idle hasks hdma harmed hcams
    exact ⟨periodCounted s, hidle ▸ step_idle hqueue hup, hidle ▸ congrArg TimeState.uptime (idled_time s),
      fun a ha => periodCounted_reg s fun m hm => ha ⟨m, hm⟩, (periodCounted_touches s).1⟩

/-- The state that a command leaves. -/
def leftBy (c : Instr) (s : State) : State :=
  match exec c s with
  | .next t => t
  | _ => s

theorem leftBy_of_leaves {c : Instr} {s t : State} (h : Leaves c s t) : leftBy c s = { t with pending := s.pending } := by
  rw [leftBy, h]

theorem leftBy_pipe {c : Instr} {s t : State} (h : Leaves c s t) (p : Nat) : (leftBy c s).pipe p = t.pipe p := by
  rw [leftBy_of_leaves h]
  rfl

theorem leftBy_fld {c : Instr} {s t : State} (h : Leaves c s t) (f : Fld) : (leftBy c s).fld f = t.fld f := by
  rw [leftBy_of_leaves h]
  rfl

/-- Pipe 0 is in the lead-in, 40 ns after reset. -/
def inLeadIn : State :=
  { State.reset with time := { timeReset with uptime := 40 }, pipes := [(0, { pipeInit with gen := .leadIn })] }

/-- A step on which nothing came late and nothing was wrong. -/
def onTime : StepReport := { missing := [], badAddr := [], loftEcc := [], late := [], wrong := [] }

theorem inLeadIn_noted : ((leftBy (.linePositionStep 0 onTime) inLeadIn).pipe 0).unitAt = 40 := by
  decide +kernel

/-- Refutes O43: a step of the bus also notes the time at which the unit begins, which its clause on the lead-in leaves as it was. -/
theorem not_busPositions : ¬Obligations.BusPositions := by
  rintro ⟨-, -, hleadIn, -⟩
  obtain ⟨u, hexec, hpipe, -, htouches⟩ := hleadIn 0 onTime inLeadIn rfl rfl rfl (by decide)
  have hscene : u.scene = inLeadIn.scene := htouches .scene (by decide)
  have hunit : (u.pipe 0).unitAt = (inLeadIn.pipe 0).unitAt := by rw [show u.pipe 0 = _ from hpipe]; rfl
  have hkept : (settle u).pipe 0 = u.pipe 0 := settle_pipe (by rw [hscene]; rfl) 0
  have hnoted := inLeadIn_noted
  rw [leftBy_pipe hexec, hkept, hunit] at hnoted
  exact absurd hnoted (by decide)

/-- Pipe 0 runs, shows 1 as its peak, and is not to run on. -/
def endingFrame : State := ({ State.reset with pipes := [(0, { pipeInit with gen := .running })] }).setFld (F.objPipeStatPeakSpans 0) 1

theorem endingFrame_noted : (leftBy (.frameStart 0 []) endingFrame).fld (F.objPipeStatPeakSpans 0) = 0 := by
  decide +kernel

theorem endingFrame_stopped : (stopPipe (releaseSilentCams endingFrame) 0).fld (F.objPipeStatPeakSpans 0) = 1 := by
  decide +kernel

/-- Refutes O44: a pipe that stops at its frame start notes the peak of the frame that ends, which the clause on the stop leaves out. -/
theorem not_frameStarts : ¬Obligations.FrameStarts := by
  rintro ⟨-, -, hstop, -⟩
  have hexec : Leaves (.frameStart 0 []) endingFrame (stopPipe (releaseSilentCams endingFrame) 0) :=
    hstop 0 [] endingFrame rfl (by decide +kernel) (by decide +kernel) (by decide +kernel)
  have hnoted := endingFrame_noted
  rw [leftBy_fld hexec, endingFrame_stopped] at hnoted
  exact absurd hnoted (by decide)

end Sys2Proof.Proofs.ScanoutTiming
end

section
/-! PROOFS. Records that cannot have issued (spec 04, R94, R111; spec 13, R336): where LINK_A can carry frames, the window of an open
session is full, and nothing has gone out, no record issued since the last command. PLL_STAT of PLL 0, where PREC_WR of a ring beyond
the eight would lie, then holds what it held. One lemma for each operation under `settle` says so. -/

namespace Sys2Proof.Machine

variable {r s t : State}

/-! ### A module that can send and has not -/

/-- LINK_A can carry frames, a session is open and the window is full, and nothing has gone out. -/
structure Hushed (s : State) : Prop where
  out : s.out = []
  opened : sessionOpen s = true
  usable : linkUsable s .a = true
  full : windowRoom s = false

/-- A state that is hushed in the end was so before, with the same word in PLL_STAT of PLL 0. -/
def Calm (r s : State) : Prop := Hushed s → Hushed r ∧ s.reg (A.pipePllStat 0) = r.reg (A.pipePllStat 0)

theorem Calm.refl (s : State) : Calm s s := fun h => ⟨h, rfl⟩

theorem Calm.trans (h : Calm r s) (h' : Calm s t) : Calm r t := fun ht =>
  have ⟨hs, hst⟩ := h' ht
  have ⟨hr, hrs⟩ := h hs
  ⟨hr, hst.trans hrs⟩

/-- A state in which something has gone out. -/
theorem Calm.of_out (h : s.out ≠ []) : Calm r s := fun hs => absurd hs.out h

theorem Calm.ite {p : Prop} [Decidable p] {a b : State} (ha : Calm r a) (hb : Calm r b) : Calm r (if p then a else b) := by
  split
  · exact ha
  · exact hb

theorem Calm.each {α : Type} {l : List α} {f : State → α → State} (hf : ∀ s x, Calm r s → Calm r (f s x)) (h : Calm r s) :
    Calm r (s.each l f) := by
  induction l generalizing s with
  | nil => exact h
  | cons x l ih => exact ih (hf s x h)

/-- An address beside those that say whether LINK_A can carry frames, and beside PLL_STAT of PLL 0. -/
abbrev Beside (a : Nat) : Prop := a ≠ A.ringLinkStat ∧ a ≠ A.evtLinkSleep ∧ a ≠ A.pipePllStat 0

theorem linkUsable_congr (hopen : sessionOpen s = true) (hcur : t.hw.cur = s.hw.cur)
    (hretired : t.fld F.ringLinkStatARetired = s.fld F.ringLinkStatARetired) (hup : t.fld F.ringLinkStatAUp = s.fld F.ringLinkStatAUp)
    (hasleep : t.fld F.evtLinkSleepAAsleep = s.fld F.evtLinkSleepAAsleep) : linkUsable t .a = linkUsable s .a := by
  obtain ⟨c, hc⟩ := Option.isSome_iff_exists.1 hopen
  simp only [linkUsable, linkEnabled, linkRetired, linkAsleep, linkIsUp, hwCtlNow, hcur, hc, State.flag, hretired, hup, hasleep]
  rfl

/-- What a hushed state is told from. -/
theorem Hushed.of_parts (h : Hushed t) (hout : t.out = s.out) (hcur : t.hw.cur = s.hw.cur) (hunacked : t.hw.unacked = s.hw.unacked)
    (hwaiting : t.hw.waiting = s.hw.waiting) (hretired : t.fld F.ringLinkStatARetired = s.fld F.ringLinkStatARetired)
    (hup : t.fld F.ringLinkStatAUp = s.fld F.ringLinkStatAUp) (hasleep : t.fld F.evtLinkSleepAAsleep = s.fld F.evtLinkSleepAAsleep) :
    Hushed s := by
  have hopen : sessionOpen s = true := by rw [sessionOpen, ← hcur]; exact h.opened
  refine ⟨hout.symm.trans h.out, hopen, (linkUsable_congr hopen hcur hretired hup hasleep).symm.trans h.usable, ?_⟩
  rw [windowRoom, ← hunacked, ← hwaiting]
  exact h.full

theorem Hushed.of_regs (h : Hushed t) (hreg : ∀ a, a = A.ringLinkStat ∨ a = A.evtLinkSleep → t.reg a = s.reg a)
    (hout : t.out = s.out) (hhw : t.hw = s.hw) : Hushed s :=
  have hstat : t.reg A.ringLinkStat = s.reg A.ringLinkStat := hreg _ (.inl rfl)
  h.of_parts hout (by rw [hhw]) (by rw [hhw]) (by rw [hhw]) (State.fld_congr hstat) (State.fld_congr hstat)
    (State.fld_congr (hreg _ (.inr rfl)))

theorem Calm.of_regs (hreg : ∀ a, ¬Beside a → t.reg a = s.reg a) (hout : t.out = s.out) (hhw : t.hw = s.hw) : Calm s t := fun h =>
  ⟨h.of_regs (fun a ha => hreg a fun hb => ha.elim hb.1 hb.2.1) hout hhw, hreg _ fun hb => hb.2.2 rfl⟩

/-- Only the registers, the transport and what goes out are asked. -/
theorem Calm.of_hide (e : t.hide 0xFFFFFFFCD s = s.hide 0xFFFFFFFCD s) : Calm s t :=
  .of_regs (fun a _ => State.reg_congr (State.regs_of_hide (by decide) e) a)
    (show (t.hide 0xFFFFFFFCD s).out = (s.hide 0xFFFFFFFCD s).out from congrArg State.out e)
    (show (t.hide 0xFFFFFFFCD s).hw = (s.hide 0xFFFFFFFCD s).hw from congrArg State.hw e)

/-- An operation that changes neither the registers nor the transport. -/
theorem Calm.hides (e : t.hide 0xFFFFFFFCD s = s.hide 0xFFFFFFFCD s) (h : Calm r s) : Calm r t := h.trans (.of_hide e)

theorem State.setReg_calm {a : Nat} {w : Word} (ha : Beside a) (h : Calm r s) : Calm r (s.setReg a w) :=
  h.trans (.of_regs (fun _ hb => State.reg_setReg_other _ _ _ _ fun e => hb (e ▸ ha)) rfl rfl)

theorem State.setFld_calm {f : Fld} {v : Nat} (hf : Beside f.addr) (h : Calm r s) : Calm r (s.setFld f v) := State.setReg_calm hf h

theorem State.addFld_calm {f : Fld} {v : Nat} (hf : Beside f.addr) (h : Calm r s) : Calm r (s.addFld f v) := State.setFld_calm hf h

/-! ### Events, frames, reads -/

theorem wakeLink_out (s : State) (l : Link) : (wakeLink s l).out = s.out ++ [.tc10Wakeup l] := by
  have hout : (setAsleep (s.emit (.tc10Wakeup l)) l false).out = s.out ++ [.tc10Wakeup l] := by cases l <;> rfl
  simp only [wakeLink]
  split
  · exact hout
  · exact hout

theorem wakeLink_calm {l : Link} : Calm r (wakeLink s l) := .of_out (by
  rw [wakeLink_out]
  exact List.concat_ne_nil _ _)

theorem wakeSome_calm (h : Calm r s) : Calm r (wakeSome s) := .ite h (.ite wakeLink_calm wakeLink_calm)

theorem wakeSome_out (h : s.out ≠ []) : (wakeSome s).out ≠ [] := by
  unfold wakeSome
  split
  · exact h
  · split
    all_goals
      rw [wakeLink_out]
      exact List.concat_ne_nil _ _

theorem wakeRequest_calm : Calm r (wakeRequest s) := .of_out (wakeSome_out (List.concat_ne_nil _ _))

theorem wakeFor_calm {k : Nat} (h : Calm r s) : Calm r (wakeFor s k) := .ite wakeRequest_calm h

theorem State.setSource_calm {k : Nat} {v : Source} (h : Calm r s) : Calm r (s.setSource k v) := h.hides (State.setSource_hide rfl ..)

theorem F.evtSrcStatSpiFlag_beside (k : Nat) : Beside (F.evtSrcStatSpiFlag k).addr := by
  simp only [Beside, F.evtSrcStatSpiFlag, A.evtSrcStat, A.ringLinkStat, A.evtLinkSleep, A.pipePllStat]
  omega

theorem F.evtSrcStatCount_beside (k : Nat) : Beside (F.evtSrcStatCount k).addr := F.evtSrcStatSpiFlag_beside k

theorem markSpi_calm {k : Nat} (h : Calm r s) : Calm r (markSpi s k) := .ite (State.setFld_calm (F.evtSrcStatSpiFlag_beside k) h) h

theorem countOccurrence_calm {k : Nat} {b : Bool} (h : Calm r s) : Calm r (countOccurrence s k b) :=
  .ite (wakeFor_calm (State.setFld_calm (F.evtSrcStatCount_beside k) (State.setSource_calm h)))
    (.ite (State.addFld_calm (by decide) (State.setSource_calm h))
      (State.addFld_calm (F.evtSrcStatCount_beside k) (State.setSource_calm h)))

theorem raise_calm {k : Nat} (h : Calm r s) : Calm r (raise s k) := .ite (countOccurrence_calm (markSpi_calm h)) (markSpi_calm h)

theorem setActive_calm {l : Link} (h : Calm r s) : Calm r (setActive s l) := by
  refine h.trans fun hs => ⟨hs.of_parts rfl rfl rfl rfl ?_ ?_ ?_, State.reg_setFld_other _ _ _ _ (by decide)⟩
  all_goals exact State.fld_setFld_apart _ _ (by decide)

theorem ontoUsable_calm (h : Calm r s) : Calm r (ontoUsable s) := .ite (setActive_calm h) h

theorem transmit_out (hopen : sessionOpen s = true) (kind seq : Nat) (body : List Byte) (retx : Bool) :
    (transmit s kind seq body retx).out ≠ [] := by
  obtain ⟨c, hc⟩ := Option.isSome_iff_exists.1 hopen
  simp only [transmit, hc, State.emit]
  exact List.concat_ne_nil _ _

theorem sendNext_out (hopen : sessionOpen s = true) {f : TxFrame} {l : List TxFrame} (h : s.hw.waiting = f :: l) :
    (sendNext s).out ≠ [] := by
  simp only [sendNext, h]
  refine transmit_out ?_ _ _ _ _
  exact hopen

theorem pump_calm (h : Calm r s) : Calm r (pump s) :=
  pump_induct h (wakeSome_calm h) (ontoUsable_calm h) fun _ _ _ hopen _ hw _ => .of_out (sendNext_out hopen hw)

theorem pumpFrames_out (n : Nat) (hopen : sessionOpen s = true) (h : s.out ≠ []) : (pumpFrames n s).out ≠ [] :=
  (pumpFrames_induct (P := fun t => sessionOpen t = true ∧ t.out ≠ []) (fun t f l ht hw _ =>
    ⟨by rw [sessionOpen, sendNext_hw ht.1 hw]; exact ht.1, sendNext_out ht.1 hw⟩) n ⟨hopen, h⟩).2

theorem activeLink_setActive (s : State) (l : Link) : activeLink (setActive s l) = l := by
  have hfld : (setActive s l).fld F.ringLinkStatActive = linkIdx l :=
    State.fld_setFld_of_lt s (by decide) (by cases l <;> decide)
  rw [activeLink, State.flag, hfld]
  cases l <;> rfl

theorem linkUsable_setActive (hopen : sessionOpen s = true) (l : Link) : linkUsable (setActive s l) .a = linkUsable s .a :=
  linkUsable_congr hopen rfl (State.fld_setFld_apart _ _ (by decide)) (State.fld_setFld_apart _ _ (by decide))
    (State.fld_setFld_apart _ _ (by decide))

/-- Where LINK_A can carry frames, the module sends on a link that can. -/
theorem ontoUsable_usable (hopen : sessionOpen s = true) (h : linkUsable s .a = true) :
    linkUsable (ontoUsable s) (activeLink (ontoUsable s)) = true := by
  simp only [ontoUsable]
  split
  · next hmoves =>
    cases hactive : activeLink s with
    | a =>
      rw [hactive, h, Bool.not_true, Bool.false_and] at hmoves
      exact absurd hmoves Bool.false_ne_true
    | b => rw [linkOther, activeLink_setActive, linkUsable_setActive hopen, h]
  · next hstays =>
    cases hactive : activeLink s with
    | a => exact h
    | b =>
      rw [hactive, linkOther, h, Bool.and_true, Bool.not_eq_true', Bool.not_eq_false] at hstays
      exact hstays

/-- With a frame waiting and room for it, a link that can carry frames takes one. -/
theorem pump_out (hopen : sessionOpen s = true) (husable : linkUsable s .a = true) (hwaits : s.hw.waiting ≠ [])
    (hroom : s.hw.unacked.length < 64) : (pump s).out ≠ [] := by
  obtain ⟨f, l, hw⟩ := List.exists_cons_of_ne_nil hwaits
  have hw' : (ontoUsable s).hw.waiting = f :: l := by rw [ontoUsable_hw, hw]
  have hopen' : sessionOpen (ontoUsable s) = true := by rw [sessionOpen, ontoUsable_hw]; exact hopen
  have hsends : pump s = pumpFrames l.length (sendNext (ontoUsable s)) := by
    have hgo : ¬(s.hw.waiting.isEmpty || !sessionOpen s) = true := by simp [hw, hopen]
    have hnext : ¬((ontoUsable s).hw.waiting.isEmpty || decide (64 ≤ (ontoUsable s).hw.unacked.length)) = true := by
      simpa [hw] using hroom
    rw [pump, if_neg hgo]
    dsimp only
    rw [if_pos (ontoUsable_usable hopen husable), hw', List.length_cons, pumpFrames, if_neg hnext]
  rw [hsends]
  exact pumpFrames_out _ (by rw [sessionOpen, sendNext_hw hopen' hw']; exact hopen') (sendNext_out hopen' hw')

theorem sendSeq_calm {kind : Nat} {body : List Byte} {id : Option (BitVec 16)} (h : Calm r s) : Calm r (sendSeq s kind body id) := by
  refine h.trans ?_
  unfold sendSeq
  split
  · next hopen =>
    intro hhushed
    obtain ⟨hbefore, hpll⟩ := pump_calm (.refl _) hhushed
    refine ⟨⟨hbefore.out, hopen, hbefore.usable, ?_⟩, hpll⟩
    by_contra hroom
    refine absurd hhushed.out (pump_out hbefore.opened hbefore.usable (List.concat_ne_nil _ _) ?_)
    simp only [windowRoom, decide_eq_false_iff_not, Decidable.not_not] at hroom
    show s.hw.unacked.length < 64
    omega
  · exact .refl s

theorem writePieces_calm {n a : Nat} {bs : List Byte} (h : Calm r s) : Calm r (writePieces n s a bs) := by
  induction n generalizing s a bs with
  | zero => exact h
  | succ n ih => exact .ite h (ih (sendSeq_calm h))

theorem writeHost_calm {a : Nat} {bs : List Byte} (h : Calm r s) : Calm r (writeHost s a bs) := writePieces_calm h

theorem State.setHw_calm {x : HwState} (hcur : x.cur = s.hw.cur) (hunacked : x.unacked = s.hw.unacked)
    (hwaiting : x.waiting = s.hw.waiting) (h : Calm r s) : Calm r { s with hw := x } :=
  h.trans fun hs => ⟨hs.of_parts rfl hcur hunacked hwaiting rfl rfl rfl, rfl⟩

theorem sendRead_calm {q : ReadReq} (h : Calm r s) : Calm r (sendRead s q) := .ite h (sendSeq_calm (State.setHw_calm rfl rfl rfl h))

theorem pumpReads_calm (h : Calm r s) : Calm r (pumpReads s) := .each (fun _ _ => sendRead_calm) h

theorem readHost_calm {addr len : Nat} {p : ReadFor} (h : Calm r s) : Calm r (readHost s addr len p) :=
  pumpReads_calm (State.setHw_calm rfl rfl rfl h)

/-! ### Completions and records -/

theorem A.ringCplPi_beside (n : Nat) : Beside (A.ringCplPi n) := by
  simp only [Beside, A.ringCplPi, A.ringLinkStat, A.evtLinkSleep, A.pipePllStat]
  omega

theorem F.ringStatState_beside (n : Nat) : Beside (F.ringStatState n).addr := by
  simp only [Beside, F.ringStatState, A.ringStat, A.ringLinkStat, A.evtLinkSleep, A.pipePllStat]
  omega

theorem F.ringStatCause_beside (n : Nat) : Beside (F.ringStatCause n).addr := F.ringStatState_beside n

theorem F.ringPrecHeldCount_beside (p : Nat) : Beside (F.ringPrecHeldCount p).addr := by
  simp only [Beside, F.ringPrecHeldCount, A.ringPrecHeld, A.ringLinkStat, A.evtLinkSleep, A.pipePllStat]
  omega

theorem State.setRing_calm {n : Nat} {x : Ring} (h : Calm r s) : Calm r (s.setRing n x) := h.hides (State.setRing_hide rfl ..)

theorem issueCpl_calm {n : Nat} {c : Cpl} (h : Calm r s) : Calm r (issueCpl s n c) := by
  refine .ite (State.setFld_calm (F.ringStatState_beside n) ?_) ?_
  all_goals
    refine .ite (raise_calm ?_) ?_
    all_goals exact State.setReg_calm (A.ringCplPi_beside n) (writeHost_calm h)

theorem issueHeld_calm {n k : Nat} (h : Calm r s) : Calm r (issueHeld n k s) := by
  induction k generalizing s with
  | zero => exact h
  | succ k ih =>
    unfold issueHeld
    split
    · exact h
    · exact .ite (ih (issueCpl_calm (State.setRing_calm h))) h

theorem drainRing_calm {n : Nat} (h : Calm r s) : Calm r (drainRing s n) := issueHeld_calm h

theorem takeKey_calm (h : Calm r s) : Calm r (takeKey s).2 := State.setHw_calm rfl rfl rfl h

theorem openCpl_calm {n key : Nat} {index : BitVec 32} {tag : BitVec 16} {chain : Bool} (h : Calm r s) :
    Calm r (openCpl s n key index tag chain) := State.setRing_calm h

theorem closeCpl_calm {n key status : Nat} {detail : BitVec 64} {nocpl : Bool} {dep : Option (BitVec 8)} (h : Calm r s) :
    Calm r (closeCpl s n key status detail nocpl dep) := drainRing_calm (State.setRing_calm h)

theorem complete_calm {n : Nat} {index : BitVec 32} {x : DescHdr} {chain : Bool} {status : Nat} {detail : BitVec 64} (h : Calm r s) :
    Calm r (complete s n index x chain status detail) := closeCpl_calm (openCpl_calm (takeKey_calm h))

theorem setPrecHeld_calm {p : Nat} {l : List (List Byte)} (h : Calm r s) : Calm r (setPrecHeld s p l) :=
  State.setFld_calm (F.ringPrecHeldCount_beside p) (h.trans (.of_hide rfl))

/-- A record issues only while the window has room, and what it writes lies beside the registers of the links. -/
theorem issuePrec_calm {p : Nat} {l : List (List Byte)} {rec : List Byte} (hcan : canIssue s = true) :
    Calm r (issuePrec (setPrecHeld s p l) p rec) := by
  intro hhushed
  simp only [issuePrec] at hhushed
  have hwritten := hhushed.of_regs (fun a ha => State.reg_setReg_other _ _ _ _ (by
    simp only [A.ringLinkStat, A.evtLinkSleep] at ha
    simp only [A.ringPrecWr]
    omega)) rfl rfl
  have hbefore : Hushed s := (writeHost_calm (setPrecHeld_calm (.refl s)) hwritten).1
  rw [canIssue, hbefore.full, Bool.and_false] at hcan
  exact absurd hcan Bool.false_ne_true

theorem issuePrecs_calm {p n : Nat} (h : Calm r s) : Calm r (issuePrecs p n s) := by
  induction n generalizing s with
  | zero => exact h
  | succ n ih =>
    unfold issuePrecs
    split
    · exact h
    · split
      · next hissues =>
        simp only [Bool.and_eq_true] at hissues
        exact ih (issuePrec_calm hissues.1.1)
      · exact h

theorem drainPrec_calm {p : Nat} (h : Calm r s) : Calm r (drainPrec s p) := issuePrecs_calm h

theorem pipeRecord_calm {p : Nat} {rec : List Byte} (h : Calm r s) : Calm r (pipeRecord s p rec) :=
  .ite (.ite (raise_calm (drainPrec_calm (setPrecHeld_calm h))) (drainPrec_calm (setPrecHeld_calm h))) h

/-! ### Rings and their descriptors -/

theorem haltRing_calm {n cause : Nat} {stop : BitVec 32} (h : Calm r s) : Calm r (haltRing s n cause stop) := by
  have hctl : Beside (F.ringCtlRun n).addr := by
    simp only [Beside, F.ringCtlRun, A.ringCtl, A.ringLinkStat, A.evtLinkSleep, A.pipePllStat]
    omega
  have hci : Beside (A.ringCi n) := by
    simp only [Beside, A.ringCi, A.ringLinkStat, A.evtLinkSleep, A.pipePllStat]
    omega
  have hstop : Beside (A.ringStopIndex n) := by
    simp only [Beside, A.ringStopIndex, A.ringLinkStat, A.evtLinkSleep, A.pipePllStat]
    omega
  exact raise_calm (State.setFld_calm hctl (State.setReg_calm hci (State.setReg_calm hstop
    (State.setFld_calm (F.ringStatCause_beside n) (State.setFld_calm (F.ringStatState_beside n) (State.setRing_calm h))))))

theorem endRing_calm {n cause : Nat} {stop : BitVec 32} (h : Calm r s) : Calm r (endRing s n cause stop) :=
  .ite (State.setRing_calm h) (haltRing_calm h)

theorem countBad_calm {c : Nat} (h : Calm r s) : Calm r (countBad s c) := raise_calm (State.addFld_calm (by decide) h)

theorem readAhead_calm {n : Nat} (h : Calm r s) : Calm r (readAhead s n) := by
  unfold readAhead
  refine .ite h ?_
  dsimp only
  split
  · exact readHost_calm (State.setRing_calm h)
  · exact .ite h (readHost_calm (State.setRing_calm h))

theorem loopStop_calm {n : Nat} {d : Desc} (h : Calm r s) : Calm r (loopStop s n d) := endRing_calm (complete_calm h)

theorem stepChain_calm {n : Nat} {d : Desc} (h : Calm r s) : Calm r (stepChain s n d) := h.hides (stepChain_hide rfl ..)

theorem setStaging_calm {n : Nat} {c : Option Scene} (h : Calm r s) : Calm r (setStaging s n c) := h.hides (setStaging_hide rfl ..)

theorem keepBefore_calm {n : Nat} (h : Calm r s) : Calm r (keepBefore s n) := h.hides (keepBefore_hide rfl ..)

theorem badDesc_calm {n : Nat} {d : Desc} {status : Nat} (h : Calm r s) : Calm r (badDesc s n d status) :=
  complete_calm (setStaging_calm h)

theorem staged_calm {n : Nat} {d : Desc} {f : Scene → Scene} (h : Calm r s) : Calm r (staged s n d f) :=
  complete_calm (setStaging_calm h)

theorem readPieces_calm {n key addr len : Nat} (h : Calm r s) : Calm r (readPieces s n key addr len) :=
  .each (fun _ _ => readHost_calm) h

theorem beginContent_calm {n : Nat} {d : Desc} (h : Calm r s) : Calm r (beginContent s n d) := by
  unfold beginContent
  split
  · exact badDesc_calm h
  · exact readPieces_calm (State.setRing_calm (openCpl_calm (takeKey_calm h)))

theorem submit_calm {i : WItem} (h : Calm r s) : Calm r (submit s i) := h.hides (submit_hide rfl ..)

theorem handCommit_calm {n : Nat} {d : Desc} (h : Calm r s) : Calm r (handCommit s n d) :=
  submit_calm (setStaging_calm (openCpl_calm (takeKey_calm h)))

theorem actCommit_calm {n : Nat} {d : Desc} (h : Calm r s) : Calm r (actCommit s n d) :=
  .ite (badDesc_calm h) (.ite (State.setRing_calm h) (handCommit_calm h))

theorem actJump_calm {n : Nat} {d : Desc} (h : Calm r s) : Calm r (actJump s n d) :=
  .ite (State.setRing_calm h) (.ite (badDesc_calm (State.setRing_calm h)) (countBad_calm (complete_calm (State.setRing_calm h))))

/-- Words that a descriptor stages, or its rejection. -/
theorem stagedIf_calm {n : Nat} {d : Desc} {f : Scene → Scene} {p : Prop} [Decidable p] (h : Calm r s) :
    Calm r (if p then staged s n d f else badDesc s n d 0x11) := .ite (staged_calm h) (badDesc_calm h)

theorem actScene_calm {n : Nat} {d : Desc} (h : Calm r s) : Calm r (actScene s n d) := by
  unfold actScene
  split
  · exact complete_calm h
  · exact actJump_calm h
  · exact stagedIf_calm h
  · exact beginContent_calm h
  · exact stagedIf_calm h
  · exact beginContent_calm h
  · exact beginContent_calm h
  · exact stagedIf_calm h
  · exact stagedIf_calm h
  · exact .ite (badDesc_calm h) (.ite (badDesc_calm h) (staged_calm h))
  · exact actCommit_calm h
  · exact badDesc_calm h

/-! ### Runs, channels and DMA rings -/

theorem State.setChan_calm {c : Nat} {x : DmaChan} (h : Calm r s) : Calm r (s.setChan c x) := h.hides (State.setChan_hide rfl ..)

theorem F.dmaTchStatBusy_beside (i : Nat) : Beside (F.dmaTchStatBusy i).addr := by
  simp only [Beside, F.dmaTchStatBusy, A.dmaTchStat, A.ringLinkStat, A.evtLinkSleep, A.pipePllStat]
  omega

theorem F.dmaTchStatStatus_beside (i : Nat) : Beside (F.dmaTchStatStatus i).addr := F.dmaTchStatBusy_beside i

theorem F.dmaChStatLastStatus_beside (i : Nat) : Beside (F.dmaChStatLastStatus i).addr := by
  simp only [Beside, F.dmaChStatLastStatus, A.dmaChStat, A.ringLinkStat, A.evtLinkSleep, A.pipePllStat]
  omega

theorem A.dmaTchRuns_beside (i : Nat) : Beside (A.dmaTchRuns i) := by
  simp only [Beside, A.dmaTchRuns, A.ringLinkStat, A.evtLinkSleep, A.pipePllStat]
  omega

theorem noteStatus_calm {c st : Nat} (h : Calm r s) : Calm r (noteStatus s c st) :=
  .ite (State.setFld_calm (F.dmaTchStatStatus_beside _) h) h

theorem beginRun_calm {c : Nat} (h : Calm r s) : Calm r (beginRun s c) :=
  .ite h (.ite (raise_calm (State.addFld_calm (by decide) h)) (State.setChan_calm
    (State.setFld_calm (F.dmaTchStatStatus_beside _) (State.setFld_calm (F.dmaTchStatBusy_beside _) h))))

theorem closeRun_calm {c : Nat} (h : Calm r s) : Calm r (closeRun s c) :=
  raise_calm (State.setReg_calm (A.dmaTchRuns_beside _) (State.setFld_calm (F.dmaTchStatBusy_beside _) (State.setChan_calm h)))

theorem noteEntry_calm {c st : Nat} (h : Calm r s) : Calm r (noteEntry s c st) :=
  have hnoted := State.setFld_calm (F.dmaChStatLastStatus_beside c) h
  .ite hnoted (countBad_calm (noteStatus_calm hnoted))

theorem takeEntry_calm {c a : Nat} (h : Calm r s) : Calm r (takeEntry s c a) := State.setChan_calm h

theorem runNext_calm {k c : Nat} (h : Calm r s) : Calm r (runNext k s c) := by
  induction k generalizing s c with
  | zero => exact h
  | succ k ih =>
    have hfollow {l : List Nat} {x : State} (hx : Calm r x) : Calm r (l.foldl (fun s f =>
        let was := (s.chan f).runAt
        let s := beginRun s f
        if was.isNone then runNext k s f else s) x) :=
      Calm.each (fun _ _ hs => .ite (ih (beginRun_calm hs)) (beginRun_calm hs)) hx
    unfold runNext
    dsimp only
    split
    · exact h
    · split
      · exact h
      · exact ih (noteEntry_calm (State.setChan_calm h))
    · exact .ite (hfollow (closeRun_calm (State.setFld_calm (F.dmaTchStatStatus_beside _) h))) (.ite (hfollow (closeRun_calm h))
        (.ite (hfollow (closeRun_calm (noteStatus_calm h))) (.ite (hfollow (closeRun_calm (noteEntry_calm h)))
          (.ite (hfollow (closeRun_calm (noteEntry_calm h))) (.ite (takeEntry_calm h) h)))))

theorem triggerChan_calm {c : Nat} (h : Calm r s) : Calm r (triggerChan s c) := .ite (runNext_calm (beginRun_calm h)) (beginRun_calm h)

theorem triggerFollowers_calm {c : Nat} (h : Calm r s) : Calm r (triggerFollowers s c) := .each (fun _ _ => triggerChan_calm) h

theorem endDesc_calm {c status : Nat} {detail : BitVec 64} {dep : Option (BitVec 8)} (h : Calm r s) :
    Calm r (endDesc s c status detail dep) := by
  unfold endDesc
  split
  · exact h
  · next x _ =>
    have hrec := (State.setFld_calm (v := status) (F.dmaChStatLastStatus_beside c) (State.setChan_calm (c := c)
      (x := { s.chan c with inHand := none, got := [], asked := 0, failed := false, dep := none }) h)).hides
      (endChanRecovery_hide rfl _ _ c)
    have hbad := Calm.ite (p := isBad status = true) (countBad_calm (c := c) hrec) hrec
    refine .ite (runNext_calm (.ite hbad (noteStatus_calm hbad))) (.ite (triggerFollowers_calm ?_) ?_)
    all_goals
      split
      · exact closeCpl_calm hbad
      · exact hbad

theorem askHost_calm {c k : Nat} (h : Calm r s) : Calm r (askHost c k s) := by
  induction k generalizing s with
  | zero => exact h
  | succ k ih =>
    unfold askHost
    dsimp only
    split
    · exact h
    · exact .ite (ih (readHost_calm (State.setChan_calm h))) h

theorem takeDescs_calm {k c : Nat} (h : Calm r s) : Calm r (takeDescs k s c) := by
  induction k generalizing s with
  | zero => exact h
  | succ k ih =>
    unfold takeDescs
    dsimp only
    split
    · exact .ite h (.ite (ih (endDesc_calm (State.setChan_calm h))) (askHost_calm (State.setChan_calm h)))
    · exact h

theorem handDma_calm {n : Nat} {d : Desc} {at_ batch : Nat} {marks : List (BitVec 32)} (h : Calm r s) :
    Calm r (handDma s n d at_ batch marks) := takeDescs_calm (State.setChan_calm (openCpl_calm (takeKey_calm h)))

theorem actDma_calm {n : Nat} {d : Desc} {x : Ring} (h : Calm r s) : Calm r (actDma s n d x) := by
  unfold actDma
  split
  · exact complete_calm h
  · exact actJump_calm h
  · exact handDma_calm h

/-! ### A ring goes on -/

theorem afterAct_calm {n : Nat} {d : Desc} (h : Calm r s) : Calm r (afterAct s n d) := .ite h (stepChain_calm h)

theorem countHop_calm {n : Nat} {d : Desc} (h : Calm r s) (hhop : countHop s n d = some t) : Calm r t := by
  simp only [countHop, Option.ite_none_left_eq_some, Option.some.injEq] at hhop
  rw [← hhop.2]
  exact State.setRing_calm h

theorem actOn_calm {n : Nat} {d : Desc} (h : Calm r s) : Calm r (actOn s n d) := by
  have hbefore : Calm r (if d.chain then s else keepBefore s n) := .ite h (keepBefore_calm h)
  unfold actOn
  dsimp only
  split
  · exact loopStop_calm hbefore
  · next hhop =>
    have hhopped := countHop_calm hbefore hhop
    exact afterAct_calm (.ite (actScene_calm hhopped) (actDma_calm hhopped))

theorem runRing_calm {k n : Nat} (h : Calm r s) : Calm r (runRing k s n) := by
  induction k generalizing s with
  | zero => exact h
  | succ k ih =>
    unfold runRing
    split
    · exact .ite h (haltRing_calm h)
    · refine .ite (haltRing_calm h) (.ite h ?_)
      split
      · exact .ite h (ih (stepChain_calm (handCommit_calm (State.setRing_calm h))))
      · split
        · exact readAhead_calm h
        · exact .ite h (ih (actOn_calm (State.setRing_calm h)))

/-! ### The ports -/

theorem takeTwin_calm {mine : Nat × Nat × Bool → Bool} (h : Calm r s) : Calm r (takeTwin s mine) :=
  State.addFld_calm (by decide) (h.trans (.of_hide rfl))

theorem moveProgress_calm {k code : Nat} {f : Nat × Nat → Nat × Nat} (h : Calm r s) : Calm r (moveProgress s k code f) := by
  unfold moveProgress
  refine .ite (takeTwin_calm h) (.ite (h.trans (.of_hide rfl)) (.ite (h.trans (.of_hide rfl)) (.ite ?_ ?_)))
  · split
    · exact h
    · exact h.trans (.of_hide rfl)
  · exact .ite (State.setChan_calm h) (.ite (h.hides (fenceRead_hide rfl ..)) (h.trans (.of_hide rfl)))

theorem fillBlocks_calm (h : Calm r s) : Calm r (fillBlocks s) := h.hides (fillBlocks_hide rfl ..)

theorem State.setGate_calm {m : Nat} {g : Gate} (h : Calm r s) : Calm r (s.setGate m g) := h.hides (State.setGate_hide rfl ..)

theorem countBytes_calm {k cls a n : Nat} (h : Calm r s) : Calm r (countBytes s k cls a n) := h.hides (countBytes_hide rfl ..)

theorem startBurst_calm {m : Nat} {q : Req} (h : Calm r s) : Calm r (startBurst s m q) :=
  State.setGate_calm (moveProgress_calm (.ite h (.ite (countBytes_calm h) (countBytes_calm (h.hides (charge_hide rfl ..))))))

theorem cutBurst_calm {m : Nat} (h : Calm r s) : Calm r (cutBurst s m) := by
  unfold cutBurst
  split
  · exact h
  · exact .ite (moveProgress_calm ((State.setGate_calm h).hides (State.freshen_hide rfl ..))) h

theorem servePort_calm {k m : Nat} (h : Calm r s) : Calm r (servePort k s m) := by
  induction k generalizing s with
  | zero => exact h
  | succ k ih =>
    unfold servePort
    dsimp only
    split
    · exact fillBlocks_calm h
    · exact ih (startBurst_calm (fillBlocks_calm h))

theorem servePorts_calm (h : Calm r s) : Calm r (servePorts s) :=
  .ite (fillBlocks_calm h) (.each (fun _ _ hs => servePort_calm (cutBurst_calm hs)) (fillBlocks_calm h))

/-! ### Faults and forced content -/

theorem changeForce_calm {f : State → State} (hf : ∀ x, Calm r x → Calm r (f x)) (h : Calm r s) : Calm r (changeForce s f) :=
  (Calm.ite (raise_calm (hf s h)) (hf s h)).hides (refreshTelltales_hide rfl ..)

theorem forceHold_calm {c p : Nat} {on : Bool} (h : Calm r s) : Calm r (forceHold s c p on) :=
  changeForce_calm (fun _ hx => hx.hides (putCause_hide rfl ..)) h

theorem setThrottle_calm {reproof : Bool} {held : Nat} (h : Calm r s) : Calm r (setThrottle s reproof held) :=
  have hset {v w : Nat} : Calm r (((settleLevels s).setFld F.schedThrottleReproof v).setFld F.schedThrottleHeld w) :=
    State.setFld_calm (by decide) (State.setFld_calm (by decide) (h.hides (settleLevels_hide rfl ..)))
  .ite (raise_calm hset) hset

theorem pipeFault_calm {p cause : Nat} (h : Calm r s) : Calm r (pipeFault s p cause) := by
  have hstat : Beside (F.pipeStatCause p).addr := by
    simp only [Beside, F.pipeStatCause, A.pipeStat, A.ringLinkStat, A.evtLinkSleep, A.pipePllStat]
    omega
  exact raise_calm (State.setFld_calm hstat h)

theorem objectFault_calm {p : Fin 8} {cause : Nat} (h : Calm r s) : Calm r (objectFault s p cause) := by
  have hstat : Beside (F.objPipeStatCause p).addr := by
    simp only [Beside, F.objPipeStatCause, A.objPipeStat, A.ringLinkStat, A.evtLinkSleep, A.pipePllStat]
    omega
  exact raise_calm (State.addFld_calm (by decide) (State.setFld_calm hstat h))

theorem layerSlotStat_beside {n : Nat} (h : n < 0x100) : Beside (A.layerSlotStat n) := by
  simp only [Beside, A.layerSlotStat, A.ringLinkStat, A.evtLinkSleep, A.pipePllStat]
  omega

theorem hwSlot_lt (n : Nat) : hwSlot n < 0x100 := Nat.mod_lt _ (by decide)

theorem setSlotCause_calm {n v : Nat} (h : Calm r s) : Calm r (s.setFld (F.layerSlotStatCause (hwSlot n)) v) :=
  State.setFld_calm (layerSlotStat_beside (hwSlot_lt n)) h

theorem slotFault_calm {n cause : Nat} (h : Calm r s) : Calm r (slotFault s n cause) := raise_calm (setSlotCause_calm h)

theorem setOnTwin_calm {code : Nat} {on : Bool} (h : Calm r s) : Calm r (setOnTwin s code on) := by
  unfold setOnTwin
  split
  · exact h.trans (.of_hide rfl)
  · next hslot =>
    rw [isLeaver, decide_eq_true_eq, Nat.not_le] at hslot
    exact State.setFld_calm (layerSlotStat_beside hslot) h

theorem State.setPipe_calm {p : Nat} {x : PipeRt} (h : Calm r s) : Calm r (s.setPipe p x) := h.hides (State.setPipe_hide rfl ..)

theorem State.mapScene_calm {f : SceneState → SceneState} (h : Calm r s) : Calm r (s.mapScene f) :=
  h.hides (State.mapScene_hide rfl ..)

theorem State.setFetches_calm {v : SMap Fetch} (h : Calm r s) : Calm r { s with fetches := v } := h.trans (.of_hide rfl)

theorem holdOffPlanar_calm {p n : Nat} (h : Calm r s) : Calm r (holdOffPlanar s p n) :=
  forceHold_calm (State.setPipe_calm (State.setFetches_calm h))

theorem recheckClassS_calm {p : Nat} (h : Calm r s) : Calm r (recheckClassS s p) := forceHold_calm h

theorem loseLayer_calm {m n : Nat} (h : Calm r s) : Calm r (loseLayer s m n) :=
  .ite h (.ite (setSlotCause_calm (setOnTwin_calm (State.setFetches_calm h)))
    (.ite (holdOffPlanar_calm (setOnTwin_calm (slotFault_calm h))) ((slotFault_calm h).hides (offFrame_hide rfl ..))))

/-! ### Records of a pipe -/

theorem pipeEvent_calm {p k : Nat} (h : Calm r s) : Calm r (pipeEvent s p k) := raise_calm h

theorem flushReleases_calm {f : Release → Bool} (h : Calm r s) : Calm r (flushReleases s f) :=
  .each (fun _ _ => pipeRecord_calm) (State.mapScene_calm h)

theorem flushFlips_calm {f : FlipDue → Bool} (h : Calm r s) : Calm r (flushFlips s f) :=
  .each (fun _ _ hs => pipeEvent_calm (pipeRecord_calm hs)) (State.mapScene_calm h)

theorem drainReleases_calm (h : Calm r s) : Calm r (drainReleases s) := flushReleases_calm (flushFlips_calm (flushReleases_calm h))

theorem addRelease_calm {x : Release} (h : Calm r s) : Calm r (addRelease s x) := State.mapScene_calm h

theorem releasesAtCommit_calm {a : Armed} (h : Calm r s) : Calm r (releasesAtCommit s a) :=
  drainReleases_calm (.each (fun _ _ hs => .each (fun _ _ hs => .ite (addRelease_calm hs) hs) hs) h)

/-! ### What applies at a pipe -/

theorem abandonLoad_calm {l : LoftLoad} (h : Calm r s) : Calm r (abandonLoad s l) := objectFault_calm (State.mapScene_calm h)

theorem laySlot_calm {w : Writes} {n c : Nat} (h : Calm r s) : Calm r (laySlot s w n c) := h.hides (laySlot_hide rfl ..)

theorem returnSlot_calm {w : Writes} {p n c : Nat} (h : Calm r s) : Calm r (returnSlot s w p n c) :=
  .ite (State.setPipe_calm (.ite (setOnTwin_calm h) h)) (.ite (setOnTwin_calm h) h)

theorem slotArrives_calm {prior : Comp} {w : Writes} {p n : Nat} (h : Calm r s) : Calm r (slotArrives s prior w p n) := by
  have hmade (q : Nat) : Calm r (makeLeaver s q n) := h.hides (makeLeaver_hide rfl ..)
  refine recheckClassS_calm (returnSlot_calm (.ite (State.setPipe_calm ?_) ?_))
  all_goals exact (laySlot_calm (State.mapScene_calm (.ite (hmade _) (State.setPipe_calm h)))).hides (takeArrived_hide rfl ..)

theorem applySlot_calm {prior : Comp} {w : Writes} {p n : Nat} (h : Calm r s) : Calm r (applySlot prior w p s n) :=
  .ite (.ite (returnSlot_calm (laySlot_calm h)) (.ite (h.hides (dropLeaver_hide rfl ..)) (State.mapScene_calm h)))
    (.ite (slotArrives_calm h) h)

theorem darken_calm {p : Nat} {frame : BitVec 32} (h : Calm r s) : Calm r (darken s p frame) := by
  have hoff {l : List Nat} {x : State} (hx : Calm r x) : Calm r (x.each l fun s n => setOnTwin s n false) :=
    .each (fun _ _ => setOnTwin_calm) hx
  unfold darken
  exact recheckClassS_calm (drainReleases_calm (State.setPipe_calm (State.setFetches_calm (State.mapScene_calm
    (hoff (.each (fun _ _ => addRelease_calm) h))))))

theorem applyRest_calm {a : Armed} {p : Nat} {frame : BitVec 32} (h : Calm r s) : Calm r (applyRest s a p frame) :=
  .each (fun _ _ => abandonLoad_calm) (State.setPipe_calm (((State.mapScene_calm (h.hides (setBin_hide rfl ..))).hides
    (putCtxWords_hide rfl ..)).hides (dropOff_hide rfl ..)))

theorem flipOf_calm {a : Armed} {p : Nat} {frame : BitVec 32} (h : Calm r s) : Calm r (flipOf s a p frame) := by
  unfold flipOf
  exact State.mapScene_calm (.ite h (pipeEvent_calm h))

theorem applyPart_calm {k p : Nat} {frame : BitVec 32} {atStart : Bool} (h : Calm r s) : Calm r (applyPart s k p frame atStart) := by
  unfold applyPart
  split
  · exact h
  · next a _ =>
    have hslots {l : List Nat} {prior : Comp} : Calm r ((applyRest s a p frame).each l (applySlot prior a.writes p)) :=
      .each (fun _ _ => applySlot_calm) (applyRest_calm h)
    have hlost {x : State} {l : List Nat} (hx : Calm r x) : Calm r (x.each l fun s n =>
        s.each [0, 1, 2, 3] fun s m => if mcInService s m then s else loseLayer s m n) :=
      .each (fun _ _ hs => .each (fun _ _ hs => .ite hs (loseLayer_calm hs)) hs) hx
    refine .ite (darken_calm (hlost ?_)) (hlost ?_)
    all_goals
      refine (flipOf_calm ?_).hides (leavePipe_hide rfl ..)
      refine .ite (pipeFault_calm (forceHold_calm (State.setPipe_calm ?_))) ?_
      all_goals exact forceHold_calm (recheckClassS_calm (State.setPipe_calm hslots))

theorem applyToStopped_calm {k : Nat} (h : Calm r s) : Calm r (applyToStopped s k) := by
  unfold applyToStopped
  split
  · exact h
  · exact .ite (.each (fun _ _ => applyPart_calm) h) h

theorem setArmed_calm {a : Armed} (h : Calm r s) : Calm r (setArmed s a) := State.mapScene_calm h

theorem applyStopped_calm {k : Nat} (h : Calm r s) : Calm r (applyStopped s k) := by
  unfold applyStopped
  split
  · exact h
  · exact .ite (.each (fun _ _ => applyPart_calm) (.ite h (releasesAtCommit_calm (setArmed_calm h)))) h

/-! ### Arming and deciding -/

theorem armScene_calm {sc : Scene} (h : Calm r s) : Calm r (armScene s sc) :=
  Calm.hides (queueReadmit_hide rfl ..) (.each (fun _ _ => applyStopped_calm)
    (servePorts_calm (.each (fun _ _ hs => hs.hides (askStopped_hide rfl ..)) (State.mapScene_calm h))))

theorem liftHolds_calm {lift : BitVec 4} (h : Calm r s) : Calm r (liftHolds s lift) := .ite h (setThrottle_calm h)

theorem armWritten_calm (h : Calm r s) : Calm r (armWritten s) :=
  .each (fun _ _ hs => armScene_calm (liftHolds_calm hs)) (State.mapScene_calm h)

theorem dropPart_calm {a : Armed} {reason : Nat} (h : Calm r s) : Calm r (dropPart s a reason) :=
  .each (fun _ _ hs => pipeEvent_calm (pipeRecord_calm hs)) (State.addFld_calm (by decide) (State.mapScene_calm h))

theorem slipPart_calm {a : Armed} (h : Calm r s) : Calm r (slipPart s a) :=
  .ite (dropPart_calm h) (.each (fun _ _ hs => pipeEvent_calm (hs.hides (State.perfAdd_hide rfl ..)))
    (State.addFld_calm (by decide) (setArmed_calm h)))

theorem decidePart_calm {k : Nat} (h : Calm r s) : Calm r (decidePart s k) := by
  unfold decidePart
  split
  · exact h
  · exact .ite h (.ite (applyToStopped_calm (releasesAtCommit_calm ((setArmed_calm (setArmed_calm h)).hides (dropAhead_hide rfl ..))))
      (.ite (setArmed_calm h) (slipPart_calm (setArmed_calm h))))

theorem decideParts_calm (h : Calm r s) : Calm r (decideParts s) :=
  .each (fun _ _ hs => applyStopped_calm (decidePart_calm hs)) h

/-! ### What goes on after a command -/

theorem endEntries_calm (h : Calm r s) : Calm r (endEntries s) := .each (fun _ _ hs => .ite (runNext_calm hs) hs) h

theorem takeEntries_calm (h : Calm r s) : Calm r (takeEntries s) := .each (fun _ _ hs => .ite (runNext_calm hs) hs) h

theorem portsGoOn_calm (h : Calm r s) : Calm r (portsGoOn s) :=
  decideParts_calm (.each (fun _ _ => askHost_calm) (servePorts_calm (takeEntries_calm (servePorts_calm (endEntries_calm h)))))

theorem ringsGoOn_calm (h : Calm r s) : Calm r (ringsGoOn s) :=
  .each (fun _ _ => runRing_calm) (armWritten_calm (.each (fun _ _ => drainRing_calm) h))

theorem settle_calm (h : Calm r s) : Calm r (settle s) :=
  portsGoOn_calm (pumpReads_calm (armWritten_calm (ringsGoOn_calm (.each (fun _ _ => drainPrec_calm) (drainReleases_calm h)))))

theorem Hushed.of_pending {q : List Instr} (h : Hushed { s with pending := q }) : Hushed s := ⟨h.out, h.opened, h.usable, h.full⟩

end Sys2Proof.Machine
end

section
/-! PROOFS. The time-out of a PLL (spec 10, R261): a statement that fails. The halt of the last pipe lets what was held go on before a
retested link returns, and nothing tells a state before `settle` that LOCK_FAIL was written over. -/

namespace Sys2Proof.Proofs.ScanoutTiming

open Sys2Proof.Machine Sys2Proof.Tests

/-- A retired unit that its retest found sound. -/
def soundAgain : FUnit := { unitInit with retired := true, ready := true }

/-- A frame that waits to be sent. -/
def waitingFrame : TxFrame := { kind := 1, seq := 0, body := [], retx := false, sends := 0, readId := none }

/-- Pipe 0 runs on PLL 0. A session is open and 62 frames wait: LINK_A is retired and LINK_B is on its way up. Two records are held for
a ring beyond the eight, whose PREC_WR is PLL_STAT of PLL 0. DMA channel 0 and LINK_A have passed their retests. -/
def farRecords : State :=
  (({ State.reset with
      hw := { hwReset with cur := some { theSess with hwCtl := 3 }, waiting := List.replicate 62 waitingFrame, waking := 2 },
      precHeld := [(0x2F02, List.replicate 2 (List.replicate 16 0))],
      pipes := [(0, { pipeInit with gen := .running })],
      fault := { State.reset.fault with units := [(dmaUnit 0, soundAgain), (0x60, soundAgain)] } }.setFld F.ringLinkStatAUp 1).setFld
    F.ringLinkStatARetired 1).setFld (F.ringPrecCfgEn 0x2F02) 1

theorem farRecords_hushed : Hushed (leftBy (.pllLockTimeout 0) farRecords) where
  out := by decide +kernel
  opened := by decide +kernel
  usable := by decide +kernel
  full := by decide +kernel

theorem farRecords_lockFail : (leftBy (.pllLockTimeout 0) farRecords).fld (F.pipePllStatLockFail 0) = 0 := by decide +kernel

/-- What a command leaves hushed had, before what goes on after it, the same word in PLL_STAT of PLL 0. -/
theorem lockFail_of_hushed {c : Instr} {s u : State} (h : Leaves c s (settle u)) (hhushed : Hushed (leftBy c s)) :
    u.fld (F.pipePllStatLockFail 0) = (leftBy c s).fld (F.pipePllStatLockFail 0) := by
  rw [leftBy_of_leaves h] at hhushed
  obtain ⟨-, hpll⟩ := settle_calm (.refl u) hhushed.of_pending
  exact (State.fld_congr (f := F.pipePllStatLockFail 0) hpll).symm.trans (leftBy_fld h _).symm

/-- Refutes O45: the stop of the pipes lets held records issue before LINK_A returns, and they count over LOCK_FAIL. No state with
LOCK_FAIL set settles to what is left, where LINK_A can carry frames, the window is full and nothing has gone out. -/
theorem not_pipeLocks : ¬Obligations.PipeLocks := by
  rintro ⟨-, -, -, htimeout, -⟩
  obtain ⟨u, hexec, hfail, -⟩ := htimeout 0 farRecords rfl (by decide +kernel) rfl ⟨0, by decide +kernel, by decide +kernel⟩
  have hzero : u.fld (F.pipePllStatLockFail 0) = 0 := (lockFail_of_hushed hexec farRecords_hushed).trans farRecords_lockFail
  exact absurd (hzero.symm.trans hfail) (by decide)

end Sys2Proof.Proofs.ScanoutTiming
end
